-- ==== Sys2Proof/Word.lean ====
section
/-! DEFINITION. The word types of the block's registers and its memories, and the names of its register
blocks (R74). -/
namespace Sys2Proof

/-- A BAR0 register word. -/
abbrev Word := BitVec 32

/-- A byte of a memory. -/
abbrev Byte := BitVec 8

/-- The block classes of the BAR0 map (R74). `sendV` and `sendT` are pages 0–3 and 4–19 of SEND,
`witness` and `witChain` are WITNESS 0–63 and WITNESS 64: their layouts differ. -/
inductive Blk where
  | global | mgmt | time | deal | nvm | power | snap | debug
  | mlane | nlane | nport | ingest | engine | memsw | talon | ledger | recorder
  | head | layer | oport | sendV | sendT | audio | witness | witChain
deriving DecidableEq, Repr

end Sys2Proof
end

