-- ==== Sys2Proof/Syntax.lean ====
section
/-! DEFINITION. The commands of the block: one constructor of `Instr` for each row of the table of
operations and events, with the operands each brings from outside the device. Every command carries the
house time `t` of its edge. Operands that outside hardware decides (received data, detector results, what
an unread medium returns) are operands here. -/
namespace Sys2Proof

/-- A page of the BAR0 map: its block, instance number and page index (R74). -/
structure PageRef where
  blk : Blk
  inst : Nat
  page : Nat
deriving DecidableEq, Repr

/-- Books that an audit comparison finds failing (R46, R491). -/
inductive Books where
  | talonSlabs
  | tagPool (pool : Fin 20)
  | credits (sender receiver : Fin 31)
  | dealBids
  | audioFifo (stream : Fin 128)
  | witnessChain
deriving DecidableEq, Repr

/-- An upset of the talon's books: a slab that FREE and its owner lose sight of; an owner's map that loses the slab at a
position; a position that comes to name a slab besides its owner (R53). -/
inductive SlabUpset where
  | leak (slab : Nat)
  | lose (owner pos : Nat)
  | claim (owner pos slab : Nat)
deriving DecidableEq, Repr

/-- A handshake channel's books (R48): at the sender the credits held and the tokens sent, at the receiver the tokens
received, the credits returned and the free entries, and the two levels. -/
structure ChanRead where
  credits : Nat
  sent : BitVec 16
  received : BitVec 16
  returned : BitVec 16
  freed : Nat
  req : Bool
  ack : Bool
deriving DecidableEq, Repr

/-- Books as an owner's hardware holds them at an audit where they stand otherwise than the commands left them: an upset
of the talon, a tag pool, a channel, the counters of an audio FIFO, the bids of a seat in one deal, and the records
handed over, the counter advance and the records in flight of the witness chain (R46). -/
inductive BookRead where
  | slabs (u : SlabUpset)
  | tags (pool : Fin 20) (free out : Nat)
  | channel (sender receiver : Fin 31) (c : ChanRead)
  | fifo (stream : Fin 128) (written read fill : Nat)
  | bids (seat : Fin 64) (n : Nat)
  | witness (handed advance inFlight : Nat)
deriving DecidableEq, Repr

/-- Equaliser values in use of a receiver (R93): CTLE code, the DFE words A and B, and the four FFE words
of a network lane. -/
structure EqValues where
  ctle : BitVec 6
  dfeA : Word
  dfeB : Word
  ffe : List Word
deriving DecidableEq, Repr

/-- What arrives where a bond lane expects an alignment marker (R107, R108): the eight payload bytes when a block
with sync header 0b10 stands there, the scrambled blocks since the last marker as runs of a count and a block (whether its
sync header is 0b10, and its payload), the skew in bits against the lane with BOND_LANE 0, and whether the bits stand
inverted at the ball. -/
structure MarkerRx where
  payload : Option (List Byte)
  blocks : List (Nat × Bool × BitVec 64)
  skew : Int
  inverted : Bool := false
deriving DecidableEq, Repr

/-- What the stream of a bond carries (R107): idle blocks, or the next of the messages that wait to be sent on it. -/
inductive BondItem where
  | idle (n : Nat)
  | next
deriving DecidableEq, Repr

/-- A stretch of received test data (R99, R100): bits at the ball of an NRZ lane, levels 0 to 3 at the ball of a PAM4
lane, or a number of bits that go on in the checker's pattern without an error. -/
inductive TestData where
  | bits (l : List Bool)
  | levels (l : List (Fin 4))
  | good (n : Nat)
deriving DecidableEq, Repr

/-- Test data received on a lane. -/
structure LaneRx where
  lane : Fin 112
  rx : List TestData
deriving DecidableEq, Repr

/-- A stream's signalled format (R114, R124, R141): active and total raster, sampling as FMT_COLOUR gives it
(0 RGB, 1 Y'CbCr 4:4:4, 2 4:2:2, 3 4:2:0), depth code, colour signalling, interlace and field parity. -/
structure SigFmt where
  width : Nat
  height : Nat
  htotal : Nat
  vtotal : Nat
  sampling : Nat
  depth : Nat
  narrow : Bool
  colorimetry : Nat
  transfer : Nat
  interlaced : Bool
  bottom : Bool
  /-- whether the standard's own limits of R114 hold for what the raster alone does not show -/
  supported : Bool
deriving DecidableEq, Repr

/-- How a stream's active lines end (R124, R125): the total raster measured for the frame, whether its
links were skewed by more than 2 lines (R136) and the audio or ancillary data it carried apart. -/
structure FrameEnd where
  htotal : Nat
  vtotal : Nat
  skewed : Bool
deriving DecidableEq, Repr

/-- A received ST 2110 packet (R115 to R118): its path, the addresses it matched, its RTP fields and its
payload: sample row data for -20 (line, first pixel, samples in plain order), PCM or AES3 words for -30 and
-31, and bytes for -40. -/
structure RtpPacket where
  path2 : Bool
  dest : Nat
  port : Nat
  ssrc : Nat
  ptype : Nat
  seq : Nat
  rtp : Nat
  marker : Bool
  rows : List (Nat × Nat × List Nat)
  bottom : Bool
  words : List (List Nat)
  bytes : List Byte
  /-- the interface it came on, where that was path 2 -/
  netif2 : Nat := 0
deriving DecidableEq, Repr

/-- A host-surface DMA descriptor as read from host memory (R133). -/
structure Descriptor where
  hostAddr : Nat
  stride : Nat
  eof : Bool
  irq : Bool
  reserved : Bool
  x : Nat
  y : Nat
  w : Nat
  h : Nat
  stamp : Nat
deriving DecidableEq, Repr

/-- An error in a read of a tile of a picture (R161): its place and the failing burst, in the tile's data or in its
metadata entry, and whether the memory switch could correct it. -/
structure ReadError where
  col : Nat
  row : Nat
  burst : Nat
  inMeta : Bool
  fixed : Bool := false
deriving DecidableEq, Repr

/-- A command of a context that reads the frame store, with the errors its reads meet (R161). -/
structure CtxRead where
  ctx : Fin 256
  errs : List ReadError := []
deriving DecidableEq, Repr

/-- What a BAR2 read meets (R78, R161): an uncorrectable error at an address, and errors corrected. -/
structure MemErr where
  ue : Option Nat := none
  ce : Nat := 0
deriving DecidableEq, Repr

/-- An access of an input source to a sink address other than its EDID table (R120, R122). -/
inductive SinkAccess where
  /-- the HDCP DDC address -/
  | hdcpDdc
  /-- the HDCP capability of the DPCD -/
  | dpcdHdcp
  /-- the DPCD link-rate capability for 8b/10b, and the 128b/132b rates -/
  | dpcdMaxRate
  | dpcdUhbr
  /-- the DPCD lane-count capability -/
  | dpcdMaxLanes
  /-- the SCDC rate capability of a fixed-rate link -/
  | scdcMaxFrl
  /-- any other DPCD or SCDC address, whose content the spec does not give -/
  | other
deriving DecidableEq, Repr

/-- What the best master clock algorithm compares of a clock (R354): priority1, class, accuracy, variance, priority2,
identity of the grandmaster, and steps to it. -/
structure PtpClock where
  priority1 : Nat
  clockClass : Nat
  accuracy : Nat
  variance : Nat
  priority2 : Nat
  gm : BitVec 64
  steps : Nat
deriving DecidableEq, Repr

/-- What a PTP message received carries (R354). `xo` is the XO156 error the TIME block measures at it, in ppb. -/
inductive PtpMsg where
  /-- an Announce: the port that sends it, and the clock it announces -/
  | announce (sender : BitVec 80) (clock : PtpClock)
  /-- Sync of the master followed: sequence, origin timestamp, correction, whether a Follow_Up carries the timestamp -/
  | sync (seq : BitVec 16) (origin : Nat) (corr xo : Int) (twoStep : Bool)
  | followUp (seq : BitVec 16) (origin : Nat) (corr xo : Int)
  /-- Delay_Resp: receive timestamp of the request, and correction -/
  | delayResp (rx : Nat) (corr : Int)
  /-- a peer's response with its follow-up: receive and transmit timestamps, and correction -/
  | pdelayResp (rx tx : Nat) (corr : Int)
  /-- requests of a slave and of a peer -/
  | delayReq
  | pdelayReq
deriving DecidableEq, Repr

/-- PTP messages the port sends (R354); an Announce names clock class, priority1 and domain. -/
inductive PtpSend where
  | announce (clockClass priority1 domain : Nat)
  | sync
  | delayReq
  | pdelayReq
  /-- answers to the requests of a slave and of a peer, with the time the request was received -/
  | delayResp (rx : Nat)
  | pdelayResp (rx : Nat)
deriving DecidableEq, Repr

/-- A message the PTP port is due to send. -/
inductive PtpDue where
  | announce
  | sync
  | delayRequest
deriving DecidableEq, Repr

/-- Embedded audio that a received line brings (R334): the signalled rate in Hz, whether it is L-PCM, whole
frames of channel words in the layout of R323, and whether SDI signals it as asynchronous. -/
structure EmbeddedAudio where
  rate : Nat
  pcm : Bool
  channels : Nat
  frames : List (List (BitVec 29))
  asynchronous : Bool := false
deriving DecidableEq, Repr

/-- A subframe of an AES3 frame (R329): sample, validity, user and channel-status bits, and whether parity holds. -/
structure AesSub where
  sample : BitVec 24
  v : Bool
  u : Bool
  c : Bool
  parity : Bool
deriving DecidableEq, Repr

/-- A received AES3 frame: whether it starts with a Z preamble, and its two subframes. -/
structure AesFrame where
  z : Bool
  a : AesSub
  b : AesSub
deriving DecidableEq, Repr

/-- What the standards that the spec cites decide at a seal (R196, R254): a port whose format its link does not
carry or whose raster SDI does not define, or a head whose DSC settings DSC_PPS cannot encode. -/
inductive StdFail where
  | port (p : Fin 96)
  | dsc (head : Fin 16)
deriving DecidableEq, Repr

/-- A tile-class message as it arrives (R365): over an interface, addressed to `dest` and `port`, or over a bond. -/
structure TileRx where
  bond : Option (Fin 16)
  netif : Fin 16
  dest : Nat
  port : Nat
  msg : List Byte
  /-- errors that the reads for a STAMPS message meet (R161) -/
  errs : List ReadError := []
deriving DecidableEq, Repr

/-- Who is declared lost (R368): a seat of the own table, the dealer of a table, or the stream of a context. -/
inductive Lost where
  | seat (s : Fin 64)
  | table (n : Fin 256)
  | stream (ctx : Fin 256)
deriving DecidableEq, Repr

/-- What wakes or is asked to stop (R433, R436, R439): a power domain, or an instance by its page. -/
inductive PowTarget where
  | domain (n : Fin 36)
  | unit (page : PageRef)
deriving DecidableEq, Repr

/-- The commands, one for each row of the table of operations and events. -/
inductive Instr where
  /-- REGISTER_WRITE (R59): `bytes` bytes at `addr`, the value in the low bits. -/
  | registerWrite (t : Nat) (addr : BitVec 24) (bytes : Nat) (v : BitVec 64)
  /-- READ_LO_LATCH (R62): a read of the LO word at `addr`. -/
  | readLoLatch (t : Nat) (addr : BitVec 24)
  /-- HAND_WRITE (R70). -/
  | handWrite (t : Nat) (addr : BitVec 24) (v : Word)
  /-- ENABLE (R66). `met`: the condition of a remaining hardware cause is met (R450). -/
  | enable (t : Nat) (page : PageRef)
  /-- DISABLE (R66). -/
  | disable (t : Nat) (page : PageRef)
  /-- FENCE_REQ (R65). -/
  | fenceReq (t : Nat) (page : PageRef)
  /-- FENCE_REL (R454). `met`: what a PLL_FAIL, SYNTH_FAIL or KERNEL_DIGEST cause waits for after the release
  happens within its time (R450). -/
  | fenceRel (t : Nat) (page : PageRef) (met : Bool)
  /-- FW_FENCE_CAUSE_WRITE (R65). -/
  | fwFenceCauseWrite (t : Nat) (page : PageRef) (cause detail : Byte) (met : Bool)
  /-- FENCE_DRAIN_DONE (R448). -/
  | fenceDrainDone (t : Nat) (page : PageRef)
  /-- SOFT_RST (R69). -/
  | softRst (t : Nat) (page : PageRef)
  /-- SOFT_RST_DONE (R69). -/
  | softRstDone (t : Nat) (page : PageRef)
  /-- IRQ_RAW_CLEAR (R81). `setNow`: bits that hardware sets at the same edge (R63). -/
  | irqRawClear (t : Nat) (page : PageRef) (v setNow : Word)
  /-- IRQ_EN_WRITE (R81). -/
  | irqEnWrite (t : Nat) (page : PageRef) (v : Word)
  /-- IRQ_FORCE (R65). -/
  | irqForce (t : Nat) (page : PageRef) (v : Word)
  /-- MSIX_COALESCE_EXPIRE (R81). -/
  | msixCoalesceExpire (t : Nat) (vector : Fin 64)
  /-- MSIX_UNMASK (R81). -/
  | msixUnmask (t : Nat) (vector : Fin 64)
  /-- POWER_REQUEST (R433): a write of POWER.REQ. -/
  | powerRequest (t : Nat) (page : PageRef) (req : BitVec 2)
  /-- BAR2_READ (R78) of `bytes` bytes, with the HBM errors it meets. -/
  | bar2Read (t : Nat) (off : BitVec 28) (bytes : Nat) (errs : MemErr)
  /-- BAR2_WRITE (R78). -/
  | bar2Write (t : Nat) (off : BitVec 28) (data : List Byte)
  /-- BAR2_BASE_WRITE (R79): a write of BAR2_BASE_HI. -/
  | bar2BaseWrite (t : Nat) (v : Word)
  /-- LUT_WINDOW_WRITE (R76). -/
  | lutWindowWrite (t : Nat) (off : BitVec 16) (v : Word)
  /-- ERR_CLEAR (R83). -/
  | errClear (t : Nat)
  /-- CONFIG_REQUEST (R463). -/
  | configRequest (t : Nat)
  /-- AUDIT_RUN (R49). -/
  | auditRun (t : Nat)
  /-- AUDIT_EVENT (R50): an E has come. -/
  | auditEvent (t : Nat)
  /-- TALON_FREEZE_END (R50). -/
  | talonFreezeEnd (t : Nat)
  /-- AUDIT_COMPLETE (R50); `found` are the books that were latched otherwise than the commands had left them. -/
  | auditComplete (t : Nat) (found : List BookRead)
  /-- LEDGER_CLEAR (R55). -/
  | ledgerClear (t : Nat)
  /-- TALON_REBUILD (R53). -/
  | talonRebuild (t : Nat)
  /-- REBUILD_COMPLETE (R492); `found` are upsets that the walk meets and no audit has brought, and `upsets` are what upset
  the books again before the talon-only audit. -/
  | rebuildComplete (t : Nat) (found upsets : List SlabUpset)
  /-- SNAP_NOW (R455). -/
  | snapNow (t : Nat)
  /-- SNAP_IN_EDGE (R455). -/
  | snapInEdge (t : Nat) (rising : Bool)
  /-- SNAP_SCHED_ARM (R456). -/
  | snapSchedArm (t : Nat)
  /-- SNAP_SCHED_CANCEL (R456). -/
  | snapSchedCancel (t : Nat)
  /-- SNAP_REARM (R456). -/
  | snapRearm (t : Nat)
  /-- SNAPSHOT_EVENT (R457): `t` is the house time E at which the event acts. -/
  | snapshotEvent (t : Nat)
  /-- SNAP_CLEAR (R466). -/
  | snapClear (t : Nat)
  /-- TX_PLL_LOCK (R89). Lanes 0 to 95 are MLANE, 96 to 111 NLANE 0 to 15. -/
  | txPllLock (t : Nat) (lane : Fin 112)
  /-- LOS_ASSERT (R96). -/
  | losAssert (t : Nat) (lane : Fin 112)
  /-- LOS_CLEAR (R96). -/
  | losClear (t : Nat) (lane : Fin 112)
  /-- LOL_ASSERT (R97). -/
  | lolAssert (t : Nat) (lane : Fin 112)
  /-- LOL_CLEAR (R97); `rate`: the receive rate or forwarded clock measured, in kb/s or kHz. -/
  | lolClear (t : Nat) (lane : Fin 112) (rate : BitVec 25)
  /-- ADAPT_DONE (R95); `eq`: the values adaptation settled at. -/
  | adaptDone (t : Nat) (lane : Fin 112) (eq : EqValues)
  /-- EQ_MODE_WRITE (R94): a write of RX_EQ_CTL. -/
  | eqModeWrite (t : Nat) (lane : Fin 112) (mode : BitVec 2) (ctle : BitVec 6)
  /-- EQ_CONTROL_WRITE (R94): a write of the control word at live offset `off`. -/
  | eqControlWrite (t : Nat) (lane : Fin 112) (off : BitVec 12) (v : Word)
  /-- PRBS_SYNC (R100), with the test data received up to it; sent again for data received in sync. -/
  | prbsSync (t : Nat) (r : LaneRx)
  /-- PRBS_SYNC_LOST (R100), with the test data received since the last row that brought some: up to the loss, and after it. -/
  | prbsSyncLost (t : Nat) (lane : Fin 112) (rx after : List TestData)
  /-- PRBS_CLEAR (R100), with the test data received before the clear, and that compared at its edge. -/
  | prbsClear (t : Nat) (lane : Fin 112) (before edge : List TestData)
  /-- INJ_GO (R101): a write of INJ_CTL with INJ_GO set. -/
  | injGo (t : Nat) (lane : Fin 112) (mode : BitVec 2) (rx : Bool) (len : BitVec 8)
  /-- INJ_DONE (R101). -/
  | injDone (t : Nat) (lane : Fin 112)
  /-- RX_LSTATE_REQ (R103). -/
  | rxLstateReq (t : Nat) (lane : Fin 112) (req : BitVec 2)
  /-- LSTATE_DONE (R103) of the receive or the transmit half. -/
  | lstateDone (t : Nat) (lane : Fin 112) (tx : Bool)
  /-- PLL_FAIL (R104, R240): the PLL of a lane; with `port`, its transmitter PLL cannot follow the synthesiser of that
  output port. -/
  | pllFail (t : Nat) (lane : Fin 112) (port : Option (Fin 96))
  /-- BOND_MARKER_TX (R107): how the stream of the bond up to the markers orders its messages and idle blocks; what goes
  beyond the markers stands before the next, and idle blocks fill what is short of them. -/
  | bondMarkerTx (t : Nat) (bond : Fin 16) (stream : List BondItem)
  /-- BOND_MARKER_RX (R108). -/
  | bondMarkerRx (t : Nat) (lane : Fin 96) (m : MarkerRx)
  /-- LINK_TRAINING_END (R92) with the coefficients the partner left. -/
  | linkTrainingEnd (t : Nat) (lane : Fin 16) (ok : Bool) (fir : Word)
  /-- LANE_CNT_CLEAR (R110). -/
  | laneCntClear (t : Nat) (lane : Fin 112)
  /-- INGEST_FRAME_START (R158): the signalled format, whether link encryption is signalled (R122), and for
  weave sources nothing more. -/
  | ingestFrameStart (t : Nat) (ctx : Fin 256) (sig : SigFmt) (encrypted : Bool)
  /-- INGEST_LINE (R130): one received line, its samples as received in the order of R145 (4:2:0: a line that
  carries chroma as 4:2:2, the other as luma alone), its link errors, what its embedded audio carried, and
  the frame's end with its last active line. -/
  | ingestLine (t : Nat) (ctx : Fin 256) (samples : List Nat) (linkErrors : Nat) (audio : Option EmbeddedAudio)
      (last : Option FrameEnd)
  /-- FORMAT_SIGNAL_CHANGE (R125). -/
  | formatSignalChange (t : Nat) (ctx : Fin 256)
  /-- ENCRYPTION_DETECTED (R122). -/
  | encryptionDetected (t : Nat) (ctx : Fin 256)
  /-- MST_STREAM_REMOVED (R136). -/
  | mstStreamRemoved (t : Nat) (ctx : Fin 256)
  /-- INGEST_SILENCE_TIMEOUT (R136). -/
  | ingestSilenceTimeout (t : Nat) (ctx : Fin 256)
  /-- ST2110_PACKET_RX (R116). -/
  | st2110PacketRx (t : Nat) (ctx : Fin 256) (p : RtpPacket)
  /-- PATH_SILENT (R116). -/
  | pathSilent (t : Nat) (ctx : Fin 256) (path2 : Bool)
  /-- HB_READ_COMPLETE (R195). -/
  | hbReadComplete (t : Nat) (ctx : CtxRead)
  /-- EDID_DATA_WRITE (R119). -/
  | edidDataWrite (t : Nat) (ctx : Fin 256) (v : Word)
  /-- EDID_COMMIT (R119). -/
  | edidCommit (t : Nat) (ctx : Fin 256)
  /-- EDID_COMMIT_TAKE_EFFECT (R119). -/
  | edidCommitTakeEffect (t : Nat) (ctx : Fin 256)
  /-- EDID_READ (R120): `len` bytes of the table on a sideband port from byte `off`; for MST, the logical
  sink's stream number. -/
  | edidRead (t : Nat) (sband : Fin 32) (stream : Option (Fin 4)) (off : BitVec 12) (len : Nat)
  /-- HPD_PULSE (R121). -/
  | hpdPulse (t : Nat) (ctx : Fin 256)
  /-- HPD_PULSE_END (R121). -/
  | hpdPulseEnd (t : Nat) (ctx : Fin 256)
  /-- DMA_TAIL_WRITE (R133). -/
  | dmaTailWrite (t : Nat) (ctx : Fin 256) (tail : BitVec 12)
  /-- DMA_DESCRIPTOR_START (R134): the descriptor read from the ring. -/
  | dmaDescriptorStart (t : Nat) (ctx : Fin 256) (desc : Descriptor)
  /-- DMA_DESCRIPTOR_DONE (R134): the pixels read, line by line, or nothing on a host abort. -/
  | dmaDescriptorDone (t : Nat) (ctx : Fin 256) (lines : Option (List (List Nat)))
  /-- DMA_ENABLE_WRITE (R135): a write of DMA_CTL. -/
  | dmaEnableWrite (t : Nat) (ctx : Fin 256) (en : Bool) (prio : BitVec 2)
  /-- DMA_RING_SIZE_WRITE (R135). -/
  | dmaRingSizeWrite (t : Nat) (ctx : Fin 256) (entries : BitVec 13)
  /-- COPY_FORWARD_DONE (R159). -/
  | copyForwardDone (t : Nat) (ctx : CtxRead)
  /-- INGEST_CNT_CLEAR (R141). -/
  | ingestCntClear (t : Nat) (ctx : Fin 256)
  /-- INGEST_FRESH_CLEAR (R37). -/
  | ingestFreshClear (t : Nat) (ctx : Fin 256)
  /-- ENGINE_JOB_START (R183). -/
  | engineJobStart (t : Nat) (layer : Fin 1024)
  /-- ENGINE_JOB_COMPLETE (R185); `errs`: source tiles whose read met an uncorrectable error. -/
  | engineJobComplete (t : Nat) (layer : Fin 1024) (errs : List ReadError)
  /-- ENGINE_JOB_ABANDON (R184). -/
  | engineJobAbandon (t : Nat) (layer : Fin 1024)
  /-- COEF_DATA_WRITE (R192). -/
  | coefDataWrite (t : Nat) (engine : Fin 64) (v : Word)
  /-- COEF_DATA_READ (R206). -/
  | coefDataRead (t : Nat) (engine : Fin 64)
  /-- ENGINE_CNT_CLEAR (R206). -/
  | engineCntClear (t : Nat) (engine : Fin 64)
  /-- RECORDER_HOLD_WRITE (R172): a write of RECORDER.CTL. -/
  | recorderHoldWrite (t : Nat) (hold : Bool)
  /-- RECORDER_FORCE_KEY (R168). -/
  | recorderForceKey (t : Nat)
  /-- RECORDER_CLEAR (R176). -/
  | recorderClear (t : Nat)
  /-- DPCD_SCDC_ACCESS (R120). -/
  | dpcdScdcAccess (t : Nat) (sband : Fin 32) (a : SinkAccess)
  /-- REF_IN_PULSE (R242): a frame pulse, of tri-level or bi-level sync. -/
  | refInPulse (t : Nat) (triLevel : Bool)
  /-- REF_IN_LOSS (R243). -/
  | refInLoss (t : Nat)
  /-- PPS_EDGE (R243): the house time at the edge; `xo`: the XO156 error measured, in ppb. -/
  | ppsEdge (t : Nat) (xo : Int)
  /-- PPS_LOSS (R243). -/
  | ppsLoss (t : Nat)
  /-- CLK10M_LOSS (R243). -/
  | clk10mLoss (t : Nat)
  /-- CLK10M_RETURN (R243). -/
  | clk10mReturn (t : Nat) (xo : Int)
  /-- PTP_MESSAGE_RX (R354) on a network interface, in a PTP domain. -/
  | ptpMessageRx (t : Nat) (netif : Fin 16) (domain : Byte) (msg : PtpMsg)
  /-- PTP_MESSAGE_SEND (R354). -/
  | ptpMessageSend (t : Nat) (due : PtpDue)
  /-- HOLDOFF_EXPIRE (R248) of house time, or of the REF_IN phase. -/
  | holdoffExpire (t : Nat) (refIn : Bool)
  /-- PTP_ANNOUNCE_TIMEOUT (R355). -/
  | ptpAnnounceTimeout (t : Nat)
  /-- PTP_BACKUP_RETURN (R355). -/
  | ptpBackupReturn (t : Nat)
  /-- TIME_CNT_CLEAR (R262). -/
  | timeCntClear (t : Nat)
  /-- AUDIO_SAMPLE_INSTANT (R338): `t` is the house time of the instant. -/
  | audioSampleInstant (t : Nat)
  /-- AUDIO_BLOCK_BOUNDARY (R341). -/
  | audioBlockBoundary (t : Nat)
  /-- AES3_FRAME_RX (R329). -/
  | aes3FrameRx (t : Nat) (input : Fin 16) (frame : AesFrame)
  /-- AES3_LOCK_LOSS (R329). -/
  | aes3LockLoss (t : Nat) (input : Fin 16)
  /-- AES3_RATE_MEASURE (R331). -/
  | aes3RateMeasure (t : Nat)
  /-- ST2110_AUDIO_SEND (R337). -/
  | st2110AudioSend (t : Nat) (sender : Fin 64)
  /-- RXS_RESTART (R342) of the stream that STAT_SEL selects. -/
  | rxsRestart (t : Nat)
  /-- RXS_CLEAR (R348). -/
  | rxsClear (t : Nat)
  /-- GROUP_RELEASE (R343): a write of GROUP_REL with GO set; `met`: the books of every member balance. -/
  | groupRelease (t : Nat) (group : Fin 64) (met : Bool)
  /-- AIN_CLEAR (R348). -/
  | ainClear (t : Nat) (inputs : BitVec 16)
  /-- AOUT_FILLED_CLEAR (R348). -/
  | aoutFilledClear (t : Nat) (outputs : BitVec 16)
  /-- DELAY_STEPS_CLEAR (R348). -/
  | delayStepsClear (t : Nat)
  /-- ASEND_PKTS_CLEAR (R348): a write of the low or of the high word. -/
  | asendPktsClear (t : Nat) (hi : Bool) (senders : Word)
  /-- HEAD_LATCH (R238) of a head; `broken`: the tile rows the recorder had staged when the next row came too
  early (R169); `late`: windows whose paired value of a chased frame comes within 10 µs of the latch (R302). -/
  | headLatch (t : Nat) (head : Fin 64) (broken : Option Nat) (late : List Nat)
  /-- FETCH_START (R238). -/
  | fetchStart (t : Nat) (head : Fin 64)
  /-- FETCH_ROW_ISSUE (R166) of a tile row: of slot 0 to 15, of the trump plane (16), or of meld group 0 to 3 (17
  to 20); `errs`: tiles whose read meets an uncorrectable error. -/
  | fetchRowIssue (t : Nat) (head : Fin 64) (plane : Fin 21) (row : Nat) (errs : List ReadError)
  /-- LINE0 (R239): `t` is the timestamp of the actual start. -/
  | line0 (t : Nat) (head : Fin 64)
  /-- HAND_SAMPLE (R276). -/
  | handSample (t : Nat) (head : Fin 64)
  /-- OUTPUT_UNDERRUN (R253) at a line: the first pixel not yet composed, 0 when the line was not whole at its
  start. -/
  | outputUnderrun (t : Nat) (head : Fin 64) (line x : Nat)
  /-- OBUF_WATERMARK (R252): the fill in whole lines. -/
  | obufWatermark (t : Nat) (head : Fin 64) (fill : Byte)
  /-- SAFE_REL (R305). -/
  | safeRel (t : Nat) (head : Fin 64)
  /-- HPD_IN_DEASSERT (R257) at an output sideband port. -/
  | hpdInDeassert (t : Nat) (sband : Fin 48)
  /-- HPD_IN_ASSERT (R257). -/
  | hpdInAssert (t : Nat) (sband : Fin 48)
  /-- OPORT_LINK_UP (R266). -/
  | oportLinkUp (t : Nat) (port : Fin 96)
  /-- SIDEBAND_GO (R266): a write of SB_CMD with GO set. -/
  | sidebandGo (t : Nat) (port : Fin 96) (ddc read : Bool) (len : BitVec 4) (addr : BitVec 20)
  /-- SIDEBAND_DONE (R266): 0 ACK, 1 NACK or 2 timeout, and the bytes read. -/
  | sidebandDone (t : Nat) (port : Fin 96) (result : Fin 3) (data : List Byte)
  /-- SEL_CLEAR (R204). -/
  | selClear (t : Nat) (layer : Fin 1024)
  /-- COMP_CLEAR (R231). -/
  | compClear (t : Nat) (layer : Fin 1024)
  /-- MELD_CLEAR (R234). -/
  | meldClear (t : Nat) (head : Fin 64)
  /-- LAYER_FRESH_CLEAR (R35). -/
  | layerFreshClear (t : Nat) (layer : Fin 1024)
  /-- CHASE_CLEAR (R177). -/
  | chaseClear (t : Nat) (layer : Fin 1024)
  /-- TIMING_CLEAR (R264). -/
  | timingClear (t : Nat) (head : Fin 64)
  /-- OBUF_CLEAR (R265). -/
  | obufClear (t : Nat) (head : Fin 64)
  /-- OPORT_CNT_CLEAR (R266). -/
  | oportCntClear (t : Nat) (port : Fin 96)
  /-- SEND_CNT_CLEAR (R267): a write of the clear word of a page of senders. -/
  | sendCntClear (t : Nat) (page : Fin 4) (senders : BitVec 16)
  /-- SEAL (R269). -/
  | seal (t : Nat)
  /-- SEAL_COMPLETE (R270): `standards` are the failures that the cited standards decide. -/
  | sealComplete (t : Nat) (standards : List StdFail)
  /-- WITHDRAW (R278, R286). -/
  | withdraw (t : Nat)
  /-- REVERT (R280). -/
  | revert (t : Nat)
  /-- REVERT_DONE (R280). -/
  | revertDone (t : Nat)
  /-- APPLY_TIME_REACHED (R275). -/
  | applyTimeReached (t : Nat)
  /-- BID_RX (R283): a control message as received on an interface. -/
  | bidRx (t : Nat) (netif : Fin 16) (msg : List Byte)
  /-- RETRACT_RX (R286). -/
  | retractRx (t : Nat) (netif : Fin 16) (msg : List Byte)
  /-- DEALER_DECIDE (R283). -/
  | dealerDecide (t : Nat)
  /-- TABLE_VOTE_RX (R287). -/
  | tableVoteRx (t : Nat) (netif : Fin 16) (msg : List Byte)
  /-- HOUSE_DECIDE (R287). -/
  | houseDecide (t : Nat)
  /-- DECISION_RX (R284). -/
  | decisionRx (t : Nat) (netif : Fin 16) (msg : List Byte)
  /-- DECISION_DEADLINE (R285). -/
  | decisionDeadline (t : Nat)
  /-- LATE_WINDOW_CLOSE (R285). -/
  | lateWindowClose (t : Nat)
  /-- KEEPALIVE_SEND (R368): the slot of the seat, or that of the table dealer. -/
  | keepaliveSend (t : Nat) (dealer : Bool)
  /-- KEEPALIVE_RX (R368). -/
  | keepaliveRx (t : Nat) (netif : Fin 16) (msg : List Byte)
  /-- DEALER_KEEPALIVE_RX (R368). -/
  | dealerKeepaliveRx (t : Nat) (netif : Fin 16) (msg : List Byte)
  /-- KEEPALIVE_MISS (R368): the third deadline of a sender passes. -/
  | keepaliveMiss (t : Nat) (who : Lost)
  /-- TATRE_TILE_RX (R360). -/
  | tatreTileRx (t : Nat) (rx : TileRx)
  /-- TATRE_STAMPS_RX (R362). -/
  | tatreStampsRx (t : Nat) (rx : TileRx)
  /-- TATRE_END_OF_FRAME_RX (R363). -/
  | tatreEndOfFrameRx (t : Nat) (rx : TileRx)
  /-- STREAM_ALIVE_RX (R369). -/
  | streamAliveRx (t : Nat) (rx : TileRx)
  /-- TATRE_APPLY_TIMEOUT (R275). -/
  | tatreApplyTimeout (t : Nat) (ctx : Fin 256)
  /-- TATRE_SEND_FRAME (R364); `errs`: tiles whose read met an uncorrectable error. -/
  | tatreSendFrame (t : Nat) (sender : Fin 256) (errs : List ReadError)
  /-- NETIF_DOWN (R353). -/
  | netifDown (t : Nat) (netif : Fin 16)
  /-- NETIF_UP (R353). -/
  | netifUp (t : Nat) (netif : Fin 16)
  /-- NPORT_CNT_CLEAR (R375). -/
  | nportCntClear (t : Nat) (port : Fin 4)
  /-- TATRE_SEND_CNT_CLEAR (R376): a write of the clear word of SEND page 4 + `page`. -/
  | tatreSendCntClear (t : Nat) (page : Fin 16) (senders : BitVec 16)
  /-- PC_RELEASE (R162): a write of PC_REL with GO; `met`: the pseudo-channel passes firmware's check. -/
  | pcRelease (t : Nat) (pc : Fin 128) (met : Bool)
  /-- SCRUB_PASS_START (R163). -/
  | scrubPassStart (t : Nat)
  /-- SCRUB_DONE (R163): errors the pass corrected, and bursts it could not correct. -/
  | scrubDone (t : Nat) (corrected : Nat) (bursts : List Nat)
  /-- HOST_STAGE_WRITE (R160). -/
  | hostStageWrite (t : Nat) (slabs : BitVec 16)
  /-- TALON_SLAB_RELEASE (R156). -/
  | talonSlabRelease (t : Nat)
  /-- SECOND_STATISTICS (R174). -/
  | secondStatistics (t : Nat)
  /-- MEMSW_CNT_CLEAR (R174). -/
  | memswCntClear (t : Nat)
  /-- TALON_CNT_CLEAR (R175). -/
  | talonCntClear (t : Nat)
  /-- PC_RETRAIN_FAIL (R162). -/
  | pcRetrainFail (t : Nat) (pc : Fin 128)
  /-- SYNTH_FAIL (R450). -/
  | synthFail (t : Nat) (head : Fin 64)
  /-- HOST_VOTES_WRITE (R434). -/
  | hostVotesWrite (t : Nat) (dom : Fin 36) (votes : BitVec 8)
  /-- DOMAIN_ENTER_WRITE (R437). -/
  | domainEnterWrite (t : Nat) (dom : Fin 36)
  /-- INSTANCE_AGREE (R436). -/
  | instanceAgree (t : Nat) (page : PageRef)
  /-- AGREE_TIMEOUT (R437) of a domain's entry, or of an instance's request (R433). -/
  | agreeTimeout (t : Nat) (what : PowTarget)
  /-- WAKE_STEP_END (R439). -/
  | wakeStepEnd (t : Nat) (what : PowTarget)
  /-- WAKE_STEP_TIMEOUT (R440). -/
  | wakeStepTimeout (t : Nat) (what : PowTarget)
  /-- WAKE_RETRY (R440). -/
  | wakeRetry (t : Nat) (what : PowTarget)
  /-- POWER_CNT_CLEAR (R446). -/
  | powerCntClear (t : Nat)
  /-- BIAS_UPDATE (R443). -/
  | biasUpdate (t : Nat)
  /-- AVS_UPDATE (R444): the target computed from the path monitors, the voltage the regulator reports, and whether it
  acknowledged. -/
  | avsUpdate (t : Nat) (target read : BitVec 12) (ack : Bool)
  /-- TEMP_REPORT (R445): the highest and lowest junction temperature in degrees Celsius. -/
  | tempReport (t : Nat) (hi lo : Int)
  /-- STALL_DETECT (R450). -/
  | stallDetect (t : Nat) (page : PageRef)
  /-- SRAM_UE (R450): DETAIL of the memory: 1 line buffer, 2 output line buffer, 3 staging buffer, 4 other. -/
  | sramUe (t : Nat) (page : PageRef) (detail : BitVec 3)
  /-- CE_RATE (R450). -/
  | ceRate (t : Nat) (page : PageRef)
  /-- WITNESS_HANDOVER (R310). -/
  | witnessHandover (t : Nat)
  /-- WITNESS_CHAIN_RECORD (R311). -/
  | witnessChainRecord (t : Nat)
  /-- SIGN_PERIOD (R314): `t` is the instant. -/
  | signPeriod (t : Nat)
  /-- SIGNED_ENTRY_READY (R316). -/
  | signedEntryReady (t : Nat)
  /-- WSIG_SELECT (R321). -/
  | wsigSelect (t : Nat) (seq : Word)
  /-- WSIG_DATA_READ (R321). -/
  | wsigDataRead (t : Nat)
  /-- WITNESS_CNT_CLEAR (R318). -/
  | witnessCntClear (t : Nat) (head : Fin 64)
  /-- LOCKSTEP_MISMATCH (R380) of pair A or B; `groups`: groups of the store's command that are whole when the reset acts. -/
  | lockstepMismatch (t : Nat) (pairB : Bool) (groups : Nat)
  /-- WATCHDOG_EXPIRE (R387). -/
  | watchdogExpire (t : Nat)
  /-- FW_AUTO_RESTART (R387). -/
  | fwAutoRestart (t : Nat)
  /-- FW_RESTART (R388). -/
  | fwRestart (t : Nat)
  /-- BOOT_ROM_START (R391): the error of XO156 in ppb, or nothing where it is absent. -/
  | bootRomStart (t : Nat) (xo : Option Int)
  /-- ENGINE_GROUP_RELEASE (R392): the digest of the kernel set, its version, and whether the loaded set matches. -/
  | engineGroupRelease (t : Nat) (group : Fin 8) (digest : List Byte) (version build : BitVec 16) (ok : Bool)
  /-- ENGINE_GROUP_RELOAD (R393). -/
  | engineGroupReload (t : Nat) (group : Fin 8) (ok : Bool)
  /-- GET_INFO (R403): the host rings the doorbell. -/
  | getInfo (t : Nat)
  /-- INSTALL_BEGIN (R394). -/
  | installBegin (t : Nat)
  /-- INSTALL_DATA (R394); `ok`: the flash erases and programs. -/
  | installData (t : Nat) (ok : Bool)
  /-- INSTALL_COMMIT (R394). -/
  | installCommit (t : Nat)
  /-- INSTALL_ABORT (R394). -/
  | installAbort (t : Nat)
  /-- INSTALL_CONFIRM (R394). -/
  | installConfirm (t : Nat)
  /-- ATTEST_QUOTE (R397). -/
  | attestQuote (t : Nat)
  /-- ATTEST_READ (R403). -/
  | attestRead (t : Nat)
  /-- GET_CERT (R396). -/
  | getCert (t : Nat)
  /-- FUSE_WRITE (R398). -/
  | fuseWrite (t : Nat)
  /-- MBOX_DONE (R403). -/
  | mboxDone (t : Nat)
  /-- DEFAULT_TARGET_HIT (R385): a request on the bus matrix: its address, the master as DEF_INFO.MASTER codes it, the first
  word of a write (none for a read), and its beats less one. -/
  | defaultTargetHit (t : Nat) (addr : Word) (master : Fin 6) (data : Option Word) (beats : Fin 16)
  /-- DEF_CLEAR (R385). -/
  | defClear (t : Nat)
  /-- KEY_LOAD (R399): a write of KEY_CTL with LOAD set. -/
  | keyLoad (t : Nat) (clear : Bool)
  /-- DEBUG_GET_CHALLENGE (R401). -/
  | debugGetChallenge (t : Nat)
  /-- DEBUG_SUBMIT (R401): a write of DBG_CTL with SUBMIT set. -/
  | debugSubmit (t : Nat) (challenge : Bool)
  /-- DEBUG_DATA_APPEND (R406). -/
  | debugDataAppend (t : Nat) (v : Word)
  /-- DEBUG_DATA_RESET (R406). -/
  | debugDataReset (t : Nat)
  /-- CHALLENGE_EXPIRE (R401). -/
  | challengeExpire (t : Nat)
  /-- NVM_WRITE (R412): a write of CMD with GO; `ctl` gives its other fields; `ue`, `ce`: groups that a read for it finds
  uncorrectable, and errors it corrects. -/
  | nvmWrite (t : Nat) (ctl : Word) (ue : List Nat) (ce : Nat)
  /-- NVM_REC_WRITE (R419). -/
  | nvmRecWrite (t : Nat) (ctl : Word) (ue : List Nat) (ce : Nat)
  /-- NVM_REC_READ (R420). -/
  | nvmRecRead (t : Nat) (ctl : Word) (ue : List Nat) (ce : Nat)
  /-- NVM_CNT_INC (R424). -/
  | nvmCntInc (t : Nat) (ctl : Word) (ue : List Nat) (ce : Nat)
  /-- NVM_CNT_READ (R425). -/
  | nvmCntRead (t : Nat) (ctl : Word) (ue : List Nat) (ce : Nat)
  /-- NVM_CMD_DONE (R413); `ue`, `ce`: errors that the accesses it serves meet. -/
  | nvmCmdDone (t : Nat) (ue : List Nat) (ce : Nat)
  /-- PW_UNLOCK (R415): a write of PW_CTL with GO; `ctl` gives its other fields. -/
  | pwUnlock (t : Nat) (ctl : Word)
  /-- PW_LOCK (R415). -/
  | pwLock (t : Nat) (ctl : Word)
  /-- PW_SET (R415). -/
  | pwSet (t : Nat) (ctl : Word)
  /-- PW_CLEAR (R415). -/
  | pwClear (t : Nat) (ctl : Word)
  /-- NVM_WINDOW_READ (R410). -/
  | nvmWindowRead (t : Nat) (off : BitVec 14) (ue : List Nat) (ce : Nat)
  /-- PWRFAIL_FALL (R416); `groups`: groups of the command in progress that are whole at its end. -/
  | pwrfailFall (t groups : Nat)
  /-- PWRFAIL_RISE (R477). -/
  | pwrfailRise (t : Nat)
  /-- PWRFAIL_LIFT (R477). -/
  | pwrfailLift (t : Nat)
  /-- NVM_SCRUB_START (R427). -/
  | nvmScrubStart (t : Nat)
  /-- NVM_CNT_CLEAR (R428). -/
  | nvmCntClear (t : Nat)
  /-- NVM_SCRUB_PASS_END (R427). -/
  | nvmScrubPassEnd (t corrected : Nat) (ue : List Nat)
  /-- RESET_ASSERT (R458); `groups`: groups of the store's command that are whole when the reset acts. -/
  | resetAssert (t groups : Nat)
  /-- RESET_RELEASE (R458): `t` is the time since the assertion, in ns. -/
  | resetRelease (t : Nat)
  /-- READY_SET (R464). -/
  | readySet (t : Nat)
  /-- ALIVE_TICK (R461). -/
  | aliveTick (t : Nat)
  /-- BAR0_READ (R72) of `bytes` bytes; `ue`, `ce`: errors that a read of the store meets. -/
  | bar0Read (t : Nat) (addr : BitVec 24) (bytes : Nat) (ue : List Nat) (ce : Nat)
  /-- REF_CNT_CLEAR (R263); it acts at the house time reached. -/
  | refCntClear
  /-- DEAL_CNT_CLEAR (R293); it acts at the house time reached. -/
  | dealCntClear
  /-- DEALER_CNT_CLEAR (R295); it acts at the house time reached. -/
  | dealerCntClear
  /-- CHAIN_CNT_CLEAR (R319); it acts at the house time reached. -/
  | chainCntClear
deriving DecidableEq, Repr

end Sys2Proof
end

