-- ==== Sys2Proof/Config.lean ====
section
/-! DEFINITION. What one device's making fixes and the values the spec leaves free. Every constant here
has no body: nothing can be proved of its value. Each is named in a row of the assumption log. -/
namespace Sys2Proof.Config

/-- The order code of the part: true for QE6400-GA-XT (R5, GLOBAL.ID.GRADE of R83). -/
opaque gradeXT : Bool

/-- A value that the spec leaves open, drawn afresh at every use: the argument counts the draws. -/
opaque freeValue : Nat → Nat

/-- Entries of the handshake channel from one island to another, its depth (R46, R48). -/
opaque channelDepth : Nat → Nat → Nat

/-- Sectors of 64 KiB in one slot of the boot flash, less one: the flash is divided into two equal slots and holds up to
128 MiB (R389, R480). -/
opaque slotSectors : Fin 1024

/-- The version of the boot ROM (R397). -/
opaque romVer : Nat

/-- The serial number of the part (R396). -/
opaque serial : Nat

/-- Bytes of the identity and of the witness public key (R395). -/
opaque identityKey : Nat → Nat
opaque witnessKey : Nat → Nat

/-- Fuse bytes that production sets: VENDOR_KEY_HASH and DEBUG_SALT (R398). -/
opaque fuse : Nat → Nat

/-- Signature bytes of the device certificate and of the witness certificate (R396). -/
opaque deviceSig : Nat → Nat
opaque witnessSig : Nat → Nat

/-- The clock quality and identity that this clock announces (R354): accuracy, variance and clock identity, which the spec does
not give. -/
opaque ptpAccuracy : Nat
opaque ptpVariance : Nat
opaque ptpIdentity : BitVec 64

/-- What a DSC encoder makes of the lines of a picture (R256, R258): the settings, in the order of the DSC words of the head's
page, and the lines. VESA DSC 1.2a fixes it, and the spec does not repeat it. -/
opaque dscEncode : List Nat → List (List (List Nat)) → List (List (List Nat))

/-- ML-DSA-65 verification (FIPS 204) of a signature over a message under a public key. -/
opaque verifies : List Byte → List Byte → List Byte → Bool

end Sys2Proof.Config
end

