-- ==== Sys2Proof/Machine/RegMap.lean ====
section
/-! DEFINITION. The register map of BAR0: one constant per field of every register table of the spec
(name, page, offset, array strides, bits) and, per block, the word table with the access masks of R59
and the reset words. The offsets, bits, access codes and reset values are those of the field tables. -/
namespace Sys2Proof.Machine

/-- A register field: block, page, offset of the word (hand offset where it is hand-controlled), the
strides of its one or two array indices, lowest bit and width. -/
structure Fld where
  blk : Blk
  page : Nat
  off : Nat
  str : Nat
  str2 : Nat
  lo : Nat
  w : Nat
deriving DecidableEq, Repr

/-- One word (or array of words) of a page: masks of the bits a host write sets (RW), clears by writing
1 (W1C), acts on (WO), and the reset word. -/
structure WordRow where
  off : Nat
  n : Nat
  str : Nat
  n2 : Nat
  str2 : Nat
  rw : Nat
  w1c : Nat
  wo : Nat
  rst : Nat
deriving DecidableEq, Repr

namespace F

/-! LAYER page 0, R35 of 01_freshness.md. -/
def LAYER_FRESH_CTL_CLASS : Fld := ⟨.layer, 0, 0x900, 0, 0, 0, 2⟩
def LAYER_FRESH_CTL_TREAT : Fld := ⟨.layer, 0, 0x900, 0, 0, 2, 2⟩
def LAYER_FRESH_CTL_SCOPE : Fld := ⟨.layer, 0, 0x900, 0, 0, 4, 1⟩
def LAYER_STALE_LIMIT : Fld := ⟨.layer, 0, 0x904, 0, 0, 0, 32⟩
def LAYER_STALE_COLOUR_RG_RED : Fld := ⟨.layer, 0, 0x908, 0, 0, 0, 16⟩
def LAYER_STALE_COLOUR_RG_GREEN : Fld := ⟨.layer, 0, 0x908, 0, 0, 16, 16⟩
def LAYER_STALE_COLOUR_B_BLUE : Fld := ⟨.layer, 0, 0x90C, 0, 0, 0, 16⟩
def LAYER_FRESH_STS_STALE : Fld := ⟨.layer, 0, 0x100, 0, 0, 0, 1⟩
def LAYER_FRESH_STS_FORCED : Fld := ⟨.layer, 0, 0x100, 0, 0, 1, 1⟩
def LAYER_FRESH_STS_AGE : Fld := ⟨.layer, 0, 0x100, 0, 0, 8, 1⟩
def LAYER_FRESH_STS_INGEST_FENCED : Fld := ⟨.layer, 0, 0x100, 0, 0, 9, 1⟩
def LAYER_FRESH_STS_ENGINE_FENCED : Fld := ⟨.layer, 0, 0x100, 0, 0, 10, 1⟩
def LAYER_FRESH_STS_GEOMETRY : Fld := ⟨.layer, 0, 0x100, 0, 0, 11, 1⟩
def LAYER_FRESH_STS_FROZEN : Fld := ⟨.layer, 0, 0x100, 0, 0, 12, 1⟩
def LAYER_FRESH_STS_HEARTBEAT : Fld := ⟨.layer, 0, 0x100, 0, 0, 13, 1⟩
def LAYER_FRESH_STS_PEER_LOST : Fld := ⟨.layer, 0, 0x100, 0, 0, 14, 1⟩
def LAYER_FRESH_STS_PROTECTED : Fld := ⟨.layer, 0, 0x100, 0, 0, 15, 1⟩
def LAYER_FRESH_STS_POISON : Fld := ⟨.layer, 0, 0x100, 0, 0, 16, 1⟩
def LAYER_STALE_TILES_VISIBLE : Fld := ⟨.layer, 0, 0x104, 0, 0, 0, 16⟩
def LAYER_STALE_TILES_HIDDEN : Fld := ⟨.layer, 0, 0x104, 0, 0, 16, 16⟩
def LAYER_STALE_FRAMES : Fld := ⟨.layer, 0, 0x108, 0, 0, 0, 32⟩
def LAYER_HIDDEN_STALE : Fld := ⟨.layer, 0, 0x10C, 0, 0, 0, 32⟩
def LAYER_AGE_MAX : Fld := ⟨.layer, 0, 0x110, 0, 0, 0, 32⟩
def LAYER_FRESH_CLR_CLEAR : Fld := ⟨.layer, 0, 0x114, 0, 0, 0, 1⟩
def LAYER_FUTURE_STAMP : Fld := ⟨.layer, 0, 0x118, 0, 0, 0, 32⟩

/-! INGEST page 0, R37 of 01_freshness.md. -/
def INGEST_FRESH_CTL_CONTENT : Fld := ⟨.ingest, 0, 0x900, 0, 0, 0, 1⟩
def INGEST_FRESH_CTL_FROZEN_POLICY : Fld := ⟨.ingest, 0, 0x900, 0, 0, 1, 1⟩
def INGEST_FRESH_CTL_HB_EN : Fld := ⟨.ingest, 0, 0x900, 0, 0, 2, 1⟩
def INGEST_FRESH_CTL_HB_CROP : Fld := ⟨.ingest, 0, 0x900, 0, 0, 3, 1⟩
def INGEST_FRESH_CTL_EXCL_EN : Fld := ⟨.ingest, 0, 0x900, 0, 0, 4, 1⟩
def INGEST_FRESH_LIMITS_FROZEN_LIMIT : Fld := ⟨.ingest, 0, 0x904, 0, 0, 0, 16⟩
def INGEST_FRESH_LIMITS_HB_LIMIT : Fld := ⟨.ingest, 0, 0x904, 0, 0, 16, 16⟩
def INGEST_HB_POS_HB_X : Fld := ⟨.ingest, 0, 0x908, 0, 0, 0, 16⟩
def INGEST_HB_POS_HB_Y : Fld := ⟨.ingest, 0, 0x908, 0, 0, 16, 16⟩
def INGEST_FROZEN_EXCL_0_COL0 : Fld := ⟨.ingest, 0, 0x90C, 0, 0, 0, 16⟩
def INGEST_FROZEN_EXCL_0_ROW0 : Fld := ⟨.ingest, 0, 0x90C, 0, 0, 16, 16⟩
def INGEST_FROZEN_EXCL_1_COL1 : Fld := ⟨.ingest, 0, 0x910, 0, 0, 0, 16⟩
def INGEST_FROZEN_EXCL_1_ROW1 : Fld := ⟨.ingest, 0, 0x910, 0, 0, 16, 16⟩
def INGEST_HB_ENGINE_ENGINE : Fld := ⟨.ingest, 0, 0x914, 0, 0, 0, 6⟩
def INGEST_FRESH_STS_FROZEN : Fld := ⟨.ingest, 0, 0x100, 0, 0, 0, 1⟩
def INGEST_FRESH_STS_HB_FAIL : Fld := ⟨.ingest, 0, 0x100, 0, 0, 1, 1⟩
def INGEST_FRESH_STS_PEER_LOST : Fld := ⟨.ingest, 0, 0x100, 0, 0, 2, 1⟩
def INGEST_FRESH_STS_HB_VALID : Fld := ⟨.ingest, 0, 0x100, 0, 0, 3, 1⟩
def INGEST_FRESH_RUNS_SAME_RUN : Fld := ⟨.ingest, 0, 0x104, 0, 0, 0, 16⟩
def INGEST_FRESH_RUNS_HB_RUN : Fld := ⟨.ingest, 0, 0x104, 0, 0, 16, 16⟩
def INGEST_HB_VALUE_VALUE : Fld := ⟨.ingest, 0, 0x108, 0, 0, 0, 16⟩
def INGEST_FRAME_CRC : Fld := ⟨.ingest, 0, 0x10C, 0, 0, 0, 32⟩
def INGEST_LAST_STAMP_LO : Fld := ⟨.ingest, 0, 0x110, 0, 0, 0, 32⟩
def INGEST_LAST_STAMP_HI : Fld := ⟨.ingest, 0, 0x114, 0, 0, 0, 32⟩
def INGEST_HB_SKIP : Fld := ⟨.ingest, 0, 0x118, 0, 0, 0, 32⟩
def INGEST_FROZEN_EVENTS : Fld := ⟨.ingest, 0, 0x11C, 0, 0, 0, 32⟩
def INGEST_FRESH_CLR_CLEAR : Fld := ⟨.ingest, 0, 0x120, 0, 0, 0, 1⟩

/-! LEDGER page 0, R55 of 02_planes_and_islands.md. -/
def LEDGER_AUDIT_CTL_RUN : Fld := ⟨.ledger, 0, 0x040, 0, 0, 0, 1⟩
def LEDGER_AUDIT_CTL_PERIODIC : Fld := ⟨.ledger, 0, 0x040, 0, 0, 1, 1⟩
def LEDGER_AUDIT_CTL_CLEAR : Fld := ⟨.ledger, 0, 0x040, 0, 0, 2, 1⟩
def LEDGER_CTL_AUTO_RELEASE : Fld := ⟨.ledger, 0, 0x044, 0, 0, 0, 1⟩
def LEDGER_AUDIT_STS_BUSY : Fld := ⟨.ledger, 0, 0x048, 0, 0, 0, 1⟩
def LEDGER_AUDIT_STS_REBUILDING : Fld := ⟨.ledger, 0, 0x048, 0, 0, 1, 1⟩
def LEDGER_AUDIT_STS_TALON : Fld := ⟨.ledger, 0, 0x048, 0, 0, 2, 1⟩
def LEDGER_AUDIT_STS_TAGS : Fld := ⟨.ledger, 0, 0x048, 0, 0, 3, 1⟩
def LEDGER_AUDIT_STS_CREDITS : Fld := ⟨.ledger, 0, 0x048, 0, 0, 4, 1⟩
def LEDGER_AUDIT_STS_AUDIO : Fld := ⟨.ledger, 0, 0x048, 0, 0, 5, 1⟩
def LEDGER_AUDIT_STS_REBUILD_FAIL : Fld := ⟨.ledger, 0, 0x048, 0, 0, 6, 1⟩
def LEDGER_AUDIT_STS_DEAL_BIDS : Fld := ⟨.ledger, 0, 0x048, 0, 0, 7, 1⟩
def LEDGER_AUDIT_STS_WITNESS_CHAIN : Fld := ⟨.ledger, 0, 0x048, 0, 0, 8, 1⟩
def LEDGER_AUDIT_STS_FIRST_ID : Fld := ⟨.ledger, 0, 0x048, 0, 0, 16, 8⟩
def LEDGER_AUDIT_TIME_LO : Fld := ⟨.ledger, 0, 0x04C, 0, 0, 0, 32⟩
def LEDGER_AUDIT_TIME_HI : Fld := ⟨.ledger, 0, 0x050, 0, 0, 0, 32⟩
def LEDGER_TALON_FREE_FREE : Fld := ⟨.ledger, 0, 0x054, 0, 0, 0, 16⟩
def LEDGER_TALON_ALLOC_ALLOC : Fld := ⟨.ledger, 0, 0x058, 0, 0, 0, 16⟩
def LEDGER_AUDIT_COUNT : Fld := ⟨.ledger, 0, 0x05C, 0, 0, 0, 32⟩
def LEDGER_FAULT_COUNT : Fld := ⟨.ledger, 0, 0x060, 0, 0, 0, 32⟩
def LEDGER_AUDIT_SKIP : Fld := ⟨.ledger, 0, 0x064, 0, 0, 0, 32⟩

/-! GLOBAL page 0, R83 of 03_register_pages.md. -/
def GLOBAL_ID_DEVICE : Fld := ⟨.global, 0, 0x040, 0, 0, 0, 16⟩
def GLOBAL_ID_STEPPING : Fld := ⟨.global, 0, 0x040, 0, 0, 16, 8⟩
def GLOBAL_ID_GRADE : Fld := ⟨.global, 0, 0x040, 0, 0, 24, 2⟩
def GLOBAL_STS_READY : Fld := ⟨.global, 0, 0x044, 0, 0, 0, 1⟩
def GLOBAL_STS_MGMT_ONLY : Fld := ⟨.global, 0, 0x044, 0, 0, 1, 1⟩
def GLOBAL_STS_HBM_TRAINED : Fld := ⟨.global, 0, 0x044, 0, 0, 2, 1⟩
def GLOBAL_STS_FW_HEALTHY : Fld := ⟨.global, 0, 0x044, 0, 0, 3, 1⟩
def GLOBAL_STS_DEBUG_OPEN : Fld := ⟨.global, 0, 0x044, 0, 0, 4, 1⟩
def GLOBAL_STS_TIME_LOCKED : Fld := ⟨.global, 0, 0x044, 0, 0, 5, 1⟩
def GLOBAL_NVM_STS_BUSY : Fld := ⟨.global, 0, 0x048, 0, 0, 0, 1⟩
def GLOBAL_NVM_STS_PWRFAIL : Fld := ⟨.global, 0, 0x048, 0, 0, 1, 1⟩
def GLOBAL_NVM_STS_REJECTED : Fld := ⟨.global, 0, 0x048, 0, 0, 2, 1⟩
def GLOBAL_HOUSE_TIME_LO : Fld := ⟨.global, 0, 0x04C, 0, 0, 0, 32⟩
def GLOBAL_HOUSE_TIME_HI : Fld := ⟨.global, 0, 0x050, 0, 0, 0, 32⟩
def GLOBAL_BAR2_BASE_LO_BASE_LO : Fld := ⟨.global, 0, 0x054, 0, 0, 21, 11⟩
def GLOBAL_BAR2_BASE_HI_BASE_HI : Fld := ⟨.global, 0, 0x058, 0, 0, 0, 5⟩
def GLOBAL_BAR2_CTL_QOS : Fld := ⟨.global, 0, 0x05C, 0, 0, 0, 4⟩
def GLOBAL_LUT_WIN_INDEX : Fld := ⟨.global, 0, 0x060, 0, 0, 0, 10⟩
def GLOBAL_LUT_WIN_KIND : Fld := ⟨.global, 0, 0x060, 0, 0, 10, 1⟩
def GLOBAL_LUT_WIN_BANK : Fld := ⟨.global, 0, 0x060, 0, 0, 11, 1⟩
def GLOBAL_LUT_WIN_ACTIVE : Fld := ⟨.global, 0, 0x060, 0, 0, 12, 1⟩
def GLOBAL_LUT_WIN_LOCKED : Fld := ⟨.global, 0, 0x060, 0, 0, 13, 1⟩
def GLOBAL_ERR_CTL_UR_EN : Fld := ⟨.global, 0, 0x064, 0, 0, 0, 1⟩
def GLOBAL_ERR_ADDR : Fld := ⟨.global, 0, 0x068, 0, 0, 0, 32⟩
def GLOBAL_ERR_INFO_CAUSE : Fld := ⟨.global, 0, 0x06C, 0, 0, 0, 4⟩
def GLOBAL_ERR_INFO_WRITE : Fld := ⟨.global, 0, 0x06C, 0, 0, 4, 1⟩
def GLOBAL_ERR_INFO_BAR : Fld := ⟨.global, 0, 0x06C, 0, 0, 5, 1⟩
def GLOBAL_ERR_INFO_OVERFLOW : Fld := ⟨.global, 0, 0x06C, 0, 0, 6, 1⟩
def GLOBAL_ERR_COUNT : Fld := ⟨.global, 0, 0x070, 0, 0, 0, 32⟩
def GLOBAL_ERR_CLR_CLEAR : Fld := ⟨.global, 0, 0x074, 0, 0, 0, 1⟩
def GLOBAL_IRQ_CLASS_CLASS : Fld := ⟨.global, 0, 0x080, 0, 0, 0, 22⟩
def GLOBAL_IRQ_COAL_US : Fld := ⟨.global, 0, 0x084, 0, 0, 0, 16⟩
def GLOBAL_IRQ_SUM : Fld := ⟨.global, 0, 0x200, 4, 0, 0, 32⟩

/-! MLANE page 0, R110 of 04_serial_lanes.md. -/
def MLANE_TX_CFG_TX_EN : Fld := ⟨.mlane, 0, 0x800, 0, 0, 0, 1⟩
def MLANE_TX_CFG_TX_MODE : Fld := ⟨.mlane, 0, 0x800, 0, 0, 1, 2⟩
def MLANE_TX_CFG_TX_POL_INV : Fld := ⟨.mlane, 0, 0x800, 0, 0, 3, 1⟩
def MLANE_TX_CFG_TX_LSTATE : Fld := ⟨.mlane, 0, 0x800, 0, 0, 4, 2⟩
def MLANE_TX_RATE_RATE_KBPS : Fld := ⟨.mlane, 0, 0x804, 0, 0, 0, 25⟩
def MLANE_TX_RATE_DIV1001 : Fld := ⟨.mlane, 0, 0x804, 0, 0, 25, 1⟩
def MLANE_RX_RATE_RATE_KBPS : Fld := ⟨.mlane, 0, 0x80C, 0, 0, 0, 25⟩
def MLANE_RX_RATE_DIV1001 : Fld := ⟨.mlane, 0, 0x80C, 0, 0, 25, 1⟩
def MLANE_RX_CFG_RX_EN : Fld := ⟨.mlane, 0, 0x808, 0, 0, 0, 1⟩
def MLANE_RX_CFG_RX_MODE : Fld := ⟨.mlane, 0, 0x808, 0, 0, 1, 2⟩
def MLANE_RX_CFG_RX_POL_INV : Fld := ⟨.mlane, 0, 0x808, 0, 0, 3, 1⟩
def MLANE_RX_CFG_RATE_SRC : Fld := ⟨.mlane, 0, 0x808, 0, 0, 4, 1⟩
def MLANE_RX_CFG_FWD_CLK : Fld := ⟨.mlane, 0, 0x808, 0, 0, 5, 1⟩
def MLANE_BOND_BOND_EN : Fld := ⟨.mlane, 0, 0x810, 0, 0, 0, 1⟩
def MLANE_BOND_BOND_ID : Fld := ⟨.mlane, 0, 0x810, 0, 0, 1, 4⟩
def MLANE_BOND_BOND_LANE : Fld := ⟨.mlane, 0, 0x810, 0, 0, 5, 5⟩
def MLANE_BOND_BOND_WIDTH : Fld := ⟨.mlane, 0, 0x810, 0, 0, 10, 5⟩
def MLANE_TX_FIR_AMP : Fld := ⟨.mlane, 0, 0x040, 0, 0, 0, 4⟩
def MLANE_TX_FIR_PRE : Fld := ⟨.mlane, 0, 0x040, 0, 0, 4, 5⟩
def MLANE_TX_FIR_POST : Fld := ⟨.mlane, 0, 0x040, 0, 0, 9, 5⟩
def MLANE_RX_EQ_CTL_CTLE : Fld := ⟨.mlane, 0, 0x044, 0, 0, 0, 6⟩
def MLANE_RX_EQ_CTL_EQ_MODE : Fld := ⟨.mlane, 0, 0x044, 0, 0, 6, 2⟩
def MLANE_RX_DFE_A_H1 : Fld := ⟨.mlane, 0, 0x048, 0, 0, 0, 7⟩
def MLANE_RX_DFE_A_H2 : Fld := ⟨.mlane, 0, 0x048, 0, 0, 8, 7⟩
def MLANE_RX_DFE_A_H3 : Fld := ⟨.mlane, 0, 0x048, 0, 0, 16, 7⟩
def MLANE_RX_DFE_A_H4 : Fld := ⟨.mlane, 0, 0x048, 0, 0, 24, 7⟩
def MLANE_RX_DFE_B_H5 : Fld := ⟨.mlane, 0, 0x04C, 0, 0, 0, 7⟩
def MLANE_RX_DFE_A_STS_H1 : Fld := ⟨.mlane, 0, 0x050, 0, 0, 0, 7⟩
def MLANE_RX_DFE_A_STS_H2 : Fld := ⟨.mlane, 0, 0x050, 0, 0, 8, 7⟩
def MLANE_RX_DFE_A_STS_H3 : Fld := ⟨.mlane, 0, 0x050, 0, 0, 16, 7⟩
def MLANE_RX_DFE_A_STS_H4 : Fld := ⟨.mlane, 0, 0x050, 0, 0, 24, 7⟩
def MLANE_RX_DFE_B_STS_H5 : Fld := ⟨.mlane, 0, 0x054, 0, 0, 0, 7⟩
def MLANE_RX_EQ_STS_CTLE : Fld := ⟨.mlane, 0, 0x058, 0, 0, 0, 6⟩
def MLANE_DET_CTL_LOS_THR : Fld := ⟨.mlane, 0, 0x05C, 0, 0, 0, 4⟩
def MLANE_DET_CTL_LOL_PPM : Fld := ⟨.mlane, 0, 0x05C, 0, 0, 8, 6⟩
def MLANE_LANE_STS_LOS : Fld := ⟨.mlane, 0, 0x060, 0, 0, 0, 1⟩
def MLANE_LANE_STS_LOL : Fld := ⟨.mlane, 0, 0x060, 0, 0, 1, 1⟩
def MLANE_LANE_STS_RX_LSTATE : Fld := ⟨.mlane, 0, 0x060, 0, 0, 2, 2⟩
def MLANE_LANE_STS_TX_LSTATE : Fld := ⟨.mlane, 0, 0x060, 0, 0, 4, 2⟩
def MLANE_LANE_STS_PLL_LOCK : Fld := ⟨.mlane, 0, 0x060, 0, 0, 6, 1⟩
def MLANE_LANE_STS_ADAPT_DONE : Fld := ⟨.mlane, 0, 0x060, 0, 0, 7, 1⟩
def MLANE_LANE_STS_PRBS_SYNC : Fld := ⟨.mlane, 0, 0x060, 0, 0, 8, 1⟩
def MLANE_LANE_STS_MARKER_LOCK : Fld := ⟨.mlane, 0, 0x060, 0, 0, 9, 1⟩
def MLANE_LANE_STS_BOND_UP : Fld := ⟨.mlane, 0, 0x060, 0, 0, 10, 1⟩
def MLANE_LANE_STS_INJ_REFUSED : Fld := ⟨.mlane, 0, 0x060, 0, 0, 11, 1⟩
def MLANE_RX_LSTATE_REQ_REQ : Fld := ⟨.mlane, 0, 0x064, 0, 0, 0, 2⟩
def MLANE_PRBS_CTL_GEN_PAT : Fld := ⟨.mlane, 0, 0x068, 0, 0, 0, 3⟩
def MLANE_PRBS_CTL_GEN_INV : Fld := ⟨.mlane, 0, 0x068, 0, 0, 3, 1⟩
def MLANE_PRBS_CTL_CHK_PAT : Fld := ⟨.mlane, 0, 0x068, 0, 0, 4, 3⟩
def MLANE_PRBS_CTL_CHK_INV : Fld := ⟨.mlane, 0, 0x068, 0, 0, 7, 1⟩
def MLANE_PRBS_CTL_CLEAR : Fld := ⟨.mlane, 0, 0x068, 0, 0, 8, 1⟩
def MLANE_INJ_CTL_INJ_MODE : Fld := ⟨.mlane, 0, 0x06C, 0, 0, 0, 2⟩
def MLANE_INJ_CTL_INJ_SIDE : Fld := ⟨.mlane, 0, 0x06C, 0, 0, 2, 1⟩
def MLANE_INJ_CTL_INJ_GO : Fld := ⟨.mlane, 0, 0x06C, 0, 0, 3, 1⟩
def MLANE_INJ_CTL_LEN : Fld := ⟨.mlane, 0, 0x06C, 0, 0, 4, 8⟩
def MLANE_INJ_INTERVAL : Fld := ⟨.mlane, 0, 0x070, 0, 0, 0, 32⟩
def MLANE_PRBS_ERR : Fld := ⟨.mlane, 0, 0x074, 0, 0, 0, 32⟩
def MLANE_PRBS_BITS_LO : Fld := ⟨.mlane, 0, 0x078, 0, 0, 0, 32⟩
def MLANE_PRBS_BITS_HI : Fld := ⟨.mlane, 0, 0x07C, 0, 0, 0, 32⟩
def MLANE_LOS_EVENTS : Fld := ⟨.mlane, 0, 0x080, 0, 0, 0, 32⟩
def MLANE_LOL_EVENTS : Fld := ⟨.mlane, 0, 0x084, 0, 0, 0, 32⟩
def MLANE_BIP_ERR : Fld := ⟨.mlane, 0, 0x088, 0, 0, 0, 32⟩
def MLANE_BOND_STS_SKEW : Fld := ⟨.mlane, 0, 0x08C, 0, 0, 0, 13⟩
def MLANE_RX_RATE_STS_RATE : Fld := ⟨.mlane, 0, 0x090, 0, 0, 0, 25⟩
def MLANE_CNT_CLR_CLEAR : Fld := ⟨.mlane, 0, 0x094, 0, 0, 0, 1⟩

/-! NLANE page 0, R111 of 04_serial_lanes.md. -/
def NLANE_TX_CFG_TX_EN : Fld := ⟨.nlane, 0, 0x800, 0, 0, 0, 1⟩
def NLANE_TX_CFG_TX_MODE : Fld := ⟨.nlane, 0, 0x800, 0, 0, 1, 2⟩
def NLANE_TX_CFG_TX_POL_INV : Fld := ⟨.nlane, 0, 0x800, 0, 0, 3, 1⟩
def NLANE_TX_CFG_TX_LSTATE : Fld := ⟨.nlane, 0, 0x800, 0, 0, 4, 2⟩
def NLANE_TX_CFG_TRAIN : Fld := ⟨.nlane, 0, 0x800, 0, 0, 6, 1⟩
def NLANE_RATE_CODE : Fld := ⟨.nlane, 0, 0x804, 0, 0, 0, 3⟩
def NLANE_RX_CFG_RX_EN : Fld := ⟨.nlane, 0, 0x808, 0, 0, 0, 1⟩
def NLANE_RX_CFG_RX_MODE : Fld := ⟨.nlane, 0, 0x808, 0, 0, 1, 2⟩
def NLANE_RX_CFG_RX_POL_INV : Fld := ⟨.nlane, 0, 0x808, 0, 0, 3, 1⟩
def NLANE_TX_FIR_C_M3 : Fld := ⟨.nlane, 0, 0x040, 0, 0, 0, 6⟩
def NLANE_TX_FIR_C_M2 : Fld := ⟨.nlane, 0, 0x040, 0, 0, 8, 6⟩
def NLANE_TX_FIR_C_M1 : Fld := ⟨.nlane, 0, 0x040, 0, 0, 16, 6⟩
def NLANE_TX_FIR_C_P1 : Fld := ⟨.nlane, 0, 0x040, 0, 0, 24, 6⟩
def NLANE_RX_EQ_CTL_CTLE : Fld := ⟨.nlane, 0, 0x044, 0, 0, 0, 6⟩
def NLANE_RX_EQ_CTL_EQ_MODE : Fld := ⟨.nlane, 0, 0x044, 0, 0, 6, 2⟩
def NLANE_RX_DFE_A_H1 : Fld := ⟨.nlane, 0, 0x048, 0, 0, 0, 7⟩
def NLANE_RX_DFE_A_STS_H1 : Fld := ⟨.nlane, 0, 0x050, 0, 0, 0, 7⟩
def NLANE_RX_EQ_STS_CTLE : Fld := ⟨.nlane, 0, 0x058, 0, 0, 0, 6⟩
def NLANE_DET_CTL_LOS_THR : Fld := ⟨.nlane, 0, 0x05C, 0, 0, 0, 4⟩
def NLANE_DET_CTL_LOL_PPM : Fld := ⟨.nlane, 0, 0x05C, 0, 0, 8, 6⟩
def NLANE_LANE_STS_LOS : Fld := ⟨.nlane, 0, 0x060, 0, 0, 0, 1⟩
def NLANE_LANE_STS_LOL : Fld := ⟨.nlane, 0, 0x060, 0, 0, 1, 1⟩
def NLANE_LANE_STS_RX_LSTATE : Fld := ⟨.nlane, 0, 0x060, 0, 0, 2, 2⟩
def NLANE_LANE_STS_TX_LSTATE : Fld := ⟨.nlane, 0, 0x060, 0, 0, 4, 2⟩
def NLANE_LANE_STS_PLL_LOCK : Fld := ⟨.nlane, 0, 0x060, 0, 0, 6, 1⟩
def NLANE_LANE_STS_ADAPT_DONE : Fld := ⟨.nlane, 0, 0x060, 0, 0, 7, 1⟩
def NLANE_LANE_STS_PRBS_SYNC : Fld := ⟨.nlane, 0, 0x060, 0, 0, 8, 1⟩
def NLANE_LANE_STS_MARKER_LOCK : Fld := ⟨.nlane, 0, 0x060, 0, 0, 9, 1⟩
def NLANE_LANE_STS_BOND_UP : Fld := ⟨.nlane, 0, 0x060, 0, 0, 10, 1⟩
def NLANE_LANE_STS_INJ_REFUSED : Fld := ⟨.nlane, 0, 0x060, 0, 0, 11, 1⟩
def NLANE_RX_LSTATE_REQ_REQ : Fld := ⟨.nlane, 0, 0x064, 0, 0, 0, 2⟩
def NLANE_PRBS_CTL_GEN_PAT : Fld := ⟨.nlane, 0, 0x068, 0, 0, 0, 3⟩
def NLANE_PRBS_CTL_GEN_INV : Fld := ⟨.nlane, 0, 0x068, 0, 0, 3, 1⟩
def NLANE_PRBS_CTL_CHK_PAT : Fld := ⟨.nlane, 0, 0x068, 0, 0, 4, 3⟩
def NLANE_PRBS_CTL_CHK_INV : Fld := ⟨.nlane, 0, 0x068, 0, 0, 7, 1⟩
def NLANE_PRBS_CTL_CLEAR : Fld := ⟨.nlane, 0, 0x068, 0, 0, 8, 1⟩
def NLANE_INJ_CTL_INJ_MODE : Fld := ⟨.nlane, 0, 0x06C, 0, 0, 0, 2⟩
def NLANE_INJ_CTL_INJ_SIDE : Fld := ⟨.nlane, 0, 0x06C, 0, 0, 2, 1⟩
def NLANE_INJ_CTL_INJ_GO : Fld := ⟨.nlane, 0, 0x06C, 0, 0, 3, 1⟩
def NLANE_INJ_CTL_LEN : Fld := ⟨.nlane, 0, 0x06C, 0, 0, 4, 8⟩
def NLANE_INJ_INTERVAL : Fld := ⟨.nlane, 0, 0x070, 0, 0, 0, 32⟩
def NLANE_PRBS_ERR : Fld := ⟨.nlane, 0, 0x074, 0, 0, 0, 32⟩
def NLANE_PRBS_BITS_LO : Fld := ⟨.nlane, 0, 0x078, 0, 0, 0, 32⟩
def NLANE_PRBS_BITS_HI : Fld := ⟨.nlane, 0, 0x07C, 0, 0, 0, 32⟩
def NLANE_LOS_EVENTS : Fld := ⟨.nlane, 0, 0x080, 0, 0, 0, 32⟩
def NLANE_LOL_EVENTS : Fld := ⟨.nlane, 0, 0x084, 0, 0, 0, 32⟩
def NLANE_CNT_CLR_CLEAR : Fld := ⟨.nlane, 0, 0x094, 0, 0, 0, 1⟩
def NLANE_RX_FFE_CTL_0_TAP_A : Fld := ⟨.nlane, 0, 0x0A0, 0, 0, 0, 10⟩
def NLANE_RX_FFE_CTL_0_TAP_B : Fld := ⟨.nlane, 0, 0x0A0, 0, 0, 10, 10⟩
def NLANE_RX_FFE_CTL_0_TAP_C : Fld := ⟨.nlane, 0, 0x0A0, 0, 0, 20, 10⟩
def NLANE_RX_FFE_CTL_1_TAP_A : Fld := ⟨.nlane, 0, 0x0A4, 0, 0, 0, 10⟩
def NLANE_RX_FFE_CTL_1_TAP_B : Fld := ⟨.nlane, 0, 0x0A4, 0, 0, 10, 10⟩
def NLANE_RX_FFE_CTL_1_TAP_C : Fld := ⟨.nlane, 0, 0x0A4, 0, 0, 20, 10⟩
def NLANE_RX_FFE_CTL_2_TAP_A : Fld := ⟨.nlane, 0, 0x0A8, 0, 0, 0, 10⟩
def NLANE_RX_FFE_CTL_2_TAP_B : Fld := ⟨.nlane, 0, 0x0A8, 0, 0, 10, 10⟩
def NLANE_RX_FFE_CTL_2_TAP_C : Fld := ⟨.nlane, 0, 0x0A8, 0, 0, 20, 10⟩
def NLANE_RX_FFE_CTL_3_TAP_A : Fld := ⟨.nlane, 0, 0x0AC, 0, 0, 0, 10⟩
def NLANE_RX_FFE_CTL_3_TAP_B : Fld := ⟨.nlane, 0, 0x0AC, 0, 0, 10, 10⟩
def NLANE_RX_FFE_CTL_3_TAP_C : Fld := ⟨.nlane, 0, 0x0AC, 0, 0, 20, 10⟩
def NLANE_RX_FFE_STS_0_TAP_A : Fld := ⟨.nlane, 0, 0x0B0, 0, 0, 0, 10⟩
def NLANE_RX_FFE_STS_0_TAP_B : Fld := ⟨.nlane, 0, 0x0B0, 0, 0, 10, 10⟩
def NLANE_RX_FFE_STS_0_TAP_C : Fld := ⟨.nlane, 0, 0x0B0, 0, 0, 20, 10⟩
def NLANE_RX_FFE_STS_1_TAP_A : Fld := ⟨.nlane, 0, 0x0B4, 0, 0, 0, 10⟩
def NLANE_RX_FFE_STS_1_TAP_B : Fld := ⟨.nlane, 0, 0x0B4, 0, 0, 10, 10⟩
def NLANE_RX_FFE_STS_1_TAP_C : Fld := ⟨.nlane, 0, 0x0B4, 0, 0, 20, 10⟩
def NLANE_RX_FFE_STS_2_TAP_A : Fld := ⟨.nlane, 0, 0x0B8, 0, 0, 0, 10⟩
def NLANE_RX_FFE_STS_2_TAP_B : Fld := ⟨.nlane, 0, 0x0B8, 0, 0, 10, 10⟩
def NLANE_RX_FFE_STS_2_TAP_C : Fld := ⟨.nlane, 0, 0x0B8, 0, 0, 20, 10⟩
def NLANE_RX_FFE_STS_3_TAP_A : Fld := ⟨.nlane, 0, 0x0BC, 0, 0, 0, 10⟩
def NLANE_RX_FFE_STS_3_TAP_B : Fld := ⟨.nlane, 0, 0x0BC, 0, 0, 10, 10⟩
def NLANE_RX_FFE_STS_3_TAP_C : Fld := ⟨.nlane, 0, 0x0BC, 0, 0, 20, 10⟩

/-! INGEST page 0, R141 of 05_ingest.md. -/
def INGEST_CFG_KIND : Fld := ⟨.ingest, 0, 0x800, 0, 0, 0, 4⟩
def INGEST_CFG_DUAL_PATH : Fld := ⟨.ingest, 0, 0x800, 0, 0, 4, 1⟩
def INGEST_CFG_ERR_POLICY : Fld := ⟨.ingest, 0, 0x800, 0, 0, 5, 1⟩
def INGEST_LINK_FIRST_LANE : Fld := ⟨.ingest, 0, 0x804, 0, 0, 0, 7⟩
def INGEST_LINK_LANE_COUNT : Fld := ⟨.ingest, 0, 0x804, 0, 0, 8, 3⟩
def INGEST_LINK_MST_STREAM : Fld := ⟨.ingest, 0, 0x804, 0, 0, 12, 2⟩
def INGEST_LINK_MST_EN : Fld := ⟨.ingest, 0, 0x804, 0, 0, 14, 1⟩
def INGEST_LINK_SBAND : Fld := ⟨.ingest, 0, 0x804, 0, 0, 16, 5⟩
def INGEST_LINK_SBAND_EN : Fld := ⟨.ingest, 0, 0x804, 0, 0, 21, 1⟩
def INGEST_LINK_NETIF : Fld := ⟨.ingest, 0, 0x804, 0, 0, 22, 4⟩
def INGEST_LINK_BONDED : Fld := ⟨.ingest, 0, 0x804, 0, 0, 26, 1⟩
def INGEST_LINK_RATE_MAX_RATE : Fld := ⟨.ingest, 0, 0x808, 0, 0, 0, 3⟩
def INGEST_LINK_RATE_SDI_RATES : Fld := ⟨.ingest, 0, 0x808, 0, 0, 4, 5⟩
def INGEST_STORE_DEPTH : Fld := ⟨.ingest, 0, 0x80C, 0, 0, 0, 2⟩
def INGEST_STORE_SAMPLING : Fld := ⟨.ingest, 0, 0x80C, 0, 0, 2, 1⟩
def INGEST_STORE_ALPHA : Fld := ⟨.ingest, 0, 0x80C, 0, 0, 3, 1⟩
def INGEST_STORE_PACK : Fld := ⟨.ingest, 0, 0x80C, 0, 0, 4, 1⟩
def INGEST_NET_FMT_WIDTH : Fld := ⟨.ingest, 0, 0x810, 0, 0, 0, 14⟩
def INGEST_NET_FMT_HEIGHT : Fld := ⟨.ingest, 0, 0x810, 0, 0, 16, 14⟩
def INGEST_NET_FMT2_SAMPLING : Fld := ⟨.ingest, 0, 0x814, 0, 0, 0, 2⟩
def INGEST_NET_FMT2_DEPTH : Fld := ⟨.ingest, 0, 0x814, 0, 0, 2, 2⟩
def INGEST_NET_FMT2_INTERLACED : Fld := ⟨.ingest, 0, 0x814, 0, 0, 4, 1⟩
def INGEST_NET_FMT2_BPM : Fld := ⟨.ingest, 0, 0x814, 0, 0, 5, 1⟩
def INGEST_NET_FMT2_ALPHA_IN : Fld := ⟨.ingest, 0, 0x814, 0, 0, 6, 1⟩
def INGEST_RATE_NUM : Fld := ⟨.ingest, 0, 0x818, 0, 0, 0, 32⟩
def INGEST_RATE_DEN : Fld := ⟨.ingest, 0, 0x81C, 0, 0, 0, 32⟩
def INGEST_ADDR_P1 : Fld := ⟨.ingest, 0, 0x820, 4, 0, 0, 32⟩
def INGEST_ADDR_P2 : Fld := ⟨.ingest, 0, 0x830, 4, 0, 0, 32⟩
def INGEST_UDP_PORTS_PORT_P1 : Fld := ⟨.ingest, 0, 0x840, 0, 0, 0, 16⟩
def INGEST_UDP_PORTS_PORT_P2 : Fld := ⟨.ingest, 0, 0x840, 0, 0, 16, 16⟩
def INGEST_SSRC : Fld := ⟨.ingest, 0, 0x844, 0, 0, 0, 32⟩
def INGEST_PT_TYPE : Fld := ⟨.ingest, 0, 0x848, 0, 0, 0, 7⟩
def INGEST_PT_PT_CHECK : Fld := ⟨.ingest, 0, 0x848, 0, 0, 7, 1⟩
def INGEST_PATH_WIN_PATH_WINDOW_US : Fld := ⟨.ingest, 0, 0x84C, 0, 0, 0, 16⟩
def INGEST_TATRE_SRC_TABLE : Fld := ⟨.ingest, 0, 0x850, 0, 0, 0, 8⟩
def INGEST_TATRE_SRC_SEAT : Fld := ⟨.ingest, 0, 0x850, 0, 0, 8, 6⟩
def INGEST_TATRE_SRC_CONTEXT : Fld := ⟨.ingest, 0, 0x850, 0, 0, 16, 8⟩
def INGEST_STATE_STATE : Fld := ⟨.ingest, 0, 0x040, 0, 0, 0, 3⟩
def INGEST_STATE_PATH_DOWN : Fld := ⟨.ingest, 0, 0x040, 0, 0, 3, 1⟩
def INGEST_STATE_COMMIT_PENDING : Fld := ⟨.ingest, 0, 0x040, 0, 0, 4, 1⟩
def INGEST_STATE_PATH1_DOWN : Fld := ⟨.ingest, 0, 0x040, 0, 0, 5, 1⟩
def INGEST_STATE_PATH2_DOWN : Fld := ⟨.ingest, 0, 0x040, 0, 0, 6, 1⟩
def INGEST_FMT_ACTIVE_WIDTH : Fld := ⟨.ingest, 0, 0x044, 0, 0, 0, 14⟩
def INGEST_FMT_ACTIVE_HEIGHT : Fld := ⟨.ingest, 0, 0x044, 0, 0, 16, 14⟩
def INGEST_FMT_TOTAL_HTOTAL : Fld := ⟨.ingest, 0, 0x048, 0, 0, 0, 16⟩
def INGEST_FMT_TOTAL_VTOTAL : Fld := ⟨.ingest, 0, 0x048, 0, 0, 16, 16⟩
def INGEST_FMT_COLOUR_SAMPLING : Fld := ⟨.ingest, 0, 0x04C, 0, 0, 0, 2⟩
def INGEST_FMT_COLOUR_DEPTH : Fld := ⟨.ingest, 0, 0x04C, 0, 0, 2, 2⟩
def INGEST_FMT_COLOUR_NARROW : Fld := ⟨.ingest, 0, 0x04C, 0, 0, 4, 1⟩
def INGEST_FMT_COLOUR_COLORIMETRY : Fld := ⟨.ingest, 0, 0x04C, 0, 0, 5, 2⟩
def INGEST_FMT_COLOUR_TRANSFER : Fld := ⟨.ingest, 0, 0x04C, 0, 0, 7, 2⟩
def INGEST_FMT_COLOUR_INTERLACED : Fld := ⟨.ingest, 0, 0x04C, 0, 0, 9, 1⟩
def INGEST_FRAME_PERIOD : Fld := ⟨.ingest, 0, 0x050, 0, 0, 0, 32⟩
def INGEST_FRAMES_PUB : Fld := ⟨.ingest, 0, 0x054, 0, 0, 0, 32⟩
def INGEST_FRAMES_DISC : Fld := ⟨.ingest, 0, 0x058, 0, 0, 0, 32⟩
def INGEST_DISC_REASON_REASON : Fld := ⟨.ingest, 0, 0x05C, 0, 0, 0, 4⟩
def INGEST_LINK_ERR : Fld := ⟨.ingest, 0, 0x060, 0, 0, 0, 32⟩
def INGEST_LOST_EVENTS : Fld := ⟨.ingest, 0, 0x064, 0, 0, 0, 32⟩
def INGEST_FORMAT_CHANGES : Fld := ⟨.ingest, 0, 0x068, 0, 0, 0, 32⟩
def INGEST_PATH1_LOSS : Fld := ⟨.ingest, 0, 0x06C, 0, 0, 0, 32⟩
def INGEST_PATH2_LOSS : Fld := ⟨.ingest, 0, 0x070, 0, 0, 0, 32⟩
def INGEST_PATH_LATE : Fld := ⟨.ingest, 0, 0x074, 0, 0, 0, 32⟩
def INGEST_LATEST_FRAME : Fld := ⟨.ingest, 0, 0x078, 0, 0, 0, 32⟩
def INGEST_WRITE_LINE : Fld := ⟨.ingest, 0, 0x07C, 0, 0, 0, 32⟩
def INGEST_CNT_CLR_CLEAR : Fld := ⟨.ingest, 0, 0x084, 0, 0, 0, 1⟩
def INGEST_EDID_IDX_WORD : Fld := ⟨.ingest, 0, 0x088, 0, 0, 2, 10⟩
def INGEST_EDID_DATA : Fld := ⟨.ingest, 0, 0x08C, 0, 0, 0, 32⟩
def INGEST_EDID_CTL_COMMIT : Fld := ⟨.ingest, 0, 0x090, 0, 0, 0, 1⟩
def INGEST_EDID_CTL_HPD_PULSE : Fld := ⟨.ingest, 0, 0x090, 0, 0, 1, 1⟩
def INGEST_EDID_CTL_HPD_EN : Fld := ⟨.ingest, 0, 0x090, 0, 0, 2, 1⟩
def INGEST_EDID_CTL_HPD_ON_COMMIT : Fld := ⟨.ingest, 0, 0x090, 0, 0, 3, 1⟩
def INGEST_HPD_LOW_HPD_LOW_MS : Fld := ⟨.ingest, 0, 0x094, 0, 0, 0, 16⟩
def INGEST_DMA_RING_LO_ADDR : Fld := ⟨.ingest, 0, 0x0A0, 0, 0, 6, 26⟩
def INGEST_DMA_RING_HI : Fld := ⟨.ingest, 0, 0x0A4, 0, 0, 0, 32⟩
def INGEST_DMA_RING_SIZE_ENTRIES : Fld := ⟨.ingest, 0, 0x0A8, 0, 0, 0, 13⟩
def INGEST_DMA_TAIL_TAIL : Fld := ⟨.ingest, 0, 0x0AC, 0, 0, 0, 12⟩
def INGEST_DMA_HEAD_HEAD : Fld := ⟨.ingest, 0, 0x0B0, 0, 0, 0, 12⟩
def INGEST_DMA_CTL_EN : Fld := ⟨.ingest, 0, 0x0B4, 0, 0, 0, 1⟩
def INGEST_DMA_CTL_DMA_PRIO : Fld := ⟨.ingest, 0, 0x0B4, 0, 0, 1, 2⟩
def INGEST_DMA_ERR_INDEX : Fld := ⟨.ingest, 0, 0x0B8, 0, 0, 0, 12⟩
def INGEST_DMA_ERR_CAUSE : Fld := ⟨.ingest, 0, 0x0B8, 0, 0, 12, 4⟩
def INGEST_ANC_BASE_LO : Fld := ⟨.ingest, 0, 0x0C0, 0, 0, 0, 32⟩
def INGEST_ANC_BASE_HI : Fld := ⟨.ingest, 0, 0x0C4, 0, 0, 0, 32⟩
def INGEST_ANC_WR : Fld := ⟨.ingest, 0, 0x0C8, 0, 0, 0, 32⟩

/-! MEMSW page 0, R174 of 06_frame_store.md. -/
def MEMSW_QOS_INGEST : Fld := ⟨.memsw, 0, 0x040, 0, 0, 0, 4⟩
def MEMSW_QOS_ENGINE : Fld := ⟨.memsw, 0, 0x040, 0, 0, 4, 4⟩
def MEMSW_QOS_HEAD : Fld := ⟨.memsw, 0, 0x040, 0, 0, 8, 4⟩
def MEMSW_QOS_SEND : Fld := ⟨.memsw, 0, 0x040, 0, 0, 12, 4⟩
def MEMSW_QOS_RECORDER : Fld := ⟨.memsw, 0, 0x040, 0, 0, 16, 4⟩
def MEMSW_QOS_HOSTDMA : Fld := ⟨.memsw, 0, 0x040, 0, 0, 20, 4⟩
def MEMSW_QOS_AUDIO : Fld := ⟨.memsw, 0, 0x040, 0, 0, 24, 4⟩
def MEMSW_QOS_MELD : Fld := ⟨.memsw, 0, 0x040, 0, 0, 28, 4⟩
def MEMSW_AGE_CTL_AGE_US : Fld := ⟨.memsw, 0, 0x044, 0, 0, 0, 16⟩
def MEMSW_CE_COUNT : Fld := ⟨.memsw, 0, 0x048, 0, 0, 0, 32⟩
def MEMSW_UE_COUNT : Fld := ⟨.memsw, 0, 0x04C, 0, 0, 0, 32⟩
def MEMSW_UE_ADDR_LO_ADDR : Fld := ⟨.memsw, 0, 0x050, 0, 0, 5, 27⟩
def MEMSW_UE_ADDR_HI_ADDR : Fld := ⟨.memsw, 0, 0x054, 0, 0, 0, 5⟩
def MEMSW_PC_FENCED : Fld := ⟨.memsw, 0, 0x058, 4, 0, 0, 32⟩
def MEMSW_PC_CTL_PC_UE_LIMIT : Fld := ⟨.memsw, 0, 0x068, 0, 0, 0, 8⟩
def MEMSW_PC_REL_PC : Fld := ⟨.memsw, 0, 0x06C, 0, 0, 0, 7⟩
def MEMSW_PC_REL_GO : Fld := ⟨.memsw, 0, 0x06C, 0, 0, 8, 1⟩
def MEMSW_PC_REL_PC_REL_REFUSED : Fld := ⟨.memsw, 0, 0x06C, 0, 0, 9, 1⟩
def MEMSW_SCRUB_CTL_EN : Fld := ⟨.memsw, 0, 0x070, 0, 0, 0, 1⟩
def MEMSW_SCRUB_CTL_SCRUB_HOURS : Fld := ⟨.memsw, 0, 0x070, 0, 0, 8, 8⟩
def MEMSW_SCRUB_STS : Fld := ⟨.memsw, 0, 0x074, 0, 0, 0, 32⟩
def MEMSW_BW : Fld := ⟨.memsw, 0, 0x080, 4, 0, 0, 32⟩
def MEMSW_CNT_CLR_CLEAR : Fld := ⟨.memsw, 0, 0x0A0, 0, 0, 0, 1⟩

/-! TALON page 0, R175 of 06_frame_store.md. -/
def TALON_CTX_BUF_BUFFERS : Fld := ⟨.talon, 0, 0x800, 4, 0, 0, 4⟩
def TALON_CTX_BUF_SLABS : Fld := ⟨.talon, 0, 0x800, 4, 0, 4, 12⟩
def TALON_FREE_FREE : Fld := ⟨.talon, 0, 0x040, 0, 0, 0, 16⟩
def TALON_HOST_STAGE_SLABS : Fld := ⟨.talon, 0, 0x044, 0, 0, 0, 16⟩
def TALON_HOST_STAGE_STS_HELD : Fld := ⟨.talon, 0, 0x048, 0, 0, 0, 16⟩
def TALON_HOST_STAGE_STS_SHORT : Fld := ⟨.talon, 0, 0x048, 0, 0, 16, 1⟩
def TALON_OWNER_QUERY_SLAB : Fld := ⟨.talon, 0, 0x04C, 0, 0, 0, 16⟩
def TALON_OWNER_RESULT_OWNER : Fld := ⟨.talon, 0, 0x050, 0, 0, 0, 16⟩
def TALON_OWNER_RESULT_POSITION : Fld := ⟨.talon, 0, 0x050, 0, 0, 16, 16⟩
def TALON_MAP_QUERY_OWNER : Fld := ⟨.talon, 0, 0x054, 0, 0, 0, 16⟩
def TALON_MAP_ADDR_LO : Fld := ⟨.talon, 0, 0x058, 0, 0, 0, 32⟩
def TALON_MAP_ADDR_HI : Fld := ⟨.talon, 0, 0x05C, 0, 0, 0, 32⟩
def TALON_MAP_LEN_LEN : Fld := ⟨.talon, 0, 0x060, 0, 0, 0, 16⟩
def TALON_CTX_SHORT : Fld := ⟨.talon, 0, 0x064, 4, 0, 0, 32⟩
def TALON_BUF_STARVE : Fld := ⟨.talon, 0, 0x084, 0, 0, 0, 32⟩
def TALON_SEAL_NEED : Fld := ⟨.talon, 0, 0x088, 0, 0, 0, 32⟩
def TALON_SEAL_SHORT : Fld := ⟨.talon, 0, 0x08C, 0, 0, 0, 32⟩
def TALON_CLASS_ALLOC_SLABS : Fld := ⟨.talon, 0, 0x090, 4, 0, 0, 16⟩
def TALON_CNT_CLR_CLEAR : Fld := ⟨.talon, 0, 0x0B0, 0, 0, 0, 1⟩

/-! RECORDER page 0, R176 of 06_frame_store.md. -/
def RECORDER_CFG_EN : Fld := ⟨.recorder, 0, 0x800, 0, 0, 0, 1⟩
def RECORDER_CFG_PACK : Fld := ⟨.recorder, 0, 0x800, 0, 0, 1, 1⟩
def RECORDER_CFG_DIV : Fld := ⟨.recorder, 0, 0x800, 0, 0, 2, 8⟩
def RECORDER_CFG_KEY_S : Fld := ⟨.recorder, 0, 0x800, 0, 0, 10, 16⟩
def RECORDER_RING_SLABS_SLABS : Fld := ⟨.recorder, 0, 0x804, 0, 0, 0, 16⟩
def RECORDER_HEAD_MASK_LO : Fld := ⟨.recorder, 0, 0x808, 0, 0, 0, 32⟩
def RECORDER_HEAD_MASK_HI : Fld := ⟨.recorder, 0, 0x80C, 0, 0, 0, 32⟩
def RECORDER_CTL_HOLD : Fld := ⟨.recorder, 0, 0x040, 0, 0, 0, 1⟩
def RECORDER_CTL_FORCE_KEY : Fld := ⟨.recorder, 0, 0x040, 0, 0, 1, 1⟩
def RECORDER_STS_RUNNING : Fld := ⟨.recorder, 0, 0x044, 0, 0, 0, 1⟩
def RECORDER_STS_HELD : Fld := ⟨.recorder, 0, 0x044, 0, 0, 1, 1⟩
def RECORDER_STS_WRAPPED : Fld := ⟨.recorder, 0, 0x044, 0, 0, 2, 1⟩
def RECORDER_WR_OFFSET : Fld := ⟨.recorder, 0, 0x048, 0, 0, 0, 32⟩
def RECORDER_OLDEST_OFF : Fld := ⟨.recorder, 0, 0x04C, 0, 0, 0, 32⟩
def RECORDER_NEXT_SEQ : Fld := ⟨.recorder, 0, 0x050, 0, 0, 0, 32⟩
def RECORDER_OLDEST_SEQ : Fld := ⟨.recorder, 0, 0x054, 0, 0, 0, 32⟩
def RECORDER_MAP_LO : Fld := ⟨.recorder, 0, 0x058, 0, 0, 0, 32⟩
def RECORDER_MAP_HI : Fld := ⟨.recorder, 0, 0x05C, 0, 0, 0, 32⟩
def RECORDER_ENTRIES : Fld := ⟨.recorder, 0, 0x060, 0, 0, 0, 32⟩
def RECORDER_BROKEN : Fld := ⟨.recorder, 0, 0x064, 0, 0, 0, 32⟩
def RECORDER_DROPPED : Fld := ⟨.recorder, 0, 0x068, 0, 0, 0, 32⟩
def RECORDER_RATE_MB : Fld := ⟨.recorder, 0, 0x06C, 0, 0, 0, 32⟩
def RECORDER_CNT_CLR_CLEAR : Fld := ⟨.recorder, 0, 0x070, 0, 0, 0, 1⟩

/-! LAYER page 0, R177 of 06_frame_store.md. -/
def LAYER_CHASE_CTL_CHASE_EN : Fld := ⟨.layer, 0, 0x940, 0, 0, 0, 1⟩
def LAYER_CHASE_CTL_CHASE_MARGIN : Fld := ⟨.layer, 0, 0x940, 0, 0, 8, 8⟩
def LAYER_CHASE_STS_CHASING : Fld := ⟨.layer, 0, 0x140, 0, 0, 0, 1⟩
def LAYER_CHASE_STS_SLIPPED : Fld := ⟨.layer, 0, 0x140, 0, 0, 1, 1⟩
def LAYER_CHASE_STS_SLIP_ROW : Fld := ⟨.layer, 0, 0x140, 0, 0, 16, 16⟩
def LAYER_CHASE_SLIP : Fld := ⟨.layer, 0, 0x144, 0, 0, 0, 32⟩
def LAYER_CHASE_FRAMES : Fld := ⟨.layer, 0, 0x148, 0, 0, 0, 32⟩
def LAYER_CHASE_MIN_LEAD : Fld := ⟨.layer, 0, 0x14C, 0, 0, 0, 32⟩
def LAYER_CHASE_CLR_CLEAR : Fld := ⟨.layer, 0, 0x150, 0, 0, 0, 1⟩

/-! LAYER page 0, R204 of 07_pixel_engines.md. -/
def LAYER_SELECT_MARGIN : Fld := ⟨.layer, 0, 0x960, 0, 0, 0, 8⟩
def LAYER_ENG_CTL_ENG_EN : Fld := ⟨.layer, 0, 0x980, 0, 0, 0, 1⟩
def LAYER_ENG_CTL_ENGINE : Fld := ⟨.layer, 0, 0x980, 0, 0, 1, 6⟩
def LAYER_ENG_CTL_ENG_COUNT : Fld := ⟨.layer, 0, 0x980, 0, 0, 7, 2⟩
def LAYER_ENG_CTL_STRIP : Fld := ⟨.layer, 0, 0x980, 0, 0, 9, 1⟩
def LAYER_ENG_CTL_DEINT : Fld := ⟨.layer, 0, 0x980, 0, 0, 10, 2⟩
def LAYER_ENG_CTL_FIELD_ORDER : Fld := ⟨.layer, 0, 0x980, 0, 0, 12, 1⟩
def LAYER_ENG_CTL_ROT : Fld := ⟨.layer, 0, 0x980, 0, 0, 13, 2⟩
def LAYER_ENG_CTL_MIRROR : Fld := ⟨.layer, 0, 0x980, 0, 0, 15, 1⟩
def LAYER_ENG_CTL_CHROMA_UP : Fld := ⟨.layer, 0, 0x980, 0, 0, 16, 1⟩
def LAYER_ENG_CTL_CHROMA_DOWN : Fld := ⟨.layer, 0, 0x980, 0, 0, 17, 1⟩
def LAYER_ENG_CTL_MATRIX_EN : Fld := ⟨.layer, 0, 0x980, 0, 0, 18, 1⟩
def LAYER_ENG_CTL_SCALE_EN : Fld := ⟨.layer, 0, 0x980, 0, 0, 19, 1⟩
def LAYER_ENG_SCALE_H_TAPS : Fld := ⟨.layer, 0, 0x984, 0, 0, 0, 4⟩
def LAYER_ENG_SCALE_V_TAPS : Fld := ⟨.layer, 0, 0x984, 0, 0, 4, 4⟩
def LAYER_ENG_SCALE_H_SET : Fld := ⟨.layer, 0, 0x984, 0, 0, 8, 4⟩
def LAYER_ENG_SCALE_V_SET : Fld := ⟨.layer, 0, 0x984, 0, 0, 12, 4⟩
def LAYER_ENG_OUT_DEPTH : Fld := ⟨.layer, 0, 0x988, 0, 0, 0, 2⟩
def LAYER_ENG_OUT_SAMPLING : Fld := ⟨.layer, 0, 0x988, 0, 0, 2, 1⟩
def LAYER_ENG_OUT_ALPHA : Fld := ⟨.layer, 0, 0x988, 0, 0, 3, 1⟩
def LAYER_ENG_OUT_PACK : Fld := ⟨.layer, 0, 0x988, 0, 0, 4, 1⟩
def LAYER_ENG_OUT_SPACE : Fld := ⟨.layer, 0, 0x988, 0, 0, 5, 1⟩
def LAYER_ENG_RATE_NUM : Fld := ⟨.layer, 0, 0x98C, 0, 0, 0, 32⟩
def LAYER_ENG_RATE_DEN : Fld := ⟨.layer, 0, 0x990, 0, 0, 0, 32⟩
def LAYER_ENG_MATRIX_0_COEF_LO : Fld := ⟨.layer, 0, 0x994, 0, 0, 0, 16⟩
def LAYER_ENG_MATRIX_0_COEF_HI : Fld := ⟨.layer, 0, 0x994, 0, 0, 16, 16⟩
def LAYER_ENG_MATRIX_1_COEF_LO : Fld := ⟨.layer, 0, 0x998, 0, 0, 0, 16⟩
def LAYER_ENG_MATRIX_1_COEF_HI : Fld := ⟨.layer, 0, 0x998, 0, 0, 16, 16⟩
def LAYER_ENG_MATRIX_2_COEF_LO : Fld := ⟨.layer, 0, 0x99C, 0, 0, 0, 16⟩
def LAYER_ENG_MATRIX_2_COEF_HI : Fld := ⟨.layer, 0, 0x99C, 0, 0, 16, 16⟩
def LAYER_ENG_MATRIX_3_COEF_LO : Fld := ⟨.layer, 0, 0x9A0, 0, 0, 0, 16⟩
def LAYER_ENG_MATRIX_3_COEF_HI : Fld := ⟨.layer, 0, 0x9A0, 0, 0, 16, 16⟩
def LAYER_ENG_MATRIX_4_COEF_LO : Fld := ⟨.layer, 0, 0x9A4, 0, 0, 0, 16⟩
def LAYER_ENG_PRE_OFF_OFFSET : Fld := ⟨.layer, 0, 0x9A8, 4, 0, 0, 17⟩
def LAYER_ENG_POST_OFF_OFFSET : Fld := ⟨.layer, 0, 0x9B4, 4, 0, 0, 17⟩
def LAYER_SEL_FRAME : Fld := ⟨.layer, 0, 0x160, 0, 0, 0, 32⟩
def LAYER_SEL_STS_REPEAT : Fld := ⟨.layer, 0, 0x164, 0, 0, 0, 1⟩
def LAYER_SEL_STS_NO_FRAME : Fld := ⟨.layer, 0, 0x164, 0, 0, 1, 1⟩
def LAYER_SEL_STS_DROPPED : Fld := ⟨.layer, 0, 0x164, 0, 0, 8, 8⟩
def LAYER_REPEATS : Fld := ⟨.layer, 0, 0x168, 0, 0, 0, 32⟩
def LAYER_DROPS : Fld := ⟨.layer, 0, 0x16C, 0, 0, 0, 32⟩
def LAYER_SEL_CLR_CLEAR : Fld := ⟨.layer, 0, 0x170, 0, 0, 0, 1⟩
def LAYER_ENG_STS_JOB_ACTIVE : Fld := ⟨.layer, 0, 0x180, 0, 0, 0, 1⟩
def LAYER_ENG_STS_STRIPPED : Fld := ⟨.layer, 0, 0x180, 0, 0, 1, 1⟩
def LAYER_ENG_STS_STRIPS : Fld := ⟨.layer, 0, 0x180, 0, 0, 8, 8⟩
def LAYER_ENG_DONE_FRAME : Fld := ⟨.layer, 0, 0x184, 0, 0, 0, 32⟩
def LAYER_ENG_JOB_US : Fld := ⟨.layer, 0, 0x188, 0, 0, 0, 32⟩

/-! ENGINE page 0, R206 of 07_pixel_engines.md. -/
def ENGINE_LOAD_ACTIVE : Fld := ⟨.engine, 0, 0x040, 0, 0, 0, 14⟩
def ENGINE_LOAD_SEALED : Fld := ⟨.engine, 0, 0x040, 0, 0, 16, 14⟩
def ENGINE_LINEBUF_BYTES : Fld := ⟨.engine, 0, 0x044, 0, 0, 0, 19⟩
def ENGINE_SERVED_LAYERS : Fld := ⟨.engine, 0, 0x048, 0, 0, 0, 11⟩
def ENGINE_SERVED_HB : Fld := ⟨.engine, 0, 0x048, 0, 0, 16, 9⟩
def ENGINE_KERNEL_VER_VERSION : Fld := ⟨.engine, 0, 0x04C, 0, 0, 0, 16⟩
def ENGINE_KERNEL_VER_BUILD : Fld := ⟨.engine, 0, 0x04C, 0, 0, 16, 16⟩
def ENGINE_JOB_STS_BUSY : Fld := ⟨.engine, 0, 0x050, 0, 0, 0, 1⟩
def ENGINE_JOB_STS_KERNEL : Fld := ⟨.engine, 0, 0x050, 0, 0, 4, 4⟩
def ENGINE_JOB_STS_LAYER : Fld := ⟨.engine, 0, 0x050, 0, 0, 16, 10⟩
def ENGINE_JOBS : Fld := ⟨.engine, 0, 0x054, 0, 0, 0, 32⟩
def ENGINE_SKIPS : Fld := ⟨.engine, 0, 0x058, 0, 0, 0, 32⟩
def ENGINE_OVERRUNS : Fld := ⟨.engine, 0, 0x05C, 0, 0, 0, 32⟩
def ENGINE_BUSY_PCT : Fld := ⟨.engine, 0, 0x060, 0, 0, 0, 32⟩
def ENGINE_LAST_REJECT_CAUSE : Fld := ⟨.engine, 0, 0x064, 0, 0, 0, 2⟩
def ENGINE_LAST_REJECT_LAYER : Fld := ⟨.engine, 0, 0x064, 0, 0, 16, 10⟩
def ENGINE_COEF_IDX_WORD : Fld := ⟨.engine, 0, 0x070, 0, 0, 0, 12⟩
def ENGINE_COEF_DATA_TAP_EVEN : Fld := ⟨.engine, 0, 0x074, 0, 0, 0, 16⟩
def ENGINE_COEF_DATA_TAP_ODD : Fld := ⟨.engine, 0, 0x074, 0, 0, 16, 16⟩
def ENGINE_COEF_STS_REFUSED : Fld := ⟨.engine, 0, 0x078, 0, 0, 0, 1⟩
def ENGINE_COEF_STS_IN_USE : Fld := ⟨.engine, 0, 0x078, 0, 0, 16, 16⟩
def ENGINE_CNT_CLR_CLEAR : Fld := ⟨.engine, 0, 0x07C, 0, 0, 0, 1⟩

/-! LAYER page 0, R231 of 08_composition.md. -/
def LAYER_SRC_CTX_CONTEXT : Fld := ⟨.layer, 0, 0x800, 0, 0, 0, 8⟩
def LAYER_SRC_XY_SRC_X : Fld := ⟨.layer, 0, 0x804, 0, 0, 0, 16⟩
def LAYER_SRC_XY_SRC_Y : Fld := ⟨.layer, 0, 0x804, 0, 0, 16, 16⟩
def LAYER_SRC_WH_SRC_W : Fld := ⟨.layer, 0, 0x808, 0, 0, 0, 16⟩
def LAYER_SRC_WH_SRC_H : Fld := ⟨.layer, 0, 0x808, 0, 0, 16, 16⟩
def LAYER_DST_XY_DST_X : Fld := ⟨.layer, 0, 0x80C, 0, 0, 0, 16⟩
def LAYER_DST_XY_DST_Y : Fld := ⟨.layer, 0, 0x80C, 0, 0, 16, 16⟩
def LAYER_DST_WH_DST_W : Fld := ⟨.layer, 0, 0x810, 0, 0, 0, 16⟩
def LAYER_DST_WH_DST_H : Fld := ⟨.layer, 0, 0x810, 0, 0, 16, 16⟩
def LAYER_COMP_CTL_FIT : Fld := ⟨.layer, 0, 0x814, 0, 0, 0, 1⟩
def LAYER_COMP_CTL_BLEND : Fld := ⟨.layer, 0, 0x814, 0, 0, 1, 1⟩
def LAYER_COMP_CTL_ALPHA_EN : Fld := ⟨.layer, 0, 0x814, 0, 0, 2, 1⟩
def LAYER_COMP_CTL_PLANE_ALPHA : Fld := ⟨.layer, 0, 0x814, 0, 0, 16, 13⟩
def LAYER_LUT_CTL_BANK : Fld := ⟨.layer, 0, 0x818, 0, 0, 0, 1⟩
def LAYER_LMAT_CTL_MODE : Fld := ⟨.layer, 0, 0x81C, 0, 0, 0, 2⟩
def LAYER_LMAT_0_COEF_LO : Fld := ⟨.layer, 0, 0x820, 0, 0, 0, 16⟩
def LAYER_LMAT_0_COEF_HI : Fld := ⟨.layer, 0, 0x820, 0, 0, 16, 16⟩
def LAYER_LMAT_1_COEF_LO : Fld := ⟨.layer, 0, 0x824, 0, 0, 0, 16⟩
def LAYER_LMAT_1_COEF_HI : Fld := ⟨.layer, 0, 0x824, 0, 0, 16, 16⟩
def LAYER_LMAT_2_COEF_LO : Fld := ⟨.layer, 0, 0x828, 0, 0, 0, 16⟩
def LAYER_LMAT_2_COEF_HI : Fld := ⟨.layer, 0, 0x828, 0, 0, 16, 16⟩
def LAYER_LMAT_3_COEF_LO : Fld := ⟨.layer, 0, 0x82C, 0, 0, 0, 16⟩
def LAYER_LMAT_3_COEF_HI : Fld := ⟨.layer, 0, 0x82C, 0, 0, 16, 16⟩
def LAYER_LMAT_4_COEF_LO : Fld := ⟨.layer, 0, 0x830, 0, 0, 0, 16⟩
def LAYER_LMAT_OFF_PRE : Fld := ⟨.layer, 0, 0x834, 4, 0, 0, 13⟩
def LAYER_LMAT_OFF_POST : Fld := ⟨.layer, 0, 0x834, 4, 0, 16, 13⟩
def LAYER_COMP_STS_PLACED : Fld := ⟨.layer, 0, 0x1A0, 0, 0, 0, 1⟩
def LAYER_COMP_STS_HEAD : Fld := ⟨.layer, 0, 0x1A0, 0, 0, 1, 6⟩
def LAYER_COMP_STS_SLOT : Fld := ⟨.layer, 0, 0x1A0, 0, 0, 7, 4⟩
def LAYER_COMP_STS_OPAQUE : Fld := ⟨.layer, 0, 0x1A0, 0, 0, 11, 1⟩
def LAYER_COMP_STS_MELDED : Fld := ⟨.layer, 0, 0x1A0, 0, 0, 12, 1⟩
def LAYER_COMP_STS_FIT_FAIL : Fld := ⟨.layer, 0, 0x1A0, 0, 0, 13, 1⟩
def LAYER_COMP_STS_PLACE_HELD : Fld := ⟨.layer, 0, 0x1A0, 0, 0, 14, 1⟩
def LAYER_COMP_STS_LEFT_OUT : Fld := ⟨.layer, 0, 0x1A0, 0, 0, 15, 1⟩
def LAYER_TILES_FETCHED : Fld := ⟨.layer, 0, 0x1A4, 0, 0, 0, 16⟩
def LAYER_TILES_SUPPRESSED : Fld := ⟨.layer, 0, 0x1A4, 0, 0, 16, 16⟩
def LAYER_DRAWN_XY_X : Fld := ⟨.layer, 0, 0x1A8, 0, 0, 0, 16⟩
def LAYER_DRAWN_XY_Y : Fld := ⟨.layer, 0, 0x1A8, 0, 0, 16, 16⟩
def LAYER_DRAWN_WH_W : Fld := ⟨.layer, 0, 0x1AC, 0, 0, 0, 16⟩
def LAYER_DRAWN_WH_H : Fld := ⟨.layer, 0, 0x1AC, 0, 0, 16, 16⟩
def LAYER_REPLANS : Fld := ⟨.layer, 0, 0x1B0, 0, 0, 0, 32⟩
def LAYER_COMP_CLR_CLEAR : Fld := ⟨.layer, 0, 0x1B4, 0, 0, 0, 1⟩

/-! HEAD page 1, R233 of 08_composition.md. -/
def HEAD_SLOT_LAYER : Fld := ⟨.head, 1, 0x800, 4, 0, 0, 10⟩
def HEAD_SLOT_EN : Fld := ⟨.head, 1, 0x800, 4, 0, 15, 1⟩
def HEAD_BG_RG_RED : Fld := ⟨.head, 1, 0x840, 0, 0, 0, 16⟩
def HEAD_BG_RG_GREEN : Fld := ⟨.head, 1, 0x840, 0, 0, 16, 16⟩
def HEAD_BG_B_BLUE : Fld := ⟨.head, 1, 0x844, 0, 0, 0, 16⟩
def HEAD_POST_LUT_BANK : Fld := ⟨.head, 1, 0x848, 0, 0, 0, 1⟩
def HEAD_TRUMP_CTL_CONTEXT : Fld := ⟨.head, 1, 0x84C, 0, 0, 0, 8⟩
def HEAD_TRUMP_CTL_EN : Fld := ⟨.head, 1, 0x84C, 0, 0, 8, 1⟩
def HEAD_TRUMP_CTL_BLEND : Fld := ⟨.head, 1, 0x84C, 0, 0, 9, 1⟩
def HEAD_TRUMP_CTL_ALPHA_EN : Fld := ⟨.head, 1, 0x84C, 0, 0, 10, 1⟩
def HEAD_TRUMP_CTL_PLANE_ALPHA : Fld := ⟨.head, 1, 0x84C, 0, 0, 16, 13⟩
def HEAD_TRUMP_SRC_XY_SRC_X : Fld := ⟨.head, 1, 0x850, 0, 0, 0, 16⟩
def HEAD_TRUMP_SRC_XY_SRC_Y : Fld := ⟨.head, 1, 0x850, 0, 0, 16, 16⟩
def HEAD_TRUMP_SRC_WH_SRC_W : Fld := ⟨.head, 1, 0x854, 0, 0, 0, 16⟩
def HEAD_TRUMP_SRC_WH_SRC_H : Fld := ⟨.head, 1, 0x854, 0, 0, 16, 16⟩
def HEAD_TRUMP_DST_XY_DST_X : Fld := ⟨.head, 1, 0x858, 0, 0, 0, 16⟩
def HEAD_TRUMP_DST_XY_DST_Y : Fld := ⟨.head, 1, 0x858, 0, 0, 16, 16⟩
def HEAD_TRUMP_FRESH_CLASS : Fld := ⟨.head, 1, 0x85C, 0, 0, 0, 2⟩
def HEAD_TRUMP_FRESH_TREAT : Fld := ⟨.head, 1, 0x85C, 0, 0, 2, 2⟩
def HEAD_TRUMP_FRESH_SCOPE : Fld := ⟨.head, 1, 0x85C, 0, 0, 4, 1⟩
def HEAD_TRUMP_LIMIT : Fld := ⟨.head, 1, 0x860, 0, 0, 0, 32⟩
def HEAD_TRUMP_STALE_RG_RED : Fld := ⟨.head, 1, 0x864, 0, 0, 0, 16⟩
def HEAD_TRUMP_STALE_RG_GREEN : Fld := ⟨.head, 1, 0x864, 0, 0, 16, 16⟩
def HEAD_TRUMP_STALE_B_BLUE : Fld := ⟨.head, 1, 0x868, 0, 0, 0, 16⟩
def HEAD_TRUMP_FRESH_STS_STALE : Fld := ⟨.head, 1, 0x040, 0, 0, 0, 1⟩
def HEAD_TRUMP_FRESH_STS_FORCED : Fld := ⟨.head, 1, 0x040, 0, 0, 1, 1⟩
def HEAD_TRUMP_FRESH_STS_AGE : Fld := ⟨.head, 1, 0x040, 0, 0, 8, 1⟩
def HEAD_TRUMP_FRESH_STS_INGEST_FENCED : Fld := ⟨.head, 1, 0x040, 0, 0, 9, 1⟩
def HEAD_TRUMP_FRESH_STS_ENGINE_FENCED : Fld := ⟨.head, 1, 0x040, 0, 0, 10, 1⟩
def HEAD_TRUMP_FRESH_STS_GEOMETRY : Fld := ⟨.head, 1, 0x040, 0, 0, 11, 1⟩
def HEAD_TRUMP_FRESH_STS_FROZEN : Fld := ⟨.head, 1, 0x040, 0, 0, 12, 1⟩
def HEAD_TRUMP_FRESH_STS_HEARTBEAT : Fld := ⟨.head, 1, 0x040, 0, 0, 13, 1⟩
def HEAD_TRUMP_FRESH_STS_PEER_LOST : Fld := ⟨.head, 1, 0x040, 0, 0, 14, 1⟩
def HEAD_TRUMP_FRESH_STS_PROTECTED : Fld := ⟨.head, 1, 0x040, 0, 0, 15, 1⟩
def HEAD_TRUMP_FRESH_STS_POISON : Fld := ⟨.head, 1, 0x040, 0, 0, 16, 1⟩
def HEAD_TRUMP_STALE_TILES_VISIBLE : Fld := ⟨.head, 1, 0x044, 0, 0, 0, 16⟩
def HEAD_TRUMP_STALE_TILES_HIDDEN : Fld := ⟨.head, 1, 0x044, 0, 0, 16, 16⟩
def HEAD_FRAME_STALE : Fld := ⟨.head, 1, 0x048, 0, 0, 0, 32⟩
def HEAD_FRAME_HIDDEN : Fld := ⟨.head, 1, 0x04C, 0, 0, 0, 32⟩
def HEAD_AGE_MIN : Fld := ⟨.head, 1, 0x050, 0, 0, 0, 32⟩
def HEAD_AGE_MAX : Fld := ⟨.head, 1, 0x054, 0, 0, 0, 32⟩
def HEAD_PLACE_HELD_SLOTS : Fld := ⟨.head, 1, 0x058, 0, 0, 0, 16⟩
def HEAD_ACTIVE_SLOTS_SLOTS : Fld := ⟨.head, 1, 0x05C, 0, 0, 0, 16⟩

/-! HEAD page 2, R234 of 08_composition.md. -/
def HEAD_MELD_EN : Fld := ⟨.head, 2, 0x800, 4, 0, 0, 1⟩
def HEAD_MELD_INCL_BG : Fld := ⟨.head, 2, 0x800, 4, 0, 1, 1⟩
def HEAD_MELD_FIRST_SLOT : Fld := ⟨.head, 2, 0x800, 4, 0, 2, 4⟩
def HEAD_MELD_LAST_SLOT : Fld := ⟨.head, 2, 0x800, 4, 0, 6, 4⟩
def HEAD_MELD_STS_ANCHORED : Fld := ⟨.head, 2, 0x040, 4, 0, 0, 13⟩
def HEAD_MELD_STS_REMELDED : Fld := ⟨.head, 2, 0x040, 4, 0, 16, 13⟩
def HEAD_MELD_REMELDS : Fld := ⟨.head, 2, 0x050, 4, 0, 0, 32⟩
def HEAD_MELD_POISON : Fld := ⟨.head, 2, 0x060, 0, 0, 0, 32⟩
def HEAD_SUPPRESSED : Fld := ⟨.head, 2, 0x064, 0, 0, 0, 32⟩
def HEAD_FETCHED : Fld := ⟨.head, 2, 0x068, 0, 0, 0, 32⟩
def HEAD_MELD_SLABS : Fld := ⟨.head, 2, 0x06C, 0, 0, 0, 32⟩
def HEAD_MELD_CLR_CLEAR : Fld := ⟨.head, 2, 0x070, 0, 0, 0, 1⟩

/-! TIME page 0, R262 of 09_scanout.md. -/
def TIME_SRC_HOUSE_REF : Fld := ⟨.time, 0, 0x800, 0, 0, 0, 2⟩
def TIME_HOLDOFF_HOLDOFF_MS : Fld := ⟨.time, 0, 0x804, 0, 0, 0, 12⟩
def TIME_SET_SEC_LO : Fld := ⟨.time, 0, 0x808, 0, 0, 0, 32⟩
def TIME_SET_SEC_HI : Fld := ⟨.time, 0, 0x80C, 0, 0, 0, 32⟩
def TIME_SET_CTL_SET_EN : Fld := ⟨.time, 0, 0x810, 0, 0, 0, 1⟩
def TIME_STS_LOCKED : Fld := ⟨.time, 0, 0x040, 0, 0, 0, 1⟩
def TIME_STS_HOLDOVER : Fld := ⟨.time, 0, 0x040, 0, 0, 1, 1⟩
def TIME_STS_HOLDOFF : Fld := ⟨.time, 0, 0x040, 0, 0, 2, 1⟩
def TIME_STS_CARRY : Fld := ⟨.time, 0, 0x040, 0, 0, 3, 1⟩
def TIME_STS_XO_OK : Fld := ⟨.time, 0, 0x040, 0, 0, 4, 1⟩
def TIME_NOW_LO : Fld := ⟨.time, 0, 0x044, 0, 0, 0, 32⟩
def TIME_NOW_HI : Fld := ⟨.time, 0, 0x048, 0, 0, 0, 32⟩
def TIME_OFFSET : Fld := ⟨.time, 0, 0x04C, 0, 0, 0, 32⟩
def TIME_XO_PPB : Fld := ⟨.time, 0, 0x050, 0, 0, 0, 32⟩
def TIME_STEP_LAST_LO : Fld := ⟨.time, 0, 0x054, 0, 0, 0, 32⟩
def TIME_STEP_LAST_HI : Fld := ⟨.time, 0, 0x058, 0, 0, 0, 32⟩
def TIME_STEP_COUNT : Fld := ⟨.time, 0, 0x05C, 0, 0, 0, 32⟩
def TIME_GLITCH_COUNT : Fld := ⟨.time, 0, 0x060, 0, 0, 0, 32⟩
def TIME_CARRY_NS : Fld := ⟨.time, 0, 0x064, 0, 0, 0, 32⟩
def TIME_HOLDOVER_S : Fld := ⟨.time, 0, 0x068, 0, 0, 0, 32⟩
def TIME_CNT_CLR_CLEAR : Fld := ⟨.time, 0, 0x06C, 0, 0, 0, 1⟩

/-! TIME page 1, R263 of 09_scanout.md. -/
def TIME_REF_IN_CTL_EN : Fld := ⟨.time, 1, 0x800, 0, 0, 0, 1⟩
def TIME_REF_IN_CTL_TYPE : Fld := ⟨.time, 1, 0x800, 0, 0, 1, 2⟩
def TIME_REF_RATE_NUM : Fld := ⟨.time, 1, 0x804, 0, 0, 0, 32⟩
def TIME_REF_RATE_DEN : Fld := ⟨.time, 1, 0x808, 0, 0, 0, 32⟩
def TIME_REF_STS_PRESENT : Fld := ⟨.time, 1, 0x040, 0, 0, 0, 1⟩
def TIME_REF_STS_LOS : Fld := ⟨.time, 1, 0x040, 0, 0, 1, 1⟩
def TIME_REF_STS_MISMATCH : Fld := ⟨.time, 1, 0x040, 0, 0, 2, 1⟩
def TIME_REF_STS_TYPE_DET : Fld := ⟨.time, 1, 0x040, 0, 0, 3, 2⟩
def TIME_REF_STS_PPS_PRESENT : Fld := ⟨.time, 1, 0x040, 0, 0, 5, 1⟩
def TIME_REF_STS_CLK10M_PRESENT : Fld := ⟨.time, 1, 0x040, 0, 0, 6, 1⟩
def TIME_REF_STS_HOLDOFF : Fld := ⟨.time, 1, 0x040, 0, 0, 7, 1⟩
def TIME_REF_PERIOD : Fld := ⟨.time, 1, 0x044, 0, 0, 0, 32⟩
def TIME_REF_EDGE_LO : Fld := ⟨.time, 1, 0x048, 0, 0, 0, 32⟩
def TIME_REF_EDGE_HI : Fld := ⟨.time, 1, 0x04C, 0, 0, 0, 32⟩
def TIME_REF_MISMATCHES : Fld := ⟨.time, 1, 0x050, 0, 0, 0, 32⟩
def TIME1_CNT_CLR_CLEAR : Fld := ⟨.time, 1, 0x054, 0, 0, 0, 1⟩

/-! HEAD page 0, R264 of 09_scanout.md. -/
def HEAD_H_TIMING_HACTIVE : Fld := ⟨.head, 0, 0x800, 0, 0, 0, 16⟩
def HEAD_H_TIMING_HTOTAL : Fld := ⟨.head, 0, 0x800, 0, 0, 16, 16⟩
def HEAD_V_TIMING_VACTIVE : Fld := ⟨.head, 0, 0x804, 0, 0, 0, 16⟩
def HEAD_V_TIMING_VTOTAL : Fld := ⟨.head, 0, 0x804, 0, 0, 16, 16⟩
def HEAD_HSYNC_HS_START : Fld := ⟨.head, 0, 0x808, 0, 0, 0, 16⟩
def HEAD_HSYNC_HS_END : Fld := ⟨.head, 0, 0x808, 0, 0, 16, 14⟩
def HEAD_HSYNC_HS_POL : Fld := ⟨.head, 0, 0x808, 0, 0, 31, 1⟩
def HEAD_VSYNC_VS_START : Fld := ⟨.head, 0, 0x80C, 0, 0, 0, 16⟩
def HEAD_VSYNC_VS_END : Fld := ⟨.head, 0, 0x80C, 0, 0, 16, 14⟩
def HEAD_VSYNC_VS_POL : Fld := ⟨.head, 0, 0x80C, 0, 0, 31, 1⟩
def HEAD_RATE_NUM : Fld := ⟨.head, 0, 0x810, 0, 0, 0, 32⟩
def HEAD_RATE_DEN : Fld := ⟨.head, 0, 0x814, 0, 0, 0, 32⟩
def HEAD_PHASE_LO : Fld := ⟨.head, 0, 0x818, 0, 0, 0, 32⟩
def HEAD_PHASE_HI : Fld := ⟨.head, 0, 0x81C, 0, 0, 0, 32⟩
def HEAD_REF_CTL_REF_MODE : Fld := ⟨.head, 0, 0x820, 0, 0, 0, 2⟩
def HEAD_REF_CTL_POLICY : Fld := ⟨.head, 0, 0x820, 0, 0, 2, 1⟩
def HEAD_REF_CTL_REF_MULT : Fld := ⟨.head, 0, 0x820, 0, 0, 3, 3⟩
def HEAD_SLEW_CTL_SLEW_PPM : Fld := ⟨.head, 0, 0x824, 0, 0, 0, 8⟩
def HEAD_SLEW_CTL_SLEW_WINDOW_US : Fld := ⟨.head, 0, 0x824, 0, 0, 16, 16⟩
def HEAD_PREFETCH_PREFETCH_LINES : Fld := ⟨.head, 0, 0x828, 0, 0, 0, 7⟩
def HEAD_TIMING_STS_REF_STATE : Fld := ⟨.head, 0, 0x040, 0, 0, 0, 3⟩
def HEAD_TIMING_STS_JUMP_PENDING : Fld := ⟨.head, 0, 0x040, 0, 0, 3, 1⟩
def HEAD_TIMING_STS_LINE : Fld := ⟨.head, 0, 0x040, 0, 0, 16, 16⟩
def HEAD_FRAME_NUM : Fld := ⟨.head, 0, 0x044, 0, 0, 0, 32⟩
def HEAD_PHASE_ERR : Fld := ⟨.head, 0, 0x048, 0, 0, 0, 32⟩
def HEAD_FREQ_OFF : Fld := ⟨.head, 0, 0x04C, 0, 0, 0, 32⟩
def HEAD_LATCH_TIME_LO : Fld := ⟨.head, 0, 0x050, 0, 0, 0, 32⟩
def HEAD_LATCH_TIME_HI : Fld := ⟨.head, 0, 0x054, 0, 0, 0, 32⟩
def HEAD_JUMPS : Fld := ⟨.head, 0, 0x058, 0, 0, 0, 32⟩
def HEAD_HOLDOVERS : Fld := ⟨.head, 0, 0x060, 0, 0, 0, 32⟩
def HEAD_JUMP_LINES : Fld := ⟨.head, 0, 0x05C, 0, 0, 0, 32⟩
def HEAD_TIMING_CLR_CLEAR : Fld := ⟨.head, 0, 0x064, 0, 0, 0, 1⟩

/-! HEAD page 3, R265 of 09_scanout.md. -/
def HEAD_UNDERRUN_RG_RED : Fld := ⟨.head, 3, 0x800, 0, 0, 0, 12⟩
def HEAD_UNDERRUN_RG_GREEN : Fld := ⟨.head, 3, 0x800, 0, 0, 16, 12⟩
def HEAD_UNDERRUN_B_BLUE : Fld := ⟨.head, 3, 0x804, 0, 0, 0, 12⟩
def HEAD_OBUF_WM_LOW_WM : Fld := ⟨.head, 3, 0x808, 0, 0, 0, 8⟩
def HEAD_OBUF_WM_CRIT_WM : Fld := ⟨.head, 3, 0x808, 0, 0, 8, 8⟩
def HEAD_DSC_CTL_DSC_EN : Fld := ⟨.head, 3, 0x80C, 0, 0, 0, 1⟩
def HEAD_DSC_CTL_BPP_X16 : Fld := ⟨.head, 3, 0x80C, 0, 0, 1, 10⟩
def HEAD_DSC_CTL_ENGINE : Fld := ⟨.head, 3, 0x80C, 0, 0, 11, 6⟩
def HEAD_DSC_SLICE_SLICE_W : Fld := ⟨.head, 3, 0x810, 0, 0, 0, 16⟩
def HEAD_DSC_SLICE_SLICE_H : Fld := ⟨.head, 3, 0x810, 0, 0, 16, 16⟩
def HEAD_OBUF_STS_FILL : Fld := ⟨.head, 3, 0x040, 0, 0, 0, 8⟩
def HEAD_OBUF_STS_MIN_FILL : Fld := ⟨.head, 3, 0x040, 0, 0, 8, 8⟩
def HEAD_OBUF_STS_LOW : Fld := ⟨.head, 3, 0x040, 0, 0, 16, 1⟩
def HEAD_OBUF_STS_CRIT : Fld := ⟨.head, 3, 0x040, 0, 0, 17, 1⟩
def HEAD_OBUF_STS_CAP : Fld := ⟨.head, 3, 0x040, 0, 0, 24, 8⟩
def HEAD_UNDERRUN_PIX : Fld := ⟨.head, 3, 0x044, 0, 0, 0, 32⟩
def HEAD_UNDERRUN_LINES : Fld := ⟨.head, 3, 0x048, 0, 0, 0, 32⟩
def HEAD_UNDERRUN_FRAMES : Fld := ⟨.head, 3, 0x04C, 0, 0, 0, 32⟩
def HEAD_CLONE_MASK : Fld := ⟨.head, 3, 0x050, 4, 0, 0, 32⟩
def HEAD_SEND_MASK_LO : Fld := ⟨.head, 3, 0x05C, 0, 0, 0, 32⟩
def HEAD_SEND_MASK_HI : Fld := ⟨.head, 3, 0x060, 0, 0, 0, 32⟩
def HEAD_DSC_STS_PPS_VALID : Fld := ⟨.head, 3, 0x064, 0, 0, 0, 1⟩
def HEAD_OBUF_CLR_CLEAR : Fld := ⟨.head, 3, 0x068, 0, 0, 0, 1⟩

/-! OPORT page 0, R266 of 09_scanout.md. -/
def OPORT_CFG_PROTOCOL : Fld := ⟨.oport, 0, 0x800, 0, 0, 0, 4⟩
def OPORT_CFG_FIRST_LANE : Fld := ⟨.oport, 0, 0x800, 0, 0, 4, 7⟩
def OPORT_CFG_LANE_COUNT : Fld := ⟨.oport, 0, 0x800, 0, 0, 11, 3⟩
def OPORT_CFG_HEAD : Fld := ⟨.oport, 0, 0x800, 0, 0, 14, 6⟩
def OPORT_CFG_FENCE_ACTION : Fld := ⟨.oport, 0, 0x800, 0, 0, 20, 1⟩
def OPORT_CFG_DSC_USE : Fld := ⟨.oport, 0, 0x800, 0, 0, 21, 1⟩
def OPORT_CFG_SBAND : Fld := ⟨.oport, 0, 0x800, 0, 0, 22, 6⟩
def OPORT_CFG_SBAND_EN : Fld := ⟨.oport, 0, 0x800, 0, 0, 28, 1⟩
def OPORT_LINK_RATE : Fld := ⟨.oport, 0, 0x804, 0, 0, 0, 3⟩
def OPORT_LINK_FEC : Fld := ⟨.oport, 0, 0x804, 0, 0, 3, 1⟩
def OPORT_LINK_PSF : Fld := ⟨.oport, 0, 0x804, 0, 0, 4, 1⟩
def OPORT_FORMAT_SAMPLING : Fld := ⟨.oport, 0, 0x808, 0, 0, 0, 2⟩
def OPORT_FORMAT_DEPTH : Fld := ⟨.oport, 0, 0x808, 0, 0, 2, 2⟩
def OPORT_FORMAT_MATRIX_EN : Fld := ⟨.oport, 0, 0x808, 0, 0, 4, 1⟩
def OPORT_OMAT_0_COEF_LO : Fld := ⟨.oport, 0, 0x80C, 0, 0, 0, 16⟩
def OPORT_OMAT_0_COEF_HI : Fld := ⟨.oport, 0, 0x80C, 0, 0, 16, 16⟩
def OPORT_OMAT_1_COEF_LO : Fld := ⟨.oport, 0, 0x810, 0, 0, 0, 16⟩
def OPORT_OMAT_1_COEF_HI : Fld := ⟨.oport, 0, 0x810, 0, 0, 16, 16⟩
def OPORT_OMAT_2_COEF_LO : Fld := ⟨.oport, 0, 0x814, 0, 0, 0, 16⟩
def OPORT_OMAT_2_COEF_HI : Fld := ⟨.oport, 0, 0x814, 0, 0, 16, 16⟩
def OPORT_OMAT_3_COEF_LO : Fld := ⟨.oport, 0, 0x818, 0, 0, 0, 16⟩
def OPORT_OMAT_3_COEF_HI : Fld := ⟨.oport, 0, 0x818, 0, 0, 16, 16⟩
def OPORT_OMAT_4_COEF_LO : Fld := ⟨.oport, 0, 0x81C, 0, 0, 0, 16⟩
def OPORT_OMAT_OFF_PRE : Fld := ⟨.oport, 0, 0x820, 4, 0, 0, 13⟩
def OPORT_OMAT_OFF_POST : Fld := ⟨.oport, 0, 0x820, 4, 0, 16, 13⟩
def OPORT_SAFE_RG_RED : Fld := ⟨.oport, 0, 0x82C, 0, 0, 0, 12⟩
def OPORT_SAFE_RG_GREEN : Fld := ⟨.oport, 0, 0x82C, 0, 0, 16, 12⟩
def OPORT_SAFE_B_BLUE : Fld := ⟨.oport, 0, 0x830, 0, 0, 0, 12⟩
def OPORT_PORT_STS_LINK_UP : Fld := ⟨.oport, 0, 0x040, 0, 0, 0, 1⟩
def OPORT_PORT_STS_SINK : Fld := ⟨.oport, 0, 0x040, 0, 0, 1, 1⟩
def OPORT_PORT_STS_SAFE : Fld := ⟨.oport, 0, 0x040, 0, 0, 2, 1⟩
def OPORT_PORT_STS_IDLE : Fld := ⟨.oport, 0, 0x040, 0, 0, 3, 1⟩
def OPORT_PORT_STS_TRAINING : Fld := ⟨.oport, 0, 0x040, 0, 0, 4, 1⟩
def OPORT_LINK_DOWN : Fld := ⟨.oport, 0, 0x044, 0, 0, 0, 32⟩
def OPORT_SAFE_EVENTS : Fld := ⟨.oport, 0, 0x048, 0, 0, 0, 32⟩
def OPORT_SB_CMD_GO : Fld := ⟨.oport, 0, 0x04C, 0, 0, 0, 1⟩
def OPORT_SB_CMD_KIND : Fld := ⟨.oport, 0, 0x04C, 0, 0, 1, 1⟩
def OPORT_SB_CMD_READ : Fld := ⟨.oport, 0, 0x04C, 0, 0, 2, 1⟩
def OPORT_SB_CMD_LEN : Fld := ⟨.oport, 0, 0x04C, 0, 0, 3, 4⟩
def OPORT_SB_CMD_ADDR : Fld := ⟨.oport, 0, 0x04C, 0, 0, 8, 20⟩
def OPORT_SB_DATA : Fld := ⟨.oport, 0, 0x050, 4, 0, 0, 32⟩
def OPORT_SB_STS_BUSY : Fld := ⟨.oport, 0, 0x060, 0, 0, 0, 1⟩
def OPORT_SB_STS_RESULT : Fld := ⟨.oport, 0, 0x060, 0, 0, 1, 2⟩
def OPORT_CNT_CLR_CLEAR : Fld := ⟨.oport, 0, 0x064, 0, 0, 0, 1⟩

/-! SENDV page 0, R267 of 09_scanout.md. -/
def SENDV_CFG_EN : Fld := ⟨.sendV, 0, 0x800, 64, 0, 0, 1⟩
def SENDV_CFG_HEAD : Fld := ⟨.sendV, 0, 0x800, 64, 0, 1, 6⟩
def SENDV_CFG_DUAL_PATH : Fld := ⟨.sendV, 0, 0x800, 64, 0, 7, 1⟩
def SENDV_CFG_NETIF_P1 : Fld := ⟨.sendV, 0, 0x800, 64, 0, 8, 4⟩
def SENDV_CFG_NETIF_P2 : Fld := ⟨.sendV, 0, 0x800, 64, 0, 12, 4⟩
def SENDV_CFG_SPACE : Fld := ⟨.sendV, 0, 0x800, 64, 0, 16, 2⟩
def SENDV_CFG_DEPTH : Fld := ⟨.sendV, 0, 0x800, 64, 0, 18, 2⟩
def SENDV_CFG_BPM : Fld := ⟨.sendV, 0, 0x800, 64, 0, 20, 1⟩
def SENDV_CFG_TYPE : Fld := ⟨.sendV, 0, 0x800, 64, 0, 21, 1⟩
def SENDV_DST_P1 : Fld := ⟨.sendV, 0, 0x804, 4, 64, 0, 32⟩
def SENDV_DST_P2 : Fld := ⟨.sendV, 0, 0x814, 4, 64, 0, 32⟩
def SENDV_UDP_PORTS_PORT_P1 : Fld := ⟨.sendV, 0, 0x824, 64, 0, 0, 16⟩
def SENDV_UDP_PORTS_PORT_P2 : Fld := ⟨.sendV, 0, 0x824, 64, 0, 16, 16⟩
def SENDV_SSRC : Fld := ⟨.sendV, 0, 0x828, 64, 0, 0, 32⟩
def SENDV_PT_TYPE : Fld := ⟨.sendV, 0, 0x82C, 64, 0, 0, 7⟩
def SENDV_PT_DSCP : Fld := ⟨.sendV, 0, 0x82C, 64, 0, 8, 6⟩
def SENDV_STS_SENDING : Fld := ⟨.sendV, 0, 0x040, 48, 0, 0, 1⟩
def SENDV_STS_P1_UP : Fld := ⟨.sendV, 0, 0x040, 48, 0, 1, 1⟩
def SENDV_STS_P2_UP : Fld := ⟨.sendV, 0, 0x040, 48, 0, 2, 1⟩
def SENDV_PACKETS : Fld := ⟨.sendV, 0, 0x044, 48, 0, 0, 32⟩
def SENDV_FRAMES : Fld := ⟨.sendV, 0, 0x048, 48, 0, 0, 32⟩
def SENDV_LATE : Fld := ⟨.sendV, 0, 0x04C, 48, 0, 0, 32⟩

/-! DEAL page 0, R293 of 10_hands_and_deals.md. -/
def DEAL_CTL_SEAL : Fld := ⟨.deal, 0, 0x040, 0, 0, 0, 1⟩
def DEAL_CTL_WITHDRAW : Fld := ⟨.deal, 0, 0x040, 0, 0, 1, 1⟩
def DEAL_CTL_REVERT : Fld := ⟨.deal, 0, 0x040, 0, 0, 2, 1⟩
def DEAL_SCOPE_SCOPE : Fld := ⟨.deal, 0, 0x044, 0, 0, 0, 2⟩
def DEAL_EPOCH : Fld := ⟨.deal, 0, 0x048, 0, 0, 0, 32⟩
def DEAL_APPLY_LO : Fld := ⟨.deal, 0, 0x04C, 0, 0, 0, 32⟩
def DEAL_APPLY_HI : Fld := ⟨.deal, 0, 0x050, 0, 0, 0, 32⟩
def DEAL_DECIDE_LO : Fld := ⟨.deal, 0, 0x054, 0, 0, 0, 32⟩
def DEAL_DECIDE_HI : Fld := ⟨.deal, 0, 0x058, 0, 0, 0, 32⟩
def DEAL_CFG_HAND_GUARD : Fld := ⟨.deal, 0, 0x05C, 0, 0, 0, 4⟩
def DEAL_CFG_LATE_LIMIT : Fld := ⟨.deal, 0, 0x05C, 0, 0, 8, 4⟩
def DEAL_STS_OUTCOME : Fld := ⟨.deal, 0, 0x060, 0, 0, 0, 3⟩
def DEAL_STS_LATE : Fld := ⟨.deal, 0, 0x060, 0, 0, 3, 1⟩
def DEAL_STS_WITHDRAWN : Fld := ⟨.deal, 0, 0x060, 0, 0, 4, 1⟩
def DEAL_STS_SEAL_REFUSED : Fld := ⟨.deal, 0, 0x060, 0, 0, 5, 1⟩
def DEAL_STS_CHECKING : Fld := ⟨.deal, 0, 0x060, 0, 0, 6, 1⟩
def DEAL_STS_REVERTING : Fld := ⟨.deal, 0, 0x060, 0, 0, 7, 1⟩
def DEAL_STS_DECISION : Fld := ⟨.deal, 0, 0x060, 0, 0, 8, 2⟩
def DEAL_STS_FOLD_CAUSE : Fld := ⟨.deal, 0, 0x060, 0, 0, 12, 4⟩
def DEAL_REJECT_CAUSE : Fld := ⟨.deal, 0, 0x064, 0, 0, 0, 8⟩
def DEAL_REJECT_ADDR_OFFSET : Fld := ⟨.deal, 0, 0x068, 0, 0, 0, 24⟩
def DEAL_EPOCH_ACTIVE : Fld := ⟨.deal, 0, 0x06C, 0, 0, 0, 32⟩
def DEAL_EPOCH_SEALED : Fld := ⟨.deal, 0, 0x070, 0, 0, 0, 32⟩
def DEAL_SEAL_TIME_LO : Fld := ⟨.deal, 0, 0x074, 0, 0, 0, 32⟩
def DEAL_SEAL_TIME_HI : Fld := ⟨.deal, 0, 0x078, 0, 0, 0, 32⟩
def DEAL_APPLY_EFF_LO : Fld := ⟨.deal, 0, 0x07C, 0, 0, 0, 32⟩
def DEAL_APPLY_EFF_HI : Fld := ⟨.deal, 0, 0x080, 0, 0, 0, 32⟩
def DEAL_DONE_TIME_LO : Fld := ⟨.deal, 0, 0x084, 0, 0, 0, 32⟩
def DEAL_DONE_TIME_HI : Fld := ⟨.deal, 0, 0x088, 0, 0, 0, 32⟩
def DEAL_PENDING_HEADS_LO : Fld := ⟨.deal, 0, 0x08C, 0, 0, 0, 32⟩
def DEAL_PENDING_HEADS_HI : Fld := ⟨.deal, 0, 0x090, 0, 0, 0, 32⟩
def DEAL_HELD_HEADS_LO : Fld := ⟨.deal, 0, 0x094, 0, 0, 0, 32⟩
def DEAL_HELD_HEADS_HI : Fld := ⟨.deal, 0, 0x098, 0, 0, 0, 32⟩
def DEAL_PENDING_CTX : Fld := ⟨.deal, 0, 0x0A0, 4, 0, 0, 32⟩
def DEAL_SEALS : Fld := ⟨.deal, 0, 0x0C0, 0, 0, 0, 32⟩
def DEAL_REJECTS : Fld := ⟨.deal, 0, 0x0C4, 0, 0, 0, 32⟩
def DEAL_HELDS : Fld := ⟨.deal, 0, 0x0C8, 0, 0, 0, 32⟩
def DEAL_FOLDS : Fld := ⟨.deal, 0, 0x0CC, 0, 0, 0, 32⟩
def DEAL_MISSES : Fld := ⟨.deal, 0, 0x0D0, 0, 0, 0, 32⟩
def DEAL_LATE_APPLIES : Fld := ⟨.deal, 0, 0x0D4, 0, 0, 0, 32⟩
def DEAL_TOO_LATES : Fld := ⟨.deal, 0, 0x0D8, 0, 0, 0, 32⟩
def DEAL_CNT_CLR_CLEAR : Fld := ⟨.deal, 0, 0x0DC, 0, 0, 0, 1⟩

/-! DEAL page 1, R295 of 10_hands_and_deals.md. -/
def DEAL_SEAT_CFG_SEAT : Fld := ⟨.deal, 1, 0x800, 0, 0, 0, 6⟩
def DEAL_SEAT_CFG_TABLE : Fld := ⟨.deal, 1, 0x800, 0, 0, 8, 8⟩
def DEAL_SEAT_CFG_DEALER_ELIGIBLE : Fld := ⟨.deal, 1, 0x800, 0, 0, 16, 1⟩
def DEAL_SEAT_CFG_HOUSE_ELIGIBLE : Fld := ⟨.deal, 1, 0x800, 0, 0, 17, 1⟩
def DEAL_SEAT_CFG_TABLE_EN : Fld := ⟨.deal, 1, 0x800, 0, 0, 18, 1⟩
def DEAL_ROSTER_LO : Fld := ⟨.deal, 1, 0x804, 0, 0, 0, 32⟩
def DEAL_ROSTER_HI : Fld := ⟨.deal, 1, 0x808, 0, 0, 0, 32⟩
def DEAL_DEALER_CFG_WAIT_US : Fld := ⟨.deal, 1, 0x80C, 0, 0, 0, 12⟩
def DEAL_PART_SEATS_LO : Fld := ⟨.deal, 1, 0x040, 0, 0, 0, 32⟩
def DEAL_PART_SEATS_HI : Fld := ⟨.deal, 1, 0x044, 0, 0, 0, 32⟩
def DEAL_PART_TABLES : Fld := ⟨.deal, 1, 0x048, 4, 0, 0, 32⟩
def DEAL_DEALER_STS_DEALER_SEAT : Fld := ⟨.deal, 1, 0x068, 0, 0, 0, 6⟩
def DEAL_DEALER_STS_NO_DEALER : Fld := ⟨.deal, 1, 0x068, 0, 0, 6, 1⟩
def DEAL_DEALER_STS_IS_DEALER : Fld := ⟨.deal, 1, 0x068, 0, 0, 7, 1⟩
def DEAL_DEALER_STS_HOUSE_TABLE : Fld := ⟨.deal, 1, 0x068, 0, 0, 8, 8⟩
def DEAL_DEALER_STS_IS_HOUSE_DEALER : Fld := ⟨.deal, 1, 0x068, 0, 0, 16, 1⟩
def DEAL_DEALER_STS_NO_HOUSE_DEALER : Fld := ⟨.deal, 1, 0x068, 0, 0, 17, 1⟩
def DEAL_LIVE_SEATS_LO : Fld := ⟨.deal, 1, 0x06C, 0, 0, 0, 32⟩
def DEAL_LIVE_SEATS_HI : Fld := ⟨.deal, 1, 0x070, 0, 0, 0, 32⟩
def DEAL_OOH_SEATS_LO : Fld := ⟨.deal, 1, 0x074, 0, 0, 0, 32⟩
def DEAL_OOH_SEATS_HI : Fld := ⟨.deal, 1, 0x078, 0, 0, 0, 32⟩
def DEAL_LIVE_TABLES : Fld := ⟨.deal, 1, 0x07C, 4, 0, 0, 32⟩
def DEAL_DEALS_OPEN_COUNT : Fld := ⟨.deal, 1, 0x09C, 0, 0, 0, 4⟩
def DEAL_BIDS : Fld := ⟨.deal, 1, 0x0A0, 0, 0, 0, 32⟩
def DEAL_DEALS : Fld := ⟨.deal, 1, 0x0A4, 0, 0, 0, 32⟩
def DEAL_FOLDS_DECIDED : Fld := ⟨.deal, 1, 0x0A8, 0, 0, 0, 32⟩
def DEAL_BID_DUP : Fld := ⟨.deal, 1, 0x0AC, 0, 0, 0, 32⟩
def DEAL_DECISION_CONFLICT : Fld := ⟨.deal, 1, 0x0B0, 0, 0, 0, 32⟩
def DEAL_DEALER_CHANGES : Fld := ⟨.deal, 1, 0x0B4, 0, 0, 0, 32⟩
def DEAL1_CNT_CLR_CLEAR : Fld := ⟨.deal, 1, 0x0B8, 0, 0, 0, 1⟩

/-! WITNESS page 0, R318 of 11_witness.md. -/
def WITNESS_WIN_XY_WIN_X : Fld := ⟨.witness, 0, 0x800, 16, 0, 0, 16⟩
def WITNESS_WIN_XY_WIN_Y : Fld := ⟨.witness, 0, 0x800, 16, 0, 16, 16⟩
def WITNESS_WIN_WH_WIN_W : Fld := ⟨.witness, 0, 0x804, 16, 0, 0, 16⟩
def WITNESS_WIN_WH_WIN_H : Fld := ⟨.witness, 0, 0x804, 16, 0, 16, 16⟩
def WITNESS_WIN_CTL_EN : Fld := ⟨.witness, 0, 0x808, 16, 0, 0, 1⟩
def WITNESS_WIN_CTL_MODE : Fld := ⟨.witness, 0, 0x808, 16, 0, 1, 1⟩
def WITNESS_WIN_CTL_ACTION : Fld := ⟨.witness, 0, 0x808, 16, 0, 2, 1⟩
def WITNESS_WIN_CTL_SLOT : Fld := ⟨.witness, 0, 0x808, 16, 0, 4, 4⟩
def WITNESS_WIN_EXPECT : Fld := ⟨.witness, 0, 0x80C, 16, 0, 0, 32⟩
def WITNESS_WIT_CTL_SAFE_AFTER : Fld := ⟨.witness, 0, 0x900, 0, 0, 0, 8⟩
def WITNESS_WIN_CRC : Fld := ⟨.witness, 0, 0x040, 4, 0, 0, 32⟩
def WITNESS_WIN_REF : Fld := ⟨.witness, 0, 0x080, 4, 0, 0, 32⟩
def WITNESS_WIT_STS_MISMATCH : Fld := ⟨.witness, 0, 0x0C0, 0, 0, 0, 16⟩
def WITNESS_WIT_STS_COMPARED : Fld := ⟨.witness, 0, 0x0C0, 0, 0, 16, 16⟩
def WITNESS_WIT_STATE_SAFE : Fld := ⟨.witness, 0, 0x0C4, 0, 0, 0, 1⟩
def WITNESS_WIT_STATE_REL_REFUSED : Fld := ⟨.witness, 0, 0x0C4, 0, 0, 1, 1⟩
def WITNESS_WIT_STATE_RUN : Fld := ⟨.witness, 0, 0x0C4, 0, 0, 8, 8⟩
def WITNESS_WIT_CMD_SAFE_REL : Fld := ⟨.witness, 0, 0x0C8, 0, 0, 0, 1⟩
def WITNESS_SKIP_REASON_REASON : Fld := ⟨.witness, 0, 0x0CC, 0, 0, 0, 4⟩
def WITNESS_SKIP_REASON_WINDOW : Fld := ⟨.witness, 0, 0x0CC, 0, 0, 8, 4⟩
def WITNESS_WIN_MISMATCHES : Fld := ⟨.witness, 0, 0x100, 4, 0, 0, 32⟩
def WITNESS_WIN_SKIPS : Fld := ⟨.witness, 0, 0x140, 4, 0, 0, 32⟩
def WITNESS_RECORDS : Fld := ⟨.witness, 0, 0x180, 0, 0, 0, 32⟩
def WITNESS_CNT_CLR_CLEAR : Fld := ⟨.witness, 0, 0x184, 0, 0, 0, 1⟩

/-! WITCHAIN page 0, R319 of 11_witness.md. -/
def WITCHAIN_WCFG_STREAM_EN : Fld := ⟨.witChain, 0, 0x800, 0, 0, 0, 1⟩
def WITCHAIN_WRING_SLABS_SLABS : Fld := ⟨.witChain, 0, 0x804, 0, 0, 0, 11⟩
def WITCHAIN_STREAM_NET_NETIF : Fld := ⟨.witChain, 0, 0x808, 0, 0, 0, 4⟩
def WITCHAIN_STREAM_NET_UDP_PORT : Fld := ⟨.witChain, 0, 0x808, 0, 0, 16, 16⟩
def WITCHAIN_STREAM_DST : Fld := ⟨.witChain, 0, 0x80C, 4, 0, 0, 32⟩
def WITCHAIN_NEXT_COUNTER_LO : Fld := ⟨.witChain, 0, 0x040, 0, 0, 0, 32⟩
def WITCHAIN_NEXT_COUNTER_HI : Fld := ⟨.witChain, 0, 0x044, 0, 0, 0, 32⟩
def WITCHAIN_HANDED_LO : Fld := ⟨.witChain, 0, 0x048, 0, 0, 0, 32⟩
def WITCHAIN_HANDED_HI : Fld := ⟨.witChain, 0, 0x04C, 0, 0, 0, 32⟩
def WITCHAIN_RING_BASE_LO : Fld := ⟨.witChain, 0, 0x050, 0, 0, 0, 32⟩
def WITCHAIN_RING_BASE_HI : Fld := ⟨.witChain, 0, 0x054, 0, 0, 0, 32⟩
def WITCHAIN_RING_MAP_LO : Fld := ⟨.witChain, 0, 0x058, 0, 0, 0, 32⟩
def WITCHAIN_RING_MAP_HI : Fld := ⟨.witChain, 0, 0x05C, 0, 0, 0, 32⟩
def WITCHAIN_RING_CAP : Fld := ⟨.witChain, 0, 0x060, 0, 0, 0, 32⟩
def WITCHAIN_STS_STALLED : Fld := ⟨.witChain, 0, 0x064, 0, 0, 0, 1⟩
def WITCHAIN_STS_STREAMING : Fld := ⟨.witChain, 0, 0x064, 0, 0, 1, 1⟩
def WITCHAIN_SKIPPED : Fld := ⟨.witChain, 0, 0x068, 0, 0, 0, 32⟩
def WITCHAIN_STREAM_SENT : Fld := ⟨.witChain, 0, 0x06C, 0, 0, 0, 32⟩
def WITCHAIN_STREAM_DROPPED : Fld := ⟨.witChain, 0, 0x070, 0, 0, 0, 32⟩
def WITCHAIN_CNT_CLR_CLEAR : Fld := ⟨.witChain, 0, 0x074, 0, 0, 0, 1⟩

/-! MGMT page 1, R321 of 11_witness.md. -/
def MGMT_WCHAIN_NO_LO : Fld := ⟨.mgmt, 1, 0x300, 0, 0, 0, 32⟩
def MGMT_WCHAIN_NO_HI : Fld := ⟨.mgmt, 1, 0x304, 0, 0, 0, 32⟩
def MGMT_WCHAIN_CNT_LO : Fld := ⟨.mgmt, 1, 0x308, 0, 0, 0, 32⟩
def MGMT_WCHAIN_CNT_HI : Fld := ⟨.mgmt, 1, 0x30C, 0, 0, 0, 32⟩
def MGMT_WCHAIN_STS_ACTIVE : Fld := ⟨.mgmt, 1, 0x310, 0, 0, 0, 1⟩
def MGMT_WCHAIN_STS_DEBUG : Fld := ⟨.mgmt, 1, 0x310, 0, 0, 1, 1⟩
def MGMT_WCHAIN_STS_HALTED : Fld := ⟨.mgmt, 1, 0x310, 0, 0, 2, 1⟩
def MGMT_WSIGN_PERIOD_MS : Fld := ⟨.mgmt, 1, 0x314, 0, 0, 0, 16⟩
def MGMT_WSIG_LAST : Fld := ⟨.mgmt, 1, 0x318, 0, 0, 0, 32⟩
def MGMT_WSIG_SEL : Fld := ⟨.mgmt, 1, 0x31C, 0, 0, 0, 32⟩
def MGMT_WSIG_DATA : Fld := ⟨.mgmt, 1, 0x320, 0, 0, 0, 32⟩
def MGMT_WSIG_STAT_GONE : Fld := ⟨.mgmt, 1, 0x324, 0, 0, 0, 1⟩

/-! AUDIO page 0, R348 of 12_audio.md. -/
def AUDIO_GROUP_CFG_EN : Fld := ⟨.audio, 0, 0x800, 4, 0, 0, 1⟩
def AUDIO_GROUP_CFG_TARGET : Fld := ⟨.audio, 0, 0x800, 4, 0, 1, 10⟩
def AUDIO_GROUP_CFG_REPEAT_LIMIT : Fld := ⟨.audio, 0, 0x800, 4, 0, 11, 8⟩
def AUDIO_DELAY_CTL_AUTO : Fld := ⟨.audio, 0, 0x900, 4, 0, 0, 1⟩
def AUDIO_DELAY_CTL_SLOT : Fld := ⟨.audio, 0, 0x900, 4, 0, 1, 4⟩
def AUDIO_DELAY_CTL_DMAX_MS : Fld := ⟨.audio, 0, 0x900, 4, 0, 5, 11⟩
def AUDIO_DELAY_CTL_TRIM : Fld := ⟨.audio, 0, 0x900, 4, 0, 16, 16⟩
def AUDIO_DELAY_HYST_HYST : Fld := ⟨.audio, 0, 0xA00, 0, 0, 0, 8⟩
def AUDIO_SRAM_USED_BYTES : Fld := ⟨.audio, 0, 0x040, 0, 0, 0, 24⟩
def AUDIO_GROUP_FENCED_LO : Fld := ⟨.audio, 0, 0x044, 0, 0, 0, 32⟩
def AUDIO_GROUP_FENCED_HI : Fld := ⟨.audio, 0, 0x048, 0, 0, 0, 32⟩
def AUDIO_GROUP_REL_GROUP : Fld := ⟨.audio, 0, 0x04C, 0, 0, 0, 6⟩
def AUDIO_GROUP_REL_GO : Fld := ⟨.audio, 0, 0x04C, 0, 0, 8, 1⟩
def AUDIO_GROUP_REL_REFUSED : Fld := ⟨.audio, 0, 0x04C, 0, 0, 9, 1⟩
def AUDIO_DELAY_STS_IN_USE : Fld := ⟨.audio, 0, 0x100, 4, 0, 0, 16⟩
def AUDIO_DELAY_STS_TARGET : Fld := ⟨.audio, 0, 0x100, 4, 0, 16, 16⟩
def AUDIO_DELAY_STEPS : Fld := ⟨.audio, 0, 0x200, 0, 0, 0, 32⟩

/-! AUDIO page 1, R348 of 12_audio.md. -/
def AUDIO_AIN_CFG_EN : Fld := ⟨.audio, 1, 0x800, 4, 0, 0, 1⟩
def AUDIO_AIN_CFG_VPOLICY : Fld := ⟨.audio, 1, 0x800, 4, 0, 1, 1⟩
def AUDIO_AIN_CFG_DIRECT : Fld := ⟨.audio, 1, 0x800, 4, 0, 2, 1⟩
def AUDIO_AIN_CFG_DIRECT_OUT : Fld := ⟨.audio, 1, 0x800, 4, 0, 3, 4⟩
def AUDIO_AIN_CFG_TOL_PPM : Fld := ⟨.audio, 1, 0x800, 4, 0, 8, 12⟩
def AUDIO_AIN_STS_LOCK : Fld := ⟨.audio, 1, 0x040, 48, 0, 0, 1⟩
def AUDIO_AIN_STS_LOS : Fld := ⟨.audio, 1, 0x040, 48, 0, 1, 1⟩
def AUDIO_AIN_STS_RATE_CLASS : Fld := ⟨.audio, 1, 0x040, 48, 0, 2, 3⟩
def AUDIO_AIN_STS_IN_TOL : Fld := ⟨.audio, 1, 0x040, 48, 0, 5, 1⟩
def AUDIO_AIN_STS_PRO : Fld := ⟨.audio, 1, 0x040, 48, 0, 6, 1⟩
def AUDIO_AIN_STS_NONPCM : Fld := ⟨.audio, 1, 0x040, 48, 0, 7, 1⟩
def AUDIO_AIN_STS_CS_DIFF : Fld := ⟨.audio, 1, 0x040, 48, 0, 8, 1⟩
def AUDIO_AIN_RATE : Fld := ⟨.audio, 1, 0x044, 48, 0, 0, 32⟩
def AUDIO_AIN_CS : Fld := ⟨.audio, 1, 0x048, 4, 48, 0, 32⟩
def AUDIO_PARITY_ERR : Fld := ⟨.audio, 1, 0x060, 48, 0, 0, 32⟩
def AUDIO_CRCC_ERR : Fld := ⟨.audio, 1, 0x064, 48, 0, 0, 32⟩
def AUDIO_INVALID : Fld := ⟨.audio, 1, 0x068, 48, 0, 0, 32⟩
def AUDIO_LOCK_LOSS : Fld := ⟨.audio, 1, 0x06C, 48, 0, 0, 32⟩
def AUDIO_AIN_CLR_CLEAR : Fld := ⟨.audio, 1, 0x3F0, 0, 0, 0, 16⟩

/-! AUDIO page 2, R348 of 12_audio.md. -/
def AUDIO_AOUT_CFG_EN : Fld := ⟨.audio, 2, 0x800, 4, 0, 0, 1⟩
def AUDIO_AOUT_CFG_BASE : Fld := ⟨.audio, 2, 0x800, 4, 0, 1, 9⟩
def AUDIO_AOUT_CFG_RATE : Fld := ⟨.audio, 2, 0x800, 4, 0, 10, 2⟩
def AUDIO_AOUT_CFG_CS_SRC : Fld := ⟨.audio, 2, 0x800, 4, 0, 12, 1⟩
def AUDIO_AOUT_CFG_CS_IN : Fld := ⟨.audio, 2, 0x800, 4, 0, 13, 4⟩
def AUDIO_AOUT_CFG_AUTO_CRCC : Fld := ⟨.audio, 2, 0x800, 4, 0, 17, 1⟩
def AUDIO_AOUT_CFG_MARK_FILL : Fld := ⟨.audio, 2, 0x800, 4, 0, 18, 1⟩
def AUDIO_AOUT_CFG_DELAY_HEAD : Fld := ⟨.audio, 2, 0x800, 4, 0, 19, 6⟩
def AUDIO_AOUT_CFG_DELAY_EN : Fld := ⟨.audio, 2, 0x800, 4, 0, 25, 1⟩
def AUDIO_AOUT_CS : Fld := ⟨.audio, 2, 0x840, 4, 24, 0, 32⟩
def AUDIO_AOUT_STS_ACTIVE : Fld := ⟨.audio, 2, 0x040, 4, 0, 0, 1⟩
def AUDIO_AOUT_STS_DIRECT : Fld := ⟨.audio, 2, 0x040, 4, 0, 1, 1⟩
def AUDIO_AOUT_FILLED : Fld := ⟨.audio, 2, 0x080, 4, 0, 0, 32⟩

/-! AUDIO page 3, R348 of 12_audio.md. -/
def AUDIO_ROUTE_SRC_A : Fld := ⟨.audio, 3, 0x800, 4, 0, 0, 10⟩
def AUDIO_ROUTE_SRC_B : Fld := ⟨.audio, 3, 0x800, 4, 0, 16, 10⟩
def AUDIO_INSLOT_QUERY_SLOT : Fld := ⟨.audio, 3, 0x040, 0, 0, 0, 9⟩
def AUDIO_INSLOT_RESULT_STREAM : Fld := ⟨.audio, 3, 0x044, 0, 0, 0, 7⟩
def AUDIO_INSLOT_RESULT_CHANNEL : Fld := ⟨.audio, 3, 0x044, 0, 0, 7, 6⟩
def AUDIO_INSLOT_RESULT_USED : Fld := ⟨.audio, 3, 0x044, 0, 0, 13, 1⟩
def AUDIO_INSLOT_RESULT_PHASE : Fld := ⟨.audio, 3, 0x044, 0, 0, 14, 2⟩

/-! AUDIO page 4, R348 of 12_audio.md. -/
def AUDIO_RXS_CFG_EN : Fld := ⟨.audio, 4, 0x800, 4, 0, 0, 1⟩
def AUDIO_RXS_CFG_CONTEXT : Fld := ⟨.audio, 4, 0x800, 4, 0, 1, 8⟩
def AUDIO_RXS_CFG_GROUP : Fld := ⟨.audio, 4, 0x800, 4, 0, 9, 6⟩
def AUDIO_RXS_CFG_RATE : Fld := ⟨.audio, 4, 0x800, 4, 0, 15, 2⟩
def AUDIO_RXS_CFG_LEGACY_TDM : Fld := ⟨.audio, 4, 0x800, 4, 0, 17, 1⟩
def AUDIO_RXS_SLOT_BASE : Fld := ⟨.audio, 4, 0xA00, 4, 0, 0, 9⟩
def AUDIO_RXS_STS_STATE : Fld := ⟨.audio, 4, 0x040, 4, 0, 0, 3⟩
def AUDIO_RXS_STS_RATE_MISMATCH : Fld := ⟨.audio, 4, 0x040, 4, 0, 3, 1⟩
def AUDIO_RXS_STS_NONPCM : Fld := ⟨.audio, 4, 0x040, 4, 0, 4, 1⟩
def AUDIO_RXS_STS_CHANNELS_IN : Fld := ⟨.audio, 4, 0x040, 4, 0, 8, 8⟩
def AUDIO_RXS_STS_TDM_ROT : Fld := ⟨.audio, 4, 0x040, 4, 0, 16, 8⟩
def AUDIO_STAT_SEL_STREAM : Fld := ⟨.audio, 4, 0x300, 0, 0, 0, 7⟩
def AUDIO_FILL : Fld := ⟨.audio, 4, 0x304, 0, 0, 0, 32⟩
def AUDIO_WRITTEN : Fld := ⟨.audio, 4, 0x308, 0, 0, 0, 32⟩
def AUDIO_READ : Fld := ⟨.audio, 4, 0x30C, 0, 0, 0, 32⟩
def AUDIO_UNDERRUNS : Fld := ⟨.audio, 4, 0x310, 0, 0, 0, 32⟩
def AUDIO_OVERRUNS : Fld := ⟨.audio, 4, 0x314, 0, 0, 0, 32⟩
def AUDIO_REPEATED : Fld := ⟨.audio, 4, 0x318, 0, 0, 0, 32⟩
def AUDIO_MUTED : Fld := ⟨.audio, 4, 0x31C, 0, 0, 0, 32⟩
def AUDIO_DROPPED : Fld := ⟨.audio, 4, 0x320, 0, 0, 0, 32⟩
def AUDIO_RXS_RATE : Fld := ⟨.audio, 4, 0x324, 0, 0, 0, 32⟩
def AUDIO_RXS_CMD_CLEAR : Fld := ⟨.audio, 4, 0x328, 0, 0, 0, 1⟩
def AUDIO_RXS_CMD_RESTART : Fld := ⟨.audio, 4, 0x328, 0, 0, 1, 1⟩
def AUDIO_RXS_EVENT : Fld := ⟨.audio, 4, 0x340, 4, 0, 0, 32⟩

/-! AUDIO page 5, R348 of 12_audio.md. -/
def AUDIO_RXS_MASK_LO : Fld := ⟨.audio, 5, 0x800, 8, 0, 0, 32⟩
def AUDIO_RXS_MASK_HI : Fld := ⟨.audio, 5, 0x804, 8, 0, 0, 32⟩

/-! AUDIO page 6, R348 of 12_audio.md. -/
def AUDIO_TXS_CFG_EN : Fld := ⟨.audio, 6, 0x800, 4, 0, 0, 1⟩
def AUDIO_TXS_CFG_KIND : Fld := ⟨.audio, 6, 0x800, 4, 0, 1, 2⟩
def AUDIO_TXS_CFG_TARGET : Fld := ⟨.audio, 6, 0x800, 4, 0, 3, 7⟩
def AUDIO_TXS_CFG_CHANNELS : Fld := ⟨.audio, 6, 0x800, 4, 0, 10, 6⟩
def AUDIO_TXS_CFG_RATE : Fld := ⟨.audio, 6, 0x800, 4, 0, 16, 2⟩
def AUDIO_TXS_CFG_DELAY_HEAD : Fld := ⟨.audio, 6, 0x800, 4, 0, 18, 6⟩
def AUDIO_TXS_CFG_DELAY_EN : Fld := ⟨.audio, 6, 0x800, 4, 0, 24, 1⟩
def AUDIO_TXS_SLOT_BASE : Fld := ⟨.audio, 6, 0xA00, 4, 0, 0, 9⟩
def AUDIO_TXS_STS_ACTIVE : Fld := ⟨.audio, 6, 0x040, 4, 0, 0, 1⟩
def AUDIO_TXS_STS_MUTED : Fld := ⟨.audio, 6, 0x040, 4, 0, 1, 1⟩

/-! AUDIO page 7, R348 of 12_audio.md. -/
def AUDIO_ABASE_P1 : Fld := ⟨.audio, 7, 0x800, 4, 0, 0, 32⟩
def AUDIO_ABASE_P2 : Fld := ⟨.audio, 7, 0x810, 4, 0, 0, 32⟩
def AUDIO_ASEND_CFG_NETIF_P1 : Fld := ⟨.audio, 7, 0x820, 12, 0, 0, 4⟩
def AUDIO_ASEND_CFG_NETIF_P2 : Fld := ⟨.audio, 7, 0x820, 12, 0, 4, 4⟩
def AUDIO_ASEND_CFG_DUAL_PATH : Fld := ⟨.audio, 7, 0x820, 12, 0, 8, 1⟩
def AUDIO_ASEND_CFG_PTIME : Fld := ⟨.audio, 7, 0x820, 12, 0, 9, 1⟩
def AUDIO_ASEND_CFG_PT : Fld := ⟨.audio, 7, 0x820, 12, 0, 10, 7⟩
def AUDIO_ASEND_CFG_DSCP : Fld := ⟨.audio, 7, 0x820, 12, 0, 17, 6⟩
def AUDIO_ASEND_ADDR : Fld := ⟨.audio, 7, 0x824, 12, 0, 0, 32⟩
def AUDIO_ASEND_PORTS_PORT_P1 : Fld := ⟨.audio, 7, 0x828, 12, 0, 0, 16⟩
def AUDIO_ASEND_PORTS_PORT_P2 : Fld := ⟨.audio, 7, 0x828, 12, 0, 16, 16⟩
def AUDIO_ASEND_SSRC_BASE : Fld := ⟨.audio, 7, 0xB20, 0, 0, 0, 32⟩
def AUDIO_ASEND_PKTS : Fld := ⟨.audio, 7, 0x040, 4, 0, 0, 32⟩

/-! NPORT page 0, R375 of 13_tatre_transport.md. -/
def NPORT_PORT_CFG_MODE : Fld := ⟨.nport, 0, 0x800, 0, 0, 0, 3⟩
def NPORT_SP_CFG_EN : Fld := ⟨.nport, 0, 0x840, 64, 0, 0, 1⟩
def NPORT_SP_CFG_TATRE_RX : Fld := ⟨.nport, 0, 0x840, 64, 0, 1, 1⟩
def NPORT_SP_CFG_CTRL_EN : Fld := ⟨.nport, 0, 0x840, 64, 0, 2, 1⟩
def NPORT_SP_CFG_VLAN : Fld := ⟨.nport, 0, 0x840, 64, 0, 4, 12⟩
def NPORT_SP_CFG_CTRL_DSCP : Fld := ⟨.nport, 0, 0x840, 64, 0, 16, 6⟩
def NPORT_SP_CFG_TILE_DSCP : Fld := ⟨.nport, 0, 0x840, 64, 0, 22, 6⟩
def NPORT_MAC_LO : Fld := ⟨.nport, 0, 0x844, 64, 0, 0, 32⟩
def NPORT_MAC_HI_MAC : Fld := ⟨.nport, 0, 0x848, 64, 0, 0, 16⟩
def NPORT_IP : Fld := ⟨.nport, 0, 0x84C, 4, 64, 0, 32⟩
def NPORT_GW : Fld := ⟨.nport, 0, 0x85C, 4, 64, 0, 32⟩
def NPORT_NET_PREFIX : Fld := ⟨.nport, 0, 0x86C, 64, 0, 0, 8⟩
def NPORT_NET_TATRE_PORT : Fld := ⟨.nport, 0, 0x86C, 64, 0, 16, 16⟩
def NPORT_TABLE_GRP : Fld := ⟨.nport, 0, 0x940, 4, 0, 0, 32⟩
def NPORT_HOUSE_GRP : Fld := ⟨.nport, 0, 0x950, 4, 0, 0, 32⟩
def NPORT_PORT_STS_LINK_UP : Fld := ⟨.nport, 0, 0x040, 0, 0, 0, 4⟩
def NPORT_PORT_STS_SEAT_CONFLICT : Fld := ⟨.nport, 0, 0x040, 0, 0, 4, 1⟩
def NPORT_RX_FRAMES : Fld := ⟨.nport, 0, 0x080, 32, 0, 0, 32⟩
def NPORT_TX_FRAMES : Fld := ⟨.nport, 0, 0x084, 32, 0, 0, 32⟩
def NPORT_FCS_ERR : Fld := ⟨.nport, 0, 0x088, 32, 0, 0, 32⟩
def NPORT_TAG_FAIL : Fld := ⟨.nport, 0, 0x08C, 32, 0, 0, 32⟩
def NPORT_STALE_MSG : Fld := ⟨.nport, 0, 0x090, 32, 0, 0, 32⟩
def NPORT_DUP : Fld := ⟨.nport, 0, 0x094, 32, 0, 0, 32⟩
def NPORT_NOT_FOR_US : Fld := ⟨.nport, 0, 0x098, 32, 0, 0, 32⟩
def NPORT_CNT_CLR_CLEAR : Fld := ⟨.nport, 0, 0x100, 0, 0, 0, 1⟩

/-! SENDT page 0, R376 of 13_tatre_transport.md. -/
def SENDT_CFG_EN : Fld := ⟨.sendT, 0, 0x800, 64, 0, 0, 1⟩
def SENDT_CFG_CONTEXT : Fld := ⟨.sendT, 0, 0x800, 64, 0, 1, 8⟩
def SENDT_CFG_DUAL_PATH : Fld := ⟨.sendT, 0, 0x800, 64, 0, 9, 1⟩
def SENDT_CFG_NETIF_P1 : Fld := ⟨.sendT, 0, 0x800, 64, 0, 10, 4⟩
def SENDT_CFG_NETIF_P2 : Fld := ⟨.sendT, 0, 0x800, 64, 0, 14, 4⟩
def SENDT_CFG_BONDED : Fld := ⟨.sendT, 0, 0x800, 64, 0, 18, 1⟩
def SENDT_CFG_REFRESH : Fld := ⟨.sendT, 0, 0x800, 64, 0, 19, 8⟩
def SENDT_DST_P1 : Fld := ⟨.sendT, 0, 0x804, 4, 64, 0, 32⟩
def SENDT_DST_P2 : Fld := ⟨.sendT, 0, 0x814, 4, 64, 0, 32⟩
def SENDT_UDP_PORTS_PORT_P1 : Fld := ⟨.sendT, 0, 0x824, 64, 0, 0, 16⟩
def SENDT_UDP_PORTS_PORT_P2 : Fld := ⟨.sendT, 0, 0x824, 64, 0, 16, 16⟩
def SENDT_STS_SENDING : Fld := ⟨.sendT, 0, 0x040, 48, 0, 0, 1⟩
def SENDT_STS_P1_UP : Fld := ⟨.sendT, 0, 0x040, 48, 0, 1, 1⟩
def SENDT_STS_P2_UP : Fld := ⟨.sendT, 0, 0x040, 48, 0, 2, 1⟩
def SENDT_STS_ORIGIN_LOST : Fld := ⟨.sendT, 0, 0x040, 48, 0, 3, 1⟩
def SENDT_TILES : Fld := ⟨.sendT, 0, 0x044, 48, 0, 0, 32⟩
def SENDT_STAMPED : Fld := ⟨.sendT, 0, 0x048, 48, 0, 0, 32⟩
def SENDT_FRAMES : Fld := ⟨.sendT, 0, 0x04C, 48, 0, 0, 32⟩
def SENDT_SKIPPED : Fld := ⟨.sendT, 0, 0x050, 48, 0, 0, 32⟩

/-! TIME page 0, R377 of 13_tatre_transport.md. -/
def TIME_PTP_CFG_PTP_NETIF : Fld := ⟨.time, 0, 0x840, 0, 0, 0, 4⟩
def TIME_PTP_CFG_BACKUP_NETIF : Fld := ⟨.time, 0, 0x840, 0, 0, 4, 4⟩
def TIME_PTP_CFG_BACKUP_EN : Fld := ⟨.time, 0, 0x840, 0, 0, 8, 1⟩
def TIME_PTP_CFG_DELAY_MECH : Fld := ⟨.time, 0, 0x840, 0, 0, 9, 1⟩
def TIME_PTP_CFG_SLAVE_ONLY : Fld := ⟨.time, 0, 0x840, 0, 0, 10, 1⟩
def TIME_PTP_CFG_DOMAIN : Fld := ⟨.time, 0, 0x840, 0, 0, 16, 8⟩
def TIME_PTP_CFG_PRIORITY1 : Fld := ⟨.time, 0, 0x840, 0, 0, 24, 8⟩
def TIME_PTP_INTV_LOG_SYNC : Fld := ⟨.time, 0, 0x844, 0, 0, 0, 8⟩
def TIME_PTP_INTV_LOG_ANNOUNCE : Fld := ⟨.time, 0, 0x844, 0, 0, 8, 8⟩
def TIME_PTP_INTV_LOG_DELAY : Fld := ⟨.time, 0, 0x844, 0, 0, 16, 8⟩
def TIME_PTP_INTV_ANNOUNCE_TIMEOUT : Fld := ⟨.time, 0, 0x844, 0, 0, 24, 4⟩
def TIME_PTP_STS_PORT_STATE : Fld := ⟨.time, 0, 0x100, 0, 0, 0, 4⟩
def TIME_PTP_STS_SERVO_LOCK : Fld := ⟨.time, 0, 0x100, 0, 0, 4, 1⟩
def TIME_PTP_STS_ON_BACKUP : Fld := ⟨.time, 0, 0x100, 0, 0, 5, 1⟩
def TIME_PTP_GM_LO : Fld := ⟨.time, 0, 0x104, 0, 0, 0, 32⟩
def TIME_PTP_GM_HI : Fld := ⟨.time, 0, 0x108, 0, 0, 0, 32⟩
def TIME_PTP_PATH : Fld := ⟨.time, 0, 0x10C, 0, 0, 0, 32⟩
def TIME_MASTER_CHANGES : Fld := ⟨.time, 0, 0x110, 0, 0, 0, 32⟩

/-! MGMT page 0, R404 of 14_management_and_security.md. -/
def MGMT_FW_CTL_RESTART : Fld := ⟨.mgmt, 0, 0x040, 0, 0, 0, 1⟩
def MGMT_FW_CTL_WDOG_AUTO : Fld := ⟨.mgmt, 0, 0x040, 0, 0, 1, 1⟩
def MGMT_FW_STS_STATE : Fld := ⟨.mgmt, 0, 0x044, 0, 0, 0, 2⟩
def MGMT_FW_STS_SLOT : Fld := ⟨.mgmt, 0, 0x044, 0, 0, 2, 1⟩
def MGMT_FW_STS_FALLBACK : Fld := ⟨.mgmt, 0, 0x044, 0, 0, 3, 1⟩
def MGMT_FW_STS_FAIL_WHY : Fld := ⟨.mgmt, 0, 0x044, 0, 0, 4, 4⟩
def MGMT_FW_STS_RESTARTS : Fld := ⟨.mgmt, 0, 0x044, 0, 0, 8, 2⟩
def MGMT_IMAGE_VER : Fld := ⟨.mgmt, 0, 0x048, 0, 0, 0, 32⟩
def MGMT_SEC_VER : Fld := ⟨.mgmt, 0, 0x04C, 0, 0, 0, 32⟩
def MGMT_MIN_SEC_VER : Fld := ⟨.mgmt, 0, 0x050, 0, 0, 0, 32⟩
def MGMT_ROM_VER : Fld := ⟨.mgmt, 0, 0x054, 0, 0, 0, 32⟩
def MGMT_BOOT_CTL_OVERRIDE : Fld := ⟨.mgmt, 0, 0x058, 0, 0, 0, 1⟩
def MGMT_BOOT_CTL_SLOT : Fld := ⟨.mgmt, 0, 0x058, 0, 0, 1, 1⟩
def MGMT_RESET_CAUSE_CAUSE : Fld := ⟨.mgmt, 0, 0x05C, 0, 0, 0, 4⟩
def MGMT_WDOG_MS_MS : Fld := ⟨.mgmt, 0, 0x060, 0, 0, 0, 10⟩
def MGMT_BOOTS : Fld := ⟨.mgmt, 0, 0x064, 0, 0, 0, 32⟩
def MGMT_LOCKSTEP_RESETS : Fld := ⟨.mgmt, 0, 0x068, 0, 0, 0, 32⟩
def MGMT_MBOX_CMD_OPCODE : Fld := ⟨.mgmt, 0, 0x080, 0, 0, 0, 8⟩
def MGMT_MBOX_CMD_TAG : Fld := ⟨.mgmt, 0, 0x080, 0, 0, 8, 8⟩
def MGMT_MBOX_CMD_LENGTH : Fld := ⟨.mgmt, 0, 0x080, 0, 0, 16, 10⟩
def MGMT_MBOX_ARG : Fld := ⟨.mgmt, 0, 0x084, 4, 0, 0, 32⟩
def MGMT_MBOX_DOORBELL_GO : Fld := ⟨.mgmt, 0, 0x094, 0, 0, 0, 1⟩
def MGMT_MBOX_STS_RESULT : Fld := ⟨.mgmt, 0, 0x098, 0, 0, 0, 8⟩
def MGMT_MBOX_STS_TAG : Fld := ⟨.mgmt, 0, 0x098, 0, 0, 8, 8⟩
def MGMT_MBOX_STS_RSP_LENGTH : Fld := ⟨.mgmt, 0, 0x098, 0, 0, 16, 10⟩
def MGMT_MBOX_STS_BUSY : Fld := ⟨.mgmt, 0, 0x098, 0, 0, 28, 1⟩
def MGMT_MBOX_STS_REFUSED : Fld := ⟨.mgmt, 0, 0x098, 0, 0, 29, 1⟩
def MGMT_MBOX_RSP_ARG : Fld := ⟨.mgmt, 0, 0x09C, 4, 0, 0, 32⟩
def MGMT_INSTALL_STS_JOURNAL : Fld := ⟨.mgmt, 0, 0x0C0, 0, 0, 0, 3⟩
def MGMT_INSTALL_STS_TARGET : Fld := ⟨.mgmt, 0, 0x0C0, 0, 0, 3, 1⟩
def MGMT_INSTALL_BYTES : Fld := ⟨.mgmt, 0, 0x0C4, 0, 0, 0, 32⟩
def MGMT_MBOX_DATA : Fld := ⟨.mgmt, 0, 0x200, 4, 0, 0, 32⟩

/-! MGMT page 1, R405 of 14_management_and_security.md. -/
def MGMT_DEF_ADDR : Fld := ⟨.mgmt, 1, 0x040, 0, 0, 0, 32⟩
def MGMT_DEF_INFO_MASTER : Fld := ⟨.mgmt, 1, 0x044, 0, 0, 0, 3⟩
def MGMT_DEF_INFO_WRITE : Fld := ⟨.mgmt, 1, 0x044, 0, 0, 3, 1⟩
def MGMT_DEF_INFO_REASON : Fld := ⟨.mgmt, 1, 0x044, 0, 0, 4, 2⟩
def MGMT_DEF_INFO_OVERFLOW : Fld := ⟨.mgmt, 1, 0x044, 0, 0, 6, 1⟩
def MGMT_DEF_COUNT : Fld := ⟨.mgmt, 1, 0x048, 0, 0, 0, 32⟩
def MGMT_DEF_CLR_CLEAR : Fld := ⟨.mgmt, 1, 0x04C, 0, 0, 0, 1⟩
def MGMT_MATRIX_CTL_REMAP : Fld := ⟨.mgmt, 1, 0x050, 0, 0, 0, 1⟩
def MGMT_KEY_CTL_LOAD : Fld := ⟨.mgmt, 1, 0x080, 0, 0, 0, 1⟩
def MGMT_KEY_CTL_CLEAR : Fld := ⟨.mgmt, 1, 0x080, 0, 0, 1, 1⟩
def MGMT_KEY_STS_PROV_HELD : Fld := ⟨.mgmt, 1, 0x084, 0, 0, 0, 1⟩
def MGMT_KEY_STS_TABLE_GEN : Fld := ⟨.mgmt, 1, 0x084, 0, 0, 1, 6⟩
def MGMT_KEY_STS_HOUSE_GEN : Fld := ⟨.mgmt, 1, 0x084, 0, 0, 7, 6⟩
def MGMT_KEY_STS_LAST_OK : Fld := ⟨.mgmt, 1, 0x084, 0, 0, 13, 1⟩
def MGMT_KEY_FAIL : Fld := ⟨.mgmt, 1, 0x088, 0, 0, 0, 32⟩
def MGMT_KEY_BLOB : Fld := ⟨.mgmt, 1, 0x0C0, 4, 0, 0, 32⟩

/-! DEBUG page 0, R406 of 14_management_and_security.md. -/
def DEBUG_DBG_CTL_GET_CHALLENGE : Fld := ⟨.debug, 0, 0x040, 0, 0, 0, 1⟩
def DEBUG_DBG_CTL_SUBMIT : Fld := ⟨.debug, 0, 0x040, 0, 0, 1, 1⟩
def DEBUG_DBG_CTL_METHOD : Fld := ⟨.debug, 0, 0x040, 0, 0, 2, 1⟩
def DEBUG_DBG_CTL_DATA_RST : Fld := ⟨.debug, 0, 0x040, 0, 0, 3, 1⟩
def DEBUG_DBG_STS_OPEN : Fld := ⟨.debug, 0, 0x044, 0, 0, 0, 1⟩
def DEBUG_DBG_STS_BUSY : Fld := ⟨.debug, 0, 0x044, 0, 0, 1, 1⟩
def DEBUG_DBG_STS_REFUSED : Fld := ⟨.debug, 0, 0x044, 0, 0, 2, 1⟩
def DEBUG_DBG_STS_CHAL_VALID : Fld := ⟨.debug, 0, 0x044, 0, 0, 3, 1⟩
def DEBUG_DBG_STS_FAILS : Fld := ⟨.debug, 0, 0x044, 0, 0, 4, 4⟩
def DEBUG_DBG_CHAL : Fld := ⟨.debug, 0, 0x048, 4, 0, 0, 32⟩
def DEBUG_DBG_DATA : Fld := ⟨.debug, 0, 0x070, 0, 0, 0, 32⟩
def DEBUG_DBG_LEN_BYTES : Fld := ⟨.debug, 0, 0x074, 0, 0, 0, 13⟩

/-! NVM page 0, R428 of 15_nonvolatile_store.md. -/
def NVM_WIN_BASE : Fld := ⟨.nvm, 0, 0x040, 0, 0, 0, 8⟩
def NVM_WR_ADDR_ADDR : Fld := ⟨.nvm, 0, 0x044, 0, 0, 0, 22⟩
def NVM_CMD_GO : Fld := ⟨.nvm, 0, 0x048, 0, 0, 0, 1⟩
def NVM_CMD_OP : Fld := ⟨.nvm, 0, 0x048, 0, 0, 1, 3⟩
def NVM_CMD_FORMAT : Fld := ⟨.nvm, 0, 0x048, 0, 0, 4, 1⟩
def NVM_CMD_SLOTS : Fld := ⟨.nvm, 0, 0x048, 0, 0, 5, 8⟩
def NVM_CMD_KEY : Fld := ⟨.nvm, 0, 0x048, 0, 0, 13, 8⟩
def NVM_CMD_COUNTER : Fld := ⟨.nvm, 0, 0x048, 0, 0, 21, 5⟩
def NVM_WR_LEN_LEN : Fld := ⟨.nvm, 0, 0x04C, 0, 0, 0, 11⟩
def NVM_STS_BUSY : Fld := ⟨.nvm, 0, 0x050, 0, 0, 0, 1⟩
def NVM_STS_LAST_OP : Fld := ⟨.nvm, 0, 0x050, 0, 0, 1, 3⟩
def NVM_STS_RESULT : Fld := ⟨.nvm, 0, 0x050, 0, 0, 4, 4⟩
def NVM_STS_COPY : Fld := ⟨.nvm, 0, 0x050, 0, 0, 8, 1⟩
def NVM_STS_WIN_ERR : Fld := ⟨.nvm, 0, 0x050, 0, 0, 12, 3⟩
def NVM_REC_SEQ : Fld := ⟨.nvm, 0, 0x054, 0, 0, 0, 32⟩
def NVM_REC_LEN_LEN : Fld := ⟨.nvm, 0, 0x058, 0, 0, 0, 11⟩
def NVM_CNT_LO : Fld := ⟨.nvm, 0, 0x05C, 0, 0, 0, 32⟩
def NVM_CNT_HI : Fld := ⟨.nvm, 0, 0x060, 0, 0, 0, 32⟩
def NVM_PW_CTL_REGION : Fld := ⟨.nvm, 0, 0x070, 0, 0, 0, 4⟩
def NVM_PW_CTL_KIND : Fld := ⟨.nvm, 0, 0x070, 0, 0, 4, 1⟩
def NVM_PW_CTL_OP : Fld := ⟨.nvm, 0, 0x070, 0, 0, 5, 2⟩
def NVM_PW_CTL_GO : Fld := ⟨.nvm, 0, 0x070, 0, 0, 7, 1⟩
def NVM_PW_CTL_LEN : Fld := ⟨.nvm, 0, 0x070, 0, 0, 8, 7⟩
def NVM_PW_DATA : Fld := ⟨.nvm, 0, 0x074, 4, 0, 0, 32⟩
def NVM_PW_OPEN_READ_OPEN : Fld := ⟨.nvm, 0, 0x0B4, 0, 0, 0, 14⟩
def NVM_PW_OPEN_WRITE_OPEN : Fld := ⟨.nvm, 0, 0x0B4, 0, 0, 16, 14⟩
def NVM_PW_SET_READ_SET : Fld := ⟨.nvm, 0, 0x0B8, 0, 0, 0, 14⟩
def NVM_PW_SET_WRITE_SET : Fld := ⟨.nvm, 0, 0x0B8, 0, 0, 16, 14⟩
def NVM_PW_FAILS_FAILS : Fld := ⟨.nvm, 0, 0x0BC, 0, 0, 0, 4⟩
def NVM_PW_FAILS_LOCKOUT : Fld := ⟨.nvm, 0, 0x0BC, 0, 0, 4, 1⟩
def NVM_CE_COUNT : Fld := ⟨.nvm, 0, 0x0C0, 0, 0, 0, 32⟩
def NVM_UE_COUNT : Fld := ⟨.nvm, 0, 0x0C4, 0, 0, 0, 32⟩
def NVM_UE_ADDR_ADDR : Fld := ⟨.nvm, 0, 0x0C8, 0, 0, 0, 22⟩
def NVM_SCRUB_CTL_EN : Fld := ⟨.nvm, 0, 0x0CC, 0, 0, 0, 1⟩
def NVM_SCRUB_CTL_SCRUB_HOURS : Fld := ⟨.nvm, 0, 0x0CC, 0, 0, 8, 8⟩
def NVM_SCRUB_PASSES : Fld := ⟨.nvm, 0, 0x0D0, 0, 0, 0, 32⟩
def NVM_TORN_WRITES : Fld := ⟨.nvm, 0, 0x0D4, 0, 0, 0, 32⟩
def NVM_CNT_CLR_CLEAR : Fld := ⟨.nvm, 0, 0x0D8, 0, 0, 0, 1⟩

/-! POWER page 0, R446 of 16_power.md. -/
def POWER_DOM_CTL_LOW_STATE : Fld := ⟨.power, 0, 0x040, 4, 0, 0, 2⟩
def POWER_DOM_CTL_RETRIES : Fld := ⟨.power, 0, 0x040, 4, 0, 2, 2⟩
def POWER_DOM_CTL_ENTER : Fld := ⟨.power, 0, 0x040, 4, 0, 4, 1⟩
def POWER_DOM_CTL_HOST_VOTES : Fld := ⟨.power, 0, 0x040, 4, 0, 24, 8⟩
def POWER_DOM_STS_STATE : Fld := ⟨.power, 0, 0x100, 4, 0, 0, 2⟩
def POWER_DOM_STS_BUSY : Fld := ⟨.power, 0, 0x100, 4, 0, 2, 1⟩
def POWER_DOM_STS_WAKE_FAULT : Fld := ⟨.power, 0, 0x100, 4, 0, 3, 1⟩
def POWER_DOM_STS_STEP : Fld := ⟨.power, 0, 0x100, 4, 0, 4, 3⟩
def POWER_DOM_STS_TRIES : Fld := ⟨.power, 0, 0x100, 4, 0, 7, 2⟩
def POWER_DOM_STS_FENCED : Fld := ⟨.power, 0, 0x100, 4, 0, 9, 1⟩
def POWER_DOM_STS_REFUSED : Fld := ⟨.power, 0, 0x100, 4, 0, 10, 1⟩
def POWER_DOM_VOTES : Fld := ⟨.power, 0, 0x200, 4, 0, 0, 32⟩
def POWER_REFUSE_LOG_DOMAIN : Fld := ⟨.power, 0, 0x300, 0, 0, 0, 6⟩
def POWER_REFUSE_LOG_INSTANCE : Fld := ⟨.power, 0, 0x300, 0, 0, 8, 12⟩
def POWER_REFUSE_LOG_BLOCK : Fld := ⟨.power, 0, 0x300, 0, 0, 20, 8⟩
def POWER_REFUSE_LOG_REASON : Fld := ⟨.power, 0, 0x300, 0, 0, 28, 2⟩
def POWER_REFUSE_TIME_LO : Fld := ⟨.power, 0, 0x304, 0, 0, 0, 32⟩
def POWER_REFUSE_TIME_HI : Fld := ⟨.power, 0, 0x308, 0, 0, 0, 32⟩
def POWER_REFUSALS : Fld := ⟨.power, 0, 0x30C, 0, 0, 0, 32⟩
def POWER_WAKE_FAULTS : Fld := ⟨.power, 0, 0x310, 0, 0, 0, 32⟩
def POWER_ENTRIES : Fld := ⟨.power, 0, 0x314, 0, 0, 0, 32⟩
def POWER_CNT_CLR_CLEAR : Fld := ⟨.power, 0, 0x318, 0, 0, 0, 1⟩
def POWER_AGREE_AGREE_US : Fld := ⟨.power, 0, 0x31C, 0, 0, 0, 16⟩

/-! POWER page 1, R447 of 16_power.md. -/
def POWER_AVS_STS_TARGET_MV : Fld := ⟨.power, 1, 0x040, 0, 0, 0, 12⟩
def POWER_AVS_STS_READ_MV : Fld := ⟨.power, 1, 0x040, 0, 0, 16, 12⟩
def POWER_AVS_STS_FAULT : Fld := ⟨.power, 1, 0x040, 0, 0, 28, 1⟩
def POWER_BIAS_STS_FBB_MV : Fld := ⟨.power, 1, 0x044, 0, 0, 0, 8⟩
def POWER_TEMP_TJ_MAX : Fld := ⟨.power, 1, 0x048, 0, 0, 0, 9⟩
def POWER_TEMP_TJ_MIN : Fld := ⟨.power, 1, 0x048, 0, 0, 16, 9⟩
def POWER_THERM_CTL_WARN_C : Fld := ⟨.power, 1, 0x04C, 0, 0, 0, 9⟩
def POWER_WAKE_STEP_DELAY_US : Fld := ⟨.power, 1, 0x100, 4, 0, 0, 16⟩
def POWER_WAKE_STEP_TIMEOUT : Fld := ⟨.power, 1, 0x100, 4, 0, 16, 16⟩

/-! SNAP page 0, R466 of 17_containment_reset_startup.md. -/
def SNAP_CTL_NOW : Fld := ⟨.snap, 0, 0x040, 0, 0, 0, 1⟩
def SNAP_CTL_REARM : Fld := ⟨.snap, 0, 0x040, 0, 0, 1, 1⟩
def SNAP_CTL_SCHED_ARM : Fld := ⟨.snap, 0, 0x040, 0, 0, 2, 1⟩
def SNAP_CTL_SCHED_CANCEL : Fld := ⟨.snap, 0, 0x040, 0, 0, 3, 1⟩
def SNAP_MODE_ONE_SHOT : Fld := ⟨.snap, 0, 0x044, 0, 0, 0, 1⟩
def SNAP_MODE_PIN_EN : Fld := ⟨.snap, 0, 0x044, 0, 0, 1, 1⟩
def SNAP_MODE_PIN_RISE : Fld := ⟨.snap, 0, 0x044, 0, 0, 2, 1⟩
def SNAP_LEAD_LEAD_US : Fld := ⟨.snap, 0, 0x048, 0, 0, 0, 10⟩
def SNAP_SCHED_TIME_LO : Fld := ⟨.snap, 0, 0x04C, 0, 0, 0, 32⟩
def SNAP_SCHED_TIME_HI : Fld := ⟨.snap, 0, 0x050, 0, 0, 0, 32⟩
def SNAP_FAULT_MASK_MASK : Fld := ⟨.snap, 0, 0x054, 0, 0, 0, 8⟩
def SNAP_STS_ARMED : Fld := ⟨.snap, 0, 0x058, 0, 0, 0, 1⟩
def SNAP_STS_PENDING : Fld := ⟨.snap, 0, 0x058, 0, 0, 1, 1⟩
def SNAP_STS_SCHED_PENDING : Fld := ⟨.snap, 0, 0x058, 0, 0, 2, 1⟩
def SNAP_STS_LATE : Fld := ⟨.snap, 0, 0x058, 0, 0, 3, 1⟩
def SNAP_STS_LAST_SRC : Fld := ⟨.snap, 0, 0x058, 0, 0, 4, 3⟩
def SNAP_LAST_E_LO : Fld := ⟨.snap, 0, 0x05C, 0, 0, 0, 32⟩
def SNAP_LAST_E_HI : Fld := ⟨.snap, 0, 0x060, 0, 0, 0, 32⟩
def SNAP_PENDING_E_LO : Fld := ⟨.snap, 0, 0x064, 0, 0, 0, 32⟩
def SNAP_PENDING_E_HI : Fld := ⟨.snap, 0, 0x068, 0, 0, 0, 32⟩
def SNAP_FAULT_LAST_KIND : Fld := ⟨.snap, 0, 0x06C, 0, 0, 0, 3⟩
def SNAP_FAULT_LAST_BLOCK : Fld := ⟨.snap, 0, 0x06C, 0, 0, 8, 8⟩
def SNAP_FAULT_LAST_INSTANCE : Fld := ⟨.snap, 0, 0x06C, 0, 0, 16, 12⟩
def SNAP_SNAPSHOTS : Fld := ⟨.snap, 0, 0x070, 0, 0, 0, 32⟩
def SNAP_MERGED : Fld := ⟨.snap, 0, 0x074, 0, 0, 0, 32⟩
def SNAP_MISSED : Fld := ⟨.snap, 0, 0x078, 0, 0, 0, 32⟩
def SNAP_CNT_CLR_CLEAR : Fld := ⟨.snap, 0, 0x07C, 0, 0, 0, 1⟩

/-! SENDV page 0, R267 of 09_scanout.md. -/
def SENDV_CLEAR_CLEAR : Fld := ⟨.sendV, 0, 0x3F0, 0, 0, 0, 16⟩

/-! SENDT page 0, R376 of 13_tatre_transport.md. -/
def SENDT_CLEAR_CLEAR : Fld := ⟨.sendT, 0, 0x3F0, 0, 0, 0, 16⟩

/-! AUDIO page 0, R348 of 12_audio.md. -/
def AUDIO_STEPS_CLR_CLEAR : Fld := ⟨.audio, 0, 0x204, 0, 0, 0, 1⟩

/-! AUDIO page 2, R348 of 12_audio.md. -/
def AUDIO_AOUT_CLR_CLEAR : Fld := ⟨.audio, 2, 0x3F0, 0, 0, 0, 16⟩

/-! AUDIO page 7, R348 of 12_audio.md. -/
def AUDIO_ASEND_CLR_LO : Fld := ⟨.audio, 7, 0x3F0, 0, 0, 0, 32⟩
def AUDIO_ASEND_CLR_HI : Fld := ⟨.audio, 7, 0x3F4, 0, 0, 0, 32⟩

end F

/-! The word tables, page by page. -/
/-- Words of GLOBAL page 0. -/
def words_global0_0 : List WordRow := [⟨0x40, 1, 0, 1, 0, 0x0, 0x0, 0x0, 0xB16400⟩,
  ⟨0x44, 1, 0, 1, 0, 0x0, 0x0, 0x0, 0x0⟩,
  ⟨0x48, 1, 0, 1, 0, 0x0, 0x0, 0x0, 0x0⟩,
  ⟨0x4C, 1, 0, 1, 0, 0x0, 0x0, 0x0, 0x0⟩,
  ⟨0x50, 1, 0, 1, 0, 0x0, 0x0, 0x0, 0x0⟩,
  ⟨0x54, 1, 0, 1, 0, 0xFFE00000, 0x0, 0x0, 0x0⟩,
  ⟨0x58, 1, 0, 1, 0, 0x1F, 0x0, 0x0, 0x0⟩,
  ⟨0x5C, 1, 0, 1, 0, 0xF, 0x0, 0x0, 0x4⟩,
  ⟨0x60, 1, 0, 1, 0, 0xFFF, 0x0, 0x0, 0x0⟩,
  ⟨0x64, 1, 0, 1, 0, 0x1, 0x0, 0x0, 0x0⟩,
  ⟨0x68, 1, 0, 1, 0, 0x0, 0x0, 0x0, 0x0⟩,
  ⟨0x6C, 1, 0, 1, 0, 0x0, 0x0, 0x0, 0x0⟩,
  ⟨0x70, 1, 0, 1, 0, 0x0, 0x0, 0x0, 0x0⟩,
  ⟨0x74, 1, 0, 1, 0, 0x0, 0x0, 0x1, 0x0⟩,
  ⟨0x80, 1, 0, 1, 0, 0x0, 0x0, 0x0, 0x0⟩,
  ⟨0x84, 1, 0, 1, 0, 0xFFFF, 0x0, 0x0, 0x0⟩,
  ⟨0x200, 55, 4, 1, 0, 0x0, 0x0, 0x0, 0x0⟩]
/-- Words of MGMT page 0. -/
def words_mgmt0_0 : List WordRow := [⟨0x40, 1, 0, 1, 0, 0x2, 0x0, 0x1, 0x2⟩,
  ⟨0x44, 1, 0, 1, 0, 0x0, 0x0, 0x0, 0x0⟩,
  ⟨0x48, 1, 0, 1, 0, 0x0, 0x0, 0x0, 0x0⟩,
  ⟨0x4C, 1, 0, 1, 0, 0x0, 0x0, 0x0, 0x0⟩,
  ⟨0x50, 1, 0, 1, 0, 0x0, 0x0, 0x0, 0x0⟩,
  ⟨0x54, 1, 0, 1, 0, 0x0, 0x0, 0x0, 0x0⟩,
  ⟨0x58, 1, 0, 1, 0, 0x3, 0x0, 0x0, 0x0⟩,
  ⟨0x5C, 1, 0, 1, 0, 0x0, 0x0, 0x0, 0x0⟩,
  ⟨0x60, 1, 0, 1, 0, 0x0, 0x0, 0x0, 0x0⟩,
  ⟨0x64, 1, 0, 1, 0, 0x0, 0x0, 0x0, 0x0⟩,
  ⟨0x68, 1, 0, 1, 0, 0x0, 0x0, 0x0, 0x0⟩,
  ⟨0x80, 1, 0, 1, 0, 0x3FFFFFF, 0x0, 0x0, 0x0⟩,
  ⟨0x84, 4, 4, 1, 0, 0xFFFFFFFF, 0x0, 0x0, 0x0⟩,
  ⟨0x94, 1, 0, 1, 0, 0x0, 0x0, 0x1, 0x0⟩,
  ⟨0x98, 1, 0, 1, 0, 0x0, 0x20000000, 0x0, 0x0⟩,
  ⟨0x9C, 2, 4, 1, 0, 0x0, 0x0, 0x0, 0x0⟩,
  ⟨0xC0, 1, 0, 1, 0, 0x0, 0x0, 0x0, 0x0⟩,
  ⟨0xC4, 1, 0, 1, 0, 0x0, 0x0, 0x0, 0x0⟩,
  ⟨0x200, 128, 4, 1, 0, 0xFFFFFFFF, 0x0, 0x0, 0x0⟩]
/-- Words of MGMT page 1. -/
def words_mgmt1_0 : List WordRow := [⟨0x300, 1, 0, 1, 0, 0x0, 0x0, 0x0, 0x0⟩,
  ⟨0x304, 1, 0, 1, 0, 0x0, 0x0, 0x0, 0x0⟩,
  ⟨0x308, 1, 0, 1, 0, 0x0, 0x0, 0x0, 0x0⟩,
  ⟨0x30C, 1, 0, 1, 0, 0x0, 0x0, 0x0, 0x0⟩,
  ⟨0x310, 1, 0, 1, 0, 0x0, 0x0, 0x0, 0x0⟩,
  ⟨0x314, 1, 0, 1, 0, 0xFFFF, 0x0, 0x0, 0x3E8⟩,
  ⟨0x318, 1, 0, 1, 0, 0x0, 0x0, 0x0, 0x0⟩,
  ⟨0x31C, 1, 0, 1, 0, 0xFFFFFFFF, 0x0, 0x0, 0x0⟩,
  ⟨0x320, 1, 0, 1, 0, 0x0, 0x0, 0x0, 0x0⟩,
  ⟨0x324, 1, 0, 1, 0, 0x0, 0x0, 0x0, 0x0⟩,
  ⟨0x40, 1, 0, 1, 0, 0x0, 0x0, 0x0, 0x0⟩,
  ⟨0x44, 1, 0, 1, 0, 0x0, 0x0, 0x0, 0x0⟩,
  ⟨0x48, 1, 0, 1, 0, 0x0, 0x0, 0x0, 0x0⟩,
  ⟨0x4C, 1, 0, 1, 0, 0x0, 0x0, 0x1, 0x0⟩,
  ⟨0x50, 1, 0, 1, 0, 0x0, 0x0, 0x0, 0x0⟩,
  ⟨0x80, 1, 0, 1, 0, 0x2, 0x0, 0x1, 0x0⟩,
  ⟨0x84, 1, 0, 1, 0, 0x0, 0x0, 0x0, 0x0⟩,
  ⟨0x88, 1, 0, 1, 0, 0x0, 0x0, 0x0, 0x0⟩,
  ⟨0xC0, 20, 4, 1, 0, 0x0, 0x0, 0xFFFFFFFF, 0x0⟩]
/-- Words of TIME page 0. -/
def words_time0_0 : List WordRow := [⟨0x800, 1, 0, 1, 0, 0x3, 0x0, 0x0, 0x1⟩,
  ⟨0x804, 1, 0, 1, 0, 0xFFF, 0x0, 0x0, 0x7D0⟩,
  ⟨0x808, 1, 0, 1, 0, 0xFFFFFFFF, 0x0, 0x0, 0x0⟩,
  ⟨0x80C, 1, 0, 1, 0, 0xFFFFFFFF, 0x0, 0x0, 0x0⟩,
  ⟨0x810, 1, 0, 1, 0, 0x1, 0x0, 0x0, 0x0⟩,
  ⟨0x40, 1, 0, 1, 0, 0x0, 0x0, 0x0, 0x0⟩,
  ⟨0x44, 1, 0, 1, 0, 0x0, 0x0, 0x0, 0x0⟩,
  ⟨0x48, 1, 0, 1, 0, 0x0, 0x0, 0x0, 0x0⟩,
  ⟨0x4C, 1, 0, 1, 0, 0x0, 0x0, 0x0, 0x0⟩,
  ⟨0x50, 1, 0, 1, 0, 0x0, 0x0, 0x0, 0x0⟩,
  ⟨0x54, 1, 0, 1, 0, 0x0, 0x0, 0x0, 0x0⟩,
  ⟨0x58, 1, 0, 1, 0, 0x0, 0x0, 0x0, 0x0⟩,
  ⟨0x5C, 1, 0, 1, 0, 0x0, 0x0, 0x0, 0x0⟩,
  ⟨0x60, 1, 0, 1, 0, 0x0, 0x0, 0x0, 0x0⟩,
  ⟨0x64, 1, 0, 1, 0, 0x0, 0x0, 0x0, 0x0⟩,
  ⟨0x68, 1, 0, 1, 0, 0x0, 0x0, 0x0, 0x0⟩,
  ⟨0x6C, 1, 0, 1, 0, 0x0, 0x0, 0x1, 0x0⟩,
  ⟨0x840, 1, 0, 1, 0, 0xFFFF07FF, 0x0, 0x0, 0x807F0400⟩,
  ⟨0x844, 1, 0, 1, 0, 0xFFFFFFF, 0x0, 0x0, 0x3FDFEFD⟩,
  ⟨0x100, 1, 0, 1, 0, 0x0, 0x0, 0x0, 0x0⟩,
  ⟨0x104, 1, 0, 1, 0, 0x0, 0x0, 0x0, 0x0⟩,
  ⟨0x108, 1, 0, 1, 0, 0x0, 0x0, 0x0, 0x0⟩,
  ⟨0x10C, 1, 0, 1, 0, 0x0, 0x0, 0x0, 0x0⟩,
  ⟨0x110, 1, 0, 1, 0, 0x0, 0x0, 0x0, 0x0⟩]
/-- Words of TIME page 1. -/
def words_time1_0 : List WordRow := [⟨0x800, 1, 0, 1, 0, 0x7, 0x0, 0x0, 0x0⟩,
  ⟨0x804, 1, 0, 1, 0, 0xFFFFFFFF, 0x0, 0x0, 0x0⟩,
  ⟨0x808, 1, 0, 1, 0, 0xFFFFFFFF, 0x0, 0x0, 0x0⟩,
  ⟨0x40, 1, 0, 1, 0, 0x0, 0x0, 0x0, 0x2⟩,
  ⟨0x44, 1, 0, 1, 0, 0x0, 0x0, 0x0, 0x0⟩,
  ⟨0x48, 1, 0, 1, 0, 0x0, 0x0, 0x0, 0x0⟩,
  ⟨0x4C, 1, 0, 1, 0, 0x0, 0x0, 0x0, 0x0⟩,
  ⟨0x50, 1, 0, 1, 0, 0x0, 0x0, 0x0, 0x0⟩,
  ⟨0x54, 1, 0, 1, 0, 0x0, 0x0, 0x1, 0x0⟩]
/-- Words of DEAL page 0, part 1. -/
def words_deal0_0 : List WordRow := [⟨0x40, 1, 0, 1, 0, 0x0, 0x0, 0x7, 0x0⟩,
  ⟨0x44, 1, 0, 1, 0, 0x3, 0x0, 0x0, 0x0⟩,
  ⟨0x48, 1, 0, 1, 0, 0xFFFFFFFF, 0x0, 0x0, 0x0⟩,
  ⟨0x4C, 1, 0, 1, 0, 0xFFFFFFFF, 0x0, 0x0, 0x0⟩,
  ⟨0x50, 1, 0, 1, 0, 0xFFFFFFFF, 0x0, 0x0, 0x0⟩,
  ⟨0x54, 1, 0, 1, 0, 0xFFFFFFFF, 0x0, 0x0, 0x0⟩,
  ⟨0x58, 1, 0, 1, 0, 0xFFFFFFFF, 0x0, 0x0, 0x0⟩,
  ⟨0x5C, 1, 0, 1, 0, 0xF0F, 0x0, 0x0, 0x202⟩,
  ⟨0x60, 1, 0, 1, 0, 0x0, 0x20, 0x0, 0x0⟩,
  ⟨0x64, 1, 0, 1, 0, 0x0, 0x0, 0x0, 0x0⟩,
  ⟨0x68, 1, 0, 1, 0, 0x0, 0x0, 0x0, 0x0⟩,
  ⟨0x6C, 1, 0, 1, 0, 0x0, 0x0, 0x0, 0x0⟩,
  ⟨0x70, 1, 0, 1, 0, 0x0, 0x0, 0x0, 0x0⟩,
  ⟨0x74, 1, 0, 1, 0, 0x0, 0x0, 0x0, 0x0⟩,
  ⟨0x78, 1, 0, 1, 0, 0x0, 0x0, 0x0, 0x0⟩,
  ⟨0x7C, 1, 0, 1, 0, 0x0, 0x0, 0x0, 0x0⟩,
  ⟨0x80, 1, 0, 1, 0, 0x0, 0x0, 0x0, 0x0⟩,
  ⟨0x84, 1, 0, 1, 0, 0x0, 0x0, 0x0, 0x0⟩,
  ⟨0x88, 1, 0, 1, 0, 0x0, 0x0, 0x0, 0x0⟩,
  ⟨0x8C, 1, 0, 1, 0, 0x0, 0x0, 0x0, 0x0⟩,
  ⟨0x90, 1, 0, 1, 0, 0x0, 0x0, 0x0, 0x0⟩,
  ⟨0x94, 1, 0, 1, 0, 0x0, 0x0, 0x0, 0x0⟩,
  ⟨0x98, 1, 0, 1, 0, 0x0, 0x0, 0x0, 0x0⟩,
  ⟨0xA0, 8, 4, 1, 0, 0x0, 0x0, 0x0, 0x0⟩]
/-- Words of DEAL page 0, part 2. -/
def words_deal0_1 : List WordRow := [⟨0xC0, 1, 0, 1, 0, 0x0, 0x0, 0x0, 0x0⟩,
  ⟨0xC4, 1, 0, 1, 0, 0x0, 0x0, 0x0, 0x0⟩,
  ⟨0xC8, 1, 0, 1, 0, 0x0, 0x0, 0x0, 0x0⟩,
  ⟨0xCC, 1, 0, 1, 0, 0x0, 0x0, 0x0, 0x0⟩,
  ⟨0xD0, 1, 0, 1, 0, 0x0, 0x0, 0x0, 0x0⟩,
  ⟨0xD4, 1, 0, 1, 0, 0x0, 0x0, 0x0, 0x0⟩,
  ⟨0xD8, 1, 0, 1, 0, 0x0, 0x0, 0x0, 0x0⟩,
  ⟨0xDC, 1, 0, 1, 0, 0x0, 0x0, 0x1, 0x0⟩]
/-- Words of DEAL page 1. -/
def words_deal1_0 : List WordRow := [⟨0x800, 1, 0, 1, 0, 0x7FF3F, 0x0, 0x0, 0x0⟩,
  ⟨0x804, 1, 0, 1, 0, 0xFFFFFFFF, 0x0, 0x0, 0x0⟩,
  ⟨0x808, 1, 0, 1, 0, 0xFFFFFFFF, 0x0, 0x0, 0x0⟩,
  ⟨0x80C, 1, 0, 1, 0, 0xFFF, 0x0, 0x0, 0x1F4⟩,
  ⟨0x40, 1, 0, 1, 0, 0xFFFFFFFF, 0x0, 0x0, 0x0⟩,
  ⟨0x44, 1, 0, 1, 0, 0xFFFFFFFF, 0x0, 0x0, 0x0⟩,
  ⟨0x48, 8, 4, 1, 0, 0xFFFFFFFF, 0x0, 0x0, 0x0⟩,
  ⟨0x68, 1, 0, 1, 0, 0x0, 0x0, 0x0, 0x20040⟩,
  ⟨0x6C, 1, 0, 1, 0, 0x0, 0x0, 0x0, 0x0⟩,
  ⟨0x70, 1, 0, 1, 0, 0x0, 0x0, 0x0, 0x0⟩,
  ⟨0x74, 1, 0, 1, 0, 0x0, 0x0, 0x0, 0x0⟩,
  ⟨0x78, 1, 0, 1, 0, 0x0, 0x0, 0x0, 0x0⟩,
  ⟨0x7C, 8, 4, 1, 0, 0x0, 0x0, 0x0, 0x0⟩,
  ⟨0x9C, 1, 0, 1, 0, 0x0, 0x0, 0x0, 0x0⟩,
  ⟨0xA0, 1, 0, 1, 0, 0x0, 0x0, 0x0, 0x0⟩,
  ⟨0xA4, 1, 0, 1, 0, 0x0, 0x0, 0x0, 0x0⟩,
  ⟨0xA8, 1, 0, 1, 0, 0x0, 0x0, 0x0, 0x0⟩,
  ⟨0xAC, 1, 0, 1, 0, 0x0, 0x0, 0x0, 0x0⟩,
  ⟨0xB0, 1, 0, 1, 0, 0x0, 0x0, 0x0, 0x0⟩,
  ⟨0xB4, 1, 0, 1, 0, 0x0, 0x0, 0x0, 0x0⟩,
  ⟨0xB8, 1, 0, 1, 0, 0x0, 0x0, 0x1, 0x0⟩]
/-- Words of NVM page 0. -/
def words_nvm0_0 : List WordRow := [⟨0x40, 1, 0, 1, 0, 0xFF, 0x0, 0x0, 0x0⟩,
  ⟨0x44, 1, 0, 1, 0, 0x3FFFFF, 0x0, 0x0, 0x0⟩,
  ⟨0x48, 1, 0, 1, 0, 0x3FFFFFE, 0x0, 0x1, 0x0⟩,
  ⟨0x4C, 1, 0, 1, 0, 0x7FF, 0x0, 0x0, 0x0⟩,
  ⟨0x50, 1, 0, 1, 0, 0x0, 0x0, 0x0, 0x0⟩,
  ⟨0x54, 1, 0, 1, 0, 0x0, 0x0, 0x0, 0x0⟩,
  ⟨0x58, 1, 0, 1, 0, 0x0, 0x0, 0x0, 0x0⟩,
  ⟨0x5C, 1, 0, 1, 0, 0x0, 0x0, 0x0, 0x0⟩,
  ⟨0x60, 1, 0, 1, 0, 0x0, 0x0, 0x0, 0x0⟩,
  ⟨0x70, 1, 0, 1, 0, 0x7F7F, 0x0, 0x80, 0x0⟩,
  ⟨0x74, 16, 4, 1, 0, 0x0, 0x0, 0xFFFFFFFF, 0x0⟩,
  ⟨0xB4, 1, 0, 1, 0, 0x0, 0x0, 0x0, 0x3FFF3FFF⟩,
  ⟨0xB8, 1, 0, 1, 0, 0x0, 0x0, 0x0, 0x0⟩,
  ⟨0xBC, 1, 0, 1, 0, 0x0, 0x0, 0x0, 0x0⟩,
  ⟨0xC0, 1, 0, 1, 0, 0x0, 0x0, 0x0, 0x0⟩,
  ⟨0xC4, 1, 0, 1, 0, 0x0, 0x0, 0x0, 0x0⟩,
  ⟨0xC8, 1, 0, 1, 0, 0x0, 0x0, 0x0, 0x0⟩,
  ⟨0xCC, 1, 0, 1, 0, 0xFF01, 0x0, 0x0, 0x1801⟩,
  ⟨0xD0, 1, 0, 1, 0, 0x0, 0x0, 0x0, 0x0⟩,
  ⟨0xD4, 1, 0, 1, 0, 0x0, 0x0, 0x0, 0x0⟩,
  ⟨0xD8, 1, 0, 1, 0, 0x0, 0x0, 0x1, 0x0⟩]
/-- Words of POWER page 0. -/
def words_power0_0 : List WordRow := [⟨0x40, 35, 4, 1, 0, 0xFF00000F, 0x0, 0x10, 0xE⟩,
  ⟨0xCC, 1, 0, 1, 0, 0xFF00000C, 0x0, 0x10, 0xC⟩,
  ⟨0x100, 36, 4, 1, 0, 0x0, 0x0, 0x0, 0x0⟩,
  ⟨0x200, 36, 4, 1, 0, 0x0, 0x0, 0x0, 0x0⟩,
  ⟨0x300, 1, 0, 1, 0, 0x0, 0x0, 0x0, 0x0⟩,
  ⟨0x304, 1, 0, 1, 0, 0x0, 0x0, 0x0, 0x0⟩,
  ⟨0x308, 1, 0, 1, 0, 0x0, 0x0, 0x0, 0x0⟩,
  ⟨0x30C, 1, 0, 1, 0, 0x0, 0x0, 0x0, 0x0⟩,
  ⟨0x310, 1, 0, 1, 0, 0x0, 0x0, 0x0, 0x0⟩,
  ⟨0x314, 1, 0, 1, 0, 0x0, 0x0, 0x0, 0x0⟩,
  ⟨0x318, 1, 0, 1, 0, 0x0, 0x0, 0x1, 0x0⟩,
  ⟨0x31C, 1, 0, 1, 0, 0xFFFF, 0x0, 0x0, 0x64⟩]
/-- Words of POWER page 1. -/
def words_power1_0 : List WordRow := [⟨0x40, 1, 0, 1, 0, 0x0, 0x0, 0x0, 0x0⟩,
  ⟨0x44, 1, 0, 1, 0, 0x0, 0x0, 0x0, 0x0⟩,
  ⟨0x48, 1, 0, 1, 0, 0x0, 0x0, 0x0, 0x0⟩,
  ⟨0x4C, 1, 0, 1, 0, 0x1FF, 0x0, 0x0, 0x5F⟩,
  ⟨0x100, 6, 32, 1, 0, 0x0, 0x0, 0x0, 0xC80014⟩,
  ⟨0x104, 6, 32, 1, 0, 0x0, 0x0, 0x0, 0xA0014⟩,
  ⟨0x108, 6, 32, 1, 0, 0x0, 0x0, 0x0, 0x28000A⟩,
  ⟨0x10C, 6, 32, 1, 0, 0x0, 0x0, 0x0, 0x75300000⟩,
  ⟨0x110, 6, 32, 1, 0, 0x0, 0x0, 0x0, 0x1⟩,
  ⟨0x114, 6, 32, 1, 0, 0x0, 0x0, 0x0, 0x640000⟩,
  ⟨0x118, 6, 32, 1, 0, 0x0, 0x0, 0x0, 0xA0001⟩]
/-- Words of SNAP page 0. -/
def words_snap0_0 : List WordRow := [⟨0x40, 1, 0, 1, 0, 0x0, 0x0, 0xF, 0x0⟩,
  ⟨0x44, 1, 0, 1, 0, 0x7, 0x0, 0x0, 0x4⟩,
  ⟨0x48, 1, 0, 1, 0, 0x3FF, 0x0, 0x0, 0x2⟩,
  ⟨0x4C, 1, 0, 1, 0, 0xFFFFFFFF, 0x0, 0x0, 0x0⟩,
  ⟨0x50, 1, 0, 1, 0, 0xFFFFFFFF, 0x0, 0x0, 0x0⟩,
  ⟨0x54, 1, 0, 1, 0, 0xFF, 0x0, 0x0, 0x0⟩,
  ⟨0x58, 1, 0, 1, 0, 0x0, 0x0, 0x0, 0x1⟩,
  ⟨0x5C, 1, 0, 1, 0, 0x0, 0x0, 0x0, 0x0⟩,
  ⟨0x60, 1, 0, 1, 0, 0x0, 0x0, 0x0, 0x0⟩,
  ⟨0x64, 1, 0, 1, 0, 0x0, 0x0, 0x0, 0x0⟩,
  ⟨0x68, 1, 0, 1, 0, 0x0, 0x0, 0x0, 0x0⟩,
  ⟨0x6C, 1, 0, 1, 0, 0x0, 0x0, 0x0, 0x0⟩,
  ⟨0x70, 1, 0, 1, 0, 0x0, 0x0, 0x0, 0x0⟩,
  ⟨0x74, 1, 0, 1, 0, 0x0, 0x0, 0x0, 0x0⟩,
  ⟨0x78, 1, 0, 1, 0, 0x0, 0x0, 0x0, 0x0⟩,
  ⟨0x7C, 1, 0, 1, 0, 0x0, 0x0, 0x1, 0x0⟩]
/-- Words of DEBUG page 0. -/
def words_debug0_0 : List WordRow := [⟨0x40, 1, 0, 1, 0, 0x4, 0x0, 0xB, 0x0⟩,
  ⟨0x44, 1, 0, 1, 0, 0x0, 0x0, 0x0, 0x0⟩,
  ⟨0x48, 8, 4, 1, 0, 0x0, 0x0, 0x0, 0x0⟩,
  ⟨0x70, 1, 0, 1, 0, 0x0, 0x0, 0xFFFFFFFF, 0x0⟩,
  ⟨0x74, 1, 0, 1, 0, 0x1FFF, 0x0, 0x0, 0x0⟩]
/-- Words of MLANE page 0, part 1. -/
def words_mlane0_0 : List WordRow := [⟨0x800, 1, 0, 1, 0, 0x3F, 0x0, 0x0, 0x20⟩,
  ⟨0x804, 1, 0, 1, 0, 0x3FFFFFF, 0x0, 0x0, 0x0⟩,
  ⟨0x80C, 1, 0, 1, 0, 0x3FFFFFF, 0x0, 0x0, 0x0⟩,
  ⟨0x808, 1, 0, 1, 0, 0x3F, 0x0, 0x0, 0x0⟩,
  ⟨0x810, 1, 0, 1, 0, 0x7FFF, 0x0, 0x0, 0x0⟩,
  ⟨0x40, 1, 0, 1, 0, 0x3FFF, 0x0, 0x0, 0x8⟩,
  ⟨0x44, 1, 0, 1, 0, 0xFF, 0x0, 0x0, 0x10⟩,
  ⟨0x48, 1, 0, 1, 0, 0x7F7F7F7F, 0x0, 0x0, 0x0⟩,
  ⟨0x4C, 1, 0, 1, 0, 0x7F, 0x0, 0x0, 0x0⟩,
  ⟨0x50, 1, 0, 1, 0, 0x0, 0x0, 0x0, 0x0⟩,
  ⟨0x54, 1, 0, 1, 0, 0x0, 0x0, 0x0, 0x0⟩,
  ⟨0x58, 1, 0, 1, 0, 0x0, 0x0, 0x0, 0x0⟩,
  ⟨0x5C, 1, 0, 1, 0, 0x3F0F, 0x0, 0x0, 0x1404⟩,
  ⟨0x60, 1, 0, 1, 0, 0x0, 0x0, 0x0, 0x2B⟩,
  ⟨0x64, 1, 0, 1, 0, 0x3, 0x0, 0x0, 0x2⟩,
  ⟨0x68, 1, 0, 1, 0, 0xFF, 0x0, 0x100, 0x0⟩,
  ⟨0x6C, 1, 0, 1, 0, 0xFF7, 0x0, 0x8, 0x0⟩,
  ⟨0x70, 1, 0, 1, 0, 0xFFFFFFFF, 0x0, 0x0, 0xF4240⟩,
  ⟨0x74, 1, 0, 1, 0, 0x0, 0x0, 0x0, 0x0⟩,
  ⟨0x78, 1, 0, 1, 0, 0x0, 0x0, 0x0, 0x0⟩,
  ⟨0x7C, 1, 0, 1, 0, 0x0, 0x0, 0x0, 0x0⟩,
  ⟨0x80, 1, 0, 1, 0, 0x0, 0x0, 0x0, 0x0⟩,
  ⟨0x84, 1, 0, 1, 0, 0x0, 0x0, 0x0, 0x0⟩,
  ⟨0x88, 1, 0, 1, 0, 0x0, 0x0, 0x0, 0x0⟩]
/-- Words of MLANE page 0, part 2. -/
def words_mlane0_1 : List WordRow := [⟨0x8C, 1, 0, 1, 0, 0x0, 0x0, 0x0, 0x0⟩,
  ⟨0x90, 1, 0, 1, 0, 0x0, 0x0, 0x0, 0x0⟩,
  ⟨0x94, 1, 0, 1, 0, 0x0, 0x0, 0x1, 0x0⟩]
/-- Words of NLANE page 0, part 1. -/
def words_nlane0_0 : List WordRow := [⟨0x800, 1, 0, 1, 0, 0x7F, 0x0, 0x0, 0x60⟩,
  ⟨0x804, 1, 0, 1, 0, 0x7, 0x0, 0x0, 0x4⟩,
  ⟨0x808, 1, 0, 1, 0, 0xF, 0x0, 0x0, 0x0⟩,
  ⟨0x40, 1, 0, 1, 0, 0x3F3F3F3F, 0x0, 0x0, 0x0⟩,
  ⟨0x44, 1, 0, 1, 0, 0xFF, 0x0, 0x0, 0x10⟩,
  ⟨0x48, 1, 0, 1, 0, 0x7F, 0x0, 0x0, 0x0⟩,
  ⟨0x50, 1, 0, 1, 0, 0x0, 0x0, 0x0, 0x0⟩,
  ⟨0x58, 1, 0, 1, 0, 0x0, 0x0, 0x0, 0x0⟩,
  ⟨0x5C, 1, 0, 1, 0, 0x3F0F, 0x0, 0x0, 0x1404⟩,
  ⟨0x60, 1, 0, 1, 0, 0x0, 0x0, 0x0, 0x2B⟩,
  ⟨0x64, 1, 0, 1, 0, 0x3, 0x0, 0x0, 0x2⟩,
  ⟨0x68, 1, 0, 1, 0, 0xFF, 0x0, 0x100, 0x0⟩,
  ⟨0x6C, 1, 0, 1, 0, 0xFF7, 0x0, 0x8, 0x0⟩,
  ⟨0x70, 1, 0, 1, 0, 0xFFFFFFFF, 0x0, 0x0, 0xF4240⟩,
  ⟨0x74, 1, 0, 1, 0, 0x0, 0x0, 0x0, 0x0⟩,
  ⟨0x78, 1, 0, 1, 0, 0x0, 0x0, 0x0, 0x0⟩,
  ⟨0x7C, 1, 0, 1, 0, 0x0, 0x0, 0x0, 0x0⟩,
  ⟨0x80, 1, 0, 1, 0, 0x0, 0x0, 0x0, 0x0⟩,
  ⟨0x84, 1, 0, 1, 0, 0x0, 0x0, 0x0, 0x0⟩,
  ⟨0x94, 1, 0, 1, 0, 0x0, 0x0, 0x1, 0x0⟩,
  ⟨0xA0, 1, 0, 1, 0, 0x3FFFFFFF, 0x0, 0x0, 0x0⟩,
  ⟨0xA4, 1, 0, 1, 0, 0x3FFFFC00, 0x0, 0x0, 0x100⟩,
  ⟨0xA8, 1, 0, 1, 0, 0x3FFFFFFF, 0x0, 0x0, 0x0⟩,
  ⟨0xAC, 1, 0, 1, 0, 0x3FFFFFFF, 0x0, 0x0, 0x0⟩]
/-- Words of NLANE page 0, part 2. -/
def words_nlane0_1 : List WordRow := [⟨0xB0, 1, 0, 1, 0, 0x0, 0x0, 0x0, 0x0⟩,
  ⟨0xB4, 1, 0, 1, 0, 0x0, 0x0, 0x0, 0x100⟩,
  ⟨0xB8, 1, 0, 1, 0, 0x0, 0x0, 0x0, 0x0⟩,
  ⟨0xBC, 1, 0, 1, 0, 0x0, 0x0, 0x0, 0x0⟩]
/-- Words of NPORT page 0. -/
def words_nport0_0 : List WordRow := [⟨0x800, 1, 0, 1, 0, 0x7, 0x0, 0x0, 0x0⟩,
  ⟨0x840, 4, 64, 1, 0, 0xFFFFFF7, 0x0, 0x0, 0x8AE0000⟩,
  ⟨0x844, 4, 64, 1, 0, 0xFFFFFFFF, 0x0, 0x0, 0x0⟩,
  ⟨0x848, 4, 64, 1, 0, 0xFFFF, 0x0, 0x0, 0x0⟩,
  ⟨0x84C, 4, 4, 4, 64, 0xFFFFFFFF, 0x0, 0x0, 0x0⟩,
  ⟨0x85C, 4, 4, 4, 64, 0xFFFFFFFF, 0x0, 0x0, 0x0⟩,
  ⟨0x86C, 4, 64, 1, 0, 0xFFFF00FF, 0x0, 0x0, 0x51540040⟩,
  ⟨0x940, 4, 4, 1, 0, 0xFFFFFFFF, 0x0, 0x0, 0x0⟩,
  ⟨0x950, 4, 4, 1, 0, 0xFFFFFFFF, 0x0, 0x0, 0x0⟩,
  ⟨0x40, 1, 0, 1, 0, 0x0, 0x0, 0x0, 0x0⟩,
  ⟨0x80, 4, 32, 1, 0, 0x0, 0x0, 0x0, 0x0⟩,
  ⟨0x84, 4, 32, 1, 0, 0x0, 0x0, 0x0, 0x0⟩,
  ⟨0x88, 4, 32, 1, 0, 0x0, 0x0, 0x0, 0x0⟩,
  ⟨0x8C, 4, 32, 1, 0, 0x0, 0x0, 0x0, 0x0⟩,
  ⟨0x90, 4, 32, 1, 0, 0x0, 0x0, 0x0, 0x0⟩,
  ⟨0x94, 4, 32, 1, 0, 0x0, 0x0, 0x0, 0x0⟩,
  ⟨0x98, 4, 32, 1, 0, 0x0, 0x0, 0x0, 0x0⟩,
  ⟨0x100, 1, 0, 1, 0, 0x0, 0x0, 0x1, 0x0⟩]
/-- Words of INGEST page 0, part 1. -/
def words_ingest0_0 : List WordRow := [⟨0x900, 1, 0, 1, 0, 0x1F, 0x0, 0x0, 0x0⟩,
  ⟨0x904, 1, 0, 1, 0, 0xFFFFFFFF, 0x0, 0x0, 0x1E0258⟩,
  ⟨0x908, 1, 0, 1, 0, 0xFFFFFFFF, 0x0, 0x0, 0x0⟩,
  ⟨0x90C, 1, 0, 1, 0, 0xFFFFFFFF, 0x0, 0x0, 0x0⟩,
  ⟨0x910, 1, 0, 1, 0, 0xFFFFFFFF, 0x0, 0x0, 0x0⟩,
  ⟨0x914, 1, 0, 1, 0, 0x3F, 0x0, 0x0, 0x0⟩,
  ⟨0x100, 1, 0, 1, 0, 0x0, 0x0, 0x0, 0x0⟩,
  ⟨0x104, 1, 0, 1, 0, 0x0, 0x0, 0x0, 0x0⟩,
  ⟨0x108, 1, 0, 1, 0, 0x0, 0x0, 0x0, 0x0⟩,
  ⟨0x10C, 1, 0, 1, 0, 0x0, 0x0, 0x0, 0x0⟩,
  ⟨0x110, 1, 0, 1, 0, 0x0, 0x0, 0x0, 0x0⟩,
  ⟨0x114, 1, 0, 1, 0, 0x0, 0x0, 0x0, 0x0⟩,
  ⟨0x118, 1, 0, 1, 0, 0x0, 0x0, 0x0, 0x0⟩,
  ⟨0x11C, 1, 0, 1, 0, 0x0, 0x0, 0x0, 0x0⟩,
  ⟨0x120, 1, 0, 1, 0, 0x0, 0x0, 0x1, 0x0⟩,
  ⟨0x800, 1, 0, 1, 0, 0x3F, 0x0, 0x0, 0x0⟩,
  ⟨0x804, 1, 0, 1, 0, 0x7FF777F, 0x0, 0x0, 0x0⟩,
  ⟨0x808, 1, 0, 1, 0, 0x1F7, 0x0, 0x0, 0x1F0⟩,
  ⟨0x80C, 1, 0, 1, 0, 0x1F, 0x0, 0x0, 0x1⟩,
  ⟨0x810, 1, 0, 1, 0, 0x3FFF3FFF, 0x0, 0x0, 0x0⟩,
  ⟨0x814, 1, 0, 1, 0, 0x7F, 0x0, 0x0, 0x4⟩,
  ⟨0x818, 1, 0, 1, 0, 0xFFFFFFFF, 0x0, 0x0, 0x0⟩,
  ⟨0x81C, 1, 0, 1, 0, 0xFFFFFFFF, 0x0, 0x0, 0x0⟩,
  ⟨0x820, 4, 4, 1, 0, 0xFFFFFFFF, 0x0, 0x0, 0x0⟩]
/-- Words of INGEST page 0, part 2. -/
def words_ingest0_1 : List WordRow := [⟨0x830, 4, 4, 1, 0, 0xFFFFFFFF, 0x0, 0x0, 0x0⟩,
  ⟨0x840, 1, 0, 1, 0, 0xFFFFFFFF, 0x0, 0x0, 0x0⟩,
  ⟨0x844, 1, 0, 1, 0, 0xFFFFFFFF, 0x0, 0x0, 0x0⟩,
  ⟨0x848, 1, 0, 1, 0, 0xFF, 0x0, 0x0, 0x0⟩,
  ⟨0x84C, 1, 0, 1, 0, 0xFFFF, 0x0, 0x0, 0x3E8⟩,
  ⟨0x850, 1, 0, 1, 0, 0xFF3FFF, 0x0, 0x0, 0x0⟩,
  ⟨0x40, 1, 0, 1, 0, 0x0, 0x0, 0x0, 0x0⟩,
  ⟨0x44, 1, 0, 1, 0, 0x0, 0x0, 0x0, 0x0⟩,
  ⟨0x48, 1, 0, 1, 0, 0x0, 0x0, 0x0, 0x0⟩,
  ⟨0x4C, 1, 0, 1, 0, 0x0, 0x0, 0x0, 0x0⟩,
  ⟨0x50, 1, 0, 1, 0, 0x0, 0x0, 0x0, 0x0⟩,
  ⟨0x54, 1, 0, 1, 0, 0x0, 0x0, 0x0, 0x0⟩,
  ⟨0x58, 1, 0, 1, 0, 0x0, 0x0, 0x0, 0x0⟩,
  ⟨0x5C, 1, 0, 1, 0, 0x0, 0x0, 0x0, 0x0⟩,
  ⟨0x60, 1, 0, 1, 0, 0x0, 0x0, 0x0, 0x0⟩,
  ⟨0x64, 1, 0, 1, 0, 0x0, 0x0, 0x0, 0x0⟩,
  ⟨0x68, 1, 0, 1, 0, 0x0, 0x0, 0x0, 0x0⟩,
  ⟨0x6C, 1, 0, 1, 0, 0x0, 0x0, 0x0, 0x0⟩,
  ⟨0x70, 1, 0, 1, 0, 0x0, 0x0, 0x0, 0x0⟩,
  ⟨0x74, 1, 0, 1, 0, 0x0, 0x0, 0x0, 0x0⟩,
  ⟨0x78, 1, 0, 1, 0, 0x0, 0x0, 0x0, 0x0⟩,
  ⟨0x7C, 1, 0, 1, 0, 0x0, 0x0, 0x0, 0xFFFFFFFF⟩,
  ⟨0x84, 1, 0, 1, 0, 0x0, 0x0, 0x1, 0x0⟩,
  ⟨0x88, 1, 0, 1, 0, 0xFFC, 0x0, 0x0, 0x0⟩]
/-- Words of INGEST page 0, part 3. -/
def words_ingest0_2 : List WordRow := [⟨0x8C, 1, 0, 1, 0, 0xFFFFFFFF, 0x0, 0x0, 0x0⟩,
  ⟨0x90, 1, 0, 1, 0, 0xC, 0x0, 0x3, 0x8⟩,
  ⟨0x94, 1, 0, 1, 0, 0xFFFF, 0x0, 0x0, 0xC8⟩,
  ⟨0xA0, 1, 0, 1, 0, 0xFFFFFFC0, 0x0, 0x0, 0x0⟩,
  ⟨0xA4, 1, 0, 1, 0, 0xFFFFFFFF, 0x0, 0x0, 0x0⟩,
  ⟨0xA8, 1, 0, 1, 0, 0x1FFF, 0x0, 0x0, 0x0⟩,
  ⟨0xAC, 1, 0, 1, 0, 0xFFF, 0x0, 0x0, 0x0⟩,
  ⟨0xB0, 1, 0, 1, 0, 0x0, 0x0, 0x0, 0x0⟩,
  ⟨0xB4, 1, 0, 1, 0, 0x7, 0x0, 0x0, 0x0⟩,
  ⟨0xB8, 1, 0, 1, 0, 0x0, 0x0, 0x0, 0x0⟩,
  ⟨0xC0, 1, 0, 1, 0, 0x0, 0x0, 0x0, 0x0⟩,
  ⟨0xC4, 1, 0, 1, 0, 0x0, 0x0, 0x0, 0x0⟩,
  ⟨0xC8, 1, 0, 1, 0, 0x0, 0x0, 0x0, 0x0⟩]
/-- Words of ENGINE page 0. -/
def words_engine0_0 : List WordRow := [⟨0x40, 1, 0, 1, 0, 0x0, 0x0, 0x0, 0x0⟩,
  ⟨0x44, 1, 0, 1, 0, 0x0, 0x0, 0x0, 0x0⟩,
  ⟨0x48, 1, 0, 1, 0, 0x0, 0x0, 0x0, 0x0⟩,
  ⟨0x4C, 1, 0, 1, 0, 0x0, 0x0, 0x0, 0x0⟩,
  ⟨0x50, 1, 0, 1, 0, 0x0, 0x0, 0x0, 0x0⟩,
  ⟨0x54, 1, 0, 1, 0, 0x0, 0x0, 0x0, 0x0⟩,
  ⟨0x58, 1, 0, 1, 0, 0x0, 0x0, 0x0, 0x0⟩,
  ⟨0x5C, 1, 0, 1, 0, 0x0, 0x0, 0x0, 0x0⟩,
  ⟨0x60, 1, 0, 1, 0, 0x0, 0x0, 0x0, 0x0⟩,
  ⟨0x64, 1, 0, 1, 0, 0x0, 0x0, 0x0, 0x0⟩,
  ⟨0x70, 1, 0, 1, 0, 0xFFF, 0x0, 0x0, 0x0⟩,
  ⟨0x74, 1, 0, 1, 0, 0xFFFFFFFF, 0x0, 0x0, 0x0⟩,
  ⟨0x78, 1, 0, 1, 0, 0x0, 0x1, 0x0, 0x0⟩,
  ⟨0x7C, 1, 0, 1, 0, 0x0, 0x0, 0x1, 0x0⟩]
/-- Words of MEMSW page 0. -/
def words_memsw0_0 : List WordRow := [⟨0x40, 1, 0, 1, 0, 0xFFFFFFFF, 0x0, 0x0, 0x5C72986A⟩,
  ⟨0x44, 1, 0, 1, 0, 0xFFFF, 0x0, 0x0, 0x32⟩,
  ⟨0x48, 1, 0, 1, 0, 0x0, 0x0, 0x0, 0x0⟩,
  ⟨0x4C, 1, 0, 1, 0, 0x0, 0x0, 0x0, 0x0⟩,
  ⟨0x50, 1, 0, 1, 0, 0x0, 0x0, 0x0, 0x0⟩,
  ⟨0x54, 1, 0, 1, 0, 0x0, 0x0, 0x0, 0x0⟩,
  ⟨0x58, 4, 4, 1, 0, 0x0, 0x0, 0x0, 0x0⟩,
  ⟨0x68, 1, 0, 1, 0, 0xFF, 0x0, 0x0, 0x4⟩,
  ⟨0x6C, 1, 0, 1, 0, 0x7F, 0x0, 0x100, 0x0⟩,
  ⟨0x70, 1, 0, 1, 0, 0xFF01, 0x0, 0x0, 0x1801⟩,
  ⟨0x74, 1, 0, 1, 0, 0x0, 0x0, 0x0, 0x0⟩,
  ⟨0x80, 8, 4, 1, 0, 0x0, 0x0, 0x0, 0x0⟩,
  ⟨0xA0, 1, 0, 1, 0, 0x0, 0x0, 0x1, 0x0⟩]
/-- Words of TALON page 0. -/
def words_talon0_0 : List WordRow := [⟨0x800, 256, 4, 1, 0, 0xFFFF, 0x0, 0x0, 0x0⟩,
  ⟨0x40, 1, 0, 1, 0, 0x0, 0x0, 0x0, 0xFC00⟩,
  ⟨0x44, 1, 0, 1, 0, 0xFFFF, 0x0, 0x0, 0x0⟩,
  ⟨0x48, 1, 0, 1, 0, 0x0, 0x0, 0x0, 0x0⟩,
  ⟨0x4C, 1, 0, 1, 0, 0xFFFF, 0x0, 0x0, 0x0⟩,
  ⟨0x50, 1, 0, 1, 0, 0x0, 0x0, 0x0, 0x0⟩,
  ⟨0x54, 1, 0, 1, 0, 0xFFFF, 0x0, 0x0, 0x0⟩,
  ⟨0x58, 1, 0, 1, 0, 0x0, 0x0, 0x0, 0x0⟩,
  ⟨0x5C, 1, 0, 1, 0, 0x0, 0x0, 0x0, 0x0⟩,
  ⟨0x60, 1, 0, 1, 0, 0x0, 0x0, 0x0, 0x0⟩,
  ⟨0x64, 8, 4, 1, 0, 0x0, 0xFFFFFFFF, 0x0, 0x0⟩,
  ⟨0x84, 1, 0, 1, 0, 0x0, 0x0, 0x0, 0x0⟩,
  ⟨0x88, 1, 0, 1, 0, 0x0, 0x0, 0x0, 0x0⟩,
  ⟨0x8C, 1, 0, 1, 0, 0x0, 0x0, 0x0, 0x0⟩,
  ⟨0x90, 8, 4, 1, 0, 0x0, 0x0, 0x0, 0x0⟩,
  ⟨0xB0, 1, 0, 1, 0, 0x0, 0x0, 0x1, 0x0⟩]
/-- Words of LEDGER page 0. -/
def words_ledger0_0 : List WordRow := [⟨0x40, 1, 0, 1, 0, 0x2, 0x0, 0x5, 0x2⟩,
  ⟨0x44, 1, 0, 1, 0, 0x1, 0x0, 0x0, 0x1⟩,
  ⟨0x48, 1, 0, 1, 0, 0x0, 0x0, 0x0, 0x0⟩,
  ⟨0x4C, 1, 0, 1, 0, 0x0, 0x0, 0x0, 0x0⟩,
  ⟨0x50, 1, 0, 1, 0, 0x0, 0x0, 0x0, 0x0⟩,
  ⟨0x54, 1, 0, 1, 0, 0x0, 0x0, 0x0, 0x0⟩,
  ⟨0x58, 1, 0, 1, 0, 0x0, 0x0, 0x0, 0x0⟩,
  ⟨0x5C, 1, 0, 1, 0, 0x0, 0x0, 0x0, 0x0⟩,
  ⟨0x60, 1, 0, 1, 0, 0x0, 0x0, 0x0, 0x0⟩,
  ⟨0x64, 1, 0, 1, 0, 0x0, 0x0, 0x0, 0x0⟩]
/-- Words of RECORDER page 0. -/
def words_recorder0_0 : List WordRow := [⟨0x800, 1, 0, 1, 0, 0x3FFFFFF, 0x0, 0x0, 0x2806⟩,
  ⟨0x804, 1, 0, 1, 0, 0xFFFF, 0x0, 0x0, 0x0⟩,
  ⟨0x808, 1, 0, 1, 0, 0xFFFFFFFF, 0x0, 0x0, 0x0⟩,
  ⟨0x80C, 1, 0, 1, 0, 0xFFFFFFFF, 0x0, 0x0, 0x0⟩,
  ⟨0x40, 1, 0, 1, 0, 0x1, 0x0, 0x2, 0x0⟩,
  ⟨0x44, 1, 0, 1, 0, 0x0, 0x0, 0x0, 0x0⟩,
  ⟨0x48, 1, 0, 1, 0, 0x0, 0x0, 0x0, 0x0⟩,
  ⟨0x4C, 1, 0, 1, 0, 0x0, 0x0, 0x0, 0x0⟩,
  ⟨0x50, 1, 0, 1, 0, 0x0, 0x0, 0x0, 0x0⟩,
  ⟨0x54, 1, 0, 1, 0, 0x0, 0x0, 0x0, 0x0⟩,
  ⟨0x58, 1, 0, 1, 0, 0x0, 0x0, 0x0, 0x0⟩,
  ⟨0x5C, 1, 0, 1, 0, 0x0, 0x0, 0x0, 0x0⟩,
  ⟨0x60, 1, 0, 1, 0, 0x0, 0x0, 0x0, 0x0⟩,
  ⟨0x64, 1, 0, 1, 0, 0x0, 0x0, 0x0, 0x0⟩,
  ⟨0x68, 1, 0, 1, 0, 0x0, 0x0, 0x0, 0x0⟩,
  ⟨0x6C, 1, 0, 1, 0, 0x0, 0x0, 0x0, 0x0⟩,
  ⟨0x70, 1, 0, 1, 0, 0x0, 0x0, 0x1, 0x0⟩]
/-- Words of HEAD page 0. -/
def words_head0_0 : List WordRow := [⟨0x800, 1, 0, 1, 0, 0xFFFFFFFF, 0x0, 0x0, 0x0⟩,
  ⟨0x804, 1, 0, 1, 0, 0xFFFFFFFF, 0x0, 0x0, 0x0⟩,
  ⟨0x808, 1, 0, 1, 0, 0xBFFFFFFF, 0x0, 0x0, 0x0⟩,
  ⟨0x80C, 1, 0, 1, 0, 0xBFFFFFFF, 0x0, 0x0, 0x0⟩,
  ⟨0x810, 1, 0, 1, 0, 0xFFFFFFFF, 0x0, 0x0, 0x0⟩,
  ⟨0x814, 1, 0, 1, 0, 0xFFFFFFFF, 0x0, 0x0, 0x0⟩,
  ⟨0x818, 1, 0, 1, 0, 0xFFFFFFFF, 0x0, 0x0, 0x0⟩,
  ⟨0x81C, 1, 0, 1, 0, 0xFFFFFFFF, 0x0, 0x0, 0x0⟩,
  ⟨0x820, 1, 0, 1, 0, 0x3F, 0x0, 0x0, 0x9⟩,
  ⟨0x824, 1, 0, 1, 0, 0xFFFF00FF, 0x0, 0x0, 0x32000A⟩,
  ⟨0x828, 1, 0, 1, 0, 0x7F, 0x0, 0x0, 0x10⟩,
  ⟨0x40, 1, 0, 1, 0, 0x0, 0x0, 0x0, 0x0⟩,
  ⟨0x44, 1, 0, 1, 0, 0x0, 0x0, 0x0, 0x0⟩,
  ⟨0x48, 1, 0, 1, 0, 0x0, 0x0, 0x0, 0x0⟩,
  ⟨0x4C, 1, 0, 1, 0, 0x0, 0x0, 0x0, 0x0⟩,
  ⟨0x50, 1, 0, 1, 0, 0x0, 0x0, 0x0, 0x0⟩,
  ⟨0x54, 1, 0, 1, 0, 0x0, 0x0, 0x0, 0x0⟩,
  ⟨0x58, 1, 0, 1, 0, 0x0, 0x0, 0x0, 0x0⟩,
  ⟨0x60, 1, 0, 1, 0, 0x0, 0x0, 0x0, 0x0⟩,
  ⟨0x5C, 1, 0, 1, 0, 0x0, 0x0, 0x0, 0x0⟩,
  ⟨0x64, 1, 0, 1, 0, 0x0, 0x0, 0x1, 0x0⟩]
/-- Words of HEAD page 1. -/
def words_head1_0 : List WordRow := [⟨0x800, 16, 4, 1, 0, 0x83FF, 0x0, 0x0, 0x0⟩,
  ⟨0x840, 1, 0, 1, 0, 0xFFFFFFFF, 0x0, 0x0, 0x0⟩,
  ⟨0x844, 1, 0, 1, 0, 0xFFFF, 0x0, 0x0, 0x0⟩,
  ⟨0x848, 1, 0, 1, 0, 0x1, 0x0, 0x0, 0x0⟩,
  ⟨0x84C, 1, 0, 1, 0, 0x1FFF07FF, 0x0, 0x0, 0x10000400⟩,
  ⟨0x850, 1, 0, 1, 0, 0xFFFFFFFF, 0x0, 0x0, 0x0⟩,
  ⟨0x854, 1, 0, 1, 0, 0xFFFFFFFF, 0x0, 0x0, 0x0⟩,
  ⟨0x858, 1, 0, 1, 0, 0xFFFFFFFF, 0x0, 0x0, 0x0⟩,
  ⟨0x85C, 1, 0, 1, 0, 0x1F, 0x0, 0x0, 0x0⟩,
  ⟨0x860, 1, 0, 1, 0, 0xFFFFFFFF, 0x0, 0x0, 0x186A0⟩,
  ⟨0x864, 1, 0, 1, 0, 0xFFFFFFFF, 0x0, 0x0, 0xFFFF⟩,
  ⟨0x868, 1, 0, 1, 0, 0xFFFF, 0x0, 0x0, 0xFFFF⟩,
  ⟨0x40, 1, 0, 1, 0, 0x0, 0x0, 0x0, 0x0⟩,
  ⟨0x44, 1, 0, 1, 0, 0x0, 0x0, 0x0, 0x0⟩,
  ⟨0x48, 1, 0, 1, 0, 0x0, 0x0, 0x0, 0x0⟩,
  ⟨0x4C, 1, 0, 1, 0, 0x0, 0x0, 0x0, 0x0⟩,
  ⟨0x50, 1, 0, 1, 0, 0x0, 0x0, 0x0, 0x0⟩,
  ⟨0x54, 1, 0, 1, 0, 0x0, 0x0, 0x0, 0x0⟩,
  ⟨0x58, 1, 0, 1, 0, 0x0, 0x0, 0x0, 0x0⟩,
  ⟨0x5C, 1, 0, 1, 0, 0x0, 0x0, 0x0, 0x0⟩]
/-- Words of HEAD page 2. -/
def words_head2_0 : List WordRow := [⟨0x800, 4, 4, 1, 0, 0x3FF, 0x0, 0x0, 0x0⟩,
  ⟨0x40, 4, 4, 1, 0, 0x0, 0x0, 0x0, 0x0⟩,
  ⟨0x50, 4, 4, 1, 0, 0x0, 0x0, 0x0, 0x0⟩,
  ⟨0x60, 1, 0, 1, 0, 0x0, 0x0, 0x0, 0x0⟩,
  ⟨0x64, 1, 0, 1, 0, 0x0, 0x0, 0x0, 0x0⟩,
  ⟨0x68, 1, 0, 1, 0, 0x0, 0x0, 0x0, 0x0⟩,
  ⟨0x6C, 1, 0, 1, 0, 0x0, 0x0, 0x0, 0x0⟩,
  ⟨0x70, 1, 0, 1, 0, 0x0, 0x0, 0x1, 0x0⟩]
/-- Words of HEAD page 3. -/
def words_head3_0 : List WordRow := [⟨0x800, 1, 0, 1, 0, 0xFFF0FFF, 0x0, 0x0, 0xFFF⟩,
  ⟨0x804, 1, 0, 1, 0, 0xFFF, 0x0, 0x0, 0xFFF⟩,
  ⟨0x808, 1, 0, 1, 0, 0xFFFF, 0x0, 0x0, 0x206⟩,
  ⟨0x80C, 1, 0, 1, 0, 0x1FFFF, 0x0, 0x0, 0x100⟩,
  ⟨0x810, 1, 0, 1, 0, 0xFFFFFFFF, 0x0, 0x0, 0x0⟩,
  ⟨0x40, 1, 0, 1, 0, 0x0, 0x0, 0x0, 0x0⟩,
  ⟨0x44, 1, 0, 1, 0, 0x0, 0x0, 0x0, 0x0⟩,
  ⟨0x48, 1, 0, 1, 0, 0x0, 0x0, 0x0, 0x0⟩,
  ⟨0x4C, 1, 0, 1, 0, 0x0, 0x0, 0x0, 0x0⟩,
  ⟨0x50, 3, 4, 1, 0, 0x0, 0x0, 0x0, 0x0⟩,
  ⟨0x5C, 1, 0, 1, 0, 0x0, 0x0, 0x0, 0x0⟩,
  ⟨0x60, 1, 0, 1, 0, 0x0, 0x0, 0x0, 0x0⟩,
  ⟨0x64, 1, 0, 1, 0, 0x0, 0x0, 0x0, 0x0⟩,
  ⟨0x68, 1, 0, 1, 0, 0x0, 0x0, 0x1, 0x0⟩]
/-- Words of LAYER page 0, part 1. -/
def words_layer0_0 : List WordRow := [⟨0x900, 1, 0, 1, 0, 0x1F, 0x0, 0x0, 0x0⟩,
  ⟨0x904, 1, 0, 1, 0, 0xFFFFFFFF, 0x0, 0x0, 0x186A0⟩,
  ⟨0x908, 1, 0, 1, 0, 0xFFFFFFFF, 0x0, 0x0, 0xFFFF⟩,
  ⟨0x90C, 1, 0, 1, 0, 0xFFFF, 0x0, 0x0, 0xFFFF⟩,
  ⟨0x100, 1, 0, 1, 0, 0x0, 0x0, 0x0, 0x0⟩,
  ⟨0x104, 1, 0, 1, 0, 0x0, 0x0, 0x0, 0x0⟩,
  ⟨0x108, 1, 0, 1, 0, 0x0, 0x0, 0x0, 0x0⟩,
  ⟨0x10C, 1, 0, 1, 0, 0x0, 0x0, 0x0, 0x0⟩,
  ⟨0x110, 1, 0, 1, 0, 0x0, 0x0, 0x0, 0x0⟩,
  ⟨0x114, 1, 0, 1, 0, 0x0, 0x0, 0x1, 0x0⟩,
  ⟨0x118, 1, 0, 1, 0, 0x0, 0x0, 0x0, 0x0⟩,
  ⟨0x940, 1, 0, 1, 0, 0xFF01, 0x0, 0x0, 0x2000⟩,
  ⟨0x140, 1, 0, 1, 0, 0x0, 0x0, 0x0, 0x0⟩,
  ⟨0x144, 1, 0, 1, 0, 0x0, 0x0, 0x0, 0x0⟩,
  ⟨0x148, 1, 0, 1, 0, 0x0, 0x0, 0x0, 0x0⟩,
  ⟨0x14C, 1, 0, 1, 0, 0x0, 0x0, 0x0, 0x0⟩,
  ⟨0x150, 1, 0, 1, 0, 0x0, 0x0, 0x1, 0x0⟩,
  ⟨0x960, 1, 0, 1, 0, 0xFF, 0x0, 0x0, 0x1⟩,
  ⟨0x980, 1, 0, 1, 0, 0xFFFFF, 0x0, 0x0, 0x10000⟩,
  ⟨0x984, 1, 0, 1, 0, 0xFFFF, 0x0, 0x0, 0x44⟩,
  ⟨0x988, 1, 0, 1, 0, 0x3F, 0x0, 0x0, 0x6⟩,
  ⟨0x98C, 1, 0, 1, 0, 0xFFFFFFFF, 0x0, 0x0, 0x3C⟩,
  ⟨0x990, 1, 0, 1, 0, 0xFFFFFFFF, 0x0, 0x0, 0x1⟩,
  ⟨0x994, 1, 0, 1, 0, 0xFFFFFFFF, 0x0, 0x0, 0x2000⟩]
/-- Words of LAYER page 0, part 2. -/
def words_layer0_1 : List WordRow := [⟨0x998, 1, 0, 1, 0, 0xFFFFFFFF, 0x0, 0x0, 0x0⟩,
  ⟨0x99C, 1, 0, 1, 0, 0xFFFFFFFF, 0x0, 0x0, 0x2000⟩,
  ⟨0x9A0, 1, 0, 1, 0, 0xFFFFFFFF, 0x0, 0x0, 0x0⟩,
  ⟨0x9A4, 1, 0, 1, 0, 0xFFFF, 0x0, 0x0, 0x2000⟩,
  ⟨0x9A8, 3, 4, 1, 0, 0x1FFFF, 0x0, 0x0, 0x0⟩,
  ⟨0x9B4, 3, 4, 1, 0, 0x1FFFF, 0x0, 0x0, 0x0⟩,
  ⟨0x160, 1, 0, 1, 0, 0x0, 0x0, 0x0, 0x0⟩,
  ⟨0x164, 1, 0, 1, 0, 0x0, 0x0, 0x0, 0x0⟩,
  ⟨0x168, 1, 0, 1, 0, 0x0, 0x0, 0x0, 0x0⟩,
  ⟨0x16C, 1, 0, 1, 0, 0x0, 0x0, 0x0, 0x0⟩,
  ⟨0x170, 1, 0, 1, 0, 0x0, 0x0, 0x1, 0x0⟩,
  ⟨0x180, 1, 0, 1, 0, 0x0, 0x0, 0x0, 0x0⟩,
  ⟨0x184, 1, 0, 1, 0, 0x0, 0x0, 0x0, 0x0⟩,
  ⟨0x188, 1, 0, 1, 0, 0x0, 0x0, 0x0, 0x0⟩,
  ⟨0x800, 1, 0, 1, 0, 0xFF, 0x0, 0x0, 0x0⟩,
  ⟨0x804, 1, 0, 1, 0, 0xFFFFFFFF, 0x0, 0x0, 0x0⟩,
  ⟨0x808, 1, 0, 1, 0, 0xFFFFFFFF, 0x0, 0x0, 0x0⟩,
  ⟨0x80C, 1, 0, 1, 0, 0xFFFFFFFF, 0x0, 0x0, 0x0⟩,
  ⟨0x810, 1, 0, 1, 0, 0xFFFFFFFF, 0x0, 0x0, 0x0⟩,
  ⟨0x814, 1, 0, 1, 0, 0x1FFF0007, 0x0, 0x0, 0x10000000⟩,
  ⟨0x818, 1, 0, 1, 0, 0x1, 0x0, 0x0, 0x0⟩,
  ⟨0x81C, 1, 0, 1, 0, 0x3, 0x0, 0x0, 0x0⟩,
  ⟨0x820, 1, 0, 1, 0, 0xFFFFFFFF, 0x0, 0x0, 0x2000⟩,
  ⟨0x824, 1, 0, 1, 0, 0xFFFFFFFF, 0x0, 0x0, 0x0⟩]
/-- Words of LAYER page 0, part 3. -/
def words_layer0_2 : List WordRow := [⟨0x828, 1, 0, 1, 0, 0xFFFFFFFF, 0x0, 0x0, 0x2000⟩,
  ⟨0x82C, 1, 0, 1, 0, 0xFFFFFFFF, 0x0, 0x0, 0x0⟩,
  ⟨0x830, 1, 0, 1, 0, 0xFFFF, 0x0, 0x0, 0x2000⟩,
  ⟨0x834, 3, 4, 1, 0, 0x1FFF1FFF, 0x0, 0x0, 0x0⟩,
  ⟨0x1A0, 1, 0, 1, 0, 0x0, 0x0, 0x0, 0x0⟩,
  ⟨0x1A4, 1, 0, 1, 0, 0x0, 0x0, 0x0, 0x0⟩,
  ⟨0x1A8, 1, 0, 1, 0, 0x0, 0x0, 0x0, 0x0⟩,
  ⟨0x1AC, 1, 0, 1, 0, 0x0, 0x0, 0x0, 0x0⟩,
  ⟨0x1B0, 1, 0, 1, 0, 0x0, 0x0, 0x0, 0x0⟩,
  ⟨0x1B4, 1, 0, 1, 0, 0x0, 0x0, 0x1, 0x0⟩]
/-- Words of OPORT page 0. -/
def words_oport0_0 : List WordRow := [⟨0x800, 1, 0, 1, 0, 0x1FFFFFFF, 0x0, 0x0, 0x0⟩,
  ⟨0x804, 1, 0, 1, 0, 0x1F, 0x0, 0x0, 0x0⟩,
  ⟨0x808, 1, 0, 1, 0, 0x1F, 0x0, 0x0, 0x0⟩,
  ⟨0x80C, 1, 0, 1, 0, 0xFFFFFFFF, 0x0, 0x0, 0x2000⟩,
  ⟨0x810, 1, 0, 1, 0, 0xFFFFFFFF, 0x0, 0x0, 0x0⟩,
  ⟨0x814, 1, 0, 1, 0, 0xFFFFFFFF, 0x0, 0x0, 0x2000⟩,
  ⟨0x818, 1, 0, 1, 0, 0xFFFFFFFF, 0x0, 0x0, 0x0⟩,
  ⟨0x81C, 1, 0, 1, 0, 0xFFFF, 0x0, 0x0, 0x2000⟩,
  ⟨0x820, 3, 4, 1, 0, 0x1FFF1FFF, 0x0, 0x0, 0x0⟩,
  ⟨0x82C, 1, 0, 1, 0, 0xFFF0FFF, 0x0, 0x0, 0x2000200⟩,
  ⟨0x830, 1, 0, 1, 0, 0xFFF, 0x0, 0x0, 0x200⟩,
  ⟨0x40, 1, 0, 1, 0, 0x0, 0x0, 0x0, 0x8⟩,
  ⟨0x44, 1, 0, 1, 0, 0x0, 0x0, 0x0, 0x0⟩,
  ⟨0x48, 1, 0, 1, 0, 0x0, 0x0, 0x0, 0x0⟩,
  ⟨0x4C, 1, 0, 1, 0, 0xFFFFF7E, 0x0, 0x1, 0x0⟩,
  ⟨0x50, 4, 4, 1, 0, 0xFFFFFFFF, 0x0, 0x0, 0x0⟩,
  ⟨0x60, 1, 0, 1, 0, 0x0, 0x0, 0x0, 0x0⟩,
  ⟨0x64, 1, 0, 1, 0, 0x0, 0x0, 0x1, 0x0⟩]
/-- Words of SENDV page 0. -/
def words_sendV0_0 : List WordRow := [⟨0x800, 16, 64, 1, 0, 0x3FFFFF, 0x0, 0x0, 0x40000⟩,
  ⟨0x804, 4, 4, 16, 64, 0xFFFFFFFF, 0x0, 0x0, 0x0⟩,
  ⟨0x814, 4, 4, 16, 64, 0xFFFFFFFF, 0x0, 0x0, 0x0⟩,
  ⟨0x824, 16, 64, 1, 0, 0xFFFFFFFF, 0x0, 0x0, 0x0⟩,
  ⟨0x828, 16, 64, 1, 0, 0xFFFFFFFF, 0x0, 0x0, 0x0⟩,
  ⟨0x82C, 16, 64, 1, 0, 0x3F7F, 0x0, 0x0, 0x2260⟩,
  ⟨0x40, 16, 48, 1, 0, 0x0, 0x0, 0x0, 0x0⟩,
  ⟨0x44, 16, 48, 1, 0, 0x0, 0x0, 0x0, 0x0⟩,
  ⟨0x48, 16, 48, 1, 0, 0x0, 0x0, 0x0, 0x0⟩,
  ⟨0x4C, 16, 48, 1, 0, 0x0, 0x0, 0x0, 0x0⟩,
  ⟨0x3F0, 1, 0, 1, 0, 0x0, 0x0, 0xFFFF, 0x0⟩]
/-- Words of SENDT page 0. -/
def words_sendT0_0 : List WordRow := [⟨0x800, 16, 64, 1, 0, 0x7FFFFFF, 0x0, 0x0, 0x1E00000⟩,
  ⟨0x804, 4, 4, 16, 64, 0xFFFFFFFF, 0x0, 0x0, 0x0⟩,
  ⟨0x814, 4, 4, 16, 64, 0xFFFFFFFF, 0x0, 0x0, 0x0⟩,
  ⟨0x824, 16, 64, 1, 0, 0xFFFFFFFF, 0x0, 0x0, 0x0⟩,
  ⟨0x40, 16, 48, 1, 0, 0x0, 0x0, 0x0, 0x0⟩,
  ⟨0x44, 16, 48, 1, 0, 0x0, 0x0, 0x0, 0x0⟩,
  ⟨0x48, 16, 48, 1, 0, 0x0, 0x0, 0x0, 0x0⟩,
  ⟨0x4C, 16, 48, 1, 0, 0x0, 0x0, 0x0, 0x0⟩,
  ⟨0x50, 16, 48, 1, 0, 0x0, 0x0, 0x0, 0x0⟩,
  ⟨0x3F0, 1, 0, 1, 0, 0x0, 0x0, 0xFFFF, 0x0⟩]
/-- Words of AUDIO page 0. -/
def words_audio0_0 : List WordRow := [⟨0x800, 64, 4, 1, 0, 0x7FFFF, 0x0, 0x0, 0x180C0⟩,
  ⟨0x900, 64, 4, 1, 0, 0xFFFFFFFF, 0x0, 0x0, 0xC80⟩,
  ⟨0xA00, 1, 0, 1, 0, 0xFF, 0x0, 0x0, 0x30⟩,
  ⟨0x40, 1, 0, 1, 0, 0x0, 0x0, 0x0, 0x0⟩,
  ⟨0x44, 1, 0, 1, 0, 0x0, 0x0, 0x0, 0x0⟩,
  ⟨0x48, 1, 0, 1, 0, 0x0, 0x0, 0x0, 0x0⟩,
  ⟨0x4C, 1, 0, 1, 0, 0x3F, 0x0, 0x100, 0x0⟩,
  ⟨0x100, 64, 4, 1, 0, 0x0, 0x0, 0x0, 0x0⟩,
  ⟨0x200, 1, 0, 1, 0, 0x0, 0x0, 0x0, 0x0⟩,
  ⟨0x204, 1, 0, 1, 0, 0x0, 0x0, 0x1, 0x0⟩]
/-- Words of AUDIO page 1. -/
def words_audio1_0 : List WordRow := [⟨0x800, 16, 4, 1, 0, 0xFFF7F, 0x0, 0x0, 0x3E800⟩,
  ⟨0x40, 16, 48, 1, 0, 0x0, 0x0, 0x0, 0x2⟩,
  ⟨0x44, 16, 48, 1, 0, 0x0, 0x0, 0x0, 0x0⟩,
  ⟨0x48, 6, 4, 16, 48, 0x0, 0x0, 0x0, 0x0⟩,
  ⟨0x60, 16, 48, 1, 0, 0x0, 0x0, 0x0, 0x0⟩,
  ⟨0x64, 16, 48, 1, 0, 0x0, 0x0, 0x0, 0x0⟩,
  ⟨0x68, 16, 48, 1, 0, 0x0, 0x0, 0x0, 0x0⟩,
  ⟨0x6C, 16, 48, 1, 0, 0x0, 0x0, 0x0, 0x0⟩,
  ⟨0x3F0, 1, 0, 1, 0, 0x0, 0x0, 0xFFFF, 0x0⟩]
/-- Words of AUDIO page 2. -/
def words_audio2_0 : List WordRow := [⟨0x800, 16, 4, 1, 0, 0x3FFFFFF, 0x0, 0x0, 0x60000⟩,
  ⟨0x840, 6, 4, 16, 24, 0xFFFFFFFF, 0x0, 0x0, 0x0⟩,
  ⟨0x40, 16, 4, 1, 0, 0x0, 0x0, 0x0, 0x0⟩,
  ⟨0x80, 16, 4, 1, 0, 0x0, 0x0, 0x0, 0x0⟩,
  ⟨0x3F0, 1, 0, 1, 0, 0x0, 0x0, 0xFFFF, 0x0⟩]
/-- Words of AUDIO page 3. -/
def words_audio3_0 : List WordRow := [⟨0x800, 256, 4, 1, 0, 0x3FF03FF, 0x0, 0x0, 0x3FF03FF⟩,
  ⟨0x40, 1, 0, 1, 0, 0x1FF, 0x0, 0x0, 0x0⟩,
  ⟨0x44, 1, 0, 1, 0, 0x0, 0x0, 0x0, 0x0⟩]
/-- Words of AUDIO page 4. -/
def words_audio4_0 : List WordRow := [⟨0x800, 128, 4, 1, 0, 0x3FFFF, 0x0, 0x0, 0x0⟩,
  ⟨0xA00, 128, 4, 1, 0, 0x1FF, 0x0, 0x0, 0x0⟩,
  ⟨0x40, 128, 4, 1, 0, 0x0, 0x0, 0x0, 0x0⟩,
  ⟨0x300, 1, 0, 1, 0, 0x7F, 0x0, 0x0, 0x0⟩,
  ⟨0x304, 1, 0, 1, 0, 0x0, 0x0, 0x0, 0x0⟩,
  ⟨0x308, 1, 0, 1, 0, 0x0, 0x0, 0x0, 0x0⟩,
  ⟨0x30C, 1, 0, 1, 0, 0x0, 0x0, 0x0, 0x0⟩,
  ⟨0x310, 1, 0, 1, 0, 0x0, 0x0, 0x0, 0x0⟩,
  ⟨0x314, 1, 0, 1, 0, 0x0, 0x0, 0x0, 0x0⟩,
  ⟨0x318, 1, 0, 1, 0, 0x0, 0x0, 0x0, 0x0⟩,
  ⟨0x31C, 1, 0, 1, 0, 0x0, 0x0, 0x0, 0x0⟩,
  ⟨0x320, 1, 0, 1, 0, 0x0, 0x0, 0x0, 0x0⟩,
  ⟨0x324, 1, 0, 1, 0, 0x0, 0x0, 0x0, 0x0⟩,
  ⟨0x328, 1, 0, 1, 0, 0x0, 0x0, 0x3, 0x0⟩,
  ⟨0x340, 4, 4, 1, 0, 0x0, 0xFFFFFFFF, 0x0, 0x0⟩]
/-- Words of AUDIO page 5. -/
def words_audio5_0 : List WordRow := [⟨0x800, 128, 8, 1, 0, 0xFFFFFFFF, 0x0, 0x0, 0x3⟩,
  ⟨0x804, 128, 8, 1, 0, 0xFFFFFFFF, 0x0, 0x0, 0x0⟩]
/-- Words of AUDIO page 6. -/
def words_audio6_0 : List WordRow := [⟨0x800, 128, 4, 1, 0, 0x1FFFFFF, 0x0, 0x0, 0x0⟩,
  ⟨0xA00, 128, 4, 1, 0, 0x1FF, 0x0, 0x0, 0x0⟩,
  ⟨0x40, 128, 4, 1, 0, 0x0, 0x0, 0x0, 0x0⟩]
/-- Words of AUDIO page 7. -/
def words_audio7_0 : List WordRow := [⟨0x800, 4, 4, 1, 0, 0xFFFFFFFF, 0x0, 0x0, 0x0⟩,
  ⟨0x810, 4, 4, 1, 0, 0xFFFFFFFF, 0x0, 0x0, 0x0⟩,
  ⟨0x820, 64, 12, 1, 0, 0x7FFFFF, 0x0, 0x0, 0x458400⟩,
  ⟨0x824, 64, 12, 1, 0, 0xFFFFFFFF, 0x0, 0x0, 0x0⟩,
  ⟨0x828, 64, 12, 1, 0, 0xFFFFFFFF, 0x0, 0x0, 0x0⟩,
  ⟨0xB20, 1, 0, 1, 0, 0xFFFFFFFF, 0x0, 0x0, 0x0⟩,
  ⟨0x40, 64, 4, 1, 0, 0x0, 0x0, 0x0, 0x0⟩,
  ⟨0x3F0, 1, 0, 1, 0, 0x0, 0x0, 0xFFFFFFFF, 0x0⟩,
  ⟨0x3F4, 1, 0, 1, 0, 0x0, 0x0, 0xFFFFFFFF, 0x0⟩]
/-- Words of WITNESS page 0. -/
def words_witness0_0 : List WordRow := [⟨0x800, 16, 16, 1, 0, 0xFFFFFFFF, 0x0, 0x0, 0x0⟩,
  ⟨0x804, 16, 16, 1, 0, 0xFFFFFFFF, 0x0, 0x0, 0x0⟩,
  ⟨0x808, 16, 16, 1, 0, 0xF7, 0x0, 0x0, 0x0⟩,
  ⟨0x80C, 16, 16, 1, 0, 0xFFFFFFFF, 0x0, 0x0, 0x0⟩,
  ⟨0x900, 1, 0, 1, 0, 0xFF, 0x0, 0x0, 0x1⟩,
  ⟨0x40, 16, 4, 1, 0, 0x0, 0x0, 0x0, 0x0⟩,
  ⟨0x80, 16, 4, 1, 0, 0x0, 0x0, 0x0, 0x0⟩,
  ⟨0xC0, 1, 0, 1, 0, 0x0, 0x0, 0x0, 0x0⟩,
  ⟨0xC4, 1, 0, 1, 0, 0x0, 0x0, 0x0, 0x0⟩,
  ⟨0xC8, 1, 0, 1, 0, 0x0, 0x0, 0x1, 0x0⟩,
  ⟨0xCC, 1, 0, 1, 0, 0x0, 0x0, 0x0, 0x0⟩,
  ⟨0x100, 16, 4, 1, 0, 0x0, 0x0, 0x0, 0x0⟩,
  ⟨0x140, 16, 4, 1, 0, 0x0, 0x0, 0x0, 0x0⟩,
  ⟨0x180, 1, 0, 1, 0, 0x0, 0x0, 0x0, 0x0⟩,
  ⟨0x184, 1, 0, 1, 0, 0x0, 0x0, 0x1, 0x0⟩]
/-- Words of WITCHAIN page 0. -/
def words_witChain0_0 : List WordRow := [⟨0x800, 1, 0, 1, 0, 0x1, 0x0, 0x0, 0x0⟩,
  ⟨0x804, 1, 0, 1, 0, 0x7FF, 0x0, 0x0, 0x0⟩,
  ⟨0x808, 1, 0, 1, 0, 0xFFFF000F, 0x0, 0x0, 0x0⟩,
  ⟨0x80C, 4, 4, 1, 0, 0xFFFFFFFF, 0x0, 0x0, 0x0⟩,
  ⟨0x40, 1, 0, 1, 0, 0x0, 0x0, 0x0, 0x1⟩,
  ⟨0x44, 1, 0, 1, 0, 0x0, 0x0, 0x0, 0x0⟩,
  ⟨0x48, 1, 0, 1, 0, 0x0, 0x0, 0x0, 0x0⟩,
  ⟨0x4C, 1, 0, 1, 0, 0x0, 0x0, 0x0, 0x0⟩,
  ⟨0x50, 1, 0, 1, 0, 0x0, 0x0, 0x0, 0x0⟩,
  ⟨0x54, 1, 0, 1, 0, 0x0, 0x0, 0x0, 0x0⟩,
  ⟨0x58, 1, 0, 1, 0, 0x0, 0x0, 0x0, 0x0⟩,
  ⟨0x5C, 1, 0, 1, 0, 0x0, 0x0, 0x0, 0x0⟩,
  ⟨0x60, 1, 0, 1, 0, 0x0, 0x0, 0x0, 0x0⟩,
  ⟨0x64, 1, 0, 1, 0, 0x0, 0x0, 0x0, 0x0⟩,
  ⟨0x68, 1, 0, 1, 0, 0x0, 0x0, 0x0, 0x0⟩,
  ⟨0x6C, 1, 0, 1, 0, 0x0, 0x0, 0x0, 0x0⟩,
  ⟨0x70, 1, 0, 1, 0, 0x0, 0x0, 0x0, 0x0⟩,
  ⟨0x74, 1, 0, 1, 0, 0x0, 0x0, 0x1, 0x0⟩]
/-- The word table of page `p` of a block (R57, R59). -/
def pageWords : Blk → Nat → List WordRow
  | .global, 0 => words_global0_0
  | .mgmt, 0 => words_mgmt0_0
  | .mgmt, 1 => words_mgmt1_0
  | .time, 0 => words_time0_0
  | .time, 1 => words_time1_0
  | .deal, 0 => words_deal0_0 ++ words_deal0_1
  | .deal, 1 => words_deal1_0
  | .nvm, 0 => words_nvm0_0
  | .power, 0 => words_power0_0
  | .power, 1 => words_power1_0
  | .snap, 0 => words_snap0_0
  | .debug, 0 => words_debug0_0
  | .mlane, 0 => words_mlane0_0 ++ words_mlane0_1
  | .nlane, 0 => words_nlane0_0 ++ words_nlane0_1
  | .nport, 0 => words_nport0_0
  | .ingest, 0 => words_ingest0_0 ++ words_ingest0_1 ++ words_ingest0_2
  | .engine, 0 => words_engine0_0
  | .memsw, 0 => words_memsw0_0
  | .talon, 0 => words_talon0_0
  | .ledger, 0 => words_ledger0_0
  | .recorder, 0 => words_recorder0_0
  | .head, 0 => words_head0_0
  | .head, 1 => words_head1_0
  | .head, 2 => words_head2_0
  | .head, 3 => words_head3_0
  | .layer, 0 => words_layer0_0 ++ words_layer0_1 ++ words_layer0_2
  | .oport, 0 => words_oport0_0
  | .sendV, 0 => words_sendV0_0
  | .sendT, 0 => words_sendT0_0
  | .audio, 0 => words_audio0_0
  | .audio, 1 => words_audio1_0
  | .audio, 2 => words_audio2_0
  | .audio, 3 => words_audio3_0
  | .audio, 4 => words_audio4_0
  | .audio, 5 => words_audio5_0
  | .audio, 6 => words_audio6_0
  | .audio, 7 => words_audio7_0
  | .witness, 0 => words_witness0_0
  | .witChain, 0 => words_witChain0_0
  | _, _ => []

/-- The LO words of the 64-bit pairs of a page (R62): offset, count, stride and whether the pair is RW.
The HI word is 4 bytes higher in every pair. -/
def loWords : Blk → Nat → List (Nat × Nat × Nat × Bool)
  | .global, 0 => [(0x4C, 1, 0, false), (0x54, 1, 0, true)]
  | .mgmt, 1 => [(0x300, 1, 0, false), (0x308, 1, 0, false)]
  | .time, 0 => [(0x808, 1, 0, true), (0x44, 1, 0, false), (0x54, 1, 0, false), (0x104, 1, 0, false)]
  | .time, 1 => [(0x48, 1, 0, false)]
  | .deal, 0 => [(0x4C, 1, 0, true), (0x54, 1, 0, true), (0x74, 1, 0, false), (0x7C, 1, 0, false), (0x84, 1, 0, false), (0x8C, 1, 0, false), (0x94, 1, 0, false)]
  | .deal, 1 => [(0x804, 1, 0, true), (0x40, 1, 0, true), (0x6C, 1, 0, false), (0x74, 1, 0, false)]
  | .nvm, 0 => [(0x5C, 1, 0, false)]
  | .power, 0 => [(0x304, 1, 0, false)]
  | .snap, 0 => [(0x4C, 1, 0, true), (0x5C, 1, 0, false), (0x64, 1, 0, false)]
  | .mlane, 0 => [(0x78, 1, 0, false)]
  | .nlane, 0 => [(0x78, 1, 0, false)]
  | .nport, 0 => [(0x844, 4, 64, true)]
  | .ingest, 0 => [(0x110, 1, 0, false), (0xA0, 1, 0, true), (0xC0, 1, 0, false)]
  | .memsw, 0 => [(0x50, 1, 0, false)]
  | .talon, 0 => [(0x58, 1, 0, false)]
  | .ledger, 0 => [(0x4C, 1, 0, false)]
  | .recorder, 0 => [(0x808, 1, 0, true), (0x58, 1, 0, false)]
  | .head, 0 => [(0x818, 1, 0, true), (0x50, 1, 0, false)]
  | .head, 3 => [(0x5C, 1, 0, false)]
  | .audio, 0 => [(0x44, 1, 0, false)]
  | .audio, 5 => [(0x800, 128, 8, true)]
  | .witChain, 0 => [(0x40, 1, 0, false), (0x48, 1, 0, false), (0x50, 1, 0, false), (0x58, 1, 0, false)]
  | _, _ => []

end Sys2Proof.Machine
end

