-- ==== Sys2Proof/Machine/Sparse.lean ====
section
/-! DEFINITION. Sparse maps with a default: lists of key and value pairs in one canonical form (keys
strictly rising, no value equal to the default of its key), so that equal maps are equal lists. -/
namespace Sys2Proof.Machine

variable {α : Type}

/-- The value at key `k`; an unlisted key reads its default. -/
def sget (d : Nat → α) : List (Nat × α) → Nat → α
  | [], k => d k
  | (k', v) :: m, k => if k' = k then v else sget d m k

/-- The map without key `k`. -/
def sdel (m : List (Nat × α)) (k : Nat) : List (Nat × α) := m.filter (fun p => p.1 ≠ k)

/-- Insertion at the place of the key's order, for a key that is not listed. -/
def sins : List (Nat × α) → Nat → α → List (Nat × α)
  | [], k, v => [(k, v)]
  | (k', v') :: m, k, v => if k < k' then (k, v) :: (k', v') :: m else (k', v') :: sins m k v

/-- The map with value `v` at key `k`; writing the default removes the entry. -/
def sset [DecidableEq α] (d : Nat → α) (m : List (Nat × α)) (k : Nat) (v : α) : List (Nat × α) :=
  if v = d k then sdel m k else sins (sdel m k) k v

/-- The map with the value at `k` changed by `f`. -/
def supd [DecidableEq α] (d : Nat → α) (m : List (Nat × α)) (k : Nat) (f : α → α) : List (Nat × α) :=
  sset d m k (f (sget d m k))

/-- Keys strictly rising. -/
def sorted : List (Nat × α) → Bool
  | [] => true
  | [_] => true
  | (k, _) :: (k', v') :: m => k < k' && sorted ((k', v') :: m)

/-- The canonical form: keys strictly rising and no entry equal to its default. -/
def swf [DecidableEq α] (d : Nat → α) (m : List (Nat × α)) : Bool :=
  sorted m && m.all (fun p => decide (p.2 ≠ d p.1))

/-- Set element `i` of a list when it exists. -/
def lset : List α → Nat → α → List α
  | [], _, _ => []
  | _ :: m, 0, v => v :: m
  | a :: m, i + 1, v => a :: lset m i v

/-- A byte memory: reading, an unlisted byte reads 0 (log entry 2). -/
def memGet (m : List (Nat × Byte)) (a : Nat) : Byte := sget (fun _ => 0) m a

/-- Writing one byte of a byte memory. -/
def memSet (m : List (Nat × Byte)) (a : Nat) (b : Byte) : List (Nat × Byte) := sset (fun _ => 0) m a b

/-- Writing consecutive bytes. -/
def memWrite (m : List (Nat × Byte)) (a : Nat) : List Byte → List (Nat × Byte)
  | [] => m
  | b :: bs => memWrite (memSet m a b) (a + 1) bs

/-- Reading `n` consecutive bytes. -/
def memRead (m : List (Nat × Byte)) (a : Nat) : Nat → List Byte
  | 0 => []
  | n + 1 => memGet m a :: memRead m (a + 1) n

/-- The canonical form of a byte memory. -/
def Memory.wf (m : List (Nat × Byte)) : Bool := swf (fun _ => 0) m

/-- The `n` low bytes of a value, least significant first. -/
def leBytes : Nat → Nat → List Byte
  | 0, _ => []
  | n + 1, v => BitVec.ofNat 8 v :: leBytes n (v / 256)

/-- The value of bytes given least significant first. -/
def leVal : List Byte → Nat
  | [] => 0
  | b :: bs => b.toNat + 256 * leVal bs

/-- Bits `[lo + w - 1 : lo]` of a number. -/
def bitsOf (v lo w : Nat) : Nat := v / 2 ^ lo % 2 ^ w

/-- A number with bits `[lo + w - 1 : lo]` replaced. -/
def putBits (v lo w x : Nat) : Nat := v - bitsOf v lo w * 2 ^ lo + x % 2 ^ w * 2 ^ lo

/-- The number read as a two's complement number of `w` bits. -/
def sgn (w v : Nat) : Int := if v % 2 ^ w < 2 ^ (w - 1) then (v % 2 ^ w : Int) else (v % 2 ^ w : Int) - 2 ^ w

/-- The `w`-bit two's complement code of an integer. -/
def unsgn (w : Nat) (x : Int) : Nat := (x % (2 ^ w : Int)).toNat

end Sys2Proof.Machine
end

