-- ==== Sys2Proof/Machine/Operands.lean ====
section
/-! DEFINITION. The forms an access may name: the BAR0 map (R74), page and word addresses (R57, R58), the
reset word of every address, and the words that form 64-bit pairs (R62). -/
namespace Sys2Proof.Machine

/-- Address that page 0 of instance number 0 has or would have (R74). -/
def blkBase : Blk → Nat
  | .global => 0x000000 | .mgmt => 0x010000 | .time => 0x020000 | .deal => 0x030000
  | .nvm => 0x040000 | .power => 0x050000 | .snap => 0x060000 | .debug => 0x061000
  | .mlane => 0x100000 | .nlane => 0x180000 | .nport => 0x190000 | .ingest => 0x200000
  | .engine => 0x300000 | .memsw => 0x340000 | .talon => 0x341000 | .ledger => 0x342000
  | .recorder => 0x343000 | .head => 0x400000 | .layer => 0x500000 | .oport => 0x900000
  | .sendV => 0x960000 | .sendT => 0x960000 | .audio => 0x980000 | .witness => 0xA00000
  | .witChain => 0xA00000

/-- First number of a block's instances (R74). -/
def blkFirst : Blk → Nat
  | .sendT => 4 | .witChain => 64 | _ => 0

/-- Number of a block's instances (R74). -/
def blkCount : Blk → Nat
  | .mlane => 96 | .nlane => 16 | .nport => 4 | .ingest => 256 | .engine => 64 | .head => 64
  | .layer => 1024 | .oport => 96 | .sendV => 4 | .sendT => 16 | .witness => 64 | _ => 1

/-- Pages of each of a block's instances (R74). -/
def blkPages : Blk → Nat
  | .mgmt => 2 | .time => 2 | .deal => 2 | .power => 2 | .head => 4 | .audio => 8 | _ => 1

/-- Block type code of PAGE_ID (R74). -/
def blkCode : Blk → Nat
  | .global => 0x01 | .mgmt => 0x02 | .time => 0x03 | .deal => 0x04 | .nvm => 0x05 | .power => 0x06
  | .snap => 0x07 | .debug => 0x08 | .mlane => 0x10 | .nlane => 0x11 | .nport => 0x12 | .ingest => 0x20
  | .engine => 0x30 | .memsw => 0x34 | .talon => 0x35 | .ledger => 0x36 | .recorder => 0x37
  | .head => 0x40 | .layer => 0x50 | .oport => 0x90 | .sendV => 0x91 | .sendT => 0x91
  | .audio => 0x98 | .witness => 0xA0 | .witChain => 0xA0

/-- MSI-X vector of a block's class (R80). -/
def blkVec : Blk → Nat
  | .global => 0 | .mgmt => 1 | .time => 2 | .deal => 3 | .nvm => 4 | .power => 5
  | .snap => 6 | .debug => 6 | .mlane => 7 | .nlane => 8 | .nport => 9 | .ingest => 10
  | .engine => 11 | .memsw => 12 | .talon => 13 | .ledger => 14 | .recorder => 15
  | .head => 16 | .layer => 17 | .oport => 18 | .sendV => 19 | .sendT => 19
  | .audio => 20 | .witness => 21 | .witChain => 21

/-- Every block, in the order of the map. -/
def allBlks : List Blk :=
  [.global, .mgmt, .time, .deal, .nvm, .power, .snap, .debug, .mlane, .nlane, .nport, .ingest, .engine,
   .memsw, .talon, .ledger, .recorder, .head, .layer, .oport, .sendV, .sendT, .audio, .witness, .witChain]

/-- Bytes from one instance to the next. -/
def blkStride (b : Blk) : Nat := blkPages b * 0x1000

/-- The address of page `p` of instance `i` (R74). -/
def pageAddr (b : Blk) (i p : Nat) : Nat := blkBase b + i * blkStride b + p * 0x1000

/-- The block whose pages hold address `a` (R74). -/
def blkAt (a : Nat) : Option Blk :=
  allBlks.find? (fun b =>
    blkBase b + blkFirst b * blkStride b ≤ a && a < blkBase b + (blkFirst b + blkCount b) * blkStride b)

/-- The page that holds address `a`. -/
def decodePage (a : Nat) : Option PageRef :=
  match blkAt a with
  | none => none
  | some b => some ⟨b, (a - blkBase b) / blkStride b, (a - blkBase b) % blkStride b / 0x1000⟩

/-- The address of a page. -/
def pgAddr (r : PageRef) : Nat := pageAddr r.blk r.inst r.page

/-- Every page of the map, in address order of the blocks. -/
def allPages : List PageRef :=
  allBlks.flatMap (fun b => (List.range (blkCount b)).flatMap (fun i =>
    (List.range (blkPages b)).map (fun p => ⟨b, blkFirst b + i, p⟩)))

/-- What a BAR0 address decodes to (R73, R74). -/
inductive Target where
  | page (r : PageRef) (off : Nat)
  | msixTable (off : Nat)
  | msixPending (off : Nat)
  | nvmWindow (off : Nat)
  | lutWindow (off : Nat)
  | undecoded
deriving DecidableEq, Repr

/-- BAR0 decode (R74). -/
def decodeTarget (a : Nat) : Target :=
  match decodePage a with
  | some r => .page r (a % 0x1000)
  | none =>
    if 0x8000 ≤ a ∧ a ≤ 0x83FF then .msixTable (a - 0x8000)
    else if 0x9000 ≤ a ∧ a ≤ 0x9007 then .msixPending (a - 0x9000)
    else if 0x48000 ≤ a ∧ a ≤ 0x4FFFF then .nvmWindow (a - 0x48000)
    else if 0xB00000 ≤ a ∧ a ≤ 0xB0FFFF then .lutWindow (a - 0xB00000)
    else .undecoded

/-- Whether a word row holds the word at page offset `off`. -/
def WordRow.has (r : WordRow) (off : Nat) : Bool :=
  (List.range r.n2).any (fun j =>
    let o := r.off + j * r.str2
    o ≤ off && (off - o) % (if r.str = 0 then 0x1000 else r.str) = 0
      && (off - o) / (if r.str = 0 then 0x1000 else r.str) < r.n)

/-- The row of a word of a page, if a register occupies it. -/
def rowAt (b : Blk) (p off : Nat) : Option WordRow := (pageWords b p).find? (fun r => r.has off)

/-- Pages whose CTL.EN reads 1 and is RO (R65, R452). -/
def enFixed : Blk → Bool
  | .global | .mgmt | .time | .deal | .nvm | .power | .snap | .debug | .ledger => true
  | _ => false

/-- Pages that cannot be fenced (R452): those of `enFixed`, page 1 of DEAL apart. -/
def unfenceable (b : Blk) (p : Nat) : Bool := enFixed b && !(b = .deal && p = 1)

/-- Pages whose LEDGER.OWNS reads 1 (R491). -/
def ownsBooks : Blk → Nat → Bool
  | .talon, _ | .ingest, _ | .engine, _ | .head, _ | .nport, _ | .recorder, _ | .audio, _ | .mlane, _
  | .memsw, _ | .deal, 1 | .witChain, _ => true
  | _, _ => false

/-- Reset value of a header word (R65). -/
def headerReset (r : PageRef) (off : Nat) : Nat :=
  match off with
  | 0x000 => blkCode r.blk + r.inst * 0x100 + r.page * 0x100000
  | 0x004 => 0x0201
  | 0x008 => if enFixed r.blk then 1 else 0
  | 0x024 => 1
  | 0x038 => if ownsBooks r.blk r.page then 1 else 0
  | _ => 0

/-- Reset value of the word at page offset `off`: the field tables' (R59), the active copy as its hand word,
0 where no register is. -/
def wordReset (r : PageRef) (off : Nat) : Nat :=
  if off < 0x40 then headerReset r off
  else if off < 0x400 then
    match rowAt r.blk r.page off with
    | some w => w.rst + (if r.blk = .global ∧ off = 0x40 then (if Config.gradeXT then 0x1000000 else 0) else 0)
    | none => 0
  else if off < 0x800 then (rowAt r.blk r.page (off + 0x400)).elim 0 (·.rst)
  else if off < 0xC00 then (rowAt r.blk r.page off).elim 0 (·.rst)
  else 0

/-- The word an address of BAR0 holds at reset; the MSI-X table's vector control words hold the mask bit
set (PRESUMED, PCIe; log entry 9). -/
def resetWord (a : Nat) : Word :=
  match decodeTarget a with
  | .page r off => BitVec.ofNat 32 (wordReset r off)
  | .msixTable off => if off % 16 = 12 then 1 else 0
  | _ => 0

/-- The address of a field's word for element `k`, `j` of its array in instance `i`. -/
def Fld.addr (f : Fld) (i k j : Nat) : Nat := pageAddr f.blk i f.page + f.off + k * f.str + j * f.str2

/-- Whether page offset `off` of a hand-controlled register (R57). -/
def isHandOff (off : Nat) : Bool := 0x800 ≤ off && off < 0xC00

/-- Offsets of the words a row lists. -/
def WordRow.offs (r : WordRow) : List Nat :=
  (List.range r.n2).flatMap (fun j => (List.range r.n).map (fun k => r.off + j * r.str2 + k * r.str))

/-- Whether `off` is the LO word of a 64-bit pair (R62), and whether the pair is RW. The stamp of the
snapshot header is such a pair in every page (R65). -/
def loPair (b : Blk) (p off : Nat) : Option Bool :=
  if off = 0x028 then some false
  else ((loWords b p).find? (fun t => (List.range t.2.1).any (fun k => t.1 + k * t.2.2.1 = off))).map (·.2.2.2)

/-- The pages of an instance that share its header: all its pages, but the two of DEAL apart (R452). -/
def instPages (b : Blk) (i p : Nat) : List PageRef :=
  if b = .deal then [⟨b, i, p⟩] else (List.range (blkPages b)).map (fun q => ⟨b, i, q⟩)

/-- The page whose header words CTL, STS, FENCE_CAUSE and POWER hold the state of an instance. -/
def mainPage (b : Blk) (p : Nat) : Nat := if b = .deal then p else 0

end Sys2Proof.Machine
end

