-- ==== Sys2Proof/Machine/State.lean ====
section
/-! DEFINITION. The state of the block as plain data: the register file, the snapshot mirrors, the frame
store and the hidden state of every unit the spec describes, the non-volatile state that survives a reset,
and the queue of waiting commands. Sparse maps list only what differs from its default. -/
namespace Sys2Proof.Machine

/-- One recorded fence cause (R449): its code and detail, and whether a soft reset has completed since it was
raised (the condition of STALL, R450). -/
structure FenceRec where
  cause : Nat
  detail : Nat
  rstSince : Bool
deriving DecidableEq, Repr

/-- The PRBS checker of a lane (R100): the last bits of its pattern, latest first; matches in a row before sync; bits
compared since sync; and where among them the latest errors stood, latest first. -/
structure PrbsChk where
  hist : List Bool := []
  run : Nat := 0
  pos : Nat := 0
  errs : List Nat := []
deriving DecidableEq, Repr

/-- A data or control block of 64b/66b: whether its sync header is 0b10 (control), and its payload, first byte lowest. -/
abbrev Block66 := Bool × BitVec 64

/-- Hidden state of one serial lane (R88 to R109). -/
structure LaneSt where
  /-- the transmitter is electrically idle (R89) -/
  txIdle : Bool := true
  /-- the transmitter waits for its PLL (R89) -/
  txWait : Bool := false
  /-- the receive half is acquiring: its data is discarded; the equaliser goes on from the values in use, kept over L1 or
  L2, until the acquisition ends (R95) -/
  acq : Bool := false
  keep : Bool := false
  /-- target of the receive lane-state transition under way, and the request that waits for its end (R104) -/
  rxTarget : Option Nat := none
  rxNext : Option Nat := none
  txTarget : Option Nat := none
  txNext : Option Nat := none
  /-- injection under way (INJ_MODE code, 0 none) and its side (R101) -/
  inj : Nat := 0
  injRx : Bool := false
  /-- bits a single or burst injection has still to invert, and bits since the last error of a rate injection -/
  injLeft : Nat := 0
  injPhase : Nat := 0
  /-- the PRBS checker, and the register of the generator, latest bit first (none before its first use) -/
  chk : PrbsChk := {}
  gen : Option (List Bool) := none
  /-- what the generator was last announced to send: pattern, inversion, and the interval of a rate injection (R100) -/
  genOn : Option (Nat × Bool × Nat) := none
  /-- link training under way (R92) -/
  training : Bool := false
  trainFailed : Bool := false
  /-- consecutive valid and consecutive missing or invalid markers, markers held since lock (R108, R109) -/
  mkGood : Nat := 0
  mkBad : Nat := 0
  mkHeld : Nat := 0
  /-- sequence number, BOND_LANE and arrival of the last marker, and the blocks before it (R108) -/
  mkSeq : Nat := 0
  mkLane : Nat := 0
  mkAt : Option Nat := none
  got : List (Nat × Block66) := []
  /-- the last marker sent, with the blocks before it: what LOOP_NEAR returns (R102) -/
  sent : Option (List Byte × List Block66) := none
deriving DecidableEq, Repr

/-- What a bond's transmitter keeps (R107): the 58 bits of its scrambler, blocks coded beyond the last markers, messages
that wait to be coded, oldest first, and the sequence number of the next markers. -/
structure BondTx where
  scr : Nat := 0
  rest : List Block66 := []
  queue : List (List Byte) := []
  seq : Nat := 0
deriving DecidableEq, Repr

/-- What a bond's receiver keeps (R108): the 58 bits of its descrambler, the message being decoded, and messages handed up
that no row has taken, oldest first. -/
structure BondRx where
  scr : Nat := 0
  part : Option (List Byte) := none
  msgs : List (List Byte) := []
deriving DecidableEq, Repr

/-- Tile format (R148, byte FORMAT): depth code, 4:4:4, alpha, Y'CbCr, bottom field. -/
structure TileFmt where
  depth : Nat := 0
  s444 : Bool := false
  alpha : Bool := false
  ycc : Bool := false
  bottom : Bool := false
deriving DecidableEq, Repr

/-- One tile slot: its metadata entry (R148) and its samples in the order of R145. -/
structure Tile where
  stamp : Nat := 0
  crc : Nat := 0
  frame : Nat := 0
  sectors : Nat := 0
  pack : Bool := false
  fmt : TileFmt := {}
  poison : Bool := false
  dirty : Bool := false
  valid : Bool := false
  owner : Nat := 0
  buffer : Nat := 0
  col : Nat := 0
  row : Nat := 0
  data : List Nat := []
deriving DecidableEq, Repr

/-- A picture held in a buffer: the buffer's slabs in order (an empty position by R492 is `none`), the
frame number, the size, and the time at which it was completed. -/
structure Pic where
  owner : Nat := 0
  buffer : Nat := 0
  slabs : List (Option Nat) := []
  frame : Nat := 0
  width : Nat := 0
  height : Nat := 0
  fmt : TileFmt := {}
  pack : Bool := false
  time : Nat := 0
  /-- number of its completion within its owner, and the time at which the frame began -/
  seq : Nat := 0
  start : Nat := 0
  /-- paired values (R302): window (head × 16 + window), its rectangle in the picture, and the CRC -/
  pairs : List (Nat × (Nat × Nat × Nat × Nat) × Nat) := []
  /-- of a prepared frame: place and size of the source rectangle it was made from -/
  rect : Nat × Nat × Nat × Nat := (0, 0, 0, 0)
  /-- and how it was made: DEINT, ROT, MIRROR, and whether it was scaled (R32) -/
  deint : Nat := 0
  rot : Nat := 0
  mirror : Bool := false
  scaled : Bool := false
deriving DecidableEq, Repr

/-- A frame an ingest context is assembling. -/
structure InFrame where
  pic : Pic := {}
  sig : SigFmt := ⟨0, 0, 0, 0, 0, 0, false, 0, 0, false, false, true⟩
  /-- the frame is received into no buffer: it lies outside R114, is encrypted, or lacked a buffer -/
  drop : Bool := false
  /-- completely received lines, and the stored lines of the tile row being filled, oldest first -/
  lines : Nat := 0
  rowLines : List (List Nat) := []
  /-- chroma of the last 4:2:0 line that carried it (R128) -/
  chroma : List (Nat × Nat) := []
  /-- arrival of the previous line, the first line period, and whether a period disagreed (R124) -/
  lastLine : Nat := 0
  period : Nat := 0
  badPeriod : Bool := false
  /-- some line had fewer, or more, active samples than signalled (R124, R125) -/
  short : Bool := false
  long : Bool := false
  linkErr : Bool := false
  /-- the one stamp of an ST 2110 frame, once fixed (R9) -/
  stamp : Option Nat := none
  rtp : Nat := 0
  /-- samples of an ST 2110 frame by pixel (line × 16384 + pixel), stored order per pixel or pair -/
  px : List (Nat × List Nat) := []
  /-- tile positions written in this frame, and positions whose copy-forward is still to complete (R159) -/
  written : List Nat := []
  copied : Bool := false
  /-- an ended frame that waits for its copy-forward to publish (R159) -/
  ended : Bool := false
  /-- parts received of Tatre tiles: position (row × 1024 + column), part index and payload; tiles that are whole;
  the sender's number of the frame (R360, R365) -/
  parts : List (Nat × Nat × List Byte) := []
  whole : List (Nat × Tile) := []
  sent : Nat := 0
deriving DecidableEq, Repr

/-- Hidden state of one ingest context. -/
structure CtxSt where
  cur : Option InFrame := none
  /-- published frames still held in a buffer, the latest complete frame first -/
  pubs : List Pic := []
  /-- number of its next frame; frames number from 0 (DESIGN CHOICE, log entry 244) -/
  nextFrame : Nat := 0
  seqNo : Nat := 0
  /-- forced causes in force for the layers bound to the context (R18) -/
  fencedCause : Bool := false
  peerCause : Bool := false
  protectedCause : Bool := false
  /-- when a cause last changed, and the causes before that moment, as bits of FRESH_STS -/
  causeAt : Option Nat := none
  causeWas : Nat := 0
  /-- confirmed format, frames in a row that disagreed with it, period errors in a row (R125) -/
  confirmed : Option SigFmt := none
  oddFrames : Nat := 0
  oddPeriods : Nat := 0
  lastStart : Option Nat := none
  confPeriod : Nat := 0
  periods : List Nat := []
  /-- raster, sampling, depth and interlace of the previous published frame (R126) -/
  pubFmt : Option (Nat × Nat × Nat × Nat × Bool) := none
  prevCrc : Option Nat := none
  hbPrev : Option Nat := none
  /-- a published frame waits for HB_READ; its engine has been fenced since the last one decoded (R195) -/
  hbDue : Bool := false
  hbRestart : Bool := false
  /-- a frame did not hold the patch, and no hand has placed it anew (R31) -/
  hbOut : Bool := false
  /-- a bottom field has been published (R127) -/
  fields : Bool := false
  /-- ST 2110: extended sequence numbers seen, with first arrival and the paths that delivered (R116) -/
  seen : List (Nat × Nat × Nat) := []
  highSeq : Option Nat := none
  closedRtp : Option Nat := none
  /-- when data last came, with the RTP marker bit of that packet: of the context, and of each path (R116, R137) -/
  heard : Nat × Bool := (0, false)
  heard1 : Nat × Bool := (0, false)
  heard2 : Nat × Bool := (0, false)
  /-- when the format last changed, and whether IRQ_RAW showed FORMAT_CHANGE before (R140) -/
  changed : Option (Nat × Bool) := none
  /-- staging and served EDID banks as words (R119) -/
  edidStage : List (Nat × Word) := []
  edidServed : List (Nat × Word) := []
  /-- hot-plug is held low by a pulse, and since when (R121) -/
  hpdPulse : Bool := false
  hpdAt : Nat := 0
  /-- the DMA descriptor being executed (R133), and whether EN = 0 was written while it was (R135) -/
  dma : Option Descriptor := none
  dmaStop : Bool := false
  /-- originating devices named in the tiles of the latest frame (R33) -/
  origins : List Nat := []
deriving DecidableEq, Repr

/-- A running engine job (R183): the source picture, its second field for weave, and the start time. -/
structure Job where
  src : Pic := {}
  src2 : Option Pic := none
  start : Nat := 0
deriving DecidableEq, Repr

/-- Hidden state of one layer context. -/
structure LayerSt where
  /-- the forced causes GEOMETRY and ENGINE_FENCED (R18) -/
  geom : Bool := false
  engCause : Bool := false
  /-- when one of them last changed, and the two before that moment, as bits of FRESH_STS -/
  causeAt : Option Nat := none
  causeWas : Nat := 0
  /-- the words of its page (by offset in the active copy) as the head it still is on uses them, after a hand applied at
  its new head (R209, R210) -/
  kept : Option (Nat × List (Nat × Word)) := none
  /-- engine work: the running job, the ready picture that waits (with its second field), an unpaired field,
  the start of the last job, and prepared frames still held, the latest first (R183 to R185) -/
  job : Option Job := none
  waiting : Option (Pic × Option Pic) := none
  field : Option Pic := none
  lastJob : Option Nat := none
  prepared : List Pic := []
  /-- prepared frames completed so far -/
  doneSeq : Nat := 0
  /-- the head the layer is on (R210) -/
  head : Option Nat := none
  /-- what the last latch selected: the binding it was made under, and the frame (R202) -/
  selKey : List Nat := []
  sel : Option (Nat × Nat) := none
  /-- a format change of the context awaits its re-plan (R126, R212) -/
  refit : Bool := false
  /-- how many of the backward steps its carry no longer counts: it ended at a latch after them (R249) -/
  carryCut : Nat := 0
deriving DecidableEq, Repr


/-- One visible tile of a plane in the output frame: the tile as read, whether it was read, whether no picture
stands behind it (R203, R167), and whether it is shown with the stale treatment (R20). -/
structure Fetched where
  tile : Tile := {}
  read : Bool := false
  absent : Bool := false
  stale : Bool := false
deriving DecidableEq, Repr

/-- What a head decided at its latch for one slot, or for the trump plane (slot 16). -/
structure Plane where
  slot : Nat := 0
  layer : Nat := 0
  ctx : Nat := 0
  /-- the slot waits for its layer (R210); the layer is left out (R230) -/
  held : Bool := false
  leftOut : Bool := false
  /-- the selected picture, the picture a chase falls back to, and the chase (R165, R167) -/
  pic : Option Pic := none
  fall : Option Pic := none
  chase : Bool := false
  slip : Option Nat := none
  minLead : Option Int := none
  /-- the drawn rectangle in the raster and the source position of its top left pixel (R211) -/
  sx : Nat := 0
  sy : Nat := 0
  x : Nat := 0
  y : Nat := 0
  w : Nat := 0
  h : Nat := 0
  /-- forced causes in force, as bits of FRESH_STS; the whole layer takes its treatment (R18, R19) -/
  forced : Nat := 0
  whole : Bool := false
  opaq : Bool := false
  group : Option Nat := none
  /-- the heartbeat patch left out of the blend (R32) -/
  crop : Option (Nat × Nat) := none
  repeated : Bool := false
  drops : Nat := 0
  /-- visible tiles by row × 1024 + column, suppressed tiles, and hidden-stale ones among them -/
  tiles : List (Nat × Fetched) := []
  covered : List Nat := []
  hidden : Nat := 0
  /-- suppressed tiles that would be shown stale, for the dirty tracking of R227 (R224) -/
  coveredStale : List Nat := []
deriving DecidableEq, Repr

/-- A meld group at a head's latch: its anchored and dirty tiles (by index), and clean tiles read. -/
structure MeldView where
  /-- anchored tiles, and the slot from which each is computed upward (0: from the background) -/
  anchored : List Nat := []
  anchors : List (Nat × Nat) := []
  dirty : List Nat := []
  suppressed : List Nat := []
  got : List (Nat × Tile) := []
  remelded : Nat := 0
  rebuilt : Bool := false
deriving DecidableEq, Repr

/-- A meld surface (R226): whether the group was enabled at the last latch, its picture, the tiles whose
dirty state is kept, and the member tiles that were treated at the last latch (slot, tile). -/
structure MeldSt where
  on : Bool := false
  pic : Pic := {}
  dirty : List Nat := []
  stale : List (Nat × Nat) := []
  /-- tiles whose stored copy is older than the members, because they were not anchored -/
  opened : List Nat := []
  /-- the members at the last latch: slot, layer, and what a hand may change without its own latch -/
  members : List (List Nat) := []
  /-- tiles written from a poisoned member: their POISON stands for no failed read (R12, R229) -/
  derived : List Nat := []
deriving DecidableEq, Repr

/-- Hidden state of one head. -/
structure HeadSt where
  /-- its timing, or the safe-screen timing of its ports, runs; the next latch is the virtual latch of a
  start (R247) -/
  running : Bool := false
  virt : Bool := false
  /-- the forced cause GEOMETRY of the trump plane, and when it began (R18, R24) -/
  trumpGeom : Bool := false
  trumpAt : Option Nat := none
  /-- the settings the picture parameter set in use was made from, and those of a set that waits for the latch (R196) -/
  pps : Option (List Nat) := none
  ppsDue : Option (List Nat) := none
  /-- a frame has been selected; line 0 of it has passed; it was selected by a head that is not fenced; its
  fetch has begun (R238) -/
  viewed : Bool := false
  shown : Bool := false
  composed : Bool := false
  fetching : Bool := false
  /-- what the ports are kept at until the next line 0 of a frame composed whole: 0 nothing, 1 electrical idle
  (R247), 2 the safe screen (R261, R305) -/
  hold : Nat := 1
  /-- frame number without wrap, lines of the blanking before it, T_f and J (R14, R238) -/
  frame : Nat := 0
  blank : Nat := 0
  tf : Nat := 0
  j : Nat := 0
  /-- when its next latch comes, kept in elapsed time through steps of house time (R276) -/
  due : Nat := 0
  /-- time of the last line 0 -/
  l0 : Nat := 0
  /-- decided jump: signed lines and frame numbers skipped (R246) -/
  jump : Option (Int × Nat) := none
  stepped : Bool := false
  lockRun : Nat := 0
  dstar : Int := 0
  /-- the sample point has taken the hand for the next boundary (R276) -/
  take : Bool := false
  /-- FLAGS of the selected frame's record, decided at its latch (R307) -/
  flags : Nat := 0
  epoch : Nat := 0
  latch : Nat := 0
  /-- how many of the backward steps the carry of its trump plane no longer counts (R249) -/
  trumpCut : Nat := 0
  planes : List Plane := []
  melds : List (Nat × MeldView) := []
  /-- some port showed SAFE_COLOUR in an active line of this frame -/
  safeSeen : Bool := false
  /-- underrun of this frame: line and first missing pixel (R253) -/
  under : List (Nat × Nat) := []
  /-- least fill of the output buffer in this frame (R265) -/
  minFill : Option Nat := none
  /-- the last 16 delays of the layer the lip-sync follows (R346) -/
  lipV : List Int := []
  /-- the most recent frame compared a SAFE window, and all compared ones matched (R305) -/
  safeOk : Bool := false
deriving DecidableEq, Repr

/-- Hidden state of one output port: what it shows (0 idle, 1 safe screen, 2 the head), what it showed before
and since when, and whether its link is trained. -/
structure PortSt where
  shows : Nat := 0
  /-- switches of the present frame, the latest first: the time, and what it showed before (R260) -/
  log : List (Nat × Nat) := []
  trained : Bool := false
deriving DecidableEq, Repr

/-- Recorder state of one head (R168): the CRCs of the previous recorded frame by position (row × 1024 + column), the SEQ
and time of its last entry and keyframe, and whether the next entry must be a keyframe. -/
structure RecHead where
  crcs : Option (List (Nat × Nat)) := none
  prev : Option Nat := none
  keyTime : Nat := 0
  needKey : Bool := true
  /-- its entry had begun when HOLD was set, and is still to be completed (R172) -/
  begun : Bool := false
deriving DecidableEq, Repr

/-- An entry of the recorder ring: SEQ, offset and length in sectors. -/
structure RingEntry where
  seq : Nat
  off : Nat
  len : Nat
deriving DecidableEq, Repr
/-- The completion of a host access (R72): data, Unsupported Request, or data with the EP bit set; a
configuration request completed normally or with retry status (R463). -/
inductive Resp where
  | data (v : Word)
  | unsupported
  | bytes (bs : List Byte) (poisoned : Bool)
  | noAck
  | config (retry : Bool)
deriving DecidableEq, Repr

/-- A packet that a network lane in LOOP_FAR sends again (R102): RTP, UDP with its port, or PTP with its domain. -/
inductive NetPacket where
  | rtp (p : RtpPacket)
  | udp (port : Nat) (payload : List Byte)
  | ptp (domain : Byte) (m : PtpMsg)
deriving DecidableEq, Repr

/-- How an output port sends its raster (R255): protocol and rate codes of the port, FEC on DisplayPort 8b/10b, ST 352
payload identification and line CRC on SDI, and DSC. The bytes of these are those of the cited standards (log entry 255). -/
structure PortLink where
  protocol : Nat
  rate : Nat
  fec : Bool
  st352 : Bool
  lineCrc : Bool
  dsc : Bool
deriving DecidableEq, Repr

/-- What leaves the device. -/
inductive Out where
  /-- an MSI-X message: vector, address and data (R81) -/
  | msix (vector addr : Nat) (data : Word)
  /-- an alignment marker of a bond lane and the scrambled blocks of the lane before it; every bit is inverted where
  `inverted` (R107, R108) -/
  | marker (lane : Nat) (inverted : Bool) (payload : List Byte)
  | blocks (lane : Nat) (inverted : Bool) (l : List Block66)
  /-- what a transmit half in LOOP_FAR sends again: test data as received, the samples of a received line, a received
  packet, or what stands at a marker with the blocks before it (R102) -/
  | loopTest (lane : Nat) (rx : List TestData)
  | loopLine (lane : Nat) (samples : List Nat)
  | loopPacket (lane : Nat) (p : NetPacket)
  | loopMarker (lane : Nat) (m : MarkerRx)
  /-- from here on the generator of a lane sends a pattern, inverted or not, with one bit of each so many inverted (0:
  none), or no longer sends (R99 to R101) -/
  | testOn (lane : Nat) (what : Option (Nat × Bool × Nat))
  /-- generator symbols sent with an injection: bits as 0 and 1, or PAM4 levels (R99 to R101) -/
  | test (lane : Nat) (symbols : List Nat)
  /-- a UDP datagram: interface (4 × port + sub-port), destination address words, port, payload -/
  | udp (netif : Nat) (dst : List Word) (port : Nat) (payload : List Byte)
  /-- an RTP packet of an audio sender: interface, destination address words and port, SSRC, payload type, sequence number,
  timestamp, marker, and its frames of words (R337) -/
  | rtp (netif : Nat) (dst : List Word) (port ssrc pt seq rtp : Nat) (marker : Bool) (payload : List (List Nat))
  /-- the active lines of a frame as an output port sends them (R255, R256, R260): pixels of the port's format, or what the
  DSC encoder made of them -/
  | raster (port frame : Nat) (link : PortLink) (lines : List (List (List Nat)))
  /-- an RTP packet of a video sender (R259): interface, destination, DSCP, SSRC, payload type, sequence number, timestamp,
  marker, and its runs of samples: line, first sample of the line, samples -/
  | video (netif : Nat) (dst : List Word) (port dscp ssrc pt seq rtp : Nat) (marker : Bool) (runs : List (Nat × Nat × List Nat))
  /-- a PTP message of the port on an interface, with its hardware timestamp (R354) -/
  | ptp (netif : Nat) (msg : PtpSend) (time : Nat)
deriving DecidableEq, Repr


/-- The sealed hand in progress (R269 to R287): its parameters, what is still to apply, and its talon
changes (owner, slabs before, slabs after). -/
structure HandSt where
  /-- a hand is sealed and not resolved (the late window included) -/
  pending : Bool := false
  /-- house time of the SEAL write, and of the seal's completion -/
  edge : Nat := 0
  done : Option Nat := none
  scope : Nat := 0
  epoch : Nat := 0
  apply : Nat := 0
  decide : Nat := 0
  seats : Nat := 0
  tables : Nat := 0
  tslow : Nat := 0
  /-- DEAL has been decided (always so in device scope); the late window is open; the arrival of a late DEAL -/
  dealt : Bool := false
  missed : Bool := false
  lateAt : Option Nat := none
  /-- some domain has taken the hand; it was withdrawn too late -/
  taken : Bool := false
  tooLate : Bool := false
  /-- domains still to apply: heads, contexts, and the apply-time domain -/
  heads : List Nat := []
  ctxs : List Nat := []
  rest : Bool := false
  slabs : List (Nat × Nat × Nat) := []
  /-- checks that failed at the SEAL write (R271), the withdrawal, and the slabs the hand needs -/
  fails : List (Nat × Nat) := []
  withdrawn : Bool := false
  /-- geometry words the host wrote before the seal (R18) -/
  geometry : List Nat := []
  /-- pages, by address over 4,096, of instances below ON at the seal's completion: they take no part (R268, R442) -/
  absent : List Nat := []
deriving DecidableEq, Repr

/-- A master that the PTP port has heard (R354): the interface, its port, the clock it announces, and its last two
Announces. -/
structure Foreign where
  netif : Nat
  sender : BitVec 80
  clock : PtpClock
  latest : Nat
  before : Option Nat := none
deriving DecidableEq, Repr

/-- Hidden state of the TIME block (R242 to R249, R354, R355). -/
structure TimeSt where
  /-- backward steps as T_s and D, the latest first (R249) -/
  steps : List (Nat × Nat) := []
  /-- hold-off of house time: its start, the offset last measured, and whether house time was locked (R248) -/
  holdStart : Option Nat := none
  offset : Int := 0
  holdLocked : Bool := false
  /-- REF_IN: hold-off and displacement, the frame pulse the phase is tracked by, the last pulse, and runs of
  periods within and outside 100 ppm (R243, R248) -/
  refHold : Option Nat := none
  refShift : Int := 0
  refTrack : Nat := 0
  refLast : Option Nat := none
  refGood : Nat := 0
  refBad : Nat := 0
  /-- the seconds of a SET_CTL step that waits for the next PPS edge (R262), and the last PPS edge -/
  setPending : Option Nat := none
  ppsLast : Option Nat := none
  /-- start of the holdover in force (HOLDOVER_S) -/
  holdoverStart : Option Nat := none
  /-- house time was locked once since reset (R354) -/
  everLocked : Bool := false
  /-- Sync messages in a row within 100 ns; the next offset is a step at acquisition (R355, R248) -/
  syncGood : Nat := 0
  acquire : Bool := true
  /-- a two-step Sync that waits for its Follow_Up: sequence, arrival, correction -/
  twoStep : Option (Nat × Nat × Int) := none
  /-- the last Sync: origin with correction, and arrival; the delay request sent: its time -/
  lastSync : Option (Int × Nat) := none
  request : Option Nat := none
  /-- masters heard by their Announces (R354), when the last qualified one arrived (R355), and on the backup, the first and the
  last qualified one of an unbroken run on PTP_NETIF -/
  masters : List Foreign := []
  announced : Nat := 0
  home : Option (Nat × Nat) := none
deriving DecidableEq, Repr
/-- Frame starts within one second of house time (R331): the second, its first and last start, and their count. -/
structure Starts where
  sec : Nat := 0
  first : Nat := 0
  latest : Nat := 0
  count : Nat := 0
deriving DecidableEq, Repr

/-- Hidden state of a receive stream (R338 to R344): its FIFO, oldest first (media index of a timed frame, or the
channel of a single sample in legacy mode, with the words), its realignment, its books and its counters. -/
structure RxStream where
  fifo : List (Nat × List Nat) := []
  /-- a realignment is due at a block boundary; the member reads nothing until then; it restarted -/
  realign : Bool := true
  stopped : Bool := true
  restarted : Bool := true
  /-- its last complete frame (in legacy mode its last sample), and frames repeated since the underrun -/
  last : List Nat := []
  reps : Nat := 0
  written : Nat := 0
  read : Nat := 0
  under : Nat := 0
  lapped : Nat := 0
  repeated : Nat := 0
  muted : Nat := 0
  dropped : Nat := 0
  /-- house time of the last underrun (R342) -/
  underAt : Option Nat := none
  /-- house time of the last overruns, and how many were counted there (R342) -/
  overAt : Option (Nat × Nat) := none
  rot : Nat := 0
  /-- frame starts of the current second and of the one before (R331); the measured rate -/
  now : Starts := {}
  prev : Starts := {}
  rate : Nat := 0
deriving DecidableEq, Repr

/-- Hidden state of an AES3 input (R329 to R331). -/
structure AesIn where
  /-- frames since the last Z preamble, and blocks in a row that were 192 frames long -/
  pos : Option Nat := none
  good : Nat := 0
  /-- channel-status bits of the block so far, of subframes A and B, latest first -/
  csA : List Bool := []
  csB : List Bool := []
  last : List Nat := [0, 0]
  /-- frame starts of the current second and of the one before (R331) -/
  now : Starts := {}
  prev : Starts := {}
  /-- when the last valid preamble arrived, kept in elapsed time (R329) -/
  heard : Nat := 0
deriving DecidableEq, Repr

/-- What an AES3 output sends: its place in the 192-frame block, the channel-status words of the block, and the
subframe words of the present sample instant. -/
structure AesOut where
  pos : Nat := 0
  cs : List Word := []
  words : List Nat := []
deriving DecidableEq, Repr

/-- Hidden state of the audio island. -/
structure AudioSt where
  rx : List (Nat × RxStream) := []
  ains : List (Nat × AesIn) := []
  aouts : List (Nat × AesOut) := []
  /-- delay lines (R345): of transmit streams 0 to 127 and of AES3 outputs from 128, latest words first, each with the house
  time at which the router put them out -/
  lines : List (Nat × List (Nat × List Nat)) := []
  /-- words an embedding stream carries now, and frames that wait for an ST 2110 packet (house time, words) -/
  embeds : List (Nat × List Nat) := []
  waits : List (Nat × List (Nat × List Nat)) := []
  seqs : List (Nat × Nat) := []
  /-- heads whose delay moves toward its target, and heads whose delay is set to it at the next boundary (R347) -/
  moving : List Nat := []
  setting : List Nat := []
  /-- every member realigns at the next block boundary (R322) -/
  realignAll : Bool := false
  /-- house times of the last sample instant and the last block boundary, since the last step of house time (R322) -/
  instant : Option Nat := none
  boundary : Option Nat := none
deriving DecidableEq, Repr

/-- Hidden state of a Tatre sender (R364): size, FORMAT and CRCs of the frame last sent, frames sent since it
was enabled, the picture that waits, and the next SEQ. -/
structure TSend where
  last : Option (Nat × Nat × Nat × List Nat) := none
  frames : Nat := 0
  waiting : Option Pic := none
  seq : Nat := 0
deriving DecidableEq, Repr

/-- What keepalives show of a seat of the own table (R368, R289, R292): arrival of the last accepted one, its
fields, whether a non-zero epoch was carried, and SEND_TIME and BID_EPOCH of the latest ones. -/
structure SeatSt where
  live : Bool := false
  heard : Nat := 0
  epoch : Nat := 0
  flags : Nat := 0
  nonzero : Bool := false
  recent : List (Nat × Nat) := []
deriving DecidableEq, Repr

/-- What dealer keepalives show of a table (R289). -/
structure TableSt where
  live : Bool := false
  heard : Nat := 0
  flags : Nat := 0
deriving DecidableEq, Repr

/-- An open deal at a dealer (R283, R287): table or house level, its identity and terms, who has bid (seats or
tables), the count of bids received for it, tables that folded, and whether bids disagreed. -/
structure DealRec where
  house : Bool := false
  scope : Nat := 0
  epoch : Nat := 0
  apply : Nat := 0
  decide : Nat := 0
  seats : Nat := 0
  tables : Nat := 0
  bids : List Nat := []
  count : Nat := 0
  folds : List Nat := []
  differ : Bool := false
deriving DecidableEq, Repr

/-- Hidden state of deals (R281 to R292, R351, R368 to R371). -/
structure DealSt where
  seats : List (Nat × SeatSt) := []
  tables : List (Nat × TableSt) := []
  opened : List DealRec := []
  /-- decisions taken or received: epoch, apply time, DEAL or FOLD; the latest first -/
  decided : List (Nat × Nat × Nat) := []
  /-- last accepted SEND_TIME of each message type and sender (R371) -/
  last : List (Nat × Nat) := []
  /-- last SEND_TIME given to each message type, and SEND_TIMEs of the latest own keepalives (R351) -/
  given : List (Nat × Nat) := []
  own : List Nat := []
  conflict : Bool := false
  /-- since when this device has been its table's dealer and the house dealer (R290) -/
  dealerSince : Nat := 0
  houseSince : Nat := 0
  /-- contexts whose stream keepalives were last heard (R369) -/
  streams : List (Nat × Nat) := []
deriving DecidableEq, Repr

/-- Keys in the crypto block (R370, R399): provisioning key, and up to two generations of the table and the
house key, newest first. -/
structure Keys where
  prov : Option (List Byte) := none
  table : List (Nat × List Byte) := []
  house : List (Nat × List Byte) := []
deriving DecidableEq, Repr

/-- A signed entry of the witness chain that waits to become available: its 272 bytes before the signature, and
whether it carries one (R316, R317). -/
structure SignDue where
  body : List Byte := []
  signed : Bool := true
  genesis : Bool := false
  chain : Nat := 0
  counter : Nat := 0
  value : List Byte := []
deriving DecidableEq, Repr

/-- Hidden state of the management plane (R311 to R317, R387, R394, R399 to R403). -/
structure MgmtSt where
  /-- the chain value and whether a chain is open; the next record begins a chain -/
  chainC : List Byte := []
  genesis : Bool := true
  /-- entries being signed, and the 64 most recent ones by sequence number (R316) -/
  due : List SignDue := []
  entries : List (Nat × List Byte) := []
  wordIdx : Nat := 0
  /-- body length of an install, chunks written, and flash sectors erased for it (R394) -/
  installLen : Nat := 0
  chunks : List Nat := []
  erased : List Nat := []
  /-- the last quote (R397), and the result of the operation in progress with its response (R403) -/
  quote : List Byte := []
  result : Nat := 0
  rspArgs : List Nat := []
  rsp : List Byte := []
  /-- when firmware stopped at a watchdog, and when it was last started (R387) -/
  stopAt : Option Nat := none
  startAt : Nat := 0
  /-- debug: bytes of DBG_DATA, and expiry of the outstanding challenge (R401) -/
  dbg : List Byte := []
  chalAt : Nat := 0
  /-- the operation in progress has been carried out up to its completion -/
  served : Bool := false
  /-- why the last reset or start of the cores happened (RESET_CAUSE), and whether the data plane was started since -/
  cause : Nat := 0
  started : Bool := false
  /-- first 96 bytes of the header of the running image, and the digest of the kernel set in use (R389, R392, R397) -/
  hdr : List Byte := []
  kernel : List Byte := []
  /-- bytes of KEY_BLOB (R399) -/
  blob : List (Nat × Word) := []
  /-- a changed WSIGN_PERIOD waits for its first instant: the period in force until then, in ms, and the instant (R321) -/
  signWas : Option (Nat × Nat) := none
deriving DecidableEq, Repr

/-- A host access to the store that waits for the command in progress (R414). -/
structure HeldAcc where
  write : Bool
  addr : Nat
  v : Word
deriving DecidableEq, Repr

/-- A command of the store under way (R411 to R424): the groups still to write (address and bytes), what completion
does, and its result. -/
structure NvmCmd where
  groups : List (Nat × List Byte) := []
  result : Nat := 0
  seq : Option Nat := none
  copy : Option Nat := none
  len : Option Nat := none
  buffer : Option (List Byte) := none
  count : Option Nat := none
  /-- password to store or remove: region × 2 + kind -/
  pw : Option (Nat × Option (List Byte)) := none
deriving DecidableEq, Repr

/-- Hidden state of the store controller (R409 to R417). -/
structure NvmSt where
  buffer : List (Nat × Byte) := []
  cmd : Option NvmCmd := none
  held : List HeldAcc := []
  /-- PWRFAIL_N is low, or has not been high for 100 µs; the time at which it rose
  (before 0: before the reset that set house time to 0) -/
  pwrfail : Bool := false
  rose : Option Int := none
  /-- a command was cut short (R417); password bytes; failed unlocks by region -/
  cut : Bool := false
  pwData : List (Nat × Word) := []
  fails : List (Nat × Nat) := []
  scrubbing : Bool := false
deriving DecidableEq, Repr

/-- A power domain or an instance (R430 to R440): its own state, what it does (0 nothing, 1 entering a low state,
2 waking, 3 waiting for the next try), the state it enters, when that began, instances that have agreed (by the address
of their page), the state it left, the wake step with its start, and failed tries of the series. -/
structure PowUnit where
  state : Nat := 0
  phase : Nat := 0
  target : Nat := 0
  asked : Nat := 0
  agreed : List Nat := []
  left : Nat := 0
  step : Nat := 0
  start : Nat := 0
  tries : Nat := 0
  /-- firmware votes (bits 16 to 23 of the vote word) -/
  fw : Nat := 0
  /-- instances whose enabling (R435), and instances whose release (R440), waits for the wake -/
  waits : List Nat := []
  releases : List Nat := []
  /-- the state last requested of an instance while it was under way (R433) -/
  next : Option Nat := none
  /-- the first wake since reset has ended or failed (R464) -/
  tried : Bool := false
deriving DecidableEq, Repr

/-- BOOT_REC (R394): active slot, install journal, target slot, MIN_SEC_VER. -/
structure BootRec where
  active : Nat := 0
  journal : Nat := 0
  target : Nat := 0
  minSec : Nat := 0
deriving DecidableEq, Repr

/-- What survives a reset (R458): the non-volatile store with what region 15 keeps (R407), the fuses, the flash. -/
structure Nonvolatile where
  /-- bytes of regions 0 to 14; groups with an uncorrectable error -/
  store : List (Nat × Byte) := []
  bad : List Nat := []
  /-- the fuse image (R398), and bytes of the flash that differ from an erased one -/
  fuses : List (Nat × Byte) := []
  flash : List (Nat × Byte) := []
  boot : BootRec := {}
  /-- the identity and witness keys exist (R395); when the witness certificate was made (R396) -/
  keysMade : Bool := false
  madeAt : Nat := 0
  keys : Keys := {}
  /-- chain record of the last signing: CHAIN_NO, COUNTER and C (R314) -/
  chain : Option (Nat × Nat × List Byte) := none
  /-- password hashes by region × 2 + kind (R415) -/
  passwords : List (Nat × List Byte) := []
deriving DecidableEq, Repr

/-- A tag pool of a requester port (R46, R151): free and outstanding tags. -/
structure TagPool where
  free : Nat
  out : Nat := 0
deriving DecidableEq, Repr

/-- A handshake channel (R48): credits spent by the sender, tokens sent, tokens received, credits returned, entries freed
and not yet credited back, and the request and acknowledge levels. -/
structure Chan where
  spent : Int := 0
  sent : BitVec 16 := 0
  received : BitVec 16 := 0
  returned : BitVec 16 := 0
  freed : Nat := 0
  req : Bool := false
  ack : Bool := false
deriving DecidableEq, Repr

/-- A request to the talon that waits while owner changes are held (R50, R52). -/
inductive TalonReq where
  | release
  | stage
deriving DecidableEq, Repr

/-- Everything the device holds but what survives a reset and the queue. -/
structure Dev where
  /-- register words by BAR0 address, where they differ from reset -/
  regs : List (Nat × Word) := []
  /-- snapshot mirrors by mirrored address (R58), where they differ from 0 -/
  mirror : List (Nat × Word) := []
  /-- house time reached (R8) -/
  house : Nat := 0
  /-- RESET_N is asserted, or the reset has not ended (R458) -/
  inReset : Bool := false
  /-- free values drawn so far: the model's own field (log entry 4) -/
  draws : Nat := 0
  /-- the completion of the last host access -/
  resp : Option Resp := none
  /-- what left the device, newest first -/
  out : List Out := []
  /-- LO words of RW pairs held until their HI word is written, and HI words latched by a LO read (R62) -/
  loHold : List (Nat × Word) := []
  hiLatch : List (Nat × Word) := []
  /-- MSI-X: masked vectors with a pending message, vectors held by IRQ_COAL, last message times plus 1 (R81) -/
  msiPending : List Nat := []
  msiHeld : List Nat := []
  msiLast : List (Nat × Nat) := []
  /-- recorded fence causes by page address (R449), and pages whose tags have not all returned (R448) -/
  fences : List (Nat × List FenceRec) := []
  draining : List Nat := []
  /-- released instances whose failing pool or channel starts anew once their tags have returned: page address and detail of
  the cause (R52) -/
  booksDue : List (Nat × Nat) := []
  /-- snapshot triggers: source of the pending one, time of the scheduled one (R455, R456) -/
  snapSrc : Nat := 0
  snapSched : Nat := 0
  /-- ledger: E of the audit in progress, its kind, E of the on-demand audit due, last periodic second (R49) -/
  auditE : Nat := 0
  auditNoTalon : Bool := false
  auditDue : Option Nat := none
  auditSecond : Nat := 0
  auditFree : Nat := 0
  auditAlloc : Nat := 0
  /-- the talon's audit freeze, and the requests held during it (R50) -/
  talonFrozen : Bool := false
  /-- a rebuild is due by a host release after REBUILD_FAIL (R54) -/
  rebuildAsked : Bool := false
  /-- configuration requests are completed normally (R463) -/
  cfgReady : Bool := false
  lanes : List (Nat × LaneSt) := []
  bondTx : List (Nat × BondTx) := []
  bondRx : List (Nat × BondRx) := []
  ctxs : List (Nat × CtxSt) := []
  /-- talon: slab map of each owner, and slabs an owner gives up once no reader holds them (R155, R156) -/
  maps : List (Nat × List (Option Nat)) := []
  releasing : List (Nat × List Nat) := []
  /-- tile slots by slab × 512 + slot, and the bytes of slabs and tables that hold no tiles -/
  tiles : List (Nat × Tile) := []
  bytes : List (Nat × Byte) := []
  /-- uncorrectable errors of each pseudo-channel in the current second (R162) -/
  pcErrs : List (Nat × Nat) := []
  /-- bytes moved by each class of MEMSW.QOS in the current second (R174) -/
  moved : List (Nat × Nat) := []
  /-- coefficient words by group × 4096 + index (R192) -/
  coefs : List (Nat × Word) := []
  layers : List (Nat × LayerSt) := []
  /-- who reads which slabs: party and slab (heads 0 to 63, engine layers from 1000, Tatre senders from 3000) -/
  readers : List (Nat × Nat) := []
  heads : List (Nat × HeadSt) := []
  melds : List (Nat × MeldSt) := []
  ports : List (Nat × PortSt) := []
  /-- output sideband ports whose hot-plug input is asserted (R257) -/
  sbHpd : List Nat := []
  /-- next sequence number of the ST 2110-20 senders that have sent (R259) -/
  videoSeqs : List (Nat × Nat) := []
  /-- interfaces that went down, and when their lanes had last recovered (R353) -/
  netBack : List (Nat × Nat) := []
  /-- the answer to the last read by a master of the bus matrix other than the PCIe bridge (R43, R385) -/
  busResp : Option Resp := none
  /-- LUT entries that differ from identity, by table and entry (R216, R221) -/
  luts : List (Nat × Nat) := []
  /-- recorder: per head, the whole entries of the ring oldest first, bytes written in the current second -/
  recHeads : List (Nat × RecHead) := []
  recRing : List RingEntry := []
  recBytes : Nat := 0
  /-- the hand regions are locked (R70, R280) -/
  handLock : Bool := false
  engSince : List (Nat × Option Nat) := []
  engBusyNs : List (Nat × Nat) := []
  hand : HandSt := {}
  tm : TimeSt := {}
  /-- house time at which the device left reset (R462) -/
  relTime : Nat := 0
  /-- the witness channel: counter, record and RESUME mark, oldest first (R310); the next handover carries the
  RESUME mark -/
  witChan : List (Nat × List Byte × Bool) := []
  witResume : Bool := false
  /-- books of the witness chain: records handed over, and records chained (R46) -/
  witHanded : Nat := 0
  witChained : Nat := 0
  audio : AudioSt := {}
  tsends : List (Nat × TSend) := []
  /-- addresses of hand words the host wrote since the last apply (R18, GEOMETRY) -/
  written : List Nat := []
  deal : DealSt := {}
  keys : Keys := {}
  mg : MgmtSt := {}
  store : NvmSt := {}
  doms : List (Nat × PowUnit) := []
  units : List (Nat × PowUnit) := []
  /-- house time of the last rise of ALIVE_OUT, and whether it is high (R461) -/
  aliveAt : Nat := 0
  alive : Bool := false
  /-- a scrub pass of the frame store is under way (R163) -/
  hbmScrub : Bool := false
  /-- the ring that a DMA channel served last (R133): 0 at reset, so that ring 1 comes first among equals (DESIGN CHOICE, log
  entry 245) -/
  dmaLast : Nat := 0
  /-- a rebuild has passed since the talon was fenced (R54) -/
  rebuilt : Bool := false
  /-- requests that met held owner changes, in their order of arrival (R50, R52) -/
  talonWaits : List TalonReq := []
  /-- tag pools by number, channels by sender × 32 + receiver, and the QoS of each requester's latest transaction by
  class × 1024 + number (R48, R151, R152) -/
  tags : List (Nat × TagPool) := []
  chans : List (Nat × Chan) := []
  qos : List (Nat × Nat) := []
  /-- the audit registers: the books as latched at the last AUDIT event (R45, R50) -/
  auditRegs : List BookRead := []
  /-- slabs that no books count: neither FREE nor an owner; and map entries that FREE still counts (R46, R53) -/
  leaked : List Nat := []
  overclaim : Nat := 0
  /-- poisoned slots of a withdrawn slab, by owner × 65536 + position, until its replacement stands there (R492) -/
  lostAt : List (Nat × List Nat) := []
  /-- counters of witness records lost with a slab of the ring (R492) -/
  witLost : List Nat := []
  /-- records of the present edge that wait for the latch of a lower head at the same edge: time, head, record (R310) -/
  witWait : List (Nat × Nat × List Byte) := []
  /-- address of each owner's slab map; and the maps before a decrease that is not yet released, with their address
  (R155) -/
  mapAt : List (Nat × Nat) := []
  oldMaps : List (Nat × List (Option Nat) × Nat) := []
  /-- house time at which slabs given up are released at the latest (R156) -/
  relBy : Nat := 0
  /-- start of the last scrub pass, and bursts it found uncorrectable whose tile has not been read since (R163) -/
  scrubAt : Option Nat := none
  scrubBad : List Nat := []
deriving DecidableEq, Repr

/-- Why a command stops. No meaning of this model stops: the constructor is kept for a command that a
caller feeds through an outcome of its own (never raised here; safe). -/
inductive Fault where
  /-- raised by no command -/
  | none
deriving DecidableEq, Repr

/-- Why a command is refused. -/
inductive Refusal where
  /-- a command that has no meaning yet: raised by the dispatcher alone; safe -/
  | notModelled (mnemonic : String)
deriving DecidableEq, Repr

/-- The whole state: the device, what survives a reset, and the commands that wait, first in first out. -/
structure State where
  dev : Dev := {}
  nv : Nonvolatile := {}
  pending : List Instr := []
deriving DecidableEq, Repr

/-- The machine right after reset: every register at its reset value (unlisted), empty memories, no command
waiting. -/
def State.reset : State := {}

end Sys2Proof.Machine
end

