-- ==== Sys2Proof/Machine/Ops.lean ====
section
/-! DEFINITION. The named operations over the registers of the device: words and fields, saturating
counters, the time of a command, and the draw of a free value. -/
namespace Sys2Proof.Machine
namespace Dev

/-- The stored word at a BAR0 address; an unlisted word holds its reset value. -/
def word (d : Dev) (a : Nat) : Word := sget resetWord d.regs a

/-- The register file with one word replaced. -/
def setWord (d : Dev) (a : Nat) (v : Word) : Dev := { d with regs := sset resetWord d.regs a v }

/-- A field of a stored word at a given address. -/
def bitsAt (d : Dev) (a lo w : Nat) : Nat := bitsOf (d.word a).toNat lo w

/-- A field of a stored word replaced. -/
def putAt (d : Dev) (a lo w x : Nat) : Dev := d.setWord a (BitVec.ofNat 32 (putBits (d.word a).toNat lo w x))

/-- A register field: its live or hand (staged) value. -/
def get (d : Dev) (f : Fld) (i : Nat := 0) (k : Nat := 0) (j : Nat := 0) : Nat := d.bitsAt (f.addr i k j) f.lo f.w

/-- The active copy of a hand-controlled field (R58). -/
def act (d : Dev) (f : Fld) (i : Nat := 0) (k : Nat := 0) (j : Nat := 0) : Nat :=
  d.bitsAt (f.addr i k j - 0x400) f.lo f.w

/-- A one-bit field as a Bool. -/
def flag (d : Dev) (f : Fld) (i : Nat := 0) (k : Nat := 0) : Bool := d.get f i k = 1

/-- A one-bit field of the active copy as a Bool. -/
def actFlag (d : Dev) (f : Fld) (i : Nat := 0) (k : Nat := 0) : Bool := d.act f i k = 1

/-- A register field replaced (live or hand). -/
def put (d : Dev) (f : Fld) (x : Nat) (i : Nat := 0) (k : Nat := 0) (j : Nat := 0) : Dev :=
  d.putAt (f.addr i k j) f.lo f.w x

/-- A one-bit field replaced by a Bool. -/
def putB (d : Dev) (f : Fld) (x : Bool) (i : Nat := 0) (k : Nat := 0) : Dev := d.put f (if x then 1 else 0) i k

/-- A counter increased by `n`, saturating at its field's maximum. -/
def count (d : Dev) (f : Fld) (i : Nat := 0) (k : Nat := 0) (n : Nat := 1) : Dev :=
  d.put f (min (d.get f i k + n) (2 ^ f.w - 1)) i k

/-- A 64-bit value held in a LO and HI pair (R62): read through the LO field. -/
def get64 (d : Dev) (f : Fld) (i : Nat := 0) (k : Nat := 0) : Nat :=
  (d.word (f.addr i k 0)).toNat + 2 ^ 32 * (d.word (f.addr i k 0 + 4)).toNat

/-- The active copy of a 64-bit pair. -/
def act64 (d : Dev) (f : Fld) (i : Nat := 0) (k : Nat := 0) : Nat :=
  (d.word (f.addr i k 0 - 0x400)).toNat + 2 ^ 32 * (d.word (f.addr i k 0 - 0x400 + 4)).toNat

/-- A 64-bit value stored into its pair. -/
def put64 (d : Dev) (f : Fld) (x : Nat) (i : Nat := 0) (k : Nat := 0) : Dev :=
  (d.setWord (f.addr i k 0) (BitVec.ofNat 32 x)).setWord (f.addr i k 0 + 4) (BitVec.ofNat 32 (x / 2 ^ 32))

/-- A saturating counter held in a 64-bit pair. -/
def count64 (d : Dev) (f : Fld) (i : Nat := 0) : Dev := d.put64 f (min (d.get64 f i + 1) (2 ^ 64 - 1)) i

/-- A list of fields of one register element set to 0. -/
def clear (d : Dev) (fs : List Fld) (i : Nat := 0) (k : Nat := 0) : Dev := fs.foldl (fun d f => d.put f 0 i k) d

/-- The house time of a command is never earlier than what the device has reached (log entry 3). -/
def atTime (d : Dev) (t : Nat) : Dev := { d with house := max d.house t }

/-- A fresh free value (log entry 4) and the device with the draw counted. -/
def draw (d : Dev) : Nat × Dev := (Config.freeValue d.draws, { d with draws := d.draws + 1 })

/-- An emission at the device's edge, newest first. -/
def emit (d : Dev) (o : Out) : Dev := { d with out := o :: d.out }

end Dev

/-- Repeat an update for each number below `n`. -/
def forN (n : Nat) (d : Dev) (f : Dev → Nat → Dev) : Dev := (List.range n).foldl f d

end Sys2Proof.Machine
end

