-- ==== Sys2Proof/Machine/Flags.lean ====
section
/-! DEFINITION. The status and event flags every page shares: IRQ_RAW, IRQ_EN and IRQ_PEND (R65), the
class and summary bits (R81, R82), MSI-X messages, the access-error log (R490) and the snapshot
triggers (R455, R456). -/
namespace Sys2Proof.Machine
namespace Dev

/-! Interrupts. -/

/-- IRQ_PEND of a page: IRQ_RAW & IRQ_EN (R65). -/
def irqPend (d : Dev) (r : PageRef) : Word := d.word (pgAddr r + 0x10) &&& d.word (pgAddr r + 0x14)

/-- Bit 0 of a vector control word masks the vector (PRESUMED, PCIe; log entry 9). -/
def vecMasked (d : Dev) (v : Nat) : Bool := d.bitsAt (0x8000 + 16 * v + 12) 0 1 = 1

/-- A message of vector `v` leaves, or sets the pending bit of a masked vector (R81). -/
def msixEmit (d : Dev) (v : Nat) : Dev :=
  if d.vecMasked v then { d with msiPending := v :: d.msiPending.filter (· ≠ v) }
  else
    { d.emit (.msix v ((d.word (0x8000 + 16 * v)).toNat + 2 ^ 32 * (d.word (0x8000 + 16 * v + 4)).toNat)
        (d.word (0x8000 + 16 * v + 8))) with
      msiLast := sset (fun _ => 0) d.msiLast v (d.house + 1) }

/-- R81: a message is due; with IRQ_COAL.US it is held until the spacing of its vector has passed. -/
def msixSend (d : Dev) (v : Nat) : Dev :=
  let last := sget (fun _ => 0) d.msiLast v
  let us := d.get F.GLOBAL_IRQ_COAL_US
  if us ≠ 0 ∧ last ≠ 0 ∧ d.house < (last - 1) + us * 1000 then
    { d with msiHeld := v :: d.msiHeld.filter (· ≠ v) }
  else d.msixEmit v

/-- Store new IRQ_RAW bits of a page; a message leaves when IRQ_PEND turns non-zero (R81). -/
def irqSet (d : Dev) (r : PageRef) (bits : Nat) : Dev :=
  let d' := d.setWord (pgAddr r + 0x10) (d.word (pgAddr r + 0x10) ||| BitVec.ofNat 32 (bits % 2 ^ 31))
  if d.irqPend r = 0 ∧ d'.irqPend r ≠ 0 then d'.msixSend (blkVec r.blk) else d'

/-- Raise event bit `n` in page `p` of an instance. -/
def irq (d : Dev) (b : Blk) (i p n : Nat) : Dev := d.irqSet ⟨b, i, p⟩ (2 ^ n)

/-- Raise an event bit in every page of an instance (the header events of an instance with several
pages, log entry 10). -/
def irqAll (d : Dev) (b : Blk) (i p n : Nat) : Dev := (instPages b i p).foldl (fun d r => d.irqSet r (2 ^ n)) d

/-- Clear IRQ_RAW bits (W1C), and resend while IRQ_PEND stays non-zero (R81). -/
def irqClear (d : Dev) (r : PageRef) (v : Word) : Dev :=
  let d' := d.setWord (pgAddr r + 0x10) (d.word (pgAddr r + 0x10) &&& ~~~ v)
  if d'.irqPend r ≠ 0 then d'.msixSend (blkVec r.blk) else d'

/-- Write IRQ_EN, and resend while IRQ_PEND stays non-zero (R81). -/
def irqEnable (d : Dev) (r : PageRef) (v : Word) : Dev :=
  let d' := d.setWord (pgAddr r + 0x14) (v &&& 0x7FFFFFFF)
  if d'.irqPend r ≠ 0 then d'.msixSend (blkVec r.blk) else d'

/-- GLOBAL.IRQ_CLASS (R81). -/
def irqClass (d : Dev) : Nat :=
  (List.range 22).foldl (fun acc v =>
    if allPages.any (fun r => blkVec r.blk = v && d.irqPend r ≠ 0) then acc + 2 ^ v else acc) 0

/-- The instance of each summary bit (R82): word `k`, bit `i`. -/
def irqSumInst (k i : Nat) : Option (Blk × Nat) :=
  let n := 32 * k + i
  if k ≤ 2 then some (.mlane, n)
  else if k = 3 then (if i < 16 then some (.nlane, i) else if i < 20 then some (.nport, i - 16) else none)
  else if k ≤ 11 then some (.ingest, n - 128)
  else if k ≤ 13 then some (.engine, n - 384)
  else if k ≤ 15 then some (.head, n - 448)
  else if k ≤ 47 then some (.layer, n - 512)
  else if k ≤ 50 then some (.oport, n - 1536)
  else if k = 51 then (if i < 4 then some (.sendV, i) else if i < 20 then some (.sendT, i) else none)
  else if k ≤ 54 then
    (if n - 1664 < 64 then some (.witness, n - 1664) else if n - 1664 = 64 then some (.witChain, 64) else none)
  else none

/-- GLOBAL.IRQ_SUM word `k` (R82). -/
def irqSum (d : Dev) (k : Nat) : Nat :=
  (List.range 32).foldl (fun acc i =>
    match irqSumInst k i with
    | some (b, n) =>
      if (List.range (blkPages b)).any (fun p => d.irqPend ⟨b, n, p⟩ ≠ 0) then acc + 2 ^ i else acc
    | none => acc) 0

/-! The access-error log. -/

/-- R490: an access is logged with a cause of ERR_INFO; `inPage` names the page that was addressed. -/
def logErr (d : Dev) (cause addr : Nat) (write bar2 : Bool) (inPage : Option PageRef) : Dev :=
  let d := if d.get F.GLOBAL_ERR_INFO_CAUSE = 0 then
      ((((d.put F.GLOBAL_ERR_ADDR addr).put F.GLOBAL_ERR_INFO_CAUSE cause).putB F.GLOBAL_ERR_INFO_WRITE write).putB
        F.GLOBAL_ERR_INFO_BAR bar2)
    else d.put F.GLOBAL_ERR_INFO_OVERFLOW 1
  let d := (d.count F.GLOBAL_ERR_COUNT).irq .global 0 0 1
  match inPage with
  | some r => d.irqSet r (if cause = 2 then 2 ^ 26 else 2 ^ 27)
  | none => d

/-! The snapshot triggers. -/

/-- R456: a trigger is not taken: counted in MISSED. -/
def snapMissed (d : Dev) : Dev := (d.count F.SNAP_MISSED).irq .snap 0 0 2

/-- R455, R456: a register, pin or fault trigger (`src` as STS.LAST_SRC) asks for a snapshot LEAD_US after
`t`. -/
def snapTrigger (d : Dev) (src t : Nat) : Dev :=
  let e := t + d.get F.SNAP_LEAD_LEAD_US * 1000
  if d.inReset then d
  else if !d.flag F.SNAP_STS_ARMED then d.snapMissed
  else if d.flag F.SNAP_STS_PENDING then d.count F.SNAP_MERGED
  else if d.flag F.SNAP_STS_SCHED_PENDING ∧ (max e d.snapSched) - (min e d.snapSched) ≤ 10000 then
    d.count F.SNAP_MERGED
  else { (d.put F.SNAP_STS_PENDING 1).put64 F.SNAP_PENDING_E_LO e with snapSrc := src }

/-- R455: a fault event of kind `bit` of FAULT_MASK, from an instance. -/
def snapFault (d : Dev) (bit : Nat) (b : Blk) (i : Nat) : Dev :=
  if bitsOf (d.get F.SNAP_FAULT_MASK_MASK) bit 1 = 1 then
    (((d.put F.SNAP_FAULT_LAST_KIND bit).put F.SNAP_FAULT_LAST_BLOCK (blkCode b)).put
      F.SNAP_FAULT_LAST_INSTANCE i).snapTrigger 4 d.house
  else d

end Dev
end Sys2Proof.Machine
end

