-- ==== Sys2Proof/Machine/Header.lean ====
section
/-! DEFINITION. The common header words (R65): what they read from the recorded fence causes, whether a block
unit is enabled, its power state, and the lock of the hand regions. -/
namespace Sys2Proof.Machine

/-- Software causes (R449): HOST, POWER, FIRMWARE and DISABLED. -/
def swCause (c : Nat) : Bool := c = 0x01 || c = 0x04 || c = 0x05 || c = 0x06

/-- The causes a unit holds at reset: every engine leaves reset fenced with FIRMWARE, DETAIL 1 (R67, R392). -/
def fenceReset (a : Nat) : List FenceRec := if blkAt a = some .engine then [⟨0x05, 1, false⟩] else []

namespace Dev

/-- Page whose header holds the fence state of a unit. -/
def fenceKey (b : Blk) (i p : Nat) : Nat := pageAddr b i (mainPage b p)

/-- Recorded causes of a unit (R449), earliest first. -/
def recs (d : Dev) (b : Blk) (i : Nat) (p : Nat := 0) : List FenceRec := sget fenceReset d.fences (fenceKey b i p)

def setRecs (d : Dev) (b : Blk) (i p : Nat) (l : List FenceRec) : Dev :=
  { d with fences := sset fenceReset d.fences (fenceKey b i p) l }

def fenced (d : Dev) (b : Blk) (i : Nat) (p : Nat := 0) : Bool := !(d.recs b i p).isEmpty

/-- Whether a cause is recorded. -/
def hasCause (d : Dev) (b : Blk) (i p c : Nat) : Bool := (d.recs b i p).any (fun r => r.cause = c)

/-- The cause FENCE_CAUSE shows: the earliest hardware cause, else the earliest software cause (R449). -/
def shownCause (l : List FenceRec) : Option FenceRec :=
  (l.find? (fun r => !swCause r.cause)).orElse (fun _ => l.head?)

/-- CTL.EN of a unit. -/
def en (d : Dev) (b : Blk) (i : Nat) (p : Nat := 0) : Bool := d.bitsAt (fenceKey b i p + 0x08) 0 1 = 1

/-- An instance whose enabling waits for the wake of its domain (R435). -/
def waking (d : Dev) (b : Blk) (i : Nat) : Bool := d.doms.any (fun q => q.2.waits.contains (pageAddr b i 0))

/-- STS.ENABLED (R65): enabled and not fenced; an INGEST, ENGINE, HEAD or SEND unit starts only once MEMSW is
enabled (R67). -/
def enabled (d : Dev) (b : Blk) (i : Nat) (p : Nat := 0) : Bool :=
  d.en b i p && !d.fenced b i p && !d.waking b i &&
    (match b with
     | .ingest | .engine | .head | .sendV | .sendT => d.en .memsw 0
     | _ => true)

/-- POWER.STATE of a unit: 0 ON, 1 IDLE, 2 RETAIN, 3 OFF (R65). -/
def powerState (d : Dev) (b : Blk) (i : Nat) (p : Nat := 0) : Nat := d.bitsAt (fenceKey b i p + 0x30) 4 2

/-- The hand regions are locked (R70): by a sealed hand, or while a revert copies (R280). -/
def handLocked (d : Dev) : Bool := d.handLock

/-- STS of a page (R65). -/
def stsWord (d : Dev) (r : PageRef) : Nat :=
  (if d.enabled r.blk r.inst r.page then 1 else 0) + (if d.fenced r.blk r.inst r.page then 2 else 0)
    + (if d.handLocked then 4 else 0)
    + d.bitsAt (fenceKey r.blk r.inst r.page + 0x0C) 3 2 * 8

/-- FENCE_CAUSE of a page (R65): the shown cause and the stored COUNT. The details of channel credits are recorded as 256
plus the island, apart from those of tag pools (R491). -/
def causeWord (d : Dev) (r : PageRef) : Nat :=
  (match shownCause (d.recs r.blk r.inst r.page) with
    | some c => c.cause + 0x100 * (c.detail % 256)
    | none => 0)
    + d.bitsAt (fenceKey r.blk r.inst r.page + 0x20) 16 16 * 0x10000

/-- STS.RST_BUSY and STS.REL_REFUSED are the stored bits of STS. -/
def setRstBusy (d : Dev) (b : Blk) (i p : Nat) (v : Nat) : Dev := d.putAt (fenceKey b i p + 0x0C) 3 1 v
def rstBusy (d : Dev) (b : Blk) (i : Nat) (p : Nat := 0) : Bool := d.bitsAt (fenceKey b i p + 0x0C) 3 1 = 1
def setRelRefused (d : Dev) (b : Blk) (i p : Nat) (v : Nat) : Dev := d.putAt (fenceKey b i p + 0x0C) 4 1 v

/-- Every unit whose page exists. -/
def validPage (r : PageRef) : Bool :=
  blkFirst r.blk ≤ r.inst && r.inst < blkFirst r.blk + blkCount r.blk && r.page < blkPages r.blk

/-- R463: BAR0 and BAR2 are reachable from READY, MGMT_ONLY or RECOVERY, and at the latest 800 ms after reset. -/
def reachable (d : Dev) : Bool := !d.inReset && (d.cfgReady || d.house ≥ d.relTime + 800000000)

/-- A host write to live or hand words of a page: it needs BAR0 to be reachable, and a unit in RETAIN or OFF
answers with an error response (R71). -/
def gate (d : Dev) (r : PageRef) (off : Nat) (f : Dev → Dev) : Dev :=
  if !d.reachable || !validPage r then d
  else if off ≥ 0x40 && d.powerState r.blk r.inst r.page ≥ 2 then d.logErr 4 (pgAddr r + off) true false (some r)
  else f d

/-- R60: a reserved encoding written to a live field leaves it unchanged and is logged. -/
def rsvCode (d : Dev) (r : PageRef) (off : Nat) : Dev := d.logErr 6 (pgAddr r + off) true false (some r)

end Dev

/-- A meaning that changes the device alone; while the device is in reset (R458) nothing reaches it, and it resets
nothing itself. -/
def State.onDev (s : State) (f : Dev → Dev) : Host.Outcome State Fault Refusal :=
  .next { s with dev := if s.dev.inReset then s.dev else { f s.dev with inReset := false } }

/-- A meaning that changes the device alone, in reset too, and starts or ends no reset. -/
def State.onAny (s : State) (f : Dev → Dev) : Host.Outcome State Fault Refusal :=
  .next { s with dev := { f s.dev with inReset := s.dev.inReset } }

end Sys2Proof.Machine
end

