-- ==== Sys2Proof/Machine/Books.lean ====
section
/-! DEFINITION. The books of the tile transactions: requester ports with their tag pools (R151), the handshake channels
between the islands (R46, R48), and the QoS a transaction carries (R152, R252). -/
namespace Sys2Proof.Machine

/-- A requester of tile transactions: its class in the order of MEMSW.QOS, its tag pool (R151, R491) and its number. -/
structure Req where
  cls : Nat
  pool : Nat
  who : Nat
deriving DecidableEq, Repr

def reqIngest (n : Nat) : Req := ⟨0, 0, n⟩
def reqEngine (e : Nat) : Req := ⟨1, 1 + e / 8, e⟩
def reqHead (h : Nat) : Req := ⟨2, 9 + h / 16, h⟩
def reqSend (port s : Nat) : Req := ⟨3, 13 + port, s⟩
def reqRec : Req := ⟨4, 17, 0⟩
def reqDma (n : Nat) : Req := ⟨5, 18, n⟩
def reqAudio : Req := ⟨6, 19, 0⟩
def reqMeld (h : Nat) : Req := ⟨7, 9 + h / 16, h⟩
/-- BAR2 has no class in MEMSW.QOS: it takes its QoS from GLOBAL.BAR2_CTL (R152), and no MEMSW.BW counts it (R174). -/
def reqBar2 : Req := ⟨8, 18, 0⟩

/-- Tags of a requester port, by the pool numbers of R491: its share (R151). -/
def poolShare (p : Nat) : Nat :=
  if p = 0 then 1024 else if p ≤ 8 then 192 else if p ≤ 12 then 256 else if p ≤ 16 then 64 else if p = 17 then 128
  else if p = 18 then 96 else 32

/-- A tag pool as initialised (R151). -/
def TagPool.init (p : Nat) : TagPool := { free := poolShare p }

/-- Island of the client of a tag pool (R491); the recorder is in the memory switch, and the host path has none. -/
def poolIsland (p : Nat) : Option Nat :=
  if p = 0 then some 16 else if p ≤ 12 then some (17 + p) else if p ≤ 16 then some (p - 1) else if p = 19 then some 30 else none

/-- Island of an instance (R39, R491). -/
def unitIsland (b : Blk) (i : Nat) : Nat :=
  match b with
  | .mlane => i / 8
  | .nport => 12 + i
  | .ingest => 16
  | .engine => 18 + i / 8
  | .head => 26 + i / 16
  | .audio => 30
  | _ => 17

/-- `n` tokens cross a channel: each is driven, acknowledged and taken, and its entry is freed and credited. -/
def Chan.pass (c : Chan) (n : Nat) : Chan :=
  { c with
    sent := c.sent + BitVec.ofNat 16 n, received := c.received + BitVec.ofNat 16 n, returned := c.returned + BitVec.ofNat 16 n
    req := c.req != (n % 2 = 1), ack := c.ack != (n % 2 = 1) }

/-- The books of a channel of a depth as its registers show them, and the channel whose books they are. -/
def Chan.books (c : Chan) (depth : Nat) : ChanRead :=
  ⟨(depth - c.spent).toNat, c.sent, c.received, c.returned, c.freed, c.req, c.ack⟩
def chanOf (r : ChanRead) (depth : Nat) : Chan :=
  { spent := (depth : Int) - r.credits, sent := r.sent, received := r.received, returned := r.returned, freed := r.freed
    req := r.req, ack := r.ack }

/-- Tokens in flight (R48): sent less credits returned, modulo 65,536, less the receiver's free entries. -/
def chanInFlight (r : ChanRead) : Int := ((r.sent - r.returned).toNat : Int) - r.freed

/-- The books of a channel hold (R46): credits, tokens in flight and free entries make its depth. -/
def chanHolds (r : ChanRead) (depth : Nat) : Bool := (r.credits : Int) + chanInFlight r + r.freed = depth

namespace Dev

def pool (d : Dev) (p : Nat) : TagPool := sget TagPool.init d.tags p
def chan (d : Dev) (s r : Nat) : Chan := sget (fun _ => {}) d.chans (s * 32 + r)

/-- A power domain (R430 to R439) and its STATE. -/
def dom (d : Dev) (x : Nat) : PowUnit := sget (fun _ => {}) d.doms x
def domState (d : Dev) (x : Nat) : Nat := d.get F.POWER_DOM_STS_STATE 0 x

/-- The memory switch reaches the frame store: every stack of HBM has woken, or its wake has failed and its share is fenced
(R67). -/
def storeUp (d : Dev) : Bool :=
  (List.range 4).all (fun k => (d.domState (28 + k) = 0 && (d.dom (28 + k)).phase ≤ 1) || d.flag F.POWER_DOM_STS_FENCED 0 (28 + k))

/-- A request can be issued: its pool has a free tag (R151), and the memory switch reaches the store (R67). -/
def tagFree (d : Dev) (q : Req) : Bool := (d.pool q.pool).free ≠ 0 && d.storeUp

/-- The QoS of a requester (R152): that of its class in MEMSW.QOS; head fetch rises at the watermarks of the head's output
buffer (R252). -/
def qosOf (d : Dev) (q : Req) : Nat :=
  if q.cls = 2 && d.flag F.HEAD_OBUF_STS_CRIT q.who then 15
  else if q.cls = 2 && d.flag F.HEAD_OBUF_STS_LOW q.who then 14
  else if q.cls = 8 then d.get F.GLOBAL_BAR2_CTL_QOS
  else d.bitsAt (F.MEMSW_QOS_INGEST.addr 0 0 0) (4 * q.cls) 4

/-- Bytes moved by a class in the order of MEMSW.QOS (R174). -/
def move (d : Dev) (cls n : Nat) : Dev := { d with moved := supd (fun _ => 0) d.moved cls (· + n) }

/-- Tokens cross a channel: one for each tile transaction, line, packet, frame of a port and frame of audio samples (DESIGN
CHOICE, log entry 229). -/
def chanPasses (d : Dev) (s r n : Nat) : Dev := if n = 0 then d else { d with chans := supd (fun _ => {}) d.chans (s * 32 + r) (·.pass n) }
def chanPass (d : Dev) (s r : Nat) : Dev := d.chanPasses s r 1

/-- A transaction of `n` bytes is issued and completes (R151, R152). Its tag is taken and returned within it, so the pool
stands as before; a token goes to the memory switch and one comes back (DESIGN CHOICE, log entry 229). -/
def transact (d : Dev) (q : Req) (n : Nat) : Dev :=
  let d := { d.move q.cls n with qos := sset (fun _ => 0) d.qos (q.cls * 1024 + q.who) (d.qosOf q) }
  match poolIsland q.pool with
  | some i => (d.chanPass i 17).chanPass 17 i
  | none => d

/-- R52: the pool or channel that failed, by the instance released and the detail of its cause, starts anew: the pool with
its share, the channel empty at both ends. -/
def booksAnew (d : Dev) (b : Blk) (i detail : Nat) : Dev :=
  if detail ≥ 256 then { d with chans := sset (fun _ => {}) d.chans (unitIsland b i * 32 + (detail - 256)) {} }
  else
    match b with
    | .ingest | .engine | .head | .nport | .recorder | .audio => { d with tags := sset TagPool.init d.tags detail (TagPool.init detail) }
    | .witChain => { d with witHanded := d.witChained + d.witChan.length }
    | _ => d

end Dev
end Sys2Proof.Machine
end

