-- ==== Sys2Proof/Machine/Tiles.lean ====
section
/-! DEFINITION. Tiles and the frame store: CRC-32C, the plain and pack formats, slots and slabs, the
pseudo-channel hash, and the reading and writing of one tile (R143 to R149, R161, R162, R194). -/
namespace Sys2Proof.Machine

/-! CRC-32C. -/

/-- One bit step of CRC-32C (Castagnoli, reflected; log entry 11). -/
def crcBit (c : Nat) : Nat := if c % 2 = 1 then (c / 2) ^^^ 0x82F63B78 else c / 2

/-- One byte step of CRC-32C. -/
def crcByte (c : Nat) (b : Byte) : Nat :=
  crcBit (crcBit (crcBit (crcBit (crcBit (crcBit (crcBit (crcBit (c ^^^ b.toNat))))))))

/-- CRC-32C of a byte string. -/
def crc32c (bs : List Byte) : Nat := (bs.foldl crcByte 0xFFFFFFFF) ^^^ 0xFFFFFFFF

/-! Formats. -/

/-- Bits per sample. -/
def TileFmt.bits (f : TileFmt) : Nat := 8 + 2 * f.depth

/-- Samples of one line of 64 pixels. -/
def TileFmt.perLine (f : TileFmt) : Nat := (if f.s444 then 192 else 128) + (if f.alpha then 64 else 0)

/-- Samples from one pixel (4:4:4) or one pair of pixels (4:2:2) to the next, in the order of R145. -/
def TileFmt.group (f : TileFmt) : Nat := (if f.s444 then 3 else 4) + (if f.alpha then (if f.s444 then 1 else 2) else 0)

/-- Plain size in sectors, S (R145). -/
def TileFmt.sectors (f : TileFmt) : Nat := f.perLine * 32 * f.bits / 4096

/-- The FORMAT byte (R148); the 16-bit samples of a meld surface carry the code of R226. -/
def TileFmt.byte (f : TileFmt) : Nat :=
  min f.depth 2 + (if f.s444 then 4 else 0) + (if f.alpha then 8 else 0) + (if f.ycc then 16 else 0)
    + (if f.bottom then 32 else 0)

/-- The format a FORMAT byte stands for. -/
def TileFmt.ofByte (b : Nat) : TileFmt :=
  ⟨bitsOf b 0 2, bitsOf b 2 1 = 1, bitsOf b 3 1 = 1, bitsOf b 4 1 = 1, bitsOf b 5 1 = 1⟩

/-- Depth increase by k = s − d (R128). -/
def depthUp (v dIn s : Nat) : Nat := v * 2 ^ (s - dIn) + v / 2 ^ (dIn - (s - dIn))

/-- Depth decrease by k = d − s (R128). -/
def depthDown (v dIn s : Nat) : Nat :=
  if dIn = s then v else min (2 ^ s - 1) ((v + 2 ^ (dIn - s - 1)) / 2 ^ (dIn - s))

/-- Depth conversion (R128); equal depths leave the component as it is. -/
def depthConv (v dIn s : Nat) : Nat := if s ≥ dIn then (if s = dIn then v else depthUp v dIn s) else depthDown v dIn s

/-- Samples packed as one little-endian bit string (R145). -/
def packBits (w : Nat) (xs : List Nat) : Nat := xs.foldr (fun x acc => x % 2 ^ w + 2 ^ w * acc) 0

/-- The bytes of a tile's plain content (R145). -/
def plainBytes (f : TileFmt) (xs : List Nat) : List Byte := leBytes (f.sectors * 512) (packBits f.bits xs)

/-- Samples read back from plain bytes. -/
def unpackBits (w : Nat) : Nat → Nat → List Nat
  | 0, _ => []
  | n + 1, v => v % 2 ^ w :: unpackBits w n (v / 2 ^ w)

/-! Pack format (R194). -/

/-- Every `n`-th sample from sample `o` on. -/
def everyNth (xs : List Nat) (o n : Nat) : List Nat :=
  (List.range (xs.length / n)).map (fun k => xs.getD (k * n + o) 0)

/-- The planes of a tile with their widths, in the order of R194 step 1. -/
def planesOf (f : TileFmt) (xs : List Nat) : List (Nat × List Nat) :=
  if f.s444 then (List.range f.group).map (fun o => (64, everyNth xs o f.group))
  else
    let weave (a b : Nat) := (List.range (xs.length / f.group)).flatMap (fun k =>
      [xs.getD (k * f.group + a) 0, xs.getD (k * f.group + b) 0])
    [(64, weave 1 3), (32, everyNth xs 0 f.group), (32, everyNth xs 2 f.group)]
      ++ (if f.alpha then [(64, weave 4 5)] else [])

/-- The coded residual of sample `k` of a plane of width `w` (R194 steps 2 and 3). -/
def packResidual (bits w : Nat) (pl : List Nat) (k : Nat) : Nat :=
  let p := if k = 0 then 2 ^ (bits - 1) else if k % w = 0 then pl.getD (k - w) 0 else pl.getD (k - 1) 0
  let e := (pl.getD k 0 + 2 ^ bits - p) % 2 ^ bits
  if e ≥ 2 ^ (bits - 1) then 2 * (2 ^ bits - e) - 1 else 2 * e

/-- The fewest bits that hold a value. -/
def bitWidth (v : Nat) : Nat := if v = 0 then 0 else Nat.log2 v + 1

/-- One group of 16 residuals as (bits, width in bits) (R194 step 4). -/
def packGroup (us : List Nat) : Nat × Nat :=
  let k := bitWidth (us.foldl max 0)
  (k + 16 * packBits k us, 4 + k * us.length)

/-- The groups of 16 of a list. -/
def chunks16 (xs : List Nat) : List (List Nat) :=
  (List.range ((xs.length + 15) / 16)).map (fun g => (xs.drop (16 * g)).take 16)

/-- The coded bit string of a tile and its length in bits (R194). -/
def packCode (f : TileFmt) (xs : List Nat) : Nat × Nat :=
  ((planesOf f xs).flatMap (fun p =>
      (chunks16 ((List.range p.2.length).map (packResidual f.bits p.1 p.2))).map packGroup)).foldr
    (fun g acc => (g.1 + 2 ^ g.2 * acc.1, g.2 + acc.2)) (0, 0)

/-- Sectors a tile is stored in: the coded size when it is less than the plain size (R146, R194). -/
def packSectors (f : TileFmt) (xs : List Nat) : Nat :=
  let n := ((packCode f xs).2 + 4095) / 4096
  if n < f.sectors then n else f.sectors

/-- The stored bytes of a tile, plain or coded, filled with zeros to its slot. -/
def storedBytes (f : TileFmt) (pack : Bool) (xs : List Nat) : List Byte :=
  if pack && packSectors f xs < f.sectors then leBytes (f.sectors * 512) (packCode f xs).1 else plainBytes f xs

/-! Places. -/

/-- Slots of a slab for a plain size (R147). -/
def slotsPer (s : Nat) : Nat := 4096 / s

/-- Tile columns and rows of a picture. -/
def Pic.cols (p : Pic) : Nat := (p.width + 63) / 64
def Pic.rows (p : Pic) : Nat := (p.height + 31) / 32

/-- The slab and slot of tile (c, r) of a picture (R147); none where the slab position is empty. -/
def Pic.slot (p : Pic) (c r : Nat) : Option (Nat × Nat) :=
  let i := r * p.cols + c
  let n := slotsPer p.fmt.sectors
  ((p.slabs.getD (i / n) none)).map (fun s => (s, i % n))

/-- Key of a slot in the tile map. -/
def slotKey (s slot : Nat) : Nat := s * 512 + slot

/-- Frame-store addresses of a slot's data and of its metadata entry (R147). -/
def slotAddr (s slot sectors : Nat) : Nat := s * 0x200000 + slot * sectors * 512
def metaAddr (s slot : Nat) : Nat := 0x1F80000000 + s * 0x4000 + slot * 32

/-- Pseudo-channel that serves a frame-store address (R150). -/
def pcOf (a : Nat) : Nat := ((a >>> 9) ^^^ (a >>> 16) ^^^ (a >>> 23) ^^^ (a >>> 30)) &&& 0x7F

/-- Offset of an address within its pseudo-channel (R150). -/
def pcOffset (a : Nat) : Nat := ((a >>> 16) <<< 9) ||| (a &&& 0x1FF)

/-- The pseudo-channels that `used` sectors of a tile slot touch, its metadata entry included; `sectors` is its plain size. -/
def slotPcs (s slot sectors used : Nat) : List Nat :=
  pcOf (metaAddr s slot) :: (List.range used).map (fun i => pcOf (slotAddr s slot sectors + 512 * i))

namespace Dev

def tile (d : Dev) (k : Nat) : Tile := sget (fun _ => {}) d.tiles k
def setTile (d : Dev) (k : Nat) (x : Tile) : Dev := { d with tiles := sset (fun _ => {}) d.tiles k x }

/-- A pseudo-channel is fenced (R162). -/
def pcFenced (d : Dev) (pc : Nat) : Bool := bitsOf (d.get F.MEMSW_PC_FENCED 0 (pc / 32)) (pc % 32) 1 = 1

/-- R162: a pseudo-channel is fenced. -/
def pcFence (d : Dev) (pc : Nat) : Dev :=
  if d.pcFenced pc then d
  else (d.putAt (F.MEMSW_PC_FENCED.addr 0 (pc / 32) 0) (pc % 32) 1 1).irq .memsw 0 0 2

/-- R161: an uncorrectable error at a burst is counted and its address held; R162: the pseudo-channel is
fenced when it reaches its limit within the second. -/
def hbmError (d : Dev) (burst : Nat) : Dev :=
  let d := if d.get F.MEMSW_UE_COUNT = 0 then d.put64 F.MEMSW_UE_ADDR_LO_ADDR (burst / 32 * 32) else d
  let d := (d.count F.MEMSW_UE_COUNT).irq .memsw 0 0 1
  let pc := pcOf burst
  let d := { d with pcErrs := supd (fun _ => 0) d.pcErrs pc (· + 1) }
  if sget (fun _ => 0) d.pcErrs pc ≥ max 1 (d.get F.MEMSW_PC_CTL_PC_UE_LIMIT) then d.pcFence pc else d

/-- Corrected errors are counted (R161). -/
def corrected (d : Dev) (n : Nat) : Dev :=
  if n = 0 then d else (d.count F.MEMSW_CE_COUNT 0 0 n).irq .memsw 0 0 0

/-- A burst lies in a slot's metadata entry; in it or in the `used` sectors of its data. -/
def inEntry (s slot burst : Nat) : Bool := metaAddr s slot ≤ burst && burst < metaAddr s slot + 32
def inSlot (s slot sectors used burst : Nat) : Bool :=
  (slotAddr s slot sectors ≤ burst && burst < slotAddr s slot sectors + used * 512) || inEntry s slot burst

/-- `used` sectors of a slot are rewritten: what scrubbing found in them is gone (R163). -/
def slotMended (d : Dev) (s slot sectors used : Nat) : Dev :=
  if d.scrubBad.isEmpty then d else { d with scrubBad := d.scrubBad.filter (fun b => !inSlot s slot sectors used b) }

/-- `used` sectors of a slot, or its entry, lie on a fenced pseudo-channel (R162). -/
def slotFenced (d : Dev) (s slot sectors used : Nat) : Bool := (slotPcs s slot sectors used).any d.pcFenced

/-- The stored tile of a picture; an empty slab position shows as poisoned (R492). -/
def picTile (d : Dev) (p : Pic) (c r : Nat) : Tile :=
  match p.slot c r with
  | some (s, n) => d.tile (slotKey s n)
  | none => { poison := true }

/-- R161 to R163: the read of a tile completes flagged as poisoned: by an uncorrectable error, one that scrubbing found, or a
fenced pseudo-channel on a sector it uses. -/
def readFails (d : Dev) (p : Pic) (c r : Nat) (errs : List ReadError) : Bool :=
  match p.slot c r with
  | none => true
  | some (s, n) =>
    let used := (d.tile (slotKey s n)).sectors
    errs.any (fun e => e.col = c && e.row = r && !e.fixed) || d.scrubBad.any (inSlot s n p.fmt.sectors used)
      || d.slotFenced s n p.fmt.sectors used

/-- R161 to R163: a tile read. Corrected errors are counted. An uncorrectable error, one that scrubbing found, or a fenced
pseudo-channel on any of its sectors completes it flagged as poisoned and sets POISON in its entry; an unreadable entry
is rewritten with STAMP 0. -/
def readTile (d : Dev) (q : Req) (p : Pic) (c r : Nat) (errs : List ReadError) : Tile × Dev :=
  match p.slot c r with
  | none => ({ poison := true }, d)
  | some (s, n) =>
    let x := d.tile (slotKey s n)
    let d := d.transact q (x.sectors * 512 + 32)
    let here := errs.filter (fun e => e.col = c ∧ e.row = r)
    let d := d.corrected (here.filter (·.fixed)).length
    let bad := here.filter (fun e => !e.fixed)
    if !d.readFails p c r errs then (x, d)
    else
      let x' := { x with poison := true, stamp := if bad.any (·.inMeta) || d.scrubBad.any (inEntry s n) then 0 else x.stamp }
      (x', (bad.map (·.burst)).foldl hbmError ((d.setTile (slotKey s n) x').slotMended s n p.fmt.sectors x.sectors))

/-- R144 to R149: one tile of a picture is written. `prev` is the owner's previous published picture, for
DIRTY. A write to a fenced pseudo-channel is discarded (R162): the tile is marked poisoned (log entry 12). -/
def writeTile (d : Dev) (q : Req) (p : Pic) (prev : Option Pic) (c r stamp : Nat) (poison : Bool)
    (data : List Nat) : Dev :=
  match p.slot c r with
  | none => d
  | some (s, n) =>
    let crc := crc32c (plainBytes p.fmt data)
    let old := prev.map (fun v => d.picTile v c r)
    let dirty := match old, prev with
      | some o, some v => !(o.valid && c < v.cols && r < v.rows && o.crc = crc)
      | _, _ => true
    let used := if p.pack then packSectors p.fmt data else p.fmt.sectors
    let lost := d.slotFenced s n p.fmt.sectors used
    ((d.setTile (slotKey s n)
      { stamp := stamp, crc := crc, frame := p.frame, sectors := used, pack := p.pack, fmt := p.fmt,
        poison := poison || lost, dirty := dirty, valid := true, owner := p.owner, buffer := p.buffer,
        col := c, row := r, data := data }).slotMended s n p.fmt.sectors used).transact q (used * 512 + 32)

/-- R159: a tile copied forward from another picture: content and metadata unchanged but for DIRTY, which is 0 (R149). Its
source is read as by R161 and R162. -/
def copyTile (d : Dev) (q : Req) (p src : Pic) (c r : Nat) (errs : List ReadError) : Dev :=
  match p.slot c r with
  | none => d
  | some (s, n) =>
    let rd := d.readTile q src c r errs
    let x := rd.1
    let lost := d.slotFenced s n p.fmt.sectors x.sectors
    ((rd.2.setTile (slotKey s n) { x with dirty := false, poison := x.poison || lost }).slotMended s n p.fmt.sectors
      x.sectors).transact q (x.sectors * 512 + 32)

end Dev

/-- The samples of tile column `c` of stored lines, padded with zeros to a whole tile (R144). -/
def tileOfLines (f : TileFmt) (lines : List (List Nat)) (c : Nat) : List Nat :=
  let n := f.perLine
  let one (ln : List Nat) := let xs := (ln.drop (c * n)).take n; xs ++ List.replicate (n - xs.length) 0
  (lines.take 32).flatMap one ++ List.replicate ((32 - min 32 lines.length) * n) 0

/-- Samples of a pixel of a stored tile: its three components in plain order and its alpha (R145). -/
def tilePixel (f : TileFmt) (xs : List Nat) (x y : Nat) : List Nat × Option Nat :=
  if f.s444 then
    let o := (y * 64 + x) * f.group
    ([xs.getD o 0, xs.getD (o + 1) 0, xs.getD (o + 2) 0], if f.alpha then some (xs.getD (o + 3) 0) else none)
  else
    let o := (y * 32 + x / 2) * f.group
    ([xs.getD (o + 1 + 2 * (x % 2)) 0, xs.getD o 0, xs.getD (o + 2) 0],
      if f.alpha then some (xs.getD (o + 4 + x % 2) 0) else none)

/-- The 32 bytes of a metadata entry (R148). -/
def Tile.entry (x : Tile) : List Byte :=
  leBytes 8 x.stamp ++ leBytes 4 x.crc ++ leBytes 4 x.frame
    ++ leBytes 1 ((x.sectors - 1) % 32 + (if x.pack then 32 else 0)) ++ leBytes 1 x.fmt.byte
    ++ leBytes 1 ((if x.poison then 1 else 0) + (if x.dirty then 2 else 0) + (if x.valid then 4 else 0))
    ++ leBytes 1 0 ++ leBytes 2 x.owner ++ leBytes 1 x.buffer ++ leBytes 1 0 ++ leBytes 2 x.col
    ++ leBytes 2 x.row ++ leBytes 4 0

end Sys2Proof.Machine
end

