-- ==== Sys2Proof/Machine/Talon.lean ====
section
/-! DEFINITION. The talon (R155 to R160): slab maps, free slabs, and the changes of ownership. -/
namespace Sys2Proof.Machine

/-- Slabs of the frame store (R143). -/
def slabCount : Nat := 64512

/-- Owner codes (R155). -/
def ownCtx (n : Nat) : Nat := 0x1000 + n
def ownLayer (n : Nat) : Nat := 0x2000 + n
def ownMeld (h g : Nat) : Nat := 0x3000 + h * 4 + g
def ownRecorder : Nat := 0x4000
def ownWitness : Nat := 0x5000
def ownStage : Nat := 0x6000
def ownAudio : Nat := 0x7000

namespace Dev

/-- An owner's slab map; an empty position is `none` (R492). -/
def map (d : Dev) (o : Nat) : List (Option Nat) := sget (fun _ => []) d.maps o

/-- Bytes of the talon tables that a map takes: 16-bit entries, up to the next 64-byte boundary (R155). -/
def mapSpan (m : List (Option Nat)) : Nat := (m.length * 2 + 63) / 64 * 64

/-- Places taken in the talon tables, but for the map of owner `o`: address and size. -/
def mapRuns (d : Dev) (o : Nat) : List (Nat × Nat) :=
  (d.maps.filter (fun q => q.1 ≠ o)).map (fun q => (sget (fun _ => 0) d.mapAt q.1, mapSpan q.2))
    ++ d.oldMaps.map (fun q => (q.2.2, mapSpan q.2.1))

/-- Where a map of `n` bytes is placed: the lowest free place from 0x1F_BF04_0000 on (R155; DESIGN CHOICE, log entry 13). -/
def mapPlace (d : Dev) (o n : Nat) : Nat :=
  let rs := d.mapRuns o
  let free (a : Nat) : Bool := rs.all (fun r => a + n ≤ r.1 || r.1 + r.2 ≤ a)
  let ends := (rs.map (fun r => r.1 + r.2)).filter (fun a => 0x1FBF040000 ≤ a && free a)
  if free 0x1FBF040000 then 0x1FBF040000 else ends.foldl min (ends.headD 0x1FBF040000)

/-- An owner's slab map replaced: it moves only where its length changes (R155). -/
def setMap (d : Dev) (o : Nat) (m : List (Option Nat)) : Dev :=
  let at_ := if m.isEmpty then 0 else if m.length = (d.map o).length then sget (fun _ => 0) d.mapAt o else d.mapPlace o (mapSpan m)
  { d with maps := sset (fun _ => []) d.maps o m, mapAt := sset (fun _ => 0) d.mapAt o at_ }

/-- Address of an owner's slab map in the talon tables (R155). -/
def mapAddr (d : Dev) (o : Nat) : Nat := sget (fun _ => 0) d.mapAt o

/-- Slabs an owner has given up and a reader may still hold (R156). -/
def released (d : Dev) (o : Nat) : List Nat := sget (fun _ => []) d.releasing o

/-- All slabs held by owners: the entries that the ALLOCATED counts hold (R46). -/
def heldSlabs (d : Dev) : List Nat :=
  d.maps.flatMap (fun p => p.2.filterMap id) ++ d.releasing.flatMap (fun p => p.2)

/-- TALON.FREE: the free slabs as the talon counts them. A leaked slab is in no count, and an entry that came to stand in a
map by an upset is in two (R46). -/
def freeCount (d : Dev) : Nat := slabCount + d.overclaim - d.heldSlabs.length - d.leaked.length

/-- The `n` lowest free slabs, as far as there are that many. -/
def lowestFree (d : Dev) (n : Nat) : List Nat :=
  let held := d.heldSlabs
  ((List.range slabCount).filter (fun s => !held.contains s && !d.leaked.contains s)).take n

/-- Owner code and map position of a slab; 0 for a free slab (R155, R175). -/
def ownerOf (d : Dev) (s : Nat) : Nat × Nat :=
  match d.maps.find? (fun p => p.2.contains (some s)) with
  | some p => (p.1, p.2.findIdx (· = some s))
  | none =>
    match d.releasing.find? (fun p => p.2.contains s) with
    | some p => (p.1, ((d.oldMaps.find? (fun q => q.1 = p.1 && q.2.1.contains (some s))).map
        (fun q => q.2.1.findIdx (· = some s))).getD 0)
    | none => (0, 0)

/-- Slabs an owner holds. -/
def slabsOf (d : Dev) (o : Nat) : Nat := ((d.map o).filterMap id).length + (d.released o).length

/-- Slabs held by owner class `c`; class 0 is the free slabs (R175). -/
def classAlloc (d : Dev) (c : Nat) : Nat :=
  if c = 0 then d.freeCount
  else (d.maps.filter (fun p => p.1 / 0x1000 = c)).foldl (fun n p => n + (p.2.filterMap id).length) 0
    + (d.releasing.filter (fun p => p.1 / 0x1000 = c)).foldl (fun n p => n + p.2.length) 0

/-- `n` free slabs are added at the end of an owner's map; positions FREE cannot fill stay empty. -/
def growMap (d : Dev) (o n : Nat) : Dev :=
  let got := d.lowestFree n
  d.setMap o (d.map o ++ got.map some ++ List.replicate (n - got.length) none)

/-- An owner's map is cut to `n` positions; the slabs cut off wait for their readers (R156), and the map before stays in
the tables until then (R155). -/
def shrinkMap (d : Dev) (o n : Nat) : Dev :=
  let cut := ((d.map o).drop n).filterMap id
  let d : Dev := { d with
    oldMaps := d.oldMaps ++ [(o, d.map o, d.mapAddr o)], releasing := supd (fun _ => []) d.releasing o (· ++ cut) }
  d.setMap o ((d.map o).take n)

/-- A change of every picture the device refers to. -/
def mapPics (d : Dev) (f : Pic → Pic) : Dev :=
  { d with
    ctxs := d.ctxs.map (fun q => (q.1, { q.2 with
      cur := q.2.cur.map (fun c => { c with pic := f c.pic }), pubs := q.2.pubs.map f }))
    layers := d.layers.map (fun q => (q.1, { q.2 with
      job := q.2.job.map (fun j => { j with src := f j.src, src2 := j.src2.map f })
      waiting := q.2.waiting.map (fun w => (f w.1, w.2.map f))
      field := q.2.field.map f
      prepared := q.2.prepared.map f }))
    heads := d.heads.map (fun q => (q.1, { q.2 with
      planes := q.2.planes.map (fun p => { p with pic := p.pic.map f, fall := p.fall.map f }) }))
    melds := d.melds.map (fun q => (q.1, { q.2 with pic := f q.2.pic }))
    tsends := d.tsends.map (fun q => (q.1, { q.2 with waiting := q.2.waiting.map f })) }

/-- R492: a slab comes to stand in an empty position of an owner's map: its slots hold no tile, POISON marks the slots that a
withdrawn slab left there, its other bytes are zero, and the owner's pictures refer to it. -/
def fillAt (d : Dev) (o k s : Nat) : Dev :=
  let d : Dev := { d.setMap o (lset (d.map o) k (some s)) with
    tiles := d.tiles.filter (fun x => x.1 / 512 ≠ s)
    bytes := d.bytes.filter (fun x => x.1 / 0x200000 ≠ s)
    lostAt := sset (fun _ => []) d.lostAt (o * 65536 + k) [] }
  d.mapPics (fun p =>
    let i := k - p.buffer * p.slabs.length
    if p.owner = o && p.buffer * p.slabs.length ≤ k && p.slabs.getD i (some 0) = none then { p with slabs := lset p.slabs i (some s) }
    else p)

/-- R492: the empty positions are filled with the lowest free slabs, owners in ascending code. -/
def fillEmpty (d : Dev) : Dev :=
  d.maps.foldl (fun d p =>
    (List.range p.2.length).foldl (fun (d : Dev) k =>
      if (d.map p.1).getD k (some 0) = none then
        match d.lowestFree 1 with
        | [s] => (sget (fun _ => []) d.lostAt (p.1 * 65536 + k)).foldl
            (fun (d : Dev) slot => d.setTile (slotKey s slot) { poison := true }) (d.fillAt p.1 k s)
        | _ => d
      else d) d) d

/-- HOST_STAGE_STS (R160, R492): slabs held, and whether they are fewer than requested. -/
def stageStatus (d : Dev) : Dev :=
  let held := ((d.map ownStage).filterMap id).length
  let short := held < d.get F.TALON_HOST_STAGE_SLABS
  let was := d.flag F.TALON_HOST_STAGE_STS_SHORT
  let d := (d.put F.TALON_HOST_STAGE_STS_HELD held).putB F.TALON_HOST_STAGE_STS_SHORT short
  if short ∧ !was then d.irq .talon 0 0 2 else d

/-- Some party reads one of these slabs (R130, R156). -/
def slabsRead (d : Dev) (ss : List Nat) : Bool := d.readers.any (fun r => ss.contains r.2)

/-- R156, R492: the slabs given up at a hand return to FREE as far as no reader holds them, and all of them one frame period
of the slowest active head after the last apply; the maps they stood in leave the tables, and empty positions are
filled. -/
def releaseSlabs (d : Dev) : Dev :=
  let keep := (d.releasing.map (fun q => (q.1, q.2.filter (fun s => d.house < d.relBy && d.slabsRead [s])))).filter (fun q => !q.2.isEmpty)
  (({ d with releasing := keep, oldMaps := d.oldMaps.filter (fun q => keep.any (·.1 = q.1)) } : Dev).fillEmpty).stageStatus

/-- The slabs of buffer `b` of a context under CTX_BUF as applied (R157). -/
def ctxBuffer (d : Dev) (n b : Nat) : List (Option Nat) :=
  let k := d.act F.TALON_CTX_BUF_SLABS 0 n
  ((d.map (ownCtx n)).drop (b * k)).take k

/-- Slabs of a picture. -/
def picSlabs (p : Pic) : List Nat := p.slabs.filterMap id

/-- The pictures a party reads from now on. -/
def setReads (d : Dev) (who : Nat) (ps : List Pic) : Dev :=
  { d with readers := d.readers.filter (fun r => r.1 ≠ who) ++ ps.flatMap (fun p => (picSlabs p).map (fun s => (who, s))) }

/-- Two pictures share a slab. -/
def overlap (a b : List Nat) : Bool := a.any (fun s => b.contains s)

end Dev
end Sys2Proof.Machine
end

