-- ==== Sys2Proof/Machine/IngestCore.lean ====
section
/-! DEFINITION. What every command that touches an ingest context shares: its kind and resources (R112), its
states (R123), discards, loss, buffers (R130, R158), the frame CRC, the frozen-content detector and
publication (R26, R27, R130). -/
namespace Sys2Proof.Machine

/-- STATE codes (R123). -/
def stIdle : Nat := 0
def stSearch : Nat := 1
def stLocked : Nat := 2
def stLost : Nat := 3
def stProtected : Nat := 4
def stUnsupported : Nat := 5

/-- Discard reasons (R141). -/
def drIncomplete : Nat := 1
def drFormat : Nat := 2
def drShort : Nat := 3
def drLong : Nat := 4
def drLinkErr : Nat := 5
def drProtected : Nat := 6
def drSkew : Nat := 7
def drDescriptor : Nat := 8
def drSlab : Nat := 9

/-- Insert a number into a list without repeats. -/
def addOnce (l : List Nat) (n : Nat) : List Nat := if l.contains n then l else n :: l

namespace Dev

def ctx (d : Dev) (n : Nat) : CtxSt := sget (fun _ => {}) d.ctxs n
def setCtx (d : Dev) (n : Nat) (c : CtxSt) : Dev := { d with ctxs := sset (fun _ => {}) d.ctxs n c }
def updCtx (d : Dev) (n : Nat) (f : CtxSt → CtxSt) : Dev := d.setCtx n (f (d.ctx n))

def layer (d : Dev) (n : Nat) : LayerSt := sget (fun _ => {}) d.layers n
def setLayer (d : Dev) (n : Nat) (c : LayerSt) : Dev := { d with layers := sset (fun _ => {}) d.layers n c }
def updLayer (d : Dev) (n : Nat) (f : LayerSt → LayerSt) : Dev := d.setLayer n (f (d.layer n))

def ctxState (d : Dev) (n : Nat) : Nat := d.get F.INGEST_STATE_STATE n
def setCtxState (d : Dev) (n st : Nat) : Dev := d.put F.INGEST_STATE_STATE st n
def ctxKind (d : Dev) (n : Nat) : Nat := d.act F.INGEST_CFG_KIND n

/-- Kinds (R141): baseband 1 to 5, ST 2110 6 to 9, Tatre 10, host surface 11. -/
def isBaseband (k : Nat) : Bool := 1 ≤ k && k ≤ 5
def isSt2110 (k : Nat) : Bool := 6 ≤ k && k ≤ 9
def isVideo (k : Nat) : Bool := isBaseband k || k = 6 || k = 10 || k = 11

/-- The number of media lanes of a kind (R112). -/
def kindLanes (k count : Nat) : Nat :=
  if k = 1 then 4 else if k = 2 then count else if k = 3 then count else if k = 4 then 1 else if k = 5 then 4 else 0

/-- Media lanes of a bound context. -/
def ctxLanes (d : Dev) (n : Nat) : List Nat :=
  (List.range (kindLanes (d.ctxKind n) (d.act F.INGEST_LINK_LANE_COUNT n))).map
    (· + d.act F.INGEST_LINK_FIRST_LANE n)

/-- Contexts bound to a media lane, among those that a hand has given a kind. -/
def laneCtxs (d : Dev) (lane : Nat) : List Nat :=
  (List.range 256).filter (fun n => (d.ctxLanes n).contains lane)

/-- Layers of which some register differs from reset: no other layer draws anything. -/
def knownLayers (d : Dev) : List Nat :=
  d.regs.foldl (fun l p =>
    if 0x500000 ≤ p.1 ∧ p.1 < 0x900000 then addOnce l ((p.1 - 0x500000) / 0x1000) else l) []

/-- Layers bound to a context by the applied hand. -/
def ctxLayers (d : Dev) (n : Nat) : List Nat :=
  d.knownLayers.filter (fun l => d.act F.LAYER_SRC_CTX_CONTEXT l = n)

/-- The storage format of a context's frames (R128): the received sampling and depth under STORE. -/
def ctxFmt (d : Dev) (n : Nat) (sig : SigFmt) : TileFmt :=
  let k := d.ctxKind n
  { depth := d.act F.INGEST_STORE_DEPTH n
    s444 := sig.sampling ≤ 1 || (sig.sampling = 2 && d.actFlag F.INGEST_STORE_SAMPLING n)
    alpha := k = 11 && d.actFlag F.INGEST_STORE_ALPHA n
    ycc := sig.sampling ≠ 0
    bottom := sig.interlaced && sig.bottom }

/-! Forced causes (R18). They change at latches: what starts or ends one at the edge of a latch counts after that latch. -/

/-- The causes in force for what is bound to a context, as bits of FRESH_STS. -/
def ctxCauses (d : Dev) (n : Nat) : Nat :=
  let c := d.ctx n
  let b (p : Bool) (k : Nat) : Nat := if p then 2 ^ k else 0
  b c.fencedCause 9 + b (d.flag F.INGEST_FRESH_STS_FROZEN n && d.actFlag F.INGEST_FRESH_CTL_FROZEN_POLICY n) 12
    + b (d.flag F.INGEST_FRESH_STS_HB_FAIL n) 13 + b c.peerCause 14 + b c.protectedCause 15

/-- The causes of a layer's own. -/
def layerCauses (d : Dev) (l : Nat) : Nat :=
  (if (d.layer l).engCause then 2 ^ 10 else 0) + (if (d.layer l).geom then 2 ^ 11 else 0)

/-- A change of causes follows at the present time: those before it are kept. -/
def causeMark (d : Dev) (n was : Nat) : Dev :=
  d.updCtx n (fun c => if c.causeAt = some d.house then c else { c with causeAt := some d.house, causeWas := was })
def noteCause (d : Dev) (n : Nat) : Dev := d.causeMark n (d.ctxCauses n)
def noteLayer (d : Dev) (l : Nat) : Dev :=
  let was := d.layerCauses l
  d.updLayer l (fun s => if s.causeAt = some d.house then s else { s with causeAt := some d.house, causeWas := was })

/-- R142: a frame is discarded with its reason and counted. -/
def discard (d : Dev) (n reason : Nat) : Dev :=
  (((d.updCtx n (fun c => { c with cur := none })).count F.INGEST_FRAMES_DISC n).put
    F.INGEST_DISC_REASON_REASON reason n).irq .ingest n 0 3

/-- A frame in progress that has a buffer or lines is discarded; a frame already given up is forgotten. -/
def discardCur (d : Dev) (n reason : Nat) : Dev :=
  match (d.ctx n).cur with
  | some f => if f.drop then d.updCtx n (fun c => { c with cur := none }) else d.discard n reason
  | none => d

/-- R140: a FORMAT_CHANGE raised at this very edge is taken back: its count, and its bit where it read 0 before. -/
def changeUndo (d : Dev) (n : Nat) : Dev :=
  match (d.ctx n).changed with
  | some (t, was) =>
    if t = d.house then
      let d := d.put F.INGEST_FORMAT_CHANGES (d.get F.INGEST_FORMAT_CHANGES n - 1) n
      let d := if was then d else d.putAt (pageAddr .ingest n 0 + 0x10) 2 1 0
      d.updCtx n (fun c => { c with changed := none })
    else d
  | none => d

/-- R136: a context in SEARCH or LOCKED goes LOST. What its stream sends after that is merged anew (DEDUCED, log entry 212). -/
def ctxLose (d : Dev) (n : Nat) : Dev :=
  if d.ctxState n = stSearch ∨ d.ctxState n = stLocked then
    let d := ((d.discardCur n drIncomplete).changeUndo n).updCtx n (fun c =>
      { c with lastStart := none, highSeq := none, closedRtp := none })
    ((d.count F.INGEST_LOST_EVENTS n).setCtxState n stLost).irq .ingest n 0 1
  else d

/-- A context searches; silence counts from here (R123, R136). -/
def ctxSearch (d : Dev) (n : Nat) : Dev :=
  (d.setCtxState n stSearch).updCtx n (fun c => { c with heard := (d.house, false), heard1 := (d.house, false), heard2 := (d.house, false) })

/-- R125: the stream's format changed: the frame in progress is discarded and the context searches again. -/
def formatChange (d : Dev) (n : Nat) : Dev :=
  let was := d.bitsAt (pageAddr .ingest n 0 + 0x10) 2 1 = 1
  ((((d.discardCur n drFormat).count F.INGEST_FORMAT_CHANGES n).setCtxState n stSearch).updCtx n
    (fun c => { c with
      confirmed := none, oddFrames := 0, oddPeriods := 0, lastStart := none, periods := []
      changed := some (d.house, was) })).irq .ingest n 0 2

/-- The latest complete frame and its withdrawal (R113, R69). -/
def latest (d : Dev) (n : Nat) : Option Pic := (d.ctx n).pubs.head?
def withdraw (d : Dev) (n : Nat) : Dev := d.updCtx n (fun c => { c with cur := none, pubs := [] })

/-- WRITE_LINE of a frame written tile by tile (R130): the last of its first lines that are all written. -/
def showWritten (d : Dev) (n : Nat) : Dev :=
  match (d.ctx n).cur with
  | none => d
  | some f =>
    if f.drop then d
    else
      let whole (r : Nat) : Bool := (List.range f.pic.cols).all (fun c => f.written.contains (r * f.pic.cols + c))
      let k := if f.copied then f.pic.rows else ((List.range f.pic.rows).takeWhile whole).length
      if k = 0 then d else d.put F.INGEST_WRITE_LINE (min (32 * k) f.pic.height - 1) n

/-- Buffers a context may write into (R130, R158): neither the latest complete frame's nor one being read,
with no empty position. -/
def freeBuffers (d : Dev) (n : Nat) : List Nat :=
  (List.range (d.act F.TALON_CTX_BUF_BUFFERS 0 n)).filter (fun b =>
    let ss := (d.ctxBuffer n b).filterMap id
    (d.latest n).elim true (fun p => !overlap (picSlabs p) ss)
      && !d.slabsRead ss && !(d.ctxBuffer n b).isEmpty && !(d.ctxBuffer n b).contains none)

/-- R158: a context begins a frame: it takes a buffer, or discards the frame with reason SLAB. -/
def beginFrame (d : Dev) (n : Nat) (t : Nat) (sig : SigFmt) (f : TileFmt) : Dev :=
  let c := d.ctx n
  let tiles := (sig.width + 63) / 64 * ((sig.height + 31) / 32)
  let d := d.put F.INGEST_WRITE_LINE 0xFFFFFFFF n
  let short := tiles > d.act F.TALON_CTX_BUF_SLABS 0 n * slotsPer f.sectors
  let d := if short then (d.putAt (F.TALON_CTX_SHORT.addr 0 (n / 32) 0) (n % 32) 1 1).irq .talon 0 0 1 else d
  let d := if d.freeBuffers n = [] then d.count F.TALON_BUF_STARVE else d
  match (if short then [] else d.freeBuffers n) with
  | [] => (d.discard n drSlab).updCtx n (fun c => { c with cur := some { sig := sig, drop := true } })
  | b :: _ =>
    let p : Pic :=
      { owner := ownCtx n, buffer := b, slabs := d.ctxBuffer n b, frame := c.nextFrame
        width := sig.width, height := sig.height, fmt := f, pack := d.actFlag F.INGEST_STORE_PACK n
        start := t, seq := c.seqNo }
    d.updCtx n (fun c =>
      { c with
        cur := some { pic := p, sig := sig, lastLine := t }
        pubs := (c.pubs.take 1) ++ (c.pubs.drop 1).filter (fun q => !overlap (picSlabs q) (picSlabs p)) })

/-- The heartbeat patch of a context and whether a tile intersects it (R26, R28, R32). -/
def hbTile (d : Dev) (n c r : Nat) : Bool :=
  let x := d.act F.INGEST_HB_POS_HB_X n
  let y := d.act F.INGEST_HB_POS_HB_Y n
  (d.actFlag F.INGEST_FRESH_CTL_HB_EN n || d.actFlag F.INGEST_FRESH_CTL_HB_CROP n) && x / 64 ≤ c && c ≤ (x + 31) / 64 && y / 32 ≤ r && r ≤ (y + 3) / 32

/-- Whether a tile lies in the exclusion rectangle (R26). -/
def exclTile (d : Dev) (n c r : Nat) : Bool :=
  d.actFlag F.INGEST_FRESH_CTL_EXCL_EN n
    && d.act F.INGEST_FROZEN_EXCL_0_COL0 n ≤ c && c ≤ d.act F.INGEST_FROZEN_EXCL_1_COL1 n
    && d.act F.INGEST_FROZEN_EXCL_0_ROW0 n ≤ r && r ≤ d.act F.INGEST_FROZEN_EXCL_1_ROW1 n

/-- Tile positions of a picture in raster order. -/
def picPositions (p : Pic) : List (Nat × Nat) :=
  (List.range p.rows).flatMap (fun r => (List.range p.cols).map (fun c => (c, r)))

/-- The frame CRC (R26). -/
def frameCrc (d : Dev) (n : Nat) (p : Pic) : Nat :=
  crc32c (((picPositions p).filter (fun q => !d.hbTile n q.1 q.2 && !d.exclTile n q.1 q.2)).flatMap
    (fun q => leBytes 4 (d.picTile p q.1 q.2).crc))

/-- R27: the frozen-content detector on a published frame. -/
def frozenDetect (d : Dev) (n crc : Nat) : Dev :=
  let lim := d.act F.INGEST_FRESH_LIMITS_FROZEN_LIMIT n
  let same := (d.ctx n).prevCrc = some crc
  let d := (d.noteCause n).updCtx n (fun c => { c with prevCrc := some crc })
  if !d.actFlag F.INGEST_FRESH_CTL_CONTENT n || lim = 0 then d
  else if same then
    let d := d.count F.INGEST_FRESH_RUNS_SAME_RUN n
    if d.get F.INGEST_FRESH_RUNS_SAME_RUN n ≥ lim ∧ !d.flag F.INGEST_FRESH_STS_FROZEN n then
      ((d.put F.INGEST_FRESH_STS_FROZEN 1 n).count F.INGEST_FROZEN_EVENTS n).irq .ingest n 0 8
    else d
  else
    let was := d.flag F.INGEST_FRESH_STS_FROZEN n
    let d := (d.put F.INGEST_FRESH_RUNS_SAME_RUN 0 n).put F.INGEST_FRESH_STS_FROZEN 0 n
    if was then d.irq .ingest n 0 9 else d

/-- HB_FAIL is raised or cleared, with its event (R30, R38). -/
def hbFail (d : Dev) (n : Nat) (v : Bool) : Dev :=
  if d.flag F.INGEST_FRESH_STS_HB_FAIL n = v then d
  else ((d.noteCause n).putB F.INGEST_FRESH_STS_HB_FAIL v n).irq .ingest n 0 (if v then 10 else 11)

/-- Whether the heartbeat patch lies inside a picture (R31). -/
def hbInside (d : Dev) (n : Nat) (p : Pic) : Bool :=
  d.act F.INGEST_HB_POS_HB_X n + 32 ≤ p.width && d.act F.INGEST_HB_POS_HB_Y n + 4 ≤ p.height

/-- R31: HB_FAIL from the first published frame that does not hold the patch; it stays until a hand has placed the patch anew,
inside the frame, and the counter then changes. -/
def hbPlaced (d : Dev) (n : Nat) (p : Pic) : Dev :=
  if d.actFlag F.INGEST_FRESH_CTL_HB_EN n ∧ !d.hbInside n p then
    (d.hbFail n true).updCtx n (fun c => { c with hbOut := true })
  else d

/-- R195: HB_READ is due for a published frame, where its engine runs. -/
def hbQueue (d : Dev) (n : Nat) : Dev :=
  if d.actFlag F.INGEST_FRESH_CTL_HB_EN n && d.enabled .engine (d.act F.INGEST_HB_ENGINE_ENGINE n) then
    d.updCtx n (fun c => { c with hbDue := true })
  else d

/-- Engines that serve an engine layer under the applied hand (R182). -/
def layerEngines (d : Dev) (l : Nat) : List Nat :=
  if d.actFlag F.LAYER_ENG_CTL_ENG_EN l then
    (List.range (2 ^ d.act F.LAYER_ENG_CTL_ENG_COUNT l)).map (· + d.act F.LAYER_ENG_CTL_ENGINE l)
  else []

/-- A picture is skipped by an engine layer: counted in each engine that serves it (R183, R187). -/
def engSkip (d : Dev) (l : Nat) : Dev := (d.layerEngines l).foldl (fun d e => d.count F.ENGINE_SKIPS e) d

/-- The pictures an engine layer holds: of its job, the one that waits, and an unpaired field. -/
def engHold (d : Dev) (l : Nat) : Dev :=
  let s := d.layer l
  d.setReads (1000 + l)
    ((s.job.elim [] (fun j => j.src :: j.src2.toList)) ++ (s.waiting.elim [] (fun w => w.1 :: w.2.toList)) ++ s.field.toList)

/-- R183: a ready picture waits for its job to start; a waiting picture is replaced and counted. -/
def engWait (d : Dev) (l : Nat) (w : Pic × Option Pic) : Dev :=
  let d := if (d.layer l).waiting.isSome then d.engSkip l else d
  d.updLayer l (fun s => { s with waiting := some w })

/-- R183, R187: a published picture makes the jobs of the engine layers of its context ready. -/
def engReady (d : Dev) (n : Nat) (p : Pic) : Dev :=
  ((d.ctxLayers n).filter (fun l => d.actFlag F.LAYER_ENG_CTL_ENG_EN l)).foldl (fun d l =>
    if d.act F.LAYER_ENG_CTL_DEINT l = 1 then
      let first := p.fmt.bottom = d.actFlag F.LAYER_ENG_CTL_FIELD_ORDER l
      if first then
        let d := if (d.layer l).field.isSome then d.engSkip l else d
        (d.updLayer l (fun s => { s with field := some p })).engHold l
      else
        match (d.layer l).field with
        | some f => ((d.updLayer l (fun s => { s with field := none })).engWait l (f, some p)).engHold l
        | none => d.engSkip l
    else (d.engWait l (p, none)).engHold l) d

/-- Raster, sampling, depth and interlace of a frame (R126). -/
def fmtKey (p : Pic) (sig : SigFmt) : Nat × Nat × Nat × Nat × Bool :=
  (p.width, p.height, sig.sampling, sig.depth, sig.interlaced)

/-- R126: a published frame of another format makes the bound layers with FIT = FULL re-plan and puts GEOMETRY on the
other ones, and on the trump planes (R24). A rebind does not forget the format of the frame before it. -/
def noteFormat (d : Dev) (n : Nat) (key : Nat × Nat × Nat × Nat × Bool) : Dev :=
  let d := match (d.ctx n).pubFmt with
    | some old =>
      if old = key then d
      else
        let d := (d.ctxLayers n).foldl (fun (d : Dev) l =>
          if d.act F.LAYER_COMP_CTL_FIT l = 1 then d.updLayer l (fun s => { s with refit := true })
          else (d.noteLayer l).updLayer l (fun s => { s with geom := true })) d
        ((List.range 64).filter (fun h => d.actFlag F.HEAD_TRUMP_CTL_EN h && d.act F.HEAD_TRUMP_CTL_CONTEXT h = n)).foldl (fun (d : Dev) h =>
          { d with heads := supd (fun _ => {}) d.heads h (fun s =>
              if s.trumpGeom then s else { s with trumpGeom := true, trumpAt := some d.house }) }) d
    | none => d
  d.updCtx n (fun c => { c with pubFmt := some key })

/-- Steps 1 and 2 of R214: the 12-bit components of a stored pixel. -/
def pix12 (t : Tile) (x y : Nat) : List Nat := (tilePixel t.fmt t.data x y).1.map (fun v => depthConv v t.fmt.bits 12)

/-- The bytes of a pixel as a witness window takes them (R298). -/
def pixelBytes (c : List Nat) : List Byte := (List.range 3).flatMap (fun k => leBytes 2 (c.getD k 0))

/-- The CRC of a rectangle of pixels (R298). -/
def rectCrc (px : Nat → Nat → List Nat) (x y w h : Nat) : Nat :=
  crc32c ((List.range h).flatMap (fun j => (List.range w).flatMap (fun i => pixelBytes (px (x + i) (y + j)))))

/-- A pixel of a stored picture after steps 1 and 2 of R214; positions outside it give zeros. -/
def picPixel (d : Dev) (p : Pic) (x y : Nat) : List Nat :=
  if x < p.width ∧ y < p.height then pix12 (d.picTile p (x / 64) (y / 32)) (x % 64) (y % 32) else [0, 0, 0]

/-- Windows in PAIRED mode under the applied hand that are paired with layers of a context: head, window and
the corresponding source rectangle (R301). -/
def pairedOf (d : Dev) (n : Nat) : List (Nat × Nat × (Nat × Nat × Nat × Nat)) :=
  (List.range 64).flatMap (fun h => (List.range 16).filterMap (fun w =>
    if d.act F.WITNESS_WIN_CTL_EN h w = 1 ∧ d.act F.WITNESS_WIN_CTL_MODE h w = 1 then
      let k := d.act F.WITNESS_WIN_CTL_SLOT h w
      let l := d.act F.HEAD_SLOT_LAYER h k
      if d.act F.HEAD_SLOT_EN h k = 1 ∧ d.act F.LAYER_SRC_CTX_CONTEXT l = n then
        let x : Int := d.act F.WITNESS_WIN_XY_WIN_X h w - sgn 16 (d.act F.LAYER_DST_XY_DST_X l) + d.act F.LAYER_SRC_XY_SRC_X l
        let y : Int := d.act F.WITNESS_WIN_XY_WIN_Y h w - sgn 16 (d.act F.LAYER_DST_XY_DST_Y l) + d.act F.LAYER_SRC_XY_SRC_Y l
        some (h, w, (x.toNat, y.toNat, d.act F.WITNESS_WIN_WH_WIN_W h w, d.act F.WITNESS_WIN_WH_WIN_H h w))
      else none
    else none))

/-- R302: the paired values of a picture that its context publishes. -/
def pairValues (d : Dev) (n : Nat) (p : Pic) : List (Nat × (Nat × Nat × Nat × Nat) × Nat) :=
  (d.pairedOf n).map (fun q => (q.1 * 16 + q.2.1, q.2.2, rectCrc (d.picPixel p) q.2.2.1 q.2.2.2.1 q.2.2.2.2.1 q.2.2.2.2.2))

/-- Tatre sender `s` (0 to 255): the instance of its page and its block there (R376). -/
def tsPage (s : Nat) : Nat := 4 + s / 16

def tsend (d : Dev) (s : Nat) : TSend := sget (fun _ => {}) d.tsends s
def setTsend (d : Dev) (s : Nat) (x : TSend) : Dev := { d with tsends := sset (fun _ => {}) d.tsends s x }

/-- Tatre senders of a context under the applied hand. -/
def ctxSenders (d : Dev) (n : Nat) : List Nat :=
  (List.range 256).filter (fun s =>
    d.actFlag F.SENDT_CFG_EN (tsPage s) (s % 16) && d.act F.SENDT_CFG_CONTEXT (tsPage s) (s % 16) = n)

/-- R364: a published frame waits for its senders; a frame that already waits is replaced and counted. -/
def tatreWait (d : Dev) (n : Nat) (p : Pic) : Dev :=
  (d.ctxSenders n).foldl (fun d s =>
    let d := if (d.tsend s).waiting.isSome then d.count F.SENDT_SKIPPED (tsPage s) (s % 16) else d
    (d.setTsend s { d.tsend s with waiting := some p }).setReads (3000 + s) [p]) d

/-- R130: the frame in progress becomes the latest complete frame. -/
def publish (d : Dev) (n t : Nat) : Dev :=
  match (d.ctx n).cur with
  | none => d
  | some f =>
    let p := { f.pic with time := t }
    let p := { p with pairs := d.pairValues n p }
    let last := d.picTile p (p.cols - 1) (p.rows - 1)
    let crc := d.frameCrc n p
    let base := isBaseband (d.ctxKind n)
    let d := (d.noteFormat n (fmtKey p f.sig)).noteCause n
    let d := d.updCtx n (fun c =>
      { c with
        fields := c.fields || p.fmt.bottom
        cur := none, pubs := p :: c.pubs, nextFrame := (c.nextFrame + 1) % 2 ^ 32, seqNo := c.seqNo + 1
        fencedCause := false, protectedCause := false
        peerCause := c.peerCause && d.flag F.INGEST_FRESH_STS_PEER_LOST n })
    let d := ((d.count F.INGEST_FRAMES_PUB n).put F.INGEST_LATEST_FRAME p.frame n).put64 F.INGEST_LAST_STAMP_LO last.stamp n
    let d := ((d.put F.INGEST_FMT_ACTIVE_WIDTH p.width n).put F.INGEST_FMT_ACTIVE_HEIGHT p.height n)
    let d := ((d.put F.INGEST_FMT_TOTAL_HTOTAL (if base then f.sig.htotal else 0) n).put F.INGEST_FMT_TOTAL_VTOTAL
      (if base then f.sig.vtotal else 0) n)
    let d := ((d.put F.INGEST_FMT_COLOUR_SAMPLING f.sig.sampling n).put F.INGEST_FMT_COLOUR_DEPTH f.sig.depth n)
    let d := ((d.putB F.INGEST_FMT_COLOUR_NARROW f.sig.narrow n).put F.INGEST_FMT_COLOUR_COLORIMETRY f.sig.colorimetry n)
    let d := ((d.put F.INGEST_FMT_COLOUR_TRANSFER f.sig.transfer n).putB F.INGEST_FMT_COLOUR_INTERLACED f.sig.interlaced n)
    let d := d.put F.INGEST_FRAME_CRC crc n
    let d := ((((d.frozenDetect n crc).hbPlaced n p).hbQueue n).engReady n p).tatreWait n p
    if d.ctxState n = stSearch then (d.setCtxState n stLocked).irq .ingest n 0 0 else d

end Dev
end Sys2Proof.Machine
end

