-- ==== Sys2Proof/Machine/NetCore.lean ====
section
/-! DEFINITION. The network interfaces (R352, R353): the lanes and the code of each, whether it is up, and what its loss
does to the paths of contexts (R116, R136) and to the PTP port (R355); the loss of the house reference (R243). -/
namespace Sys2Proof.Machine
namespace Dev

/-! The house reference. -/

/-- SRC.HOUSE_REF in force: 0 FREE, 1 PTP, 2 PPS_10M. -/
def houseRef (d : Dev) : Nat := d.act F.TIME_SRC_HOUSE_REF

def updTm (d : Dev) (f : TimeSt → TimeSt) : Dev := { d with tm := f d.tm }

/-- Length of the holdover in force, in seconds. -/
def holdoverSec (d : Dev) : Nat :=
  match d.tm.holdoverStart with
  | some s => (d.house - s) / 1000000000
  | none => d.get F.TIME_HOLDOVER_S

/-- A holdover starts, or ends and leaves its length (R262). -/
def holdoverOn (d : Dev) : Dev :=
  let d := d.put F.TIME_STS_HOLDOVER 1
  if d.tm.holdoverStart.isSome then d else d.updTm (fun s => { s with holdoverStart := some d.house })
def holdoverOff (d : Dev) : Dev :=
  ((d.put F.TIME_HOLDOVER_S d.holdoverSec).put F.TIME_STS_HOLDOVER 0).updTm (fun s => { s with holdoverStart := none })

/-- The house reference is lost (R243): house time runs on XO156; a hold-off in force ends in the holdover. -/
def houseLost (d : Dev) : Dev :=
  if d.flag F.TIME_STS_HOLDOVER && !d.flag F.TIME_STS_HOLDOFF then d
  else
    (((d.put F.TIME_STS_LOCKED 0).put F.TIME_STS_HOLDOFF 0).holdoverOn.updTm
      (fun s => { s with holdStart := none, acquire := true, syncGood := 0 })).irq .time 0 0 1

/-- The interface the PTP port is on. -/
def ptpIface (d : Dev) : Nat :=
  if d.flag F.TIME_PTP_STS_ON_BACKUP then d.act F.TIME_PTP_CFG_BACKUP_NETIF else d.act F.TIME_PTP_CFG_PTP_NETIF

/-- The PTP port runs: PTP is the house reference in force. -/
def ptpOn (d : Dev) : Bool := d.houseRef = 1

/-- The servo loses its reference; its step at re-acquisition is an announced one. -/
def ptpReset (d : Dev) : Dev :=
  ((d.put F.TIME_PTP_STS_SERVO_LOCK 0).put F.TIME_PTP_STS_PORT_STATE 4).updTm
    (fun s => { s with acquire := true, syncGood := 0, twoStep := none, lastSync := none, request := none, announced := d.house })

/-- An Announce interval in ns (PTP_INTV.LOG_ANNOUNCE, signed), and the time without a qualified Announce after which PTP is
lost (R355). -/
def annInterval (d : Dev) : Nat :=
  let l := d.act F.TIME_PTP_INTV_LOG_ANNOUNCE
  if l < 128 then 1000000000 * 2 ^ l else 1000000000 / 2 ^ (256 - l)
def annTimeout (d : Dev) : Nat := d.act F.TIME_PTP_INTV_ANNOUNCE_TIMEOUT * d.annInterval

/-- PTP_ANNOUNCE_TIMEOUT is due (R355): the port runs and follows, and no qualified Announce has arrived for ANNOUNCE_TIMEOUT
intervals. -/
def annOver (d : Dev) : Bool := d.ptpOn && d.get F.TIME_PTP_STS_PORT_STATE ≠ 6 && d.tm.announced + d.annTimeout ≤ d.house

/-- PTP is lost (R355): with BACKUP_EN the port moves to its backup; without SLAVE_ONLY it may become
grandmaster (R354). -/
def ptpLose (d : Dev) : Dev :=
  if !d.ptpOn then d
  else
    let d := d.ptpReset.houseLost
    if d.actFlag F.TIME_PTP_CFG_BACKUP_EN && !d.flag F.TIME_PTP_STS_ON_BACKUP then
      (d.put F.TIME_PTP_STS_ON_BACKUP 1).count F.TIME_MASTER_CHANGES
    else if d.actFlag F.TIME_PTP_CFG_SLAVE_ONLY then d
    else d.put F.TIME_PTP_STS_PORT_STATE 6

/-! Interfaces, numbered 4 × port + sub-port. -/

/-- Network lanes of an interface (R352). -/
def netLanes (d : Dev) (i : Nat) : List Nat :=
  let p := i / 4
  let s := i % 4
  let run (a n : Nat) : List Nat := (List.range n).map (4 * p + a + ·)
  match d.act F.NPORT_PORT_CFG_MODE p with
  | 1 | 4 | 6 => if s = 0 then run 0 4 else []
  | 2 | 5 => if s < 2 then run (2 * s) 2 else []
  | 3 => run s 1
  | _ => []

/-- The CODE that a port's mode asks of its lanes (R352). -/
def netCode (d : Dev) (p : Nat) : Nat :=
  match d.act F.NPORT_PORT_CFG_MODE p with
  | 1 | 2 | 3 => 4
  | 4 | 5 => 3
  | _ => 1

/-- R86: the CODE of network lane `n` matches its port's mode; any code suits a port that is off. -/
def netCodeOk (d : Dev) (n : Nat) : Bool :=
  d.act F.NPORT_PORT_CFG_MODE (n / 4) = 0 || d.act F.NLANE_RATE_CODE n = d.netCode (n / 4)

/-- An interface is up (R353). -/
def netUp (d : Dev) (i : Nat) : Bool :=
  bitsOf (d.get F.NPORT_PORT_STS_LINK_UP (i / 4)) (i % 4) 1 = 1 && d.enabled .nport (i / 4) && d.act F.NPORT_SP_CFG_EN (i / 4) (i % 4) = 1

/-- R353: the IP packet of a UDP payload of `n` bytes is longer than the MTU; IPv4 destinations are ::ffff:a.b.c.d (R141). -/
def overMtu (dest n : Nat) : Bool := 9000 < n + 8 + (if dest / 2 ^ 32 = 0xFFFF then 20 else 40)

/-- A frame longer than the MTU is discarded and counted (R353). -/
def tooLong (d : Dev) (i : Nat) : Dev := d.count F.NPORT_FCS_ERR (i / 4) (i % 4)

def linkBit (d : Dev) (i : Nat) : Bool := d.bitsAt (F.NPORT_PORT_STS_LINK_UP.addr (i / 4) 0 0) (i % 4) 1 = 1
def setLinkBit (d : Dev) (i v : Nat) : Dev := d.putAt (F.NPORT_PORT_STS_LINK_UP.addr (i / 4) 0 0) (i % 4) 1 v

/-- A path of a context is down. -/
def pathDown (d : Dev) (n : Nat) (path2 : Bool) : Dev :=
  let was := d.flag F.INGEST_STATE_PATH_DOWN n
  let d := (d.put (if path2 then F.INGEST_STATE_PATH2_DOWN else F.INGEST_STATE_PATH1_DOWN) 1 n).put
    F.INGEST_STATE_PATH_DOWN 1 n
  if was then d else d.irq .ingest n 0 7

/-- A path of an ST 2110 context is silent; with every path it uses silent, the context is lost, and the bits stay as they
stood (R116, R136). -/
def pathGone (d : Dev) (n : Nat) (path2 : Bool) : Dev :=
  if !d.enabled .ingest n || !isSt2110 (d.ctxKind n) then d
  else if d.actFlag F.INGEST_CFG_DUAL_PATH n then
    if d.flag (if path2 then F.INGEST_STATE_PATH1_DOWN else F.INGEST_STATE_PATH2_DOWN) n then d.ctxLose n else d.pathDown n path2
  else d.ctxLose n

/-- A path of a network context is silent at once when its interface goes down (R116, R136); a Tatre context does
not go LOST by it (R132). -/
def netSilent (d : Dev) (i n : Nat) : Dev :=
  let k := d.ctxKind n
  let own := d.act F.INGEST_LINK_NETIF n
  let dual := d.actFlag F.INGEST_CFG_DUAL_PATH n
  let others := (List.range 16).any (fun j => j ≠ own && j ≠ i && d.netUp j)
  let bonded := k = 10 && d.actFlag F.INGEST_LINK_BONDED n
  if (isSt2110 k || k = 10) && d.enabled .ingest n then
    if own = i && !bonded then (if k = 10 && !dual then d else if k = 10 then d.pathDown n false else d.pathGone n false)
    else if dual && !others then (if k = 10 then d.pathDown n true else d.pathGone n true)
    else d
  else d

/-- R353: an interface goes down. -/
def netDrop (d : Dev) (i : Nat) : Dev :=
  if !d.linkBit i then d
  else
    let ptp := d.act F.NPORT_SP_CFG_EN (i / 4) (i % 4) = 1 && i = d.ptpIface
    let d := { (d.setLinkBit i 0).irq .nport (i / 4) 0 (i % 4) with netBack := sset (fun _ => 0) d.netBack i (d.house + 1) }
    let d := d.updTm (fun s => { s with
      masters := s.masters.filter (fun m => m.netif ≠ i), home := if i = d.act F.TIME_PTP_CFG_PTP_NETIF then none else s.home })
    let d := (List.range 256).foldl (fun d n => d.netSilent i n) d
    if ptp then d.ptpLose else d

/-- R353: a network lane has recovered; an interface of it that went down waits 100 ms from then. Times are kept as one more,
0 where it never went down. -/
def netHeal (d : Dev) (n : Nat) : Dev :=
  { d with netBack := d.netBack.map (fun q =>
      if (d.netLanes q.1).contains n && q.2 ≠ 0 then (q.1, d.house + 1) else q) }

/-- R353: a network lane that loses signal or lock, or fails its training, takes its interface down. -/
def netLaneLoss (d : Dev) (n : Nat) : Dev :=
  (List.range 4).foldl (fun d s =>
    let i := n / 4 * 4 + s
    if (d.netLanes i).contains n then d.netDrop i else d) d

end Dev
end Sys2Proof.Machine
end

