-- ==== Sys2Proof/Machine/LaneCore.lean ====
section
/-! DEFINITION. What every command that touches a serial lane shares: acquisition, signal loss and its passing
to contexts and bonds, lane states and bonded mode (R88 to R109). Lanes 0 to 95 are MLANE, 96 to 111 NLANE. -/
namespace Sys2Proof.Machine

/-- The block and number of a lane's page. -/
def laneBlk (n : Nat) : Blk := if n < 96 then .mlane else .nlane
def laneIdx (n : Nat) : Nat := if n < 96 then n else n - 96

/-- A field of MLANE seen in the page of any lane (R111). -/
def laneFld (f : Fld) (n : Nat) : Fld := { f with blk := laneBlk n }

namespace Dev

def lget (d : Dev) (f : Fld) (n : Nat) : Nat := d.get (laneFld f n) (laneIdx n)
def lact (d : Dev) (f : Fld) (n : Nat) : Nat := d.act (laneFld f n) (laneIdx n)
def lput (d : Dev) (f : Fld) (x n : Nat) : Dev := d.put (laneFld f n) x (laneIdx n)
def lcount (d : Dev) (f : Fld) (n k : Nat) : Dev := d.count (laneFld f n) (laneIdx n) 0 k
def lirq (d : Dev) (n bit : Nat) : Dev := d.irq (laneBlk n) (laneIdx n) 0 bit

def lane (d : Dev) (n : Nat) : LaneSt := sget (fun _ => {}) d.lanes n
def setLane (d : Dev) (n : Nat) (c : LaneSt) : Dev := { d with lanes := sset (fun _ => {}) d.lanes n c }
def updLane (d : Dev) (n : Nat) (f : LaneSt → LaneSt) : Dev := d.setLane n (f (d.lane n))

def laneFenced (d : Dev) (n : Nat) : Bool := d.fenced (laneBlk n) (laneIdx n)

/-- The page of a lane. -/
def lanePage (n : Nat) : PageRef := ⟨laneBlk n, laneIdx n, 0⟩

/-- Loopback (R102): the receive half takes the lane's own transmit bits; the transmit half sends the received bits. -/
def loopNear (d : Dev) (n : Nat) : Bool := d.lact F.MLANE_RX_CFG_RX_MODE n = 2
def loopFar (d : Dev) (n : Nat) : Bool := d.lact F.MLANE_TX_CFG_TX_MODE n = 2

/-- The receive half passes data: enabled, in L0, with signal, lock and adaptation (R95). In LOOP_NEAR the bits come from
the lane's own transmitter, which must drive; the detectors, lock and adaptation are of the ball input and do not count
(R102; DEDUCED, log entry 238). -/
def rxData (d : Dev) (n : Nat) : Bool :=
  d.lact F.MLANE_RX_CFG_RX_EN n = 1 && d.en (laneBlk n) (laneIdx n) && !d.laneFenced n
    && d.lget F.MLANE_LANE_STS_RX_LSTATE n = 0 && (d.lane n).rxTarget.isNone
    && (if d.loopNear n then !(d.lane n).txIdle
        else d.lget F.MLANE_LANE_STS_LOS n = 0 && d.lget F.MLANE_LANE_STS_LOL n = 0 && !(d.lane n).acq)

/-- A packet that an interface receives leaves again on its lanes in LOOP_FAR (R102). -/
def netLoops (d : Dev) (i : Nat) (p : NetPacket) : Dev :=
  ((d.netLanes i).filter (fun k => d.loopFar (96 + k) && d.rxData (96 + k) && !(d.lane (96 + k)).txIdle)).foldl
    (fun d k => d.emit (.loopPacket (96 + k) p)) d

/-- An interface in LOOP_NEAR receives what the device itself has sent on it (R102). -/
def netHears (d : Dev) (i : Nat) (own : Out → Bool) : Bool :=
  (d.netLanes i).isEmpty || !(d.netLanes i).all (fun k => d.loopNear (96 + k)) || d.out.any own

/-! The equaliser (R93, R94). -/

/-- The equaliser stages a mode freezes (R94): CTLE, and DFE with FFE. -/
def ctleFrozen (mode : Nat) : Bool := mode = 1 || mode = 2
def dfeFrozen (mode : Nat) : Bool := mode = 1

/-- The control fields of a stage become the values in use. -/
def useCtle (d : Dev) (n : Nat) : Dev := d.lput F.MLANE_RX_EQ_STS_CTLE (d.lget F.MLANE_RX_EQ_CTL_CTLE n) n
def useTaps (d : Dev) (n : Nat) : Dev :=
  let page := pgAddr (lanePage n)
  let d := (d.setWord (page + 0x50) (d.word (page + 0x48)))
  if n < 96 then d.setWord (page + 0x54) (d.word (page + 0x4C))
  else (List.range 4).foldl (fun d k => d.setWord (page + 0xB0 + 4 * k) (d.word (page + 0xA0 + 4 * k))) d

/-- The control fields of the frozen stages act (R94). -/
def useControls (d : Dev) (n mode : Nat) : Dev :=
  let d := if ctleFrozen mode then d.useCtle n else d
  if dfeFrozen mode then d.useTaps n else d

/-- R95: acquisition starts: received data is discarded and ADAPT_DONE is cleared; an interface loses its lane. The
equaliser starts from the control fields (R94), or, from an exit from L1 or L2 until an acquisition ends, from the values
in use. LOL stays as it stood: the detector alone sets it (DESIGN CHOICE, log entry 239). -/
def acquire (d : Dev) (n : Nat) : Dev :=
  let d := if (d.lane n).keep then d else (d.useCtle n).useTaps n
  let d := (d.lput F.MLANE_LANE_STS_ADAPT_DONE 0 n).updLane n (fun l => { l with acq := true })
  if n < 96 then d else d.netLaneLoss (n - 96)

/-- R94, R95: an acquisition that starts from the control fields whatever was kept: at a new rate or mode, and at a write of
EQ_MODE = ADAPT. -/
def acquireAnew (d : Dev) (n : Nat) : Dev := (d.updLane n (fun l => { l with keep := false })).acquire n

/-- Lanes of a bond as applied (R106). -/
def bondLanes (d : Dev) (id : Nat) : List Nat :=
  (List.range 96).filter (fun n => d.act F.MLANE_BOND_BOND_EN n = 1 && d.act F.MLANE_BOND_BOND_ID n = id)

/-- A message waits to be coded into the stream of a bond (R107, R367). -/
def bondQueue (d : Dev) (id : Nat) (m : List Byte) : Dev :=
  let b := sget (fun _ => {}) d.bondTx id
  { d with bondTx := sset (fun _ => {}) d.bondTx id { b with queue := b.queue ++ [m] } }

/-- A row for a message that a bond brought takes it from those handed up (R108). -/
def bondTake (d : Dev) (id : Nat) (m : List Byte) : Dev :=
  let b := sget (fun _ => {}) d.bondRx id
  { d with bondRx := sset (fun _ => {}) d.bondRx id { b with msgs := b.msgs.erase m } }

/-- Tatre contexts that receive from a bond (R141, LINK.BONDED). -/
def bondCtxs (d : Dev) (id : Nat) : List Nat :=
  (List.range 256).filter (fun n =>
    d.ctxKind n = 10 && d.actFlag F.INGEST_LINK_BONDED n && d.act F.INGEST_LINK_NETIF n % 16 = id)

/-- R109: the whole bond of some lanes goes down at once, and the contexts that receive from it. -/
def bondFall (d : Dev) (lanes ctxs : List Nat) : Dev :=
  if lanes.any (fun n => d.lget F.MLANE_LANE_STS_BOND_UP n = 1) then
    ctxs.foldl ctxLose (lanes.foldl (fun d n => (d.lput F.MLANE_LANE_STS_BOND_UP 0 n).lirq n 7) d)
  else d
def bondDown (d : Dev) (id : Nat) : Dev := d.bondFall (d.bondLanes id) (d.bondCtxs id)

/-- The receive rate in use of a media lane in kb/s (R85, R110): RX_RATE, or what the bound context has set. -/
def rxRateUsed (d : Dev) (n : Nat) : Nat :=
  if d.act F.MLANE_RX_CFG_RATE_SRC n = 1 then d.get F.MLANE_RX_RATE_STS_RATE n
  else d.act F.MLANE_RX_RATE_RATE_KBPS n * 1000 / (1000 + d.act F.MLANE_RX_RATE_DIV1001 n)

/-- Whether the last markers of the lanes of a bond came together (R109, "at alignment"): markers of one round lie within the
skew of R108 of one another, and those of two rounds 16,385 blocks apart, so half that time tells them apart. -/
def bondAligned (d : Dev) (id : Nat) : Bool :=
  (d.bondLanes id).all (fun n =>
    match (d.lane n).mkAt with
    | some t => d.house - t ≤ 16385 * 33 * 1000000 / d.rxRateUsed n
    | none => false)

/-- R109: the bond comes up when every lane has held marker lock for two markers and passes data, and all carry one
sequence number at alignment. The lanes stand by the BOND_LANE in their markers, each at its own place (R108). "Held for
two consecutive markers" is read as two valid markers beyond the one that gave lock (DEDUCED, log entry 216). -/
def bondTryUp (d : Dev) (id : Nat) : Dev :=
  let ls := d.bondLanes id
  if ls.all (fun n => (d.lane n).mkHeld ≥ 2 && d.lget F.MLANE_LANE_STS_MARKER_LOCK n = 1 && d.rxData n
        && d.lget F.MLANE_LANE_STS_BOND_UP n = 0) && !ls.isEmpty
      && (ls.map (fun n => (d.lane n).mkLane)).Nodup then
    ls.foldl (fun d n => (d.lput F.MLANE_LANE_STS_BOND_UP 1 n).lirq n 8) d
  else d

/-- R98, R109, R353: loss of signal or lock of a lane reaches its bond and the contexts bound to it, or its network port. -/
def laneLoss (d : Dev) (n : Nat) : Dev :=
  if n < 96 then
    let d := if d.act F.MLANE_BOND_BOND_EN n = 1 then d.bondDown (d.act F.MLANE_BOND_BOND_ID n) else d
    (d.laneCtxs n).foldl ctxLose d
  else d.netLaneLoss (n - 96)

/-- R138, R353: a LOST context whose lanes all pass data again returns to SEARCH; an interface's lane has recovered. -/
def laneBack (d : Dev) (n : Nat) : Dev :=
  if n < 96 then
    (d.laneCtxs n).foldl (fun d c =>
      if d.ctxState c = stLost ∧ (d.ctxLanes c).all d.rxData then d.ctxSearch c else d) d
  else if d.rxData n then d.netHeal (n - 96) else d

/-- A pattern code of PRBS_CTL, its inversion, and whether a half is in TEST mode (R100, R101), as is a network lane whose
CODE does not match its port's mode (R86). -/
def genPat (d : Dev) (n : Nat) : Nat := d.lget F.MLANE_PRBS_CTL_GEN_PAT n
def genInv (d : Dev) (n : Nat) : Bool := d.lget F.MLANE_PRBS_CTL_GEN_INV n = 1
def rxTest (d : Dev) (n : Nat) : Bool := d.lact F.MLANE_RX_CFG_RX_MODE n = 1 || (96 ≤ n && !d.netCodeOk (n - 96))
def txTest (d : Dev) (n : Nat) : Bool := d.lact F.MLANE_TX_CFG_TX_MODE n = 1 || (96 ≤ n && !d.netCodeOk (n - 96))

/-- What the generator sends now (R100): its pattern, inversion, and the interval of a rate injection on the transmit half
(R101), while its half drives in TEST mode. -/
def genSays (d : Dev) (n : Nat) : Option (Nat × Bool × Nat) :=
  let l := d.lane n
  if d.txTest n && !l.txIdle && d.genPat n ≠ 0 then
    some (d.genPat n, d.genInv n, if l.inj = 3 && !l.injRx then max (d.lget F.MLANE_INJ_INTERVAL n) 64 else 0)
  else none

/-- The generator's output changes at the edge at which what sets it does (R100). -/
def genShow (d : Dev) (n : Nat) : Dev :=
  if d.genSays n = (d.lane n).genOn then d
  else (d.emit (.testOn n (d.genSays n))).updLane n (fun l => { l with genOn := d.genSays n })

/-- Whether the transmitter may drive its lane: enabled, in L0 and not fenced. -/
def txAllowed (d : Dev) (n : Nat) : Bool :=
  d.lact F.MLANE_TX_CFG_TX_EN n = 1 && d.en (laneBlk n) (laneIdx n) && !d.laneFenced n
    && d.lget F.MLANE_LANE_STS_TX_LSTATE n = 0 && (d.lane n).txTarget.isNone

/-- Network lane `i` is to train its link (R92): TRAIN asks for it, at a rate that has it. -/
def trains (d : Dev) (i : Nat) : Bool :=
  d.bitsAt (pageAddr .nlane i 0 + 0x400) 6 1 = 1 && (d.act F.NLANE_RATE_CODE i = 3 || d.act F.NLANE_RATE_CODE i = 4)

/-- R92: link training of network lane `i` starts where it is to train; the link partner drives the coefficients until it
ends (free values, log entry 4). Without TRAIN an earlier failure is forgotten. -/
def laneTrain (d : Dev) (i : Nat) : Dev :=
  let on := d.trains i
  let d := d.updLane (96 + i) (fun l => { l with training := on, trainFailed := false })
  if on then
    let x := d.draw
    x.2.setWord (pageAddr .nlane i 0 + 0x40) (BitVec.ofNat 32 x.1 &&& 0x3F3F3F3F)
  else d

/-- The transmitter goes electrically idle (R89, R103): it neither sends test data nor trains. -/
def txStop (d : Dev) (n : Nat) : Dev := (d.updLane n (fun l => { l with txIdle := true, training := false })).genShow n

/-- The transmitter drives its lane where it may and its PLL is locked (R89). Link training of a network lane starts when its
transmitter leaves electrical idle (DESIGN CHOICE: R92 does not say when; log entry 240). In LOOP_NEAR data then passes again. -/
def txDrive (d : Dev) (n : Nat) : Dev :=
  let was := (d.lane n).txIdle
  if !d.txAllowed n || (d.lane n).txWait then d.txStop n
  else
    let d := d.updLane n (fun l => { l with txIdle := false })
    let d := if was && 96 ≤ n then d.laneTrain (n - 96) else d
    let d := d.genShow n
    if d.loopNear n then d.laneBack n else d

/-- R103, R104: a transition of a half's lane state starts; while one is under way it waits for its end. Leaving L0 stops
the half at once: the transmitter idles, the receiver's lock reads lost. -/
def lstateGo (d : Dev) (n : Nat) (tx : Bool) (target : Nat) : Dev :=
  let l := d.lane n
  if tx then
    if l.txTarget.isSome then d.setLane n { l with txNext := some target }
    else if d.lget F.MLANE_LANE_STS_TX_LSTATE n = target then d
    else (d.setLane n { l with txTarget := some target }).txStop n
  else
    if l.rxTarget.isSome then d.setLane n { l with rxNext := some target }
    else if d.lget F.MLANE_LANE_STS_RX_LSTATE n = target then d
    else
      let d := d.setLane n { l with rxTarget := some target }
      if target = 0 then d else (d.lput F.MLANE_LANE_STS_LOL 1 n).laneLoss n

/-- POWER asks the lane to be ON, and it is (R105). -/
def lanePowered (d : Dev) (n : Nat) : Bool :=
  d.bitsAt (pgAddr (lanePage n) + 0x30) 0 2 = 0 && d.powerState (laneBlk n) (laneIdx n) = 0

/-- R103, R105: a lane-state request: in a low state of POWER it is restored only with ON. -/
def lstateReq (d : Dev) (n : Nat) (tx : Bool) (target : Nat) : Dev :=
  if d.lanePowered n then d.lstateGo n tx target else d

/-- The receive rate in use (R110), where RX_RATE sets it: the signal rate in kb/s. -/
def showRxRate (d : Dev) (n : Nat) : Dev :=
  if n < 96 ∧ d.act F.MLANE_RX_CFG_FWD_CLK n = 0 ∧ d.act F.MLANE_RX_CFG_RATE_SRC n = 0 then
    d.put F.MLANE_RX_RATE_STS_RATE
      (d.act F.MLANE_RX_RATE_RATE_KBPS n * 1000 / (1000 + d.act F.MLANE_RX_RATE_DIV1001 n)) n
  else d

/-- R103: a lane-state entry or exit ends; a pending request then takes effect. The PLL of the lane is locked in L0 and L1
and off in L2; PLL_LOCK, one bit for both halves, reads 0 only with both in L2 (DEDUCED, log entry 215). -/
def lstateDone (d : Dev) (n : Nat) (tx : Bool) : Dev :=
  let l := d.lane n
  match (if tx then l.txTarget else l.rxTarget) with
  | none => d
  | some target =>
    let d := (d.lput (if tx then F.MLANE_LANE_STS_TX_LSTATE else F.MLANE_LANE_STS_RX_LSTATE) target n).lirq n 9
    let d := d.setLane n (if tx then { l with txTarget := none, txNext := none }
                          else { l with rxTarget := none, rxNext := none })
    let d := if target ≠ 2 then d.lput F.MLANE_LANE_STS_PLL_LOCK 1 n
      else if d.lget F.MLANE_LANE_STS_TX_LSTATE n = 2 ∧ d.lget F.MLANE_LANE_STS_RX_LSTATE n = 2 then
        d.lput F.MLANE_LANE_STS_PLL_LOCK 0 n
      else d
    let d := if target ≠ 0 then d
      else if tx then (d.updLane n (fun l => { l with txWait := false })).txDrive n
      else ((d.showRxRate n).updLane n (fun l => { l with keep := true })).acquire n
    match (if tx then l.txNext else l.rxNext) with
    | some r => if r = 2 then d.lstateGo n tx 2 else d.lstateReq n tx r
    | none => d

/-- Both halves are in L2, whatever transition they were in (R103, R105). -/
def laneSettle (d : Dev) (n : Nat) : Dev :=
  let go (d : Dev) (tx : Bool) : Dev :=
    let l := d.lane n
    if (if tx then l.txTarget else l.rxTarget).isNone && d.lget (if tx then F.MLANE_LANE_STS_TX_LSTATE else F.MLANE_LANE_STS_RX_LSTATE) n = 2 then d
    else (d.setLane n (if tx then { l with txTarget := some 2, txNext := none }
                       else { l with rxTarget := some 2, rxNext := none })).lstateDone n tx
  go (go d false) true

/-- R89: a new rate, polarity or mode of the transmitter: electrically idle until its PLL reports lock. -/
def txRestart (d : Dev) (n : Nat) : Dev :=
  ((d.lput F.MLANE_LANE_STS_PLL_LOCK 0 n).updLane n (fun l => { l with txWait := true })).txStop n

/-- R105, R451: both halves stop: the transmitter idles, contexts and the bond lose the lane. -/
def laneStop (d : Dev) (n : Nat) : Dev := (d.txStop n).laneLoss n

/-- R451: a released lane restores its lane states and acquires. -/
def laneResume (d : Dev) (n : Nat) : Dev :=
  let d := d.txDrive n
  if d.lget F.MLANE_LANE_STS_RX_LSTATE n = 0 then d.acquire n else d

/-- The coefficients of a media transmitter in 64ths, c(−1), c(0) and c(1), and its greatest swing and its steady level
after a run in mV (R90). -/
def mediaTaps (d : Dev) (n : Nat) : List Int :=
  let pre : Int := d.get F.MLANE_TX_FIR_PRE n
  let post : Int := d.get F.MLANE_TX_FIR_POST n
  [-pre, 64 - pre - post, -post]
def mediaSwing (d : Dev) (n : Nat) : Nat := 400 + 50 * d.get F.MLANE_TX_FIR_AMP n
def mediaSteady (d : Dev) (n : Nat) : Nat :=
  d.mediaSwing n * (64 - 2 * d.get F.MLANE_TX_FIR_PRE n - 2 * d.get F.MLANE_TX_FIR_POST n) / 64

/-- The coefficients of a network transmitter in 64ths, c(−3) to c(1) (R91). -/
def netTaps (d : Dev) (i : Nat) : List Int :=
  let c (lo : Nat) : Int := sgn 6 (d.bitsAt (pageAddr .nlane i 0 + 0x40) lo 6)
  [c 0, c 8, c 16, 64 - |c 0| - |c 8| - |c 16| - |c 24|, c 24]

/-- PAM4 rate codes of a network lane (R86). -/
def lanePam4 (d : Dev) (n : Nat) : Bool :=
  96 ≤ n && (d.act F.NLANE_RATE_CODE (n - 96) = 3 || d.act F.NLANE_RATE_CODE (n - 96) = 4)

/-- Whether a PRBS pattern suits the lane (R99). -/
def prbsFits (d : Dev) (n pat : Nat) : Bool :=
  pat = 0 || (if d.lanePam4 n then pat ≥ 6 else pat ≤ 5)

end Dev
end Sys2Proof.Machine
end

