-- ==== Sys2Proof/Machine/Kernels.lean ====
section
/-! DEFINITION. The kernels of the pixel engines (R180, R186 to R193) as functions on pictures, the source
tiles that an output tile is made from (R11), and the cost and line-buffer rules (R197 to R200). -/
namespace Sys2Proof.Machine

/-- A working picture: components 0 to 2 and alpha (3), indexed by component, column and line. -/
structure Img where
  w : Nat
  h : Nat
  px : Nat → Nat → Nat → Nat

/-- A coordinate outside the picture reads as the nearest edge sample (R180). -/
def edge (n : Nat) (x : Int) : Nat := (max 0 (min x (n - 1 : Int))).toNat

/-- A sample with the edge rule. -/
def Img.at (g : Img) (c : Nat) (x y : Int) : Nat := g.px c (edge g.w x) (edge g.h y)

def clamp16 (x : Int) : Nat := (max 0 (min x 65535)).toNat

/-- Arithmetic shift right. -/
def asr (x : Int) (k : Nat) : Int := x / (2 ^ k : Int)

/-! Kernels. -/

/-- DEINT, weave (R187): `top` and `bot` are the two fields. -/
def weave (top bot : Img) : Img := ⟨top.w, 2 * top.h, fun c x y => if y % 2 = 0 then top.at c x (y / 2 : Nat) else bot.at c x (y / 2 : Nat)⟩

/-- DEINT, bob (R187). -/
def bob (g : Img) (bottom : Bool) : Img :=
  ⟨g.w, 2 * g.h, fun c x y =>
    let j : Int := (y / 2 : Nat)
    if bottom then (if y % 2 = 0 then (g.at c x (j - 1) + g.at c x j + 1) / 2 else g.at c x j)
    else (if y % 2 = 0 then g.at c x j else (g.at c x j + g.at c x (j + 1) + 1) / 2)⟩

/-- CHROMA up (R188): components 1 and 2 of the input are indexed by pair; `odd` is 1 where the rectangle's first column is
the second of its pair in the source picture. -/
def chromaUp (linear : Bool) (odd : Nat) (g : Img) : Img :=
  ⟨g.w, g.h, fun c x y =>
    if c = 1 ∨ c = 2 then
      let i : Int := ((x + odd) / 2 : Nat)
      let n := (g.w + odd + 1) / 2
      let ch (k : Int) := g.px c (edge n k) (edge g.h y)
      if (x + odd) % 2 = 1 ∧ linear then (ch i + ch (i + 1) + 1) / 2 else ch i
    else g.at c x y⟩

/-- ORIENT (R189): mirror, then rotate clockwise by `rot` × 90 degrees. -/
def orient (mirror : Bool) (rot : Nat) (g : Img) : Img :=
  let m (x : Nat) := if mirror then g.w - 1 - x else x
  match rot with
  | 0 => ⟨g.w, g.h, fun c x y => g.px c (m x) y⟩
  | 1 => ⟨g.h, g.w, fun c x y => g.px c (m y) (g.h - 1 - x)⟩
  | 2 => ⟨g.w, g.h, fun c x y => g.px c (m (g.w - 1 - x)) (g.h - 1 - y)⟩
  | _ => ⟨g.h, g.w, fun c x y => g.px c (m (g.w - 1 - y)) x⟩

/-- One output component of a 3 × 3 matrix with offsets, clamped to `top` (R190, R215). -/
def matrixComp (coef : Nat → Int) (pre post : Nat → Int) (top : Int) (inp : Nat → Nat) (i : Nat) : Nat :=
  let x (j : Nat) : Int := inp j + pre j
  let y := asr (coef (3 * i) * x 0 + coef (3 * i + 1) * x 1 + coef (3 * i + 2) * x 2 + 4096) 13 + post i
  (max 0 (min y top)).toNat

/-- MATRIX (R190). -/
def matrixImg (coef pre post : Nat → Int) (g : Img) : Img :=
  ⟨g.w, g.h, fun c x y => if c < 3 then matrixComp coef pre post 65535 (fun j => g.px j x y) c else g.px c x y⟩

/-- First source position and phase of an output position (R191). -/
def scalePos (ws wo t o : Nat) : Int × Nat :=
  let step : Int := (ws * 65536 / wo : Nat)
  let p : Int := o * step + step / 2 - 32768
  let i0 := asr p 16
  let ph := ((p % 65536).toNat + 512) / 1024
  let (ph, i0) := if ph = 64 then (0, i0 + 1) else (ph, i0)
  (i0 - ((t - 1) / 2 : Nat), ph)

/-- One scaled sample (R191). -/
def scaleTap (coef : Nat → Nat → Int) (ws wo t o : Nat) (s : Int → Nat) : Nat :=
  let (first, ph) := scalePos ws wo t o
  clamp16 (asr ((List.range t).foldl (fun acc k => acc + coef ph k * s (first + k)) 0 + 8192) 14)

/-- SCALE_V and SCALE_H (R191). -/
def scaleV (coef : Nat → Nat → Int) (t ho : Nat) (g : Img) : Img :=
  ⟨g.w, ho, fun c x y => scaleTap coef g.h ho t y (fun k => g.at c x k)⟩
def scaleH (coef : Nat → Nat → Int) (t wo : Nat) (g : Img) : Img :=
  ⟨wo, g.h, fun c x y => scaleTap coef g.w wo t x (fun k => g.at c k y)⟩

/-- CHROMA down (R188): the chroma of pair `i`. -/
def chromaDown (decimate : Bool) (g : Img) (c i y : Nat) : Nat :=
  let x : Int := (2 * i : Nat)
  if decimate then g.at c x y else (g.at c (x - 1) y + 2 * g.at c x y + g.at c (x + 1) y + 2) / 4

/-- DEPTH (R193), and the samples of output tile (c, r) in the order of R145. -/
def outTile (f : TileFmt) (decimate : Bool) (g : Img) (c r : Nat) : List Nat :=
  let q (v : Nat) := depthDown v 16 f.bits
  let inside (x y : Nat) (v : Nat) := if x < g.w ∧ y < g.h then q v else 0
  (List.range 32).flatMap (fun ly =>
    let y := 32 * r + ly
    if f.s444 then
      (List.range 64).flatMap (fun lx =>
        let x := 64 * c + lx
        (List.range (if f.alpha then 4 else 3)).map (fun k => inside x y (g.px k x y)))
    else
      (List.range 32).flatMap (fun li =>
        let i := 32 * c + li
        let x := 2 * i
        [inside x y (chromaDown decimate g 1 i y), inside x y (g.px 0 x y),
         inside x y (chromaDown decimate g 2 i y), inside (x + 1) y (g.px 0 (x + 1) y)]
          ++ (if f.alpha then [inside x y (g.px 3 x y), inside (x + 1) y (g.px 3 (x + 1) y)] else [])))

/-! Settings of an engine layer, read through a field reader (sealed or active). -/

structure EngSet where
  sx : Nat
  sy : Nat
  sw : Nat
  sh : Nat
  dw : Nat
  dh : Nat
  full : Bool
  engine : Nat
  count : Nat
  strip : Bool
  deint : Nat
  bff : Bool
  rot : Nat
  mirror : Bool
  upLinear : Bool
  downDec : Bool
  matrixEn : Bool
  scaleEn : Bool
  ht : Nat
  vt : Nat
  hset : Nat
  vset : Nat
  fmt : TileFmt
  pack : Bool
  num : Nat
  den : Nat

/-- The engine settings a layer's fields give. -/
def engSet (g : Fld → Nat) : EngSet :=
  { sx := g F.LAYER_SRC_XY_SRC_X, sy := g F.LAYER_SRC_XY_SRC_Y, sw := g F.LAYER_SRC_WH_SRC_W
    sh := g F.LAYER_SRC_WH_SRC_H, dw := g F.LAYER_DST_WH_DST_W, dh := g F.LAYER_DST_WH_DST_H
    full := g F.LAYER_COMP_CTL_FIT = 1, engine := g F.LAYER_ENG_CTL_ENGINE
    count := 2 ^ g F.LAYER_ENG_CTL_ENG_COUNT, strip := g F.LAYER_ENG_CTL_STRIP = 1
    deint := g F.LAYER_ENG_CTL_DEINT, bff := g F.LAYER_ENG_CTL_FIELD_ORDER = 1
    rot := g F.LAYER_ENG_CTL_ROT, mirror := g F.LAYER_ENG_CTL_MIRROR = 1
    upLinear := g F.LAYER_ENG_CTL_CHROMA_UP = 1, downDec := g F.LAYER_ENG_CTL_CHROMA_DOWN = 1
    matrixEn := g F.LAYER_ENG_CTL_MATRIX_EN = 1, scaleEn := g F.LAYER_ENG_CTL_SCALE_EN = 1
    ht := g F.LAYER_ENG_SCALE_H_TAPS, vt := g F.LAYER_ENG_SCALE_V_TAPS
    hset := g F.LAYER_ENG_SCALE_H_SET, vset := g F.LAYER_ENG_SCALE_V_SET
    fmt :=
      { depth := g F.LAYER_ENG_OUT_DEPTH, s444 := g F.LAYER_ENG_OUT_SAMPLING = 1
        alpha := g F.LAYER_ENG_OUT_ALPHA = 1, ycc := g F.LAYER_ENG_OUT_SPACE = 1 }
    pack := g F.LAYER_ENG_OUT_PACK = 1, num := g F.LAYER_ENG_RATE_NUM, den := g F.LAYER_ENG_RATE_DEN }

/-- The oriented size from the size after DEINT. -/
def EngSet.oriented (e : EngSet) (w h : Nat) : Nat × Nat := if e.rot % 2 = 1 then (h, w) else (w, h)

/-- Source rectangle of a job on a picture of the given size (R211). -/
def EngSet.rect (e : EngSet) (pw ph : Nat) : Nat × Nat × Nat × Nat :=
  if e.full then (0, 0, pw, ph) else (e.sx, e.sy, e.sw, e.sh)

/-- Size after DEINT. -/
def EngSet.deinted (e : EngSet) (w h : Nat) : Nat × Nat := (w, if e.deint = 0 then h else 2 * h)

/-- Engines that serve the layer (R182). -/
def EngSet.engines (e : EngSet) : List Nat := (List.range e.count).map (· + e.engine)

/-- Output size: DST_W × DST_H with scaling, the oriented size without (R182). -/
def EngSet.out (e : EngSet) (w h : Nat) : Nat × Nat :=
  if e.scaleEn then (e.dw, e.dh) else let d := e.deinted w h; e.oriented d.1 d.2

/-! Strips (R200). -/

/-- Source columns of output columns [o0, o1]. -/
def colRange (e : EngSet) (w2 wo o0 o1 : Nat) : Nat × Nat :=
  if e.scaleEn then
    (edge w2 (scalePos w2 wo e.ht o0).1, edge w2 ((scalePos w2 wo e.ht o1).1 + (e.ht - 1 : Nat)))
  else (o0, o1)

/-- The strips from output column `o` on: the widths of their source ranges; `none` where 64 columns need a
range wider than `wmax`. -/
def strips (e : EngSet) (w2 wo wmax : Nat) : Nat → Nat → Option (List Nat)
  | 0, _ => some []
  | fuel + 1, o =>
    if o ≥ wo then some []
    else
      let cands := (List.range ((wo - o + 63) / 64)).map (fun k => min wo (o + 64 * (k + 1)))
      let width (z : Nat) := let r := colRange e w2 wo o (z - 1); r.2 + 1 - r.1
      match (cands.filter (fun z => width z ≤ wmax)).getLast? with
      | none => none
      | some z => (strips e w2 wo wmax fuel z).map (fun l => width z :: l)

/-- Pixel operations of one job (R197): `wr`, `hr` the rectangle read, `ws` the sum of strip widths if it
runs in strips, whether the source is 4:2:2 and stored in pack format. -/
def jobCost (e : EngSet) (wr hr : Nat) (ws : Option Nat) (s422 pack : Bool) : Nat :=
  let fields := if e.deint = 1 then 2 else 1
  let d := e.deinted wr hr
  let o := e.oriented d.1 d.2
  let out := e.out wr hr
  let strip (w : Nat) := ws.getD w
  4096 + strip wr * hr * fields
    + (if pack then wr * hr * fields else 0)
    + (if e.deint = 1 then d.1 * d.2 else if e.deint = 2 then 2 * d.1 * d.2 else 0)
    + (if s422 then d.1 * d.2 else 0)
    + (if e.rot % 2 = 1 then d.1 * d.2 else 0)
    + (if e.matrixEn then o.1 * o.2 else 0)
    + (if e.scaleEn then e.vt * strip o.1 * out.2 + e.ht * out.1 * out.2 else 0)
    + (if e.fmt.s444 then 0 else out.1 * out.2)
    + (if e.pack then out.1 * out.2 else 0)

/-- The share of a job that one of its engines is charged (R197). -/
def engineCost (e : EngSet) (c : Nat) : Nat := 4096 + (c - 4096 + e.count - 1) / e.count

/-- Line-buffer rows of a layer (R199). -/
def lineRows (e : EngSet) : Nat := (if e.scaleEn then e.vt else 1) + (if e.deint = 2 then 1 else 0)

/-- The width that enters the vertical stage. -/
def lineWidth2 (e : EngSet) (wr hr : Nat) : Nat := let d := e.deinted wr hr; (e.oriented d.1 d.2).1

/-! Contributors (R11): the source tiles an output tile reads, by tile column and row. -/

/-- Source ranges of an output tile, backward through the chain: columns and lines of the source rectangle, for weave those
of its field `bottom` (empty, the first above the last, where it reads no line of it); bob reads one line more on one side (R187). -/
def srcRange (e : EngSet) (bottom : Bool) (wr hr c r : Nat) : (Nat × Nat) × (Nat × Nat) :=
  let out := e.out wr hr
  let dd := e.deinted wr hr
  let o := e.oriented dd.1 dd.2
  let x0 := 64 * c - (if e.fmt.s444 ∨ e.downDec then 0 else 1)
  let x1 := min (64 * c + 63) (out.1 - 1)
  let y0 := 32 * r
  let y1 := min (32 * r + 31) (out.2 - 1)
  let xs := colRange e o.1 out.1 x0 x1
  let ys := if e.scaleEn then
      (edge o.2 (scalePos o.2 out.2 e.vt y0).1, edge o.2 ((scalePos o.2 out.2 e.vt y1).1 + (e.vt - 1 : Nat)))
    else (y0, y1)
  let (ux, uy) : (Nat × Nat) × (Nat × Nat) := match e.rot with
    | 0 => (xs, ys)
    | 1 => (ys, (dd.2 - 1 - xs.2, dd.2 - 1 - xs.1))
    | 2 => ((dd.1 - 1 - xs.2, dd.1 - 1 - xs.1), (dd.2 - 1 - ys.2, dd.2 - 1 - ys.1))
    | _ => ((dd.1 - 1 - ys.2, dd.1 - 1 - ys.1), xs)
  let ux := if e.mirror then (dd.1 - 1 - ux.2, dd.1 - 1 - ux.1) else ux
  let uy := if e.deint = 0 then uy else if e.deint = 1 then (if bottom then (if uy.2 = 0 then (1, 0) else (uy.1 / 2, (uy.2 + 1) / 2 - 1)) else ((uy.1 + 1) / 2, uy.2 / 2))
    else if bottom then ((uy.1 + 1) / 2 - 1, uy.2 / 2)
    else (uy.1 / 2, min (hr - 1) ((uy.2 + 1) / 2))
  (ux, uy)

/-- Tile positions of a picture that a range of its source rectangle, `wr` wide, reads: the samples of its columns, and
in 4:2:2 the chroma of their pairs and, for a last odd column with LINEAR, of the next pair of the rectangle (R188); none
where the range is empty. -/
def rangeTiles (p : Pic) (sx sy wr : Nat) (linear : Bool) (q : (Nat × Nat) × (Nat × Nat)) : List (Nat × Nat) :=
  let cl (n v : Nat) := min v (n - 1)
  let x0 := sx + q.1.1
  let x1 := sx + q.1.2
  let a := if p.fmt.s444 then x0 else x0 / 2 * 2
  let b := if !p.fmt.s444 && linear && x1 % 2 = 1 then max x1 (2 * min ((sx + wr - 1) / 2) (x1 / 2 + 1)) else x1
  let c0 := cl p.width a / 64
  let c1 := cl p.width b / 64
  let r0 := cl p.height (sy + q.2.1) / 32
  let r1 := cl p.height (sy + q.2.2) / 32
  if q.2.2 < q.2.1 then []
  else (List.range (r1 + 1 - r0)).flatMap (fun r => (List.range (c1 + 1 - c0)).map (fun c => (c0 + c, r0 + r)))

namespace Dev

/-- Coefficient `k` of a layer's engine matrix, S2.13, in the order c00, c01 … c22 (R190, R204). -/
def engCoef (g : Fld → Nat) (k : Nat) : Int :=
  match k with
  | 0 => sgn 16 (g F.LAYER_ENG_MATRIX_0_COEF_LO) | 1 => sgn 16 (g F.LAYER_ENG_MATRIX_0_COEF_HI)
  | 2 => sgn 16 (g F.LAYER_ENG_MATRIX_1_COEF_LO) | 3 => sgn 16 (g F.LAYER_ENG_MATRIX_1_COEF_HI)
  | 4 => sgn 16 (g F.LAYER_ENG_MATRIX_2_COEF_LO) | 5 => sgn 16 (g F.LAYER_ENG_MATRIX_2_COEF_HI)
  | 6 => sgn 16 (g F.LAYER_ENG_MATRIX_3_COEF_LO) | 7 => sgn 16 (g F.LAYER_ENG_MATRIX_3_COEF_HI)
  | _ => sgn 16 (g F.LAYER_ENG_MATRIX_4_COEF_LO)

/-- A coefficient of a set of an engine group (R191, R192, R206). -/
def coef (d : Dev) (group set phase tap : Nat) : Int :=
  let w := (sget (fun _ => (0 : Word)) d.coefs (group * 4096 + set * 256 + phase * 4 + tap / 2)).toNat
  sgn 16 (if tap % 2 = 1 then w / 65536 else w)

/-- FETCH (R186): the source rectangle of a picture, promoted to 16 bits. For 4:2:2 components 1 and 2 are
indexed by pair, from the pair of the rectangle's first column (R188). Tiles with read errors still give the samples they hold. -/
def fetchImg (d : Dev) (p : Pic) (sx sy sw sh : Nat) : Img :=
  ⟨sw, sh, fun c x y =>
    let px := edge p.width ((if !p.fmt.s444 ∧ (c = 1 ∨ c = 2) then 2 * (sx / 2 + x) else sx + x : Nat) : Int)
    let py := edge p.height ((sy + y : Nat) : Int)
    let q := tilePixel p.fmt (d.picTile p (px / 64) (py / 32)).data (px % 64) (py % 32)
    let v := if c < 3 then q.1.getD c 0 else q.2.getD (2 ^ p.fmt.bits - 1)
    depthUp v p.fmt.bits 16⟩

/-- The whole chain of a layer (R180) on its source picture, with the second field for weave. -/
def chain (d : Dev) (l : Nat) (src : Pic) (src2 : Option Pic) : Img :=
  let g (f : Fld) := d.act f l
  let e := engSet g
  let (sx, sy, sw, sh) := e.rect src.width src.height
  let a := d.fetchImg src sx sy sw sh
  let up (i : Img) := if src.fmt.s444 then i else chromaUp e.upLinear (sx % 2) i
  let i := match e.deint, src2 with
    | 0, _ => up a
    | 1, some q =>
      let b := d.fetchImg q sx sy sw sh
      if src.fmt.bottom then up (weave b a) else up (weave a b)
    | _, _ => up (bob a src.fmt.bottom)
  let i := orient e.mirror e.rot i
  let i := if e.matrixEn then
      matrixImg (engCoef g) (fun k => sgn 17 (d.act F.LAYER_ENG_PRE_OFF_OFFSET l k))
        (fun k => sgn 17 (d.act F.LAYER_ENG_POST_OFF_OFFSET l k)) i
    else i
  if e.scaleEn then
    scaleH (d.coef (e.engine / 8) e.hset) e.ht e.dw (scaleV (d.coef (e.engine / 8) e.vset) e.vt e.dh i)
  else i

end Dev
end Sys2Proof.Machine
end

