-- ==== Sys2Proof/Machine/Engine.lean ====
section
/-! DEFINITION. The commands of the pixel engines: jobs (R183 to R185, R212), the coefficient sets (R192, R206)
and the clears. -/
namespace Sys2Proof.Machine
namespace Dev

/-- The engine settings in force for a layer. -/
def engAct (d : Dev) (l : Nat) : EngSet := engSet (fun f => d.act f l)

/-- Slabs of one prepared-surface buffer (R185). -/
def prepSlabs (e : EngSet) (w h : Nat) : Nat :=
  let n := slotsPer e.fmt.sectors
  ((w + 63) / 64 * ((h + 31) / 32) + n - 1) / n

/-- A buffer of a layer's prepared surfaces that is neither the latest prepared frame's nor held (R185). -/
def prepBuffer (d : Dev) (l slabs : Nat) : Option (Nat × List (Option Nat)) :=
  ((List.range 3).map (fun b => (b, ((d.map (ownLayer l)).drop (b * slabs)).take slabs))).find? (fun q =>
    let ss := q.2.filterMap id
    ((d.layer l).prepared.head?).elim true (fun p => !overlap (picSlabs p) ss) && !d.slabsRead ss)

/-- The allotment of one engine's line buffer under a field reader (R199): bytes taken by the layers without
strips, and the share of each layer with STRIP = 1 and the rows it needs. -/
def lineBudget (ls : List (Nat × EngSet × Nat)) : Nat :=
  (ls.filter (fun q => !q.2.1.strip)).foldl (fun n q => n + lineRows q.2.1 * q.2.2 * 6) 0

/-- The share of a STRIP layer: the rest of the buffer divided equally, a whole multiple of T × 6 (R199). -/
def lineShare (ls : List (Nat × EngSet × Nat)) (e : EngSet) : Nat :=
  let k := (ls.filter (fun q => q.2.1.strip)).length
  let t := lineRows e * 6
  ((393216 - lineBudget ls) / max 1 k) / t * t

/-- The strips of a layer on an engine, `none` where the rule of R199 or R200 cannot be met; an empty list
means unstripped. -/
def layerStrips (ls : List (Nat × EngSet × Nat)) (e : EngSet) (w2 wo : Nat) : Option (List Nat) :=
  if lineBudget ls > 393216 then none
  else if !e.strip then some []
  else
    let share := lineShare ls e
    if lineRows e * w2 * 6 ≤ share then some []
    else strips e w2 wo (share / (lineRows e * 6)) (wo + 1) 0

/-- The source size a layer's checks use for FIT = FULL: the context's latest complete frame, or the size the
hand declares for a context that has none (log entry 30). -/
def fullSize (d : Dev) (ctx : Nat) : Nat × Nat :=
  match d.latest ctx with
  | some p => (p.width, p.height)
  | none => (d.act F.INGEST_NET_FMT_WIDTH ctx, d.act F.INGEST_NET_FMT_HEIGHT ctx)

/-- The rectangle read, its size, for the checks of a layer. -/
def checkRect (d : Dev) (e : EngSet) (ctx : Nat) (size : Option (Nat × Nat)) : Nat × Nat :=
  let s := size.getD (d.fullSize ctx)
  let r := e.rect s.1 s.2
  (r.2.2.1, r.2.2.2)

/-- The engine layers of an engine under the applied hand with the width each needs. -/
def engineLayers (d : Dev) (n : Nat) : List (Nat × EngSet × Nat) :=
  (d.knownLayers.filter (fun l => (d.layerEngines l).contains n)).map (fun l =>
    let e := d.engAct l
    let r := d.checkRect e (d.act F.LAYER_SRC_CTX_CONTEXT l) none
    (l, e, lineWidth2 e r.1 r.2))

/-- Whether a context stores 4:2:2, and in pack format (R197). -/
def ctx422 (d : Dev) (ctx : Nat) : Bool :=
  match d.latest ctx with
  | some p => !p.fmt.s444
  | none => !d.actFlag F.INGEST_STORE_SAMPLING ctx && d.act F.INGEST_NET_FMT2_SAMPLING ctx = 0
def ctxPack (d : Dev) (ctx : Nat) : Bool := d.actFlag F.INGEST_STORE_PACK ctx

/-- HB_READ's charge on an engine (R197): 4,224 operations per frame at 240 frames per second for each context. -/
def hbLoad (d : Dev) (n : Nat) : Nat :=
  ((List.range 256).filter (fun c =>
    d.actFlag F.INGEST_FRESH_CTL_HB_EN c && d.act F.INGEST_HB_ENGINE_ENGINE c = n)).length * 4224 * 240

/-- R212: whether the applied settings meet the load check and the line-buffer rule, each for every layer of the engines
that serve a layer, with a picture of a size for that layer. -/
def replanFits (d : Dev) (l : Nat) (size : Nat × Nat) : Bool :=
  let e := d.engAct l
  let r := d.checkRect e 0 (some size)
  let w2 := lineWidth2 e r.1 r.2
  e.engines.all (fun n =>
    let ls := (d.engineLayers n).map (fun q => if q.1 = l then (l, e, w2) else q)
    let rect (q : Nat × EngSet × Nat) : Nat × Nat :=
      if q.1 = l then r else d.checkRect q.2.1 (d.act F.LAYER_SRC_CTX_CONTEXT q.1) none
    let plan (q : Nat × EngSet × Nat) : Option (List Nat) :=
      layerStrips ls q.2.1 q.2.2 (q.2.1.out (rect q).1 (rect q).2).1
    let cost (q : Nat × EngSet × Nat) : Nat :=
      let ctx := d.act F.LAYER_SRC_CTX_CONTEXT q.1
      let rr := rect q
      let ws := match plan q with | some (a :: b) => some ((a :: b).foldl (· + ·) 0) | _ => none
      let c := engineCost q.2.1 (jobCost q.2.1 rr.1 rr.2 ws (d.ctx422 ctx) (d.ctxPack ctx))
      (c * q.2.1.num + q.2.1.den - 1) / max 1 q.2.1.den
    ls.all (fun q => (plan q).isSome) && ls.foldl (fun n q => n + cost q) (d.hbLoad n) ≤ 12800000000)

/-- Running jobs of an engine. -/
def engineBusy (d : Dev) (n : Nat) : Bool :=
  d.layers.any (fun p => p.2.job.isSome && (d.layerEngines p.1).contains n)

/-- JOB_STS of an engine: the layer of its running job. -/
def showJob (d : Dev) (n : Nat) : Dev :=
  match d.layers.find? (fun p => p.2.job.isSome && (d.layerEngines p.1).contains n) with
  | some p => (d.put F.ENGINE_JOB_STS_BUSY 1 n).put F.ENGINE_JOB_STS_LAYER p.1 n
  | none => d.put F.ENGINE_JOB_STS_BUSY 0 n

/-- The kernels of a layer's chain (R179, R180) on a source of 4:2:2 or not. -/
def chainKernels (e : EngSet) (s422 : Bool) : List Nat :=
  let on (b : Bool) (k : Nat) : List Nat := if b then [k] else []
  [1] ++ on (e.deint ≠ 0) 2 ++ on (s422 || !e.fmt.s444) 3 ++ on (e.mirror || e.rot ≠ 0) 4 ++ on e.matrixEn 5
    ++ on e.scaleEn 6 ++ on e.scaleEn 7 ++ [8] ++ on e.pack 9

/-- Contexts whose heartbeat an engine reads (R195). -/
def hbContexts (d : Dev) (n : Nat) : List Nat :=
  (List.range 256).filter (fun c => d.actFlag F.INGEST_FRESH_CTL_HB_EN c && d.act F.INGEST_HB_ENGINE_ENGINE c = n)

/-- A hand in its seal changes the DSC settings of a head (R196). -/
def dscChanged (d : Dev) (h : Nat) : Bool :=
  let a := pageAddr .head h 3
  h < 16 && d.get F.HEAD_DSC_CTL_DSC_EN h = 1
    && (d.word (a + 0x80C) ≠ d.word (a + 0x40C) || d.word (a + 0x810) ≠ d.word (a + 0x410))

/-- What a picture parameter set is made from: the raster, the bits per pixel and the slice size (log entry 225). -/
def dscSettings (d : Dev) (h : Nat) : List Nat :=
  [F.HEAD_H_TIMING_HACTIVE, F.HEAD_V_TIMING_VACTIVE, F.HEAD_DSC_CTL_BPP_X16, F.HEAD_DSC_SLICE_SLICE_W, F.HEAD_DSC_SLICE_SLICE_H].map
    (fun f => d.get f h)

/-- Heads whose DSC settings a hand in its seal changes on an engine (R196). -/
def dscHeads (d : Dev) (n : Nat) : List Nat :=
  (List.range 16).filter (fun h => d.get F.HEAD_DSC_CTL_ENGINE h = n && d.dscChanged h)

/-- JOB_STS.KERNEL (R179): HB_READ runs ahead of all layer jobs (R195); which kernel of its chain a running job is at is a free
value (log entry 31). -/
def kernelNow (d : Dev) (n : Nat) : Nat :=
  if (d.hbContexts n).any (fun c => (d.ctx c).hbDue) then 0xA
  else if d.hand.pending && d.hand.done.isNone && !(d.dscHeads n).isEmpty then 0xB
  else match d.layers.find? (fun p => (p.2.job.isSome) && (d.layerEngines p.1).contains n) with
    | some p =>
      let ks := chainKernels (d.engAct p.1) (p.2.job.elim false (fun j => !j.src.fmt.s444))
      ks.getD (Config.freeValue (d.draws + d.house) % ks.length) 1
    | none => 0

/-- Busy time of an engine: a span begins when its first job starts and is added when its last one ends. -/
def engBusyMark (d : Dev) (n t : Nat) : Dev :=
  match d.engineBusy n, sget (fun _ => none) d.engSince n with
  | true, none => { d with engSince := sset (fun _ => none) d.engSince n (some t) }
  | false, some t0 =>
    { d with
      engSince := sset (fun _ => none) d.engSince n none
      engBusyNs := supd (fun _ => 0) d.engBusyNs n (· + (t - t0)) }
  | _, _ => d

/-- The engines of a layer show their jobs anew. -/
def showJobs (d : Dev) (l t : Nat) : Dev :=
  ((d.layerEngines l).foldl (fun d n => (d.showJob n).engBusyMark n t) d).engHold l

/-- The work of a layer for other settings or another source is dropped; `all`: its prepared frames too. -/
def engDrop (d : Dev) (l : Nat) (all : Bool) : Dev :=
  ((d.updLayer l (fun s => { s with
    job := none, waiting := none, field := none, refit := false, prepared := if all then [] else s.prepared })).put
      F.LAYER_ENG_STS_JOB_ACTIVE 0 l).showJobs l d.house

/-- R212: a successful re-plan is counted and reported. -/
def replanned (d : Dev) (l : Nat) : Dev :=
  ((d.updLayer l (fun s => { s with refit := false })).count F.LAYER_REPLANS l).irq .layer l 0 5

/-- R212: a re-plan before the first job on a picture in a new format. -/
def replanEngine (d : Dev) (l : Nat) (p : Pic) : Bool × Dev :=
  if d.act F.LAYER_COMP_CTL_FIT l ≠ 1 then (true, d)
  else if d.flag F.LAYER_COMP_STS_FIT_FAIL l then (false, d)
  else if !(d.layer l).refit then (true, d)
  else if d.replanFits l (p.width, p.height) then (true, d.replanned l)
  else
    (false, (((d.noteLayer l).updLayer l (fun s => { s with geom := true, waiting := none, refit := false })).put
      F.LAYER_COMP_STS_FIT_FAIL 1 l).irq .layer l 0 6)

/-- ENGINE_JOB_START (R183): every serving engine runs, the previous job has ended, and its start lies 15/16
of the declared period back. -/
def jobStart (d : Dev) (l t : Nat) : Dev :=
  let s := d.layer l
  let e := d.engAct l
  let early := match s.lastJob with
    | some t0 => (t - t0) * 16 * e.num < 15 * e.den * 1000000000
    | none => false
  match s.waiting with
  | none => d
  | some w =>
    if s.job.isSome || early || !(d.layerEngines l).all (fun n => d.enabled .engine n) || (d.layerEngines l).isEmpty then d
    else
      let (ok, d) := d.replanEngine l w.1
      if !ok then d.engHold l
      else
        ((d.updLayer l (fun s => { s with
          job := some { src := w.1, src2 := w.2, start := t }, waiting := none, lastJob := some t })).put
            F.LAYER_ENG_STS_JOB_ACTIVE 1 l).showJobs l t

/-- The requester of a layer's engine work: its first engine. -/
def layerReq (d : Dev) (l : Nat) : Req := reqEngine ((d.layerEngines l).headD 0)

/-- The stamp and poison of an output tile from its contributors (R11, R12). -/
def contrib (d : Dev) (l : Nat) (j : Job) (errs : List ReadError) (c r : Nat) : Nat × Bool :=
  let e := d.engAct l
  let rc := e.rect j.src.width j.src.height
  let xs := (j.src :: j.src2.toList).flatMap (fun p =>
    (rangeTiles p rc.1 rc.2.1 rc.2.2.1 e.upLinear (srcRange e p.fmt.bottom rc.2.2.1 rc.2.2.2 c r)).map (fun k => (d.readTile (d.layerReq l) p k.1 k.2 errs).1))
  (xs.foldl (fun m x => min m x.stamp) (2 ^ 64 - 1), xs.any (·.poison))

/-- The tiles that FETCH reads of a source picture: those of the layer's source rectangle (R186). -/
def fetchTiles (d : Dev) (l : Nat) (p : Pic) : List (Nat × Nat) :=
  let rc := (d.engAct l).rect p.width p.height
  rangeTiles p rc.1 rc.2.1 rc.2.2.1 (d.engAct l).upLinear ((0, rc.2.2.1 - 1), (0, rc.2.2.2 - 1))

/-- ENGINE_JOB_ABANDON (R184): two declared periods have passed. -/
def jobAbandon (d : Dev) (l t : Nat) : Dev :=
  match (d.layer l).job with
  | none => d
  | some j =>
    let e := d.engAct l
    if (t - j.start) * e.num < 2 * e.den * 1000000000 then d
    else
      let d := ((d.updLayer l (fun s => { s with job := none })).put F.LAYER_ENG_STS_JOB_ACTIVE 0 l).irq .layer l 0 4
      ((d.layerEngines l).foldl (fun d n => (d.count F.ENGINE_OVERRUNS n).irq .engine n 0 0) d).showJobs l t

/-- ENGINE_JOB_COMPLETE (R184, R185): the prepared frame is written and completes; after two declared periods the job is
abandoned instead. Without a free tag it waits (R151). -/
def jobComplete (d : Dev) (l t : Nat) (errs : List ReadError) : Dev :=
  let s := d.layer l
  match s.job with
  | none => d
  | some j =>
    let e := d.engAct l
    if !(d.layerEngines l).all (fun n => d.enabled .engine n) || !d.tagFree (d.layerReq l) then d
    else if 2 * e.den * 1000000000 < (t - j.start) * e.num then d.jobAbandon l t
    else
    let img := d.chain l j.src j.src2
    let k := prepSlabs e img.w img.h
    match d.prepBuffer l k with
    | none => d
    | some (b, ss) =>
      let p : Pic :=
        { owner := ownLayer l, buffer := b, slabs := ss, frame := j.src.frame, width := img.w, height := img.h
          fmt := { e.fmt with bottom := e.deint = 0 && j.src.fmt.bottom }, pack := e.pack, time := t
          seq := s.doneSeq, start := j.start, rect := e.rect j.src.width j.src.height
          deint := e.deint, rot := e.rot, mirror := e.mirror, scaled := e.scaleEn }
      let srcTiles := (j.src :: j.src2.toList).flatMap (fun p => (d.fetchTiles l p).map (fun q => (p, q)))
      let d1 := srcTiles.foldl (fun d q => (d.readTile (d.layerReq l) q.1 q.2.1 q.2.2 errs).2) d
      let d1 := (picPositions p).foldl (fun d' q =>
        let st := d.contrib l j errs q.1 q.2
        d'.writeTile (d.layerReq l) p s.prepared.head? q.1 q.2 st.1 st.2 (outTile p.fmt e.downDec img q.1 q.2)) d1
      let d1 := (d1.noteLayer l).updLayer l (fun s => { s with
        job := none, doneSeq := s.doneSeq + 1, engCause := false
        prepared := p :: (s.prepared.filter (fun q => !overlap (picSlabs q) (picSlabs p))) })
      let d1 := ((d1.put F.LAYER_ENG_STS_JOB_ACTIVE 0 l).put F.LAYER_ENG_DONE_FRAME p.frame l).put
        F.LAYER_ENG_JOB_US (min ((t - j.start) / 1000) 0xFFFFFFFF) l
      ((d1.layerEngines l).foldl (fun d n => d.count F.ENGINE_JOBS n) d1).showJobs l t

/-- Coefficient sets of a group named by a layer's fields (R192): with a hand sealed, the staged ones count. -/
def setsNamed (d : Dev) (group : Nat) : List Nat :=
  d.knownLayers.flatMap (fun l =>
    let one (g : Fld → Nat) : List Nat :=
      if g F.LAYER_ENG_CTL_ENG_EN = 1 && g F.LAYER_ENG_CTL_ENGINE / 8 = group then
        [g F.LAYER_ENG_SCALE_H_SET, g F.LAYER_ENG_SCALE_V_SET]
      else []
    one (fun f => d.act f l) ++ (if d.hand.pending then one (fun f => d.get f l) else []))

/-- COEF_IDX advances by 1, wrapping at 4,096 (R206). -/
def coefNext (d : Dev) (n : Nat) : Dev := d.put F.ENGINE_COEF_IDX_WORD ((d.get F.ENGINE_COEF_IDX_WORD n + 1) % 4096) n

/-- COEF_DATA_WRITE (R192): a write to a set in use is discarded, and sets REFUSED; the index advances. -/
def coefWrite (d : Dev) (n : Nat) (v : Word) : Dev :=
  let idx := d.get F.ENGINE_COEF_IDX_WORD n
  let d := if (d.setsNamed (n / 8)).contains (idx / 256) then (d.put F.ENGINE_COEF_STS_REFUSED 1 n).irq .engine n 0 1
    else { d with coefs := sset (fun _ => 0) d.coefs (n / 8 * 4096 + idx) v }
  d.coefNext n

/-- COEF_DATA_READ (R206). -/
def coefRead (d : Dev) (n : Nat) : Dev :=
  let v := sget (fun _ => (0 : Word)) d.coefs (n / 8 * 4096 + d.get F.ENGINE_COEF_IDX_WORD n)
  { d.coefNext n with resp := some (.data v) }

/-- R451, R183: an engine is fenced: its jobs stop, its layers take ENGINE_FENCED (R207) and its heartbeat
contexts raise HB_FAIL (R195). -/
def engineStop (d : Dev) (n t : Nat) : Dev :=
  let d := (d.knownLayers.filter (fun l => (d.layerEngines l).contains n)).foldl (fun d l =>
    (((d.noteLayer l).updLayer l (fun s => { s with engCause := true, job := none })).put F.LAYER_ENG_STS_JOB_ACTIVE 0 l).showJobs l t) d
  (List.range 256).foldl (fun d c =>
    if d.actFlag F.INGEST_FRESH_CTL_HB_EN c && d.act F.INGEST_HB_ENGINE_ENGINE c = n then
      ((d.hbFail c true).put F.INGEST_FRESH_RUNS_HB_RUN 0 c).updCtx c (fun x => { x with hbDue := false, hbRestart := true })
    else d) d

end Dev

/-- The page of an engine, and of a layer. -/
def enginePage (n : Nat) : PageRef := ⟨.engine, n, 0⟩
def layerPage (n : Nat) : PageRef := ⟨.layer, n, 0⟩

/-- ENGINE_JOB_START (R183). -/
def execEngineJobStart (t : Nat) (layer : Fin 1024) (s : State) := s.onDev (fun d => (d.atTime t).jobStart layer (max s.dev.house t))
/-- ENGINE_JOB_COMPLETE (R185). -/
def execEngineJobComplete (t : Nat) (layer : Fin 1024) (errs : List ReadError) (s : State) :=
  s.onDev (fun d => (d.atTime t).jobComplete layer (max s.dev.house t) errs)
/-- ENGINE_JOB_ABANDON (R184). -/
def execEngineJobAbandon (t : Nat) (layer : Fin 1024) (s : State) := s.onDev (fun d => (d.atTime t).jobAbandon layer (max s.dev.house t))
/-- COEF_DATA_WRITE (R192). -/
def execCoefDataWrite (t : Nat) (engine : Fin 64) (v : Word) (s : State) :=
  s.onDev (fun d => (d.atTime t).gate (enginePage engine) 0x74 (·.coefWrite engine v))
/-- COEF_DATA_READ (R206). -/
def execCoefDataRead (t : Nat) (engine : Fin 64) (s : State) :=
  s.onDev (fun d => (d.atTime t).gate (enginePage engine) 0x74 (·.coefRead engine))
/-- ENGINE_CNT_CLEAR (R206). -/
def execEngineCntClear (t : Nat) (engine : Fin 64) (s : State) :=
  s.onDev (fun d => (d.atTime t).gate (enginePage engine) 0x7C
    (·.clear [F.ENGINE_JOBS, F.ENGINE_SKIPS, F.ENGINE_OVERRUNS] engine))

end Sys2Proof.Machine
end

