-- ==== Sys2Proof/Machine/Compose.lean ====
section
/-! DEFINITION. Composition (R208 to R230): geometry, covered-layer suppression, the freshness judgement of a
plane (R14 to R25), and the pixel pipeline from stored samples to the head raster. -/
namespace Sys2Proof.Machine

/-! LUTs. -/

/-- Key of an entry: kind (0 input, 1 post-blend), LAYER or HEAD number, bank, component, entry. -/
def lutBankKey (kind index bank : Nat) : Nat := (kind * 1024 + index) * 2 + bank
def lutKey (kind index bank comp entry : Nat) : Nat := (lutBankKey kind index bank * 3 + comp) * 8192 + entry

/-- Identity (R217). -/
def lutIdent (k : Nat) : Nat := if k / 8192 / 3 / 2 / 1024 = 0 then k % 8192 * 16 else min (k % 8192) 4095

namespace Dev

def lut (d : Dev) (kind index bank comp entry : Nat) : Nat := sget lutIdent d.luts (lutKey kind index bank comp entry)
def setLut (d : Dev) (kind index bank comp entry v : Nat) : Dev :=
  { d with luts := sset lutIdent d.luts (lutKey kind index bank comp entry) v }

/-- The identity flag of a bank (R301). -/
def lutIsIdent (d : Dev) (kind index bank : Nat) : Bool :=
  !d.luts.any (fun p => p.1 / 8192 / 3 = lutBankKey kind index bank)

end Dev

/-! Geometry (R211, R203). -/

/-- A rectangle drawn into the raster: its source position and its place, cut to limits. `sx, sy, sw, sh` is
the source rectangle, `dx, dy` where its top left falls, and the limits are in raster coordinates. -/
def placeRect (sx sy : Nat) (x0 y0 x1 y1 : Int) (dx dy : Int) (lx0 ly0 lx1 ly1 : Int) : Nat × Nat × Nat × Nat × Nat × Nat :=
  let ox := dx - sx
  let oy := dy - sy
  let hx0 := max (x0 + ox) lx0
  let hy0 := max (y0 + oy) ly0
  let hx1 := min (x1 + ox) lx1
  let hy1 := min (y1 + oy) ly1
  if hx1 ≤ hx0 ∨ hy1 ≤ hy0 then (0, 0, 0, 0, 0, 0)
  else ((hx0 - ox).toNat, (hy0 - oy).toNat, hx0.toNat, hy0.toNat, (hx1 - hx0).toNat, (hy1 - hy0).toNat)

/-- The tiles of a plane with the part of the raster each is drawn into: key row × 1024 + column and
x0, y0, x1, y1 (R224). -/
def Plane.areas (p : Plane) : List (Nat × Nat × Nat × Nat × Nat) :=
  if p.w = 0 ∨ p.h = 0 ∨ p.held then []
  else
    let c0 := p.sx / 64
    let c1 := (p.sx + p.w - 1) / 64
    let r0 := p.sy / 32
    let r1 := (p.sy + p.h - 1) / 32
    (List.range (r1 + 1 - r0)).flatMap (fun i => (List.range (c1 + 1 - c0)).map (fun k =>
      let r := r0 + i
      let c := c0 + k
      (r * 1024 + c, p.x + (max (64 * c) p.sx - p.sx), p.y + (max (32 * r) p.sy - p.sy),
        p.x + (min (64 * c + 64) (p.sx + p.w) - p.sx), p.y + (min (32 * r + 32) (p.sy + p.h) - p.sy))))

/-- Whether a plane's drawn rectangle holds a rectangle, and meets one. -/
def Plane.holds (p : Plane) (x0 y0 x1 y1 : Nat) : Bool := p.x ≤ x0 && p.y ≤ y0 && x1 ≤ p.x + p.w && y1 ≤ p.y + p.h
def Plane.meets (p : Plane) (x0 y0 x1 y1 : Nat) : Bool :=
  !p.held && !p.leftOut && p.x < x1 && x0 < p.x + p.w && p.y < y1 && y0 < p.y + p.h

/-- The trump plane has slot 16. -/
def Plane.isTrump (p : Plane) : Bool := p.slot = 16

namespace Dev

/-- A setting of a plane: of its layer, or of the trump plane of head `h`. -/
def plGet (d : Dev) (h : Nat) (p : Plane) (lf tf : Fld) : Nat := if p.isTrump then d.act tf h else d.act lf p.layer
def plTreat (d : Dev) (h : Nat) (p : Plane) : Nat := d.plGet h p F.LAYER_FRESH_CTL_TREAT F.HEAD_TRUMP_FRESH_TREAT
def plScope (d : Dev) (h : Nat) (p : Plane) : Nat := d.plGet h p F.LAYER_FRESH_CTL_SCOPE F.HEAD_TRUMP_FRESH_SCOPE
def plLimit (d : Dev) (h : Nat) (p : Plane) : Nat := d.plGet h p F.LAYER_STALE_LIMIT F.HEAD_TRUMP_LIMIT
def plAlphaEn (d : Dev) (h : Nat) (p : Plane) : Bool := d.plGet h p F.LAYER_COMP_CTL_ALPHA_EN F.HEAD_TRUMP_CTL_ALPHA_EN = 1
def plBlend (d : Dev) (h : Nat) (p : Plane) : Nat := d.plGet h p F.LAYER_COMP_CTL_BLEND F.HEAD_TRUMP_CTL_BLEND
def plGain (d : Dev) (h : Nat) (p : Plane) : Nat := d.plGet h p F.LAYER_COMP_CTL_PLANE_ALPHA F.HEAD_TRUMP_CTL_PLANE_ALPHA
def plColour (d : Dev) (h : Nat) (p : Plane) : List Nat :=
  [d.plGet h p F.LAYER_STALE_COLOUR_RG_RED F.HEAD_TRUMP_STALE_RG_RED,
   d.plGet h p F.LAYER_STALE_COLOUR_RG_GREEN F.HEAD_TRUMP_STALE_RG_GREEN,
   d.plGet h p F.LAYER_STALE_COLOUR_B_BLUE F.HEAD_TRUMP_STALE_B_BLUE]

/-- Whether a context stores alpha (R223). -/
def ctxAlpha (d : Dev) (n : Nat) : Bool :=
  if d.ctxKind n = 11 then d.actFlag F.INGEST_STORE_ALPHA n
  else if d.ctxKind n = 10 then (d.latest n).elim false (fun p => p.fmt.alpha) else false

/-- R223: the plane is an occluder. -/
def occluder (d : Dev) (h : Nat) (p : Plane) : Bool :=
  !p.held && !p.leftOut && p.w ≠ 0 && p.h ≠ 0 && (!d.plAlphaEn h p || !d.ctxAlpha p.ctx) && d.plGain h p = 4096
    && d.plTreat h p ≠ 2 && !d.actFlag F.INGEST_FRESH_CTL_HB_CROP p.ctx

/-! Freshness (R14 to R20, R249). -/

/-- The backward steps that a plane's carry counts, as T_s and D, the latest first (R249). -/
def liveSteps (d : Dev) (h : Nat) (p : Plane) : List (Nat × Nat) :=
  d.tm.steps.take (d.tm.steps.length - (if p.isTrump then (sget (fun _ => ({} : HeadSt)) d.heads h).trumpCut else (d.layer p.layer).carryCut))

/-- C of a plane: D of the latest step with what was still in force of the steps before (R249). -/
def carrySum (d : Dev) (h : Nat) (p : Plane) : Nat := (d.liveSteps h p).foldl (fun n q => n + q.2) 0

/-- The carry by which a plane is judged; none where its stale limit is 0. -/
def carryFor (d : Dev) (h : Nat) (p : Plane) : Nat := if d.plLimit h p = 0 then 0 else d.carrySum h p

/-- R249: at a latch with J = `j` the carry of a plane ends once J has reached T_s + C + its limit. -/
def carryEnd (d : Dev) (h j : Nat) (p : Plane) : Dev :=
  match d.liveSteps h p with
  | (ts, _) :: _ =>
    if p.held || j < ts + d.carrySum h p + d.plLimit h p * 1000 then d
    else
      let n := d.tm.steps.length
      if p.isTrump then { d with heads := supd (fun _ => {}) d.heads h (fun s => { s with trumpCut := n }) }
      else { d with layers := supd (fun _ => {}) d.layers p.layer (fun s => { s with carryCut := n }) }
  | [] => d

/-- A tile exceeds its limit at the judging instant (R18). -/
def overAge (lim j stamp : Nat) : Bool := lim ≠ 0 && j > stamp + lim * 1000

/-- Causes of a context in force at a latch now: those before a change at the same edge, but for a lost peer (R18, R33). -/
def ctxForced (d : Dev) (n : Nat) : Nat :=
  let c := d.ctx n
  if c.causeAt = some d.house then c.causeWas ||| (if c.peerCause then 2 ^ 14 else 0) else d.ctxCauses n

/-- Causes of a layer's own in force at a latch now (R18). -/
def layerForced (d : Dev) (l : Nat) : Nat :=
  let s := d.layer l
  let w := if s.causeAt = some d.house then s.causeWas else d.layerCauses l
  (if d.actFlag F.LAYER_ENG_CTL_ENG_EN l then w % 2048 else 0) + w / 2048 * 2048

/-- GEOMETRY of the trump plane of a head in force at a latch now (R18, R24). -/
def trumpForced (d : Dev) (h : Nat) : Nat :=
  let s := sget (fun _ => ({} : HeadSt)) d.heads h
  if s.trumpGeom && s.trumpAt ≠ some d.house then 2048 else 0

/-- Metadata of a tile position of a picture, absent outside it. -/
def metaAt (d : Dev) (p : Option Pic) (key : Nat) : Option Tile :=
  p.bind (fun q => if key % 1024 < q.cols ∧ key / 1024 < q.rows then some (d.picTile q (key % 1024) (key / 1024)) else none)

/-- Tile index of a head raster pixel, and the columns and rows of head tiles. -/
def headCols (d : Dev) (h : Nat) : Nat := (d.act F.HEAD_H_TIMING_HACTIVE h + 63) / 64
def headRows (d : Dev) (h : Nat) : Nat := (d.act F.HEAD_V_TIMING_VACTIVE h + 31) / 32

/-- Head tiles that a raster area meets. -/
def headTilesOf (cols : Nat) (a : Nat × Nat × Nat × Nat × Nat) : List Nat :=
  if a.2.1 ≥ a.2.2.2.1 ∨ a.2.2.1 ≥ a.2.2.2.2 then []
  else
    (List.range ((a.2.2.2.2 - 1) / 32 + 1 - a.2.2.1 / 32)).flatMap (fun i =>
      (List.range ((a.2.2.2.1 - 1) / 64 + 1 - a.2.1 / 64)).map (fun k => (a.2.2.1 / 32 + i) * cols + a.2.1 / 64 + k))

/-- The raster area of a head tile. -/
def headTileRect (d : Dev) (h idx : Nat) : Nat × Nat × Nat × Nat :=
  let cols := d.headCols h
  let c := idx % max 1 cols
  let r := idx / max 1 cols
  (64 * c, 32 * r, min (64 * c + 64) (d.act F.HEAD_H_TIMING_HACTIVE h), min (32 * r + 32) (d.act F.HEAD_V_TIMING_VACTIVE h))

/-- One of the planes holds a head tile whole. -/
def heldTile (d : Dev) (h : Nat) (qs : List Plane) (idx : Nat) : Bool :=
  let r := d.headTileRect h idx
  qs.any (fun q => q.holds r.1 r.2.1 r.2.2.1 r.2.2.2)

/-- R224: an area of a plane is suppressed when an occluder higher in the stack holds it; a member of a meld group by one
of its own group, or where each head tile it draws into lies under an anchor above it or is suppressed itself (R227, R228). -/
def suppressedArea (d : Dev) (h : Nat) (above : List Plane) (p : Plane) (a : Nat × Nat × Nat × Nat × Nat) : Bool :=
  let holds (q : Plane) : Bool := q.holds a.2.1 a.2.2.1 a.2.2.2.1 a.2.2.2.2
  if p.group.isNone then above.any holds
  else
    above.any (fun q => q.group = p.group && holds q)
      || (headTilesOf (d.headCols h) a).all (d.heldTile h above)

/-- The judgement of a plane's tiles at its latch (R19 to R21): visible and suppressed tiles, the layer-scope
decision, and the hidden-stale count. `above` are the occluders higher in the stack. Covered tiles of a layer without a
frame count as hidden-stale (log entry 26). -/
def judge (d : Dev) (h j : Nat) (above : List Plane) (p : Plane) : Plane :=
  let lim := d.plLimit h p
  let jc := j + d.carryFor h p
  let vis := p.areas.filter (fun a => !d.suppressedArea h above p a)
  let cov := p.areas.filter (d.suppressedArea h above p)
  let src := if p.chase then p.fall else p.pic
  let aged (key : Nat) : Bool := match d.metaAt src key with
    | some t => overAge lim jc t.stamp || t.poison
    | none => false
  let bad (key : Nat) : Bool := p.pic.isNone || aged key
  let forced := p.forced ≠ 0
  let whole := d.plScope h p = 0 && (forced || vis.any (fun a => bad a.1))
  { p with
    whole := whole
    tiles := vis.map (fun a =>
      (a.1, { tile := (d.metaAt p.pic a.1).getD {}, absent := p.pic.isNone
              stale := whole || forced || bad a.1 }))
    covered := cov.map (·.1)
    hidden := (cov.filter (fun a => forced || bad a.1)).length
    coveredStale := (cov.filter (fun a => whole || forced || bad a.1)).map (·.1) }

/-- A fetched tile is judged by its own stamp and poison (R20). -/
def judgeTile (d : Dev) (h j : Nat) (p : Plane) (t : Tile) (absent : Bool) : Fetched :=
  let lim := d.plLimit h p
  { tile := t, read := true, absent := absent
    stale := absent || p.whole || p.forced ≠ 0 || t.poison || overAge lim (j + d.carryFor h p) t.stamp }

/-! The pixel pipeline (R214 to R221). -/

def lmatCoef (d : Dev) (l k : Nat) : Int :=
  match k with
  | 0 => sgn 16 (d.act F.LAYER_LMAT_0_COEF_LO l) | 1 => sgn 16 (d.act F.LAYER_LMAT_0_COEF_HI l)
  | 2 => sgn 16 (d.act F.LAYER_LMAT_1_COEF_LO l) | 3 => sgn 16 (d.act F.LAYER_LMAT_1_COEF_HI l)
  | 4 => sgn 16 (d.act F.LAYER_LMAT_2_COEF_LO l) | 5 => sgn 16 (d.act F.LAYER_LMAT_2_COEF_HI l)
  | 6 => sgn 16 (d.act F.LAYER_LMAT_3_COEF_LO l) | 7 => sgn 16 (d.act F.LAYER_LMAT_3_COEF_HI l)
  | _ => sgn 16 (d.act F.LAYER_LMAT_4_COEF_LO l)

/-- Steps 3 and 4 of R214: layer matrix and input LUT; the trump plane has neither (R220). -/
def blendValue (d : Dev) (p : Plane) (t : Tile) (c12 : List Nat) : List Nat :=
  if p.isTrump then c12.map (· * 16)
  else
    let mode := d.act F.LAYER_LMAT_CTL_MODE p.layer
    let c := if mode = 1 ∨ (mode = 2 ∧ t.fmt.ycc) then
        (List.range 3).map (matrixComp (d.lmatCoef p.layer) (fun k => sgn 13 (d.act F.LAYER_LMAT_OFF_PRE p.layer k))
          (fun k => sgn 13 (d.act F.LAYER_LMAT_OFF_POST p.layer k)) 4095 (fun k => c12.getD k 0))
      else c12
    let bank := d.act F.LAYER_LUT_CTL_BANK p.layer
    (List.range 3).map (fun k => d.lut 0 p.layer bank k (c.getD k 0))

/-- Per-pixel alpha (R218). -/
def alphaPx (d : Dev) (h : Nat) (p : Plane) (t : Tile) (x y : Nat) : Nat :=
  match (tilePixel t.fmt t.data x y).2 with
  | some a =>
    let m := 2 ^ t.fmt.bits - 1
    if d.plAlphaEn h p then (a * 8192 + m) / (2 * m) else 4096
  | none => 4096

/-- Blend of a value over what lies below (R219). -/
def blendOver (premul : Bool) (g a : Nat) (v dst : List Nat) : List Nat :=
  (List.range 3).map (fun k =>
    let vk := v.getD k 0
    let dk := dst.getD k 0
    if premul then min 65535 ((vk * g + 2048) / 4096 + (dk * (4096 - a) + 2048) / 4096)
    else (vk * a + dk * (4096 - a) + 2048) / 4096)

/-- The source pixel a pixel of a prepared frame comes from, to the nearest: backward through the scaling, orientation and
deinterlacing it was made with (log entry 222). -/
def engSource (p : Pic) (x y : Nat) : Nat × Nat :=
  let dd : Nat × Nat := (p.rect.2.2.1, if p.deint = 0 then p.rect.2.2.2 else 2 * p.rect.2.2.2)
  let o : Nat × Nat := if p.rot % 2 = 1 then (dd.2, dd.1) else dd
  let x := if p.scaled then (2 * x + 1) * o.1 / max 1 (2 * p.width) else x
  let y := if p.scaled then (2 * y + 1) * o.2 / max 1 (2 * p.height) else y
  let q : Nat × Nat := match p.rot with
    | 0 => (x, y)
    | 1 => (y, dd.2 - 1 - x)
    | 2 => (dd.1 - 1 - x, dd.2 - 1 - y)
    | _ => (dd.1 - 1 - y, x)
  let ux := if p.mirror then dd.1 - 1 - q.1 else q.1
  (p.rect.1 + ux, p.rect.2.1 + (if p.deint = 0 then q.2 else q.2 / 2))

/-- R32: a pixel of a plane's picture lies in the patch that is left out of the blend. -/
def inPatch (d : Dev) (p : Plane) (x y : Nat) : Bool :=
  match p.crop with
  | none => false
  | some (hx, hy) =>
    let s := match p.pic with
      | some q => if q.owner = ownLayer p.layer then engSource q x y else (x, y)
      | none => (x, y)
    hx ≤ s.1 && s.1 < hx + 32 && hy ≤ s.2 && s.2 < hy + 4

/-- One plane blended at a raster pixel (R214, R22, R32). -/
def planePixel (d : Dev) (h : Nat) (p : Plane) (x y : Nat) (dst : List Nat) : List Nat :=
  if p.held || p.leftOut || x < p.x || y < p.y || x ≥ p.x + p.w || y ≥ p.y + p.h then dst
  else
    let sx := p.sx + (x - p.x)
    let sy := p.sy + (y - p.y)
    let f := sget (fun _ => ({} : Fetched)) p.tiles (sy / 32 * 1024 + sx / 64)
    let treat := d.plTreat h p
    let treat := if f.absent && treat = 0 then 1 else treat
    if d.inPatch p sx sy || (f.stale && treat = 2) then dst
    else
      let g := d.plGain h p
      let premul := d.plBlend h p = 1
      if f.stale && (treat = 1 || (x + y) / 8 % 2 = 1) then blendOver premul g 4096 (d.plColour h p) dst
      else
        let v := d.blendValue p f.tile (pix12 f.tile (sx % 64) (sy % 32))
        let a := (d.alphaPx h p f.tile (sx % 64) (sy % 32) * g + 2048) / 4096
        let v := if f.stale then v.map (fun u => (u * 1024 + 2048) / 4096) else v
        blendOver premul g a v dst

def background (d : Dev) (h : Nat) : List Nat :=
  [d.act F.HEAD_BG_RG_RED h, d.act F.HEAD_BG_RG_GREEN h, d.act F.HEAD_BG_B_BLUE h]

/-- The value leaving a meld group at a pixel, blended live over `dst` (R227). -/
def groupPixel (d : Dev) (h g : Nat) (ps : List Plane) (x y : Nat) (dst : List Nat) : List Nat :=
  (ps.filter (fun p => p.group = some g)).foldl (fun v p => d.planePixel h p x y v) dst

/-- A pixel of a stored meld tile; a poisoned one shows the STALE_COLOUR of the group's highest member (R229). -/
def meldPixel (d : Dev) (h : Nat) (p : Plane) (t : Tile) (x y : Nat) : List Nat :=
  if t.poison then d.plColour h p
  else (List.range 3).map (fun k => t.data.getD ((y % 32 * 64 + x % 64) * 3 + k) 0)

/-- The blended stack at a raster pixel, before the post-blend LUT (R208). A clean anchored meld tile stands
for its whole group at the group's highest member. -/
def stackPixel (d : Dev) (h cols : Nat) (ps : List Plane) (ms : List (Nat × MeldView)) (x y : Nat) : List Nat :=
  let idx := y / 32 * cols + x / 64
  ps.foldl (fun dst p =>
    match p.group with
    | none => d.planePixel h p x y dst
    | some g =>
      let m := sget (fun _ => ({} : MeldView)) ms g
      match m.got.find? (fun q => q.1 = idx) with
      | some (_, t) =>
        if (ps.filter (fun q => q.group = some g)).getLast?.elim false (fun q => q.slot = p.slot) then
          d.meldPixel h p t x y
        else dst
      | none => d.planePixel h p x y dst) (d.background h)

/-- The post-blend LUT (R221). -/
def postLut (d : Dev) (h comp v : Nat) : Nat :=
  let bank := d.act F.HEAD_POST_LUT_BANK h
  let i := v / 16
  let f := v % 16
  (d.lut 1 h bank comp i * (16 - f) + d.lut 1 h bank comp (i + 1) * f + 8) / 16

/-- The head raster at a pixel: three 12-bit components. -/
def rasterPixel (d : Dev) (h : Nat) (hs : HeadSt) (x y : Nat) : List Nat :=
  let v := d.stackPixel h (d.headCols h) hs.planes hs.melds x y
  (List.range 3).map (fun k => d.postLut h k (v.getD k 0))

end Dev
end Sys2Proof.Machine
end

