-- ==== Sys2Proof/Machine/Recorder.lean ====
section
/-! DEFINITION. The recorder ring (R168 to R172) and the witness records, their ring and the witness channel
(R306 to R310, R320): what a head's latch hands to both, and the recorder's commands. -/
namespace Sys2Proof.Machine

/-- Insert bytes into fixed places: a byte string padded with zeros to a length. -/
def padTo (n : Nat) (bs : List Byte) : List Byte := bs ++ List.replicate (n - bs.length) 0

namespace Dev

/-- Frame-store address of sector `o` of an owner's slabs taken as one run of sectors. -/
def ringAddr (d : Dev) (owner o : Nat) : Option Nat :=
  ((d.map owner).getD (o / 4096) none).map (fun s => s * 0x200000 + o % 4096 * 512)

/-- Whole sectors written into an owner's slabs; a write to a fenced pseudo-channel is discarded (R162). -/
def ringWrite (d : Dev) (owner : Nat) : Nat → Nat → List Byte → Dev
  | _, 0, _ => d
  | o, n + 1, bs =>
    let d1 := ringWrite d owner (o + 1) n (bs.drop 512)
    match d.ringAddr owner o with
    | some a => if d1.pcFenced (pcOf a) then d1 else { d1 with bytes := memWrite d1.bytes a (bs.take 512) }
    | none => d1

/-! The recorder. -/

def recHead (d : Dev) (h : Nat) : RecHead := sget (fun _ => {}) d.recHeads h
def setRecHead (d : Dev) (h : Nat) (r : RecHead) : Dev := { d with recHeads := sset (fun _ => {}) d.recHeads h r }

/-- The ring size in sectors. -/
def recSize (d : Dev) : Nat := d.act F.RECORDER_RING_SLABS_SLABS * 4096

/-- Samples of tile (c, r) of the captured 12-bit raster (R168, R144). -/
def rasterTile (px : Nat → Nat → List Nat) (w h c r : Nat) : List Nat :=
  (List.range 32).flatMap (fun j => (List.range 64).flatMap (fun i =>
    if 64 * c + i < w ∧ 32 * r + j < h then px (64 * c + i) (32 * r + j) else [0, 0, 0]))

/-- The header of an entry (R170), HCRC included. -/
def recHeader (type head flags seq latch frame epoch count length prev cols rows : Nat) : List Byte :=
  let b := padTo 60 (leBytes 2 type ++ leBytes 1 head ++ leBytes 1 flags ++ leBytes 4 seq ++ leBytes 8 latch
    ++ leBytes 4 frame ++ leBytes 4 epoch ++ leBytes 4 count ++ leBytes 4 length ++ leBytes 4 prev
    ++ leBytes 2 cols ++ leBytes 2 rows)
  b ++ leBytes 4 (crc32c b)

/-- The oldest whole entry as the registers show it (R171). -/
def recOldest (d : Dev) : Dev :=
  match d.recRing with
  | e :: _ => (d.put F.RECORDER_OLDEST_SEQ e.seq).put F.RECORDER_OLDEST_OFF e.off
  | [] => (d.put F.RECORDER_OLDEST_SEQ (d.get F.RECORDER_NEXT_SEQ)).put F.RECORDER_OLDEST_OFF (d.get F.RECORDER_WR_OFFSET)

/-- One entry is written at the ring offset, over the oldest ones (R171). -/
def recPut (d : Dev) (len : Nat) (bytes : List Byte) : Dev :=
  let off := d.get F.RECORDER_WR_OFFSET
  let seq := d.get F.RECORDER_NEXT_SEQ
  let keep := d.recRing.filter (fun e => e.off + e.len ≤ off || off + len ≤ e.off)
  let hit := keep.length < d.recRing.length
  let d := d.ringWrite ownRecorder off ((bytes.length + 511) / 512) (padTo ((bytes.length + 511) / 512 * 512) bytes)
  let d := { d.transact reqRec bytes.length with recRing := keep ++ [RingEntry.mk seq off len], recBytes := d.recBytes + bytes.length }
  let d := if hit && !d.flag F.RECORDER_STS_WRAPPED then (d.put F.RECORDER_STS_WRAPPED 1).irq .recorder 0 0 1 else d
  (((d.put F.RECORDER_WR_OFFSET ((off + len) % max 1 d.recSize)).put F.RECORDER_NEXT_SEQ
    ((seq + 1) % 2 ^ 32)).count F.RECORDER_ENTRIES).recOldest

/-- The ring is emptied (R171): no entry, no head has recorded. -/
def recEmpty (d : Dev) : Dev :=
  ({ d with recRing := [], recHeads := [] }.put F.RECORDER_WR_OFFSET 0).put F.RECORDER_STS_WRAPPED 0 |>.recOldest

/-- Every head's next entry is a keyframe. -/
def recNeedKeys (d : Dev) : Dev :=
  (List.range 64).foldl (fun d h => d.setRecHead h { d.recHead h with needKey := true }) d

/-- Whether the recorder records a frame of a head (R168). -/
def recWants (d : Dev) (h frame : Nat) : Bool :=
  d.enabled .recorder 0 && d.actFlag F.RECORDER_CFG_EN && d.recSize ≠ 0
    && bitsOf (d.act F.RECORDER_HEAD_MASK_LO + 2 ^ 32 * d.act F.RECORDER_HEAD_MASK_HI) h 1 = 1
    && frame % max 1 (d.act F.RECORDER_CFG_DIV) = 0

/-- No entry is in progress: HOLD is in force from now on, where it is set (R172, R176). -/
def recHeld (d : Dev) : Dev :=
  let held := d.flag F.RECORDER_CTL_HOLD && (List.range 64).all (fun h => !(d.recHead h).begun)
  let was := d.flag F.RECORDER_STS_HELD
  let d := d.putB F.RECORDER_STS_HELD held
  if held && !was then d.irq .recorder 0 0 2 else d

/-- The entry of a head is no longer in progress. -/
def recEnded (d : Dev) (h : Nat) : Dev :=
  if (d.recHead h).begun then (d.setRecHead h { d.recHead h with begun := false }).recHeld else d

/-- R168 to R172: an output frame of a head is recorded. `broken`: tile rows staged when the next row arrived too early; with
no free tag nothing can be staged (R151, R169). An entry that had begun when HOLD was set is completed. -/
def record (d : Dev) (h : Nat) (hs : HeadSt) (px : Nat → Nat → List Nat) (underrun : Bool) (broken : Option Nat) : Dev :=
  let frame := hs.frame % 2 ^ 32
  if !d.recWants h frame then d
  else if d.flag F.RECORDER_CTL_HOLD && !(d.recHead h).begun then d.count F.RECORDER_DROPPED
  else
    let w := d.act F.HEAD_H_TIMING_HACTIVE h
    let ht := d.act F.HEAD_V_TIMING_VACTIVE h
    let cols := (w + 63) / 64
    let rows := (ht + 31) / 32
    let fmt : TileFmt := { depth := 2, s444 := true }
    let rh := d.recHead h
    let broken := if d.tagFree reqRec then broken else some 0
    let pack := d.actFlag F.RECORDER_CFG_PACK
    let pos := (List.range (min rows (broken.getD rows))).flatMap (fun r => (List.range cols).map (fun c => (c, r)))
    let all := pos.map (fun q => (q, rasterTile px w ht q.1 q.2))
    let crcOf (xs : List Nat) := crc32c (plainBytes fmt xs)
    let key := rh.crcs.isNone || rh.needKey || d.house ≥ rh.keyTime + d.act F.RECORDER_CFG_KEY_S * 1000000000
    let old := rh.crcs.getD []
    let sel := if key then all else all.filter (fun q => sget (fun _ => 2 ^ 32) old (q.1.2 * 1024 + q.1.1) ≠ crcOf q.2)
    let secs (xs : List Nat) := if pack then packSectors fmt xs else fmt.sectors
    let table := sel.flatMap (fun q =>
      leBytes 2 q.1.1 ++ leBytes 2 q.1.2 ++ leBytes 1 (secs q.2) ++ leBytes 3 0 ++ leBytes 4 (crcOf q.2))
    let headSecs := (64 + table.length + 511) / 512
    let len := headSecs + sel.foldl (fun n q => n + secs q.2) 0
    let flags := (if broken.isSome then 1 else 0) + (if pack then 2 else 0) + (if underrun then 4 else 0)
    let off := d.get F.RECORDER_WR_OFFSET
    if len > d.recSize then d
    else
      let d := if off + len > d.recSize then
          d.recPut (d.recSize - off) (recHeader 3 0 0 (d.get F.RECORDER_NEXT_SEQ) 0 0 0 0 (d.recSize - off) 0xFFFFFFFF 0 0)
        else d
      let seq := d.get F.RECORDER_NEXT_SEQ
      let body := padTo (headSecs * 512) (recHeader (if key then 1 else 2) h flags seq hs.latch frame hs.epoch sel.length
          len (rh.prev.getD 0xFFFFFFFF) cols rows ++ table)
        ++ sel.flatMap (fun q => (storedBytes fmt pack q.2).take (secs q.2 * 512))
      let d := d.recPut len body
      let d := d.setRecHead h
        { crcs := some (all.foldl (fun l q => sset (fun _ => 2 ^ 32) l (q.1.2 * 1024 + q.1.1) (crcOf q.2))
            (if broken.isSome then old else []))
          begun := rh.begun, prev := some seq, keyTime := if key then d.house else rh.keyTime, needKey := broken.isSome }
      if broken.isSome then (d.count F.RECORDER_BROKEN).irq .recorder 0 0 0 else d

/-- HOLD is set: a head that is being captured, a frame to be recorded, has begun its entry (R172). -/
def recBegin (d : Dev) : Dev :=
  (List.range 64).foldl (fun d h =>
    let hs := sget (fun _ => ({} : HeadSt)) d.heads h
    if hs.viewed && hs.shown && hs.composed && d.recWants h (hs.frame % 2 ^ 32) then d.setRecHead h { d.recHead h with begun := true }
    else d) d

/-! Witness records. -/

/-- Ring capacity in records (R308). -/
def witCap (d : Dev) : Nat := 16384 * d.act F.WITCHAIN_WRING_SLABS_SLABS 64

/-- Frame-store address of the record with counter `c` (R308). -/
def witAddr (d : Dev) (c : Nat) : Option Nat :=
  if d.witCap = 0 then none
  else
    let p := (c - d.get64 F.WITCHAIN_RING_BASE_LO 64) % d.witCap
    ((d.map ownWitness).getD (p / 16384) none).map (fun s => s * 0x200000 + p % 16384 * 128)

/-- Oldest counter still in the ring. -/
def witOldest (d : Dev) : Nat :=
  let n := d.get64 F.WITCHAIN_NEXT_COUNTER_LO 64
  max (d.get64 F.WITCHAIN_RING_BASE_LO 64) (n - d.witCap)

/-- The witness channel has no credit (R310). -/
def witStalled (d : Dev) : Bool := d.witChan.length ≥ 64

/-- STALLED follows the channel's credits. -/
def witStall (d : Dev) : Dev :=
  if d.witStalled && !d.flag F.WITCHAIN_STS_STALLED 64 then (d.put F.WITCHAIN_STS_STALLED 1 64).irq .witChain 64 0 0
  else d.putB F.WITCHAIN_STS_STALLED d.witStalled 64

/-- A record enters the witness channel (R310). -/
def witHand (d : Dev) (c : Nat) (rcd : List Byte) : Dev :=
  let d := if d.witResume then d.irq .witChain 64 0 2 else d
  let d := { d with witChan := d.witChan ++ [(c, rcd, d.witResume)], witResume := false, witHanded := d.witHanded + 1 }
  (d.put64 F.WITCHAIN_HANDED_LO c 64).witStall

/-- Records are passed over: counted, and the next handover resumes (R310). -/
def witSkip (d : Dev) (n : Nat) : Dev :=
  if n = 0 then d
  else { (d.count F.WITCHAIN_SKIPPED 64 0 n).irq .witChain 64 0 1 with witResume := true }

/-- The handover runs: the chain page is enabled (R67, R313, R451). -/
def witRuns (d : Dev) : Bool := d.enabled .witChain 64

/-- The chain halts (R313): it chains no more (WCHAIN_STS). -/
def chainHalt (d : Dev) : Dev := (d.put F.MGMT_WCHAIN_STS_HALTED 1).put F.MGMT_WCHAIN_STS_ACTIVE 0

/-- The header of a Tatre message (R357). -/
def tatreHeader (d : Dev) (type len t : Nat) : List Byte :=
  [0x51, 0x54, 0x01, BitVec.ofNat 8 type] ++ leBytes 1 (d.act F.DEAL_SEAT_CFG_TABLE) ++ leBytes 1 (d.act F.DEAL_SEAT_CFG_SEAT)
    ++ leBytes 2 len ++ leBytes 8 t

/-- A datagram leaves an interface that is up, and is counted. -/
def udpSend (d : Dev) (i : Nat) (dst : List Word) (port : Nat) (bytes : List Byte) : Dev :=
  if d.netUp i then (d.count F.NPORT_TX_FRAMES (i / 4) (i % 4)).emit (.udp i dst port bytes) else d

/-- A WITNESS message to the collector (R309, R374). -/
def witStream (d : Dev) (rcd : List Byte) : Dev :=
  if !d.actFlag F.WITCHAIN_WCFG_STREAM_EN 64 then d
  else
    let i := d.act F.WITCHAIN_STREAM_NET_NETIF 64
    if d.netUp i then
      (d.count F.WITCHAIN_STREAM_SENT 64).udpSend i ((List.range 4).map (fun k => d.word (F.WITCHAIN_STREAM_DST.addr 64 k 0 - 0x400)))
        (d.act F.WITCHAIN_STREAM_NET_UDP_PORT 64) (d.tatreHeader 0x20 148 d.house ++ leBytes 4 0 ++ rcd)
    else d.count F.WITCHAIN_STREAM_DROPPED 64

/-- R307 to R310, R320: a record gets its counter, goes into the ring, the stream and, with no ring, straight
to the channel. `body` is the record with a zero counter. A record for which the port has no free tag does not reach the ring
(R151; log entry 235). -/
def witWrite (d : Dev) (h : Nat) (body : List Byte) : Dev :=
  let c := d.get64 F.WITCHAIN_NEXT_COUNTER_LO 64
  let rcd := body.take 4 ++ leBytes 8 c ++ body.drop 12
  let d := match d.witAddr c with
    | some a =>
      if !d.tagFree reqRec then { d with witLost := addOnce d.witLost c }
      else
        let d := { d with scrubBad := d.scrubBad.filter (fun b => !(b + 32 > a && b < a + 128)) }
        (if d.pcFenced (pcOf a) then d else { d with bytes := memWrite d.bytes a rcd }).transact reqRec 128
    | none => d
  let d := (d.put64 F.WITCHAIN_NEXT_COUNTER_LO (c + 1) 64).count F.WITNESS_RECORDS h
  let d := d.witStream rcd
  if d.witCap == 0 then
    if d.witRuns && !d.witStalled then d.witHand c rcd
    else (d.put64 F.WITCHAIN_HANDED_LO c 64).witSkip 1
  else d

end Dev

/-- RECORDER_HOLD_WRITE (R172). -/
def execRecorderHoldWrite (t : Nat) (hold : Bool) (s : State) :=
  s.onDev (fun d => (d.atTime t).gate ⟨.recorder, 0, 0⟩ 0x40 (fun d =>
    let was := d.flag F.RECORDER_CTL_HOLD
    let d := d.putB F.RECORDER_CTL_HOLD hold
    if hold && !was then (d.recBegin).recHeld
    else if !hold && was then (d.recNeedKeys).recHeld
    else d))
/-- RECORDER_FORCE_KEY (R168). -/
def execRecorderForceKey (t : Nat) (s : State) :=
  s.onDev (fun d => (d.atTime t).gate ⟨.recorder, 0, 0⟩ 0x40 (·.recNeedKeys))
/-- RECORDER_CLEAR (R176). -/
def execRecorderClear (t : Nat) (s : State) :=
  s.onDev (fun d => (d.atTime t).gate ⟨.recorder, 0, 0⟩ 0x70
    (·.clear [F.RECORDER_ENTRIES, F.RECORDER_BROKEN, F.RECORDER_DROPPED]))

end Sys2Proof.Machine
end

