-- ==== Sys2Proof/Machine/TimeCore.lean ====
section
/-! DEFINITION. The TIME block (R242 to R250, R262, R263) and the PTP port (R354, R355): house time, its
reference, hold-offs and steps, REF_IN, and the commands of both pages of TIME. -/
namespace Sys2Proof.Machine

/-- A signed value saturated to 32 bits, as a register code. -/
def sat32 (x : Int) : Nat := unsgn 32 (max (-2147483648) (min x 2147483647))

namespace Dev

/-- House time locks to its reference. -/
def houseLock (d : Dev) : Dev :=
  if d.flag F.TIME_STS_LOCKED then d
  else
    ((d.put F.TIME_STS_LOCKED 1).holdoverOff.updTm (fun s => { s with everLocked := true })).irq .time 0 0 0

/-- Heads of a reference mode decide anew at their next line 0 (R245). -/
def headsStepped (d : Dev) (mode : Nat) : Dev :=
  { d with heads := d.heads.map (fun p =>
      if d.act F.HEAD_REF_CTL_REF_MODE p.1 = mode then (p.1, { p.2 with stepped := true }) else p) }

/-- Periods that are counted in elapsed time go on through a step of house time. -/
def timersStep (d : Dev) (x : Int) : Dev :=
  let sh (n : Nat) : Nat := ((n : Int) + x).toNat
  let pow (u : PowUnit) : PowUnit := if u.phase = 0 then u else { u with start := sh u.start, asked := sh u.asked }
  { d with
    relTime := sh d.relTime, relBy := sh d.relBy, scrubAt := d.scrubAt.map sh
    aliveAt := sh d.aliveAt
    msiLast := d.msiLast.map (fun q => (q.1, sh (q.2 - 1) + 1))
    mg := { d.mg with stopAt := d.mg.stopAt.map sh, startAt := sh d.mg.startAt, chalAt := sh d.mg.chalAt }
    doms := d.doms.map (fun q => (q.1, pow q.2))
    units := d.units.map (fun q => (q.1, pow q.2))
    ctxs := d.ctxs.map (fun q => (q.1, { q.2 with
      heard := (sh q.2.heard.1, q.2.heard.2), heard1 := (sh q.2.heard1.1, q.2.heard1.2), heard2 := (sh q.2.heard2.1, q.2.heard2.2)
      hpdAt := sh q.2.hpdAt
      cur := q.2.cur.map (fun f => { f with lastLine := sh f.lastLine }) }))
    layers := d.layers.map (fun q => (q.1, { q.2 with
      lastJob := q.2.lastJob.map sh, job := q.2.job.map (fun j => { j with start := sh j.start }) }))
    audio := { d.audio with ains := d.audio.ains.map (fun q => (q.1, { q.2 with heard := sh q.2.heard })) }
    engSince := d.engSince.map (fun q => (q.1, q.2.map sh))
    heads := d.heads.map (fun q => (q.1, { q.2 with l0 := sh q.2.l0, due := sh q.2.due }))
    ports := d.ports.map (fun q => (q.1, { q.2 with log := q.2.log.map (fun e => (sh e.1, e.2)) }))
    netBack := d.netBack.map (fun q => (q.1, sh (q.2 - 1) + 1))
    store := { d.store with rose := d.store.rose.map (· + x) } }

/-- An accepted step of house time by `x` ns (R248): counted and recorded; a backward one starts a carry
(R249). -/
def houseStep (d : Dev) (x : Int) : Dev :=
  let d := if d.reachable then { d with cfgReady := true } else d
  let now := ((d.house : Int) + x).toNat
  let sh (n : Nat) : Nat := ((n : Int) + x).toNat
  let d := { d with house := now }
  let d := d.updTm (fun s =>
    { s with
      steps := if x < 0 then (now, (-x).toNat) :: s.steps else s.steps
      ppsLast := s.ppsLast.map sh, refLast := s.refLast.map sh, refTrack := sh s.refTrack
      holdoverStart := s.holdoverStart.map sh, refHold := s.refHold.map sh, request := s.request.map sh
      announced := sh s.announced, home := s.home.map (fun q => (sh q.1, sh q.2))
      masters := s.masters.map (fun m => { m with latest := sh m.latest, before := m.before.map sh }) })
  let d := (d.put64 F.TIME_STEP_LAST_LO (unsgn 64 x)).count F.TIME_STEP_COUNT
  let d := { d with audio := { d.audio with realignAll := true, instant := none, boundary := none } }
  ((d.irq .time 0 0 3).headsStepped 1).timersStep x

/-- The offset of the reference from house time is measured (R248, R355): a step at acquisition, a hold-off, a
glitch, or a measurement within 1 µs. Only measurements in a row within 100 ns count for the servo's lock, whatever else one
of them does. -/
def measure (d : Dev) (x : Int) : Dev :=
  let d := d.put F.TIME_OFFSET (sat32 x)
  let small := -1000 ≤ x ∧ x ≤ 1000
  let d := d.updTm (fun s => { s with syncGood := if -100 ≤ x ∧ x ≤ 100 then min 16 (s.syncGood + 1) else 0 })
  if d.tm.holdStart.isSome then
    if small then
      let was := d.tm.holdLocked
      let d := (((d.put F.TIME_STS_HOLDOFF 0).updTm (fun s => { s with holdStart := none })).holdoverOff.count
        F.TIME_GLITCH_COUNT).irq .time 0 0 4
      if was then d.houseLock else d
    else d.updTm (fun s => { s with offset := x })
  else if d.tm.acquire then
    let d := d.updTm (fun s => { s with acquire := false, syncGood := 0 })
    if x = 0 then d else d.houseStep x
  else if small then
    if d.houseRef = 1 then
      if d.tm.syncGood = 16 then ((d.put F.TIME_PTP_STS_SERVO_LOCK 1).put F.TIME_PTP_STS_PORT_STATE 9).houseLock
      else d
    else if d.flag F.TIME_REF_STS_CLK10M_PRESENT then d.houseLock
    else d
  else
    let was := d.flag F.TIME_STS_LOCKED
    (((d.put F.TIME_STS_LOCKED 0).put F.TIME_STS_HOLDOFF 1).holdoverOn.updTm
      (fun s => { s with holdStart := some d.house, offset := x, holdLocked := was })).irq .time 0 0 2

/-- R248: the hold-off of house time ends in a step to the offset then measured. -/
def holdoffEnd (d : Dev) : Dev :=
  match d.tm.holdStart with
  | none => d
  | some s =>
    if d.house < s + d.act F.TIME_HOLDOFF_HOLDOFF_MS * 1000000 then d
    else
      let d := ((d.put F.TIME_STS_HOLDOFF 0).put F.TIME_PTP_STS_SERVO_LOCK 0).holdoverOff.updTm
        (fun s => { s with holdStart := none, syncGood := 0 })
      d.houseStep d.tm.offset

/-! REF_IN. -/

/-- A measured period, in ns, lies within 100 ppm of the configured one (R243). -/
def refPeriodOk (d : Dev) (per : Nat) : Bool :=
  let n := d.act F.TIME_REF_RATE_NUM
  let c := d.act F.TIME_REF_RATE_DEN * 1000000000
  n ≠ 0 && (max (per * n) c - min (per * n) c) * 10000 ≤ c

/-- The frame pulse phase is tracked: the nearest expected pulse, and the displacement from it (R248). -/
def refDisplaced (d : Dev) (t : Nat) : Int :=
  let n := d.act F.TIME_REF_RATE_NUM
  let per : Nat := if n = 0 then 0 else d.act F.TIME_REF_RATE_DEN * 1000000000 / n
  if per = 0 then 0
  else
    let x : Int := (t : Int) - d.tm.refTrack
    x - (x + per / 2) / per * per

/-- REF_IN_PULSE (R242, R243, R248, R250). -/
def refPulse (d : Dev) (t : Nat) (tri : Bool) : Dev :=
  if !d.actFlag F.TIME_REF_IN_CTL_EN then d
  else
    let per := match d.tm.refLast with
      | some l => t - l
      | none => 0
    let typ := d.act F.TIME_REF_IN_CTL_TYPE
    let wrongType := typ ≠ 0 ∧ typ ≠ (if tri then 2 else 1)
    let d := (d.put64 F.TIME_REF_EDGE_LO t).put F.TIME_REF_STS_TYPE_DET (if tri then 2 else 1)
    let first := d.tm.refLast.isNone
    let d := d.updTm (fun s => { s with refLast := some t })
    let mismatch (d : Dev) : Dev := if d.flag F.TIME_REF_STS_MISMATCH then d
      else (((d.put F.TIME_REF_STS_MISMATCH 1).put F.TIME_REF_STS_PRESENT 0).count F.TIME_REF_MISMATCHES).irq .time 0 1 2
    let d := if wrongType then mismatch d else d
    if first then d.updTm (fun s => { s with refTrack := t })
    else
      let d := d.put F.TIME_REF_PERIOD (min (per * 16) (2 ^ 32 - 1))
      let ok := d.refPeriodOk per && !wrongType
      let d := d.updTm (fun s =>
        { s with refGood := if ok then min 16 (s.refGood + 1) else 0, refBad := if ok then 0 else min 2 (s.refBad + 1) })
      let d := if d.tm.refBad ≥ 2 then mismatch d else d
      let d := if d.tm.refGood ≥ 16 then
          let los := d.flag F.TIME_REF_STS_LOS
          let mis := d.flag F.TIME_REF_STS_MISMATCH
          let d := if !d.flag F.TIME_REF_STS_PRESENT then d.updTm (fun s => { s with refTrack := t }) else d
          let d := ((d.put F.TIME_REF_STS_LOS 0).put F.TIME_REF_STS_MISMATCH 0).put F.TIME_REF_STS_PRESENT 1
          let d := if los then d.irq .time 0 1 1 else d
          if mis then d.irq .time 0 1 3 else d
        else d
      if !d.flag F.TIME_REF_STS_PRESENT then d
      else
        let x := d.refDisplaced t
        if -1000 ≤ x ∧ x ≤ 1000 then
          let d := if d.tm.refHold.isSome then
              (((d.put F.TIME_REF_STS_HOLDOFF 0).updTm (fun s => { s with refHold := none })).count
                F.TIME_GLITCH_COUNT).irq .time 0 0 4
            else d
          d.updTm (fun s => { s with refTrack := t })
        else if d.tm.refHold.isSome then d.updTm (fun s => { s with refShift := x })
        else
          ((d.put F.TIME_REF_STS_HOLDOFF 1).updTm
            (fun s => { s with refHold := some t, refShift := x })).irq .time 0 0 2

/-- R248 at the REF_IN level: the displacement is accepted. -/
def refHoldoffEnd (d : Dev) : Dev :=
  match d.tm.refHold with
  | none => d
  | some s =>
    if d.house < s + d.act F.TIME_HOLDOFF_HOLDOFF_MS * 1000000 then d
    else
      let x := d.tm.refShift
      let d := (d.put F.TIME_REF_STS_HOLDOFF 0).updTm
        (fun s => { s with refHold := none, refTrack := s.refLast.getD s.refTrack })
      let d := (d.put64 F.TIME_STEP_LAST_LO (unsgn 64 x)).count F.TIME_STEP_COUNT
      (d.irq .time 0 0 3).headsStepped 2

/-- REF_IN_LOSS (R243). -/
def refLoss (d : Dev) : Dev :=
  let d := d.updTm (fun s => { s with refGood := 0, refBad := 0, refLast := none })
  let d := (d.put F.TIME_REF_STS_PRESENT 0).put F.TIME_REF_STS_TYPE_DET 0
  if d.flag F.TIME_REF_STS_LOS then d else (d.put F.TIME_REF_STS_LOS 1).irq .time 0 1 0

/-! PPS and 10 MHz. -/

/-- XO156 is measured. -/
def xoMeasured (d : Dev) (xo : Int) : Dev := (d.put F.TIME_XO_PPB (sat32 xo)).put F.TIME_STS_XO_OK 1

/-- PPS_EDGE (R243, R262). -/
def ppsPulse (d : Dev) (t : Nat) (xo : Int) : Dev :=
  let good := match d.tm.ppsLast with
    | some l => decide (t + 1000 ≥ l + 1000000000 ∧ t ≤ l + 1000001000)
    | none => false
  let d := d.updTm (fun s => { s with ppsLast := some t })
  let d := if good then d.put F.TIME_REF_STS_PPS_PRESENT 1 else d
  if d.houseRef ≠ 2 then d
  else
    let d := d.xoMeasured xo
    match d.tm.setPending with
    | some sec =>
      let d := d.updTm (fun s => { s with setPending := none, acquire := false })
      d.houseStep ((sec * 1000000000 : Nat) - (d.house : Int))
    | none =>
      if !d.flag F.TIME_REF_STS_PPS_PRESENT then d
      else
        let r := d.house % 1000000000
        d.measure (if r ≥ 500000000 then (1000000000 - r : Nat) else -(r : Int))

/-- PPS_LOSS (R243). -/
def ppsLost (d : Dev) : Dev :=
  let was := d.flag F.TIME_REF_STS_PPS_PRESENT
  let d := (d.put F.TIME_REF_STS_PPS_PRESENT 0).updTm (fun s => { s with ppsLast := none })
  let d := if was then d.irq .time 0 1 4 else d
  if d.houseRef = 2 then d.houseLost else d

/-- CLK10M_LOSS (R243). -/
def clkLost (d : Dev) : Dev :=
  let was := d.flag F.TIME_REF_STS_CLK10M_PRESENT
  let d := d.put F.TIME_REF_STS_CLK10M_PRESENT 0
  let d := if was then d.irq .time 0 1 5 else d
  if d.houseRef = 2 then d.houseLost else d

/-- CLK10M_RETURN (R243). -/
def clkBack (d : Dev) (xo : Int) : Dev := (d.put F.TIME_REF_STS_CLK10M_PRESENT 1).xoMeasured xo

/-! PTP (R354, R355). -/

/-- A change of interface or of grandmaster (R355). -/
def ptpChange (d : Dev) : Dev := (d.ptpReset.count F.TIME_MASTER_CHANGES).houseLost

/-- R355: PTP_NETIF has been up and has received qualified Announces for 10 s, none missed for ANNOUNCE_TIMEOUT intervals. -/
def ptpHome (d : Dev) : Bool :=
  d.netUp (d.act F.TIME_PTP_CFG_PTP_NETIF) && (match d.tm.home with
    | some (first, latest) => decide (first + 10000000000 ≤ d.house) && decide (d.house ≤ latest + d.annTimeout)
    | none => false)

/-- PTP_BACKUP_RETURN (R355). -/
def ptpReturn (d : Dev) : Dev :=
  if d.ptpOn && d.flag F.TIME_PTP_STS_ON_BACKUP && d.ptpHome then
    ((d.put F.TIME_PTP_STS_ON_BACKUP 0).updTm (fun s => { s with home := none })).ptpChange
  else d

/-! The best master clock algorithm (R354): the data sets are compared, and an Announce is qualified, as IEEE 1588-2019 has it
(PRESUMED, log entry 256). -/

/-- Clock `a` is better than `b`. -/
def clockBetter (a b : PtpClock) : Bool :=
  if a.gm = b.gm then a.steps < b.steps
  else
    let key (c : PtpClock) : List Nat := [c.priority1, c.clockClass, c.accuracy, c.variance, c.priority2, c.gm.toNat]
    ((key a).zip (key b)).foldr (fun q r => if q.1 = q.2 then r else decide (q.1 < q.2)) false

/-- The clock this device announces (R354): class 7 in holdover after lock, else 248; priority2 is 128. -/
def ownClock (d : Dev) : PtpClock :=
  { priority1 := d.act F.TIME_PTP_CFG_PRIORITY1, clockClass := if d.tm.everLocked then 7 else 248
    accuracy := Config.ptpAccuracy, variance := Config.ptpVariance, priority2 := 128, gm := Config.ptpIdentity, steps := 0 }

/-- Announces of a master are qualified: the last two came within four intervals, and neither a loop nor age rules them out. -/
def qualified (d : Dev) (m : Foreign) : Bool :=
  m.clock.steps < 255 && m.clock.gm ≠ Config.ptpIdentity && (match m.before with
    | some b => decide (m.latest ≤ b + 4 * d.annInterval)
    | none => false)
    && decide (d.house ≤ m.latest + d.annTimeout)

/-- An Announce is heard: its master is kept with its last two Announces. -/
def hearMaster (d : Dev) (i : Nat) (sender : BitVec 80) (c : PtpClock) : Dev :=
  d.updTm (fun s =>
    let was := s.masters.find? (fun m => m.netif = i && m.sender = sender)
    { s with masters := { netif := i, sender := sender, clock := c, latest := d.house, before := was.map (·.latest) }
        :: s.masters.filter (fun m => !(m.netif = i && m.sender = sender)) })

/-- The best qualified master heard on an interface. -/
def bestMaster (d : Dev) (i : Nat) : Option Foreign :=
  (d.tm.masters.filter (fun m => m.netif = i && d.qualified m)).foldl (fun best m =>
    match best with
    | none => some m
    | some b => if clockBetter m.clock b.clock then some m else best) none

/-- The port follows a grandmaster. -/
def follow (d : Dev) (gm : Nat) : Dev :=
  let old := d.get64 F.TIME_PTP_GM_LO
  let d := d.put64 F.TIME_PTP_GM_LO gm
  if old = gm then (if d.get F.TIME_PTP_STS_PORT_STATE = 6 then d.put F.TIME_PTP_STS_PORT_STATE 8 else d)
  else if old = 0 then d.ptpReset
  else d.ptpChange

/-- R354: the state decision after a qualified Announce: the best master is followed, unless this clock may be grandmaster and
is better. -/
def decideMaster (d : Dev) : Dev :=
  match d.bestMaster d.ptpIface with
  | none => d
  | some m =>
    let d := if d.actFlag F.TIME_PTP_CFG_SLAVE_ONLY || !clockBetter d.ownClock m.clock then d.follow m.clock.gm.toNat
      else if d.get F.TIME_PTP_STS_PORT_STATE = 6 then d
      else (d.follow Config.ptpIdentity.toNat).put F.TIME_PTP_STS_PORT_STATE 6
    d.updTm (fun s => { s with announced := d.house })

/-- On the backup, qualified Announces on PTP_NETIF are timed (R355). -/
def hearHome (d : Dev) : Dev :=
  if (d.bestMaster (d.act F.TIME_PTP_CFG_PTP_NETIF)).isNone then d
  else
    d.updTm (fun s => { s with home := match s.home with
      | some (first, latest) => some (if d.house ≤ latest + d.annTimeout then first else d.house, d.house)
      | none => some (d.house, d.house) })

/-- An Announce received (R354, R355). -/
def announceIn (d : Dev) (i : Nat) (sender : BitVec 80) (c : PtpClock) : Dev :=
  let d := d.hearMaster i sender c
  if i = d.ptpIface then d.decideMaster else d.hearHome

/-- The PTP port sends a message on its interface. -/
def ptpGo (d : Dev) (m : PtpSend) : Dev :=
  (d.count F.NPORT_TX_FRAMES (d.ptpIface / 4) (d.ptpIface % 4)).emit (.ptp d.ptpIface m d.house)

/-- The servo's offset at a Sync: origin and correction, and its arrival. -/
def ptpOffset (d : Dev) (origin : Int) (at_ : Nat) (xo : Int) : Dev :=
  let d := (d.xoMeasured xo).updTm (fun s => { s with lastSync := some (origin, at_) })
  let d := if d.get F.TIME_PTP_STS_PORT_STATE = 9 then d else d.put F.TIME_PTP_STS_PORT_STATE 8
  d.measure (origin + d.get F.TIME_PTP_PATH - at_)

/-- A mean path delay is measured. -/
def ptpPath (d : Dev) (twice : Int) : Dev := d.put F.TIME_PTP_PATH (min (twice / 2).toNat (2 ^ 32 - 1))

/-- PTP_MESSAGE_RX (R354, R355): received by the port on its interface, in its domain. -/
def ptpRx (d : Dev) (t i dom : Nat) (m : PtpMsg) : Dev :=
  if !d.netUp i then d
  else
    let d := d.netLoops i (.ptp (BitVec.ofNat 8 dom) m)
    let d := d.count F.NPORT_RX_FRAMES (i / 4) (i % 4)
    if !d.ptpOn || dom ≠ d.act F.TIME_PTP_CFG_DOMAIN then d
    else if i ≠ d.ptpIface then
      (match m with
      | .announce p c => if d.flag F.TIME_PTP_STS_ON_BACKUP && i = d.act F.TIME_PTP_CFG_PTP_NETIF then d.announceIn i p c else d
      | _ => d)
    else match m with
    | .announce p c => d.announceIn i p c
    | .delayReq =>
      if d.get F.TIME_PTP_STS_PORT_STATE = 6 && !d.actFlag F.TIME_PTP_CFG_DELAY_MECH then d.ptpGo (.delayResp t) else d
    | .pdelayReq => if d.actFlag F.TIME_PTP_CFG_DELAY_MECH then d.ptpGo (.pdelayResp t) else d
    | .sync seq origin corr xo two =>
      if d.get F.TIME_PTP_STS_PORT_STATE = 6 then d
      else if two then d.updTm (fun s => { s with twoStep := some (seq.toNat, t, corr) })
      else d.ptpOffset (origin + corr) t xo
    | .followUp seq origin corr xo =>
      match d.tm.twoStep with
      | some (q, at_, c) =>
        if q = seq.toNat then (d.updTm (fun s => { s with twoStep := none })).ptpOffset (origin + c + corr) at_ xo else d
      | none => d
    | .delayResp rx corr =>
      match d.tm.lastSync, d.tm.request with
      | some (o, at_), some t3 =>
        if d.actFlag F.TIME_PTP_CFG_DELAY_MECH then d
        else (d.updTm (fun s => { s with request := none })).ptpPath ((at_ - o) + (rx - corr - t3))
      | _, _ => d
    | .pdelayResp rx tx corr =>
      match d.tm.request with
      | some t1 =>
        if d.actFlag F.TIME_PTP_CFG_DELAY_MECH then
          (d.updTm (fun s => { s with request := none })).ptpPath (((t : Int) - t1) - ((tx : Int) - rx) - corr)
        else d
      | none => d

/-- PTP_MESSAGE_SEND (R354): Announce and Sync of a grandmaster, delay requests of a slave. -/
def ptpSend (d : Dev) (due : PtpDue) : Dev :=
  let i := d.ptpIface
  if !d.ptpOn || !d.netUp i then d
  else
    let st := d.get F.TIME_PTP_STS_PORT_STATE
    let go (d : Dev) (m : PtpSend) : Dev := d.ptpGo m
    match due with
    | .announce =>
      if st = 6 && !d.actFlag F.TIME_PTP_CFG_SLAVE_ONLY then
        go d (.announce (if d.tm.everLocked then 7 else 248) (d.act F.TIME_PTP_CFG_PRIORITY1) (d.act F.TIME_PTP_CFG_DOMAIN))
      else d
    | .sync => if st = 6 && !d.actFlag F.TIME_PTP_CFG_SLAVE_ONLY then go d .sync else d
    | .delayRequest =>
      let d := d.updTm (fun s => { s with request := some d.house })
      if d.actFlag F.TIME_PTP_CFG_DELAY_MECH then go d .pdelayReq
      else if st = 6 then d else go d .delayReq

/-- R262, R355: what an applied hand with SET_EN does, and a change of the house reference or of the PTP port's interface. -/
def timeApplied (old d : Dev) : Dev :=
  let d := if old.houseRef ≠ d.houseRef then
      let d := if old.flag F.TIME_STS_LOCKED then d.houseLost else d
      ((d.put F.TIME_PTP_STS_SERVO_LOCK 0).put F.TIME_PTP_STS_ON_BACKUP 0).updTm
        (fun s => { s with
          acquire := true, syncGood := 0, twoStep := none, lastSync := none, request := none
          masters := [], announced := d.house, home := none })
    else if d.ptpOn && old.ptpIface ≠ d.ptpIface then d.ptpChange
    else d
  let d := if d.actFlag F.TIME_REF_IN_CTL_EN then d
    else (d.put F.TIME_REF_STS_PRESENT 0).updTm (fun s => { s with refLast := none, refGood := 0, refBad := 0 })
  if !d.actFlag F.TIME_SET_CTL_SET_EN then d
  else
    let sec := d.act64 F.TIME_SET_SEC_LO
    if d.houseRef = 0 then d.houseStep ((sec * 1000000000 : Nat) - (d.house : Int))
    else if d.houseRef = 2 then d.updTm (fun s => { s with setPending := some sec })
    else d

end Dev

/-- REF_IN_PULSE (R242, R243, R248, R250). -/
def execRefInPulse (t : Nat) (tri : Bool) (s : State) := s.onDev (fun d => (d.atTime t).refPulse t tri)
/-- REF_IN_LOSS (R243). -/
def execRefInLoss (t : Nat) (s : State) := s.onDev (fun d => (d.atTime t).refLoss)
/-- PPS_EDGE (R243, R248, R262). -/
def execPpsEdge (t : Nat) (xo : Int) (s : State) := s.onDev (fun d => (d.atTime t).ppsPulse t xo)
/-- PPS_LOSS (R243). -/
def execPpsLoss (t : Nat) (s : State) := s.onDev (fun d => (d.atTime t).ppsLost)
/-- CLK10M_LOSS (R243). -/
def execClk10mLoss (t : Nat) (s : State) := s.onDev (fun d => (d.atTime t).clkLost)
/-- CLK10M_RETURN (R243). -/
def execClk10mReturn (t : Nat) (xo : Int) (s : State) := s.onDev (fun d => (d.atTime t).clkBack xo)
/-- PTP_MESSAGE_RX (R354, R355). -/
def execPtpMessageRx (t : Nat) (netif : Fin 16) (dom : Byte) (m : PtpMsg) (s : State) :=
  s.onDev (fun d => (d.atTime t).ptpRx t netif dom.toNat m)
/-- PTP_MESSAGE_SEND (R354). -/
def execPtpMessageSend (t : Nat) (due : PtpDue) (s : State) := s.onDev (fun d => (d.atTime t).ptpSend due)
/-- HOLDOFF_EXPIRE (R248, R249). -/
def execHoldoffExpire (t : Nat) (refIn : Bool) (s : State) :=
  s.onDev (fun d => if refIn then (d.atTime t).refHoldoffEnd else (d.atTime t).holdoffEnd)
/-- PTP_ANNOUNCE_TIMEOUT (R355). -/
def execPtpAnnounceTimeout (t : Nat) (s : State) :=
  s.onDev (fun d => let d := d.atTime t; if d.annOver then d.ptpLose else d)
/-- PTP_BACKUP_RETURN (R355). -/
def execPtpBackupReturn (t : Nat) (s : State) := s.onDev (fun d => (d.atTime t).ptpReturn)
/-- TIME_CNT_CLEAR (R262, R377). -/
def execTimeCntClear (t : Nat) (s : State) :=
  s.onDev (fun d => (d.atTime t).gate ⟨.time, 0, 0⟩ 0x6C
    (·.clear [F.TIME_STEP_COUNT, F.TIME_GLITCH_COUNT, F.TIME_MASTER_CHANGES]))
/-- REF_CNT_CLEAR (R263). -/
def execRefCntClear (s : State) :=
  s.onDev (fun d => d.gate ⟨.time, 0, 1⟩ 0x54 (·.clear [F.TIME_REF_MISMATCHES]))

end Sys2Proof.Machine
end

