-- ==== Sys2Proof/Machine/AudioCore.lean ====
section
/-! DEFINITION. The audio island (R322 to R349): words and slots, the receive streams and their FIFOs, the delay
targets, and what a hand changes. -/
namespace Sys2Proof.Machine

/-! Words (R323). -/

def wordOf (sample : Nat) (v u c b fill : Bool) : Nat :=
  sample % 2 ^ 24 + (if v then 2 ^ 24 else 0) + (if u then 2 ^ 25 else 0) + (if c then 2 ^ 26 else 0)
    + (if fill then 2 ^ 27 else 0) + (if b then 2 ^ 28 else 0)
def wFill (w : Nat) : Bool := bitsOf w 27 1 = 1
def wV (w : Nat) : Bool := bitsOf w 24 1 = 1
/-- The word marked as filled. -/
def setFill (w : Nat) : Nat := putBits w 27 1 1
/-- A zero word made by Garong. -/
def mutedWord : Nat := 2 ^ 27
/-- A zero word with V set (R333, R335). -/
def invalidWord : Nat := 2 ^ 24

/-- The sample instant in force at a house time: the last k with k × 10^9 / 48,000 ≤ t (R322). -/
def instantAt (t : Nat) : Nat := ((t + 1) * 48 + 999999) / 1000000 - 1

/-- The house time of a sample instant (R322). -/
def instantTime (k : Nat) : Nat := k * 1000000000 / 48000

/-- A frame start at house time `t` joins the starts of its second; those of the second before are kept for the measurement
of R331. -/
def Starts.add (now prev : Starts) (t : Nat) : Starts × Starts :=
  if now.count ≠ 0 ∧ now.sec = t / 1000000000 then ({ now with latest := t, count := now.count + 1 }, prev)
  else ({ sec := t / 1000000000, first := t, latest := t, count := 1 }, now)

/-- A word as it is received: within the fields of R323, and not made by Garong. -/
def recvWord (w : Nat) : Nat := putBits (w % 2 ^ 29) 27 1 0

/-- The rate factor of a RATE code (R324). -/
def rateFactor (code : Nat) : Nat := 2 ^ code

/-- The media index an RTP timestamp stands for at an arrival, at a media rate in Hz: the latest one whose time
is not after the arrival (R336, and the mapping after R10). -/
def mediaIndex (rtp t rate : Nat) : Nat :=
  let top := ((t + 1) * rate - 1) / 1000000000
  if rtp ≤ top then (top - rtp) / 2 ^ 32 * 2 ^ 32 + rtp else rtp

namespace Dev

def rx (d : Dev) (i : Nat) : RxStream := sget (fun _ => {}) d.audio.rx i
def setRx (d : Dev) (i : Nat) (x : RxStream) : Dev :=
  { d with audio := { d.audio with rx := sset (fun _ => {}) d.audio.rx i x } }

/-- The AUDIO block works: enabled and not fenced (R349). -/
def audioRuns (d : Dev) : Bool := d.enabled .audio 0

def rxGroup (d : Dev) (i : Nat) : Nat := d.act F.AUDIO_RXS_CFG_GROUP 0 i
def groupFenced (d : Dev) (g : Nat) : Bool :=
  d.bitsAt ((if g < 32 then F.AUDIO_GROUP_FENCED_LO else F.AUDIO_GROUP_FENCED_HI).addr 0 0 0) (g % 32) 1 = 1
def setGroupFenced (d : Dev) (g v : Nat) : Dev :=
  d.putAt ((if g < 32 then F.AUDIO_GROUP_FENCED_LO else F.AUDIO_GROUP_FENCED_HI).addr 0 0 0) (g % 32) 1 v

/-- A stream is a member of an enabled group (R338). -/
def rxOn (d : Dev) (i : Nat) : Bool :=
  d.actFlag F.AUDIO_RXS_CFG_EN 0 i && d.act F.AUDIO_GROUP_CFG_EN 0 (d.rxGroup i) = 1

/-- Members of enabled groups, and every stream that the applied hand enables (R328, R338). -/
def rxStreams (d : Dev) : List Nat := (List.range 128).filter d.rxOn
def rxNamed (d : Dev) : List Nat := (List.range 128).filter (fun i => d.actFlag F.AUDIO_RXS_CFG_EN 0 i)

def rxFactor (d : Dev) (i : Nat) : Nat := rateFactor (d.act F.AUDIO_RXS_CFG_RATE 0 i)
def rxTarget (d : Dev) (i : Nat) : Nat := d.act F.AUDIO_GROUP_CFG_TARGET 0 (d.rxGroup i)

/-- Channels a stream keeps, in order (R326). -/
def rxKept (d : Dev) (i : Nat) : List Nat :=
  let m := d.act F.AUDIO_RXS_MASK_LO 0 i + 2 ^ 32 * d.act F.AUDIO_RXS_MASK_HI 0 i
  (List.range (if i < 16 then 2 else 64)).filter (fun c => bitsOf m c 1 = 1)

/-- The context a stream is bound to (R325), and whether its frames are timed (R338). -/
def rxCtx (d : Dev) (i : Nat) : Option Nat := if i < 16 then none else some (d.act F.AUDIO_RXS_CFG_CONTEXT 0 i)
def rxTimed (d : Dev) (i : Nat) : Bool :=
  (d.rxCtx i).elim false (fun n => d.ctxKind n = 7 || d.ctxKind n = 8)
/-- Legacy TDM mode, of a stream of an AES3 input or an SDI context (R344). -/
def rxLegacy (d : Dev) (i : Nat) : Bool :=
  d.actFlag F.AUDIO_RXS_CFG_LEGACY_TDM 0 i && (d.rxCtx i).elim true (fun n => d.ctxKind n = 4 || d.ctxKind n = 5)

/-- FIFO depth in frames, or in samples in legacy mode (R338, R344), and the fill at which reading starts. -/
def rxStart (d : Dev) (i : Nat) : Nat :=
  d.rxTarget i * d.rxFactor i * (if d.rxLegacy i then (d.rxKept i).length else 1)
def rxDepth (d : Dev) (i : Nat) : Nat := 2 * d.rxStart i

/-- Media index of the first frame a timed member reads at sample instant `k` (R338). -/
def rxIndex (d : Dev) (i k : Nat) : Nat := (k - d.rxTarget i) * d.rxFactor i

/-- An event of a stream: its bit of RXS_EVENT and of page 4 IRQ_RAW (R348, R349). -/
def rxEvent (d : Dev) (i bit : Nat) : Dev :=
  (d.putAt (F.AUDIO_RXS_EVENT.addr 0 (i / 32) 0) (i % 32) 1 1).irq .audio 0 4 bit

/-- A frame start is timed for the rate measurement (R331). -/
def rxStartSeen (d : Dev) (i t : Nat) : Dev :=
  let x := d.rx i
  let p := x.now.add x.prev t
  d.setRx i { x with now := p.1, prev := p.2 }

/-- R340: an overrun: the arriving frame is discarded; at the edge of an underrun it is not counted, whichever of the two is
handled first (R342). -/
def rxOverrun (d : Dev) (i : Nat) : Dev :=
  let x := d.rx i
  let same := x.underAt = some d.house
  let here := match x.overAt with
    | some (t, n) => if t = d.house then n else 0
    | none => 0
  let d := d.setRx i { x with
    dropped := x.dropped + 1, lapped := if same then x.lapped else x.lapped + 1, realign := true
    overAt := if same then x.overAt else some (d.house, here + 1) }
  if same then d else d.rxEvent i 1

/-- A frame is written to the FIFO of a stream (R338, R340, R343). `ws` are the words of all its channels; in legacy mode the
kept ones among those that arrive are written one by one (R344). -/
def rxWrite (d : Dev) (i t : Nat) (idx : Option Nat) (ws : List Nat) : Dev :=
  if !d.rxOn i || !d.audioRuns then d
  else
    let d := d.rxStartSeen i t
    let kept := (d.rxKept i).map (fun c => ws.getD c 0)
    if d.rxLegacy i then
      ((d.rxKept i).zipIdx.filter (fun q => q.1 < ws.length)).foldl (fun d q =>
        if (d.rx i).fifo.length ≥ d.rxDepth i then d.rxOverrun i
        else
          let x := d.rx i
          d.setRx i { x with fifo := x.fifo ++ [(q.2, [ws.getD q.1 0])], written := (x.written + 1) % 2 ^ 32 }) d
    else match idx with
      | none =>
        if (d.rx i).fifo.length ≥ d.rxDepth i then d.rxOverrun i
        else
          let x := d.rx i
          d.setRx i { x with fifo := x.fifo ++ [(0, kept)], written := (x.written + 1) % 2 ^ 32 }
      | some n =>
        let now := d.rxIndex i (instantAt t)
        if n < now ∨ (d.rx i).fifo.any (fun p => p.1 = n) then d
        else if n > now + d.rxDepth i ∨ (d.rx i).fifo.length ≥ d.rxDepth i then d.rxOverrun i
        else
          let x := d.rx i
          d.setRx i { x with fifo := sins x.fifo n kept, written := (x.written + 1) % 2 ^ 32 }

/-- The streams bound to a context. -/
def ctxStreams (d : Dev) (n : Nat) : List Nat :=
  d.rxStreams.filter (fun i => d.rxCtx i = some n)

/-- A status bit of a stream follows a condition, with its event when it is set (R334). -/
def rxStatus (d : Dev) (i : Nat) (f : Fld) (bit : Nat) (v : Bool) : Dev :=
  let was := d.flag f 0 i
  let d := d.putB f v 0 i
  if v && !was then d.rxEvent i bit else d

/-- R336: the frames of an ST 2110-30 or -31 packet enter the streams bound to its context, at 48 or 96 kHz; -30 carries
samples of 24 bits, -31 the AES3 bits too. -/
def audioPacket (d : Dev) (n t rtp : Nat) (ws : List (List Nat)) : Dev :=
  let word (w : Nat) : Nat := if d.ctxKind n = 7 then w % 2 ^ 24 else recvWord w
  (d.ctxStreams n).foldl (fun d i =>
    let d := d.put F.AUDIO_RXS_STS_CHANNELS_IN (min 255 ((ws.head?.getD []).length)) 0 i
    let base := mediaIndex rtp t (48000 * d.rxFactor i)
    if d.rxFactor i = 4 then d
    else (List.range ws.length).foldl (fun d j => d.rxWrite i t (some (base + j)) ((ws.getD j []).map word)) d) (if (d.ctxStreams n).isEmpty then d else d.chanPasses 16 30 ws.length)

/-- Audio that a kind of context may carry (R334): its channel count and rate, and on SDI, which carries 16 channels on 1.5G
(`narrow`) and 32 above, that it is synchronous. -/
def embedAllowed (kind : Nat) (narrow : Bool) (a : EmbeddedAudio) : Bool :=
  if 1 ≤ kind && kind ≤ 3 then
    (a.channels = 2 || a.channels = 8) && (a.rate = 48000 || a.rate = 96000 || a.rate = 192000)
  else a.rate = 48000 && !a.asynchronous && a.channels ≤ (if narrow then 16 else 32)

/-- R334: embedded audio enters the streams bound to its context; audio outside the table, or at another rate
than the stream's, sets its status bit and is not written. -/
def audioEmbedded (d : Dev) (n t : Nat) (a : Option EmbeddedAudio) : Dev :=
  match a with
  | none => d
  | some a =>
    let st := d.ctxState n
    if st = stLost ∨ st = stProtected ∨ st = stUnsupported then d
    else
      (d.ctxStreams n).foldl (fun d i =>
        let d := d.put F.AUDIO_RXS_STS_CHANNELS_IN (min 255 a.channels) 0 i
        let narrow := d.ctxKind n = 4 && d.get F.MLANE_RX_RATE_STS_RATE (d.act F.INGEST_LINK_FIRST_LANE n) < 2000000
        let badRate := a.rate ≠ 48000 * d.rxFactor i || (a.pcm && !embedAllowed (d.ctxKind n) narrow a)
        let d := (d.rxStatus i F.AUDIO_RXS_STS_RATE_MISMATCH 3 badRate).rxStatus i F.AUDIO_RXS_STS_NONPCM 4 (!a.pcm)
        if badRate || !a.pcm then d
        else a.frames.foldl (fun d f => d.rxWrite i t none (f.map (fun w => recvWord w.toNat))) d)
        (if (d.ctxStreams n).isEmpty then d else d.chanPasses 16 30 a.frames.length)

/-! Reading (R338, R339, R344). -/

end Dev

/-- What a member that reads nothing hands over: a repeat of its last frame up to the limit, then zeros, all
marked FILL; a restarted member hands zeros (R339, R342). -/
def RxStream.conceal (x : RxStream) (n limit : Nat) (legacy : Bool) : List Nat × RxStream :=
  if !x.restarted ∧ x.reps < limit then
    ((List.range n).map (fun c => setFill (if legacy then x.last.getD 0 0 else x.last.getD c 0)),
      { x with reps := x.reps + 1, repeated := x.repeated + 1 })
  else (List.replicate n mutedWord, { x with reps := x.reps + 1, muted := x.muted + 1 })

/-- An underrun at house time `t` is counted, and overruns counted at the same edge are not (R339, R342). -/
def RxStream.underrun (x : RxStream) (t : Nat) : RxStream :=
  let same := match x.overAt with
    | some (u, n) => if u = t then n else 0
    | none => 0
  { x with stopped := true, realign := true, under := x.under + 1, underAt := some t, lapped := x.lapped - same, overAt := none }

/-- One frame is read, or concealed (R338, R339). `idx`: the media index a timed member reads; the answer says
whether this read was an underrun. -/
def RxStream.readFrame (x : RxStream) (n limit t : Nat) (idx : Option Nat) : List Nat × Bool × RxStream :=
  let miss (x : RxStream) : List Nat × Bool × RxStream :=
    let x := { x.underrun t with restarted := false, reps := 0 }
    let r := x.conceal n limit false
    (r.1, true, r.2)
  if x.stopped then
    let r := x.conceal n limit false
    (r.1, false, r.2)
  else match idx with
    | none =>
      match x.fifo with
      | p :: rest => (p.2, false, { x with fifo := rest, read := (x.read + 1) % 2 ^ 32, last := p.2, reps := 0 })
      | [] => miss x
    | some k =>
      match x.fifo.find? (fun p => p.1 = k) with
      | some p =>
        let rest := x.fifo.filter (fun q => q.1 > k)
        (p.2, false, { x with fifo := rest, read := (x.read + (x.fifo.length - rest.length)) % 2 ^ 32, last := p.2, reps := 0 })
      | none => miss x

/-- A read in legacy mode (R344): the next `n` samples in arrival order; where they run out the last sample is
repeated, or muted where nothing may be repeated (R339). -/
def RxStream.readLegacy (x : RxStream) (n limit t : Nat) : List Nat × Bool × RxStream :=
  if x.stopped then
    let r := x.conceal n limit true
    (r.1, false, r.2)
  else
    let got := (x.fifo.take n).flatMap (·.2)
    let x := { x with fifo := x.fifo.drop n, read := (x.read + got.length) % 2 ^ 32, last := [got.getLast?.getD (x.last.getD 0 0)] }
    let x := match x.fifo with
      | p :: _ => { x with rot := p.1 }
      | [] => x
    if got.length = n then (got, false, { x with reps := 0 })
    else
      let r := { x.underrun t with restarted := false, reps := 0 }.conceal (n - got.length) limit true
      (got ++ r.1, true, r.2)

/-- R341: a member realigns at a block boundary when it is ready. `start`: the fill an untimed member needs;
`idx`: the media index of the boundary's read of a timed one. -/
def RxStream.align (x : RxStream) (start : Nat) (idx : Option Nat) : RxStream :=
  let go (keep : List (Nat × List Nat)) : RxStream :=
    let n := x.fifo.length - keep.length
    { x with fifo := keep, dropped := x.dropped + n, read := (x.read + n) % 2 ^ 32
             realign := false, stopped := false, restarted := false, reps := 0 }
  match idx with
  | none => if x.fifo.length ≥ start then go (x.fifo.drop (x.fifo.length - start)) else x
  | some k => if x.fifo.any (fun p => p.1 = k) then go (x.fifo.filter (fun p => p.1 ≥ k)) else x

/-- R342: a restart empties the FIFO; what it held counts as read. -/
def RxStream.restart (x : RxStream) : RxStream :=
  { x with fifo := [], read := x.written, realign := true, stopped := true, restarted := true, reps := 0, rot := 0 }

namespace Dev

/-- The frames a member hands the router at sample instant `k`: the words of each of its `r` frames. -/
def rxHand (d : Dev) (i k : Nat) : List (List Nat) × Dev :=
  let n := (d.rxKept i).length
  if d.groupFenced (d.rxGroup i) then (List.replicate (d.rxFactor i) (List.replicate n mutedWord), d)
  else
    let limit := d.act F.AUDIO_GROUP_CFG_REPEAT_LIMIT 0 (d.rxGroup i)
    (List.range (d.rxFactor i)).foldl (fun acc q =>
      let d := acc.2
      let x := d.rx i
      let r := if d.rxLegacy i then x.readLegacy n limit d.house
        else x.readFrame n limit d.house (if d.rxTimed i then some (d.rxIndex i k + q) else none)
      let d := d.setRx i r.2.2
      let d := if r.2.1 then d.rxEvent i 0 else d
      let d := if !x.restarted ∧ x.muted < r.2.2.muted ∧ x.reps ≤ limit then d.rxEvent i 2 else d
      (acc.1 ++ [r.1], d)) ([], d)

/-- RXS_STS.STATE of a stream; a member of a fenced group hands zeros (R343). -/
def rxState (d : Dev) (i : Nat) : Nat :=
  let x := d.rx i
  if !d.rxOn i then 0
  else if d.groupFenced (d.rxGroup i) then 4
  else if !x.stopped then 2
  else if x.restarted then 1
  else if x.reps ≤ d.act F.AUDIO_GROUP_CFG_REPEAT_LIMIT 0 (d.rxGroup i) ∧ x.reps ≠ 0 then 3
  else 4

/-- Bytes of audio SRAM the FIFOs need under the active copies (R338, R328). -/
def audioSram (d : Dev) : Nat :=
  d.rxNamed.foldl (fun n i => n + 2 * d.rxTarget i * d.rxFactor i * (d.rxKept i).length * 4) 0

/-! Delay (R345 to R347). -/

/-- The target delay of a head, and whether it was clamped (R346). -/
def delayTarget (d : Dev) (h : Nat) : Nat × Bool :=
  let trim := sgn 16 (d.act F.AUDIO_DELAY_CTL_TRIM 0 h)
  let vs := (sget (fun _ => ({} : HeadSt)) d.heads h).lipV
  let avg : Int := if vs.isEmpty then 0 else (vs.foldl (· + ·) 0).tdiv vs.length
  let raw : Int := if d.act F.AUDIO_DELAY_CTL_AUTO 0 h = 1 then (avg * 48000).tdiv 1000000000 + trim else trim
  let top : Int := d.act F.AUDIO_DELAY_CTL_DMAX_MS 0 h * 48
  ((max 0 (min raw top)).toNat, decide (raw < 0 ∨ raw > top))

/-- The target of a head is recomputed; clamping raises DELAY_LIMIT. -/
def delayUpdate (d : Dev) (h : Nat) : Dev :=
  let r := d.delayTarget h
  let d := d.put F.AUDIO_DELAY_STS_TARGET r.1 0 h
  if r.2 then d.irq .audio 0 0 2 else d

/-- R347 at a block boundary. -/
def delayStep (d : Dev) (h : Nat) : Dev :=
  let target := d.get F.AUDIO_DELAY_STS_TARGET 0 h
  let use := d.get F.AUDIO_DELAY_STS_IN_USE 0 h
  let diff := max target use - min target use
  if d.audio.setting.contains h then
    { d.put F.AUDIO_DELAY_STS_IN_USE target 0 h with
      audio := { d.audio with setting := d.audio.setting.filter (· ≠ h), moving := d.audio.moving.filter (· ≠ h) } }
  else if diff = 0 then { d with audio := { d.audio with moving := d.audio.moving.filter (· ≠ h) } }
  else if d.audio.moving.contains h ∨ diff ≥ d.act F.AUDIO_DELAY_HYST_HYST then
    let d := { d with audio := { d.audio with moving := addOnce d.audio.moving h } }
    (d.put F.AUDIO_DELAY_STS_IN_USE (if use < target then use + 1 else use - 1) 0 h).count F.AUDIO_DELAY_STEPS
  else d

/-- The delay line that a destination's settings give it (R345): enabled, through a line or not, its rate, and its words a
sample; of transmit streams, and of AES3 outputs from 128 on. -/
def lineOf (d : Dev) (key : Nat) : Bool × Nat × Nat :=
  if key < 128 then
    let r := d.act F.AUDIO_TXS_CFG_RATE 0 key
    (d.actFlag F.AUDIO_TXS_CFG_EN 0 key && (d.act F.AUDIO_TXS_CFG_KIND 0 key = 0 || d.actFlag F.AUDIO_TXS_CFG_DELAY_EN 0 key), r,
      (d.act F.AUDIO_TXS_CFG_CHANNELS 0 key + 1) * rateFactor r)
  else
    let r := d.act F.AUDIO_AOUT_CFG_RATE 0 (key - 128)
    (d.actFlag F.AUDIO_AOUT_CFG_EN 0 (key - 128) && d.actFlag F.AUDIO_AOUT_CFG_DELAY_EN 0 (key - 128), r, 2 * rateFactor r)

/-- A line that a hand ends, or whose rate it changes, holds nothing any longer; one that loses slots loses what they held
(R347: positions not yet written read as zero with FILL). -/
def linesApplied (old d : Dev) : Dev :=
  { d with audio := { d.audio with lines := d.audio.lines.map (fun q =>
      let a := lineOf old q.1
      let b := lineOf d q.1
      (q.1, if !b.1 || a.2.1 ≠ b.2.1 then [] else q.2.map (fun x => (x.1, x.2.take b.2.2)))) } }

/-- What an applied hand changes in the audio island (R342, R347): `old` is the device before it. -/
def audioApplied (old d : Dev) : Dev :=
  let changed (i : Nat) : Bool :=
    old.word (F.AUDIO_RXS_CFG_EN.addr 0 i 0 - 0x400) ≠ d.word (F.AUDIO_RXS_CFG_EN.addr 0 i 0 - 0x400)
      || old.word (F.AUDIO_RXS_SLOT_BASE.addr 0 i 0 - 0x400) ≠ d.word (F.AUDIO_RXS_SLOT_BASE.addr 0 i 0 - 0x400)
      || old.word (F.AUDIO_RXS_MASK_LO.addr 0 i 0 - 0x400) ≠ d.word (F.AUDIO_RXS_MASK_LO.addr 0 i 0 - 0x400)
      || old.word (F.AUDIO_RXS_MASK_HI.addr 0 i 0 - 0x400) ≠ d.word (F.AUDIO_RXS_MASK_HI.addr 0 i 0 - 0x400)
  let d := (List.range 128).foldl (fun d i => if changed i then d.setRx i (d.rx i).restart else d) d
  let d := (List.range 64).foldl (fun d h =>
    let d := if d.word (F.AUDIO_DELAY_CTL_AUTO.addr 0 h 0 - 0x400) = old.word (F.AUDIO_DELAY_CTL_AUTO.addr 0 h 0 - 0x400)
      then d else d.delayUpdate h
    if old.act F.AUDIO_DELAY_CTL_DMAX_MS 0 h = d.act F.AUDIO_DELAY_CTL_DMAX_MS 0 h
        ∧ old.act F.AUDIO_DELAY_CTL_AUTO 0 h = d.act F.AUDIO_DELAY_CTL_AUTO 0 h then d
    else { d with audio := { d.audio with setting := addOnce d.audio.setting h } }) d
  (linesApplied old d).put F.AUDIO_SRAM_USED_BYTES (min (2 ^ 24 - 1) d.audioSram)

/-- Where a line lies in the delay memory, in bytes: the lines lie there one after another, each latest position first
(DESIGN CHOICE, log entry 232). -/
def linePlace (d : Dev) (key : Nat) : Nat :=
  (d.audio.lines.filter (fun q => q.1 < key)).foldl (fun n q => n + q.2.length * (q.2.headD (0, [])).2.length * 4) 0

/-- Position `j` of a line of `w` words a sample lies in a slab that is not there, or on a fenced pseudo-channel (R162, R492). -/
def lineGone (d : Dev) (key j w : Nat) : Bool :=
  let at_ := d.linePlace key + j * w * 4
  match (d.map ownAudio).getD (at_ / 0x200000) none with
  | none => true
  | some s =>
    let a := s * 0x200000 + at_ % 0x200000
    d.pcFenced (pcOf a) || d.pcFenced (pcOf (a + (w * 4 - 1)))

/-- R52, R343: an alignment group is fenced by the audit, and released. -/
def groupFence (d : Dev) (g : Nat) : Dev :=
  if d.groupFenced g then d else (d.setGroupFenced g 1).irq .audio 0 0 0
def groupRelease (d : Dev) (g : Nat) : Dev :=
  let d := (d.rxStreams.filter (fun i => d.rxGroup i = g)).foldl
    (fun d i => d.setRx i { d.rx i with realign := true, stopped := true, restarted := true }) d
  (d.setGroupFenced g 0).irq .audio 0 0 1

end Dev
end Sys2Proof.Machine
end

