-- ==== Sys2Proof/Machine/Audio.lean ====
section
/-! DEFINITION. The commands of the audio island: sample instants and block boundaries, AES3 inputs and outputs,
ST 2110 senders, and the clears and restarts of its pages (R329 to R349). -/
namespace Sys2Proof.Machine

/-! Channel status (R330). -/

/-- One bit of the CRCC of AES3 (PRESUMED, AES3: x^8 + x^4 + x^3 + x^2 + 1, start all ones; log entry 15). -/
def crccBit (c : Nat) (b : Bool) : Nat :=
  if (c % 2 = 1) = (b = true) then c / 2 else (c / 2) ^^^ 0xB8
/-- CRCC of the first 184 channel-status bits. -/
def crcc (bits : List Bool) : Nat := (bits.take 184).foldl crccBit 0xFF
/-- Byte `k` of a channel-status block, first bit lowest. -/
def csByte (bits : List Bool) (k : Nat) : Nat :=
  (List.range 8).foldl (fun n b => n + if bits.getD (8 * k + b) false then 2 ^ b else 0) 0
def csWord (bits : List Bool) (k : Nat) : Word :=
  BitVec.ofNat 32 (csByte bits (4 * k) + 256 * csByte bits (4 * k + 1) + 65536 * csByte bits (4 * k + 2)
    + 16777216 * csByte bits (4 * k + 3))
/-- The bits of six channel-status words. -/
def csBits (ws : List Word) : List Bool :=
  ws.flatMap (fun w => (List.range 32).map (fun b => w.toNat / 2 ^ b % 2 = 1))
/-- A block that R330 accepts: consumer format, or a professional block whose byte 23 is its CRCC. -/
def csValid (bits : List Bool) : Bool := !(bits.getD 0 false) || csByte bits 23 = crcc bits

/-- The nominal rates of RATE_CLASS, in mHz, from class 1 on (R329, R348). -/
def nominalRates : List Nat := [32000000, 44100000, 48000000, 88200000, 96000000, 176400000, 192000000]

/-- RATE_CLASS of a measured rate within TOL_PPM of the nearest nominal rate, 0 when outside (R331). -/
def rateClass (mhz tol : Nat) : Nat :=
  let dist (n : Nat) := max mhz n - min mhz n
  let best := (List.range 7).foldl (fun b k =>
    if dist (nominalRates.getD k 0) < dist (nominalRates.getD b 0) then k else b) 0
  if dist (nominalRates.getD best 0) * 1000000 ≤ tol * nominalRates.getD best 0 then best + 1 else 0

namespace Dev

def ain (d : Dev) (i : Nat) : AesIn := sget (fun _ => {}) d.audio.ains i
def setAin (d : Dev) (i : Nat) (x : AesIn) : Dev :=
  { d with audio := { d.audio with ains := sset (fun _ => {}) d.audio.ains i x } }
def aout (d : Dev) (o : Nat) : AesOut := sget (fun _ => {}) d.audio.aouts o
def setAout (d : Dev) (o : Nat) (x : AesOut) : Dev :=
  { d with audio := { d.audio with aouts := sset (fun _ => {}) d.audio.aouts o x } }

/-- R330: a completed channel-status block of input `i`. -/
def csBlock (d : Dev) (i : Nat) (a b : List Bool) : Dev :=
  let d := if csValid a then d else d.count F.AUDIO_CRCC_ERR 0 i
  let d := if csValid b then d else d.count F.AUDIO_CRCC_ERR 0 i
  let d :=
    if csValid a then
      let old := (List.range 6).map (fun k => d.get F.AUDIO_AIN_CS 0 k i)
      let new := (List.range 6).map (fun k => (csWord a k).toNat)
      let d := (List.range 6).foldl (fun d k => d.put F.AUDIO_AIN_CS (new.getD k 0) 0 k i) d
      let d := (d.putB F.AUDIO_AIN_STS_PRO (a.getD 0 false) 0 i).putB F.AUDIO_AIN_STS_NONPCM (a.getD 1 false) 0 i
      if old = new then d else d.irq .audio 0 1 17
    else d
  if csValid b then
    d.putB F.AUDIO_AIN_STS_CS_DIFF ((List.range 6).any (fun k => d.get F.AUDIO_AIN_CS 0 k i ≠ (csWord b k).toNat)) 0 i
  else d

/-- The output an input in direct mode drives (R332). -/
def directOut (d : Dev) (i : Nat) : Option Nat :=
  if d.actFlag F.AUDIO_AIN_CFG_EN 0 i && d.actFlag F.AUDIO_AIN_CFG_DIRECT 0 i then
    some (d.act F.AUDIO_AIN_CFG_DIRECT_OUT 0 i) else none
/-- The input that drives an output directly. -/
def directIn (d : Dev) (o : Nat) : Option Nat := (List.range 16).find? (fun i => d.directOut i = some o)

/-- AES3_FRAME_RX (R326, R329, R330, R332). -/
def aesFrame (d : Dev) (i t : Nat) (f : AesFrame) : Dev :=
  if !d.audioRuns || !d.actFlag F.AUDIO_AIN_CFG_EN 0 i then d
  else
    let d := d.put F.AUDIO_AIN_STS_LOS 0 0 i
    let x := d.ain i
    let p := x.now.add x.prev t
    let x := { x with now := p.1, prev := p.2, heard := t }
    -- the block: its place, its length, and its channel-status bits
    let whole := x.pos = some 191
    let x := if f.z then { x with pos := some 0, good := if whole then x.good + 1 else 0, csA := [f.a.c], csB := [f.b.c] }
      else match x.pos with
        | some p => if p < 191 then { x with pos := some (p + 1), csA := f.a.c :: x.csA, csB := f.b.c :: x.csB }
                    else { x with pos := none, good := 0, csA := [], csB := [] }
        | none => x
    let full := x.pos = some 191
    let d := d.setAin i x
    let d := if full && x.good ≥ 1 then d.put F.AUDIO_AIN_STS_LOCK 1 0 i else d
    let d := if full then d.csBlock i x.csA.reverse x.csB.reverse else d
    let bad := !f.a.parity || !f.b.parity
    let d := if bad then d.count F.AUDIO_PARITY_ERR 0 i else d
    let d := if f.a.v || f.b.v then d.count F.AUDIO_INVALID 0 i else d
    let w (s : AesSub) : Nat := wordOf s.sample.toNat s.v s.u s.c f.z false
    let mute := d.actFlag F.AUDIO_AIN_CFG_VPOLICY 0 i && (f.a.v || f.b.v)
    let words := if bad then (d.ain i).last.map setFill
      else if mute then [wordOf 0 f.a.v f.a.u f.a.c f.z true, wordOf 0 f.b.v f.b.u f.b.c f.z true]
      else [w f.a, w f.b]
    let d := if bad then d else d.setAin i { d.ain i with last := words }
    match d.directOut i with
    | some o => d.setAout o { d.aout o with words := [w f.a, w f.b] }
    | none =>
      let cls := d.get F.AUDIO_AIN_STS_RATE_CLASS 0 i
      let rate := d.act F.AUDIO_RXS_CFG_RATE 0 i
      let d := d.put F.AUDIO_RXS_STS_CHANNELS_IN 2 0 i
      if d.flag F.AUDIO_AIN_STS_LOCK 0 i && cls = 3 + 2 * rate then d.rxWrite i t none words else d

/-- AES3_LOCK_LOSS (R329): no valid preamble for 100 µs. A disabled input takes none, and so loses lock too. -/
def aesLoss (d : Dev) (i : Nat) : Dev :=
  if !d.audioRuns || d.house < (d.ain i).heard + 100000 then d
  else
    let was := d.flag F.AUDIO_AIN_STS_LOCK 0 i
    let d := (d.put F.AUDIO_AIN_STS_LOCK 0 0 i).put F.AUDIO_AIN_STS_LOS 1 0 i
    let d := d.setAin i { d.ain i with pos := none, good := 0, csA := [], csB := [] }
    if was then (d.count F.AUDIO_LOCK_LOSS 0 i).irq .audio 0 1 16 else d

/-- The rate of the frames of one second, in mHz: N frames between its first and its last start (R331). -/
def measuredRate (sec : Nat) (now prev : Starts) : Nat :=
  let s : Starts := if now.sec = sec then now else if prev.sec = sec then prev else {}
  if s.count < 2 ∨ s.latest ≤ s.first then 0 else (s.count - 1) * 1000000000000 / (s.latest - s.first)

/-- AES3_RATE_MEASURE (R331): of the second that ended within the last 10 µs. -/
def aesMeasure (d : Dev) : Dev :=
  let sec := d.house / 1000000000 - 1
  if !d.audioRuns || d.house < 1000000000 || 10000 < d.house % 1000000000 then d
  else
    let d := (List.range 16).foldl (fun d i =>
      let x := d.ain i
      let r := measuredRate sec x.now x.prev
      let cls := if r = 0 then 0 else rateClass r (d.act F.AUDIO_AIN_CFG_TOL_PPM 0 i)
      let oldC := d.get F.AUDIO_AIN_STS_RATE_CLASS 0 i
      let oldT := d.get F.AUDIO_AIN_STS_IN_TOL 0 i
      let tol := if cls = 0 then 0 else 1
      let d := ((d.put F.AUDIO_AIN_RATE (min r (2 ^ 32 - 1)) 0 i).put F.AUDIO_AIN_STS_RATE_CLASS cls 0 i).put
        F.AUDIO_AIN_STS_IN_TOL tol 0 i
      if oldC = cls ∧ oldT = tol then d else d.irq .audio 0 1 i) d
    d.rxStreams.foldl (fun d i =>
      let x := d.rx i
      d.setRx i { x with rate := min (measuredRate sec x.now x.prev) (2 ^ 32 - 1) }) d

/-! Sample instants. -/

/-- The word of each owned input slot at a sample instant, from the frames the members hand over (R326). -/
def slotWords (base r : Nat) (frames : List (List Nat)) : List (Nat × Nat) :=
  (List.range frames.length).flatMap (fun q =>
    (List.range ((frames.getD q []).length)).map (fun m => (base + m * r + q, (frames.getD q []).getD m 0)))

/-- The source of an output slot (R327). -/
def routeSrc (d : Dev) (o : Nat) : Nat :=
  if o % 2 = 0 then d.act F.AUDIO_ROUTE_SRC_A 0 (o / 2) else d.act F.AUDIO_ROUTE_SRC_B 0 (o / 2)

/-- A delay line takes the words of now and gives those of `n` samples ago, with the house time at which the router put them
out; positions not yet written read as zero with FILL (R345, R347), and so do those whose write or read fails (R162, R492), or
finds no free tag (R151; log entry 229). The words written and those read are traffic of audio (R174). -/
def delayed (d : Dev) (key h n : Nat) (ws : List Nat) : (Nat × List Nat) × Dev :=
  let line := sget (fun _ => ([] : List (Nat × List Nat))) d.audio.lines key
  let mute := List.replicate ws.length mutedWord
  let tag := d.tagFree reqAudio
  let here := (d.house, if tag && !d.lineGone key 0 ws.length then ws else mute)
  let line' := (here :: line).take (d.act F.AUDIO_DELAY_CTL_DMAX_MS 0 h * 48 + 1)
  let old := line'.getD n (d.house - instantTime n, [])
  let got := if n = 0 then ws
    else if tag && !d.lineGone key n ws.length then old.2 ++ mute.drop old.2.length
    else mute
  let d := { d with audio := { d.audio with lines := sset (fun _ => []) d.audio.lines key line' } }
  ((old.1, got), if tag then d.transact reqAudio (8 * ws.length) else d)

/-- The delay of a head's destinations (R345). -/
def delayUse (d : Dev) (h : Nat) : Nat := d.get F.AUDIO_DELAY_STS_IN_USE 0 h

/-- One AES3 output at a sample instant (R333). -/
def aoutInstant (d : Dev) (slots : List (Nat × Nat)) (o : Nat) : Dev :=
  if (d.directIn o).isSome && d.audioRuns then d
  else
    let on := d.actFlag F.AUDIO_AOUT_CFG_EN 0 o && d.audioRuns
    let r := if on then rateFactor (d.act F.AUDIO_AOUT_CFG_RATE 0 o) else 1
    let base := d.act F.AUDIO_AOUT_CFG_BASE 0 o
    let raw := (List.range (2 * r)).map (fun k => sget (fun _ => 0) slots (base + k))
    let h := d.act F.AUDIO_AOUT_CFG_DELAY_HEAD 0 o
    let dl := if on && d.actFlag F.AUDIO_AOUT_CFG_DELAY_EN 0 o then d.delayed (128 + o) h (d.delayUse h) raw else ((d.house, raw), d)
    let ws := if on then dl.1.2 else List.replicate (2 * r) invalidWord
    let d := dl.2
    let mark := d.actFlag F.AUDIO_AOUT_CFG_MARK_FILL 0 o
    let filled := if on then (ws.filter wFill).length else 0
    let d := if filled = 0 then d else d.count F.AUDIO_AOUT_FILLED 0 o filled
    let one (d : Dev) (q : Nat) : List Nat × Dev :=
      let x := d.aout o
      let cs := if x.pos = 0 then
          (if d.actFlag F.AUDIO_AOUT_CFG_CS_SRC 0 o then
            (List.range 6).map (fun k => BitVec.ofNat 32 (d.get F.AUDIO_AIN_CS 0 k (d.act F.AUDIO_AOUT_CFG_CS_IN 0 o)))
          else
            let ws := (List.range 6).map (fun k => BitVec.ofNat 32 (d.act F.AUDIO_AOUT_CS 0 k o))
            if d.actFlag F.AUDIO_AOUT_CFG_AUTO_CRCC 0 o then
              lset ws 5 (BitVec.ofNat 32 (putBits (ws.getD 5 0).toNat 24 8 (crcc (csBits ws))))
            else ws)
        else x.cs
      let c := (csBits cs).getD x.pos false
      let sub (w : Nat) : Nat :=
        wordOf w (wV w || (wFill w && mark)) (bitsOf w 25 1 = 1) c (x.pos = 0) (wFill w)
      ([sub (ws.getD q 0), sub (ws.getD (r + q) 0)], d.setAout o { x with pos := (x.pos + 1) % 192, cs := cs })
    let out := (List.range r).foldl (fun acc q => let z := one acc.2 q; (acc.1 ++ z.1, z.2)) (([] : List Nat), d)
    out.2.setAout o { out.2.aout o with words := out.1 }

/-- An embedding stream is muted: its port shows the safe screen, its head is fenced, or AUDIO is (R335, R349). -/
def embedMuted (d : Dev) (i : Nat) : Bool :=
  let p := d.act F.AUDIO_TXS_CFG_TARGET 0 i
  !d.audioRuns || (sget (fun _ => ({} : PortSt)) d.ports p).shows ≠ 2 || d.fenced .head (d.act F.OPORT_CFG_HEAD p)

/-- One transmit stream at a sample instant (R335, R337, R345). -/
def txsInstant (d : Dev) (slots : List (Nat × Nat)) (i : Nat) : Dev :=
  if !d.actFlag F.AUDIO_TXS_CFG_EN 0 i then d
  else
    let kind := d.act F.AUDIO_TXS_CFG_KIND 0 i
    let r := rateFactor (d.act F.AUDIO_TXS_CFG_RATE 0 i)
    let n := d.act F.AUDIO_TXS_CFG_CHANNELS 0 i + 1
    let base := d.act F.AUDIO_TXS_SLOT_BASE 0 i
    let raw := (List.range (n * r)).map (fun k => sget (fun _ => 0) slots (base + k))
    let h := if kind = 0 then d.act F.OPORT_CFG_HEAD (d.act F.AUDIO_TXS_CFG_TARGET 0 i) else d.act F.AUDIO_TXS_CFG_DELAY_HEAD 0 i
    let dl := if kind = 0 || d.actFlag F.AUDIO_TXS_CFG_DELAY_EN 0 i then d.delayed i h (d.delayUse h) raw else ((d.house, raw), d)
    let d := dl.2
    if kind = 0 then
      let ws := if d.embedMuted i then List.replicate (n * r) invalidWord else dl.1.2
      { d with audio := { d.audio with embeds := sset (fun _ => []) d.audio.embeds i ws } }
    else
      let ws := if d.audioRuns then dl.1.2 else List.replicate (n * r) mutedWord
      let frames := (List.range r).map (fun q => (dl.1.1, (List.range n).map (fun c => ws.getD (c * r + q) 0)))
      { d with audio := { d.audio with
          waits := supd (fun _ => []) d.audio.waits i (fun l => (l ++ frames).drop ((l ++ frames).length - 192 * r)) } }

/-- AUDIO_SAMPLE_INSTANT (R322, R327, R333, R335, R338): each sample instant once. -/
def sampleInstant (d : Dev) : Dev :=
  let k := instantAt d.house
  if instantTime k ≠ d.house ∨ d.audio.instant = some d.house then d
  else
  let d := { d with audio := { d.audio with instant := some d.house } }
  let hand : List (Nat × Nat) × Dev := if d.audioRuns then
      d.rxStreams.foldl (fun acc i =>
        let r := acc.2.rxHand i k
        (acc.1 ++ slotWords (d.act F.AUDIO_RXS_SLOT_BASE 0 i) (d.rxFactor i) r.1, r.2)) (([] : List (Nat × Nat)), d)
    else ([], d)
  let d := hand.2
  let slots := (List.range 512).filterMap (fun o =>
    let s := d.routeSrc o
    if s < 512 then
      match hand.1.find? (fun p => p.1 = s) with
      | some p => if p.2 = 0 then none else some (o, p.2)
      | none => none
    else none)
  let d := (List.range 16).foldl (fun d o => d.aoutInstant slots o) d
  (List.range 128).foldl (fun d i => d.txsInstant slots i) d

/-- AUDIO_BLOCK_BOUNDARY (R322, R341, R347): each whole millisecond once. -/
def blockBoundary (d : Dev) : Dev :=
  if !d.audioRuns || d.house % 1000000 ≠ 0 || d.audio.boundary = some d.house then d
  else
    let all := d.audio.realignAll
    let d := { d with audio := { d.audio with realignAll := false, boundary := some d.house } }
    let d := d.rxStreams.foldl (fun d i =>
      let x := d.rx i
      if d.groupFenced (d.rxGroup i) || !(x.realign || all) then d
      else
        let x := (if all && !x.stopped then { x with stopped := true, realign := true, reps := 0 } else x)
        d.setRx i (x.align (d.rxStart i) (if d.rxTimed i then some (d.rxIndex i (instantAt d.house)) else none))) d
    (List.range 64).foldl delayStep d

/-- The transmit stream of an ST 2110 audio sender (R337). -/
def senderStream (d : Dev) (s : Nat) : Option Nat :=
  (List.range 128).find? (fun i => d.actFlag F.AUDIO_TXS_CFG_EN 0 i && d.act F.AUDIO_TXS_CFG_KIND 0 i ≠ 0
    && d.act F.AUDIO_TXS_CFG_TARGET 0 i = s)

/-- ST2110_AUDIO_SEND (R337). -/
def audioSend (d : Dev) (s : Nat) : Dev :=
  match d.senderStream s with
  | none => d
  | some i =>
    let rate := 48000 * rateFactor (d.act F.AUDIO_TXS_CFG_RATE 0 i)
    let n := if d.actFlag F.AUDIO_ASEND_CFG_PTIME 0 s then rate / 8000 else rate / 1000
    let q := sget (fun _ => ([] : List (Nat × List Nat))) d.audio.waits i
    if q.length < n then d
    else
      let first := (q.head?.elim 0 (·.1))
      let rtp := first * rate / 1000000000 % 2 ^ 32
      let body := (q.take n).map (fun f => f.2.map (fun w =>
        if d.act F.AUDIO_TXS_CFG_KIND 0 i = 1 then w % 2 ^ 24 else w))
      let seq := sget (fun _ => 0) d.audio.seqs s
      let d := { d with audio := { d.audio with
        waits := sset (fun _ => []) d.audio.waits i (q.drop n), seqs := sset (fun _ => 0) d.audio.seqs s ((seq + 1) % 65536) } }
      let addr (f : Fld) : List Word :=
        BitVec.ofNat 32 (d.act F.AUDIO_ASEND_ADDR 0 s) :: [1, 2, 3].map (fun k => BitVec.ofNat 32 (d.act f 0 k))
      let go (d : Dev) (ni : Nat) (a : List Word) (port : Nat) : Dev :=
        if d.netUp ni then
          ((d.count F.NPORT_TX_FRAMES (ni / 4) (ni % 4)).chanPass 30 (12 + ni / 4)).emit
            (.rtp ni a port ((d.act F.AUDIO_ASEND_SSRC_BASE + s) % 2 ^ 32) (d.act F.AUDIO_ASEND_CFG_PT 0 s) seq rtp false body)
        else d
      let d := go d (d.act F.AUDIO_ASEND_CFG_NETIF_P1 0 s) (addr F.AUDIO_ABASE_P1) (d.act F.AUDIO_ASEND_PORTS_PORT_P1 0 s)
      let d := if d.actFlag F.AUDIO_ASEND_CFG_DUAL_PATH 0 s then
          go d (d.act F.AUDIO_ASEND_CFG_NETIF_P2 0 s) (addr F.AUDIO_ABASE_P2) (d.act F.AUDIO_ASEND_PORTS_PORT_P2 0 s)
        else d
      d.count F.AUDIO_ASEND_PKTS 0 s

/-- INSLOT_RESULT (R348): the stream, channel and phase that own the slot INSLOT_QUERY names. -/
def inslotWord (d : Dev) : Nat :=
  let s := d.get F.AUDIO_INSLOT_QUERY_SLOT
  match (d.rxNamed.flatMap (fun i =>
      let base := d.act F.AUDIO_RXS_SLOT_BASE 0 i
      let r := d.rxFactor i
      let ks := d.rxKept i
      if base ≤ s ∧ s < base + ks.length * r then [(i, ks.getD ((s - base) / r) 0, (s - base) % r)] else [])).head? with
  | some (i, c, q) => i + c * 2 ^ 7 + 2 ^ 13 + q * 2 ^ 14
  | none => 0

/-- Counters of the stream STAT_SEL selects. -/
def statSel (d : Dev) : Nat := d.get F.AUDIO_STAT_SEL_STREAM

/-- RXS_CLEAR (R348). -/
def rxsClear (d : Dev) : Dev :=
  let x := d.rx d.statSel
  d.setRx d.statSel { x with under := 0, lapped := 0, repeated := 0, muted := 0, dropped := 0 }

end Dev

/-- AUDIO_SAMPLE_INSTANT (R338). -/
def execAudioSampleInstant (t : Nat) (s : State) := s.onDev (fun d => (d.atTime t).sampleInstant)
/-- AUDIO_BLOCK_BOUNDARY (R341). -/
def execAudioBlockBoundary (t : Nat) (s : State) := s.onDev (fun d => (d.atTime t).blockBoundary)
/-- AES3_FRAME_RX (R329). -/
def execAes3FrameRx (t : Nat) (i : Fin 16) (f : AesFrame) (s : State) := s.onDev (fun d => (d.atTime t).aesFrame i t f)
/-- AES3_LOCK_LOSS (R329). -/
def execAes3LockLoss (t : Nat) (i : Fin 16) (s : State) := s.onDev (fun d => (d.atTime t).aesLoss i)
/-- AES3_RATE_MEASURE (R331). -/
def execAes3RateMeasure (t : Nat) (s : State) := s.onDev (fun d => (d.atTime t).aesMeasure)
/-- ST2110_AUDIO_SEND (R337). -/
def execSt2110AudioSend (t : Nat) (x : Fin 64) (s : State) := s.onDev (fun d => (d.atTime t).audioSend x)
/-- RXS_RESTART (R342). -/
def execRxsRestart (t : Nat) (s : State) :=
  s.onDev (fun d => (d.atTime t).gate ⟨.audio, 0, 4⟩ 0x328 (fun d => d.setRx d.statSel (d.rx d.statSel).restart))
/-- RXS_CLEAR (R348). -/
def execRxsClear (t : Nat) (s : State) :=
  s.onDev (fun d => (d.atTime t).gate ⟨.audio, 0, 4⟩ 0x328 (·.rxsClear))
/-- GROUP_RELEASE (R343, R52): refused while the cause remains. -/
def execGroupRelease (t : Nat) (g : Fin 64) (met : Bool) (s : State) :=
  s.onDev (fun d => (d.atTime t).gate ⟨.audio, 0, 0⟩ 0x4C (fun d =>
    let d := d.put F.AUDIO_GROUP_REL_GROUP g
    if d.groupFenced g then
      if met then (d.put F.AUDIO_GROUP_REL_REFUSED 0).groupRelease g else d.put F.AUDIO_GROUP_REL_REFUSED 1
    else d.put F.AUDIO_GROUP_REL_REFUSED 0))
/-- AIN_CLEAR (R348). -/
def execAinClear (t : Nat) (m : BitVec 16) (s : State) :=
  s.onDev (fun d => (d.atTime t).gate ⟨.audio, 0, 1⟩ 0x3F0 (fun d =>
    ((List.range 16).filter (fun i => bitsOf m.toNat i 1 = 1)).foldl (fun d i =>
      d.clear [F.AUDIO_PARITY_ERR, F.AUDIO_CRCC_ERR, F.AUDIO_INVALID, F.AUDIO_LOCK_LOSS] 0 i) d))
/-- AOUT_FILLED_CLEAR (R348). -/
def execAoutFilledClear (t : Nat) (m : BitVec 16) (s : State) :=
  s.onDev (fun d => (d.atTime t).gate ⟨.audio, 0, 2⟩ 0x3F0 (fun d =>
    ((List.range 16).filter (fun i => bitsOf m.toNat i 1 = 1)).foldl (fun d i => d.clear [F.AUDIO_AOUT_FILLED] 0 i) d))
/-- DELAY_STEPS_CLEAR (R348). -/
def execDelayStepsClear (t : Nat) (s : State) :=
  s.onDev (fun d => (d.atTime t).gate ⟨.audio, 0, 0⟩ 0x204 (·.clear [F.AUDIO_DELAY_STEPS]))
/-- ASEND_PKTS_CLEAR (R348). -/
def execAsendPktsClear (t : Nat) (hi : Bool) (m : Word) (s : State) :=
  s.onDev (fun d => (d.atTime t).gate ⟨.audio, 0, 7⟩ (if hi then 0x3F4 else 0x3F0) (fun d =>
    ((List.range 32).filter (fun i => bitsOf m.toNat i 1 = 1)).foldl (fun d i =>
      d.clear [F.AUDIO_ASEND_PKTS] 0 (if hi then i + 32 else i)) d))

end Sys2Proof.Machine
end

