-- ==== Sys2Proof/Machine/Crypto.lean ====
section
/-! DEFINITION. SHAKE256 and KMAC256 (FIPS 202, SP 800-185), which the spec names for the witness chain (R311), the
control tags (R370), the key blobs (R399), the password hashes (R401, R415) and the digests (R390, R397). -/
namespace Sys2Proof.Machine

/-- Rotation offsets of the lanes, lane x + 5y. -/
def keccakRot : List Nat :=
  [0, 1, 62, 28, 27, 36, 44, 6, 55, 20, 3, 10, 43, 25, 39, 41, 45, 15, 21, 8, 18, 2, 61, 56, 14]

/-- Round constants. -/
def keccakRc : List (BitVec 64) :=
  [0x1, 0x8082, 0x800000000000808A, 0x8000000080008000, 0x808B, 0x80000001, 0x8000000080008081,
   0x8000000000008009, 0x8A, 0x88, 0x80008009, 0x8000000A, 0x8000808B, 0x800000000000008B,
   0x8000000000008089, 0x8000000000008003, 0x8000000000008002, 0x8000000000000080, 0x800A,
   0x800000008000000A, 0x8000000080008081, 0x8000000000008080, 0x80000001, 0x8000000080008008]

/-- One round: theta, rho and pi, chi, iota. -/
def keccakRound (a : List (BitVec 64)) (rc : BitVec 64) : List (BitVec 64) :=
  let g (l : List (BitVec 64)) (i : Nat) : BitVec 64 := l.getD i 0
  let c := (List.range 5).map (fun x => g a x ^^^ g a (x + 5) ^^^ g a (x + 10) ^^^ g a (x + 15) ^^^ g a (x + 20))
  let e := (List.range 5).map (fun x => g c ((x + 4) % 5) ^^^ (g c ((x + 1) % 5)).rotateLeft 1)
  let t := (List.range 25).map (fun i => (g a i ^^^ g e (i % 5)).rotateLeft (keccakRot.getD i 0))
  let b := (List.range 25).map (fun i => g t ((i % 5 + 3 * (i / 5)) % 5 + 5 * (i % 5)))
  (List.range 25).map (fun i =>
    let y := i / 5 * 5
    let v := g b i ^^^ (~~~ g b (y + (i + 1) % 5) &&& g b (y + (i + 2) % 5))
    if i = 0 then v ^^^ rc else v)

def keccakF (a : List (BitVec 64)) : List (BitVec 64) := keccakRc.foldl keccakRound a

/-- Absorb whole blocks of 136 bytes. -/
def absorb : Nat → List (BitVec 64) → List Byte → List (BitVec 64)
  | 0, a, _ => a
  | n + 1, a, bs =>
    let blk := (List.range 25).map (fun i => BitVec.ofNat 64 (leVal (((bs.take 136).drop (8 * i)).take 8)))
    absorb n (keccakF (List.zipWith (· ^^^ ·) a blk)) (bs.drop 136)

/-- Squeeze `n` blocks of 136 bytes. -/
def squeeze : Nat → List (BitVec 64) → List Byte
  | 0, _ => []
  | n + 1, a => ((a.take 17).flatMap (fun l => leBytes 8 l.toNat)) ++ squeeze n (keccakF a)

/-- The sponge of capacity 512 with a domain suffix: `len` bytes of output. -/
def sponge (suffix : Nat) (msg : List Byte) (len : Nat) : List Byte :=
  let k := msg.length % 136
  let pad : List Byte := if k = 135 then [BitVec.ofNat 8 (suffix + 128)]
    else [BitVec.ofNat 8 suffix] ++ List.replicate (134 - k) 0 ++ [0x80]
  let bs := msg ++ pad
  (squeeze ((len + 135) / 136) (absorb (bs.length / 136) (List.replicate 25 0) bs)).take len

/-- SHAKE256 with `len` bytes of output. -/
def shake256 (msg : List Byte) (len : Nat) : List Byte := sponge 0x1F msg len

/-- left_encode and right_encode of numbers below 65,536. -/
def encBytes (n : Nat) : List Byte := if n < 256 then [BitVec.ofNat 8 n] else [BitVec.ofNat 8 (n / 256), BitVec.ofNat 8 n]
def leftEncode (n : Nat) : List Byte := BitVec.ofNat 8 (encBytes n).length :: encBytes n
def rightEncode (n : Nat) : List Byte := encBytes n ++ [BitVec.ofNat 8 (encBytes n).length]
def encodeString (s : List Byte) : List Byte := leftEncode (8 * s.length) ++ s
def bytepad (s : List Byte) : List Byte :=
  let x := leftEncode 136 ++ s
  x ++ List.replicate ((136 - x.length % 136) % 136) 0

/-- The bytes of a text. -/
def textBytes (s : String) : List Byte := s.toList.map (fun c => BitVec.ofNat 8 c.toNat)

/-- KMAC256(K, X, 8 × len, S). -/
def kmac256 (key x : List Byte) (len : Nat) (s : String) : List Byte :=
  sponge 0x04 (bytepad (encodeString (textBytes "KMAC") ++ encodeString (textBytes s)) ++ bytepad (encodeString key) ++ x
    ++ rightEncode (8 * len)) len

end Sys2Proof.Machine
end

