-- ==== Sys2Proof/Machine/NvmCore.lean ====
section
/-! DEFINITION. The array of the non-volatile store: its groups (R407, R412, R426), native and Farari records (R418 to
R422) and spread counters (R423 to R425). -/
namespace Sys2Proof.Machine

/-- A byte of the store that nothing has written: zero, and in the counter area the layout of a counter that stands at 0
(log entry 18). -/
def nvInit (a : Nat) : Byte :=
  if a / 0x4000 = 0xE0 then
    let o := a % 0x200
    if 12 ≤ o && o < 16 then BitVec.ofNat 8 (crc32c (List.replicate 12 0) / 2 ^ (8 * (o - 12)))
    else if 0x24 ≤ o && o < 0x28 then 0xFF
    else 0
  else 0

/-- Size of the store (R407). -/
def nvSize : Nat := 0x400000

/-- Address of a spread counter (R423). -/
def counterAt (c : Nat) : Nat := 0x380000 + c * 0x200

/-- `a` is newer than `b` among sequence numbers (R418). -/
def newer (a b : Nat) : Bool :=
  let x := (a + 2 ^ 32 - b % 2 ^ 32) % 2 ^ 32
  1 ≤ x && x < 2 ^ 31

/-- Size of a native copy (R418). -/
def copySize (l : Nat) : Nat := 64 * ((l + 16 + 63) / 64)

/-- A native copy (R418). -/
def nativeCopy (seq : Nat) (payload : List Byte) : List Byte :=
  let n := copySize payload.length
  let b := leBytes 4 0x31524E51 ++ leBytes 2 payload.length ++ leBytes 2 0 ++ leBytes 4 seq ++ payload
  let b := b ++ List.replicate (n - 4 - b.length) 0
  b ++ leBytes 4 (crc32c b)

/-- A Farari slot (R421). -/
def farariSlot (key seq : Nat) (payload : List Byte) : List Byte :=
  let b := leBytes 2 0x5246 ++ leBytes 1 key ++ leBytes 1 payload.length ++ leBytes 4 seq ++ payload
  let b := b ++ List.replicate (60 - b.length) 0
  b ++ leBytes 4 (crc32c b)

namespace Nonvolatile

def byte (n : Nonvolatile) (a : Nat) : Byte := sget nvInit n.store a
def read (n : Nonvolatile) (a k : Nat) : List Byte := (List.range k).map (fun i => n.byte (a + i))
def value (n : Nonvolatile) (a k : Nat) : Nat := leVal (n.read a k)

/-- A group of the run has an uncorrectable error. -/
def badIn (n : Nonvolatile) (a k : Nat) : Bool := n.bad.any (fun g => a ≤ 8 * g + 7 && 8 * g < a + k)

/-- A whole group is written: any error in it goes (R426). -/
def putGroup (n : Nonvolatile) (g : Nat × List Byte) : Nonvolatile :=
  { n with
    store := (g.2.zipIdx).foldl (fun m b => sset nvInit m (g.1 + b.2) b.1) n.store
    bad := n.bad.filter (· ≠ g.1 / 8) }

def putGroups (n : Nonvolatile) (gs : List (Nat × List Byte)) : Nonvolatile := gs.foldl putGroup n

/-- The groups a run of bytes touches, merged with what they hold (R412); what a group with an uncorrectable error held
is a free value. -/
def groupsOf (n : Nonvolatile) (draws a : Nat) (bs : List Byte) : List (Nat × List Byte) :=
  if bs.isEmpty then []
  else (List.range ((a + bs.length - 1) / 8 - a / 8 + 1)).map (fun g =>
    let at_ := 8 * (a / 8 + g)
    (at_, (List.range 8).map (fun i =>
      if a ≤ at_ + i && at_ + i < a + bs.length then bs.getD (at_ + i - a) 0
      else if n.bad.contains (at_ / 8) then BitVec.ofNat 8 (Config.freeValue (draws + 8 * g + i))
      else n.byte (at_ + i))))

/-! Records. -/

/-- A native copy is valid (R418). -/
def copyValid (n : Nonvolatile) (a l : Nat) : Bool :=
  let c := copySize l
  n.value a 4 == 0x31524E51 && n.value (a + 4) 2 = l && !n.badIn a c && n.value (a + c - 4) 4 = crc32c (n.read a (c - 4))

def copySeq (n : Nonvolatile) (a : Nat) : Nat := n.value (a + 8) 4

/-- The newer valid copy of an area, 0 or 1 (R418, R420). -/
def newestCopy (n : Nonvolatile) (a l : Nat) : Option Nat :=
  let b := a + copySize l
  match n.copyValid a l, n.copyValid b l with
  | true, true => if newer (n.copySeq b) (n.copySeq a) then some 1 else some 0
  | true, false => some 0
  | false, true => some 1
  | false, false => none

/-- A Farari slot is valid (R421). -/
def slotValid (n : Nonvolatile) (a : Nat) : Bool :=
  n.value a 2 = 0x5246 && 1 ≤ n.value (a + 3) 1 && n.value (a + 3) 1 ≤ 52 && !n.badIn a 64
    && n.value (a + 60) 4 = crc32c (n.read a 60)

def slotKey (n : Nonvolatile) (a : Nat) : Nat := n.value (a + 2) 1
def slotSeq (n : Nonvolatile) (a : Nat) : Nat := n.value (a + 4) 4

/-- The newest valid slot of an area among those with a property (R421). -/
def newestSlot (n : Nonvolatile) (a slots : Nat) (p : Nat → Bool) : Option Nat :=
  (List.range slots).foldl (fun best i =>
    if n.slotValid (a + 64 * i) && p i then
      match best with
      | some j => if newer (n.slotSeq (a + 64 * i)) (n.slotSeq (a + 64 * j)) then some i else best
      | none => some i
    else best) none

/-- The slot that a Farari write takes, and its SEQ (R422); none when the area is full. -/
def freeSlot (n : Nonvolatile) (a slots : Nat) : Option Nat × Nat :=
  let last := n.newestSlot a slots (fun _ => true)
  let from_ := match last with
    | some i => i + 1
    | none => 0
  let seq := match last with
    | some i => (n.slotSeq (a + 64 * i) + 1) % 2 ^ 32
    | none => 1
  let keeps (i : Nat) : Bool :=
    n.newestSlot a slots (fun j => n.slotKey (a + 64 * j) = n.slotKey (a + 64 * i)) = some i
  (((List.range slots).map (fun k => (from_ + k) % slots)).find? (fun i => !keeps i), seq)

/-! Spread counters. -/

/-- A base copy is valid (R423). -/
def baseValid (n : Nonvolatile) (a : Nat) : Bool := n.value (a + 12) 4 = crc32c (n.read a 12) && !n.badIn a 16

/-- The newest valid base copy of a counter, 0 or 1 (R425). -/
def newestBase (n : Nonvolatile) (c : Nat) : Option Nat :=
  let a := counterAt c
  match n.baseValid a, n.baseValid (a + 16) with
  | true, true => if newer (n.value (a + 24) 4) (n.value (a + 8) 4) then some 1 else some 0
  | true, false => some 0
  | false, true => some 1
  | false, false => none

/-- HEADER is valid and carries a SEQ (R425). -/
def headerIs (n : Nonvolatile) (c s : Nat) : Bool :=
  let a := counterAt c + 0x20
  n.value a 4 = s && n.value (a + 4) 4 == 0xFFFFFFFF - s && !n.badIn a 8

/-- Leading set cells of a tally. -/
def tally (n : Nonvolatile) (c : Nat) : Nat :=
  ((List.range 256).takeWhile (fun i =>
    let a := counterAt c + 0x40 + i
    n.byte a = 0xA5 && !n.badIn a 1)).length

/-- The count of a spread counter (R425). -/
def count (n : Nonvolatile) (c : Nat) : Option Nat :=
  match n.newestBase c with
  | some k =>
    let a := counterAt c + 16 * k
    some (n.value a 8 + (if n.headerIs c (n.value (a + 8) 4) then n.tally c else 0))
  | none => none

/-- The groups an increment writes (R424). A carry that was cut short is completed first. -/
def incGroups (n : Nonvolatile) (draws c : Nat) : List (Nat × List Byte) :=
  match n.newestBase c with
  | none => []
  | some k =>
    let a := counterAt c
    let b := n.value (a + 16 * k) 8
    let s := n.value (a + 16 * k + 8) 4
    let cell (i : Nat) : List (Nat × List Byte) := n.groupsOf draws (a + 0x40 + i) [0xA5]
    let clear (s : Nat) : List (Nat × List Byte) :=
      n.groupsOf draws (a + 0x40) (List.replicate 256 0) ++ n.groupsOf draws (a + 0x20) (leBytes 4 s ++ leBytes 4 (0xFFFFFFFF - s))
    let carry : List (Nat × List Byte) :=
      let v := leBytes 8 (b + 256) ++ leBytes 4 (s + 1)
      n.groupsOf draws (a + 16 * (1 - k)) (v ++ leBytes 4 (crc32c v)) ++ clear ((s + 1) % 2 ^ 32)
    let first : List (Nat × List Byte) := [(a + 0x40, 0xA5 :: List.replicate 7 0)]
    if !n.headerIs c s then clear s ++ first
    else if n.tally c = 256 then carry ++ first
    else cell (n.tally c) ++ (if n.tally c = 255 then carry else [])

/-- Firmware increments a counter of its own (R407). -/
def increment (n : Nonvolatile) (c : Nat) : Nonvolatile := n.putGroups (n.incGroups 0 c)

end Nonvolatile
end Sys2Proof.Machine
end

