-- ==== Sys2Proof/Machine/HandCore.lean ====
section
/-! DEFINITION. Sealed hands (R268 to R280): latch domains, the application of a domain's part at one edge, what an
applied hand changes, and the resolution of the outcome. -/
namespace Sys2Proof.Machine

/-- Latch domains (R275). -/
inductive Dom where
  | head (h : Nat)
  | ctx (n : Nat)
  | rest
deriving DecidableEq, Repr

/-- Outcomes (R279). -/
def ocNone : Nat := 0
def ocPending : Nat := 1
def ocApplied : Nat := 2
def ocHeld : Nat := 3
def ocFolded : Nat := 4
def ocMissed : Nat := 5
def ocTooLate : Nat := 6

namespace Dev

/-- The head whose staged enabled slot names a layer context (R209). -/
def stagedHead (d : Dev) (l : Nat) : Option Nat :=
  (List.range 64).find? (fun h => (List.range 16).any (fun k =>
    d.get F.HEAD_SLOT_EN h k = 1 && d.get F.HEAD_SLOT_LAYER h k = l))

/-- The staged head of a media lane's transmit half: that of the port it is bound to (R88, R254). -/
def stagedTx (d : Dev) (lane : Nat) : Option Nat :=
  ((List.range 96).find? (fun p => d.get F.OPORT_CFG_PROTOCOL p ≠ 0 && d.get F.OPORT_CFG_FIRST_LANE p ≤ lane
    && lane < d.get F.OPORT_CFG_FIRST_LANE p + d.get F.OPORT_CFG_LANE_COUNT p)).map (fun p => d.get F.OPORT_CFG_HEAD p)

/-- The staged context of a media lane's receive half (R88, R112). -/
def stagedRx (d : Dev) (lane : Nat) : Option Nat :=
  (List.range 256).find? (fun n =>
    let k := kindLanes (d.get F.INGEST_CFG_KIND n) (d.get F.INGEST_LINK_LANE_COUNT n)
    let f := d.get F.INGEST_LINK_FIRST_LANE n
    f ≤ lane && lane < f + k)

/-- The domain of a hand word under the sealed hand (R275, R88). -/
def domOf (d : Dev) (a : Nat) : Dom :=
  match decodePage a with
  | none => .rest
  | some r =>
    let off := a % 0x1000
    match r.blk with
    | .head => .head r.inst
    | .witness => .head r.inst
    | .layer => (d.stagedHead r.inst).elim .rest .head
    | .oport => .head (d.get F.OPORT_CFG_HEAD r.inst)
    | .sendV => .head (d.get F.SENDV_CFG_HEAD r.inst ((off - 0x800) / 64))
    | .sendT => .ctx (d.get F.SENDT_CFG_CONTEXT r.inst ((off - 0x800) / 64))
    | .ingest => .ctx r.inst
    | .talon => if off < 0xC00 then .ctx ((off - 0x800) / 4) else .rest
    | .mlane =>
      if off < 0x808 then (d.stagedTx r.inst).elim .rest .head
      else if off < 0x810 then (d.stagedRx r.inst).elim .rest .ctx
      else .rest
    | _ => .rest

/-- The hand words whose hand or active copy differs from reset: no other word can change at an apply. -/
def handAddrs (d : Dev) : List Nat :=
  d.regs.foldl (fun l p =>
    let off := p.1 % 0x1000
    if (decodePage p.1).isNone then l
    else if 0x800 ≤ off ∧ off < 0xC00 then addOnce l p.1
    else if 0x400 ≤ off ∧ off < 0x800 then addOnce l (p.1 + 0x400)
    else l) []

/-- The active copies of some hand words take the staged values. -/
def copyHand (d : Dev) (as : List Nat) : Dev := as.foldl (fun d a => d.setWord (a - 0x400) (d.word a)) d

/-- Every active copy is copied into its hand region (R277, R280); this is no host write. -/
def copyActive (d : Dev) : Dev :=
  d.handAddrs.foldl (fun d a => d.setWord a (d.word (a - 0x400))) d

/-- The active word of a hand word address, in two devices, differs. -/
def actDiff (old d : Dev) (a : Nat) : Bool := old.word (a - 0x400) ≠ d.word (a - 0x400)

/-! What an applied hand changes. -/

/-- R89, R92, R103: the transmit and receive halves of a lane whose settings changed. A setting applied outside L0 acts on
exit to L0 (R104); RX_RATE is ignored with FWD_CLK and RATE_SRC (R87). A checker that leaves TEST mode loses sync, and an
injection ends with the TEST mode of its half, without INJ_DONE (R100, R101; DESIGN CHOICE, log entry 243). Link training also
starts at an applied change of TRAIN of a transmitter that drives (R92; DESIGN CHOICE, log entry 240). -/
def laneApplied (old d : Dev) (n : Nat) : Dev :=
  let a := pageAddr (laneBlk n) (laneIdx n) 0
  let w (x : Dev) (off lo len : Nat) : Nat := x.bitsAt (a + off) lo len
  let rate := actDiff old d (a + 0x804)
  let txChanged := rate || w old 0x400 0 4 ≠ w d 0x400 0 4
  let rxRate := if n < 96 then actDiff old d (a + 0x80C) && w d 0x408 4 2 = 0 else rate
  let rxChanged := w old 0x408 0 6 ≠ w d 0x408 0 6 || rxRate
  let txL0 := d.lget F.MLANE_LANE_STS_TX_LSTATE n = 0 && (d.lane n).txTarget.isNone
  let rxL0 := d.lget F.MLANE_LANE_STS_RX_LSTATE n = 0 && (d.lane n).rxTarget.isNone
  let d := if txChanged && txL0 then (if w d 0x400 0 1 = 1 then d.txRestart n else d.txStop n) else d
  let train := w d 0x400 6 1
  let d := if n ≥ 96 && w old 0x400 6 1 ≠ train then
      (if (d.lane n).txIdle then d.updLane n (fun l => { l with trainFailed := l.trainFailed && train = 1 }) else d.laneTrain (n - 96))
    else d
  let d := if w old 0x400 4 2 ≠ w d 0x400 4 2 then d.lstateReq n true (w d 0x400 4 2) else d
  let d := if d.rxTest n then d
    else
      let d := if d.lget F.MLANE_LANE_STS_PRBS_SYNC n = 1 then (d.lput F.MLANE_LANE_STS_PRBS_SYNC 0 n).lirq n 5 else d
      d.updLane n (fun l => { l with chk := {}, inj := if l.injRx then 0 else l.inj })
  let d := if d.txTest n then d else d.updLane n (fun l => { l with inj := if l.injRx then l.inj else 0 })
  let d := d.genShow n
  let d := if rxChanged && rxL0 then ((d.showRxRate n).acquireAnew n).laneLoss n
    else if rxChanged then d.laneLoss n else d
  if d.loopNear n then d.laneBack n else d

/-- R106, R109: a lane whose bonding changed leaves its bond, which goes down, and starts marker lock anew; the transmitter of
either bond starts afresh. -/
def bondApplied (old d : Dev) (n : Nat) : Dev :=
  if actDiff old d (pageAddr .mlane n 0 + 0x810) then
    let was := old.act F.MLANE_BOND_BOND_ID n
    let d := if old.act F.MLANE_BOND_BOND_EN n = 1 then d.bondFall (old.bondLanes was) (old.bondCtxs was) else d
    let d := if d.lget F.MLANE_LANE_STS_MARKER_LOCK n = 1 then (d.lput F.MLANE_LANE_STS_MARKER_LOCK 0 n).lirq n 6 else d
    let d := d.updLane n (fun l => { l with mkGood := 0, mkBad := 0, mkHeld := 0, mkAt := none, got := [], sent := none })
    let fresh (d : Dev) (id : Nat) : Dev :=
      { d with bondTx := sset (fun _ => {}) d.bondTx id {}, bondRx := sset (fun _ => {}) d.bondRx id {} }
    fresh (fresh d was) (d.act F.MLANE_BOND_BOND_ID n)
  else d

/-- R27, R30, R31, R113, R140, R195: a context's applied settings. A hand that moves the heartbeat patch places it anew: the next
published frame shows whether it lies inside. After such a hand, and after one that rebinds the context, the comparison of
counters starts anew (DESIGN CHOICE: R30 says so of HB_EN alone; log entry 248). -/
def ctxApplied (old d : Dev) (n : Nat) : Dev :=
  let a := pageAddr .ingest n 0
  let diff (offs : List Nat) : Bool := offs.any (fun o => actDiff old d (a + o))
  let rebind := old.ctxKind n ≠ d.ctxKind n
    || diff ([0x804] ++ (List.range 11).map (fun k => 0x820 + 4 * k) ++ [0x850])
    || old.actFlag F.INGEST_CFG_DUAL_PATH n ≠ d.actFlag F.INGEST_CFG_DUAL_PATH n
  let d := if rebind then
      let d := ((d.ctxLayers n).foldl (fun d l => if d.actFlag F.LAYER_ENG_CTL_ENG_EN l then d.engDrop l true else d)
        (d.discardCur n drIncomplete)).updCtx n (fun c =>
        { c with
          cur := none, pubs := [], confirmed := none, oddFrames := 0, oddPeriods := 0, lastStart := none
          periods := [], hbPrev := none, seen := [], highSeq := none, closedRtp := none
          dma := none, dmaStop := false, origins := [], hbDue := false })
      if d.ctxKind n ≠ 0 && d.enabled .ingest n then d.ctxSearch n else d.setCtxState n stIdle
    else if isSt2110 (d.ctxKind n) && d.ctxState n = stUnsupported && diff [0x810, 0x814, 0x818, 0x81C] then d.ctxSearch n
    else d
  let d := d.causeMark n (old.ctxCauses n)
  let cnt (x : Dev) : List Nat :=
    [x.act F.INGEST_FRESH_CTL_CONTENT n, x.act F.INGEST_FRESH_LIMITS_FROZEN_LIMIT n, x.act F.INGEST_FRESH_CTL_EXCL_EN n]
  let d := if cnt old ≠ cnt d || diff [0x90C, 0x910] then
      let was := d.flag F.INGEST_FRESH_STS_FROZEN n
      let d := (d.put F.INGEST_FRESH_RUNS_SAME_RUN 0 n).put F.INGEST_FRESH_STS_FROZEN 0 n
      if was then d.irq .ingest n 0 9 else d
    else d
  if old.actFlag F.INGEST_FRESH_CTL_HB_EN n && !d.actFlag F.INGEST_FRESH_CTL_HB_EN n then
    (((d.hbFail n false).put F.INGEST_FRESH_RUNS_HB_RUN 0 n).put F.INGEST_FRESH_STS_HB_VALID 0 n).updCtx n
      (fun c => { c with hbPrev := none, hbOut := false, hbDue := false, hbRestart := false })
  else
  let d := if diff [0x908] && d.actFlag F.INGEST_FRESH_CTL_HB_EN n then
      d.updCtx n (fun c => { c with hbPrev := none, hbOut := false, hbDue := false })
    else d
  if d.actFlag F.INGEST_FRESH_CTL_HB_EN n && !d.enabled .engine (d.act F.INGEST_HB_ENGINE_ENGINE n) then
    (d.hbFail n true).updCtx n (fun c => { c with hbDue := false, hbRestart := true })
  else d

/-- R364: a Tatre sender enabled anew, or of another source, sends its next frame whole. -/
def senderApplied (old d : Dev) (s : Nat) : Dev :=
  let key (x : Dev) : Nat × Nat :=
    (x.act F.SENDT_CFG_EN (tsPage s) (s % 16), x.act F.SENDT_CFG_CONTEXT (tsPage s) (s % 16))
  if key old = key d then d
  else (d.setTsend s { d.tsend s with last := none, frames := 0, waiting := none }).setReads (3000 + s) []

/-- GEOMETRY of a layer ends at this latch; a format change published at the same edge counts after it (R18). -/
def geomEnd (s : LayerSt) (now : Nat) : LayerSt :=
  if s.causeAt = some now ∧ s.causeWas < 2048 then s else { s with geom := false, causeWas := s.causeWas % 2048 }

/-- R18, R183, R203, R212: a layer whose page applied: GEOMETRY ends when the host wrote a geometry field; a new source or
engine assignment drops what was prepared, and other engine settings the work in progress (log entry 221); a FIT_FAIL ends
with its GEOMETRY or with a change of engine or geometry settings, and the next job plans anew; a layer assigned to a fenced engine takes ENGINE_FENCED. -/
def layerApplied (old d : Dev) (l : Nat) : Dev :=
  let a := pageAddr .layer l 0
  let diff (lo n : Nat) : Bool := (List.range n).any (fun k => actDiff old d (a + lo + 4 * k))
  let serves (x : Dev) : List Nat := x.layerEngines l
  let source := actDiff old d (a + 0x800) || serves old ≠ serves d
  let wrote := d.hand.geometry.any (fun x => x / 0x1000 = a / 0x1000)
  let d := if wrote then d.updLayer l (fun s => geomEnd s d.house) else d
  let d := if d.flag F.LAYER_COMP_STS_FIT_FAIL l && (wrote || diff 0x800 6 || diff 0x980 15) then
      (d.put F.LAYER_COMP_STS_FIT_FAIL 0 l).updLayer l (fun s => { geomEnd s d.house with refit := true })
    else d
  let d := if serves old ≠ serves d then
      d.updLayer l (fun s => { s with engCause := (d.layerEngines l).any (fun e => d.fenced .engine e) })
    else d
  if source || diff 0x980 15 then ((old.layerEngines l).foldl (fun d e => (d.showJob e).engBusyMark e d.house) (d.engDrop l source))
  else d

/-! The place of a layer (R209, R210). -/

/-- Filled slots of a head under the applied hand, with their layers (R209). -/
def activeSlots (d : Dev) (h : Nat) : List (Nat × Nat) :=
  (List.range 16).filterMap (fun k => if d.act F.HEAD_SLOT_EN h k = 1 then some (k, d.act F.HEAD_SLOT_LAYER h k) else none)

/-- The enabled meld group of a slot (R225). -/
def groupAt (d : Dev) (h k : Nat) : Option Nat :=
  (List.range 4).find? (fun g =>
    d.act F.HEAD_MELD_EN h g = 1 && d.act F.HEAD_MELD_FIRST_SLOT h g ≤ k && k ≤ d.act F.HEAD_MELD_LAST_SLOT h g)

def headSt (d : Dev) (h : Nat) : HeadSt := sget (fun _ => {}) d.heads h
def setHeadSt (d : Dev) (h : Nat) (x : HeadSt) : Dev := { d with heads := sset (fun _ => {}) d.heads h x }
def updHeadSt (d : Dev) (h : Nat) (f : HeadSt → HeadSt) : Dev := d.setHeadSt h (f (d.headSt h))

/-- Head `o` applies at the present edge, and has not yet, the hand that takes the layer away: at its latch, or at the apply
time where it runs no timing (R210: a layer joins its new head at a latch of the same moment; log entry 224). -/
def leavesNow (d : Dev) (o l : Nat) : Bool :=
  let s := d.headSt o
  d.hand.heads.contains o
    && (if s.running then s.take && s.due = d.house && s.latch ≠ d.house
        else d.hand.pending && d.hand.dealt && d.hand.done.isSome && !d.hand.missed && d.hand.apply ≤ d.house)
    && !(List.range 16).any (fun k => d.get F.HEAD_SLOT_EN o k = 1 && d.get F.HEAD_SLOT_LAYER o k = l)

/-- A layer leaves its head. -/
def unplace (d : Dev) (l : Nat) : Dev :=
  (d.updLayer l (fun s => { s with head := none, selKey := [], sel := none })).clear
    [F.LAYER_COMP_STS_PLACED, F.LAYER_COMP_STS_HEAD, F.LAYER_COMP_STS_SLOT, F.LAYER_COMP_STS_MELDED,
     F.LAYER_COMP_STS_OPAQUE, F.LAYER_COMP_STS_LEFT_OUT, F.LAYER_DRAWN_WH_W, F.LAYER_DRAWN_WH_H] l

/-- R210: layers leave and join a head at its latch, or where it runs no timing at the apply time. -/
def placeLayers (d : Dev) (h : Nat) : Dev :=
  let slots := d.activeSlots h
  let gone (l : Nat) : Bool := !slots.any (fun q => q.2 = l)
  let d := (d.layers.filter (fun p => p.2.kept.elim false (fun k => k.1 = h) && gone p.1)).foldl (fun d p =>
    d.updLayer p.1 (fun s => { s with kept := none })) d
  let d := (d.layers.filter (fun p => p.2.head = some h && gone p.1)).foldl (fun d p => d.unplace p.1) d
  let d := slots.foldl (fun (d : Dev) q =>
    match (d.layer q.2).head with
    | some o => if o ≠ h ∧ d.leavesNow o q.2 then d.unplace q.2 else d
    | none => d) d
  let waits (d : Dev) (l : Nat) : Bool := !((d.layer l).head.isNone || (d.layer l).head = some h)
  let held := slots.foldl (fun n q => if waits d q.2 then n + 2 ^ q.1 else n) 0
  let old := d.get F.HEAD_PLACE_HELD_SLOTS h
  let d := d.put F.HEAD_PLACE_HELD_SLOTS held h
  let d := if (List.range 16).any (fun k => bitsOf held k 1 = 1 && bitsOf old k 1 = 0) then d.irq .head h 1 2 else d
  let d := slots.foldl (fun d q =>
    if waits d q.2 then d.put F.LAYER_COMP_STS_PLACE_HELD 1 q.2
    else
      (((((d.updLayer q.2 (fun s => { s with head := some h })).put F.LAYER_COMP_STS_PLACED 1 q.2).put
        F.LAYER_COMP_STS_HEAD h q.2).put F.LAYER_COMP_STS_SLOT q.1 q.2).put F.LAYER_COMP_STS_PLACE_HELD 0 q.2).putB
          F.LAYER_COMP_STS_MELDED (d.groupAt h q.1).isSome q.2) d
  (d.layers.filter (fun p => d.flag F.LAYER_COMP_STS_PLACE_HELD p.1)).foldl (fun d p =>
    if (List.range 64).any (fun b => (d.activeSlots b).any (fun q => q.2 = p.1)) then d
    else d.put F.LAYER_COMP_STS_PLACE_HELD 0 p.1) d

/-- R209, R210: words of LAYER pages that apply at another edge than the latch of the head the layer still is on: that head
goes on with the old ones until it latches (log entry 78). -/
def keepWords (old d : Dev) (as : List Nat) (x : Option Nat) : Dev :=
  as.foldl (fun d a =>
    match decodePage a with
    | none => d
    | some r =>
      if r.blk ≠ .layer then d
      else match (d.layer r.inst).head with
        | none => d
        | some o =>
          let w := (a % 0x400, old.word (a - 0x400))
          if x = some o then d
          else d.updLayer r.inst (fun s =>
            match s.kept with
            | some k => if k.1 = o ∧ k.2.any (fun q => q.1 = w.1) then s
                else { s with kept := some (o, w :: (if k.1 = o then k.2 else [])) }
            | none => { s with kept := some (o, [w]) })) d

/-- The active copy of the word at offset `o` of a layer's hand registers. -/
def activeAddr (l o : Nat) : Nat := pageAddr .layer l 0 + 0x400 + o % 0x400

/-- The kept words of layers on a head change places with the applied ones; twice is nothing. -/
def keptSwap (d : Dev) (h : Nat) : Dev :=
  d.layers.foldl (fun d p =>
    match p.2.kept with
    | some (o, ws) =>
      if o ≠ h then d
      else
        let now := ws.map (fun w => (w.1, d.word (activeAddr p.1 w.1)))
        (ws.foldl (fun d w => d.setWord (activeAddr p.1 w.1) w.2) d).updLayer p.1 (fun s => { s with kept := some (o, now) })
    | none => d) d

/-- What a head does with its current frame, under the words that frame was selected with. -/
def withKept (d : Dev) (h : Nat) (f : Dev → Dev) : Dev := (f (d.keptSwap h)).keptSwap h

/-- R18, R24: GEOMETRY of the trump plane ends when the host wrote one of its geometry fields. -/
def trumpApplied (d : Dev) (h : Nat) : Dev :=
  if d.hand.geometry.any (fun x => x / 0x1000 = pageAddr .head h 1 / 0x1000) then
    { d with heads := supd (fun _ => {}) d.heads h (fun s =>
        if s.trumpAt = some d.house then s else { s with trumpGeom := false }) }
  else d

/-- A port whose link is trained before it carries anything: FRL, and DisplayPort with a sideband (R255, R256). -/
def portTrains (d : Dev) (p : Nat) : Bool :=
  d.act F.OPORT_CFG_PROTOCOL p = 2 || (d.act F.OPORT_CFG_PROTOCOL p = 3 && d.actFlag F.OPORT_CFG_SBAND_EN p)

/-- Ports bound to an output sideband port. -/
def sbandPorts (d : Dev) (sb : Nat) : List Nat :=
  (List.range 96).filter (fun p =>
    d.act F.OPORT_CFG_PROTOCOL p ≠ 0 && d.actFlag F.OPORT_CFG_SBAND_EN p && d.act F.OPORT_CFG_SBAND p = sb)

/-- SINK of a port shows the hot-plug input of the sideband port it is bound to (R257, R266). -/
def portSink (d : Dev) (p : Nat) : Dev :=
  let sb := d.act F.OPORT_CFG_SBAND p
  d.putB F.OPORT_PORT_STS_SINK ((d.sbandPorts sb).contains p && d.sbHpd.contains sb) p

/-- Training starts, where a sink is there: the link carries nothing until it ends. -/
def portTrain (d : Dev) (p : Nat) : Dev :=
  let d := d.portSink p
  { d with ports := supd (fun _ => {}) d.ports p (fun s => { s with trained := false }) }.putB F.OPORT_PORT_STS_TRAINING
    (d.portTrains p && d.enabled .oport p && (!d.actFlag F.OPORT_CFG_SBAND_EN p || d.flag F.OPORT_PORT_STS_SINK p)) p

/-- A port whose binding, link or format changed trains again (R254, R256). -/
def portApplied (old d : Dev) (p : Nat) : Dev :=
  let a := pageAddr .oport p 0
  if actDiff old d (a + 0x800) || actDiff old d (a + 0x804) then d.portTrain p else d

/-- R267: a sender that a hand disables, or moves to another head, stops at the latch that applies it, which is between two
frames. -/
def sendersApplied (old d : Dev) : Dev :=
  (List.range 64).foldl (fun d s =>
    let i := s / 16
    let k := s % 16
    if d.flag F.SENDV_STS_SENDING i k
        && (d.act F.SENDV_CFG_EN i k = 0 || old.act F.SENDV_CFG_HEAD i k ≠ d.act F.SENDV_CFG_HEAD i k) then
      d.put F.SENDV_STS_SENDING 0 i k
    else d) d

/-- R168, R171, R308: the recorder's and the witness ring at the apply time. -/
def ringsApplied (old d : Dev) : Dev :=
  let d := if old.act F.RECORDER_RING_SLABS_SLABS ≠ d.act F.RECORDER_RING_SLABS_SLABS
      ∨ old.act F.RECORDER_CFG_PACK ≠ d.act F.RECORDER_CFG_PACK then d.recEmpty.recHeld else d
  let d := if !old.actFlag F.RECORDER_CFG_EN && d.actFlag F.RECORDER_CFG_EN then d.recNeedKeys else d
  if old.act F.WITCHAIN_WRING_SLABS_SLABS 64 = d.act F.WITCHAIN_WRING_SLABS_SLABS 64 then d
  else
    let d := d.witSkip (d.get64 F.WITCHAIN_NEXT_COUNTER_LO 64 - (d.get64 F.WITCHAIN_HANDED_LO 64 + 1))
    let next := d.get64 F.WITCHAIN_NEXT_COUNTER_LO 64
    ({ d.put64 F.WITCHAIN_RING_BASE_LO next 64 with witLost := [] } : Dev).put64 F.WITCHAIN_HANDED_LO (next - 1) 64

/-- R352: a port whose mode changed loses its interfaces until they come up anew. -/
def nportApplied (old d : Dev) (p : Nat) : Dev :=
  if old.act F.NPORT_PORT_CFG_MODE p = d.act F.NPORT_PORT_CFG_MODE p then d
  else (List.range 4).foldl (fun d s => d.netDrop (4 * p + s)) d

/-- Everything that follows when active words have changed from `old`; `as` are the hand words applied. -/
def applied (old d : Dev) (as : List Nat) : Dev :=
  let insts (b : Blk) : List Nat := as.foldl (fun l a =>
    match decodePage a with
    | some r => if r.blk = b then addOnce l r.inst else l
    | none => l) []
  let d := (insts .layer).foldl (fun d l => layerApplied old d l) d
  let d := (insts .head).foldl trumpApplied d
  let d := (insts .ingest).foldl (fun d n => ctxApplied old d n) d
  let d := (insts .mlane).foldl (fun d n => bondApplied old (laneApplied old d n) n) d
  let d := (insts .nlane).foldl (fun d n => laneApplied old d (96 + n)) d
  let d := (insts .oport).foldl (fun d p => portApplied old d p) d
  let d := (insts .nport).foldl (fun d p => nportApplied old d p) d
  (insts .sendT).foldl (fun d i => (List.range 16).foldl (fun d s => senderApplied old d (16 * (i - 4) + s)) d) d

/-! Domains that apply. -/

/-- The words a domain applies (R275), but those of instances that take no part (R268, R442). -/
def domWords (d : Dev) (x : Dom) : List Nat :=
  d.handAddrs.filter (fun a => d.domOf a = x && !d.hand.absent.contains (a / 0x1000))

/-- Slabs change hands when the hand is done: decreases are given up (R156, R277). -/
def handDecrease (d : Dev) : Dev :=
  d.hand.slabs.foldl (fun d s => if s.2.2 < s.2.1 then d.shrinkMap s.1 s.2.2 else d) d

/-- Talon increases are released (R279). -/
def handRelease (d : Dev) : Dev :=
  (d.hand.slabs.foldl (fun d s =>
    if s.2.2 > s.2.1 then d.setMap s.1 ((d.map s.1).take s.2.1) else d) d).fillEmpty

/-- R277: the last domain has applied. -/
def handFinish (d : Dev) : Dev :=
  let hs := d.hand
  if !hs.pending || !hs.dealt || hs.done.isNone || !hs.heads.isEmpty || !hs.ctxs.isEmpty || hs.rest then d
  else
    let d := ((d.put64 F.DEAL_DONE_TIME_LO d.house).put F.DEAL_EPOCH_ACTIVE hs.epoch)
    let held := d.get F.DEAL_HELD_HEADS_LO ≠ 0 ∨ d.get F.DEAL_HELD_HEADS_HI ≠ 0 ∨ hs.lateAt.isSome
    let d := if hs.tooLate then ((d.put F.DEAL_STS_OUTCOME ocTooLate).count F.DEAL_TOO_LATES).irq .deal 0 0 6
      else if held then ((d.put F.DEAL_STS_OUTCOME ocHeld).count F.DEAL_HELDS).irq .deal 0 0 3
      else (d.put F.DEAL_STS_OUTCOME ocApplied).irq .deal 0 0 2
    { d.handDecrease.copyActive with handLock := false, hand := {}, relBy := d.house + hs.tslow }

/-- R278, R279: the hand is folded: no domain applies it, and its checks end. What the host wrote before its seal stays
written (R18). -/
def handFold (d : Dev) (cause : Nat) : Dev :=
  let d := d.handRelease.put F.DEAL_STS_CHECKING 0
  let d := { d with written := d.written ++ d.hand.geometry.filter (fun a => !d.written.contains a) }
  let d := (((d.put F.DEAL_STS_OUTCOME ocFolded).put F.DEAL_STS_FOLD_CAUSE cause).count F.DEAL_FOLDS).irq .deal 0 0 4
  { d with handLock := false, hand := {}, heads := d.heads.map (fun p => (p.1, { p.2 with take := false, ppsDue := none })) }

/-- The hand may be taken: sealed, completed and dealt. -/
def handReady (d : Dev) : Bool := d.hand.pending && d.hand.dealt && d.hand.done.isSome && !d.hand.missed

/-- A context applies its part (R113, R276). -/
def applyCtx (d : Dev) (n : Nat) : Dev :=
  if d.handReady && d.hand.ctxs.contains n then
    let as := d.domWords (.ctx n)
    let d' := { d with hand := { d.hand with ctxs := d.hand.ctxs.filter (· ≠ n), taken := true } }
    (applied d (d'.copyHand as) as).handFinish
  else d

/-- The frame boundary of a context (R113): it applies the hand at the first one at or after the apply time. -/
def ctxBoundary (d : Dev) (n : Nat) : Dev := if d.house ≥ d.hand.apply then d.applyCtx n else d

/-- R113: contexts not in LOCKED apply at the apply time; so do contexts whose kind has no frames (log entry 16). -/
def ctxSweep (d : Dev) : Dev :=
  if d.handReady && d.house ≥ d.hand.apply then
    (d.hand.ctxs.filter (fun n =>
      d.ctxState n ≠ stLocked || d.ctxKind n = 0 || (7 ≤ d.ctxKind n && d.ctxKind n ≤ 9))).foldl applyCtx d
  else d

/-- R276: a head is held at its latch. -/
def markHeld (d : Dev) (h : Nat) : Dev :=
  let f := if h < 32 then F.DEAL_HELD_HEADS_LO else F.DEAL_HELD_HEADS_HI
  d.putAt (f.addr 0 0 0) (h % 32) 1 1

/-- A head applies its part (R276). Its own latch is the edge; a head that runs no timing applies at the apply
time (R275). -/
def applyHead (d : Dev) (h : Nat) : Dev :=
  let d' := { d with hand := { d.hand with heads := d.hand.heads.filter (· ≠ h), taken := true } }
  let as := d'.domWords (.head h)
  let n := sendersApplied d (applied d (keepWords d (d'.copyHand as) as (some h)) as)
  n.updHeadSt h (fun s =>
    { s with pps := if d'.get F.HEAD_DSC_CTL_DSC_EN h = 0 then none else s.ppsDue.orElse (fun _ => s.pps), ppsDue := none })

/-- R275: at the apply time, or at the seal's completion when later: the apply-time domain, the contexts that
have no frame boundary to wait for, and the heads that run no timing. -/
def applyTime (d : Dev) : Dev :=
  if !d.handReady || d.house < d.hand.apply then d
  else
    let d := if d.hand.rest then
        let d' := { d with hand := { d.hand with rest := false, taken := true } }
        let as := d'.domWords .rest
        let n := applied d (keepWords d (d'.copyHand as) as none) as
        let n := ringsApplied d n
        let n := audioApplied d n
        timeApplied d n
      else d
    let d := d.ctxSweep
    let d := (d.hand.heads.filter (fun h => !(d.headSt h).running)).foldl
      (fun d h => ((d.applyHead h).placeLayers h).updHeadSt h (fun s => { s with epoch := d.hand.epoch })) d
    d.handFinish

end Dev

/-- A meaning that may take a context out of LOCKED: a hand whose apply time has passed then applies there. -/
def State.onCtx (s : State) (f : Dev → Dev) : Host.Outcome State Fault Refusal := s.onDev (fun d => (f d).ctxSweep)

end Sys2Proof.Machine
end

