-- ==== Sys2Proof/Machine/Ports.lean ====
section
/-! DEFINITION. Output ports (R254 to R261, R266): what a port shows, its switches, the conversion of the head
raster to a port's and a sender's format, and the sideband transactions. -/
namespace Sys2Proof.Machine

/-- What a port shows. -/
def showIdle : Nat := 0
def showSafe : Nat := 1
def showHead : Nat := 2

namespace Dev

def port (d : Dev) (p : Nat) : PortSt := sget (fun _ => {}) d.ports p
def setPort (d : Dev) (p : Nat) (x : PortSt) : Dev := { d with ports := sset (fun _ => {}) d.ports p x }

/-- Media lanes of a port. -/
def portLanes (d : Dev) (p : Nat) : List Nat :=
  (List.range (d.act F.OPORT_CFG_LANE_COUNT p)).map (· + d.act F.OPORT_CFG_FIRST_LANE p)

/-- The link of a port can carry pixels: enabled, its lanes drive in DATA mode (R100, R102), its sink is there, and it is
trained. -/
def portLink (d : Dev) (p : Nat) : Bool :=
  d.act F.OPORT_CFG_PROTOCOL p ≠ 0 && d.enabled .oport p
    && (d.portLanes p).all (fun n => d.txAllowed n && !(d.lane n).txIdle && d.act F.MLANE_TX_CFG_TX_MODE n = 0)
    && (!d.actFlag F.OPORT_CFG_SBAND_EN p || d.flag F.OPORT_PORT_STS_SINK p)
    && (!d.portTrains p || (d.port p).trained)

/-- The witness safe state of a head (R304). -/
def witSafe (d : Dev) (h : Nat) : Bool := d.flag F.WITNESS_WIT_STATE_SAFE h

/-- What a port shows now (R260, R261). -/
def portWant (d : Dev) (p : Nat) : Nat :=
  let h := d.act F.OPORT_CFG_HEAD p
  let hs := d.headSt h
  if !d.portLink p || !hs.running || hs.hold = 1 then showIdle
  else if d.fenced .head h || d.witSafe h || hs.hold = 2 then
    (if d.actFlag F.OPORT_CFG_FENCE_ACTION p then showIdle else showSafe)
  else showHead

/-- A port switches (R257, R261, R266). -/
def portSwitch (d : Dev) (p new : Nat) : Dev :=
  let s := d.port p
  if s.shows = new then d
  else
    let d := d.setPort p { s with
      shows := new, log := if (d.headSt (d.act F.OPORT_CFG_HEAD p)).running then (d.house, s.shows) :: s.log else [] }
    let d := ((d.putB F.OPORT_PORT_STS_LINK_UP (new = showHead) p).putB F.OPORT_PORT_STS_SAFE (new = showSafe) p).putB
      F.OPORT_PORT_STS_IDLE (new = showIdle) p
    let d := if new = showSafe then
        (d.irq .oport p 0 2).updHeadSt (d.act F.OPORT_CFG_HEAD p) (fun h => { h with safeSeen := true })
      else d
    let d := if s.shows = showSafe then d.irq .oport p 0 3 else d
    let d := if s.shows = showSafe ∧ new = showHead then d.count F.OPORT_SAFE_EVENTS p else d
    if new = showHead then d.irq .oport p 0 0 else d

/-- Every port shows what it should. -/
def portsRefresh (d : Dev) : Dev := (List.range 96).foldl (fun d p => d.portSwitch p (d.portWant p)) d

/-- The clone group of a head (R254). -/
def headPorts (d : Dev) (h : Nat) : List Nat :=
  (List.range 96).filter (fun p => d.act F.OPORT_CFG_PROTOCOL p ≠ 0 && d.act F.OPORT_CFG_HEAD p = h)

/-! Conversion of the raster (R256, R259). -/

/-- The port matrix on 12-bit values (R256). -/
def omatCoef (d : Dev) (p k : Nat) : Int :=
  match k with
  | 0 => sgn 16 (d.act F.OPORT_OMAT_0_COEF_LO p) | 1 => sgn 16 (d.act F.OPORT_OMAT_0_COEF_HI p)
  | 2 => sgn 16 (d.act F.OPORT_OMAT_1_COEF_LO p) | 3 => sgn 16 (d.act F.OPORT_OMAT_1_COEF_HI p)
  | 4 => sgn 16 (d.act F.OPORT_OMAT_2_COEF_LO p) | 5 => sgn 16 (d.act F.OPORT_OMAT_2_COEF_HI p)
  | 6 => sgn 16 (d.act F.OPORT_OMAT_3_COEF_LO p) | 7 => sgn 16 (d.act F.OPORT_OMAT_3_COEF_HI p)
  | _ => sgn 16 (d.act F.OPORT_OMAT_4_COEF_LO p)

def portMatrix (d : Dev) (p : Nat) (c : List Nat) : List Nat :=
  if d.actFlag F.OPORT_FORMAT_MATRIX_EN p then
    (List.range 3).map (matrixComp (d.omatCoef p) (fun k => sgn 13 (d.act F.OPORT_OMAT_OFF_PRE p k))
      (fun k => sgn 13 (d.act F.OPORT_OMAT_OFF_POST p k)) 4095 (fun k => c.getD k 0))
  else c

end Dev

/-- The fixed BT.709 narrow-range matrix of a sender (R259). -/
def senderCoef (k : Nat) : Int := [1490, 5013, 506, -821, -2763, 3585, 3585, -3256, -329].getD k 0
def senderMatrix (c : List Nat) : List Nat :=
  (List.range 3).map (matrixComp senderCoef (fun _ => 0) (fun k => if k = 0 then 256 else 2048) 4095 (fun k => c.getD k 0))

/-- One line of 12-bit pixels in a link format (R256): chroma to 4:2:2 by the 1-2-1 rule (R188), then the depth
(R128). A 4:2:2 pixel carries luma and, at even positions Cb and Cr of its pair. -/
def linkLine (s422 : Bool) (bits w : Nat) (px : Nat → List Nat) : List (List Nat) :=
  let q (v : Nat) := depthDown v 12 bits
  let g : Img := ⟨w, 1, fun c x _ => (px x).getD c 0⟩
  (List.range w).map (fun x =>
    if s422 then
      (if x % 2 = 0 then [q ((px x).getD 0 0), q (chromaDown false g 1 (x / 2) 0), q (chromaDown false g 2 (x / 2) 0)]
       else [q ((px x).getD 0 0)])
    else (px x).map q)

namespace Dev

/-- A line of a port's format. -/
def portLine (d : Dev) (p w : Nat) (px : Nat → List Nat) : List (List Nat) :=
  linkLine (d.act F.OPORT_FORMAT_SAMPLING p = 2) (8 + 2 * d.act F.OPORT_FORMAT_DEPTH p) w (fun x => d.portMatrix p (px x))

/-- SAFE_COLOUR and UNDERRUN_COLOUR. -/
def safeColour (d : Dev) (p : Nat) : List Nat :=
  [d.act F.OPORT_SAFE_RG_RED p, d.act F.OPORT_SAFE_RG_GREEN p, d.act F.OPORT_SAFE_B_BLUE p]
def underColour (d : Dev) (h : Nat) : List Nat :=
  [d.act F.HEAD_UNDERRUN_RG_RED h, d.act F.HEAD_UNDERRUN_RG_GREEN h, d.act F.HEAD_UNDERRUN_B_BLUE h]

/-- The raster as scanned out: pixels lost to underrun show UNDERRUN_COLOUR (R253). -/
def scanPixel (d : Dev) (h : Nat) (hs : HeadSt) (x y : Nat) : List Nat :=
  if hs.under.any (fun u => u.1 = y && u.2 ≤ x) then d.underColour h else d.rasterPixel h hs x y

/-- The first line of the present frame that a switch at time `t` reaches (R260). -/
def switchLine (d : Dev) (h : Nat) (hs : HeadSt) (t : Nat) : Nat :=
  let n := d.act F.HEAD_RATE_NUM h * d.act F.HEAD_V_TIMING_VTOTAL h
  let k := d.act F.HEAD_RATE_DEN h * 1000000000
  if t ≤ hs.l0 then 0 else ((t - hs.l0) * n + k - 1) / max 1 k

/-- What a port shows in a line of the present frame: what stood before the earliest of the switches that come after it. -/
def shownIn (d : Dev) (h : Nat) (hs : HeadSt) (s : PortSt) (y : Nat) : Nat :=
  s.log.foldl (fun v e => if y < d.switchLine h hs e.1 then e.2 else v) s.shows

/-- Lines in the order a port sends them: with PSF an SDI port sends the frame as two segments, its even lines and then its
odd ones (R255; the order is that of the cited standards: PRESUMED, log entry 237). -/
def segmented (d : Dev) (p : Nat) (ls : List (List (List Nat))) : List (List (List Nat)) :=
  let proto := d.act F.OPORT_CFG_PROTOCOL p
  if (proto = 4 || proto = 5) && d.actFlag F.OPORT_LINK_PSF p then
    let half (k : Nat) := (ls.zipIdx.filter (fun q => q.2 % 2 = k)).map (·.1)
    half 0 ++ half 1
  else ls

/-- How a port sends its raster (R255): FEC on DisplayPort 8b/10b links, and ST 352 and line CRCs on SDI. -/
def portHow (d : Dev) (p : Nat) : PortLink :=
  let proto := d.act F.OPORT_CFG_PROTOCOL p
  let rate := d.act F.OPORT_LINK_RATE p
  let sdi := proto = 4 || proto = 5
  { protocol := proto, rate := rate, fec := proto = 3 && rate < 4 && d.actFlag F.OPORT_LINK_FEC p, st352 := sdi, lineCrc := sdi
    dsc := d.actFlag F.OPORT_CFG_DSC_USE p }

/-- R256, R258: with DSC_USE the lines of a port are encoded by its head's DSC encoder, at the head's settings and the port's
depth. -/
def dscLines (d : Dev) (h p : Nat) (ls : List (List (List Nat))) : List (List (List Nat)) :=
  if d.actFlag F.OPORT_CFG_DSC_USE p then
    Config.dscEncode [d.act F.HEAD_DSC_CTL_BPP_X16 h, d.act F.HEAD_DSC_SLICE_SLICE_W h, d.act F.HEAD_DSC_SLICE_SLICE_H h
      , d.act F.OPORT_FORMAT_SAMPLING p, d.act F.OPORT_FORMAT_DEPTH p] ls
  else ls

/-- The frame a port sent, when its active lines have ended; a token goes to each group of its lanes (R48, log entry 229). -/
def portFrame (d : Dev) (h : Nat) (hs : HeadSt) (p : Nat) : Dev :=
  let s := d.port p
  let w := d.act F.HEAD_H_TIMING_HACTIVE h
  let ht := d.act F.HEAD_V_TIMING_VACTIVE h
  let state (y : Nat) : Nat := d.shownIn h hs s y
  let d := d.setPort p { s with log := [] }
  if (List.range ht).all (fun y => state y = showIdle) then d
  else
    let d := ((d.portLanes p).map (· / 8)).dedup.foldl (fun d g => d.chanPass (26 + h / 16) g) d
    d.emit (.raster p (hs.frame % 2 ^ 32) (d.portHow p) (d.dscLines h p (d.segmented p ((List.range ht).map (fun y =>
      if state y = showIdle then []
      else d.portLine p w (fun x => if state y = showSafe then d.safeColour p else d.scanPixel h hs x y))))))

/-! Hot-plug, training and sideband transactions (R257, R266). -/

/-- R257: hot-plug is deasserted: the port is electrically idle. -/
def hpdLow (d : Dev) (sb : Nat) : Dev :=
  let d := { d with sbHpd := d.sbHpd.filter (· ≠ sb) }
  ((d.sbandPorts sb).foldl (fun d p =>
    if d.flag F.OPORT_PORT_STS_SINK p then
      ((((d.put F.OPORT_PORT_STS_SINK 0 p).setPort p { d.port p with trained := false }).put
        F.OPORT_PORT_STS_TRAINING 0 p).count F.OPORT_LINK_DOWN p).irq .oport p 0 1
    else d) d).portsRefresh

/-- R257: hot-plug returns: the port retrains. -/
def hpdHigh (d : Dev) (sb : Nat) : Dev :=
  let d := { d with sbHpd := addOnce d.sbHpd sb }
  ((d.sbandPorts sb).foldl (fun d p => d.portTrain p) d).portsRefresh

/-- R266: link training completes. -/
def linkUp (d : Dev) (p : Nat) : Dev :=
  if d.portTrains p ∧ d.enabled .oport p ∧ (!d.actFlag F.OPORT_CFG_SBAND_EN p ∨ d.flag F.OPORT_PORT_STS_SINK p) then
    ((d.setPort p { d.port p with trained := true }).put F.OPORT_PORT_STS_TRAINING 0 p).portsRefresh
  else d

/-- R266: a sideband transaction starts; during training, and on a fenced port, it is refused (R451). -/
def sbGo (d : Dev) (p : Nat) (kind read : Bool) (len addr : Nat) : Dev :=
  let d := (((d.putB F.OPORT_SB_CMD_KIND kind p).putB F.OPORT_SB_CMD_READ read p).put F.OPORT_SB_CMD_LEN len p).put
    F.OPORT_SB_CMD_ADDR addr p
  if d.flag F.OPORT_SB_STS_BUSY p then d
  else if d.flag F.OPORT_PORT_STS_TRAINING p || d.fenced .oport p then
    (d.put F.OPORT_SB_STS_RESULT 3 p).irq .oport p 0 4
  else d.put F.OPORT_SB_STS_BUSY 1 p

/-- R266: a transaction ends: its result, and the bytes read. -/
def sbDone (d : Dev) (p result : Nat) (bytes : List Byte) : Dev :=
  if !d.flag F.OPORT_SB_STS_BUSY p then d
  else
    let n := d.get F.OPORT_SB_CMD_LEN p + 1
    let bs := bytes.take n
    let d := if d.flag F.OPORT_SB_CMD_READ p ∧ result = 0 then
        (List.range 4).foldl (fun d k =>
          let part := (bs.drop (4 * k)).take 4
          if part.isEmpty then d else d.put F.OPORT_SB_DATA (leVal part) p k) d
      else d
    ((d.put F.OPORT_SB_STS_BUSY 0 p).put F.OPORT_SB_STS_RESULT result p).irq .oport p 0 4

end Dev
end Sys2Proof.Machine
end

