-- ==== Sys2Proof/Machine/HeadTime.lean ====
section
/-! DEFINITION. The timing generator of a head (R236 to R250): line targets, the length of a frame, retiming,
jumps, the phase error and the reference states. -/
namespace Sys2Proof.Machine

/-- REF_STATE codes (R241). -/
def refFree : Nat := 0
def refLocked : Nat := 1
def refSlewing : Nat := 2
def refHoldover : Nat := 3
def refJumping : Nat := 4

/-- The timing fields of a head, read through a field reader (sealed or active). -/
structure Timing where
  hact : Nat
  htot : Nat
  vact : Nat
  vtot : Nat
  vss : Nat
  vse : Nat
  num : Nat
  den : Nat
  phase : Int
  mode : Nat
  mult : Nat
  pf : Nat
deriving DecidableEq, Repr

def timingOf (g : Fld → Nat) : Timing :=
  { hact := g F.HEAD_H_TIMING_HACTIVE, htot := g F.HEAD_H_TIMING_HTOTAL, vact := g F.HEAD_V_TIMING_VACTIVE
    vtot := g F.HEAD_V_TIMING_VTOTAL, vss := g F.HEAD_VSYNC_VS_START, vse := g F.HEAD_VSYNC_VS_END
    num := g F.HEAD_RATE_NUM, den := g F.HEAD_RATE_DEN
    phase := sgn 64 (g F.HEAD_PHASE_LO + 2 ^ 32 * g F.HEAD_PHASE_HI), mode := g F.HEAD_REF_CTL_REF_MODE
    mult := g F.HEAD_REF_CTL_REF_MULT, pf := g F.HEAD_PREFETCH_PREFETCH_LINES }

/-- Capacity of the output line buffer in lines (R251). -/
def Timing.cap (g : Timing) : Nat := if g.hact = 0 then 0 else 327680 / ((g.hact * 9 + 1) / 2)

/-- The timing rules of R236 that concern one head alone. -/
def Timing.ok (g : Timing) : Bool :=
  64 ≤ g.hact && g.hact ≤ 7680 && 32 ≤ g.vact && g.vact ≤ 4320 && g.htot % 4 = 0 && g.hact + 32 ≤ g.htot
    && g.vact + g.pf + 1 ≤ g.vtot && g.vact < g.vss && g.vss < g.vse && g.vse ≤ g.vtot && g.num ≠ 0 && g.den ≠ 0

/-- Nanoseconds of `n` lines with the frequency offset by `delta` ppb, truncated (R239). -/
def Timing.lines (g : Timing) (n : Nat) (delta : Int) : Nat :=
  n * g.den * 1000000000000000000 / max 1 (g.num * g.vtot * ((1000000000 : Int) + delta).toNat)

/-- s(n, 0): the target start of frame `n` (R237). -/
def Timing.target (g : Timing) (n : Int) : Int :=
  g.phase + (n * g.vtot * g.den * 1000000000) / max 1 ((g.num * g.vtot : Nat) : Int)

/-- The first frame whose target lies at or after `x`, not below frame 0 (R247). -/
def Timing.firstAt (g : Timing) (x : Int) : Int :=
  let k := (x - g.phase) * g.num / max 1 ((g.den * 1000000000 : Nat) : Int)
  let c := [k - 1, k, k + 1, k + 2].map (max 0)
  (c.find? (fun n => g.target n ≥ x)).getD (max 0 (k + 2))

/-- The first target at or after `x` of a train without an end on either side. -/
def Timing.nextAt (g : Timing) (x : Int) : Int :=
  let k := (x - g.phase) * g.num / max 1 ((g.den * 1000000000 : Nat) : Int)
  ([k - 1, k, k + 1, k + 2].find? (fun n => g.target n ≥ x)).getD (k + 2)

/-- The phase error: a start less its nearest target, wrapped into (-T/2, T/2] (R239). -/
def Timing.error (g : Timing) (x : Int) : Int :=
  let k := max 0 ((x - g.phase) * g.num / max 1 ((g.den * 1000000000 : Nat) : Int))
  let e := x - g.target k
  if 2 * e * g.num > (g.den * 1000000000 : Nat) then x - g.target (k + 1) else e

/-- The same for frames aligned to pulses of the analog reference at `e0` (R242): the targets are those of a
head whose phase counts from the pulse. -/
def Timing.atPulse (g : Timing) (e0 : Nat) : Timing := { g with phase := g.phase + e0 }
def Timing.errorRef (g : Timing) (e0 : Nat) (x : Int) : Int :=
  let h := g.atPulse e0
  let per : Int := max 1 ((g.den * 1000000000 / max 1 g.num : Nat) : Int)
  let back := (h.phase - x) / per + 2
  let h := if x < h.phase then { h with phase := h.target (-back) } else h
  h.error x

namespace Dev

/-- The applied timing of a head. -/
def timing (d : Dev) (h : Nat) : Timing := timingOf (fun f => d.act f h)

/-- δ in force, in ppb; a fenced head's safe-screen timing runs at the nominal rate (R260). -/
def headDelta (d : Dev) (h : Nat) : Int := if d.fenced .head h then 0 else sgn 32 (d.get F.HEAD_FREQ_OFF h)

/-- The reference of a head is valid (R241). -/
def refValid (d : Dev) (h : Nat) : Bool :=
  match d.act F.HEAD_REF_CTL_REF_MODE h with
  | 1 => d.flag F.TIME_STS_LOCKED && !d.flag F.TIME_STS_HOLDOFF
  | 2 => d.actFlag F.TIME_REF_IN_CTL_EN && d.flag F.TIME_REF_STS_PRESENT && !d.flag F.TIME_REF_STS_LOS
      && !d.flag F.TIME_REF_STS_MISMATCH && !d.flag F.TIME_REF_STS_HOLDOFF
  | _ => false

/-- The first target line 0 at or after `x`, and its frame number; none where the reference gives no target. -/
def nextTarget (d : Dev) (h : Nat) (x : Int) : Option (Int × Option Nat) :=
  let g := d.timing h
  match g.mode with
  | 1 =>
    let n := g.firstAt x
    some (g.target n, some n.toNat)
  | 2 =>
    if d.tm.refTrack = 0 then none
    else
      let p := g.atPulse d.tm.refTrack
      some (p.target (p.nextAt x), none)
  | _ => none

/-- The phase error of a head at a line 0. -/
def phaseError (d : Dev) (h t : Nat) : Int :=
  let g := d.timing h
  match g.mode with
  | 1 => g.error t
  | 2 => if d.tm.refTrack = 0 then 0 else g.errorRef d.tm.refTrack t
  | _ => 0

/-- R247: the head starts, or its timing changes, at a latch: `t` is the latch, `start` a virtual one. -/
def retime (d : Dev) (h t : Nat) (start : Bool) : Dev :=
  let g := d.timing h
  let hs := d.headSt h
  let d := if g.mode = 0 then d.put F.HEAD_FREQ_OFF 0 h else d
  let delta := d.headDelta h
  let nom := g.vtot - g.vact
  let line := g.lines 1 delta
  let free := t + g.lines nom delta
  let tgt := if start then (d.nextTarget h ((free : Int) - line / 2 - 1)) else d.nextTarget h ((t + g.lines (g.pf + 1) delta : Nat) : Int)
  let l0 : Nat := if start then free else match tgt with
    | some q => q.1.toNat
    | none => free
  let num : Nat := match tgt with
    | some (_, some n) => n
    | _ => if start then 0 else hs.frame + 1
  let blank := if start then nom else ((l0 - t) * g.num * g.vtot + g.den * 500000000) / max 1 (g.den * 1000000000)
  let d := (d.count F.HEAD_JUMPS h).irq .head h 0 3
  let d := d.put F.HEAD_JUMP_LINES (unsgn 32 ((blank : Int) - nom)) h
  let d := d.put F.HEAD_TIMING_STS_JUMP_PENDING 0 h
  let d := d.put F.HEAD_TIMING_STS_REF_STATE
    (if g.mode = 0 then refFree else if d.get F.HEAD_TIMING_STS_REF_STATE h = refHoldover then refHoldover else refSlewing) h
  let tf := (l0 - t) + g.lines g.vact delta
  d.updHeadSt h (fun s =>
    { s with running := true, virt := false, frame := num, blank := blank, tf := tf, j := t + tf, due := t + tf, jump := none
             lockRun := 0, dstar := if g.mode = 0 then 0 else s.dstar })

/-- R239: δ moves toward its target by at most 100 ppb. -/
def slew (d : Dev) (h : Nat) : Dev :=
  let st := d.get F.HEAD_TIMING_STS_REF_STATE h
  if (st = refLocked ∨ st = refSlewing) ∧ !d.fenced .head h then
    let cur := sgn 32 (d.get F.HEAD_FREQ_OFF h)
    let x := (d.headSt h).dstar - cur
    d.put F.HEAD_FREQ_OFF (unsgn 32 (cur + max (-100) (min 100 x))) h
  else d

/-- The next frame at a latch `t` that retimes nothing: a decided jump is carried out (R246). -/
def nextSpan (d : Dev) (h t : Nat) : Dev :=
  let d := d.slew h
  let g := d.timing h
  let hs := d.headSt h
  let nom := g.vtot - g.vact
  let (blank, skip, d) := match hs.jump with
    | some (x, k) =>
      ((((nom : Int) + x).toNat : Nat), k,
        ((((d.count F.HEAD_JUMPS h).put F.HEAD_JUMP_LINES (unsgn 32 x) h).put F.HEAD_TIMING_STS_JUMP_PENDING 0 h).irq
          .head h 0 3))
    | none => (nom, 0, d)
  let tf := g.lines (blank + g.vact) (d.headDelta h)
  d.updHeadSt h (fun s => { s with frame := s.frame + 1 + skip, blank := blank, tf := tf, j := t + tf, due := t + tf, jump := none })

/-- R246: lines of a jump for a phase error, with the frame numbers skipped. -/
def jumpFor (d : Dev) (h : Nat) (e : Int) : Option (Int × Nat) :=
  let g := d.timing h
  let j := (e.natAbs * g.vtot * g.num + g.den * 500000000) / max 1 (g.den * 1000000000)
  let k := min (g.vss - g.vact - 1) (g.vtot - g.vact - g.pf - 1)
  if j = 0 then none
  else if e < 0 then some ((j : Int), 0)
  else if j ≤ k then some (-(j : Int), 0)
  else some (((g.vtot - j : Nat) : Int), 1)

/-- R239, R241, R244, R245: what a line 0 measures and decides. -/
def lineZero (d : Dev) (h t : Nat) : Dev :=
  let mode := d.act F.HEAD_REF_CTL_REF_MODE h
  if mode = 0 || d.fenced .head h then d
  else
    let e := d.phaseError h t
    let d := d.put F.HEAD_PHASE_ERR (sat32 e) h
    let st := d.get F.HEAD_TIMING_STS_REF_STATE h
    if !d.refValid h then
      if st = refHoldover then d
      else
        let d := ((d.put F.HEAD_TIMING_STS_REF_STATE refHoldover h).count F.HEAD_HOLDOVERS h).irq .head h 0 1
        (d.snapFault 5 .head h).updHeadSt h (fun s => { s with lockRun := 0 })
    else
      let decide_ := (d.headSt h).stepped || st = refHoldover
      let d := if st = refHoldover then d.irq .head h 0 2 else d
      let d := d.updHeadSt h (fun s => { s with stepped := false })
      let win : Int := d.act F.HEAD_SLEW_CTL_SLEW_WINDOW_US h * 1000
      let jump := if decide_ && d.actFlag F.HEAD_REF_CTL_POLICY h && (e > win || e < -win) then d.jumpFor h e else none
      match jump with
      | some j =>
        ((d.put F.HEAD_TIMING_STS_REF_STATE refJumping h).put F.HEAD_TIMING_STS_JUMP_PENDING 1 h).updHeadSt h
          (fun s => { s with jump := some j, lockRun := 0 })
      | none =>
        let top : Int := d.act F.HEAD_SLEW_CTL_SLEW_PPM h * 1000
        let run := if -100 ≤ e ∧ e ≤ 100 then min 16 ((d.headSt h).lockRun + 1) else 0
        let d := d.updHeadSt h (fun s => { s with dstar := max (-top) (min top e), lockRun := run })
        let new := if run ≥ 16 then refLocked else refSlewing
        let d := if new = refLocked ∧ st ≠ refLocked then d.irq .head h 0 0 else d
        d.put F.HEAD_TIMING_STS_REF_STATE new h

/-- The sample point of a head for its next latch: HAND_GUARD line periods before it (R275). -/
def samplePoint (d : Dev) (h : Nat) : Nat :=
  (d.headSt h).due - (d.timing h).lines (d.get F.DEAL_CFG_HAND_GUARD) (d.headDelta h)

/-- The sample point has come; and the hand that a head meets there is one that it takes: completed by then, and its next
latch at or after the apply time (R276). -/
def samplePast (d : Dev) (h : Nat) : Bool := d.samplePoint h ≤ d.house
def sampleTakes (d : Dev) (h : Nat) : Bool :=
  d.hand.done.elim false (fun t => t ≤ d.samplePoint h) && d.hand.apply ≤ (d.headSt h).due

/-- Some domain takes the hand at the present edge: a head whose sample point it is, or the domains of the apply time (R275,
R278). -/
def takesNow (d : Dev) : Bool :=
  d.handReady && ((d.hand.rest && d.hand.apply ≤ d.house)
    || d.hand.heads.any (fun h => (d.headSt h).running && d.samplePoint h = d.house && d.sampleTakes h))

end Dev
end Sys2Proof.Machine
end

