-- ==== Sys2Proof/Machine/HeadSelect.lean ====
section
/-! DEFINITION. What a head decides at its latch: the place of its layers (R210), frame selection (R165, R201 to
R203), geometry (R211), suppression and judgement, meld states (R225 to R228) and the lip-sync (R346). -/
namespace Sys2Proof.Machine
namespace Dev

/-- A layer is left out of the blend: fenced, disabled, or never enabled (R230, R67). -/
def layerOut (d : Dev) (l : Nat) : Bool := !d.enabled .layer l

/-! Frame selection. -/

/-- Complete frames a layer may select, the latest first (R211). -/
def layerFrames (d : Dev) (l : Nat) : List Pic :=
  if d.actFlag F.LAYER_ENG_CTL_ENG_EN l then (d.layer l).prepared else (d.ctx (d.act F.LAYER_SRC_CTX_CONTEXT l)).pubs

/-- The most recent frame complete by `t` less `m` (R201). -/
def pickFrame (fs : List Pic) (t m : Nat) : Option Pic := fs.find? (fun p => p.time + m ≤ t)

/-- The frame in progress a chase layer selects (R165). -/
def chaseFrame (d : Dev) (l : Nat) : Option Pic :=
  let c := d.act F.LAYER_SRC_CTX_CONTEXT l
  if d.actFlag F.LAYER_CHASE_CTL_CHASE_EN l && !d.actFlag F.LAYER_ENG_CTL_ENG_EN l && d.ctxState c = stLocked then
    match (d.ctx c).cur with
    | some f => if f.drop then none else some f.pic
    | none => none
  else none

/-- What makes a layer's binding, source or engine assignment (R202). -/
def selKeyOf (d : Dev) (h k l : Nat) : List Nat :=
  [h, k, d.act F.LAYER_SRC_CTX_CONTEXT l, d.act F.LAYER_ENG_CTL_ENG_EN l, d.act F.LAYER_ENG_CTL_ENGINE l,
   d.act F.LAYER_ENG_CTL_ENG_COUNT l]

/-- Repeat and drops of a new selection after the previous one (R202): complete frames after the old and before
the new one. A frame that was chased and then discarded left its number to the next. -/
def selCount (fs : List Pic) (old : Option (Nat × Nat)) (new : Option Pic) : Bool × Nat :=
  match old, new with
  | some o, some p =>
    if o = (p.seq, p.start) then (true, 0)
    else
      let again := fs.any (fun q => q.seq = o.1 && q.start ≠ o.2 && q.seq < p.seq)
      (false, p.seq - o.1 - 1 + (if again then 1 else 0))
  | _, _ => (false, 0)

/-! Geometry. -/

/-- The drawn rectangle of a layer for a picture, as source position, place and size (R203, R211). -/
def layerRect (d : Dev) (h l : Nat) (pic : Option Pic) : Nat × Nat × Nat × Nat × Nat × Nat :=
  let w : Int := d.act F.HEAD_H_TIMING_HACTIVE h
  let ht : Int := d.act F.HEAD_V_TIMING_VACTIVE h
  let sx := d.act F.LAYER_SRC_XY_SRC_X l
  let sy := d.act F.LAYER_SRC_XY_SRC_Y l
  let sw := d.act F.LAYER_SRC_WH_SRC_W l
  let sh := d.act F.LAYER_SRC_WH_SRC_H l
  let dx := sgn 16 (d.act F.LAYER_DST_XY_DST_X l)
  let dy := sgn 16 (d.act F.LAYER_DST_XY_DST_Y l)
  let dw := d.act F.LAYER_DST_WH_DST_W l
  let dh := d.act F.LAYER_DST_WH_DST_H l
  if d.actFlag F.LAYER_ENG_CTL_ENG_EN l || d.actFlag F.LAYER_COMP_CTL_FIT l then
    let pw := pic.elim dw (·.width)
    let ph := pic.elim dh (·.height)
    placeRect 0 0 0 0 pw ph dx dy (max 0 dx) (max 0 dy) (min w (dx + dw)) (min ht (dy + dh))
  else
    let x1 := match pic with | some p => min (sx + sw) p.width | none => sx + dw
    let y1 := match pic with | some p => min (sy + sh) p.height | none => sy + dh
    placeRect sx sy sx sy x1 y1 dx dy 0 0 w ht

/-- The drawn rectangle of the trump plane (R220). -/
def trumpRect (d : Dev) (h : Nat) (pic : Option Pic) : Nat × Nat × Nat × Nat × Nat × Nat :=
  let sx := d.act F.HEAD_TRUMP_SRC_XY_SRC_X h
  let sy := d.act F.HEAD_TRUMP_SRC_XY_SRC_Y h
  let x1 := sx + d.act F.HEAD_TRUMP_SRC_WH_SRC_W h
  let y1 := sy + d.act F.HEAD_TRUMP_SRC_WH_SRC_H h
  placeRect sx sy sx sy (pic.elim x1 (fun p => min x1 p.width)) (pic.elim y1 (fun p => min y1 p.height))
    (sgn 16 (d.act F.HEAD_TRUMP_DST_XY_DST_X h)) (sgn 16 (d.act F.HEAD_TRUMP_DST_XY_DST_Y h)) 0 0
    (d.act F.HEAD_H_TIMING_HACTIVE h) (d.act F.HEAD_V_TIMING_VACTIVE h)

/-- The heartbeat patch cut out of a context's picture (R32). -/
def cropOf (d : Dev) (c : Nat) : Option (Nat × Nat) :=
  if d.actFlag F.INGEST_FRESH_CTL_HB_CROP c then
    some (d.act F.INGEST_HB_POS_HB_X c, d.act F.INGEST_HB_POS_HB_Y c)
  else none

/-- The plane of a slot at a latch `t`, and what its selection counts (R201 to R205). -/
def slotPlane (d : Dev) (h t k l : Nat) : Plane × Dev :=
  if !((d.layer l).head = some h) then ({ slot := k, layer := l, held := true }, d)
  else
    let c := d.act F.LAYER_SRC_CTX_CONTEXT l
    let fs := d.layerFrames l
    let m := (d.timing h).lines (d.act F.LAYER_SELECT_MARGIN l) (d.headDelta h)
    let ch := d.chaseFrame l
    let pic := ch.orElse (fun _ => pickFrame fs t m)
    let s := d.layer l
    let key := d.selKeyOf h k l
    let cnt := if s.selKey = key then selCount fs s.sel pic else (false, 0)
    let d := d.updLayer l (fun s => { s with selKey := key, sel := pic.map (fun p => (p.seq, p.start)) })
    let d := match pic with
      | some p => d.put F.LAYER_SEL_FRAME p.frame l
      | none => d.irq .layer l 0 3
    let d := ((d.putB F.LAYER_SEL_STS_REPEAT cnt.1 l).putB F.LAYER_SEL_STS_NO_FRAME pic.isNone l).put
      F.LAYER_SEL_STS_DROPPED (min cnt.2 255) l
    let d := (d.count F.LAYER_REPEATS l 0 (if cnt.1 then 1 else 0)).count F.LAYER_DROPS l 0 cnt.2
    let d := if s.refit && pic.isSome && !d.actFlag F.LAYER_ENG_CTL_ENG_EN l then d.replanned l else d
    let r := d.layerRect h l pic
    let p : Plane :=
      { slot := k, layer := l, ctx := c, leftOut := d.layerOut l, pic := pic, fall := if ch.isSome then d.latest c else none
        chase := ch.isSome, sx := r.1, sy := r.2.1, x := r.2.2.1, y := r.2.2.2.1, w := r.2.2.2.2.1, h := r.2.2.2.2.2
        forced := d.ctxForced c + d.layerForced l, group := d.groupAt h k, crop := d.cropOf c
        repeated := cnt.1, drops := cnt.2 }
    let p := { p with opaq := d.occluder h p }
    let d := ((d.putB F.LAYER_COMP_STS_OPAQUE p.opaq l).putB F.LAYER_COMP_STS_LEFT_OUT p.leftOut l)
    let d := ((d.putB F.LAYER_CHASE_STS_CHASING ch.isSome l).put F.LAYER_CHASE_STS_SLIPPED 0 l).count F.LAYER_CHASE_FRAMES l 0
      (if ch.isSome then 1 else 0)
    let d := ((d.put F.LAYER_DRAWN_XY_X p.x l).put F.LAYER_DRAWN_XY_Y p.y l).put F.LAYER_DRAWN_WH_W p.w l
    (p, d.put F.LAYER_DRAWN_WH_H p.h l)

/-- The trump plane at a latch (R220, R24). -/
def trumpPlane (d : Dev) (h t : Nat) : Option Plane :=
  if !d.actFlag F.HEAD_TRUMP_CTL_EN h then none
  else
    let c := d.act F.HEAD_TRUMP_CTL_CONTEXT h
    let pic := pickFrame (d.ctx c).pubs t ((d.timing h).lines 1 (d.headDelta h))
    let r := d.trumpRect h pic
    let p : Plane :=
      { slot := 16, ctx := c, pic := pic, sx := r.1, sy := r.2.1, x := r.2.2.1, y := r.2.2.2.1, w := r.2.2.2.2.1
        h := r.2.2.2.2.2, forced := d.ctxForced c + d.trumpForced h, crop := d.cropOf c }
    some { p with opaq := d.occluder h p }

/-- The planes of a head, bottom to top. -/
def buildPlanes (d : Dev) (h t : Nat) : List Plane × Dev :=
  let r := (d.activeSlots h).foldl (fun (acc : List Plane × Dev) q =>
    let x := acc.2.slotPlane h t q.1 q.2
    (acc.1 ++ [x.1], x.2)) ([], d)
  (r.1 ++ (r.2.trumpPlane h t).toList, r.2)

/-- R223, R224, R19 to R21: planes judged from the top, each under the occluders above it. -/
def judgePlanes (d : Dev) (h j : Nat) (ps : List Plane) : List Plane :=
  (ps.foldr (fun p (acc : List Plane × List Plane) =>
    let q := d.judge h j acc.2 p
    (q :: acc.1, if q.opaq then q :: acc.2 else acc.2)) ([], [])).1

/-! Meld groups. -/

def meldSt (d : Dev) (h g : Nat) : MeldSt := sget (fun _ => {}) d.melds (h * 4 + g)
def setMeldSt (d : Dev) (h g : Nat) (m : MeldSt) : Dev := { d with melds := sset (fun _ => {}) d.melds (h * 4 + g) m }

/-- The meld surface of a group as a picture (R226). -/
def meldPic (d : Dev) (h g : Nat) : Pic :=
  { owner := ownMeld h g, slabs := d.map (ownMeld h g), width := d.act F.HEAD_H_TIMING_HACTIVE h
    height := d.act F.HEAD_V_TIMING_VACTIVE h, fmt := { depth := 4, s444 := true } }

/-- The tiles of a member that are or would be shown stale: visible ones, and suppressed ones by their metadata (R224, R227). -/
def staleKeys (p : Plane) : List Nat := (p.tiles.filter (fun t => t.2.stale)).map (·.1) ++ p.coveredStale

/-- Head tiles that one member makes dirty (R227), which lie under no anchor above it; `mem` are the members of its group. A
tile that a member above it hides contributes nothing, so that its DIRTY flag counts for nothing; one that is suppressed by
a plane above the group counts (R224, R228). -/
def memberDirty (d : Dev) (cols : Nat) (old anchors : List (Nat × Nat)) (mem : List Plane) (p : Plane) : List Nat :=
  let now := staleKeys p
  let under (a : Nat × Nat × Nat × Nat × Nat) : Bool :=
    mem.any (fun q => q.opaq && p.slot < q.slot && q.holds a.2.1 a.2.2.1 a.2.2.2.1 a.2.2.2.2)
  let dirty (key : Nat) : Bool := !p.repeated && (d.metaAt p.pic key).elim false (·.dirty)
  ((p.areas.filter (fun a => p.drops ≠ 0 || (!under a && dirty a.1)
    || (now.contains a.1 != old.contains (p.slot, a.1)))).flatMap (headTilesOf cols)).filter (fun i =>
      (sget (fun _ => 0) anchors i) ≤ p.slot)

/-- What a member draws with that its context or a later join may change without a hand at this latch: whether it is left out
and an occluder, its place, and its cut-out patch. A change makes the group dirty (log entry 223). -/
def memberKey (p : Plane) : List Nat :=
  [p.slot, p.layer, (if p.leftOut then 1 else 0), (if p.opaq then 1 else 0), (if p.held then 1 else 0), p.sx, p.sy, p.x, p.y, p.w, p.h,
    p.crop.elim 0 (fun c => 1 + c.1 * 65536 + c.2)]

/-- The state of an enabled group at a latch (R227, R228). `whole`: a hand applied here changes what R227 names. -/
def meldAt (d : Dev) (h g : Nat) (ps : List Plane) (whole : Bool) : MeldView × Dev :=
  let cols := d.headCols h
  let all := List.range (cols * d.headRows h)
  let m := d.meldSt h g
  let pic := d.meldPic h g
  let bg := d.act F.HEAD_MELD_INCL_BG h g = 1
  let mem := ps.filter (fun p => p.group = some g)
  let above := ps.filter (fun p => p.opaq && p.slot > d.act F.HEAD_MELD_LAST_SLOT h g)
  let keys := mem.map memberKey
  let whole := whole || !m.on || m.pic ≠ pic || m.members ≠ keys || mem.any (·.leftOut)
  let anchor (i : Nat) : Option Nat :=
    match (mem.filter (fun p => p.opaq && d.heldTile h [p] i)).getLast? with
    | some p => some p.slot
    | none => if bg then some 0 else none
  let anchors := all.filterMap (fun i => (anchor i).map (fun k => (i, k)))
  let anchored := anchors.map (·.1)
  let conds := if whole then all else mem.flatMap (d.memberDirty cols m.stale anchors mem)
  let dirty := all.filter (fun i =>
    conds.contains i || m.dirty.contains i || (m.opened.contains i && anchored.contains i))
  let st := mem.flatMap (fun p => (staleKeys p).map (fun k => (p.slot, k)))
  ({ anchored := anchored, anchors := anchors, dirty := dirty, suppressed := all.filter (d.heldTile h above)
     rebuilt := all.all dirty.contains },
    d.setMeldSt h g { m with on := true, pic := pic, dirty := dirty, stale := st, members := keys })

/-- A fenced head blends nothing: what a hand changes there makes the group dirty at its next composed frame (R227). -/
def meldHidden (d : Dev) (h : Nat) (whole : Nat → Bool) : Dev :=
  (List.range 4).foldl (fun d g => if whole g then d.setMeldSt h g { d.meldSt h g with on := false } else d) d

/-- Every group of a head at its latch; a group that is not enabled forgets its surface. -/
def meldViews (d : Dev) (h : Nat) (ps : List Plane) (whole : Nat → Bool) : List (Nat × MeldView) × Dev :=
  (List.range 4).foldl (fun (acc : List (Nat × MeldView) × Dev) g =>
    if acc.2.act F.HEAD_MELD_EN h g = 1 then
      let r := acc.2.meldAt h g ps (whole g)
      (sset (fun _ => {}) acc.1 g r.1, r.2)
    else (acc.1, acc.2.setMeldSt h g {})) ([], d)

/-- Whether a hand changes what makes every tile of a group dirty (R227). -/
def meldChanged (old d : Dev) (h g : Nat) : Bool :=
  let w (a : Nat) : Bool := old.word a ≠ d.word a
  let p1 := pageAddr .head h 1
  let f := d.act F.HEAD_MELD_FIRST_SLOT h g
  let slots := (List.range (d.act F.HEAD_MELD_LAST_SLOT h g + 1 - f)).map (· + f)
  w (pageAddr .head h 2 + 0x400 + 4 * g)
    || (d.act F.HEAD_MELD_INCL_BG h g = 1 && (w (p1 + 0x440) || w (p1 + 0x444)))
    || slots.any (fun k =>
      w (p1 + 0x400 + 4 * k)
        || (List.range 0x100).any (fun o => w (pageAddr .layer (d.act F.HEAD_SLOT_LAYER h k) 0 + 0x400 + 4 * o)))

/-- R33: a context's peer is lost at the edge at which heads have selected: their planes take PEER_LOST in the frame selected
there. -/
def relatch (d : Dev) (n : Nat) : Dev :=
  (d.heads.map (·.1)).foldl (fun d h =>
    let s := d.headSt h
    if !s.viewed || !s.composed || s.fetching || s.latch ≠ d.house || !s.planes.any (fun p => !p.held && p.ctx = n) then d
    else
      let ps := d.judgePlanes h s.j (s.planes.map (fun p => if !p.held && p.ctx = n then { p with forced := p.forced ||| 2 ^ 14 } else p))
      let r := d.meldViews h ps (fun _ => false)
      r.2.updHeadSt h (fun s => { s with planes := ps, melds := r.1 })) d

/-- R346: the lip-sync of a head takes the delay of the layer it follows. -/
def lipSync (d : Dev) (h l0 : Nat) (ps : List Plane) : Dev :=
  if d.act F.AUDIO_DELAY_CTL_AUTO 0 h ≠ 1 then d
  else
    let d := match ps.find? (fun p => p.slot = d.act F.AUDIO_DELAY_CTL_SLOT 0 h && !p.held) with
      | some p =>
        match p.pic with
        | some q =>
          let t := d.picTile q 0 0
          if t.frame = q.frame && t.valid then d.updHeadSt h (fun s => { s with lipV := (((l0 : Int) - t.stamp) :: s.lipV).take 16 })
          else d
        | none => d
      | none => d
    d.delayUpdate h

end Dev
end Sys2Proof.Machine
end

