-- ==== Sys2Proof/Machine/HeadEnd.lean ====
section
/-! DEFINITION. The fetch of a head's tiles (R20, R166, R167, R229) and the end of an output frame: the meld
surfaces (R226, R227), freshness status (R25, R36), witness windows (R297 to R304), the record (R306, R307), the
recorder, and what leaves the ports and senders. -/
namespace Sys2Proof.Machine

/-- A head tile of a group is read from its members: it is neither suppressed nor clean and anchored. -/
def MeldView.live (m : MeldView) (i : Nat) : Bool := !m.suppressed.contains i && (m.dirty.contains i || !m.anchored.contains i)

namespace Dev

/-! Fetch. -/

/-- Whether a member tile is fetched: some head tile it draws into is live, and anchored no higher (R227, R228). -/
def tileNeeded (d : Dev) (h : Nat) (ms : List (Nat × MeldView)) (p : Plane) (key : Nat) : Bool :=
  match p.group with
  | none => true
  | some g =>
    let m := sget (fun _ => ({} : MeldView)) ms g
    (p.areas.filter (fun a => a.1 = key)).any (fun a => (headTilesOf (d.headCols h) a).any (fun i =>
      m.live i && sget (fun _ => 0) m.anchors i ≤ p.slot))

/-- The picture a row of a plane is fetched from. -/
def rowSource (p : Plane) (r : Nat) : Option Pic :=
  match p.slip with
  | some s => if r ≥ s then p.fall else p.pic
  | none => p.pic

/-- One visible tile is fetched and judged (R20, R161). -/
def fetchTile (d : Dev) (h j : Nat) (p : Plane) (key : Nat) (errs : List ReadError) : Plane × Dev :=
  match rowSource p (key / 1024) with
  | some q =>
    if key % 1024 < q.cols && key / 1024 < q.rows then
      let r := d.readTile (reqHead h) q (key % 1024) (key / 1024) errs
      ({ p with tiles := sset (fun _ => {}) p.tiles key (d.judgeTile h j p r.1 false) }, r.2)
    else ({ p with tiles := sset (fun _ => {}) p.tiles key (d.judgeTile h j p {} true) }, d)
  | none => ({ p with tiles := sset (fun _ => {}) p.tiles key (d.judgeTile h j p {} true) }, d)

/-- The chased frame of a plane is still in progress; it was published; or it was given up. -/
def chaseInProgress (d : Dev) (p : Plane) (q : Pic) : Bool :=
  match (d.ctx p.ctx).cur with
  | some f => f.pic.seq = q.seq && f.pic.start = q.start && !f.drop
  | none => false
def chasePublished (d : Dev) (p : Plane) (q : Pic) : Option Pic :=
  (d.ctx p.ctx).pubs.find? (fun x => x.seq = q.seq && x.start = q.start)

/-- The requirement of R166 at row `r`, and the lead there. -/
def chaseLead (d : Dev) (p : Plane) (q : Pic) (r : Nat) : Bool × Int :=
  let wl := d.get F.INGEST_WRITE_LINE p.ctx
  let none_ := wl = 0xFFFFFFFF
  let need := min (32 * r + 31 + d.act F.LAYER_CHASE_CTL_CHASE_MARGIN p.layer) (q.height - 1)
  if (d.chasePublished p q).isSome then (true, ((q.height : Int) - 1) - (32 * r + 31 : Nat))
  else
    let lead : Int := (if none_ then -1 else (wl : Int)) - (32 * r + 31 : Nat)
    let mine := d.chaseInProgress p q || (d.ctx p.ctx).cur.isNone
    (mine && !none_ && wl ≥ need, lead)

/-- R167: a layer slips at a row; the head holds the latest complete frame from then on (R158). -/
def chaseSlip (d : Dev) (h : Nat) (p : Plane) (r : Nat) : Plane × Dev :=
  let d := { d with readers := d.readers ++ ((d.latest p.ctx).elim [] picSlabs).map (fun s => (h, s)) }
  ({ p with slip := some r, fall := d.latest p.ctx },
    (((d.count F.LAYER_CHASE_SLIP p.layer).put F.LAYER_CHASE_STS_SLIP_ROW r p.layer).put F.LAYER_CHASE_STS_SLIPPED 1 p.layer).irq
      .layer p.layer 0 2)

/-- The fetch of a source tile row of a plane (R166). -/
def fetchRow (d : Dev) (h j : Nat) (ms : List (Nat × MeldView)) (p : Plane) (r : Nat) (errs : List ReadError) : Plane × Dev :=
  let keys := (p.tiles.map (·.1)).filter (fun k => k / 1024 = r)
  if p.held || p.leftOut || !p.areas.any (fun a => a.1 / 1024 = r) then (p, d)
  else
    let (p, d) := match p.chase, p.pic with
      | true, some q =>
        if p.slip.isSome then (p, d)
        else
          let x := d.chaseLead p q r
          let p := { p with minLead := some (p.minLead.elim x.2 (min x.2)) }
          if x.1 then (p, d) else d.chaseSlip h p r
      | _, _ => (p, d)
    (keys.filter (d.tileNeeded h ms p)).foldl (fun (acc : Plane × Dev) k => acc.2.fetchTile h j acc.1 k errs) (p, d)

/-- The meld tiles of a head tile row: clean anchored ones are read; a poisoned one is counted and made dirty
(R227, R229). A sound tile whose POISON stems from a member that was poisoned when it was written (R12) shows what is stored. -/
def meldRow (d : Dev) (h g row : Nat) (errs : List ReadError) (m : MeldView) : MeldView × Dev :=
  let cols := d.headCols h
  let pic := (d.meldSt h g).pic
  let derived := (d.meldSt h g).derived
  (((List.range cols).map (· + row * cols)).filter (fun i =>
      m.anchored.contains i && !m.dirty.contains i && !m.suppressed.contains i && !m.got.any (fun q => q.1 = i))).foldl
    (fun (acc : MeldView × Dev) i =>
      let fails := acc.2.readFails pic (i % cols) (i / cols) errs
      let r := acc.2.readTile (reqMeld h) pic (i % cols) (i / cols) errs
      let bad := fails || (r.1.poison && !derived.contains i)
      let d := if bad then
          let s := r.2.meldSt h g
          ((r.2.setMeldSt h g { s with dirty := i :: s.dirty }).count F.HEAD_MELD_POISON h).irq .head h 2 0
        else r.2
      ({ acc.1 with got := (i, { r.1 with poison := bad }) :: acc.1.got }, d)) (m, d)

/-- Rows of a plane that no issue has fetched. -/
def rowsLeft (p : Plane) : List Nat :=
  let rows := p.areas.foldl (fun l a => if l.contains (a.1 / 1024) then l else l ++ [a.1 / 1024]) []
  rows.filter (fun r => (p.tiles.filter (fun t => t.1 / 1024 = r)).all (fun t => !t.2.read))

/-- House time at which the fetch of a row of a chase layer is issued (R166): the start of head line h_r - PREFETCH_LINES,
where h_r is the first raster line that draws the row. -/
def chaseIssue (d : Dev) (h : Nat) (p : Plane) (r : Nat) : Nat :=
  let g := d.timing h
  let run (n : Nat) : Nat := g.lines n (d.headDelta h)
  (d.headSt h).j + run (p.y + (32 * r - p.sy)) - run g.vact - run g.pf

/-- A row of a plane may be issued now: of a chase layer not before its line, nor before the rows above it that are needed
(R166). -/
def rowDue (d : Dev) (h : Nat) (p : Plane) (r : Nat) : Bool :=
  let idle (k : Nat) : Bool := (p.tiles.filter (fun t => t.1 / 1024 = k)).all (fun t => !d.tileNeeded h (d.headSt h).melds p t.1)
  !p.chase || (d.chaseIssue h p r ≤ d.house && (rowsLeft p).all (fun k => r ≤ k || idle k))

/-- The fetch of a head's output frame has ended: every visible tile that it needs has been read. -/
def fetchOver (d : Dev) (h : Nat) : Bool :=
  let hs := d.headSt h
  hs.planes.all (fun p => p.held || p.leftOut || p.tiles.all (fun t => t.2.read || !d.tileNeeded h hs.melds p t.1))

/-- FETCH_ROW_ISSUE (R166): a row of slot 0 to 15, of the trump plane (16) or of a meld group (17 and up). It waits for a
free tag (R151). At the end of the fetch the head holds no frame any longer (R158). -/
def fetchIssue (d : Dev) (h plane row : Nat) (errs : List ReadError) : Dev :=
  let hs := d.headSt h
  if !hs.viewed || !hs.composed || d.fenced .head h || !d.tagFree (reqHead h) then d
  else if plane ≥ 17 then
    let g := plane - 17
    if d.act F.HEAD_MELD_EN h g = 1 then
      let r := d.meldRow h g row errs (sget (fun _ => {}) hs.melds g)
      r.2.updHeadSt h (fun s => { s with melds := sset (fun _ => {}) s.melds g r.1 })
    else d
  else
    let r := hs.planes.foldl (fun (acc : List Plane × Dev) p =>
      if p.slot = plane && d.rowDue h p row && (p.tiles.filter (fun t => t.1 / 1024 = row)).all (fun t => !t.2.read) then
        let x := acc.2.fetchRow h hs.j hs.melds p row errs
        (acc.1 ++ [x.1], x.2)
      else (acc.1 ++ [p], acc.2)) ([], d)
    let d := r.2.updHeadSt h (fun s => { s with planes := r.1 })
    if d.fetchOver h then d.setReads h [] else d

/-- At the end of the active lines every row has been fetched. -/
def fetchAll (d : Dev) (h : Nat) : Dev :=
  let d := (d.headSt h).planes.foldl (fun d p => (rowsLeft p).foldl (fun d r => d.fetchIssue h p.slot r []) d) d
  (List.range 4).foldl (fun d g => (List.range (d.headRows h)).foldl (fun d r => d.fetchIssue h (17 + g) r []) d) d

/-! Meld surfaces. -/

/-- The value leaving a group at a head tile, as the 64 by 32 pixels of its meld tile (R226). -/
def meldTile (d : Dev) (h g : Nat) (ps : List Plane) (c r : Nat) : List Nat :=
  let start := if d.act F.HEAD_MELD_INCL_BG h g = 1 then d.background h else [0, 0, 0]
  (List.range 32).flatMap (fun j => (List.range 64).flatMap (fun i =>
    let v := d.groupPixel h g ps (64 * c + i) (32 * r + j) start
    (List.range 3).map (fun k => if 64 * c + i < d.act F.HEAD_H_TIMING_HACTIVE h ∧ 32 * r + j < d.act F.HEAD_V_TIMING_VACTIVE h
      then v.getD k 0 else 0)))

/-- Member tiles that contribute to a head tile: those read for it, from its anchor upward (R11, R227). -/
def meldContrib (d : Dev) (h g : Nat) (m : MeldView) (ps : List Plane) (i : Nat) : List Tile :=
  (ps.filter (fun p => p.group = some g && !p.leftOut && sget (fun _ => 0) m.anchors i ≤ p.slot)).flatMap (fun p =>
    (p.areas.filter (fun a => (headTilesOf (d.headCols h) a).contains i)).filterMap (fun a =>
      let f := sget (fun _ => ({} : Fetched)) p.tiles a.1
      if f.read && !f.absent then some f.tile else none))

/-- Dirty anchored tiles are written into the meld surfaces (R227), with their counts (R234, R235). A tile with no
contributor, of the background alone, has stamp 2^64 - 1, which no age exceeds (DESIGN CHOICE, log entry 205). -/
def meldWrite (d : Dev) (h : Nat) (hs : HeadSt) : Dev :=
  let cols := d.headCols h
  (List.range 4).foldl (fun d g =>
    if d.act F.HEAD_MELD_EN h g ≠ 1 then ((d.put F.HEAD_MELD_STS_ANCHORED 0 h g).put F.HEAD_MELD_STS_REMELDED 0 h g)
    else
      let m := sget (fun _ => ({} : MeldView)) hs.melds g
      let s := d.meldSt h g
      let todo := m.anchored.filter (fun i => m.dirty.contains i && !m.suppressed.contains i)
      let d := todo.foldl (fun d i =>
        let ts := d.meldContrib h g m hs.planes i
        d.writeTile (reqMeld h) s.pic (some s.pic) (i % cols) (i / cols)
          (ts.foldl (fun n t => min n t.stamp) (2 ^ 64 - 1)) (ts.any (·.poison)) (d.meldTile h g hs.planes (i % cols) (i / cols))) d
      let left := s.dirty.filter (fun i => !todo.contains i)
      let kept := left.filter (fun i => m.suppressed.contains i || !m.dirty.contains i)
      let open_ := s.opened.filter (fun i => !todo.contains i)
      let taint := todo.filter (fun i => (d.meldContrib h g m hs.planes i).any (·.poison))
      let d := d.setMeldSt h g { s with
        derived := taint ++ s.derived.filter (fun i => !todo.contains i)
        dirty := kept, opened := open_ ++ left.filter (fun i => !kept.contains i && !open_.contains i) }
      let d := ((d.put F.HEAD_MELD_STS_ANCHORED m.anchored.length h g).put F.HEAD_MELD_STS_REMELDED todo.length h g).count
        F.HEAD_MELD_REMELDS h g todo.length
      if m.rebuilt then d.irq .head h 2 1 else d) d

/-! Freshness status. -/

/-- What the tiles of a plane show: stale ones, and the ages of those with a picture. -/
def shownStale (p : Plane) : Nat := if p.leftOut then p.tiles.length else (p.tiles.filter (fun t => t.2.stale)).length
def planeAges (d : Dev) (h j : Nat) (p : Plane) : List Nat :=
  let jc := j + d.carryFor h p
  (p.tiles.filter (fun t => !t.2.absent)).map (fun t => jc - t.2.tile.stamp)
/-- Visible tiles whose stamp lies after the judging instant, which is J with the carry in force (DESIGN CHOICE, log entry
206). A covered tile is not judged for display and does not count (DESIGN CHOICE, log entry 253). -/
def planeFuture (d : Dev) (h j : Nat) (p : Plane) : Nat :=
  let jc := j + d.carryFor h p
  (p.tiles.filter (fun t => !t.2.absent && t.2.tile.stamp > jc)).length

/-- FRESH_STS of a plane (R35). -/
def freshWord (d : Dev) (h j : Nat) (p : Plane) : Nat :=
  let jc := j + d.carryFor h p
  let b (x : Bool) (n : Nat) := if x then 2 ^ n else 0
  let poison := p.tiles.any (fun t => !t.2.absent && t.2.tile.poison)
  b (shownStale p ≠ 0) 0 + b (p.forced ≠ 0 || p.leftOut || poison) 1
    + b (p.tiles.any (fun t => !t.2.absent && overAge (d.plLimit h p) jc t.2.tile.stamp)) 8 + p.forced + b poison 16

/-- An age in µs, truncated, as status words and records give it. -/
def ageUs (ns : Nat) : Nat := min (ns / 1000) 0xFFFFFFFF

/-- Tiles of a plane fetched in the frame (R231). -/
def fetchedTiles (p : Plane) : Nat := (p.tiles.filter (fun t => t.2.read && !t.2.absent)).length

/-- The status of a layer at the end of a frame (R36, R166, R231). -/
def layerStatus (d : Dev) (h j : Nat) (p : Plane) : Dev :=
  let l := p.layer
  let a := F.LAYER_FRESH_STS_STALE.addr l 0 0
  let was := d.bitsAt a 0 1
  let w := d.freshWord h j p
  let d := d.setWord a (BitVec.ofNat 32 w)
  let d := if w % 2 > was then d.irq .layer l 0 0 else if w % 2 < was then d.irq .layer l 0 1 else d
  let d := (d.put F.LAYER_STALE_TILES_VISIBLE (min 65535 (shownStale p)) l).put F.LAYER_STALE_TILES_HIDDEN (min 65535 p.hidden) l
  let d := (d.count F.LAYER_STALE_FRAMES l 0 (w % 2)).count F.LAYER_HIDDEN_STALE l 0 p.hidden
  let d := (d.count F.LAYER_FUTURE_STAMP l 0 (d.planeFuture h j p)).put F.LAYER_AGE_MAX
    (ageUs ((d.planeAges h j p).foldl max 0)) l
  let d := (d.put F.LAYER_TILES_FETCHED (min 65535 (fetchedTiles p)) l).put F.LAYER_TILES_SUPPRESSED (min 65535 p.covered.length) l
  if p.chase then d.put F.LAYER_CHASE_MIN_LEAD (unsgn 32 (p.minLead.getD 0)) l else d

/-- A head without a trump plane has none stale (R35, R36, R233). -/
def trumpGone (d : Dev) (h : Nat) : Dev :=
  let a := F.HEAD_TRUMP_FRESH_STS_STALE.addr h 0 0
  let was := d.bitsAt a 0 1
  let d := (d.setWord a 0).clear [F.HEAD_TRUMP_STALE_TILES_VISIBLE, F.HEAD_TRUMP_STALE_TILES_HIDDEN] h
  if was = 1 then d.irq .head h 1 1 else d

/-- The status of the trump plane (R233). -/
def trumpStatus (d : Dev) (h j : Nat) (p : Plane) : Dev :=
  let a := F.HEAD_TRUMP_FRESH_STS_STALE.addr h 0 0
  let was := d.bitsAt a 0 1
  let w := d.freshWord h j p
  let d := d.setWord a (BitVec.ofNat 32 w)
  let d := if w % 2 > was then d.irq .head h 1 0 else if w % 2 < was then d.irq .head h 1 1 else d
  (d.put F.HEAD_TRUMP_STALE_TILES_VISIBLE (min 65535 (shownStale p)) h).put F.HEAD_TRUMP_STALE_TILES_HIDDEN (min 65535 p.hidden) h

/-- The counts of R25 of a frame: stale, hidden-stale, least and greatest age. -/
def frameCounts (d : Dev) (h : Nat) (hs : HeadSt) : Nat × Nat × Nat × Nat :=
  let ps := hs.planes.filter (fun p => !p.held)
  let bad := hs.melds.foldl (fun n m => n + (m.2.got.filter (fun q => q.2.poison)).length) 0
  let ages := (ps.filter (fun p => d.plLimit h p ≠ 0)).flatMap (d.planeAges h hs.j)
  (ps.foldl (fun n p => n + shownStale p) bad, ps.foldl (fun n p => n + p.hidden) 0,
    (match ages with | [] => 0xFFFFFFFF | a :: as => ageUs (as.foldl min a)),
    (match ages with | [] => 0xFFFFFFFF | a :: as => ageUs (as.foldl max a)))

/-- The head's own counts (R233, R234). -/
def headStatus (d : Dev) (h : Nat) (hs : HeadSt) : Dev :=
  let c := d.frameCounts h hs
  let d := (((d.put F.HEAD_FRAME_STALE c.1 h).put F.HEAD_FRAME_HIDDEN c.2.1 h).put F.HEAD_AGE_MIN c.2.2.1 h).put
    F.HEAD_AGE_MAX c.2.2.2 h
  let fetched := hs.planes.foldl (fun n p => n + fetchedTiles p) 0 + hs.melds.foldl (fun n m => n + m.2.got.length) 0
  let supp := hs.planes.foldl (fun n p => n + p.covered.length) 0
    + hs.melds.foldl (fun n m => n + m.2.suppressed.length) 0
  (d.put F.HEAD_FETCHED fetched h).put F.HEAD_SUPPRESSED supp h

/-! Witness windows. -/

/-- The rectangle of a window. -/
def winRect (d : Dev) (h w : Nat) : Nat × Nat × Nat × Nat :=
  (d.act F.WITNESS_WIN_XY_WIN_X h w, d.act F.WITNESS_WIN_XY_WIN_Y h w, d.act F.WITNESS_WIN_WH_WIN_W h w, d.act F.WITNESS_WIN_WH_WIN_H h w)

/-- The paired value of the frame a plane selected (R302). -/
def pairOf (d : Dev) (h w : Nat) (late : List Nat) (p : Plane) : Option Nat :=
  let rect := (d.pairedOf p.ctx).find? (fun q => q.1 = h && q.2.1 = w)
  let look (x : Pic) : Option Nat := (x.pairs.find? (fun q => q.1 = h * 16 + w && some q.2.1 = rect.map (·.2.2))).map (·.2.2)
  match p.pic, rect with
  | some q, some r =>
    if p.chase then
      match d.chasePublished p q with
      | some x => look x
      | none =>
        if late.contains w && d.chaseInProgress p q then
          some (rectCrc (d.picPixel q) r.2.2.1 r.2.2.2.1 r.2.2.2.2.1 r.2.2.2.2.2)
        else none
    else look q
  | _, _ => none

/-- Whether a stale tile of a plane is shown inside a rectangle. -/
def staleInside (p : Plane) (r : Nat × Nat × Nat × Nat) : Bool :=
  p.areas.any (fun a => (sget (fun _ => ({} : Fetched)) p.tiles a.1).stale
    && a.2.1 < r.1 + r.2.2.1 && r.1 < a.2.2.2.1 && a.2.2.1 < r.2.1 + r.2.2.2 && r.2.1 < a.2.2.2.2)

/-- The expected value of a window, or the reason of its skip (R300, R302). -/
def winExpected (d : Dev) (h : Nat) (hs : HeadSt) (late : List Nat) (w : Nat) : Nat ⊕ Nat :=
  if d.act F.WITNESS_WIN_CTL_MODE h w = 0 then .inl (d.act F.WITNESS_WIN_EXPECT h w)
  else
    let r := d.winRect h w
    match hs.planes.find? (fun p => p.slot = d.act F.WITNESS_WIN_CTL_SLOT h w) with
    | none => .inr 5
    | some p =>
      if p.held then .inr 5
      else if p.leftOut then .inr 2
      else if p.pic.isNone then .inr 3
      else if !p.holds r.1 r.2.1 (r.1 + r.2.2.1) (r.2.1 + r.2.2.2) then .inr 7
      else if p.slip.isSome then .inr 4
      else if staleInside p r then .inr 1
      else match d.pairOf h w late p with
        | some v => .inl v
        | none => .inr 6

/-- What the windows of a frame give: enabled, compared and mismatched masks, and the CRCs. -/
structure WinResult where
  en : Nat := 0
  compared : Nat := 0
  mismatch : Nat := 0
  crcs : List Nat := List.replicate 16 0
deriving DecidableEq, Repr

/-- R303, R304: the run of mismatching frames and the witness safe state. -/
def winSafe (d : Dev) (h : Nat) (r : WinResult) : Dev :=
  let safe := (List.range 16).filter (fun w => bitsOf r.compared w 1 = 1 && d.act F.WITNESS_WIN_CTL_ACTION h w = 1)
  let bad := safe.any (fun w => bitsOf r.mismatch w 1 = 1)
  let d := d.updHeadSt h (fun s => { s with safeOk := !safe.isEmpty && !bad })
  if safe.isEmpty then d
  else if !bad then d.put F.WITNESS_WIT_STATE_RUN 0 h
  else
    let d := d.count F.WITNESS_WIT_STATE_RUN h
    if d.get F.WITNESS_WIT_STATE_RUN h ≥ max 1 (d.act F.WITNESS_WIT_CTL_SAFE_AFTER h) ∧ !d.witSafe h then
      ((d.put F.WITNESS_WIT_STATE_SAFE 1 h).irq .witness h 0 1).snapFault 3 .witness h
    else d

/-- A frame in which no window is compared, its head or its page of windows being fenced (R300, R305, R318, R451): the window
CRCs and masks are 0, an enabled PAIRED window counts as not compared, and a release of the safe state has no frame to rest
on. -/
def windowsOff (d : Dev) (h : Nat) : Dev :=
  let d := (List.range 16).foldl (fun d w =>
    let d := (d.put F.WITNESS_WIN_CRC 0 h w).put F.WITNESS_WIN_REF 0 h w
    if d.act F.WITNESS_WIN_CTL_EN h w = 1 && d.act F.WITNESS_WIN_CTL_MODE h w = 1 then d.count F.WITNESS_WIN_SKIPS h w else d) d
  (d.clear [F.WITNESS_WIT_STS_MISMATCH, F.WITNESS_WIT_STS_COMPARED] h).updHeadSt h (fun s => { s with safeOk := false })

/-- R298 to R304: the windows of an output frame. -/
def windows (d : Dev) (h : Nat) (hs : HeadSt) (late : List Nat) : WinResult × Dev :=
  if !d.enabled .witness h then
    let en := (List.range 16).foldl (fun n w => n + 2 ^ w * d.act F.WITNESS_WIN_CTL_EN h w) 0
    ({ en := en }, d.windowsOff h)
  else
    let acc := (List.range 16).foldl (fun (acc : WinResult × Option (Nat × Nat) × Dev) w =>
      let r := acc.1
      let d := acc.2.2
      if d.act F.WITNESS_WIN_CTL_EN h w = 0 then
        (r, acc.2.1, (d.put F.WITNESS_WIN_CRC 0 h w).put F.WITNESS_WIN_REF 0 h w)
      else
        let q := d.winRect h w
        let crc := rectCrc (d.rasterPixel h hs) q.1 q.2.1 q.2.2.1 q.2.2.2
        let d := d.put F.WITNESS_WIN_CRC crc h w
        let r := { r with en := r.en + 2 ^ w, crcs := lset r.crcs w crc }
        match d.winExpected h hs late w with
        | .inl v =>
          let d := d.put F.WITNESS_WIN_REF v h w
          let r := { r with compared := r.compared + 2 ^ w }
          if v = crc then (r, acc.2.1, d)
          else ({ r with mismatch := r.mismatch + 2 ^ w }, acc.2.1, d.count F.WITNESS_WIN_MISMATCHES h w)
        | .inr why => (r, (acc.2.1.orElse fun _ => some (w, why)), d.count F.WITNESS_WIN_SKIPS h w)) ({}, none, d)
    let r := acc.1
    let d := (acc.2.2.put F.WITNESS_WIT_STS_MISMATCH r.mismatch h).put F.WITNESS_WIT_STS_COMPARED r.compared h
    let d := match acc.2.1 with
      | some s => (d.put F.WITNESS_SKIP_REASON_REASON s.2 h).put F.WITNESS_SKIP_REASON_WINDOW s.1 h
      | none => d
    let d := if r.mismatch ≠ 0 then (d.irq .witness h 0 0).snapFault 2 .witness h else d
    (r, d.winSafe h r)

/-! The record. -/

/-- The 128 bytes of a record with a zero counter (R307). -/
def recordBytes (h flags : Nat) (hs : HeadSt) (r : WinResult) (c : Nat × Nat × Nat × Nat) (pix : Nat) : List Byte :=
  leBytes 2 1 ++ leBytes 1 h ++ leBytes 1 flags ++ leBytes 8 0 ++ leBytes 4 hs.frame ++ leBytes 8 hs.latch ++ leBytes 4 hs.epoch
    ++ leBytes 2 r.en ++ leBytes 2 r.compared ++ leBytes 2 r.mismatch
    ++ leBytes 2 (hs.planes.filter (·.repeated)).length
    ++ leBytes 4 c.2.2.1 ++ leBytes 4 c.2.2.2 ++ leBytes 4 c.1 ++ leBytes 4 c.2.1 ++ leBytes 4 pix
    ++ leBytes 2 (min 65535 (hs.planes.foldl (fun n p => n + p.drops) 0)) ++ leBytes 6 0 ++ r.crcs.flatMap (leBytes 4)

/-- A record of a fenced head: masks, counts and window CRCs 0 (R306). -/
def fencedBytes (h flags : Nat) (hs : HeadSt) : List Byte :=
  recordBytes h flags { hs with planes := [] } {} (0, 0, 0, 0) 0

/-- A head lower than `h` latches at the present edge and has not latched yet. -/
def lowerToLatch (d : Dev) (h : Nat) : Bool :=
  (List.range h).any (fun g => let s := d.headSt g; s.running && s.due = d.house && s.latch ≠ d.house)

/-- R310: the records of latches at one edge take their counters in the order of the heads: those for which no lower head is
still to latch at this edge, and those of an edge that is past. -/
def witFlush (d : Dev) : Dev :=
  let go := d.witWait.takeWhile (fun e => e.1 ≠ d.house || !d.lowerToLatch e.2.1)
  go.foldl (fun d e => d.witWrite e.2.1 e.2.2) { d with witWait := d.witWait.drop go.length }

/-- R306: the head makes a record; it stands among those of its edge by its head number (R310). -/
def witRecord (d : Dev) (h : Nat) (body : List Byte) : Dev :=
  let d := if d.witWait.all (fun e => e.1 = d.house) then d else d.witFlush
  { d with witWait := d.witWait.filter (fun e => e.2.1 ≤ h) ++ [(d.house, h, body)] ++ d.witWait.filter (fun e => h < e.2.1) }

/-- Pixels of a frame filled with UNDERRUN_COLOUR (R253). -/
def underPix (d : Dev) (h : Nat) (hs : HeadSt) : Nat :=
  let w := d.act F.HEAD_H_TIMING_HACTIVE h
  hs.under.foldl (fun n u => n + (w - u.2)) 0

/-! Senders. -/

/-- ST 2110-20 senders of a head under the applied hand, as page × 16 + sender (R259). -/
def headSenders (d : Dev) (h : Nat) : List Nat :=
  (List.range 64).filter (fun s => d.act F.SENDV_CFG_EN (s / 16) (s % 16) = 1 && d.act F.SENDV_CFG_HEAD (s / 16) (s % 16) = h)

/-- The runs of samples of packets of `per` samples each, over lines of `w` samples: the line, its first sample, and the
samples. With `whole`, packets run on over the ends of lines, as in block packing mode; else each ends with its line. -/
def packetRuns (whole : Bool) (per w : Nat) (rows : List (List Nat)) : List (List (Nat × Nat × List Nat)) :=
  let h := rows.length
  if per = 0 ∨ w = 0 then []
  else if whole then
    (List.range ((w * h + per - 1) / per)).map (fun k =>
      let a := k * per
      let e := min (a + per) (w * h)
      (List.range ((e - 1) / w + 1 - a / w)).map (fun j =>
        let y := a / w + j
        let lo := max a (y * w) - y * w
        let hi := min e ((y + 1) * w) - y * w
        (y, lo, ((rows.getD y []).drop lo).take (hi - lo))))
  else
    (List.range h).flatMap (fun y => (List.range ((w + per - 1) / per)).map (fun j =>
      [(y, j * per, ((rows.getD y []).drop (j * per)).take per)]))

/-- Samples of one packet (R259): 1,260 octets in block packing mode, as ST 2110-20 has it (PRESUMED, log entry 257). Else the
spec leaves the size open: a free value of whole pixel groups up to a datagram (log entry 4). -/
def packetSamples (bpm : Bool) (bits group free : Nat) : Nat :=
  if bpm then 10080 / bits else group * (1 + free % (11456 / (bits * group)))

/-- The frame a sender sent: its packets, each with the RTP timestamp of the frame's line 0, numbered in sequence, the last one
marked (R259). The first number is a free value, and so is how many of them were late (R267; log entries 4, 257). A token goes
to the network port of each path (R48, log entry 229). -/
def senderFrame (d : Dev) (h : Nat) (hs : HeadSt) (s : Nat) : Dev :=
  let i := s / 16
  let k := s % 16
  if !d.flag F.SENDV_STS_SENDING i k then d
  else
    let g := d.timing h
    let sp := d.act F.SENDV_CFG_SPACE i k
    let bits := 8 + 2 * d.act F.SENDV_CFG_DEPTH i k
    let px (x y : Nat) : List Nat := if sp = 0 then d.scanPixel h hs x y else senderMatrix (d.scanPixel h hs x y)
    let rows := (List.range g.vact).map (fun y => (linkLine (sp = 2) bits g.hact (fun x => px x y)).flatMap id)
    let l0 : Int := if g.mode = 1 then g.target hs.frame else hs.l0
    let rtp := ((l0 * 9 / 100000) % 4294967296).toNat
    let r0 := d.draw
    let r1 := r0.2.draw
    let r2 := r1.2.draw
    let d := r2.2
    let bpm := d.actFlag F.SENDV_CFG_BPM i k
    let group := if sp = 2 then 4 else if bits = 8 then 3 else if bits = 10 then 12 else 6
    let ps := packetRuns bpm (packetSamples bpm bits group r1.1) ((rows.headD []).length) rows
    let seq := match d.videoSeqs.find? (fun q => q.1 = s) with
      | some q => q.2
      | none => r0.1 % 65536
    let send (d : Dev) (netif port : Nat) (dst : Fld) : Dev :=
      if d.netUp netif then
        (ps.zipIdx.foldl (fun d q =>
          (d.count F.NPORT_TX_FRAMES (netif / 4) (netif % 4)).emit (.video netif
            ((List.range 4).map (fun j => d.word (dst.addr i j k - 0x400))) port (d.act F.SENDV_PT_DSCP i k)
            (d.act F.SENDV_SSRC i k) (d.act F.SENDV_PT_TYPE i k) ((seq + q.2) % 65536) rtp (q.2 + 1 = ps.length) q.1)) d).chanPass
          (26 + h / 16) (12 + netif / 4)
      else d
    let d := send d (d.act F.SENDV_CFG_NETIF_P1 i k) (d.act F.SENDV_UDP_PORTS_PORT_P1 i k) F.SENDV_DST_P1
    let d := if d.actFlag F.SENDV_CFG_DUAL_PATH i k then
        send d (d.act F.SENDV_CFG_NETIF_P2 i k) (d.act F.SENDV_UDP_PORTS_PORT_P2 i k) F.SENDV_DST_P2
      else d
    let d := { d with videoSeqs := (s, (seq + ps.length) % 65536) :: d.videoSeqs.filter (fun q => q.1 ≠ s) }
    (d.count F.SENDV_PACKETS i k ps.length).count F.SENDV_LATE i k (if d.fenced .head h then 0 else r2.1 % (ps.length + 1))

/-- R259, R267: at a line 0 each sender of the head begins to send the frame, or stops. -/
def senderStart (d : Dev) (h s : Nat) : Dev :=
  let i := s / 16
  let k := s % 16
  let up := d.netUp (d.act F.SENDV_CFG_NETIF_P1 i k)
    || (d.actFlag F.SENDV_CFG_DUAL_PATH i k && d.netUp (d.act F.SENDV_CFG_NETIF_P2 i k))
  if d.enabled .sendV i && !d.fenced .head h && (d.headSt h).composed && up then
    (d.put F.SENDV_STS_SENDING 1 i k).count F.SENDV_FRAMES i k
  else d.put F.SENDV_STS_SENDING 0 i k

/-! The end of a frame. -/

/-- A fenced head makes records where it is not disabled by its own CTL.EN = 0 (R306). -/
def fencedByOther (d : Dev) (h : Nat) : Bool := d.en .head h

/-- The latch that ends a frame's active lines: everything the frame leaves behind. -/
def endOutput (d : Dev) (h : Nat) (broken : Option Nat) (late : List Nat) : Dev :=
  if d.fenced .head h then
    let hs := d.headSt h
    let flags := (if hs.safeSeen then 2 else 0) + 4 + hs.flags
    let d := d.windowsOff h
    let d := if d.fencedByOther h then d.witRecord h (fencedBytes h flags hs) else d
    let d := (d.headPorts h).foldl (fun d p => d.portFrame h hs p) d
    (d.headSenders h).foldl (fun d s => d.senderFrame h hs s) d
  else
    let d := d.fetchAll h
    let hs := d.headSt h
    let d := d.meldWrite h hs
    let d := hs.planes.foldl (fun d p =>
      if p.held then d else if p.isTrump then d.trumpStatus h hs.j p else d.layerStatus h hs.j p) d
    let d := if hs.composed && !hs.planes.any (·.isTrump) then d.trumpGone h else d
    let d := d.headStatus h hs
    let d := d.put F.HEAD_OBUF_STS_MIN_FILL (hs.minFill.getD (d.get F.HEAD_OBUF_STS_FILL h)) h
    let (r, d) := d.windows h hs late
    let pix := d.underPix h hs
    let flags := (if hs.under.isEmpty then 0 else 1) + (if hs.safeSeen then 2 else 0) + hs.flags
    let d := d.witRecord h (recordBytes h flags hs r (d.frameCounts h hs) pix)
    let d := d.record h hs (d.rasterPixel h hs) (!hs.under.isEmpty) broken
    let d := (d.headPorts h).foldl (fun d p => d.portFrame h hs p) d
    (d.headSenders h).foldl (fun d s => d.senderFrame h hs s) d

end Dev
end Sys2Proof.Machine
end

