-- ==== Sys2Proof/Machine/Head.lean ====
section
/-! DEFINITION. The commands of the heads and output ports: the sample point, the latch, fetch, line 0, underrun
and the buffer watermarks (R236 to R276), the witness release (R305), hot-plug and sidebands (R257, R266), and the
clears. -/
namespace Sys2Proof.Machine
namespace Dev

/-- Whether a latch of a head is the start of its timing (R247, R261), and whether there is a latch at all. -/
def latchStarts (d : Dev) (h : Nat) : Bool :=
  d.enabled .head h && ((d.headSt h).virt || !(d.headSt h).running) && (d.timing h).ok
def latchRuns (d : Dev) (h : Nat) : Bool :=
  (d.headSt h).running && !(d.enabled .head h && (d.headSt h).virt)

/-- R276: at its sample point, HAND_GUARD lines before its next latch, a head takes a hand that is complete by then for a
boundary at or after the apply time. A head that starts its timing has no lines before its first latch: it takes the hand
at the command. -/
def handSample (d : Dev) (h : Nat) : Dev :=
  if d.handReady && d.hand.heads.contains h && (d.latchStarts h || (d.latchRuns h && d.samplePast h && d.sampleTakes h)) then
    { d.updHeadSt h (fun s => { s with take := true }) with hand := { d.hand with taken := true } }
  else d

/-- The hand is due at a boundary at the present time (R276). -/
def handDue (d : Dev) (h : Nat) : Bool :=
  d.hand.pending && d.hand.apply ≤ d.house && (d.hand.dealt || d.hand.scope = 0)
    && (d.hand.done.isNone || d.hand.heads.contains h)

/-- Timing fields whose change retimes a head (R247). -/
def timingChanged (old d : Dev) (h : Nat) : Bool :=
  let a := pageAddr .head h 0
  [0x400, 0x404, 0x410, 0x414, 0x418, 0x41C].any (fun o => old.word (a + o) ≠ d.word (a + o))
    || old.act F.HEAD_REF_CTL_REF_MODE h ≠ d.act F.HEAD_REF_CTL_REF_MODE h

/-- Nothing is drawn of the layers of a fenced head, and none is an occluder (R223, R231). -/
def undrawn (d : Dev) (h : Nat) : Dev :=
  (d.layers.filter (fun p => p.2.head = some h)).foldl (fun d p =>
    d.clear [F.LAYER_DRAWN_WH_W, F.LAYER_DRAWN_WH_H, F.LAYER_COMP_STS_OPAQUE] p.1) d

/-- HEAD_LATCH (R238): what an output frame leaves (R36, R306), the hand (R276), the timing of the next span
(R246, R247), and the selection, judgement and meld state of the next frame. -/
def headLatch (d : Dev) (h t : Nat) (broken : Option Nat) (late : List Nat) : Dev :=
  let start := d.latchStarts h
  if !start && !d.latchRuns h then d
  else
    let first := !(d.headSt h).running
    let d := if (d.headSt h).viewed && !start then d.withKept h (·.endOutput h broken late) else d
    let d := d.recEnded h
    let take := (d.headSt h).take && (!start || d.hand.apply ≤ t) && d.handReady && d.hand.heads.contains h
    let held := !take && !start && d.handDue h
    let lateHand := take && d.hand.lateAt.isSome
    let d := d.updHeadSt h (fun s => { s with take := false })
    let d := if held then d.markHeld h else d
    let old := d
    let d := if take then
        let e := d.hand.epoch
        (((d.applyHead h).updHeadSt h (fun s => { s with epoch := e })).handFinish)
      else d
    let re := take && timingChanged old d h
    let d := if start then d.retime h t true
      else if re then (d.slew h).retime h t false
      else d.nextSpan h t
    let jumped := start || re || (old.headSt h).jump.isSome
    let d := d.put64 F.HEAD_LATCH_TIME_LO t h
    let d := (d.placeLayers h).keptSwap h
    let fen := d.fenced .head h
    let (ps, d) := if fen then ([], d.undrawn h) else d.buildPlanes h t
    let j := (d.headSt h).j
    let d := ps.foldl (fun d p => d.carryEnd h j p) d
    let ps := d.judgePlanes h j ps
    let whole (g : Nat) : Bool := take && meldChanged old d h g
    let (ms, d) := if fen then ([], d.meldHidden h whole) else d.meldViews h ps whole
    let g := d.timing h
    let l0 := t + ((d.headSt h).tf - g.lines g.vact (d.headDelta h))
    let carry := ps.foldl (fun n p => max n (d.carryFor h p)) 0
    let flags := (if d.get F.HEAD_TIMING_STS_REF_STATE h = refHoldover then 8 else 0) + (if jumped then 16 else 0)
      + (if held then 32 else 0) + (if carry ≠ 0 then 64 else 0) + (if lateHand then 128 else 0)
    let d := d.updHeadSt h (fun s =>
      { s with
        viewed := true, shown := false, composed := !fen, fetching := false, hold := if first then 1 else s.hold
        flags := flags, latch := t, planes := ps, melds := ms, safeSeen := false, under := [], minFill := none })
    let d := d.setReads h (ps.flatMap (fun p => p.pic.toList ++ p.fall.toList))
    let d := if fen then d else d.lipSync h l0 ps
    (d.keptSwap h).portsRefresh

/-- FETCH_START (R238). -/
def fetchStart (d : Dev) (h : Nat) : Dev :=
  if (d.headSt h).viewed then d.updHeadSt h (fun s => { s with fetching := true }) else d

/-- LINE0 (R239): phase and reference, the ports, and the senders. -/
def line0 (d : Dev) (h t : Nat) : Dev :=
  let hs := d.headSt h
  if !hs.viewed || hs.shown then d
  else
    let d := d.put F.HEAD_FRAME_NUM (hs.frame % 2 ^ 32) h
    let d := d.lineZero h t
    let d := d.updHeadSt h (fun s =>
      { s with shown := true, l0 := t, hold := if s.composed || s.hold = 1 then 0 else s.hold })
    let d := d.portsRefresh
    let safe := (d.headPorts h).any (fun p => (d.port p).shows = showSafe)
    let d := d.updHeadSt h (fun s => { s with safeSeen := safe })
    (d.headSenders h).foldl (fun d s => d.senderStart h s) d

/-- R253: scan-out reaches a pixel not yet composed. -/
def underrun (d : Dev) (h line x : Nat) : Dev :=
  let hs := d.headSt h
  let w := d.act F.HEAD_H_TIMING_HACTIVE h
  if !hs.shown || d.fenced .head h || line ≥ d.act F.HEAD_V_TIMING_VACTIVE h || x ≥ w then d
  else
    let prev := hs.under.find? (fun u => u.1 = line)
    if prev.elim false (fun u => u.2 ≤ x) then d
    else
      let add := (prev.elim w (·.2)) - x
      let d := d.count F.HEAD_UNDERRUN_PIX h 0 add
      let d := if prev.isNone then d.count F.HEAD_UNDERRUN_LINES h else d
      let d := if hs.under.isEmpty then (d.count F.HEAD_UNDERRUN_FRAMES h).snapFault 4 .head h else d
      (d.irq .head h 3 0).updHeadSt h (fun s => { s with under := (line, x) :: s.under.filter (fun u => u.1 ≠ line) })

/-- R252, R265: the fill of the output buffer crosses a watermark. -/
def watermark (d : Dev) (h fill : Nat) : Dev :=
  let low := fill < d.act F.HEAD_OBUF_WM_LOW_WM h
  let crit := fill < d.act F.HEAD_OBUF_WM_CRIT_WM h
  let wasLow := d.flag F.HEAD_OBUF_STS_LOW h
  let wasCrit := d.flag F.HEAD_OBUF_STS_CRIT h
  let d := ((d.put F.HEAD_OBUF_STS_FILL fill h).putB F.HEAD_OBUF_STS_LOW low h).putB F.HEAD_OBUF_STS_CRIT crit h
  let d := if low && !wasLow then d.irq .head h 3 1 else d
  let d := if crit && !wasCrit then d.irq .head h 3 2 else d
  d.updHeadSt h (fun s => { s with minFill := some (min fill (s.minFill.getD fill)) })

/-- R305: release of the witness safe state. -/
def safeRelease (d : Dev) (h : Nat) : Dev :=
  if !d.witSafe h then d
  else if (d.headSt h).safeOk then
    let d := ((d.clear [F.WITNESS_WIT_STATE_SAFE, F.WITNESS_WIT_STATE_REL_REFUSED, F.WITNESS_WIT_STATE_RUN] h).irq
      .witness h 0 2)
    (d.updHeadSt h (fun s => { s with hold := if s.hold = 0 then 2 else s.hold })).portsRefresh
  else (d.put F.WITNESS_WIT_STATE_REL_REFUSED 1 h).irq .witness h 0 3

end Dev

/-- Page `p` of a head. -/
def headPage (h p : Nat) : PageRef := ⟨.head, h, p⟩

/-- HAND_SAMPLE (R276). -/
def execHandSample (t : Nat) (head : Fin 64) (s : State) := s.onDev (fun d => (d.atTime t).handSample head)
/-- HEAD_LATCH (R238), and the records that now have their place (R310). -/
def execHeadLatch (t : Nat) (head : Fin 64) (broken : Option Nat) (late : List Nat) (s : State) :=
  s.onDev (fun d => ((d.atTime t).headLatch head (max d.house t) broken late).witFlush)
/-- FETCH_START (R238). -/
def execFetchStart (t : Nat) (head : Fin 64) (s : State) := s.onDev (fun d => (d.atTime t).fetchStart head)
/-- FETCH_ROW_ISSUE (R166). -/
def execFetchRowIssue (t : Nat) (head : Fin 64) (plane : Fin 21) (row : Nat) (errs : List ReadError) (s : State) :=
  s.onDev (fun d =>
    let d := d.atTime t
    if (d.headSt head).viewed then d.withKept head (·.fetchIssue head plane row errs) else d)
/-- LINE0 (R239). -/
def execLine0 (t : Nat) (head : Fin 64) (s : State) := s.onDev (fun d => (d.atTime t).line0 head (max d.house t))
/-- OUTPUT_UNDERRUN (R253). -/
def execOutputUnderrun (t : Nat) (head : Fin 64) (line x : Nat) (s : State) :=
  s.onDev (fun d => (d.atTime t).underrun head line x)
/-- OBUF_WATERMARK (R252). -/
def execObufWatermark (t : Nat) (head : Fin 64) (fill : Byte) (s : State) :=
  s.onDev (fun d => (d.atTime t).watermark head fill.toNat)
/-- SAFE_REL (R305). -/
def execSafeRel (t : Nat) (head : Fin 64) (s : State) :=
  s.onDev (fun d => (d.atTime t).gate ⟨.witness, head, 0⟩ 0xC8 (·.safeRelease head))
/-- HPD_IN_DEASSERT (R257). -/
def execHpdInDeassert (t : Nat) (sb : Fin 48) (s : State) := s.onDev (fun d => (d.atTime t).hpdLow sb)
/-- HPD_IN_ASSERT (R257). -/
def execHpdInAssert (t : Nat) (sb : Fin 48) (s : State) := s.onDev (fun d => (d.atTime t).hpdHigh sb)
/-- OPORT_LINK_UP (R266). -/
def execOportLinkUp (t : Nat) (port : Fin 96) (s : State) := s.onDev (fun d => (d.atTime t).linkUp port)
/-- SIDEBAND_GO (R266). -/
def execSidebandGo (t : Nat) (port : Fin 96) (ddc read : Bool) (len : BitVec 4) (addr : BitVec 20) (s : State) :=
  s.onDev (fun d => (d.atTime t).gate ⟨.oport, port, 0⟩ 0x4C (·.sbGo port ddc read len.toNat addr.toNat))
/-- SIDEBAND_DONE (R266). -/
def execSidebandDone (t : Nat) (port : Fin 96) (result : Fin 3) (data : List Byte) (s : State) :=
  s.onDev (fun d => (d.atTime t).sbDone port result data)
/-- SEL_CLEAR (R204). -/
def execSelClear (t : Nat) (layer : Fin 1024) (s : State) :=
  s.onDev (fun d => (d.atTime t).gate (layerPage layer) 0x170 (·.clear [F.LAYER_REPEATS, F.LAYER_DROPS] layer))
/-- COMP_CLEAR (R231). -/
def execCompClear (t : Nat) (layer : Fin 1024) (s : State) :=
  s.onDev (fun d => (d.atTime t).gate (layerPage layer) 0x1B4 (·.clear [F.LAYER_REPLANS] layer))
/-- MELD_CLEAR (R234). -/
def execMeldClear (t : Nat) (head : Fin 64) (s : State) :=
  s.onDev (fun d => (d.atTime t).gate (headPage head 2) 0x70 (fun d =>
    ((List.range 4).foldl (fun d g => d.put F.HEAD_MELD_REMELDS 0 head g) d).put F.HEAD_MELD_POISON 0 head))
/-- LAYER_FRESH_CLEAR (R35). -/
def execLayerFreshClear (t : Nat) (layer : Fin 1024) (s : State) :=
  s.onDev (fun d => (d.atTime t).gate (layerPage layer) 0x114
    (·.clear [F.LAYER_STALE_FRAMES, F.LAYER_HIDDEN_STALE, F.LAYER_FUTURE_STAMP] layer))
/-- CHASE_CLEAR (R177). -/
def execChaseClear (t : Nat) (layer : Fin 1024) (s : State) :=
  s.onDev (fun d => (d.atTime t).gate (layerPage layer) 0x150 (·.clear [F.LAYER_CHASE_SLIP, F.LAYER_CHASE_FRAMES] layer))
/-- TIMING_CLEAR (R264). -/
def execTimingClear (t : Nat) (head : Fin 64) (s : State) :=
  s.onDev (fun d => (d.atTime t).gate (headPage head 0) 0x64 (·.clear [F.HEAD_JUMPS, F.HEAD_HOLDOVERS] head))
/-- OBUF_CLEAR (R265). -/
def execObufClear (t : Nat) (head : Fin 64) (s : State) :=
  s.onDev (fun d => (d.atTime t).gate (headPage head 3) 0x68
    (·.clear [F.HEAD_UNDERRUN_PIX, F.HEAD_UNDERRUN_LINES, F.HEAD_UNDERRUN_FRAMES] head))
/-- OPORT_CNT_CLEAR (R266). -/
def execOportCntClear (t : Nat) (port : Fin 96) (s : State) :=
  s.onDev (fun d => (d.atTime t).gate ⟨.oport, port, 0⟩ 0x64 (·.clear [F.OPORT_LINK_DOWN, F.OPORT_SAFE_EVENTS] port))
/-- SEND_CNT_CLEAR (R267). -/
def execSendCntClear (t : Nat) (page : Fin 4) (m : BitVec 16) (s : State) :=
  s.onDev (fun d => (d.atTime t).gate ⟨.sendV, page, 0⟩ 0x3F0 (fun d =>
    (List.range 16).foldl (fun d k =>
      if m.getLsbD k then d.clear [F.SENDV_PACKETS, F.SENDV_FRAMES, F.SENDV_LATE] page k else d) d))

end Sys2Proof.Machine
end

