-- ==== Sys2Proof/Machine/Store.lean ====
section
/-! DEFINITION. The commands of the memory switch and the talon (R156, R160 to R163, R174, R175), and the figures of
each whole second. -/
namespace Sys2Proof.Machine
namespace Dev

/-- Owner changes wait: during an audit's freeze (R50), a rebuild (R53), or a fence of the talon (R52). -/
def talonHeld (d : Dev) : Bool := d.talonFrozen || d.flag F.LEDGER_AUDIT_STS_REBUILDING || d.fenced .talon 0

/-- R160: HOST_STAGE follows its request: it takes free slabs as far as there are, or gives up its highest positions. -/
def stageApply (d : Dev) : Dev :=
  let want := d.get F.TALON_HOST_STAGE_SLABS
  let have_ := (d.map ownStage).length
  let d := if want < have_ then d.setMap ownStage ((d.map ownStage).take want)
    else
      let got := d.lowestFree (want - have_)
      d.setMap ownStage (d.map ownStage ++ got.map some)
  (d.stageStatus.fillEmpty).stageStatus

/-- HOST_STAGE_WRITE (R160); the change waits while owner changes do (R50, R52). -/
def stageWrite (d : Dev) (n : Nat) : Dev :=
  let d := d.put F.TALON_HOST_STAGE_SLABS n
  if d.talonHeld then { d with talonWaits := d.talonWaits ++ [.stage] } else d.stageApply

/-- TALON_SLAB_RELEASE (R156, R492). -/
def slabRelease (d : Dev) : Dev := if d.talonHeld then { d with talonWaits := d.talonWaits ++ [.release] } else d.releaseSlabs

/-- Owner changes that were held are served in their order of arrival (R50, R52). -/
def talonServe (d : Dev) : Dev :=
  if d.talonHeld then d
  else d.talonWaits.foldl (fun d q =>
    match q with
    | .release => d.releaseSlabs
    | .stage => d.stageApply) { d with talonWaits := [] }

/-- PC_RELEASE (R162): refused while its cause remains. -/
def pcRelease (d : Dev) (pc : Nat) (met : Bool) : Dev :=
  let d := d.put F.MEMSW_PC_REL_PC pc
  let over_ := sget (fun _ => 0) d.pcErrs pc ≥ max 1 (d.get F.MEMSW_PC_CTL_PC_UE_LIMIT)
  if d.pcFenced pc ∧ (!met ∨ over_) then d.put F.MEMSW_PC_REL_PC_REL_REFUSED 1
  else (d.putAt (F.MEMSW_PC_FENCED.addr 0 (pc / 32) 0) (pc % 32) 1 0).put F.MEMSW_PC_REL_PC_REL_REFUSED 0

/-- SCRUB_PASS_START (R163): a pass begins once every SCRUB_HOURS hours, the first one at once (DESIGN CHOICE, log entry 234). -/
def scrubStart (d : Dev) : Dev :=
  let due := d.scrubAt.elim true (fun t => t + d.get F.MEMSW_SCRUB_CTL_SCRUB_HOURS * 3600000000000 ≤ d.house)
  if d.flag F.MEMSW_SCRUB_CTL_EN && !d.hbmScrub && due then { d with hbmScrub := true, scrubAt := some d.house } else d

/-- SCRUB_DONE (R163): an uncorrectable burst is counted now, and poisons its tile at the tile's next read. -/
def scrubDone (d : Dev) (n : Nat) (bursts : List Nat) : Dev :=
  if !d.hbmScrub then d
  else
    let d := bursts.foldl hbmError (d.corrected n)
    ({ d with hbmScrub := false, scrubBad := d.scrubBad ++ bursts.filter (fun b => !d.scrubBad.contains b) }.count F.MEMSW_SCRUB_STS).irq .memsw 0 0 3

/-- SECOND_STATISTICS (R174, R176, R206): the figures of the last whole second, and the new second's counts. -/
def secondStats (d : Dev) (t : Nat) : Dev :=
  let d := forN 8 d (fun d k => d.put F.MEMSW_BW (min (sget (fun _ => 0) d.moved k / 1000000) (2 ^ 32 - 1)) 0 k)
  let d := d.put F.RECORDER_RATE_MB (d.recBytes / 1000000)
  let d := forN 64 d (fun d n =>
    let now := match sget (fun _ => none) d.engSince n with
      | some t0 => t - t0
      | none => 0
    let busy := sget (fun _ => 0) d.engBusyNs n + now
    let d := if now = 0 then d else { d with engSince := sset (fun _ => none) d.engSince n (some t) }
    d.put F.ENGINE_BUSY_PCT (min 10000 (busy / 100000)) n)
  { d with moved := [], recBytes := 0, engBusyNs := [], pcErrs := [] }

/-- The error and scrub counters (R174). -/
def memswClear (d : Dev) : Dev := (d.clear [F.MEMSW_CE_COUNT, F.MEMSW_UE_COUNT, F.MEMSW_SCRUB_STS]).put64 F.MEMSW_UE_ADDR_LO_ADDR 0

def memswPage : PageRef := ⟨.memsw, 0, 0⟩
def talonPage : PageRef := ⟨.talon, 0, 0⟩

end Dev

/-- PC_RELEASE (R162). -/
def execPcRelease (t : Nat) (pc : Fin 128) (met : Bool) (s : State) :=
  s.onDev (fun d => (d.atTime t).gate Dev.memswPage 0x6C (·.pcRelease pc met))
/-- SCRUB_PASS_START (R163). -/
def execScrubPassStart (t : Nat) (s : State) := s.onDev (fun d => (d.atTime t).scrubStart)
/-- SCRUB_DONE (R163). -/
def execScrubDone (t n : Nat) (bursts : List Nat) (s : State) := s.onDev (fun d => (d.atTime t).scrubDone n bursts)
/-- HOST_STAGE_WRITE (R160). -/
def execHostStageWrite (t : Nat) (slabs : BitVec 16) (s : State) :=
  s.onDev (fun d => (d.atTime t).gate Dev.talonPage 0x44 (·.stageWrite slabs.toNat))
/-- TALON_SLAB_RELEASE (R156). -/
def execTalonSlabRelease (t : Nat) (s : State) := s.onDev (fun d => (d.atTime t).slabRelease)
/-- SECOND_STATISTICS (R174). -/
def execSecondStatistics (t : Nat) (s : State) := s.onDev (fun d => (d.atTime t).secondStats t)
/-- MEMSW_CNT_CLEAR (R174). -/
def execMemswCntClear (t : Nat) (s : State) := s.onDev (fun d => (d.atTime t).gate Dev.memswPage 0xA0 (·.memswClear))
/-- TALON_CNT_CLEAR (R175). -/
def execTalonCntClear (t : Nat) (s : State) :=
  s.onDev (fun d => (d.atTime t).gate Dev.talonPage 0xB0 (·.clear [F.TALON_BUF_STARVE]))
/-- PC_RETRAIN_FAIL (R162). -/
def execPcRetrainFail (t : Nat) (pc : Fin 128) (s : State) := s.onDev (fun d => (d.atTime t).pcFence pc)

end Sys2Proof.Machine
end

