-- ==== Sys2Proof/Machine/Message.lean ====
section
/-! DEFINITION. Tatre messages (R357, R358, R370 to R373): how control messages are made and sent, and the checks
a received message passes. -/
namespace Sys2Proof.Machine

/-- Message types (R358). -/
def tyTile : Nat := 0x01
def tyStamps : Nat := 0x02
def tyEnd : Nat := 0x03
def tyAlive : Nat := 0x04
def tyKeep : Nat := 0x10
def tyDealerKeep : Nat := 0x11
def tyBid : Nat := 0x12
def tyRetract : Nat := 0x13
def tyDecision : Nat := 0x14
def tyVote : Nat := 0x15

/-- A little-endian field of a message: `n` bytes from `o`. -/
def mget (m : List Byte) (o n : Nat) : Nat := leVal ((m.drop o).take n)

/-- House address of a sender as one number. -/
def addrCode (table seat : Nat) : Nat := table * 64 + seat

namespace Dev

/-- The device's house address (R350). -/
def myTable (d : Dev) : Nat := d.act F.DEAL_SEAT_CFG_TABLE
def mySeat (d : Dev) : Nat := d.act F.DEAL_SEAT_CFG_SEAT

/-- Interfaces that carry control messages (R368). -/
def ctrlIfs (d : Dev) : List Nat :=
  (List.range 16).filter (fun i => d.netUp i && d.act F.NPORT_SP_CFG_CTRL_EN (i / 4) (i % 4) = 1)

/-- A group address of a port as applied. -/
def grpAddr (d : Dev) (f : Fld) (p : Nat) : List Word := (List.range 4).map (fun k => BitVec.ofNat 32 (d.act f p k))

def updDeal (d : Dev) (f : DealSt → DealSt) : Dev := { d with deal := f d.deal }

/-- SEND_TIME of a control message: house time, and never one that a message of its TYPE has had (R371). -/
def sendTime (d : Dev) (ty : Nat) : Nat :=
  let l := sget (fun _ => 0) d.deal.given ty
  if d.house < l then l else d.house

/-- A control message is made, tagged and sent on every interface with CTRL_EN (R358, R370, R373). Without a key
of its class none can be made. -/
def sendControl (d : Dev) (ty : Nat) (house : Bool) (body : List Byte) : Dev :=
  match (if house then d.keys.house else d.keys.table).head? with
  | none => d
  | some (gen, key) =>
    let t := d.sendTime ty
    let len := 20 + body.length + 16
    let x := d.tatreHeader ty len t ++ [BitVec.ofNat 8 ((if house then 128 else 0) + gen % 128), 0, 0, 0] ++ body
    let msg := x ++ kmac256 key x 16 "Tatre control"
    let d := d.updDeal (fun s =>
      { s with
        given := sset (fun _ => 0) s.given ty (t + 1)
        own := if ty = tyKeep then (t :: s.own).take 8 else s.own })
    d.ctrlIfs.foldl (fun d i =>
      d.udpSend i (d.grpAddr (if house then F.NPORT_HOUSE_GRP else F.NPORT_TABLE_GRP) (i / 4))
        (d.act F.NPORT_NET_TATRE_PORT (i / 4) (i % 4)) msg) d

/-! Reception. -/

/-- The keys a control message may be under: class and generation from its KEY byte (R370). -/
def keyFor (d : Dev) (k : Nat) : Option (List Byte) :=
  ((if k ≥ 128 then d.keys.house else d.keys.table).find? (fun q => q.1 % 128 = k % 128)).map (·.2)

/-- The class of key a message is sent under (R358). -/
def houseClass (m : List Byte) : Bool :=
  let ty := mget m 3 1
  ty = tyDealerKeep || ty = tyVote || (ty = tyDecision && mget m 20 1 = 1)

/-- Length of a control message (R372). -/
def ctrlLen (ty : Nat) : Nat :=
  if ty = tyKeep then 48 else if ty = tyDealerKeep then 40 else if ty = tyBid then 100 else if ty = tyRetract then 52
  else if ty = tyDecision then 56 else if ty = tyVote then 92 else 0

/-- R357: MAGIC, VERSION and LENGTH are right, and another device sent it. -/
def headerOk (m : List Byte) (len : Nat) : Bool :=
  mget m 0 2 = 0x5451 && mget m 2 1 = 1 && mget m 6 2 = m.length && m.length = len && 16 ≤ m.length

/-- R371, check 1. -/
def tagOk (d : Dev) (m : List Byte) : Bool :=
  match d.keyFor (mget m 16 1) with
  | none => false
  | some key =>
    (mget m 16 1 ≥ 128) = houseClass m && m.drop (m.length - 16) = kmac256 key (m.take (m.length - 16)) 16 "Tatre control"

/-- Sender of a message. -/
def srcCode (m : List Byte) : Nat := addrCode (mget m 4 1) (mget m 5 1 % 64)

/-- R357, R351, R371: a control message of a type arrives on an interface; the device after its counts, and whether
it is accepted. -/
def acceptControl (d : Dev) (i ty : Nat) (m : List Byte) : Bool × Dev :=
  if !d.netUp i || !d.netHears i (fun o => match o with | .udp k _ _ b => k = i && b = m | _ => false) then (false, d)
  else
   let d := d.netLoops i (.udp (d.act F.NPORT_NET_TATRE_PORT (i / 4) (i % 4)) m)
   if d.act F.NPORT_SP_CFG_CTRL_EN (i / 4) (i % 4) ≠ 1 then (false, d)
   else
    let p := i / 4
    let s := i % 4
    let d := d.count F.NPORT_RX_FRAMES p s
    let t := mget m 8 8
    let dest := leVal ((d.grpAddr (if houseClass m then F.NPORT_HOUSE_GRP else F.NPORT_TABLE_GRP) p).flatMap (fun w => leBytes 4 w.toNat))
    if overMtu dest m.length then (false, d.tooLong i) else
    let ok := headerOk m (ctrlLen ty) && mget m 3 1 = ty
    let fresh := max t d.house - min t d.house ≤ 5000000
    if !ok then (false, d.count F.NPORT_NOT_FOR_US p s)
    else if srcCode m = addrCode d.myTable d.mySeat then
      let d := d.count F.NPORT_NOT_FOR_US p s
      if ty = tyKeep ∧ d.tagOk m ∧ fresh ∧ !d.deal.own.contains t then
        let d := if d.flag F.NPORT_PORT_STS_SEAT_CONFLICT p then d
          else (d.put F.NPORT_PORT_STS_SEAT_CONFLICT 1 p).irq .nport p 0 11
        (false, d.updDeal (fun x => { x with conflict := true }))
      else (false, d)
    else if !d.tagOk m then (false, (d.count F.NPORT_TAG_FAIL p s).irq .nport p 0 8)
    else if !fresh then (false, d.count F.NPORT_STALE_MSG p s)
    else
      let k := ty * 2 ^ 20 + srcCode m
      if t < sget (fun _ => 0) d.deal.last k then (false, d.count F.NPORT_DUP p s)
      else (true, d.updDeal (fun x => { x with last := sset (fun _ => 0) x.last k (t + 1) }))

/-- The record of R371 for a sender is cleared when it is declared lost. -/
def forget (d : Dev) (src : Nat) : Dev :=
  d.updDeal (fun x => { x with last := x.last.filter (fun q => q.1 % 2 ^ 20 ≠ src) })

end Dev
end Sys2Proof.Machine
end

