-- ==== Sys2Proof/Machine/Dealer.lean ====
section
/-! DEFINITION. Elections (R289, R290, R292), the table dealer and the house dealer (R283, R287), and what a
participant does with a decision (R284 to R286). -/
namespace Sys2Proof.Machine

/-- DEAL and FOLD, and the causes of a fold (R293, R372). -/
def vDeal : Nat := 1
def vFold : Nat := 2
def fcWithdrawn : Nat := 1
def fcMissing : Nat := 2
def fcNotStanding : Nat := 3
def fcMismatch : Nat := 4
def fcOutOfHand : Nat := 5
def fcFull : Nat := 6
def fcChange : Nat := 7
def fcTable : Nat := 8

namespace Dev

def seat (d : Dev) (s : Nat) : SeatSt := sget (fun _ => {}) d.deal.seats s
def setSeat (d : Dev) (s : Nat) (x : SeatSt) : Dev := d.updDeal (fun q => { q with seats := sset (fun _ => {}) q.seats s x })
def tableSt (d : Dev) (n : Nat) : TableSt := sget (fun _ => {}) d.deal.tables n
def setTableSt (d : Dev) (n : Nat) (x : TableSt) : Dev := d.updDeal (fun q => { q with tables := sset (fun _ => {}) q.tables n x })

/-- A 64-bit mask held as two words. -/
def mask64 (d : Dev) (f : Fld) : Nat := d.get64 f
/-- A 256-bit mask held as eight words. -/
def mask256 (d : Dev) (f : Fld) : Nat := (List.range 8).foldl (fun n k => n + d.get f 0 k * 2 ^ (32 * k)) 0
def inMask (m i : Nat) : Bool := m / 2 ^ i % 2 = 1
def maskList (m n : Nat) : List Nat := (List.range n).filter (inMask m)

/-- The own seat is live in its own view; it offers the dealer function unless that is fenced or its address is in
conflict (R289, R351, R52). -/
def eligible (d : Dev) : Bool :=
  d.actFlag F.DEAL_SEAT_CFG_DEALER_ELIGIBLE && d.actFlag F.DEAL_SEAT_CFG_TABLE_EN && !d.fenced .deal 0 1 && !d.deal.conflict

/-- FLAGS of the own keepalive (R372). -/
def keepFlags (d : Dev) : Nat :=
  (if d.eligible then 1 else 0) + (if d.actFlag F.DEAL_SEAT_CFG_HOUSE_ELIGIBLE then 2 else 0)
    + (if d.flag F.DEAL_DEALER_STS_IS_DEALER then 4 else 0)

/-- The table's dealer in this device's view: the lowest live eligible seat (R289). -/
def electDealer (d : Dev) : Option Nat :=
  (List.range 64).find? (fun s => if s = d.mySeat then d.eligible else (d.seat s).live && (d.seat s).flags % 2 = 1)

/-- The table of the house dealer: among the live table dealers, the lowest eligible table (R289). -/
def electHouse (d : Dev) : Option Nat :=
  (List.range 256).find? (fun n =>
    if n = d.myTable then d.flag F.DEAL_DEALER_STS_IS_DEALER && d.actFlag F.DEAL_SEAT_CFG_HOUSE_ELIGIBLE
    else (d.tableSt n).live && (d.tableSt n).flags % 2 = 1)

/-- A list of numbered bits as words of a register array. -/
def putMask (d : Dev) (f : Fld) (words : Nat) (m : Nat) (str : Nat) : Dev :=
  (List.range words).foldl (fun d k => d.setWord (f.addr 0 0 0 + str * k) (BitVec.ofNat 32 (m / 2 ^ (32 * k)))) d

/-- LIVE_SEATS and LIVE_TABLES follow the keepalives; the own seat is live while the device takes part. -/
def showLive (d : Dev) : Dev :=
  let ss := d.deal.seats.foldl (fun n q => if q.2.live then n + 2 ^ q.1 else n) 0
  let own := if d.actFlag F.DEAL_SEAT_CFG_TABLE_EN ∧ !inMask ss d.mySeat then 2 ^ d.mySeat else 0
  let ts := d.deal.tables.foldl (fun n q => if q.2.live then n + 2 ^ q.1 else n) 0
  let me := if d.flag F.DEAL_DEALER_STS_IS_DEALER ∧ !inMask ts d.myTable then 2 ^ d.myTable else 0
  (d.putMask F.DEAL_LIVE_SEATS_LO 2 (ss + own) 4).putMask F.DEAL_LIVE_TABLES 8 (ts + me) 4

def showOpen (d : Dev) : Dev := d.put F.DEAL_DEALS_OPEN_COUNT (d.deal.opened.filter (fun q => !q.house)).length

/-! A participant and a decision. -/

/-- The hand in progress is the deal of a scope, an epoch and an apply time (R372). -/
def isMyDeal (d : Dev) (scope epoch apply : Nat) : Bool :=
  d.hand.pending && d.hand.scope = scope && d.hand.epoch = epoch && d.hand.apply = apply

/-- R285: the late window closes; the checks, if they still run, end, and the hand regions reopen as written. -/
def lateClose (d : Dev) : Dev :=
  if d.hand.pending ∧ d.hand.missed then { d.handRelease.put F.DEAL_STS_CHECKING 0 with handLock := false, hand := {} } else d

/-- R284 to R286: the first decision for the device's own deal takes effect. -/
def takeDecision (d : Dev) (verdict cause : Nat) : Dev :=
  let d := d.put F.DEAL_STS_DECISION verdict
  if verdict = vDeal then
    if d.hand.missed then
      let d := ((d.put F.DEAL_STS_LATE 1).put F.DEAL_STS_OUTCOME ocPending).count F.DEAL_LATE_APPLIES
      ({ d with hand := { d.hand with missed := false, dealt := true, lateAt := some d.house, tooLate := d.hand.withdrawn } }.irq
        .deal 0 0 7).applyTime
    else { d with hand := { d.hand with dealt := true, tooLate := d.hand.withdrawn } }.applyTime
  else if d.hand.missed then d.lateClose
  else d.handFold cause

/-- Body of a DECISION (R372). -/
def decisionBody (level verdict cause seat epoch apply table : Nat) : List Byte :=
  leBytes 1 level ++ leBytes 1 verdict ++ leBytes 1 cause ++ leBytes 1 seat ++ leBytes 4 epoch ++ leBytes 8 apply
    ++ leBytes 1 table ++ leBytes 3 0

/-- A decision reaches this device, from the network or from its own dealer: the first one for a deal is sent on to
the table once, with every field kept (R372), and takes effect; a later one that differs is a conflict (R284). A decision
of level 0 is of a table deal, one of level 1 of a house deal. -/
def learn (d : Dev) (level verdict cause seat epoch apply table : Nat) : Dev :=
  match d.deal.decided.find? (fun q => q.1 = level * 2 ^ 32 + epoch && q.2.1 = apply) with
  | some q => if q.2.2 = verdict then d else (d.count F.DEAL_DECISION_CONFLICT).irq .deal 0 1 4
  | none =>
    let d := d.updDeal (fun s => { s with decided := ((level * 2 ^ 32 + epoch, apply, verdict) :: s.decided).take 64 })
    let d := d.sendControl tyDecision false (decisionBody level verdict cause seat epoch apply table)
    if d.isMyDeal (level + 1) epoch apply then d.takeDecision verdict cause else d

/-! The house dealer (R287). -/

/-- Replace an open deal by its identity and level. -/
def sameDeal (q r : DealRec) : Bool := q.house = r.house && q.epoch = r.epoch && q.apply = r.apply && q.scope = r.scope
def putDeal (d : Dev) (q : DealRec) : Dev :=
  (d.updDeal (fun s => { s with opened := s.opened.filter (fun r => !sameDeal q r) ++ [q] })).showOpen
def dropDeal (d : Dev) (q : DealRec) : Dev :=
  (d.updDeal (fun s => { s with opened := s.opened.filter (fun r => !sameDeal q r) })).showOpen

/-- The house dealer's decision goes to each named table (R287); its own table learns it at once. -/
def houseDecision (d : Dev) (q : DealRec) (verdict cause : Nat) : Dev :=
  let d := d.dropDeal q
  let d := (maskList q.tables 256).foldl (fun d n =>
    d.sendControl tyDecision true (decisionBody 1 verdict cause d.mySeat q.epoch q.apply n)) d
  d.learn 1 verdict cause d.mySeat q.epoch q.apply d.myTable

/-- The house dealer receives a table bid or a table fold (R287). -/
def houseVote (d : Dev) (table vote epoch apply decide tables : Nat) : Dev :=
  if !d.flag F.DEAL_DEALER_STS_IS_HOUSE_DEALER then d
  else
    let new : DealRec := { house := true, scope := 2, epoch := epoch, apply := apply, decide := decide, tables := tables }
    let q := (d.deal.opened.find? (sameDeal new)).getD new
    let q := { q with
      differ := q.differ || q.decide ≠ decide || q.tables ≠ tables
      bids := if vote = vDeal then addOnce q.bids table else q.bids
      folds := if vote = vDeal then q.folds else addOnce q.folds table }
    d.putDeal q

/-- HOUSE_DECIDE (R287): at D + 2W. -/
def houseDecide (d : Dev) (t : Nat) : Dev :=
  let w := d.act F.DEAL_DEALER_CFG_WAIT_US * 1000
  (d.deal.opened.filter (fun q => q.house && q.decide + 2 * w ≤ t)).foldl (fun d q =>
    if !q.folds.isEmpty then d.houseDecision q vFold fcTable
    else if q.differ then d.houseDecision q vFold fcMismatch
    else if (maskList q.tables 256).all (fun n => q.bids.contains n) then d.houseDecision q vDeal 0
    else d.houseDecision q vFold fcMissing) d

/-! The table dealer (R283). -/

/-- Body of a TABLE_VOTE (R372). -/
def voteBody (vote cause : Nat) (q : DealRec) : List Byte :=
  leBytes 1 vote ++ leBytes 1 cause ++ leBytes 2 0 ++ leBytes 4 q.epoch ++ leBytes 8 q.apply ++ leBytes 8 q.decide
    ++ leBytes 32 q.tables

/-- The dealer decides a deal: a table deal's decision goes to the participants, a house deal's to the house dealer
(R283, R287). -/
def decideDeal (d : Dev) (q : DealRec) (verdict cause : Nat) : Dev :=
  let d := d.dropDeal q
  let d := if verdict = vDeal then d.count F.DEAL_DEALS else d.count F.DEAL_FOLDS_DECIDED
  if q.scope = 2 then
    let d := d.sendControl tyVote true (voteBody verdict cause q)
    d.houseVote d.myTable verdict q.epoch q.apply q.decide q.tables
  else d.learn 0 verdict cause d.mySeat q.epoch q.apply d.myTable

/-- A bid stands (R283): held, and a keepalive sent at or after D − 1 ms carried its epoch. The own bid stands while
the device holds the hand. -/
def stands (d : Dev) (q : DealRec) (s : Nat) : Bool :=
  q.bids.contains s &&
    (if s = d.mySeat then d.isMyDeal q.scope q.epoch q.apply
     else (d.seat s).recent.any (fun k => q.decide ≤ k.1 + 1000000 && k.2 = q.epoch))

/-- The seat is marked OUT_OF_HAND (R292). -/
def outOfHand (d : Dev) (s : Nat) : Bool := inMask (d.mask64 F.DEAL_OOH_SEATS_LO) s

/-- Reasons to fold at once: a named seat out of hand, or bids that disagree (R283, R281). -/
def foldsEarly (d : Dev) (q : DealRec) : Option Nat :=
  if q.differ then some fcMismatch
  else if (maskList q.seats 64).any d.outOfHand then some fcOutOfHand
  else none

/-- A bid reaches the dealer (R283). -/
def dealerBid (d : Dev) (seat sent : Nat) (new : DealRec) : Dev :=
  if !d.flag F.DEAL_DEALER_STS_IS_DEALER || sent < d.deal.dealerSince then d
  else
    let d := d.count F.DEAL_BIDS
    match d.deal.opened.find? (sameDeal new) with
    | some q =>
      if q.bids.contains seat then d.count F.DEAL_BID_DUP
      else
        let q := { q with
          bids := q.bids ++ [seat], count := q.count + 1
          differ := q.decide ≠ new.decide || q.seats ≠ new.seats || q.tables ≠ new.tables }
        match d.foldsEarly q with
        | some c => d.decideDeal q vFold c
        | none => d.putDeal q
    | none =>
      if (d.deal.opened.filter (fun q => !q.house)).length ≥ 8 then d.decideDeal new vFold fcFull
      else
        let q := { new with bids := [seat], count := 1 }
        match d.foldsEarly q with
        | some c => d.decideDeal q vFold c
        | none => d.putDeal q

/-- DEALER_DECIDE (R283): at D + W. -/
def dealerDecide (d : Dev) (t : Nat) : Dev :=
  let w := d.act F.DEAL_DEALER_CFG_WAIT_US * 1000
  (d.deal.opened.filter (fun q => !q.house && q.decide + w ≤ t)).foldl (fun d q =>
    let ss := maskList q.seats 64
    if ss.all (d.stands q) then d.decideDeal q vDeal 0
    else if ss.all (fun s => q.bids.contains s) then d.decideDeal q vFold fcNotStanding
    else d.decideDeal q vFold fcMissing) d

/-- A retract of a seat that the deal names reaches the dealer (R283, R286). -/
def dealerRetract (d : Dev) (seat scope epoch apply : Nat) : Dev :=
  if !d.flag F.DEAL_DEALER_STS_IS_DEALER then d
  else (d.deal.opened.filter (fun q => !q.house && inMask q.seats seat && q.scope = scope && q.epoch = epoch && q.apply = apply)).foldl
    (fun d q => d.decideDeal q vFold fcWithdrawn) d

/-- A named seat is declared lost (R283). -/
def dealerLost (d : Dev) (s : Nat) : Dev :=
  (d.deal.opened.filter (fun q => !q.house && inMask q.seats s)).foldl (fun d q => d.decideDeal q vFold fcNotStanding) d

/-- Elections are held anew (R289, R290, R295, R296). DEALER_CHANGES counts changes of DEALER_SEAT; the event also tells that the
table gained or lost a dealer (log entry 254). -/
def elect (d : Dev) : Dev :=
  let was := d.flag F.DEAL_DEALER_STS_IS_DEALER
  let seat := d.electDealer
  let is := seat = some d.mySeat && d.actFlag F.DEAL_SEAT_CFG_TABLE_EN
  let moved := seat.elim false (fun s => s ≠ d.get F.DEAL_DEALER_STS_DEALER_SEAT)
  let changed := moved || d.flag F.DEAL_DEALER_STS_NO_DEALER ≠ seat.isNone
  let d := if was ∧ !is then
      (d.deal.opened.filter (fun q => !q.house)).foldl (fun d q => d.decideDeal q vFold fcChange) d
    else d
  let d := (d.putB F.DEAL_DEALER_STS_NO_DEALER seat.isNone).put F.DEAL_DEALER_STS_DEALER_SEAT
    (seat.getD (d.get F.DEAL_DEALER_STS_DEALER_SEAT))
  let d := d.putB F.DEAL_DEALER_STS_IS_DEALER is
  let d := if is ∧ !was then d.updDeal (fun s => { s with dealerSince := d.house }) else d
  let d := if moved then d.count F.DEAL_DEALER_CHANGES else d
  let d := if changed then d.irq .deal 0 1 0 else d
  let wasH := d.flag F.DEAL_DEALER_STS_IS_HOUSE_DEALER
  let house := d.electHouse
  let isH := house = some d.myTable && is
  let changedH := (d.flag F.DEAL_DEALER_STS_NO_HOUSE_DEALER, d.get F.DEAL_DEALER_STS_HOUSE_TABLE)
    ≠ (house.isNone, house.getD (d.get F.DEAL_DEALER_STS_HOUSE_TABLE))
  let d := if wasH ∧ !isH then
      (d.deal.opened.filter (·.house)).foldl (fun d q => d.houseDecision q vFold fcChange) d
    else d
  let d := (d.putB F.DEAL_DEALER_STS_NO_HOUSE_DEALER house.isNone).put F.DEAL_DEALER_STS_HOUSE_TABLE
    (house.getD (d.get F.DEAL_DEALER_STS_HOUSE_TABLE))
  let d := d.putB F.DEAL_DEALER_STS_IS_HOUSE_DEALER isH
  let d := if isH ∧ !wasH then d.updDeal (fun s => { s with houseSince := d.house }) else d
  (if changedH then d.irq .deal 0 1 1 else d).showLive

/-! Keepalives (R368, R292). -/

/-- The bid pending of this device (R372): the epoch of a sealed table or house hand that has bid and is not
decided. -/
def bidEpoch (d : Dev) : Nat :=
  if d.hand.pending && d.hand.scope ≠ 0 && d.hand.done.isSome && !d.hand.dealt && !d.hand.missed then d.hand.epoch else 0

def keepBody (d : Dev) : List Byte :=
  leBytes 4 (d.get F.DEAL_EPOCH_ACTIVE) ++ leBytes 4 d.bidEpoch ++ leBytes 1 d.keepFlags
    ++ leBytes 1 (d.get F.DEAL_DEALER_STS_DEALER_SEAT) ++ leBytes 2 0

/-- An accepted keepalive of a seat of the own table (R368, R289, R292). -/
def keepaliveIn (d : Dev) (i : Nat) (m : List Byte) : Dev :=
  if mget m 4 1 ≠ d.myTable then d
  else
    let s := mget m 5 1 % 64
    let old := d.seat s
    let e := mget m 20 4
    let d := if old.live then d else d.irq .nport (i / 4) 0 10
    let d := d.setSeat s
      { live := true, heard := d.house, epoch := e, flags := mget m 28 1
        nonzero := old.nonzero || e ≠ 0, recent := ((mget m 8 8, mget m 24 4) :: old.recent).take 16 }
    let bit := 2 ^ s
    let ooh := d.mask64 F.DEAL_OOH_SEATS_LO
    let d := if d.flag F.DEAL_DEALER_STS_IS_DEALER ∧ e = 0 ∧ old.nonzero ∧ !inMask ooh s then
        let d := (d.putMask F.DEAL_OOH_SEATS_LO 2 (ooh + bit) 4).irq .deal 0 1 2
        (d.deal.opened.filter (fun q => !q.house && inMask q.seats s)).foldl (fun d q => d.decideDeal q vFold fcOutOfHand) d
      else if e ≠ 0 ∧ inMask ooh s then (d.putMask F.DEAL_OOH_SEATS_LO 2 (ooh - bit) 4).irq .deal 0 1 3
      else d
    d.elect

/-- An accepted keepalive of a table dealer (R368, R289). -/
def dealerKeepIn (d : Dev) (m : List Byte) : Dev :=
  if !d.flag F.DEAL_DEALER_STS_IS_DEALER then d
  else (d.setTableSt (mget m 4 1) { live := true, heard := d.house, flags := mget m 20 1 }).elect

/-- A seat is declared lost (R368, R369, R371, R283). -/
def seatLost (d : Dev) (s : Nat) : Dev :=
  let d := d.setSeat s { d.seat s with live := false, recent := [] }
  let d := (d.forget (addrCode d.myTable s)).snapFault 6 .nport 0
  let d := d.ctrlIfs.foldl (fun d i => d.irq .nport (i / 4) 0 9) d
  let d := if d.flag F.DEAL_DEALER_STS_IS_DEALER then d.dealerLost s else d
  d.elect

/-- A table's dealer is declared lost. -/
def tableLost (d : Dev) (n : Nat) : Dev := (d.setTableSt n { d.tableSt n with live := false }).elect

end Dev
end Sys2Proof.Machine
end

