-- ==== Sys2Proof/Machine/Ingest.lean ====
section
/-! DEFINITION. The commands of the ingest contexts: baseband frames and lines, ST 2110 packets, format and
loss events, the heartbeat reader, and the counters (R112 to R142, R26 to R31). -/
namespace Sys2Proof.Machine

/-- Octets of a received RTP packet as a UDP payload: the RTP header of 12, and the payload of its kind; sample row data begins
with 2 octets and 6 for each run (ST 2110-20: PRESUMED, log entry 257). -/
def rtpOctets (kind depth : Nat) (p : RtpPacket) : Nat :=
  if kind = 6 then 14 + 6 * p.rows.length + p.rows.foldl (fun n r => n + (r.2.2.length * depth + 7) / 8) 0
  else if kind = 9 then 12 + p.bytes.length
  else 12 + p.words.foldl (fun n w => n + w.length * (if kind = 7 then 3 else 4)) 0

/-! Conversion of received samples to a stored line (R128). -/

/-- Received samples of one group as components and alpha in stored order, before any depth change. `s444`:
the target is 4:4:4. A 4:2:2 group repeats its chroma for the second luma sample when it is expanded. -/
def convGroup (in444 alphaIn s444 : Bool) (g : List Nat) : List Nat × List Nat :=
  if in444 then (g.take 3, if alphaIn then (g.drop 3).take 1 else [])
  else if s444 then
    ([g.getD 1 0, g.getD 0 0, g.getD 2 0, g.getD 3 0, g.getD 0 0, g.getD 2 0],
      if alphaIn then (g.drop 4).take 2 else [])
  else (g.take 4, if alphaIn then (g.drop 4).take 2 else [])

/-- Weave alpha after each pixel's colour (4:4:4) or after the pair (4:2:2). -/
def weaveAlpha (s444 : Bool) (c a : List Nat) : List Nat :=
  if s444 then (List.range (c.length / 3)).flatMap (fun k => (c.drop (3 * k)).take 3 ++ (a.drop k).take 1) else c ++ a

/-- Groups of `n` samples. -/
def groupsOf (n : Nat) (xs : List Nat) : List (List Nat) :=
  (List.range (xs.length / n)).map (fun k => (xs.drop (n * k)).take n)

/-- R128: a received line (4:4:4 or 4:2:2 samples with or without alpha) as a stored line. -/
def storeLine (in444 alphaIn : Bool) (dIn : Nat) (f : TileFmt) (xs : List Nat) : List Nat :=
  let n := (if in444 then 3 else 4) + (if alphaIn then (if in444 then 1 else 2) else 0)
  (groupsOf n xs).flatMap (fun g =>
    let p := convGroup in444 alphaIn f.s444 g
    let c := p.1.map (fun v => depthConv v dIn f.bits)
    let a := if p.2.isEmpty then List.replicate (if in444 then 1 else 2) (2 ^ f.bits - 1)
      else p.2.map (fun v => depthConv v dIn f.bits)
    if f.alpha then weaveAlpha f.s444 c a else c)

/-- Pairs of chroma samples of a 4:2:2 line. -/
def chromaOf (xs : List Nat) : List (Nat × Nat) := (groupsOf 4 xs).map (fun g => (g.getD 0 0, g.getD 2 0))

/-- A 4:2:0 line without chroma, with the chroma of the line before it (R128). -/
def withChroma (ch : List (Nat × Nat)) (ys : List Nat) : List Nat :=
  (List.range (ys.length / 2)).flatMap (fun k =>
    [(ch.getD k (0, 0)).1, ys.getD (2 * k) 0, (ch.getD k (0, 0)).2, ys.getD (2 * k + 1) 0])

namespace Dev

/-- Received pixels of a line, for the width check of R124. -/
def lineWidth (sig : SigFmt) (chromaLine : Bool) (xs : List Nat) : Nat :=
  if sig.sampling ≤ 1 then xs.length / 3
  else if sig.sampling = 3 && !chromaLine then xs.length
  else xs.length / 2

/-- The bottom tile row is complete or 32 lines are: its tiles are written with the arrival time (R9, R129). -/
def writeRow (d : Dev) (n t : Nat) (f : InFrame) (row : Nat) : Dev :=
  (List.range f.pic.cols).foldl (fun d c =>
    d.writeTile (reqIngest n) f.pic (d.latest n) c row t false (tileOfLines f.pic.fmt f.rowLines c)) d

/-- R130: one received line of a frame that has a buffer. -/
def takeLine (d : Dev) (n t : Nat) (f : InFrame) (xs : List Nat) (errs : Nat) : Dev :=
  let chromaLine := f.sig.sampling ≠ 3 || f.lines % 2 = 0
  let ch := if f.sig.sampling = 3 && chromaLine then chromaOf xs else f.chroma
  let line := if chromaLine then xs else withChroma f.chroma xs
  let gap := t - f.lastLine
  let off := f.lines ≥ 2 && (max gap f.period - min gap f.period) * 1000 > f.period
  let stored := storeLine (f.sig.sampling ≤ 1) false (8 + 2 * f.sig.depth) f.pic.fmt line
  let k := f.lines + 1
  let f1 := { f with
    lines := k, chroma := ch, lastLine := t, period := if f.lines = 1 then gap else f.period
    badPeriod := f.badPeriod || off
    short := f.short || lineWidth f.sig chromaLine xs < f.sig.width
    long := f.long || f.sig.width < lineWidth f.sig chromaLine xs
    linkErr := f.linkErr || errs ≠ 0
    rowLines := f.rowLines ++ [stored] }
  if k > f.sig.height then d.updCtx n (fun c => { c with cur := some { f with lines := k } })
  else
    let full := k % 32 = 0 || k = f.sig.height
    let d := if full then d.writeRow n t f1 ((k - 1) / 32) else d
    (d.updCtx n (fun c => { c with cur := some (if full then { f1 with rowLines := [] } else f1) })).put
      F.INGEST_WRITE_LINE (k - 1) n

/-- Whether an ended frame has exactly the active lines and samples of a format (R124), and its totals too (R125). -/
def frameExact (f : InFrame) (sig : SigFmt) : Bool := f.lines = sig.height && !f.short && !f.long && f.sig.width = sig.width
def frameAgrees (f : InFrame) (sig : SigFmt) (e : FrameEnd) : Bool :=
  frameExact f sig && e.htotal = sig.htotal && e.vtotal = sig.vtotal

/-- What a stream signals of its format: without the measured totals and the field's parity. -/
def sigKey (s : SigFmt) : SigFmt := { s with htotal := 0, vtotal := 0, bottom := false }

/-- R114: the active pixel rate of a received frame, by its line period, is at most 4.0 Gpix/s. -/
def rateSupported (f : InFrame) : Bool := f.sig.width * f.sig.height ≤ 4 * f.period * f.sig.vtotal || f.period = 0

/-- Entry into a state with its event (R142). -/
def enterState (d : Dev) (n st bit : Nat) : Dev :=
  if d.ctxState n = st then d else (d.setCtxState n st).irq .ingest n 0 bit

/-- R124, R125, R131, R136: the active lines of a frame have ended. A frame that confirms the format in SEARCH gives it the
totals measured; the confirmed period is its first line period, in whole ns, times its total lines (DESIGN CHOICE, log
entry 247). Lines with too few or too many samples make a later frame SHORT or LONG (DEDUCED, log entry 213). -/
def endFrame (d : Dev) (n t : Nat) (f : InFrame) (e : FrameEnd) : Dev :=
  let st := d.ctxState n
  if e.skewed then d.discard n drSkew
  else if st = stSearch then
    if frameExact f f.sig && !f.badPeriod then
      let f := { f with sig := { f.sig with htotal := e.htotal, vtotal := e.vtotal } }
      if !rateSupported f then (d.discard n drFormat).enterState n stUnsupported 5
      else if f.linkErr && !d.actFlag F.INGEST_CFG_ERR_POLICY n then d.discard n drLinkErr
      else
        (d.updCtx n (fun c => { c with
          cur := some f, confirmed := some f.sig, oddFrames := 0, oddPeriods := 0, confPeriod := f.period * f.sig.vtotal })).publish n t
    else d.discard n drFormat
  else
    let conf := ((d.ctx n).confirmed).getD f.sig
    let odd := !frameAgrees f conf e
    let m := if odd then (d.ctx n).oddFrames + 1 else 0
    let d := d.updCtx n (fun c => { c with oddFrames := m })
    if m ≥ 2 then d.formatChange n
    else if f.lines < conf.height || f.short then d.discard n drShort
    else if f.lines > conf.height || f.long then d.discard n drLong
    else if f.linkErr && !d.actFlag F.INGEST_CFG_ERR_POLICY n then d.discard n drLinkErr
    else d.publish n t

/-- A frame still open when the next begins has missing lines (R139). -/
def closeOpen (d : Dev) (n : Nat) : Dev :=
  match (d.ctx n).cur with
  | none => d
  | some f =>
    if f.drop then d.discardCur n 0
    else if d.ctxState n = stSearch then d.discard n drFormat
    else
      let m := (d.ctx n).oddFrames + 1
      let d := d.updCtx n (fun c => { c with oddFrames := m })
      if m ≥ 2 then d.formatChange n else d.discard n drShort

/-- R125: the period between two starts of frame of a LOCKED context. -/
def measurePeriod (d : Dev) (n t : Nat) : Dev :=
  let c := d.ctx n
  let d := d.updCtx n (fun c => { c with lastStart := some t })
  match c.lastStart with
  | none => d
  | some t0 =>
    if d.ctxState n ≠ stLocked then d
    else
      let p := t - t0
      let ps := (p :: c.periods).take 16
      let off := (max p c.confPeriod - min p c.confPeriod) * 1000000 > 300 * c.confPeriod
      (d.updCtx n (fun c => { c with periods := ps, oddPeriods := if off then c.oddPeriods + 1 else 0 })).put
        F.INGEST_FRAME_PERIOD (min (ps.foldl (· + ·) 0 * 16 / ps.length) 0xFFFFFFFF) n

/-- Whether a signalled format lies within R114. -/
def sigSupported (sig : SigFmt) : Bool :=
  sig.supported && sig.width ≤ 8192 && sig.height ≤ 4352 && 0 < sig.width && 0 < sig.height && sig.depth ≤ 2
    && sig.sampling ≤ 3

/-- INGEST_FRAME_START (R113, R122 to R125, R140, R158): the frame boundary of a baseband context. -/
def frameStart (d : Dev) (n t : Nat) (sig : SigFmt) (encrypted : Bool) : Dev :=
  if !d.enabled .ingest n then d
  else
    let d := ((d.ctxBoundary n).closeOpen n).updCtx n (fun c => { c with heard := (d.house, false) })
    let st := d.ctxState n
    if !isBaseband (d.ctxKind n) || st = stIdle || !(d.ctxLanes n).all d.rxData then d
    else if encrypted then
      ((d.noteCause n).updCtx n (fun c => { c with protectedCause := true })).enterState n stProtected 4
    else if !sigSupported sig then d.enterState n stUnsupported 5
    else
      let d := if st = stProtected || st = stUnsupported || st = stLost then
          (d.ctxSearch n).updCtx n (fun c => { c with confirmed := none, lastStart := none, periods := [] })
        else d
      let d := if st = stLocked && ((d.ctx n).confirmed.map sigKey).any (· ≠ sigKey sig) then d.formatChange n else d
      let d := (d.measurePeriod n t).beginFrame n t sig (d.ctxFmt n sig)
      if d.ctxState n = stLocked ∧ (d.ctx n).oddPeriods ≥ 2 then d.formatChange n else d

/-- The lanes of a context in LOOP_FAR send its line again (R102). -/
def lineLoops (d : Dev) (n : Nat) (xs : List Nat) : Dev :=
  ((d.ctxLanes n).filter (fun l => d.loopFar l && !(d.lane l).txIdle)).foldl (fun d l => d.emit (.loopLine l xs)) d

/-- The samples of a received line: with every lane of the context in LOOP_NEAR, those of that line of the latest frame its
own transmitters have sent, and none where they have sent no such line (R102). -/
def lineHeard (d : Dev) (n : Nat) (xs : List Nat) : Option (List Nat) :=
  if (d.ctxLanes n).isEmpty || !(d.ctxLanes n).all d.loopNear then some xs
  else
    let port := (List.range 96).find? (fun p => d.act F.OPORT_CFG_PROTOCOL p ≠ 0
      && (d.ctxLanes n).all (fun l => d.act F.OPORT_CFG_FIRST_LANE p ≤ l && l < d.act F.OPORT_CFG_FIRST_LANE p + d.act F.OPORT_CFG_LANE_COUNT p))
    let k := ((d.ctx n).cur.map (·.lines)).getD 0
    (d.out.findSome? (fun o =>
      match o with
      | .raster p _ _ ls => if some p = port then some ls else none
      | _ => none)).bind (fun ls => ((ls.drop k).head?).map (fun l => l.flatMap id))

/-- INGEST_LINE (R130): data of a lane that does not pass it is discarded (R95). -/
def ingestLine (d : Dev) (n t : Nat) (xs : List Nat) (errs : Nat) (audio : Option EmbeddedAudio)
    (last : Option FrameEnd) : Dev :=
  if !d.enabled .ingest n || !isBaseband (d.ctxKind n) || !(d.ctxLanes n).all d.rxData || (d.lineHeard n xs).isNone then d
  else
    let xs := (d.lineHeard n xs).getD xs
    let d := ((d.ctxLanes n).map (· / 8)).dedup.foldl (fun d g => d.chanPass g 16) d
    let d := (d.lineLoops n xs).updCtx n (fun c => { c with heard := (d.house, false) })
    match (d.ctx n).cur with
    | none => d
    | some f =>
      let d := (d.count F.INGEST_LINK_ERR n 0 errs).audioEmbedded n t audio
      let d := if f.drop then d else d.takeLine n t f xs errs
      match last, (d.ctx n).cur with
      | some e, some f => if f.drop then d.discardCur n 0 else d.endFrame n t f e
      | _, _ => d

/-- FORMAT_SIGNAL_CHANGE (R125): in LOCKED the context searches again; in SEARCH the frame is discarded. -/
def formatSignalChange (d : Dev) (n : Nat) : Dev :=
  if !d.enabled .ingest n || !isBaseband (d.ctxKind n) then d
  else if d.ctxState n = stLocked then d.formatChange n
  else if d.ctxState n = stSearch then d.discardCur n drFormat
  else d

/-- ENCRYPTION_DETECTED (R122). -/
def encryptionDetected (d : Dev) (n : Nat) : Dev :=
  let st := d.ctxState n
  if d.enabled .ingest n && isBaseband (d.ctxKind n) && (st = stSearch || st = stLocked || st = stUnsupported) then
    (((d.discardCur n drProtected).noteCause n).updCtx n (fun c => { c with protectedCause := true })).enterState n stProtected 4
  else d

/-- MST_STREAM_REMOVED (R136). -/
def mstStreamRemoved (d : Dev) (n : Nat) : Dev :=
  if d.enabled .ingest n && d.ctxKind n = 3 && d.actFlag F.INGEST_LINK_MST_EN n then d.ctxLose n else d

/-- R137: a silence of `gap` ns has lasted 4 line periods; `marker`: it began after a packet with the marker bit. -/
def fourLines (d : Dev) (n gap : Nat) (marker : Bool) : Bool :=
  let k := d.ctxKind n
  if isBaseband k then
    match (d.ctx n).confirmed with
    | some sig => 4 * (d.ctx n).confPeriod ≤ gap * sig.vtotal
    | none => false
  else if k = 6 then
    let den := d.act F.INGEST_RATE_DEN n * 1000000000
    let num := d.act F.INGEST_RATE_NUM n
    let h := d.act F.INGEST_NET_FMT_HEIGHT n
    40 * den + (if marker then h * den else 0) ≤ 10 * gap * num * h
  else 4000000 ≤ gap

/-- R136: no data has come for 4 line periods, or for 4 ms before a format is confirmed. -/
def ctxSilent (d : Dev) (n : Nat) : Bool :=
  let c := d.ctx n
  let gap := d.house - c.heard.1
  if d.ctxState n = stLocked then d.fourLines n gap c.heard.2 else 4000000 ≤ gap

/-- INGEST_SILENCE_TIMEOUT (R136). -/
def silenceTimeout (d : Dev) (n : Nat) : Dev :=
  if d.enabled .ingest n && (isBaseband (d.ctxKind n) || isSt2110 (d.ctxKind n)) && d.ctxSilent n then d.ctxLose n else d

/-! ST 2110 (R115 to R118). -/

/-- The destination address of a path as a number (R141). -/
def pathAddr (d : Dev) (n : Nat) (path2 : Bool) : Nat :=
  (List.range 4).foldl (fun acc k => acc + d.act (if path2 then F.INGEST_ADDR_P2 else F.INGEST_ADDR_P1) n k * 2 ^ (32 * k)) 0

/-- R115: the packets a context accepts. -/
def packetMatches (d : Dev) (n : Nat) (p : RtpPacket) : Bool :=
  p.dest = d.pathAddr n p.path2
    && p.port = d.act (if p.path2 then F.INGEST_UDP_PORTS_PORT_P2 else F.INGEST_UDP_PORTS_PORT_P1) n
    && (!d.actFlag F.INGEST_PT_PT_CHECK n || p.ptype = d.act F.INGEST_PT_TYPE n)
    && (d.act F.INGEST_SSRC n = 0 || p.ssrc = d.act F.INGEST_SSRC n)
    && (!p.path2 || d.actFlag F.INGEST_CFG_DUAL_PATH n)

/-- The format a network context takes from its hand (R115). -/
def netSig (d : Dev) (n : Nat) (bottom : Bool) : SigFmt :=
  let s := d.act F.INGEST_NET_FMT2_SAMPLING n
  let il := d.actFlag F.INGEST_NET_FMT2_INTERLACED n
  { width := d.act F.INGEST_NET_FMT_WIDTH n
    height := if il then d.act F.INGEST_NET_FMT_HEIGHT n / 2 else d.act F.INGEST_NET_FMT_HEIGHT n
    htotal := 0, vtotal := 0, sampling := if s = 0 then 2 else if s = 1 then 1 else 0
    depth := d.act F.INGEST_NET_FMT2_DEPTH n, narrow := false, colorimetry := 0, transfer := 0
    interlaced := il, bottom := bottom, supported := true }

/-- R114: what Garong takes of ST 2110-20: 4:2:2 at 10 bits, 4:4:4 at 8, 10 and 12, the raster and the pixel rate. -/
def netSupported (d : Dev) (n : Nat) : Bool :=
  let w := d.act F.INGEST_NET_FMT_WIDTH n
  let h := d.act F.INGEST_NET_FMT_HEIGHT n
  sigSupported (d.netSig n false)
    && (d.act F.INGEST_NET_FMT2_SAMPLING n ≠ 0 || d.act F.INGEST_NET_FMT2_DEPTH n = 1)
    && h ≤ 4352 && w * h * d.act F.INGEST_RATE_NUM n ≤ 4000000000 * d.act F.INGEST_RATE_DEN n

/-- R116: a packet that came by a path clears that path's bit. -/
def pathHeard (d : Dev) (n : Nat) (path2 : Bool) : Dev :=
  let d := d.put (if path2 then F.INGEST_STATE_PATH2_DOWN else F.INGEST_STATE_PATH1_DOWN) 0 n
  d.putB F.INGEST_STATE_PATH_DOWN (d.flag F.INGEST_STATE_PATH1_DOWN n || d.flag F.INGEST_STATE_PATH2_DOWN n) n

/-- R116: entries of the merge window that have aged out count what each path failed to deliver. -/
def expireSeen (d : Dev) (n t : Nat) : Dev :=
  let w := d.act F.INGEST_PATH_WIN_PATH_WINDOW_US n * 1000
  let dual := d.actFlag F.INGEST_CFG_DUAL_PATH n
  let old := (d.ctx n).seen.filter (fun e => e.2.1 + w < t)
  let d := d.updCtx n (fun c => { c with seen := c.seen.filter (fun e => ¬ e.2.1 + w < t) })
  let d := d.count F.INGEST_PATH1_LOSS n 0 (old.filter (fun e => e.2.2 % 2 = 0)).length
  if dual then d.count F.INGEST_PATH2_LOSS n 0 (old.filter (fun e => e.2.2 / 2 = 0)).length else d

/-- R116: a sequence number enters the merge by a path: true when it is the first copy and its frame is open. Missing
numbers before it wait in the window as delivered by neither path. `closed`: its frame has been closed. -/
def mergeSeq (d : Dev) (n t seq : Nat) (path2 closed : Bool) : Bool × Dev :=
  let d := d.expireSeen n t
  let m := if path2 then 2 else 1
  let c := d.ctx n
  let late (d : Dev) : Dev := d.count F.INGEST_PATH_LATE n
  let take (first : Bool) (d : Dev) : Bool × Dev := if closed then (false, late d) else (first, d)
  match c.seen.find? (fun e => e.1 = seq) with
  | some e =>
    let d := d.updCtx n (fun c => { c with
      seen := c.seen.map (fun x => if x.1 = seq then (x.1, x.2.1, x.2.2 ||| m) else x) })
    take (e.2.2 = 0) d
  | none =>
    match c.highSeq with
    | some h =>
      if seq ≤ h then (false, late d)
      else take true (d.updCtx n (fun c => { c with
        highSeq := some seq
        seen := (seq, t, m) :: (List.range (seq - h - 1)).map (fun k => (h + 1 + k, t, 0)) ++ c.seen }))
    | none => take true (d.updCtx n (fun c => { c with highSeq := some seq, seen := (seq, t, m) :: c.seen }))

/-- R10: an RTP timestamp mapped to house time and clamped to the arrival. -/
def rtpStamp (rtp a : Nat) : Nat :=
  let full := fun k => (k * 2 ^ 32 + rtp) * 100000 / 9
  let k := (a * 9 / 100000) / 2 ^ 32 + 1
  let t := if full k ≤ a then full k else if k ≥ 1 ∧ full (k - 1) ≤ a then full (k - 1)
    else if k ≥ 2 then full (k - 2) else full 0
  min t a

/-- Stored samples of the pixels of a line that have arrived; none when one is missing. -/
def pxRun (f : InFrame) (line x0 n step : Nat) : Option (List Nat) :=
  (List.range ((n + step - 1) / step)).foldl (fun acc k =>
    match acc, f.px.find? (fun e => e.1 = line * 16384 + x0 + k * step) with
    | some l, some e => some (l ++ e.2)
    | _, _ => none) (some [])

/-- Whether all of a tile's pixels have arrived, and then its lines. -/
def pxTile (f : InFrame) (c r : Nat) : Option (List (List Nat)) :=
  let step := if f.sig.sampling = 2 then 2 else 1
  let w := min 64 (f.sig.width - 64 * c)
  (List.range (min 32 (f.sig.height - 32 * r))).foldl (fun acc y =>
    match acc, pxRun f (32 * r + y) (64 * c) w step with
    | some l, some xs => some (l ++ [xs])
    | _, _ => none) (some [])

/-- R9, R117: tiles whose packets have all arrived are written with the frame's one stamp. -/
def writeReady (d : Dev) (n t : Nat) (f : InFrame) : InFrame × Dev :=
  (picPositions f.pic).foldl (fun (acc : InFrame × Dev) q =>
    let f := acc.1
    let i := q.2 * f.pic.cols + q.1
    if f.written.contains i then acc
    else
      match pxTile f q.1 q.2 with
      | none => acc
      | some lines =>
        let st := f.stamp.getD (rtpStamp f.rtp t)
        let ls := lines.map (storeLine (f.sig.sampling ≤ 1) false (8 + 2 * f.sig.depth) f.pic.fmt)
        ({ f with stamp := some st, written := i :: f.written },
          acc.2.writeTile (reqIngest n) f.pic (acc.2.latest n) q.1 q.2 st false (tileOfLines f.pic.fmt ls 0))) (f, d)

/-- Pixels of a packet's rows are placed in the frame (R115). -/
def placeRows (f : InFrame) (rows : List (Nat × Nat × List Nat)) : InFrame :=
  let step := if f.sig.sampling = 2 then 2 else 1
  let n := if f.sig.sampling = 2 then 4 else 3
  { f with px := rows.foldl (fun px r =>
      (groupsOf n r.2.2).zipIdx.foldl (fun px g =>
        let k := r.1 * 16384 + r.2.1 + g.2 * step
        if px.any (fun e => e.1 = k) then px else (k, g.1) :: px) px) f.px }

/-- Whether a packet's rows lie in the configured raster (R115). -/
def rowsInside (sig : SigFmt) (rows : List (Nat × Nat × List Nat)) : Bool :=
  rows.all (fun r => r.1 < sig.height && r.2.1 + r.2.2.length / (if sig.sampling = 2 then 2 else 3) ≤ sig.width)

/-- RTP timestamp `a` is later than `b` (modulo 2^32). -/
def rtpLater (a b : Nat) : Bool := a ≠ b && (a + 2 ^ 32 - b) % 2 ^ 32 < 2 ^ 31

/-- R116, R117: the frame of a timestamp has been closed: it, or a later one, was published or given up. -/
def rtpClosed (d : Dev) (n rtp : Nat) : Bool :=
  ((d.ctx n).cur.map (fun f => rtpLater f.rtp rtp)).getD false || ((d.ctx n).closedRtp.map (fun k => !rtpLater rtp k)).getD false

/-- R117: the frame in progress of an ST 2110-20 context gives way to a later RTP timestamp. -/
def rtpAdvance (d : Dev) (n : Nat) (rtp : Nat) : Dev :=
  match (d.ctx n).cur with
  | some f =>
    if rtpLater rtp f.rtp then (d.updCtx n (fun c => { c with closedRtp := some f.rtp })).discardCur n drIncomplete else d
  | none => d

/-- R114, R115: the stream is outside what the context takes. -/
def netReject (d : Dev) (n : Nat) : Dev := (d.discardCur n drFormat).enterState n stUnsupported 5

/-- R113, R117: a packet of a new frame: the frame boundary of an ST 2110-20 context, where a hand may apply, and the
beginning of its frame. -/
def videoBegin (d : Dev) (n t : Nat) (p : RtpPacket) : Dev :=
  let d := d.ctxBoundary n
  let sig := d.netSig n p.bottom
  if d.ctxKind n ≠ 6 || !d.packetMatches n p then d
  else if !d.netSupported n then d.netReject n
  else
    (d.beginFrame n t sig (d.ctxFmt n sig)).updCtx n (fun c => { c with cur := c.cur.map (fun f => { f with rtp := p.rtp }) })

/-- R115, R117: the video payload of a packet. -/
def videoPacket (d : Dev) (n t : Nat) (p : RtpPacket) : Dev :=
    let d := d.rtpAdvance n p.rtp
    let d := if (d.ctx n).cur.isNone then d.videoBegin n t p else d
    if d.ctxKind n = 6 && d.packetMatches n p && !rowsInside ((d.ctx n).cur.elim (d.netSig n p.bottom) (·.sig)) p.rows then
      d.netReject n
    else match (d.ctx n).cur with
    | none => d
    | some f =>
      if f.drop then d
      else
        let r := d.writeReady n t (placeRows f p.rows)
        let d := r.2.updCtx n (fun c => { c with cur := some r.1 })
        let d := if r.1.written.length = r.1.pic.cols * r.1.pic.rows then
            (d.updCtx n (fun c => { c with closedRtp := some p.rtp })).publish n t
          else d
        let k := ((List.range r.1.sig.height).takeWhile (fun y =>
          (pxRun r.1 y 0 r.1.sig.width (if r.1.sig.sampling = 2 then 2 else 1)).isSome)).length
        d.put F.INGEST_WRITE_LINE (if k = 0 then 0xFFFFFFFF else k - 1) n

/-- ANC_BASE (R118): the frame-store base of the ring, the slab an ST 2110-40 context owns. -/
def ancBase (d : Dev) (n : Nat) : Option Nat :=
  if d.ctxKind n = 9 then ((d.map (ownCtx n)).head?.bind id).map (· * 0x200000) else none

/-- R118: an ancillary packet's bytes go into the ring of the context; a fenced pseudo-channel discards them (R162). -/
def ancPacket (d : Dev) (n : Nat) (bs : List Byte) : Dev :=
  match d.ancBase n with
  | none => d
  | some base =>
  let wr := d.get F.INGEST_ANC_WR n
  let d := bs.zipIdx.foldl (fun (d : Dev) b =>
    let a := base + (wr + b.2) % 262144
    if d.pcFenced (pcOf a) then d else { d with bytes := memSet d.bytes a b.1 }) d
  d.put F.INGEST_ANC_WR ((wr + bs.length) % 262144) n

/-- ST2110_PACKET_RX (R116). -/
def st2110Packet (d : Dev) (n t : Nat) (p : RtpPacket) : Dev :=
  let k := d.ctxKind n
  let i := if p.path2 then p.netif2 else d.act F.INGEST_LINK_NETIF n
  if !d.enabled .ingest n || !isSt2110 k || !d.packetMatches n p then d
  else if overMtu p.dest (rtpOctets k (d.netSig n false).depth p) then d.tooLong i
  else
    let d := (d.netLoops i (.rtp p)).chanPass (12 + i / 4 % 4) 16
    let d := d.pathHeard n p.path2
    if d.ctxState n = stUnsupported then d
    else
    let d := if d.ctxState n = stLost then d.ctxSearch n else d
    let now := (d.house, p.marker)
    let d := d.updCtx n (fun c =>
      if p.path2 then { c with heard := now, heard2 := now } else { c with heard := now, heard1 := now })
    let m := d.mergeSeq n t p.seq p.path2 (k = 6 && d.rtpClosed n p.rtp)
    let d := m.2
    if !m.1 then d
    else
      if k = 6 then d.videoPacket n t p
      else if k = 9 then (d.ancPacket n p.bytes).enterState n stLocked 0
      else (d.audioPacket n t p.rtp p.words).enterState n stLocked 0

/-- R116, R137: a path has delivered nothing for 4 line periods. -/
def pathQuiet (d : Dev) (n : Nat) (path2 : Bool) : Bool :=
  let h := if path2 then (d.ctx n).heard2 else (d.ctx n).heard1
  d.fourLines n (d.house - h.1) h.2

/-- PATH_SILENT (R116, R136): a path falls silent while the other delivers; with none that delivers the context is lost, and
the bits stay as they stood. -/
def pathSilent (d : Dev) (n : Nat) (path2 : Bool) : Dev :=
  if !d.enabled .ingest n || !isSt2110 (d.ctxKind n) || !d.pathQuiet n path2 then d
  else if !d.actFlag F.INGEST_CFG_DUAL_PATH n then (if path2 then d else d.ctxLose n)
  else if d.flag (if path2 then F.INGEST_STATE_PATH1_DOWN else F.INGEST_STATE_PATH2_DOWN) n || d.pathQuiet n !path2 then
    d.ctxLose n
  else d.pathDown n path2

/-! The heartbeat reader (R28 to R31, R195). -/

/-- Luma of a pixel (R29). -/
def luma (f : TileFmt) (c : List Nat) : Nat :=
  if f.ycc then c.getD 0 0 else (871 * c.getD 0 0 + 2929 * c.getD 1 0 + 296 * c.getD 2 0 + 2048) / 4096

/-- The counter a picture's patch shows (R28). -/
def hbDecode (d : Dev) (n : Nat) (p : Pic) : Nat :=
  let x0 := d.act F.INGEST_HB_POS_HB_X n
  let y0 := d.act F.INGEST_HB_POS_HB_Y n
  (List.range 16).foldl (fun acc i =>
    let sum := (List.range 8).foldl (fun s k =>
      let x := x0 + 2 * i + k % 2
      let y := y0 + k / 2
      let tl := d.picTile p (x / 64) (y / 32)
      s + luma p.fmt (tilePixel p.fmt tl.data (x % 64) (y % 32)).1) 0
    acc * 2 + (if sum ≥ 8 * 2 ^ (p.fmt.bits - 1) then 1 else 0)) 0

/-- The tiles that hold the heartbeat patch (R195). -/
def hbTiles (d : Dev) (n : Nat) : List (Nat × Nat) :=
  let x := d.act F.INGEST_HB_POS_HB_X n
  let y := d.act F.INGEST_HB_POS_HB_Y n
  [y / 32, (y + 3) / 32].dedup.flatMap (fun r => [x / 64, (x + 31) / 64].dedup.map (fun c => (c, r)))

/-- HB_READ_COMPLETE (R30, R31, R195): the frame published last, where none of its engine's releases came after it. It reads
the tiles of the patch as its engine, and waits while the engine's group has no free tag (R151). -/
def hbRead (d : Dev) (n : Nat) (errs : List ReadError) : Dev :=
  let e := d.act F.INGEST_HB_ENGINE_ENGINE n
  if !d.enabled .ingest n || !d.actFlag F.INGEST_FRESH_CTL_HB_EN n then d
  else if !d.enabled .engine e then d.hbFail n true
  else if !d.tagFree (reqEngine e) then d
  else
    let due := (d.ctx n).hbDue
    let d := d.updCtx n (fun c => { c with hbDue := false })
    match d.latest n with
    | none => d
    | some p =>
      if !due then d
      else if !d.hbInside n p then (d.hbFail n true).updCtx n (fun c => { c with hbOut := true })
      else
        let d := (d.hbTiles n).foldl (fun d q => (d.readTile (reqEngine e) p q.1 q.2 errs).2) d
        let v := d.hbDecode n p
        let old := (d.ctx n).hbPrev
        let first := !d.flag F.INGEST_FRESH_STS_HB_VALID n || (d.ctx n).hbRestart
        let out := (d.ctx n).hbOut
        let d := ((d.put F.INGEST_HB_VALUE_VALUE v n).put F.INGEST_FRESH_STS_HB_VALID 1 n).updCtx n
          (fun c => { c with hbPrev := some v, hbRestart := false })
        match old with
        | none => d.put F.INGEST_FRESH_RUNS_HB_RUN 0 n
        | some o =>
          if o = v then
            if first then d.put F.INGEST_FRESH_RUNS_HB_RUN 0 n
            else
              let d := d.count F.INGEST_FRESH_RUNS_HB_RUN n
              if d.get F.INGEST_FRESH_RUNS_HB_RUN n ≥ max 1 (d.act F.INGEST_FRESH_LIMITS_HB_LIMIT n) then d.hbFail n true else d
          else
            let d := d.put F.INGEST_FRESH_RUNS_HB_RUN 0 n
            let d := if out then d else d.hbFail n false
            if v = (o + 1) % 65536 then d else d.count F.INGEST_HB_SKIP n

/-- INGEST_CNT_CLEAR (R141). -/
def ingestCntClear (d : Dev) (n : Nat) : Dev :=
  d.clear [F.INGEST_FRAMES_PUB, F.INGEST_FRAMES_DISC, F.INGEST_LINK_ERR, F.INGEST_LOST_EVENTS, F.INGEST_FORMAT_CHANGES,
    F.INGEST_PATH1_LOSS, F.INGEST_PATH2_LOSS, F.INGEST_PATH_LATE] n

/-- INGEST_FRESH_CLEAR (R37). -/
def ingestFreshClear (d : Dev) (n : Nat) : Dev := d.clear [F.INGEST_HB_SKIP, F.INGEST_FROZEN_EVENTS] n

/-- The page of a context. -/
def ctxPage (n : Nat) : PageRef := ⟨.ingest, n, 0⟩

end Dev

/-- INGEST_FRAME_START (R158, R113, R122 to R125). -/
def execIngestFrameStart (t : Nat) (ctx : Fin 256) (sig : SigFmt) (encrypted : Bool) (s : State) :=
  s.onCtx (fun d => (d.atTime t).frameStart ctx t sig encrypted)
/-- INGEST_LINE (R130). -/
def execIngestLine (t : Nat) (ctx : Fin 256) (xs : List Nat) (errs : Nat) (audio : Option EmbeddedAudio)
    (last : Option FrameEnd) (s : State) :=
  s.onCtx (fun d => (d.atTime t).ingestLine ctx t xs errs audio last)
/-- FORMAT_SIGNAL_CHANGE (R125). -/
def execFormatSignalChange (t : Nat) (ctx : Fin 256) (s : State) := s.onCtx (fun d => (d.atTime t).formatSignalChange ctx)
/-- ENCRYPTION_DETECTED (R122). -/
def execEncryptionDetected (t : Nat) (ctx : Fin 256) (s : State) := s.onCtx (fun d => (d.atTime t).encryptionDetected ctx)
/-- MST_STREAM_REMOVED (R136). -/
def execMstStreamRemoved (t : Nat) (ctx : Fin 256) (s : State) := s.onCtx (fun d => (d.atTime t).mstStreamRemoved ctx)
/-- INGEST_SILENCE_TIMEOUT (R136). -/
def execIngestSilenceTimeout (t : Nat) (ctx : Fin 256) (s : State) := s.onCtx (fun d => (d.atTime t).silenceTimeout ctx)
/-- ST2110_PACKET_RX (R116). -/
def execSt2110PacketRx (t : Nat) (ctx : Fin 256) (p : RtpPacket) (s : State) :=
  s.onCtx (fun d => (d.atTime t).st2110Packet ctx t p)
/-- PATH_SILENT (R116). -/
def execPathSilent (t : Nat) (ctx : Fin 256) (path2 : Bool) (s : State) :=
  s.onCtx (fun d => (d.atTime t).pathSilent ctx path2)
/-- HB_READ_COMPLETE (R195). -/
def execHbReadComplete (t : Nat) (r : CtxRead) (s : State) := s.onDev (fun d => (d.atTime t).hbRead r.ctx r.errs)
/-- INGEST_CNT_CLEAR (R141). -/
def execIngestCntClear (t : Nat) (ctx : Fin 256) (s : State) :=
  s.onDev (fun d => (d.atTime t).gate (Dev.ctxPage ctx) 0x84 (·.ingestCntClear ctx))
/-- INGEST_FRESH_CLEAR (R37). -/
def execIngestFreshClear (t : Nat) (ctx : Fin 256) (s : State) :=
  s.onDev (fun d => (d.atTime t).gate (Dev.ctxPage ctx) 0x120 (·.ingestFreshClear ctx))

end Sys2Proof.Machine
end

