-- ==== Sys2Proof/Machine/Prbs.lean ====
section
/-! DEFINITION. Bits on a lane: oversampling (R85), the test patterns with their generator and checker (R99, R100), error
injection (R101), and the coding of a bond's stream (R107). -/
namespace Sys2Proof.Machine

/-! Oversampling (R85). -/

/-- Line bits per signal bit: the smallest factor that brings the line rate to 1.25 Gb/s. -/
def overFactor (kbps div1001 : Nat) : Nat :=
  let enough (k : Nat) : Bool := 1250000 * (1000 + div1001) ≤ k * kbps * 1000
  ((List.range 5).map (· + 1)).find? enough |>.getD 5

/-- The majority of the samples of one bit; the middle sample decides a tie. Of an even number the later of the two middle
ones is taken (DESIGN CHOICE: R85 does not say which; log entry 241). -/
def majority (l : List Bool) : Bool :=
  let ones := l.count true
  if 2 * ones > l.length then true
  else if 2 * ones < l.length then false
  else l.getD (l.length / 2) false

/-- The signal bits of line bits, `k` samples each; and the line bits of signal bits. -/
def overDecode (k : Nat) (l : List Bool) : List Bool :=
  if k ≤ 1 then l else (List.range (l.length / k)).map (fun i => majority ((l.drop (i * k)).take k))
def overEncode (k : Nat) (l : List Bool) : List Bool := l.flatMap (List.replicate k)

/-! Patterns (R99). -/

/-- Powers of a pattern's polynomial but its constant, the highest first. -/
def prbsPowers (pat : Nat) : List Nat :=
  match pat with
  | 1 => [7, 6]
  | 2 => [9, 5]
  | 3 => [15, 14]
  | 4 => [23, 18]
  | 5 => [31, 28]
  | 6 => [13, 12, 2, 1]
  | 7 => [31, 28]
  | _ => []

/-- The next bit of a pattern after its last bits, latest first. -/
def prbsNext (pat : Nat) (hist : List Bool) : Bool := (prbsPowers pat).foldl (fun b p => xor b (hist.getD (p - 1) false)) false

/-- The last bits with one more, as many as the longest pattern needs. -/
def prbsPush (hist : List Bool) (b : Bool) : List Bool := (b :: hist).take 31

/-- The Gray code of a PAM4 level, and the level of two bits (IEEE 802.3 Clause 120). -/
def grayBits (l : Nat) : List Bool := [2 ≤ l, l = 1 || l = 2]
def grayLevel (a b : Bool) : Nat := if a then (if b then 2 else 3) else (if b then 1 else 0)

namespace Dev

/-- The checker's pattern, and whether it is inverted. -/
def chkPat (d : Dev) (n : Nat) : Nat := d.lget F.MLANE_PRBS_CTL_CHK_PAT n
def chkInv (d : Dev) (n : Nat) : Bool := d.lget F.MLANE_PRBS_CTL_CHK_INV n = 1

/-- The oversampling factor of a media half at the rate in use, which the bound context sets with RATE_SRC (R85, R110); a
network lane has none. -/
def rxOver (d : Dev) (n : Nat) : Nat :=
  if n < 96 then
    (if d.act F.MLANE_RX_CFG_RATE_SRC n = 1 then overFactor (d.rxRateUsed n) 0
     else overFactor (d.act F.MLANE_RX_RATE_RATE_KBPS n) (d.act F.MLANE_RX_RATE_DIV1001 n))
  else 1
def txOver (d : Dev) (n : Nat) : Nat :=
  if n < 96 then overFactor (d.act F.MLANE_TX_RATE_RATE_KBPS n) (d.act F.MLANE_TX_RATE_DIV1001 n) else 1

/-- The signal bits of received symbols: polarity (R107), oversampling (R85), Gray decoding (R99). -/
def rxBits (d : Dev) (n : Nat) (x : TestData) : List Bool :=
  let inv := d.lact F.MLANE_RX_CFG_RX_POL_INV n = 1
  match x with
  | .bits l => overDecode (d.rxOver n) (l.map (xor inv))
  | .levels l => l.flatMap (fun v => grayBits (if inv then 3 - v.toNat else v.toNat))
  | .good _ => []

/-! Error injection on bits that pass (R101). -/

/-- Whether the next bit of a half is inverted, and what is left of the injection. -/
def injNext (d : Dev) (n : Nat) (rx : Bool) (l : LaneSt) : Bool × LaneSt :=
  if l.injRx ≠ rx || l.inj = 0 then (false, l)
  else if l.inj = 3 then
    let k := max (d.lget F.MLANE_INJ_INTERVAL n) 64
    if l.injPhase + 1 ≥ k then (true, { l with injPhase := 0 }) else (false, { l with injPhase := l.injPhase + 1 })
  else if l.injLeft > 0 then (true, { l with injLeft := l.injLeft - 1 })
  else (false, l)

/-! The checker (R100). -/

/-- The checker in sync sees the `k`-th compared bit since sync: an error is counted, and 32 errors within 1,024 bits
lose sync. -/
def chkSynced (d : Dev) (n : Nat) (err : Bool) : Dev :=
  let a := laneFld F.MLANE_PRBS_BITS_LO n
  let d := d.put64 a (min (d.get64 a (laneIdx n) + 1) (2 ^ 64 - 1)) (laneIdx n)
  let d := d.updLane n (fun l => { l with chk := { l.chk with pos := l.chk.pos + 1 } })
  if !err then d
  else
    let c := (d.lane n).chk
    let errs := (c.pos :: c.errs).take 32
    let d := d.lcount F.MLANE_PRBS_ERR n 1
    if errs.length = 32 && c.pos - errs.getD 31 0 < 1024 then
      ((d.lput F.MLANE_LANE_STS_PRBS_SYNC 0 n).updLane n (fun l => { l with chk := {} })).lirq n 5
    else d.updLane n (fun l => { l with chk := { l.chk with errs := errs } })

/-- One bit at the checker. In sync its prediction runs on its own; before, it predicts from the received bits once they fill
its register, and 64 matches in a row declare sync. -/
def chkBit (d : Dev) (n : Nat) (b : Bool) : Dev :=
  let x := d.injNext n true (d.lane n)
  let d := d.setLane n x.2
  let b := xor (xor b x.1) (d.chkInv n)
  let c := (d.lane n).chk
  let p := prbsNext (d.chkPat n) c.hist
  if d.lget F.MLANE_LANE_STS_PRBS_SYNC n = 1 then
    (d.updLane n (fun l => { l with chk := { l.chk with hist := prbsPush l.chk.hist p } })).chkSynced n (b ≠ p)
  else
    let run := if b = p && (prbsPowers (d.chkPat n)).headD 0 ≤ c.hist.length then c.run + 1 else 0
    let d := d.updLane n (fun l => { l with chk := { l.chk with hist := prbsPush l.chk.hist b, run := run } })
    if run ≥ 64 then
      (d.lput F.MLANE_LANE_STS_PRBS_SYNC 1 n).updLane n (fun l => { l with chk := { l.chk with run := 0, pos := 0, errs := [] } })
    else d

/-- Bits that go on in the pattern, one by one. -/
def chkGoodEach (d : Dev) (n : Nat) : Nat → Dev
  | 0 => d
  | k + 1 => (d.chkBit n (xor (prbsNext (d.chkPat n) (d.lane n).chk.hist) (d.chkInv n))).chkGoodEach n k

/-- The pattern run on by a number of bits. -/
def prbsRun (pat : Nat) (hist : List Bool) : Nat → List Bool
  | 0 => hist
  | k + 1 => prbsRun pat (prbsPush hist (prbsNext pat hist)) k

/-- A number of bits that go on in the pattern: in sync and with no injection before the checker, all are counted at
once. -/
def chkGood (d : Dev) (n k : Nat) : Dev :=
  if d.lget F.MLANE_LANE_STS_PRBS_SYNC n = 1 && !((d.lane n).injRx && (d.lane n).inj ≠ 0) then
    let a := laneFld F.MLANE_PRBS_BITS_LO n
    (d.put64 a (min (d.get64 a (laneIdx n) + k) (2 ^ 64 - 1)) (laneIdx n)).updLane n (fun l =>
      { l with chk := { l.chk with hist := prbsRun (d.chkPat n) l.chk.hist k, pos := l.chk.pos + k } })
  else d.chkGoodEach n k

/-- A half that takes a forwarded clock takes it in place of data (R87). -/
def fwdClk (d : Dev) (n : Nat) : Bool := n < 96 && d.act F.MLANE_RX_CFG_FWD_CLK n = 1

/-- Test data at the receive half (R100): the checker acts in TEST mode, with a pattern, on a half that passes data; a
transmit half in LOOP_FAR sends it again (R102). -/
def testRx (d : Dev) (n : Nat) (rx : List TestData) : Dev :=
  if !d.rxData n || d.fwdClk n then d
  else
    let d := if d.loopFar n && d.txAllowed n && !(d.lane n).txIdle && !rx.isEmpty then d.emit (.loopTest n rx) else d
    if !d.rxTest n || d.chkPat n = 0 then d
    else rx.foldl (fun d x =>
      match x with
      | .good k => d.chkGood n k
      | x => (d.rxBits n x).foldl (fun d b => d.chkBit n b) d) d

/-! The generator (R99 to R101). -/

/-- The generator's register; its start is not given (a free value that is not all zeros, log entry 4). -/
def genStart (d : Dev) (n : Nat) : List Bool × Dev :=
  match (d.lane n).gen with
  | some h => (h, d)
  | none =>
    let x := d.draw
    ((List.range 31).map (fun k => k = 0 || (x.1 / 2 ^ k) % 2 = 1), x.2)

/-- The next `k` signal bits of the generator with the injection of the transmit half, oldest first. -/
def genBits (d : Dev) (n : Nat) : Nat → List Bool → LaneSt → List Bool × List Bool × LaneSt
  | 0, h, l => ([], h, l)
  | k + 1, h, l =>
    let b := prbsNext (d.genPat n) h
    let x := d.injNext n false l
    let r := d.genBits n k (prbsPush h b) x.2
    (xor (xor b (d.genInv n)) x.1 :: r.1, r.2)

/-- Pairs of bits as PAM4 levels. -/
def levelsOf : List Bool → List Nat
  | a :: b :: l => grayLevel a b :: levelsOf l
  | _ => []

/-- Symbols that leave the ball for signal bits: oversampling, Gray coding, polarity. -/
def txSymbols (d : Dev) (n : Nat) (l : List Bool) : List Nat :=
  let inv := d.lact F.MLANE_TX_CFG_TX_POL_INV n = 1
  if d.lanePam4 n then (levelsOf l).map (fun v => if inv then 3 - v else v)
  else (overEncode (d.txOver n) l).map (fun b => if xor b inv then 1 else 0)

/-- The generator sends `k` bits. -/
def genSend (d : Dev) (n k : Nat) : Dev :=
  let x := d.genStart n
  let r := x.2.genBits n k x.1 (x.2.lane n)
  (x.2.setLane n { r.2.2 with gen := some r.2.1 }).emit (.test n (d.txSymbols n r.1))

end Dev

/-! The stream of a bond (R107). -/

def block66 (ctl : Bool) (l : List Byte) : Block66 := (ctl, BitVec.ofNat 64 (leVal l))

/-- Data blocks and the terminating block of what follows the first seven bytes of a message; the block types are those of
IEEE 802.3 Clause 49 (PRESUMED, log entry 218). `fuel` bounds the blocks. -/
def codeRest : Nat → List Byte → List Block66
  | 0, _ => []
  | fuel + 1, l =>
    if l.length ≥ 8 then block66 false (l.take 8) :: codeRest fuel (l.drop 8)
    else [block66 true (BitVec.ofNat 8 ([0x87, 0x99, 0xAA, 0xB4, 0xCC, 0xD2, 0xE1, 0xFF].getD l.length 0xFF) :: l)]

/-- Idle blocks, and the blocks of a message. -/
def codeIdle (n : Nat) : List Block66 := List.replicate n (block66 true [0x1E])
def codeMsg (l : List Byte) : List Block66 := block66 true (0x78 :: l.take 7) :: codeRest (l.length + 1) (l.drop 7)

/-- The blocks of a stream over the messages that wait, and the messages that still wait after it. -/
def codeStream : List BondItem → List (List Byte) → List Block66 × List (List Byte)
  | [], q => ([], q)
  | .idle n :: l, q => let r := codeStream l q; (codeIdle n ++ r.1, r.2)
  | .next :: l, [] => codeStream l []
  | .next :: l, m :: q => let r := codeStream l q; (codeMsg m ++ r.1, r.2)

/-- One block at the receiver's decoder: the message under way after it, and a message that it completes. -/
def decodeBlock (part : Option (List Byte)) (x : Block66) : Option (List Byte) × Option (List Byte) :=
  let bs := leBytes 8 x.2.toNat
  if !x.1 then (part.map (· ++ bs), none)
  else
    let ty := bs.headD 0
    if ty = 0x78 then (some bs.tail, none)
    else
      match [0x87, 0x99, 0xAA, 0xB4, 0xCC, 0xD2, 0xE1, 0xFF].idxOf? ty.toNat, part with
      | some k, some m => (none, some (m ++ bs.tail.take k))
      | _, _ => (none, none)

/-- The self-synchronous scrambler x^58 + x^39 + 1 over `k` bits from bit `i` of a payload: the scrambled bits as a number,
and the last 58 scrambled bits, the latest as bit 0. -/
def scrambleBits (v : Nat) : Nat → Nat → Nat → Nat → Nat × Nat
  | 0, _, acc, s => (acc, s)
  | k + 1, i, acc, s =>
    let b := (v / 2 ^ i + s / 2 ^ 38 + s / 2 ^ 57) % 2
    scrambleBits v k (i + 1) (acc + b * 2 ^ i) ((2 * s + b) % 2 ^ 58)

/-- Blocks with scrambled payloads, and the scrambler after them. -/
def scramble : List Block66 → Nat → List Block66 × Nat
  | [], s => ([], s)
  | (h, p) :: l, s =>
    let x := scrambleBits p.toNat 64 0 0 s
    let r := scramble l x.2
    ((h, BitVec.ofNat 64 x.1) :: r.1, r.2)

/-- The bits of a scrambled payload descrambled, with the last 58 scrambled bits (R107). -/
def descrambleBits (v : Nat) : Nat → Nat → Nat → Nat → Nat × Nat
  | 0, _, acc, s => (acc, s)
  | k + 1, i, acc, s =>
    let b := (v / 2 ^ i) % 2
    descrambleBits v k (i + 1) (acc + (b + s / 2 ^ 38 + s / 2 ^ 57) % 2 * 2 ^ i) ((2 * s + b) % 2 ^ 58)

def descramble : List Block66 → Nat → List Block66 × Nat
  | [], s => ([], s)
  | (h, p) :: l, s =>
    let x := descrambleBits p.toNat 64 0 0 s
    let r := descramble l x.2
    ((h, BitVec.ofNat 64 x.1) :: r.1, r.2)

/-- The exclusive OR of every byte of a payload, and of blocks given in runs (BIP-8, R107). -/
def xorBytes (p : BitVec 64) : Byte := (leBytes 8 p.toNat).foldl (· ^^^ ·) 0
def bip8 (l : List (Nat × Block66)) : Byte := l.foldl (fun b r => if r.1 % 2 = 1 then b ^^^ xorBytes r.2.2 else b) 0

/-- Data blocks between two markers of a lane. -/
def markerGap : Nat := 16384

end Sys2Proof.Machine
end

