-- ==== Sys2Proof/Machine/SealChecks.lean ====
section
/-! DEFINITION. The seal checks (R270 to R274) over the sealed hand: reserved encodings, and the rules of the
chapters, each with the page in which it is found. `z` is the device with every hand region as its active copy,
so that a check of the sealed hand reads active copies of `z`. -/
namespace Sys2Proof.Machine

/-- Seal rejection causes (R274, R297, R328). -/
def rcEpoch : Nat := 0x01
def rcApply : Nat := 0x02
def rcLead : Nat := 0x03
def rcDeal : Nat := 0x04
def rcRsv : Nat := 0x05
def rcFresh : Nat := 0x10
def rcLane : Nat := 0x11
def rcIngest : Nat := 0x12
def rcTalon : Nat := 0x13
def rcTalonCfg : Nat := 0x14
def rcChase : Nat := 0x15
def rcEng : Nat := 0x16
def rcLoad : Nat := 0x17
def rcLine : Nat := 0x18
def rcDsc : Nat := 0x19
def rcComp : Nat := 0x1A
def rcMeld : Nat := 0x1B
def rcTiming : Nat := 0x1C
def rcPort : Nat := 0x1D
def rcHeld : Nat := 0x1E
def rcWitness : Nat := 0x20
def rcAudio : Nat := 0x21

/-- Hand fields with reserved encodings (R60): the field, the cause its chapter names, and the least and
greatest code that is not reserved. The routes of the audio router are in `chkAudio`. -/
def rsvFields : List (Fld × Nat × Nat × Nat) :=
  [(F.LAYER_FRESH_CTL_CLASS, rcFresh, 0, 1), (F.LAYER_FRESH_CTL_TREAT, rcFresh, 0, 2),
   (F.HEAD_TRUMP_FRESH_CLASS, rcFresh, 0, 1), (F.HEAD_TRUMP_FRESH_TREAT, rcFresh, 0, 2),
   (F.MLANE_TX_CFG_TX_MODE, rcRsv, 0, 2), (F.MLANE_TX_CFG_TX_LSTATE, rcRsv, 0, 2),
   (F.MLANE_RX_CFG_RX_MODE, rcRsv, 0, 2), (F.NLANE_TX_CFG_TX_MODE, rcRsv, 0, 2),
   (F.NLANE_TX_CFG_TX_LSTATE, rcRsv, 0, 2), (F.NLANE_RX_CFG_RX_MODE, rcRsv, 0, 2),
   (F.NLANE_RATE_CODE, rcRsv, 0, 4), (F.INGEST_CFG_KIND, rcRsv, 0, 11),
   (F.INGEST_LINK_RATE_MAX_RATE, rcRsv, 0, 6), (F.INGEST_STORE_DEPTH, rcRsv, 0, 2),
   (F.INGEST_NET_FMT2_SAMPLING, rcRsv, 0, 2), (F.INGEST_NET_FMT2_DEPTH, rcRsv, 0, 2), (F.INGEST_PATH_WIN_PATH_WINDOW_US, rcRsv, 0, 20000),
   (F.RECORDER_CFG_DIV, rcRsv, 1, 2 ^ 32 - 1), (F.RECORDER_CFG_KEY_S, rcRsv, 1, 2 ^ 32 - 1),
   (F.RECORDER_RING_SLABS_SLABS, rcRsv, 0, 49152), (F.WITCHAIN_WRING_SLABS_SLABS, rcRsv, 0, 1024),
   (F.LAYER_ENG_CTL_DEINT, rcEng, 0, 2), (F.LAYER_ENG_SCALE_H_TAPS, rcEng, 2, 8),
   (F.LAYER_ENG_SCALE_V_TAPS, rcEng, 2, 8), (F.LAYER_ENG_OUT_DEPTH, rcEng, 0, 2),
   (F.LAYER_ENG_RATE_NUM, rcEng, 1, 2 ^ 32 - 1), (F.LAYER_ENG_RATE_DEN, rcEng, 1, 2 ^ 32 - 1),
   (F.LAYER_COMP_CTL_PLANE_ALPHA, rcRsv, 0, 4096), (F.HEAD_TRUMP_CTL_PLANE_ALPHA, rcRsv, 0, 4096),
   (F.LAYER_LMAT_CTL_MODE, rcRsv, 0, 2), (F.HEAD_REF_CTL_REF_MODE, rcRsv, 0, 2),
   (F.HEAD_SLEW_CTL_SLEW_PPM, rcRsv, 1, 100), (F.OPORT_CFG_PROTOCOL, rcRsv, 0, 5),
   (F.OPORT_LINK_RATE, rcRsv, 0, 6), (F.OPORT_FORMAT_SAMPLING, rcRsv, 0, 2),
   (F.OPORT_FORMAT_DEPTH, rcRsv, 0, 2), (F.SENDV_CFG_SPACE, rcRsv, 0, 2), (F.SENDV_CFG_DEPTH, rcRsv, 0, 2),
   (F.TIME_SRC_HOUSE_REF, rcRsv, 0, 2), (F.TIME_HOLDOFF_HOLDOFF_MS, rcRsv, 0, 2000),
   (F.TIME_REF_IN_CTL_TYPE, rcRsv, 0, 2), (F.TIME_PTP_INTV_ANNOUNCE_TIMEOUT, rcRsv, 2, 10),
   (F.DEAL_DEALER_CFG_WAIT_US, rcRsv, 100, 2000), (F.NPORT_PORT_CFG_MODE, rcRsv, 0, 6),
   (F.AUDIO_GROUP_CFG_TARGET, rcRsv, 8, 960), (F.AUDIO_DELAY_CTL_DMAX_MS, rcRsv, 0, 1000),
   (F.AUDIO_AIN_CFG_TOL_PPM, rcRsv, 1, 4000), (F.AUDIO_AOUT_CFG_RATE, rcRsv, 0, 2),
   (F.AUDIO_TXS_CFG_KIND, rcRsv, 0, 2), (F.AUDIO_TXS_CFG_RATE, rcRsv, 0, 2),
   (F.AUDIO_RXS_CFG_RATE, rcRsv, 0, 2)]

namespace Dev

/-- The failed checks: page address and cause. -/
abbrev Fails := List (Nat × Nat)

/-- Fails of a condition found in a page. -/
def fail (bad : Bool) (b : Blk) (i p cause : Nat) : Fails := if bad then [(pageAddr b i p, cause)] else []

/-- Reserved encodings in the hand words that differ from reset: every other word holds its reset value. -/
def chkRsv (d : Dev) : Fails :=
  (d.handAddrs.flatMap (fun a =>
    match decodePage a with
    | none => []
    | some r =>
      let off := (rowAt r.blk r.page (a % 0x1000)).map (·.off)
      (rsvFields.filter (fun q => q.1.blk = r.blk && q.1.page = r.page && some q.1.off = off)).filterMap (fun q =>
        let v := d.bitsAt a q.1.lo q.1.w
        if q.2.2.1 ≤ v ∧ v ≤ q.2.2.2 then none else some (pgAddr r, q.2.1))))

/-- Instances of a block of which some hand or active word differs from reset. -/
def staged (d : Dev) (b : Blk) : List Nat :=
  d.handAddrs.foldl (fun l a =>
    match decodePage a with
    | some r => if r.blk = b then addOnce l r.inst else l
    | none => l) []

/-- Every unordered pair of a list. -/
def pairs {α : Type} : List α → List (α × α)
  | [] => []
  | a :: l => l.map (fun b => (a, b)) ++ pairs l

/-! Lanes (R85, R106). -/

/-- A signal rate lies from 0.25 to 24.0 Gb/s, the factor 1000/1001 counted (R85). -/
def rateOk (kbps div1001 : Nat) : Bool :=
  let den := 1000 + div1001
  250000 * den ≤ kbps * 1000 && kbps * 1000 ≤ 24000000 * den

/-- Two rates in kb/s, each divided by 1.001 where its flag is set, are the same (R106). -/
def sameRate (k1 d1 k2 d2 : Nat) : Bool := k1 * (1000 + d2) = k2 * (1000 + d1)

def chkLanes (z : Dev) : Fails :=
  let ls := z.staged .mlane
  let bonds := (List.range 16).map (fun b => (ls.filter (fun n => z.actFlag F.MLANE_BOND_BOND_EN n && z.act F.MLANE_BOND_BOND_ID n = b)))
  ls.flatMap (fun n =>
    fail (z.actFlag F.MLANE_TX_CFG_TX_EN n && !rateOk (z.act F.MLANE_TX_RATE_RATE_KBPS n) (z.act F.MLANE_TX_RATE_DIV1001 n)) .mlane n 0 rcLane
    ++ fail (z.actFlag F.MLANE_RX_CFG_RX_EN n && !z.actFlag F.MLANE_RX_CFG_FWD_CLK n
        && !z.actFlag F.MLANE_RX_CFG_RATE_SRC n && !rateOk (z.act F.MLANE_RX_RATE_RATE_KBPS n) (z.act F.MLANE_RX_RATE_DIV1001 n))
      .mlane n 0 rcLane)
  ++ bonds.flatMap (fun ms =>
    match ms with
    | [] => []
    | m :: _ =>
      let w := z.act F.MLANE_BOND_BOND_WIDTH m
      let kbps := z.act F.MLANE_TX_RATE_RATE_KBPS m
      let div := z.act F.MLANE_TX_RATE_DIV1001 m
      let same (n : Nat) : Bool :=
        sameRate (z.act F.MLANE_TX_RATE_RATE_KBPS n) (z.act F.MLANE_TX_RATE_DIV1001 n) kbps div
          && sameRate (z.act F.MLANE_RX_RATE_RATE_KBPS n) (z.act F.MLANE_RX_RATE_DIV1001 n) kbps div
      let serves (n : Nat) : Bool :=
        z.actFlag F.MLANE_TX_CFG_TX_EN n && z.actFlag F.MLANE_RX_CFG_RX_EN n && !z.actFlag F.MLANE_RX_CFG_RATE_SRC n
          && !z.actFlag F.MLANE_RX_CFG_FWD_CLK n && (z.laneCtxs n).isEmpty
      let bad := w = 0 || w > 24 || ms.length ≠ w
        || ms.any (fun n => z.act F.MLANE_BOND_BOND_WIDTH n ≠ w || z.act F.MLANE_BOND_BOND_LANE n ≥ w || !same n)
        || (pairs ms).any (fun q => z.act F.MLANE_BOND_BOND_LANE q.1 = z.act F.MLANE_BOND_BOND_LANE q.2)
        || ms.any (fun n => !serves n) || !rateOk kbps div || overFactor kbps div ≠ 1
      fail bad .mlane (ms.foldl min m) 0 rcLane)

/-! Ingest (R112, R128). -/

def chkIngest (z : Dev) : Fails :=
  let cs := (z.staged .ingest).filter (fun n => z.ctxKind n ≠ 0)
  let media := cs.filter (fun n => isBaseband (z.ctxKind n))
  let mst (n : Nat) : Bool := z.ctxKind n = 3 && z.actFlag F.INGEST_LINK_MST_EN n
  let sameLink (a b : Nat) : Bool := mst a && mst b && z.ctxLanes a = z.ctxLanes b
    && z.act F.INGEST_LINK_SBAND a = z.act F.INGEST_LINK_SBAND b
  let hosts := cs.filter (fun n => z.ctxKind n = 11)
  let count (n : Nat) : Nat := z.act F.INGEST_LINK_LANE_COUNT n
  let sband (n : Nat) : Bool := 1 ≤ z.ctxKind n && z.ctxKind n ≤ 3 && z.actFlag F.INGEST_LINK_SBAND_EN n
  media.flatMap (fun n =>
    let k := z.ctxKind n
    let bad := count n = 0 || count n > 4 || (k = 2 && count n ≠ 3 && count n ≠ 4) || (k = 3 && count n = 3)
      || ((k = 1 || k = 5) && count n ≠ 4) || (k = 4 && count n ≠ 1)
      || z.act F.INGEST_LINK_FIRST_LANE n + kindLanes k (count n) > 96
    fail bad .ingest n 0 rcIngest)
  ++ (pairs media).flatMap (fun q =>
    let shared := (z.ctxLanes q.1).any (fun x => (z.ctxLanes q.2).contains x)
      || (sband q.1 && sband q.2 && z.act F.INGEST_LINK_SBAND q.1 = z.act F.INGEST_LINK_SBAND q.2)
    let bad := if sameLink q.1 q.2 then z.act F.INGEST_LINK_MST_STREAM q.1 = z.act F.INGEST_LINK_MST_STREAM q.2 else shared
    fail bad .ingest (min q.1 q.2) 0 rcIngest)
  ++ fail (hosts.length > 64) .ingest (hosts.foldl min 255) 0 rcIngest
  ++ (z.staged .ingest).flatMap (fun n =>
    fail (z.actFlag F.INGEST_STORE_ALPHA n && z.ctxKind n ≠ 11 && z.ctxKind n ≠ 10) .ingest n 0 rcRsv)

/-! Talon (R156, R157). -/

/-- Slabs of a context's buffers, or of the ring of an ST 2110-40 context. -/
def ctxSlabs (z : Dev) (n : Nat) : Nat :=
  let k := z.ctxKind n
  if k = 9 then 1 else if isVideo k then z.act F.TALON_CTX_BUF_BUFFERS 0 n * z.act F.TALON_CTX_BUF_SLABS 0 n else 0

def chkTalon (z : Dev) : Fails :=
  (z.staged .ingest).flatMap (fun n =>
    fail (isVideo (z.ctxKind n) && (z.act F.TALON_CTX_BUF_BUFFERS 0 n < 3 || z.act F.TALON_CTX_BUF_SLABS 0 n = 0))
      .ingest n 0 rcTalonCfg)

/-- Bytes of the delay lines (R345): DMAX_MS × 48 words of 4 bytes for each slot of each destination with a delay
head. -/
def delayBytes (z : Dev) : Nat :=
  let ms (h : Nat) : Nat := z.act F.AUDIO_DELAY_CTL_DMAX_MS 0 h * 48 * 4
  (List.range 128).foldl (fun n i =>
    if z.act F.AUDIO_TXS_CFG_EN 0 i = 1 then
      let slots := (z.act F.AUDIO_TXS_CFG_CHANNELS 0 i + 1) * rateFactor (z.act F.AUDIO_TXS_CFG_RATE 0 i)
      if z.act F.AUDIO_TXS_CFG_KIND 0 i = 0 then n + slots * ms (z.act F.OPORT_CFG_HEAD (z.act F.AUDIO_TXS_CFG_TARGET 0 i))
      else if z.act F.AUDIO_TXS_CFG_DELAY_EN 0 i = 1 then n + slots * ms (z.act F.AUDIO_TXS_CFG_DELAY_HEAD 0 i)
      else n
    else n) 0
  + (List.range 16).foldl (fun n i =>
    if z.act F.AUDIO_AOUT_CFG_EN 0 i = 1 ∧ z.act F.AUDIO_AOUT_CFG_DELAY_EN 0 i = 1 then
      n + 2 * rateFactor (z.act F.AUDIO_AOUT_CFG_RATE 0 i) * ms (z.act F.AUDIO_AOUT_CFG_DELAY_HEAD 0 i)
    else n) 0

/-- Slab need of every owner a hand sets, in ascending owner code (R156, R157, R185, R226, R171, R308, R345). -/
def slabNeeds (z : Dev) : List (Nat × Nat) :=
  (List.range 256).map (fun n => (ownCtx n, z.ctxSlabs n))
  ++ (z.knownLayers.mergeSort (· ≤ ·)).map (fun l =>
    let e := z.engAct l
    (ownLayer l, if z.actFlag F.LAYER_ENG_CTL_ENG_EN l then 3 * prepSlabs e e.dw e.dh else 0))
  ++ (List.range 64).flatMap (fun h => (List.range 4).map (fun g =>
    (ownMeld h g, if z.act F.HEAD_MELD_EN h g = 1 then (z.headCols h * z.headRows h + 169) / 170 else 0)))
  ++ [(ownRecorder, z.act F.RECORDER_RING_SLABS_SLABS), (ownWitness, z.act F.WITCHAIN_WRING_SLABS_SLABS 64),
      (ownAudio, (z.delayBytes + 0x1FFFFF) / 0x200000)]

/-- Owners whose need differs from what they hold: owner, slabs before, slabs after. -/
def slabChanges (d z : Dev) : List (Nat × Nat × Nat) :=
  z.slabNeeds.filterMap (fun q =>
    let n := (d.map q.1).length
    if n = q.2 then none else some (q.1, n, q.2))

/-! Freshness and chase (R16, R164). -/

def chkFresh (z : Dev) : Fails :=
  z.knownLayers.flatMap (fun l =>
    fail (z.act F.LAYER_FRESH_CTL_CLASS l = 0 && z.act F.LAYER_STALE_LIMIT l = 0) .layer l 0 rcFresh)
  ++ (z.staged .head).flatMap (fun h =>
    fail (z.act F.HEAD_TRUMP_FRESH_CLASS h = 0 && z.act F.HEAD_TRUMP_LIMIT h = 0) .head h 1 rcFresh)

def chkChase (z : Dev) : Fails :=
  z.knownLayers.flatMap (fun l =>
    if z.actFlag F.LAYER_CHASE_CTL_CHASE_EN l then
      let n := z.act F.LAYER_SRC_CTX_CONTEXT l
      fail (z.act F.LAYER_CHASE_CTL_CHASE_MARGIN l < 16 || z.actFlag F.LAYER_ENG_CTL_ENG_EN l) .layer l 0 rcChase
      ++ fail (!(isBaseband (z.ctxKind n) || z.ctxKind n = 6)) .ingest n 0 rcChase
    else [])

/-! Engines (R182, R198 to R200). -/

/-- Whether a context carries fields: by its declared format, the frames a Tatre context has published, or the format a
baseband input confirmed; where none is known yet, it may (log entry 226). -/
def ctxInterlaced (d : Dev) (n : Nat) : Bool :=
  let k := d.ctxKind n
  if k = 6 ∨ k = 11 then d.actFlag F.INGEST_NET_FMT2_INTERLACED n
  else if k = 10 then (d.latest n).isNone || (d.ctx n).fields
  else match (d.ctx n).confirmed with
    | some s => s.interlaced
    | none => true

/-- The load of an engine under the applied hand, in pixel operations a second (R198). -/
def engineLoad (z : Dev) (g : Nat) : Nat :=
  let es := z.engineLayers g
  let cost (q : Nat × EngSet × Nat) : Nat :=
    let n := z.act F.LAYER_SRC_CTX_CONTEXT q.1
    let r := z.checkRect q.2.1 n none
    let ws := match layerStrips es q.2.1 q.2.2 (q.2.1.out r.1 r.2).1 with
      | some (a :: b) => some ((a :: b).foldl (· + ·) 0)
      | _ => none
    (engineCost q.2.1 (jobCost q.2.1 r.1 r.2 ws (z.ctx422 n) (z.ctxPack n)) * q.2.1.num + q.2.1.den - 1) / max 1 q.2.1.den
  es.foldl (fun n q => n + cost q) (z.hbLoad g)

/-- A load as LOAD reports it, in units of 0.01 % (R198). What the 14 bits of the field show of a load that does not fit
them the spec does not say: a free value of `draw` (log entry 249). -/
def loadShown (draw sum : Nat) : Nat :=
  let v := sum * 10000 / 12800000000
  if v < 16384 then v else Config.freeValue draw % 16384

/-- The line-buffer rule holds for an engine (R199, R200). -/
def engineLines (z : Dev) (g : Nat) : Bool :=
  let es := z.engineLayers g
  es.all (fun q =>
    let r := z.checkRect q.2.1 (z.act F.LAYER_SRC_CTX_CONTEXT q.1) none
    (layerStrips es q.2.1 q.2.2 (q.2.1.out r.1 r.2).1).isSome)

/-- The lowest layer an engine serves. -/
def engineFirst (z : Dev) (g : Nat) : Nat := (z.engineLayers g).foldl (fun m q => min m q.1) 1023

/-- Whether the sizes of an engine layer rest on what its INGEST page declares (log entry 30). -/
def sizeDeclared (z : Dev) (l : Nat) : Bool := (z.engAct l).full && (z.latest (z.act F.LAYER_SRC_CTX_CONTEXT l)).isNone

/-- ENGCFG (R182): the size and engine checks of a layer are found in its LAYER page, or in the INGEST page that declares its
size; the checks of alpha and DEINT in the INGEST page of its context (R271; log entry 250). -/
def engFails (z : Dev) (l : Nat) : Fails :=
  let e := z.engAct l
  let n := z.act F.LAYER_SRC_CTX_CONTEXT l
  let r := z.checkRect e n none
  let o := let q := e.deinted r.1 r.2; e.oriented q.1 q.2
  let size := if e.scaleEn then
      e.dw * 8 < o.1 || e.dh * 8 < o.2 || o.1 * 32 < e.dw || o.2 * 32 < e.dh
    else (e.dw, e.dh) ≠ o
  fail (e.engine / 8 ≠ (e.engine + e.count - 1) / 8) .layer l 0 rcEng
  ++ (if z.sizeDeclared l then fail size .ingest n 0 rcEng else fail size .layer l 0 rcEng)
  ++ fail (e.fmt.alpha && !z.ctxAlpha n) .ingest n 0 rcEng
  ++ fail (e.deint ≠ 0 && !z.ctxInterlaced n) .ingest n 0 rcEng

/-- Contexts whose fields the load of an engine rests on: those of its layers and those whose heartbeat it reads (R197). -/
def engineCtxs (z : Dev) (g : Nat) : List Nat :=
  (z.engineLayers g).map (fun q => z.act F.LAYER_SRC_CTX_CONTEXT q.1) ++ z.hbContexts g

/-- LINEBUF is found in the lowest INGEST page that declares the size of a layer of the engine, else in that of its lowest
layer (R271; log entry 250). -/
def lineFails (z : Dev) (g : Nat) : Fails :=
  match ((z.engineLayers g).filter (fun q => z.sizeDeclared q.1)).map (fun q => z.act F.LAYER_SRC_CTX_CONTEXT q.1) with
  | [] => fail (!z.engineLines g) .layer (z.engineFirst g) 0 rcLine
  | n :: ns => fail (!z.engineLines g) .ingest (ns.foldl min n) 0 rcLine

/-- Engines that reject a seal for a reported failure, with LAST_REJECT.CAUSE and the layer (R206, R207). -/
def engineRejects (z : Dev) (f : Nat × Nat) : List (Nat × Nat × Nat) :=
  if f.2 = rcLoad then
    ((List.range 64).filter (fun g => z.engineLoad g > 12800000000)).map (fun g => (g, 1, z.engineFirst g))
  else if f.2 = rcLine then ((List.range 64).filter (fun g => !z.engineLines g)).map (fun g => (g, 2, z.engineFirst g))
  else if f.2 = rcEng then
    match decodePage f.1 with
    | some r =>
      if r.blk = .layer then [((z.engAct r.inst).engine, 3, r.inst)]
      else ((z.knownLayers.filter (fun l => z.actFlag F.LAYER_ENG_CTL_ENG_EN l && (z.engFails l).contains f)).map
        (fun l => ((z.engAct l).engine, 3, l))).reverse
    | none => []
  else []

def chkEngines (z : Dev) : Fails :=
  (z.knownLayers.filter (fun l => z.actFlag F.LAYER_ENG_CTL_ENG_EN l)).flatMap z.engFails
  ++ (List.range 64).flatMap (fun g =>
    fail (z.engineLoad g > 12800000000) .ingest ((z.engineCtxs g).foldl min 255) 0 rcLoad ++ z.lineFails g)

/-! Composition (R209, R213, R220, R225). -/

def chkComp (z : Dev) : Fails :=
  let slots := (List.range 64).flatMap (fun h => (z.activeSlots h).map (fun q => (h, q.1, q.2)))
  slots.flatMap (fun q =>
    let l := q.2.2
    let n := z.act F.LAYER_SRC_CTX_CONTEXT l
    let eng := z.actFlag F.LAYER_ENG_CTL_ENG_EN l
    let full := z.actFlag F.LAYER_COMP_CTL_FIT l
    let k := z.ctxKind n
    fail (!z.en .layer l || z.act F.LAYER_DST_WH_DST_W l = 0 || z.act F.LAYER_DST_WH_DST_H l = 0
        || (!eng && !full && (z.act F.LAYER_DST_WH_DST_W l, z.act F.LAYER_DST_WH_DST_H l)
            ≠ (z.act F.LAYER_SRC_WH_SRC_W l, z.act F.LAYER_SRC_WH_SRC_H l))
        || (eng && full && !z.actFlag F.LAYER_ENG_CTL_SCALE_EN l)) .head q.1 1 rcComp
    ++ fail (k = 0 || (7 ≤ k && k ≤ 9)) .ingest n 0 rcComp)
  ++ (pairs slots).flatMap (fun q => fail (q.1.2.2 = q.2.2.2) .head (min q.1.1 q.2.1) 1 rcComp)
  ++ (z.staged .head).flatMap (fun h =>
    let n := z.act F.HEAD_TRUMP_CTL_CONTEXT h
    fail (z.actFlag F.HEAD_TRUMP_CTL_EN h && !(z.ctxKind n = 11 && z.act F.INGEST_NET_FMT2_SAMPLING n = 2)) .ingest n 0 rcComp)

def chkMeld (z : Dev) : Fails :=
  (z.staged .head).flatMap (fun h => (List.range 4).flatMap (fun g =>
    if z.act F.HEAD_MELD_EN h g = 0 then []
    else
      let f := z.act F.HEAD_MELD_FIRST_SLOT h g
      let l := z.act F.HEAD_MELD_LAST_SLOT h g
      let ms := (List.range 16).filter (fun k => f ≤ k && k ≤ l)
      let member (k : Nat) : Bool :=
        let y := z.act F.HEAD_SLOT_LAYER h k
        z.act F.HEAD_SLOT_EN h k = 1 && z.act F.LAYER_FRESH_CTL_CLASS y = 1 && !z.actFlag F.LAYER_CHASE_CTL_CHASE_EN y
      let share := (List.range g).any (fun g' => z.act F.HEAD_MELD_EN h g' = 1
        && f ≤ z.act F.HEAD_MELD_LAST_SLOT h g' && z.act F.HEAD_MELD_FIRST_SLOT h g' ≤ l)
      fail (ms.any (fun k => !member k)) .head h 1 rcMeld
      ++ fail (f > l || share || (z.act F.HEAD_MELD_INCL_BG h g = 1 && f ≠ 0)) .head h 2 rcMeld))

/-! Timing and ports (R236, R242, R251, R254, R258). -/

/-- Heads a seal checks (R236): those enabled, and those an enabled slot, trump plane, port or sender names. -/
def boundHeads (z : Dev) : List Nat :=
  let ports := ((z.staged .oport).filter (fun p => z.act F.OPORT_CFG_PROTOCOL p ≠ 0)).map (fun p => z.act F.OPORT_CFG_HEAD p)
  let sends := (List.range 64).filterMap (fun s =>
    if z.act F.SENDV_CFG_EN (s / 16) (s % 16) = 1 then some (z.act F.SENDV_CFG_HEAD (s / 16) (s % 16)) else none)
  (List.range 64).filter (fun h =>
    z.en .head h || !(z.activeSlots h).isEmpty || z.actFlag F.HEAD_TRUMP_CTL_EN h || ports.contains h || sends.contains h)

/-- Pixel rate of a head in pixels per second, truncated (R236, R7). -/
def pixRate (z : Dev) (h : Nat) : Nat :=
  let g := z.timing h
  g.htot * g.vtot * g.num / max 1 g.den

def chkTiming (z : Dev) : Fails :=
  let en := (List.range 64).filter (fun h => z.en .head h)
  z.boundHeads.flatMap (fun h =>
    let g := z.timing h
    let low := z.act F.HEAD_OBUF_WM_LOW_WM h
    let crit := z.act F.HEAD_OBUF_WM_CRIT_WM h
    let rn := z.act F.TIME_REF_RATE_NUM
    let rd := z.act F.TIME_REF_RATE_DEN
    fail (!g.ok || z.pixRate h > 2400000000 || g.pf < 8 || g.pf > 64 || g.pf > g.cap || !(crit < low && low < g.pf)
      || (g.mode = 2 && (g.mult < 1 || g.mult > 4))) .head h 0 rcTiming
    ++ fail (g.mode = 2 && (rn = 0 || rd = 0 || g.num * rd ≠ rn * g.mult * g.den)) .time 0 1 rcTiming)
  ++ fail (en.foldl (fun n h => n + z.pixRate h) 0 > 64000000000) .head (en.foldl min 63) 0 rcTiming
  ++ fail (z.actFlag F.TIME_REF_IN_CTL_EN && (z.act F.TIME_REF_RATE_NUM = 0 || z.act F.TIME_REF_RATE_DEN = 0)) .time 0 1 rcRsv

/-- Lane counts a protocol allows (R254, R255; TMDS and quad-link take 4 lanes as in R112). -/
def portLanesOk (proto count : Nat) : Bool :=
  match proto with
  | 1 => count = 4
  | 2 => count = 3 || count = 4
  | 3 => count = 1 || count = 2 || count = 4
  | 4 => count = 1
  | 5 => count = 4
  | _ => false

/-- Payload of a DisplayPort or FRL link, or the total rate of an SDI link, whose lanes run at `sdi` kb/s, in bits per second
(R114, R254, R255). The rates behind the names, and the 16b/18b code of FRL, are those of the cited standards (PRESUMED, log
entry 237). -/
def linkCarries (proto rate lanes sdi : Nat) : Nat :=
  match proto with
  | 2 => [0, 3, 6, 6, 8, 10, 12].getD rate 0 * lanes * 1000000000 * 16 / 18
  | 3 => if rate < 4 then [1620, 2700, 5400, 8100].getD rate 0 * lanes * 1000000 * 8 / 10
    else [10000, 13500, 20000].getD (rate - 4) 0 * lanes * 1000000 * 128 / 132
  | _ => lanes * sdi * 1000

/-- Bits per pixel of a port's FORMAT. -/
def formatBits (sampling depth : Nat) : Nat := (8 + 2 * depth) * (if sampling = 2 then 2 else 3)

/-- The rate of a transmit half in kb/s, truncated (R85). -/
def txKbps (z : Dev) (n : Nat) : Nat := z.act F.MLANE_TX_RATE_RATE_KBPS n * 1000 / (1000 + z.act F.MLANE_TX_RATE_DIV1001 n)

/-- The page in which a check of a port's format against its link or standard is found: that of its first lane where the rate
is the lane's, else page 0 of its head (R271; log entry 250). -/
def portPage (z : Dev) (p : Nat) : Nat :=
  if z.act F.OPORT_CFG_PROTOCOL p ≥ 4 then pageAddr .mlane (min 95 (z.act F.OPORT_CFG_FIRST_LANE p)) 0
  else pageAddr .head (z.act F.OPORT_CFG_HEAD p) 0

/-- A port's format needs more than its link carries (R254). TMDS: a character rate outside 25 to 600 MHz (R255), P times the
depth over 8, and P itself in 4:2:2. Of the other links the active pixels of a second must fit; what the standards ask beyond
that, and the rasters of SDI, decide as an operand of SEAL_COMPLETE (log entry 106), as does a port with DSC. -/
def portOverfull (z : Dev) (p : Nat) : Bool :=
  let proto := z.act F.OPORT_CFG_PROTOCOL p
  let h := z.act F.OPORT_CFG_HEAD p
  let g := z.timing h
  let s := z.act F.OPORT_FORMAT_SAMPLING p
  let depth := z.act F.OPORT_FORMAT_DEPTH p
  if z.actFlag F.OPORT_CFG_DSC_USE p || !g.ok then false
  else if proto = 1 then
    let c := if s = 2 then z.pixRate h else z.pixRate h * (8 + 2 * depth) / 8
    c < 25000000 || 600000000 < c
  else linkCarries proto (z.act F.OPORT_LINK_RATE p) (z.act F.OPORT_CFG_LANE_COUNT p) (z.txKbps (z.act F.OPORT_CFG_FIRST_LANE p))
    < g.hact * g.vact * g.num * formatBits s depth / max 1 g.den

def chkPorts (z : Dev) : Fails :=
  let ps := (z.staged .oport).filter (fun p => z.act F.OPORT_CFG_PROTOCOL p ≠ 0)
  let lanes (p : Nat) : List Nat := z.portLanes p
  let fmt (p : Nat) : List Word := (List.range 9).map (fun k => z.word (pageAddr .oport p 0 + 0x408 + 4 * k))
  ps.flatMap (fun p =>
    fail (!portLanesOk (z.act F.OPORT_CFG_PROTOCOL p) (z.act F.OPORT_CFG_LANE_COUNT p)
        || z.act F.OPORT_CFG_FIRST_LANE p + z.act F.OPORT_CFG_LANE_COUNT p > 96) .oport p 0 rcPort
    ++ (if z.portOverfull p then [(z.portPage p, rcPort)] else [])
    ++ (lanes p).flatMap (fun n => fail (n < 96 && z.actFlag F.MLANE_BOND_BOND_EN n) .mlane n 0 rcPort))
  ++ (pairs ps).flatMap (fun q =>
    let sb (p : Nat) : Bool := z.actFlag F.OPORT_CFG_SBAND_EN p
    let bad := (lanes q.1).any (fun x => (lanes q.2).contains x)
      || (sb q.1 && sb q.2 && z.act F.OPORT_CFG_SBAND q.1 = z.act F.OPORT_CFG_SBAND q.2)
      || (z.actFlag F.OPORT_CFG_DSC_USE q.1 && z.actFlag F.OPORT_CFG_DSC_USE q.2
          && z.act F.OPORT_CFG_HEAD q.1 = z.act F.OPORT_CFG_HEAD q.2 && fmt q.1 ≠ fmt q.2)
    fail bad .oport (min q.1 q.2) 0 rcPort)
  ++ (z.staged .oport).flatMap (fun p =>
    let proto := z.act F.OPORT_CFG_PROTOCOL p
    fail (z.actFlag F.OPORT_CFG_DSC_USE p && (z.act F.OPORT_CFG_HEAD p > 15 || proto = 1 || proto = 4 || proto = 5)) .oport p 0 rcRsv)

/-! Recorder, witness and audio (R171, R297, R301, R328). -/

def chkRecorder (d z : Dev) : Fails :=
  fail (d.flag F.RECORDER_CTL_HOLD && (d.act F.RECORDER_RING_SLABS_SLABS ≠ z.act F.RECORDER_RING_SLABS_SLABS
    || d.act F.RECORDER_CFG_PACK ≠ z.act F.RECORDER_CFG_PACK)) .recorder 0 0 rcHeld

/-- Layer matrix identity (R217). -/
def lmatIdent (z : Dev) (l : Nat) : Bool :=
  z.act F.LAYER_LMAT_CTL_MODE l = 0
    || ((List.range 9).all (fun k => z.lmatCoef l k = (if k % 4 = 0 then 8192 else 0))
        && (List.range 3).all (fun k => z.act F.LAYER_LMAT_OFF_PRE l k = 0 && z.act F.LAYER_LMAT_OFF_POST l k = 0))

/-- Two rectangles with signed places meet. -/
def rectsMeet (x y w h x' y' w' h' : Int) : Bool := x < x' + w' && x' < x + w && y < y' + h' && y' < y + h

/-- R301: whether the pairing of a window is valid, but for the counts of paired windows. -/
def pairedOk (z : Dev) (h w : Nat) : Bool :=
  let k := z.act F.WITNESS_WIN_CTL_SLOT h w
  let l := z.act F.HEAD_SLOT_LAYER h k
  let n := z.act F.LAYER_SRC_CTX_CONTEXT l
  let x : Int := z.act F.WITNESS_WIN_XY_WIN_X h w
  let y : Int := z.act F.WITNESS_WIN_XY_WIN_Y h w
  let ww : Int := z.act F.WITNESS_WIN_WH_WIN_W h w
  let wh : Int := z.act F.WITNESS_WIN_WH_WIN_H h w
  let box (l : Nat) : Int × Int × Int × Int :=
    (sgn 16 (z.act F.LAYER_DST_XY_DST_X l), sgn 16 (z.act F.LAYER_DST_XY_DST_Y l), z.act F.LAYER_DST_WH_DST_W l, z.act F.LAYER_DST_WH_DST_H l)
  let b := box l
  z.act F.HEAD_SLOT_EN h k = 1 && !z.actFlag F.LAYER_ENG_CTL_ENG_EN l && !z.actFlag F.LAYER_COMP_CTL_FIT l
    && (!z.actFlag F.LAYER_COMP_CTL_ALPHA_EN l || !z.ctxAlpha n) && z.act F.LAYER_COMP_CTL_PLANE_ALPHA l = 4096
    && z.lmatIdent l && z.lutIsIdent 0 l (z.act F.LAYER_LUT_CTL_BANK l) && z.lutIsIdent 1 h (z.act F.HEAD_POST_LUT_BANK h)
    && b.1 ≤ x && b.2.1 ≤ y && x + ww ≤ b.1 + b.2.2.1 && y + wh ≤ b.2.1 + b.2.2.2
    && !z.actFlag F.INGEST_FRESH_CTL_HB_CROP n
    && (z.activeSlots h).all (fun q => q.1 ≤ k ||
        (let c := box q.2; !rectsMeet x y ww wh c.1 c.2.1 c.2.2.1 c.2.2.2))
    && (!z.actFlag F.HEAD_TRUMP_CTL_EN h ||
        !rectsMeet x y ww wh (sgn 16 (z.act F.HEAD_TRUMP_DST_XY_DST_X h)) (sgn 16 (z.act F.HEAD_TRUMP_DST_XY_DST_Y h))
          (z.act F.HEAD_TRUMP_SRC_WH_SRC_W h) (z.act F.HEAD_TRUMP_SRC_WH_SRC_H h))

/-- The windows (R297, R301). A pairing reads the INGEST page of its context, where it is found; a pairing with a slot that is
not enabled names no context, and is found in page 1 of its head (R271; log entry 250). -/
def chkWitness (z : Dev) : Fails :=
  let ws := (z.staged .witness).flatMap (fun h => ((List.range 16).filter (fun w => z.act F.WITNESS_WIN_CTL_EN h w = 1)).map (fun w => (h, w)))
  let ps := ws.filter (fun q => z.act F.WITNESS_WIN_CTL_MODE q.1 q.2 = 1)
  let ctxOf (q : Nat × Nat) : Nat :=
    z.act F.LAYER_SRC_CTX_CONTEXT (z.act F.HEAD_SLOT_LAYER q.1 (z.act F.WITNESS_WIN_CTL_SLOT q.1 q.2))
  ws.flatMap (fun q =>
    fail (z.act F.WITNESS_WIN_WH_WIN_W q.1 q.2 = 0 || z.act F.WITNESS_WIN_WH_WIN_H q.1 q.2 = 0) .witness q.1 0 rcWitness
    ++ fail (z.act F.WITNESS_WIN_XY_WIN_X q.1 q.2 + z.act F.WITNESS_WIN_WH_WIN_W q.1 q.2 > z.act F.HEAD_H_TIMING_HACTIVE q.1
        || z.act F.WITNESS_WIN_XY_WIN_Y q.1 q.2 + z.act F.WITNESS_WIN_WH_WIN_H q.1 q.2 > z.act F.HEAD_V_TIMING_VACTIVE q.1)
        .head q.1 0 rcWitness)
  ++ ps.flatMap (fun q =>
    let bad := !z.pairedOk q.1 q.2 || (ps.filter (fun r => ctxOf r = ctxOf q)).length > 4 || ps.length > 256
    if z.act F.HEAD_SLOT_EN q.1 (z.act F.WITNESS_WIN_CTL_SLOT q.1 q.2) = 1 then fail bad .ingest (ctxOf q) 0 rcWitness
    else fail bad .head q.1 1 rcWitness)

/-- The channel at a 48 kHz input slot: rate factor and offset of the slot in its channel. -/
def slotChannel (z : Dev) (slot : Nat) : Option (Nat × Nat) :=
  (z.rxNamed.find? (fun i =>
    z.act F.AUDIO_RXS_SLOT_BASE 0 i ≤ slot && slot < z.act F.AUDIO_RXS_SLOT_BASE 0 i + (z.rxKept i).length * z.rxFactor i)).map
    (fun i => (z.rxFactor i, (slot - z.act F.AUDIO_RXS_SLOT_BASE 0 i) % z.rxFactor i))

/-- The source routed to an output slot. -/
def routeOf (z : Dev) (o : Nat) : Nat := if o % 2 = 0 then z.act F.AUDIO_ROUTE_SRC_A 0 (o / 2) else z.act F.AUDIO_ROUTE_SRC_B 0 (o / 2)

/-- R327: the slots of one destination channel of rate factor `r` from output slot `o`. -/
def routeOk (z : Dev) (o r : Nat) : Bool :=
  let ss := (List.range r).map (fun q => z.routeOf (o + q))
  if ss.all (· = 1023) then true
  else
    match ss with
    | s :: _ => ss = (List.range r).map (· + s) && z.slotChannel s = some (r, 0)
    | [] => true

/-- Channels and rates that a port's protocol carries (R334, R335); SDI 1.5G carries 16 channels. -/
def embedFits (z : Dev) (p n r : Nat) : Bool :=
  let k := z.act F.OPORT_CFG_PROTOCOL p
  if k = 0 then false
  else if k ≤ 3 then n ≤ 8
  else r = 1 && n ≤ (if k = 4 && z.txKbps (z.act F.OPORT_CFG_FIRST_LANE p) < 2000000 then 16 else 32)

/-- R328. What an embedding asks of its port is found in the page of the port, on SDI in that of its first lane (R271; log
entry 250). A TARGET that names no port or sender is a reserved encoding (R60, R335, R337). -/
def chkAudio (z : Dev) : Fails :=
  let rs := z.rxNamed
  let base (i : Nat) : Nat := z.act F.AUDIO_RXS_SLOT_BASE 0 i
  let len (i : Nat) : Nat := (z.rxKept i).length * z.rxFactor i
  let ts := (List.range 128).filter (fun i => z.act F.AUDIO_TXS_CFG_EN 0 i = 1)
  let os := (List.range 16).filter (fun i => z.act F.AUDIO_AOUT_CFG_EN 0 i = 1)
  let tb (i : Nat) : Nat := z.act F.AUDIO_TXS_SLOT_BASE 0 i
  let tr (i : Nat) : Nat := rateFactor (z.act F.AUDIO_TXS_CFG_RATE 0 i)
  let tn (i : Nat) : Nat := z.act F.AUDIO_TXS_CFG_CHANNELS 0 i + 1
  let direct := (List.range 16).filter (fun i => z.act F.AUDIO_AIN_CFG_EN 0 i = 1 && z.act F.AUDIO_AIN_CFG_DIRECT 0 i = 1)
  rs.flatMap (fun i =>
    fail (base i + len i > 512 || base i % z.rxFactor i ≠ 0) .audio 0 4 rcAudio
    ++ (match z.rxCtx i with
        | some n =>
          let k := z.ctxKind n
          fail (!(isBaseband k || k = 7 || k = 8)) .ingest n 0 rcAudio
        | none => []))
  ++ (pairs rs).flatMap (fun q =>
    fail ((base q.1 < base q.2 + len q.2 && base q.2 < base q.1 + len q.1)
      || ((z.rxCtx q.1).isSome && z.rxCtx q.1 = z.rxCtx q.2)) .audio 0 4 rcAudio)
  ++ ts.flatMap (fun i =>
    let p := z.act F.AUDIO_TXS_CFG_TARGET 0 i
    let embed := z.act F.AUDIO_TXS_CFG_KIND 0 i = 0
    let sdi := z.act F.OPORT_CFG_PROTOCOL p ≥ 4
    fail (tb i % tr i ≠ 0 || tb i + tn i * tr i > 512) .audio 0 6 rcAudio
    ++ fail ((List.range (tn i)).any (fun c => !z.routeOk (tb i + c * tr i) (tr i))) .audio 0 3 rcAudio
    ++ fail (p ≥ (if embed then 96 else 64)) .audio 0 6 rcRsv
    ++ (if embed && p < 96 && !z.embedFits p (tn i) (tr i) then
          [(if sdi then z.portPage p else pageAddr .oport p 0, rcAudio)] else []))
  ++ (pairs ts).flatMap (fun q =>
    let e (i : Nat) : Bool := z.act F.AUDIO_TXS_CFG_KIND 0 i = 0
    fail (e q.1 = e q.2 && z.act F.AUDIO_TXS_CFG_TARGET 0 q.1 = z.act F.AUDIO_TXS_CFG_TARGET 0 q.2) .audio 0 6 rcAudio)
  ++ os.flatMap (fun i =>
    let b := z.act F.AUDIO_AOUT_CFG_BASE 0 i
    let r := rateFactor (z.act F.AUDIO_AOUT_CFG_RATE 0 i)
    fail (b % r ≠ 0 || b + 2 * r > 512 || !z.routeOk b r || !z.routeOk (b + r) r) .audio 0 2 rcAudio)
  ++ (pairs direct).flatMap (fun q =>
    fail (z.act F.AUDIO_AIN_CFG_DIRECT_OUT 0 q.1 = z.act F.AUDIO_AIN_CFG_DIRECT_OUT 0 q.2) .audio 0 1 rcAudio)
  ++ fail (z.audioSram > 7340032) .audio 0 0 rcAudio
  ++ fail ((List.range 512).any (fun o => 512 ≤ z.routeOf o && z.routeOf o < 1023)) .audio 0 3 rcRsv

/-- The device with every hand word as its active copy: what a hand sealed now would set. -/
def sealedView (d : Dev) : Dev := d.copyHand d.handAddrs

/-- Every check of the hand regions at the SEAL write (R270). -/
def handFails (d : Dev) : Fails :=
  let z := d.sealedView
  d.chkRsv ++ chkLanes z ++ chkIngest z ++ chkTalon z ++ chkFresh z ++ chkChase z ++ chkEngines z ++ chkComp z
    ++ chkMeld z ++ chkTiming z ++ chkPorts z ++ d.chkRecorder z ++ chkWitness z ++ chkAudio z

/-- R271: of several failures, the one in the lowest page, and there of the lowest cause code. -/
def firstFail (l : Fails) : Option (Nat × Nat) :=
  l.foldl (fun m q =>
    match m with
    | none => some q
    | some b => if q.1 < b.1 || (q.1 = b.1 && q.2 < b.2) then some q else m) none

/-- R282: the longest frame period, in ns, of the heads enabled at the seal, applied or sealed. -/
def tSlow (d z : Dev) : Nat :=
  (List.range 64).foldl (fun m h =>
    if d.en .head h then
      let per (x : Dev) : Nat := let g := x.timing h; g.den * 1000000000 / max 1 g.num
      max m (max (per d) (per z))
    else m) 0

end Dev
end Sys2Proof.Machine
end

