-- ==== Sys2Proof/Machine/Deal.lean ====
section
/-! DEFINITION. The commands of DEAL: seals and their outcomes (R268 to R280), table and house deals (R281 to R292),
keepalives (R368) and the clears. -/
namespace Sys2Proof.Machine
namespace Dev

/-! Sealing. -/

/-- A hand is being resolved: OUTCOME is PENDING or a late window is open (R272). -/
def handBusy (d : Dev) : Bool := d.hand.pending || d.flag F.DEAL_STS_REVERTING

/-- The checks of the seal parameters (R273, R274, R281, R283). -/
def dealFails (d : Dev) (h : HandSt) : List (Nat × Nat) :=
  let z := d.sealedView
  let w := z.act F.DEAL_DEALER_CFG_WAIT_US * 1000
  let seats := h.seats
  let own := if h.scope = 1 then inMask seats z.mySeat
    else inMask h.tables z.myTable && inMask seats z.mySeat
  let limit := if h.scope = 1 then h.decide + w + 2000000 ≤ h.apply else h.decide + 2 * w + 2000000 ≤ h.apply
  fail (h.epoch = 0 || h.epoch ≤ d.get F.DEAL_EPOCH_ACTIVE) .deal 0 0 rcEpoch
  ++ fail (h.apply > h.edge + 3600000000000) .deal 0 0 rcApply
  ++ (if h.scope = 0 then []
      else fail (!z.actFlag F.DEAL_SEAT_CFG_TABLE_EN || !own || !limit
        || d.word (pageAddr .deal 0 1 + 0x800) ≠ d.word (pageAddr .deal 0 1 + 0x400)) .deal 0 1 rcDeal)

/-- Geometry words of the layers and trump planes the host wrote since the last apply (R18). -/
def geometryWritten (d : Dev) : List Nat :=
  d.written.filter (fun a =>
    match decodePage a with
    | some r => (r.blk = .layer && 0x800 ≤ a % 0x1000 && a % 0x1000 ≤ 0x814)
        || (r.blk = .head && r.page = 1 && 0x84C ≤ a % 0x1000 && a % 0x1000 ≤ 0x858)
    | none => false)

/-- SEAL (R269, R272). -/
def sealHand (d : Dev) : Dev :=
  if d.handBusy then (d.put F.DEAL_STS_SEAL_REFUSED 1).irq .deal 0 0 8
  else
    let t := d.house
    let scope := d.get F.DEAL_SCOPE_SCOPE
    let apply := if d.get64 F.DEAL_APPLY_LO = 0 then t else d.get64 F.DEAL_APPLY_LO
    let decide := if d.get64 F.DEAL_DECIDE_LO = 0 then apply - 4000000 else d.get64 F.DEAL_DECIDE_LO
    let z := d.sealedView
    let roster := z.act F.DEAL_ROSTER_LO + 2 ^ 32 * z.act F.DEAL_ROSTER_HI
    let h : HandSt :=
      { pending := true, edge := t, scope := scope, epoch := d.get F.DEAL_EPOCH, apply := apply, decide := decide
        seats := if scope = 2 then roster else d.mask64 F.DEAL_PART_SEATS_LO
        tables := if scope = 2 then d.mask256 F.DEAL_PART_TABLES else 0
        tslow := d.tSlow z, geometry := d.geometryWritten }
    let h := { h with fails := d.handFails ++ d.dealFails h }
    let refused := d.get F.DEAL_STS_SEAL_REFUSED
    let d := ((((d.setWord (F.DEAL_STS_OUTCOME.addr 0 0 0) 0).put F.DEAL_STS_SEAL_REFUSED refused).put F.DEAL_STS_OUTCOME
      ocPending).put F.DEAL_STS_CHECKING 1)
    let d := (d.put F.DEAL_EPOCH_SEALED h.epoch).put64 F.DEAL_APPLY_EFF_LO apply
    { (d.put F.DEAL_HELD_HEADS_LO 0).put F.DEAL_HELD_HEADS_HI 0 with hand := h, handLock := true, written := [] }

/-- Body of a BID and of a RETRACT (R372). -/
def bidBody (h : HandSt) : List Byte :=
  leBytes 1 h.scope ++ leBytes 3 0 ++ leBytes 4 h.epoch ++ leBytes 8 h.apply ++ leBytes 8 h.decide ++ leBytes 8 h.seats
    ++ leBytes 32 h.tables
def retractBody (h : HandSt) : List Byte := leBytes 1 h.scope ++ leBytes 3 0 ++ leBytes 4 h.epoch ++ leBytes 8 h.apply

/-- A participant bids, or retracts: to its own dealer function when it is dealer, else to the table (R283, R286). -/
def sendBid (d : Dev) : Dev :=
  let h := d.hand
  if d.deal.conflict then d
  else if d.flag F.DEAL_DEALER_STS_IS_DEALER then
    d.dealerBid d.mySeat d.house
      { scope := h.scope, epoch := h.epoch, apply := h.apply, decide := h.decide, seats := h.seats, tables := h.tables }
  else d.sendControl tyBid false (bidBody h)

def sendRetract (d : Dev) (h : HandSt) : Dev :=
  if d.flag F.DEAL_DEALER_STS_IS_DEALER then d.dealerRetract d.mySeat h.scope h.epoch h.apply
  else d.sendControl tyRetract false (retractBody h)

/-- R271: the seal is rejected. -/
def rejectSeal (d : Dev) (f : Nat × Nat) : Dev :=
  let h := d.hand
  let d := (d.sealedView.engineRejects f).foldl (fun d q =>
    ((d.put F.ENGINE_LAST_REJECT_CAUSE q.2.1 q.1).put F.ENGINE_LAST_REJECT_LAYER q.2.2 q.1).irq .engine q.1 0 2) d
  let d := { d with hand := {}, handLock := false, written := h.geometry }
  let d := ((((d.put F.DEAL_STS_CHECKING 0).put F.DEAL_STS_OUTCOME ocNone).put F.DEAL_REJECT_CAUSE f.2).put
    F.DEAL_REJECT_ADDR_OFFSET f.1).count F.DEAL_REJECTS
  let d := d.irq .deal 0 0 1
  if h.scope = 0 then d else d.sendRetract h

/-- Page and cause of a failure that the cited standards decide (R196, R254); `z`: the sealed hand. -/
def stdFail (z : Dev) (x : StdFail) : Nat × Nat :=
  match x with
  | .port p => (z.portPage p.val, rcPort)
  | .dsc h => (pageAddr .head h.val 3, rcDsc)

/-- Empty positions of all slab maps (R492). -/
def emptyPositions (d : Dev) : Nat := d.maps.foldl (fun n p => n + (p.2.filter (· = none)).length) 0

/-- The lowest page whose hand fields the slab need of an owner rests on (R271; log entry 250). -/
def ownPage (z : Dev) (own : Nat) : Nat :=
  let n := own % 0x1000
  match own / 0x1000 with
  | 1 => pageAddr .ingest n 0
  | 2 => pageAddr .layer n 0
  | 3 => pageAddr .head (n / 4) 0
  | 4 => pageAddr .recorder 0 0
  | 5 => pageAddr .witChain 64 0
  | 7 =>
    match (List.range 128).filter (fun i => z.act F.AUDIO_TXS_CFG_EN 0 i = 1 && z.act F.AUDIO_TXS_CFG_KIND 0 i = 0) with
    | [] => pageAddr .audio 0 0
    | i :: is => pageAddr .oport (is.foldl (fun m i => min m (z.act F.AUDIO_TXS_CFG_TARGET 0 i)) (z.act F.AUDIO_TXS_CFG_TARGET 0 i)) 0
  | _ => pageAddr .talon 0 0

/-- The page in which a shortage of slabs is found: the lowest of those of the owners that need some. -/
def shortPage (d z : Dev) (cs : List (Nat × Nat × Nat)) : Nat :=
  let os := (cs.filter (fun c => c.2.1 < c.2.2)).map (·.1) ++ (d.maps.filter (fun p => p.2.contains none)).map (·.1)
  (os.map z.ownPage).foldl min (pageAddr .witChain 64 0)

/-- R156: the increases of the hand are allocated, after the empty positions of R492. That it takes the owners in ascending
code, as R492 does, is the model's choice (DESIGN CHOICE, log entry 251). -/
def allocate (d : Dev) (cs : List (Nat × Nat × Nat)) : Dev :=
  cs.foldl (fun d c => if c.2.2 > c.2.1 then d.growMap c.1 (c.2.2 - c.2.1) else d) d.fillEmpty

/-- R276: the seal completes after a latch that lay at or after the apply time: that head is held there. -/
def heldPast (d : Dev) : Dev :=
  let due (h : Nat) : Bool :=
    let hs := d.headSt h
    hs.running && hs.viewed && !hs.virt && d.hand.apply ≤ hs.latch
  (d.hand.heads.filter due).foldl (fun d h =>
    (d.markHeld h).updHeadSt h (fun s => { s with flags := s.flags ||| 32 })) d

/-- SEAL_COMPLETE (R270): the talon and lead checks, and what a completed seal does. Completion waits for a talon
rebuild (R53), and while the talon is fenced for any allocation (R52). -/
def sealDone (d : Dev) (std : List StdFail) : Dev :=
  let h := d.hand
  if !h.pending || h.done.isSome || h.missed then d
  else
    let z := d.sealedView
    let cs := d.slabChanges z
    let need := cs.foldl (fun n c => n + (c.2.2 - c.2.1)) 0
    if d.flag F.LEDGER_AUDIT_STS_REBUILDING || d.talonFrozen || (need ≠ 0 && d.fenced .talon 0) then d
    else
      let lead := fail (h.scope ≠ 0 && h.apply < d.house + max (2 * h.tslow) 34000000) .deal 0 0 rcLead
      let std := std.filter (fun x => match x with | .dsc q => d.dscChanged q.val | .port _ => true)
      let all := h.fails ++ std.map z.stdFail ++ lead
      let short := need + d.emptyPositions - d.freeCount
      let f := firstFail (all ++ (if short = 0 then [] else [(d.shortPage z cs, rcTalon)]))
      let d := forN 64 d (fun d g => d.put F.ENGINE_LOAD_SEALED (loadShown (d.draws + g) (z.engineLoad g)) g)
      let d := { d with draws := d.draws + 64 }
      let d := d.put64 F.DEAL_SEAL_TIME_LO d.house
      match f with
      | some q =>
        let d := if q.2 = rcTalon then (d.put F.TALON_SEAL_SHORT short).irq .talon 0 0 0 else d
        d.rejectSeal q
      | none =>
        let d := (d.allocate cs).put F.TALON_SEAL_NEED need
        let d := ((d.put F.DEAL_STS_CHECKING 0).count F.DEAL_SEALS).irq .deal 0 0 0
        let d := ((List.range 16).filter d.dscChanged).foldl (fun d q =>
          d.updHeadSt q (fun s => { s with ppsDue := some (d.dscSettings q) })) d
        let on (b : Blk) (i : Nat) : Bool := d.powerState b i < 2
        let d := { d with hand := { h with
          done := some d.house, dealt := h.scope = 0, slabs := cs, rest := true
          absent := (d.handAddrs.filter (fun a => match decodePage a with
            | some r => d.powerState r.blk r.inst r.page ≥ 2
            | none => false)).foldl (fun l a => addOnce l (a / 0x1000)) []
          heads := (List.range 64).filter (on .head), ctxs := (List.range 256).filter (on .ingest) } }
        if h.scope = 0 then d.heldPast.applyTime else if h.withdrawn then d else d.sendBid

/-- WITHDRAW (R278, R285, R286). A take at the same edge wins (R278). -/
def withdrawHand (d : Dev) : Dev :=
  let h := d.hand
  if !h.pending then d
  else if h.scope = 0 then
    if h.taken || d.takesNow then ({ d with hand := { h with tooLate := true } }).put F.DEAL_STS_WITHDRAWN 1
    else ((d.put F.DEAL_STS_WITHDRAWN 1).put F.DEAL_STS_CHECKING 0).handFold fcWithdrawn
  else if h.missed then (d.put F.DEAL_STS_WITHDRAWN 1).lateClose
  else if h.dealt then ({ d with hand := { h with tooLate := true } }).put F.DEAL_STS_WITHDRAWN 1
  else (({ d with hand := { h with withdrawn := true } }).put F.DEAL_STS_WITHDRAWN 1).sendRetract h

/-- REVERT and REVERT_DONE (R280). -/
def revertHand (d : Dev) : Dev :=
  if d.handBusy then d else { d.put F.DEAL_STS_REVERTING 1 with handLock := true }
def revertDone (d : Dev) : Dev :=
  if d.flag F.DEAL_STS_REVERTING then { (d.put F.DEAL_STS_REVERTING 0).copyActive with handLock := false } else d

/-- DECISION_DEADLINE (R285). -/
def deadline (d : Dev) (t : Nat) : Dev :=
  let h := d.hand
  if h.pending && h.scope ≠ 0 && !h.dealt && !h.missed && h.apply ≤ t + 1000000 then
    let d := (({ d with hand := { h with missed := true } }.put F.DEAL_STS_OUTCOME ocMissed).count F.DEAL_MISSES).irq .deal 0 0 5
    if d.get F.DEAL_CFG_LATE_LIMIT = 0 then d.lateClose else d
  else d

/-- LATE_WINDOW_CLOSE (R285). -/
def windowClose (d : Dev) (t : Nat) : Dev :=
  if d.hand.missed ∧ d.hand.apply + d.get F.DEAL_CFG_LATE_LIMIT * d.hand.tslow ≤ t then d.lateClose else d

/-! Messages. -/

def bidIn (d : Dev) (m : List Byte) : Dev :=
  d.dealerBid (mget m 5 1 % 64) (mget m 8 8)
    { scope := mget m 20 1, epoch := mget m 24 4, apply := mget m 28 8, decide := mget m 36 8, seats := mget m 44 8
      tables := mget m 52 32 }

def retractIn (d : Dev) (m : List Byte) : Dev := d.dealerRetract (mget m 5 1 % 64) (mget m 20 1) (mget m 24 4) (mget m 28 8)

def voteIn (d : Dev) (m : List Byte) : Dev :=
  if mget m 8 8 < d.deal.houseSince then d
  else d.houseVote (mget m 4 1) (mget m 20 1) (mget m 24 4) (mget m 28 8) (mget m 36 8) (mget m 44 32)

/-- DECISION_RX (R284, R287, R373): one that names the own table, as the dealer sent it or as a seat of the table sent it
on. -/
def decisionIn (d : Dev) (m : List Byte) : Dev :=
  if mget m 36 1 = d.myTable ∧ (mget m 21 1 = vDeal ∨ mget m 21 1 = vFold) then
    d.learn (mget m 20 1) (mget m 21 1) (mget m 22 1) (mget m 23 1) (mget m 24 4) (mget m 28 8) (mget m 36 1)
  else d

/-- A control message of a type, and what it does when it is accepted. -/
def control (d : Dev) (i ty : Nat) (m : List Byte) (f : Dev → Dev) : Dev :=
  match d.acceptControl i ty m with
  | (true, d) => f d
  | (false, d) => d

/-! STREAM_ALIVE (R368, R369). -/

/-- Address words of a Tatre sender's path. -/
def tatreDst (d : Dev) (s : Nat) (path2 : Bool) : List Word :=
  (List.range 4).map (fun k =>
    BitVec.ofNat 32 (d.act (if path2 then F.SENDT_DST_P2 else F.SENDT_DST_P1) (tsPage s) k (s % 16)))

/-- A tile-class message leaves a sender on each of its paths (R376, R367). -/
def tatreSend (d : Dev) (s : Nat) (m : List Byte) : Dev :=
  let p := tsPage s
  let k := s % 16
  let n1 := d.act F.SENDT_CFG_NETIF_P1 p k
  let d := if d.actFlag F.SENDT_CFG_BONDED p k then
      (if (d.bondLanes n1).all (fun n => d.lget F.MLANE_LANE_STS_BOND_UP n = 1) then d.bondQueue n1 m else d)
    else d.udpSend n1 (d.tatreDst s false) (d.act F.SENDT_UDP_PORTS_PORT_P1 p k) m
  if d.actFlag F.SENDT_CFG_DUAL_PATH p k then
    d.udpSend (d.act F.SENDT_CFG_NETIF_P2 p k) (d.tatreDst s true) (d.act F.SENDT_UDP_PORTS_PORT_P2 p k) m
  else d

/-- House address of the device that first stamped a context's tiles (R359). -/
def originOf (d : Dev) (n : Nat) : Nat × Nat :=
  let own := (d.myTable, d.mySeat)
  if d.ctxKind n = 10 then
    match (d.ctx n).origins with
    | o :: _ => (o / 64, o % 64)
    | [] => own
  else own

/-- Bytes 16 to 27 of a tile-class message (R359). -/
def tileHead (d : Dev) (n seq frame : Nat) : List Byte :=
  leBytes 2 n ++ leBytes 1 (d.originOf n).1 ++ leBytes 1 (d.originOf n).2 ++ leBytes 4 seq ++ leBytes 4 frame

/-- The stream a sender carries has lost its origin (R369). -/
def originLost (d : Dev) (n : Nat) : Bool := d.ctxKind n = 10 && d.flag F.INGEST_FRESH_STS_PEER_LOST n

/-- Senders that run: enabled, with a page that is not fenced (R376). -/
def tatreRuns (d : Dev) (s : Nat) : Bool :=
  d.actFlag F.SENDT_CFG_EN (tsPage s) (s % 16) && d.enabled .sendT (tsPage s)

/-- STREAM_ALIVE of a sender at s_k. -/
def sendAlive (d : Dev) (s : Nat) : Dev :=
  let n := d.act F.SENDT_CFG_CONTEXT (tsPage s) (s % 16)
  let frame := ((d.latest n).map (·.frame)).getD 0
  let d := d.putB F.SENDT_STS_ORIGIN_LOST (d.originLost n) (tsPage s) (s % 16)
  d.tatreSend s (d.tatreHeader tyAlive 32 d.house ++ d.tileHead n 0 frame ++ leBytes 4 (if d.originLost n then 1 else 0))

/-- KEEPALIVE_SEND (R368). -/
def keepSend (d : Dev) (dealer : Bool) : Dev :=
  let d := d.elect
  if dealer then
    if d.flag F.DEAL_DEALER_STS_IS_DEALER then
      d.sendControl tyDealerKeep true
        (leBytes 1 ((if d.actFlag F.DEAL_SEAT_CFG_HOUSE_ELIGIBLE then 1 else 0) + (if d.flag F.DEAL_DEALER_STS_IS_HOUSE_DEALER then 2 else 0))
          ++ leBytes 1 (d.get F.DEAL_DEALS_OPEN_COUNT) ++ leBytes 2 0)
    else d
  else ((List.range 256).filter d.tatreRuns).foldl sendAlive (d.sendControl tyKeep false d.keepBody)

/-- A Tatre context's peer is lost (R369, R33, R132). -/
def peerLost (d : Dev) (n : Nat) : Dev :=
  if d.flag F.INGEST_FRESH_STS_PEER_LOST n then d
  else (((d.put F.INGEST_FRESH_STS_PEER_LOST 1 n).updCtx n (fun c => { c with peerCause := true })).relatch n).ctxLose n

/-- A context's stream is lost: raised on the port that carries it (R375), and a fault event (R455). -/
def streamLost (d : Dev) (n : Nat) : Dev :=
  if d.flag F.INGEST_FRESH_STS_PEER_LOST n then d
  else
    let p := d.act F.INGEST_LINK_NETIF n / 4
    let d := if d.actFlag F.INGEST_LINK_BONDED n then d else d.irq .nport p 0 9
    (d.peerLost n).snapFault 6 .nport p

/-- Tatre contexts whose sending or originating device is a seat of the own table (R369, R33). -/
def fedBy (d : Dev) (s : Nat) : List Nat :=
  (List.range 256).filter (fun n =>
    d.ctxKind n = 10
      && ((d.act F.INGEST_TATRE_SRC_TABLE n = d.myTable && d.act F.INGEST_TATRE_SRC_SEAT n = s)
        || (d.ctx n).origins.contains (addrCode d.myTable s)))

/-- KEEPALIVE_MISS (R368, R369): nothing was accepted from the sender for the three deadlines. -/
def keepMiss (d : Dev) (t : Nat) (who : Lost) : Dev :=
  match who with
  | .seat s =>
    if (d.seat s).live ∧ (d.seat s).heard + 3000000 ≤ t then (d.fedBy s).foldl peerLost (d.seatLost s) else d
  | .table n => if (d.tableSt n).live ∧ (d.tableSt n).heard + 3000000 ≤ t then (d.tableLost n).snapFault 6 .nport 0 else d
  | .stream n =>
    if d.ctxKind n = 10 ∧ sget (fun _ => 0) d.deal.streams n + 3000000 ≤ t then d.streamLost n else d

/-- The counters of both pages of DEAL. -/
def dealCounters : List Fld :=
  [F.DEAL_SEALS, F.DEAL_REJECTS, F.DEAL_HELDS, F.DEAL_FOLDS, F.DEAL_MISSES, F.DEAL_LATE_APPLIES, F.DEAL_TOO_LATES]
def dealerCounters : List Fld :=
  [F.DEAL_BIDS, F.DEAL_DEALS, F.DEAL_FOLDS_DECIDED, F.DEAL_BID_DUP, F.DEAL_DECISION_CONFLICT, F.DEAL_DEALER_CHANGES]

def dealPage : PageRef := ⟨.deal, 0, 0⟩

end Dev

/-- SEAL (R269). -/
def execSeal (t : Nat) (s : State) := s.onDev (fun d => (d.atTime t).gate Dev.dealPage 0x40 (·.sealHand))
/-- SEAL_COMPLETE (R270). -/
def execSealComplete (t : Nat) (std : List StdFail) (s : State) := s.onDev (fun d => (d.atTime t).sealDone std)
/-- WITHDRAW (R278). -/
def execWithdraw (t : Nat) (s : State) := s.onDev (fun d => (d.atTime t).gate Dev.dealPage 0x40 (·.withdrawHand))
/-- REVERT (R280). -/
def execRevert (t : Nat) (s : State) := s.onDev (fun d => (d.atTime t).gate Dev.dealPage 0x40 (·.revertHand))
/-- REVERT_DONE (R280). -/
def execRevertDone (t : Nat) (s : State) := s.onDev (fun d => (d.atTime t).revertDone)
/-- APPLY_TIME_REACHED (R275). -/
def execApplyTimeReached (t : Nat) (s : State) := s.onDev (fun d => (d.atTime t).applyTime)
/-- BID_RX (R283). -/
def execBidRx (t : Nat) (i : Fin 16) (m : List Byte) (s : State) :=
  s.onDev (fun d => (d.atTime t).control i tyBid m (fun d => d.bidIn m))
/-- RETRACT_RX (R286). -/
def execRetractRx (t : Nat) (i : Fin 16) (m : List Byte) (s : State) :=
  s.onDev (fun d => (d.atTime t).control i tyRetract m (fun d => d.retractIn m))
/-- DEALER_DECIDE (R283). -/
def execDealerDecide (t : Nat) (s : State) := s.onDev (fun d => (d.atTime t).dealerDecide t)
/-- TABLE_VOTE_RX (R287). -/
def execTableVoteRx (t : Nat) (i : Fin 16) (m : List Byte) (s : State) :=
  s.onDev (fun d => (d.atTime t).control i tyVote m (fun d => d.voteIn m))
/-- HOUSE_DECIDE (R287). -/
def execHouseDecide (t : Nat) (s : State) := s.onDev (fun d => (d.atTime t).houseDecide t)
/-- DECISION_RX (R284). -/
def execDecisionRx (t : Nat) (i : Fin 16) (m : List Byte) (s : State) :=
  s.onDev (fun d => (d.atTime t).control i tyDecision m (fun d => d.decisionIn m))
/-- DECISION_DEADLINE (R285). -/
def execDecisionDeadline (t : Nat) (s : State) := s.onDev (fun d => (d.atTime t).deadline t)
/-- LATE_WINDOW_CLOSE (R285). -/
def execLateWindowClose (t : Nat) (s : State) := s.onDev (fun d => (d.atTime t).windowClose t)
/-- KEEPALIVE_SEND (R368). -/
def execKeepaliveSend (t : Nat) (dealer : Bool) (s : State) := s.onDev (fun d => (d.atTime t).keepSend dealer)
/-- KEEPALIVE_RX (R368). -/
def execKeepaliveRx (t : Nat) (i : Fin 16) (m : List Byte) (s : State) :=
  s.onDev (fun d => (d.atTime t).control i tyKeep m (fun d => d.keepaliveIn i m))
/-- DEALER_KEEPALIVE_RX (R368). -/
def execDealerKeepaliveRx (t : Nat) (i : Fin 16) (m : List Byte) (s : State) :=
  s.onDev (fun d => (d.atTime t).control i tyDealerKeep m (fun d => d.dealerKeepIn m))
/-- KEEPALIVE_MISS (R368). -/
def execKeepaliveMiss (t : Nat) (who : Lost) (s : State) := s.onCtx (fun d => (d.atTime t).keepMiss t who)
/-- DEAL_CNT_CLEAR (R293). -/
def execDealCntClear (s : State) :=
  s.onDev (fun d => d.gate Dev.dealPage 0xDC (·.clear Dev.dealCounters))
/-- DEALER_CNT_CLEAR (R295). -/
def execDealerCntClear (s : State) :=
  s.onDev (fun d => d.gate ⟨.deal, 0, 1⟩ 0xB8 (·.clear Dev.dealerCounters))

end Sys2Proof.Machine
end

