-- ==== Sys2Proof/Machine/Dma.lean ====
section
/-! DEFINITION. The commands of the host-surface DMA rings (R133 to R135), and the copy-forward of unchanged
positions (R159). -/
namespace Sys2Proof.Machine
namespace Dev

/-- Every position of the frame in progress holds a tile: written or copied (R159). -/
def allWritten (f : InFrame) : Bool := f.copied || f.written.length = f.pic.cols * f.pic.rows

/-- R132, R134, R159: an ended frame is published once every copy has completed; the publication is the context's
frame boundary (R275). -/
def tryPublish (d : Dev) (n t : Nat) : Dev :=
  match (d.ctx n).cur with
  | some f => if f.ended && !f.drop && allWritten f then (d.publish n t).ctxBoundary n else d
  | none => d

/-- COPY_FORWARD_DONE (R159): every position without a new tile takes the latest complete frame's, or a tile
of zeros where there is no such frame; also where that frame is of another format, or too small to have the position (DESIGN
CHOICE, log entry 246). It waits while the ingest cluster has no free tag (R151). -/
def copyForward (d : Dev) (n t : Nat) (errs : List ReadError) : Dev :=
  match (d.ctx n).cur with
  | none => d
  | some f =>
    if f.drop || f.copied || !d.tagFree (reqIngest n) then d
    else
      let src := d.latest n
      let d := ((picPositions f.pic).filter (fun q => !f.written.contains (q.2 * f.pic.cols + q.1))).foldl
        (fun d q =>
          match src with
          | some p =>
            if q.1 < p.cols ∧ q.2 < p.rows ∧ p.fmt = f.pic.fmt then d.copyTile (reqIngest n) f.pic p q.1 q.2 errs
            else d.writeTile (reqIngest n) f.pic none q.1 q.2 0 false (tileOfLines f.pic.fmt [] q.1)
          | none => d.writeTile (reqIngest n) f.pic none q.1 q.2 0 false (tileOfLines f.pic.fmt [] q.1)) d
      ((d.updCtx n (fun c => { c with cur := some { f with copied := true } })).showWritten n).tryPublish n t

/-- Bits per pixel of a host surface (R133, R134). -/
def hostBpp (d : Dev) (n : Nat) : Nat :=
  ((if d.act F.INGEST_NET_FMT2_SAMPLING n = 0 then 2 else 3) + (if d.actFlag F.INGEST_NET_FMT2_ALPHA_IN n then 1 else 0))
    * (8 + 2 * d.act F.INGEST_NET_FMT2_DEPTH n)

/-- R134: the first check a descriptor fails, as DMA_ERR.CAUSE; 0 when it passes. The surface is one frame of the applied
format: a field of it where it is interlaced. -/
def descCheck (d : Dev) (n : Nat) (x : Descriptor) : Nat :=
  let w := d.act F.INGEST_NET_FMT_WIDTH n
  let h := (d.netSig n false).height
  if !(x.x % 64 = 0 && x.y % 32 = 0 && (x.w % 64 = 0 || x.x + x.w = w) && (x.h % 32 = 0 || x.y + x.h = h)) then 1
  else if x.x + x.w > w || x.y + x.h > h then 2
  else if x.reserved then 3
  else if x.stride < (x.w * d.hostBpp n + 7) / 8 then 4
  else 0

/-- DMA_HEAD moves past a descriptor. -/
def dmaAdvance (d : Dev) (n : Nat) : Dev :=
  let e := d.get F.INGEST_DMA_RING_SIZE_ENTRIES n
  d.put F.INGEST_DMA_HEAD_HEAD (if e = 0 then 0 else (d.get F.INGEST_DMA_HEAD_HEAD n + 1) % e) n

/-- A descriptor is rejected: its index and cause, and the frame being assembled is discarded (R134). -/
def dmaReject (d : Dev) (n cause : Nat) : Dev :=
  (((d.put F.INGEST_DMA_ERR_INDEX (d.get F.INGEST_DMA_HEAD_HEAD n) n).put F.INGEST_DMA_ERR_CAUSE cause n).discardCur n
    drDescriptor).dmaAdvance n

/-- Descriptors being executed by the eight channels. -/
def dmaBusy (d : Dev) : Nat := (d.ctxs.filter (fun c => c.2.dma.isSome)).length

/-- Rings with pending descriptors and their priority (R133). -/
def dmaPending (d : Dev) (n : Nat) : Bool :=
  d.enabled .ingest n && d.ctxKind n = 11 && d.flag F.INGEST_DMA_CTL_EN n
    && d.get F.INGEST_DMA_HEAD_HEAD n ≠ d.get F.INGEST_DMA_TAIL_TAIL n && (d.ctx n).dma.isNone

/-- R133: the ring is served next: no pending ring has a higher priority, nor stands before it in the round that begins
after the ring served last. -/
def dmaHighest (d : Dev) (n : Nat) : Bool :=
  let prio (m : Nat) : Nat := d.get F.INGEST_DMA_CTL_DMA_PRIO m
  let turn (m : Nat) : Nat := (m + 255 - d.dmaLast % 256) % 256
  (List.range 256).all (fun m =>
    !d.dmaPending m || prio m < prio n || (prio m = prio n && turn n ≤ turn m))

/-- The frame that ended before a descriptor is published first: its copies complete then at the latest (R134, R159; log
entry 17). -/
def dmaTurn (d : Dev) (n t : Nat) : Dev :=
  match (d.ctx n).cur with
  | some f => if f.ended then d.copyForward n t [] else d
  | none => d

/-- DMA_DESCRIPTOR_START (R134). -/
def dmaStart (d : Dev) (n t : Nat) (x : Descriptor) : Dev :=
  if !d.dmaPending n || d.dmaBusy ≥ 8 || !d.dmaHighest n then d
  else
    let d := d.dmaTurn n t
    if !d.dmaPending n || ((d.ctx n).cur.map (·.ended)).getD false then d
    else
    let d := { d with dmaLast := n }
    let cause := d.descCheck n x
    if cause ≠ 0 then d.dmaReject n cause
    else
      let d := if (d.ctx n).cur.isNone then d.beginFrame n t (d.netSig n false) (d.ctxFmt n (d.netSig n false)) else d
      d.updCtx n (fun c => { c with dma := some x })

/-- The tiles of a completed rectangle are written (R9, R10, R134). -/
def dmaTiles (d : Dev) (n t : Nat) (f : InFrame) (x : Descriptor) (lines : List (List Nat)) : Dev :=
  let sig := f.sig
  let st := if x.stamp = 0 then t else min x.stamp t
  let alphaIn := d.actFlag F.INGEST_NET_FMT2_ALPHA_IN n
  let ls := lines.map (storeLine (sig.sampling ≤ 1) alphaIn (8 + 2 * sig.depth) f.pic.fmt)
  let cs := (x.w + 63) / 64
  let rs := (x.h + 31) / 32
  let d := (List.range rs).foldl (fun d r => (List.range cs).foldl (fun d c =>
    d.writeTile (reqDma n) f.pic (d.latest n) (x.x / 64 + c) (x.y / 32 + r) st false
      (tileOfLines f.pic.fmt (ls.drop (32 * r)) c)) d) d
  (d.updCtx n (fun c => { c with cur := c.cur.map (fun f => { f with
    written := (List.range rs).foldl (fun l r => (List.range cs).foldl (fun l k =>
      addOnce l ((x.y / 32 + r) * f.pic.cols + x.x / 64 + k)) l) f.written }) })).showWritten n

/-- DMA_DESCRIPTOR_DONE (R134): data read, or a host abort. Without a free tag it waits (R151). -/
def dmaDone (d : Dev) (n t : Nat) (lines : Option (List (List Nat))) : Dev :=
  match (d.ctx n).dma with
  | none => d
  | some x =>
    if !d.tagFree (reqDma n) then d
    else
    let stop := (d.ctx n).dmaStop || !d.flag F.INGEST_DMA_CTL_EN n
    let d := d.updCtx n (fun c => { c with dma := none, dmaStop := false })
    match lines with
    | none => d.dmaReject n 5
    | some ls =>
      let d := match (d.ctx n).cur with
        | some f => if f.drop then d else d.dmaTiles n t f x ls
        | none => d
      let d := d.dmaAdvance n
      let d := if x.irq then d.irq .ingest n 0 6 else d
      let d := if stop then d.discardCur n drDescriptor else d
      if x.eof then
        match (d.ctx n).cur with
        | some f => if f.drop then d.discardCur n 0
          else (d.updCtx n (fun c => { c with cur := some { f with ended := true } })).tryPublish n t
        | none => d
      else d

/-- DMA_TAIL_WRITE (R135): TAIL is taken modulo ENTRIES. -/
def dmaTailWrite (d : Dev) (n tail : Nat) : Dev :=
  let e := d.get F.INGEST_DMA_RING_SIZE_ENTRIES n
  d.put F.INGEST_DMA_TAIL_TAIL (if e = 0 then tail else tail % e) n

/-- DMA_ENABLE_WRITE (R135): a ring stopped while a descriptor executes discards its frame at the descriptor's end, also where
it has been enabled again. -/
def dmaEnableWrite (d : Dev) (n : Nat) (en : Bool) (prio : Nat) : Dev :=
  let d := d.put F.INGEST_DMA_CTL_DMA_PRIO prio n
  if en then
    if d.get F.INGEST_DMA_RING_SIZE_ENTRIES n = 0 then d.rsvCode (ctxPage n) 0xB4 else d.put F.INGEST_DMA_CTL_EN 1 n
  else
    let was := d.flag F.INGEST_DMA_CTL_EN n
    let d := d.put F.INGEST_DMA_CTL_EN 0 n
    if !was then d
    else if (d.ctx n).dma.isNone then d.discardCur n drDescriptor
    else d.updCtx n (fun c => { c with dmaStop := true })

/-- DMA_RING_SIZE_WRITE (R135). -/
def dmaRingSizeWrite (d : Dev) (n entries : Nat) : Dev :=
  if [16, 32, 64, 128, 256, 512, 1024, 2048, 4096].contains entries && !d.flag F.INGEST_DMA_CTL_EN n then
    d.put F.INGEST_DMA_RING_SIZE_ENTRIES entries n
  else d.rsvCode (ctxPage n) 0xA8

end Dev

/-- DMA_TAIL_WRITE (R133, R135). -/
def execDmaTailWrite (t : Nat) (ctx : Fin 256) (tail : BitVec 12) (s : State) :=
  s.onDev (fun d => (d.atTime t).gate (Dev.ctxPage ctx) 0xAC (·.dmaTailWrite ctx tail.toNat))
/-- DMA_DESCRIPTOR_START (R134). -/
def execDmaDescriptorStart (t : Nat) (ctx : Fin 256) (x : Descriptor) (s : State) :=
  s.onDev (fun d => (d.atTime t).dmaStart ctx (max s.dev.house t) x)
/-- DMA_DESCRIPTOR_DONE (R134). -/
def execDmaDescriptorDone (t : Nat) (ctx : Fin 256) (lines : Option (List (List Nat))) (s : State) :=
  s.onDev (fun d => (d.atTime t).dmaDone ctx (max s.dev.house t) lines)
/-- DMA_ENABLE_WRITE (R135). -/
def execDmaEnableWrite (t : Nat) (ctx : Fin 256) (en : Bool) (prio : BitVec 2) (s : State) :=
  s.onDev (fun d => (d.atTime t).gate (Dev.ctxPage ctx) 0xB4 (·.dmaEnableWrite ctx en prio.toNat))
/-- DMA_RING_SIZE_WRITE (R135). -/
def execDmaRingSizeWrite (t : Nat) (ctx : Fin 256) (entries : BitVec 13) (s : State) :=
  s.onDev (fun d => (d.atTime t).gate (Dev.ctxPage ctx) 0xA8 (·.dmaRingSizeWrite ctx entries.toNat))
/-- COPY_FORWARD_DONE (R159). -/
def execCopyForwardDone (t : Nat) (r : CtxRead) (s : State) :=
  s.onDev (fun d => (d.atTime t).copyForward r.ctx (max s.dev.house t) r.errs)

end Sys2Proof.Machine
end

