-- ==== Sys2Proof/Machine/Tatre.lean ====
section
/-! DEFINITION. Tatre tile streams (R359 to R367, R369): reception into contexts, the senders, and the interfaces of
the network ports (R352, R353). -/
namespace Sys2Proof.Machine

/-! Reading a stored tile (R145, R194). -/

/-- One plane of `g` groups read from a coded bit string, and the rest of the string (R194 step 4). -/
def readPlane : Nat → Nat → List Nat × Nat
  | 0, v => ([], v)
  | g + 1, v =>
    let k := v % 16
    let r := readPlane g (v / 16 / 2 ^ (16 * k))
    (unpackBits k 16 (v / 16) ++ r.1, r.2)

/-- Samples of a plane from its coded residuals (R194 steps 2 and 3). -/
def planeSamples (bits w : Nat) (us : List Nat) : List Nat :=
  (us.foldl (fun (acc : Nat × List Nat) u =>
    let k := acc.1
    let p := if k = 0 then 2 ^ (bits - 1) else if k % w = 0 then acc.2.getD (w - 1) 0 else acc.2.headD 0
    let s : Int := if u % 2 = 0 then (u / 2 : Nat) else -((u + 1) / 2 : Nat)
    (k + 1, unsgn bits (p + s) :: acc.2)) (0, [])).2.reverse

/-- The samples of a coded tile (R194). -/
def unpackTile (f : TileFmt) (bytes : List Byte) : List Nat :=
  let sizes := if f.s444 then List.replicate f.group (64, 2048)
    else [(64, 2048), (32, 1024), (32, 1024)] ++ (if f.alpha then [(64, 2048)] else [])
  let ps := (sizes.foldl (fun (acc : List (List Nat) × Nat) p =>
    let r := readPlane (p.2 / 16) acc.2
    (acc.1 ++ [planeSamples f.bits p.1 r.1], r.2)) ([], leVal bytes)).1
  let pl (k : Nat) := ps.getD k []
  if f.s444 then (List.range 2048).flatMap (fun i => (List.range f.group).map (fun k => (pl k).getD i 0))
  else (List.range 1024).flatMap (fun i =>
    [(pl 1).getD i 0, (pl 0).getD (2 * i) 0, (pl 2).getD i 0, (pl 0).getD (2 * i + 1) 0]
      ++ (if f.alpha then [(pl 3).getD (2 * i) 0, (pl 3).getD (2 * i + 1) 0] else []))

/-- The samples of stored sectors; a tile in as many sectors as its plain size is plain (R146, R194). -/
def storedSamples (f : TileFmt) (bytes : List Byte) : List Nat :=
  if bytes.length = f.sectors * 512 then unpackBits f.bits (f.perLine * 32) (leVal bytes) else unpackTile f bytes

/-- Key of a tile position. -/
def posKey (c r : Nat) : Nat := r * 1024 + c

namespace Dev

/-! Reception (R357, R365). -/

/-- LENGTH of a tile-class message by its type (R360, R362, R363, R369). -/
def tileLenOk (ty : Nat) (m : List Byte) : Bool :=
  if ty = tyTile then 52 < m.length && m.length ≤ 8756 && (m.length - 52) % 512 = 0
  else if ty = tyStamps then 1 ≤ mget m 28 2 && mget m 28 2 ≤ 512 && m.length = 32 + 16 * mget m 28 2
  else if ty = tyEnd then m.length = 40
  else m.length = 32

/-- The path by which a context accepts a tile-class message (R365): path 2 as true. -/
def tatrePath (d : Dev) (n : Nat) (rx : TileRx) : Option Bool :=
  let src := d.act F.INGEST_TATRE_SRC_TABLE n = mget rx.msg 4 1 && d.act F.INGEST_TATRE_SRC_SEAT n = mget rx.msg 5 1 % 64
    && d.act F.INGEST_TATRE_SRC_CONTEXT n = mget rx.msg 16 1
  let i := d.act F.INGEST_LINK_NETIF n
  let bonded := d.actFlag F.INGEST_LINK_BONDED n
  let addr (p2 : Bool) : Bool := rx.dest = d.pathAddr n p2
    && rx.port = d.act (if p2 then F.INGEST_UDP_PORTS_PORT_P2 else F.INGEST_UDP_PORTS_PORT_P1) n
  if d.ctxKind n ≠ 10 || !d.enabled .ingest n || !src then none
  else match rx.bond with
    | some b => if bonded && i = b.val then some false else none
    | none =>
      if !bonded && rx.netif.val = i && addr false then some false
      else if d.actFlag F.INGEST_CFG_DUAL_PATH n && (bonded || rx.netif.val ≠ i) && addr true then some true
      else none

/-- A message of a type arrives (R357, R365): counted by its interface, and given to every context that accepts it. -/
def tatreRx (d : Dev) (ty : Nat) (rx : TileRx) (f : Dev → Nat → Bool → Dev) : Dev :=
  let i := rx.netif.val
  let up := match rx.bond with
    | some b => !(d.bondLanes b.val).isEmpty && (d.bondLanes b.val).all (fun n => d.lget F.MLANE_LANE_STS_BOND_UP n = 1 && d.rxData n)
    | none => d.netUp i && d.netHears i (fun o => match o with | .udp k _ q b => k = i && q = rx.port && b = rx.msg | _ => false)
  if !up then d
  else
    let d := match rx.bond with
      | some b => d.bondTake b.val rx.msg
      | none => (d.netLoops i (.udp rx.port rx.msg)).chanPass (12 + i / 4) 16
    let d := if rx.bond.isNone then d.count F.NPORT_RX_FRAMES (i / 4) (i % 4) else d
    let turn (d : Dev) : Dev := if rx.bond.isNone then d.count F.NPORT_NOT_FOR_US (i / 4) (i % 4) else d
    if rx.bond.isNone && overMtu rx.dest rx.msg.length then d.tooLong i
    else if rx.bond.isNone && d.act F.NPORT_SP_CFG_TATRE_RX (i / 4) (i % 4) ≠ 1 then d
    else if !headerOk rx.msg rx.msg.length || mget rx.msg 3 1 ≠ ty || !tileLenOk ty rx.msg
        || srcCode rx.msg = addrCode d.myTable d.mySeat then turn d
    else
      let ns := (List.range 256).filterMap (fun n => (d.tatrePath n rx).map (fun p => (n, p)))
      if ns.isEmpty then turn d else ns.foldl (fun d p => f d p.1 p.2) d

/-- The format a Tatre context reports, from the size and FORMAT of its frame (R363). -/
def tatreSig (w h : Nat) (f : TileFmt) : SigFmt :=
  { width := w, height := h, htotal := 0, vtotal := 0, sampling := if f.s444 then (if f.ycc then 1 else 0) else 2
    depth := f.depth, narrow := false, colorimetry := 0, transfer := 0, interlaced := false, bottom := f.bottom
    supported := true }

/-- Frame number `a` is later than `b` (modulo 2^32). -/
def laterFrame (a b : Nat) : Bool := a ≠ b && (a + 2 ^ 32 - b) % 2 ^ 32 < 2 ^ 31

/-- A frame begins: it takes a buffer at the size of the latest complete frame until its END_OF_FRAME gives its own
(log entry 17). -/
def tatreBegin (d : Dev) (n t frame : Nat) (f : TileFmt) : Dev :=
  let w := ((d.latest n).map (·.width)).getD 0
  let h := ((d.latest n).map (·.height)).getD 0
  (d.beginFrame n t (tatreSig w h f) f).updCtx n (fun c => { c with cur := c.cur.map (fun x => { x with sent := frame }) })

/-- The tiles received whole are written at their places (R360, R365): content, stamp and format as received. -/
def placeWhole (d : Dev) (n : Nat) (f : InFrame) : Dev :=
  let prev := d.latest n
  let ts := f.whole.filter (fun p => p.1 % 1024 < f.pic.cols ∧ p.1 / 1024 < f.pic.rows)
  let d := ts.foldl (fun d p =>
    let c := p.1 % 1024
    let r := p.1 / 1024
    match f.pic.slot c r with
    | none => d
    | some (s, k) =>
      let dirty := match prev with
        | some q => !((d.picTile q c r).valid && c < q.cols && r < q.rows && (d.picTile q c r).crc = p.2.crc)
        | none => true
      let lost := d.slotFenced s k f.pic.fmt.sectors p.2.sectors
      ((d.setTile (slotKey s k)
        { p.2 with
          frame := f.pic.frame, poison := p.2.poison || lost, dirty := dirty, valid := true, owner := f.pic.owner
          buffer := f.pic.buffer, col := c, row := r }).slotMended s k f.pic.fmt.sectors p.2.sectors).transact (reqIngest n) (p.2.sectors * 512 + 32)) d
  d.updCtx n (fun c => { c with cur := some { f with
    written := ts.foldl (fun l p => addOnce l (p.1 / 1024 * f.pic.cols + p.1 % 1024)) f.written, whole := [], parts := []
    ended := true } })

/-- The frame being assembled ends at a size (R132, R158, R363); it is published once every copy has completed. -/
def tatreFinish (d : Dev) (n t w h : Nat) : Dev :=
  match (d.ctx n).cur with
  | none => d
  | some f =>
    if f.drop then (d.updCtx n (fun c => { c with closedRtp := some f.sent })).discardCur n 0
    else if f.ended then d
    else
      let fmt := (f.whole.head?.map (fun p => p.2.fmt)).getD f.pic.fmt
      let same := w = f.pic.width ∧ h = f.pic.height ∧ fmt = f.pic.fmt
      let p := { f.pic with width := w, height := h, fmt := fmt }
      let d := d.updCtx n (fun c => { c with closedRtp := some f.sent })
      if p.cols * p.rows > d.act F.TALON_CTX_BUF_SLABS 0 n * slotsPer fmt.sectors then
        ((d.putAt (F.TALON_CTX_SHORT.addr 0 (n / 32) 0) (n % 32) 1 1).irq .talon 0 0 1).discard n drSlab
      else
        ((d.placeWhole n { f with pic := p, sig := tatreSig w h fmt, copied := f.copied && same }).showWritten n).tryPublish n t

/-- A message of frame `frame` meets the frame being assembled (R132): a later frame's message publishes it, the
copies of an ended frame completing then at the latest (log entry 17). -/
def tatreTurn (d : Dev) (n t frame : Nat) : Dev :=
  match (d.ctx n).cur with
  | none => d
  | some f =>
    if !laterFrame frame f.sent then d
    else if f.drop || f.ended then (d.tatreFinish n t f.pic.width f.pic.height).copyForward n t []
    else match d.latest n with
      | some q => (d.tatreFinish n t q.width q.height).copyForward n t []
      | none =>
        if f.whole.isEmpty then (d.updCtx n (fun c => { c with closedRtp := some f.sent })).discard n drIncomplete
        else
        let size (g : Nat → Nat) (k : Nat) : Nat := k * f.whole.foldl (fun m p => max m (g p.1 + 1)) 0
        (d.tatreFinish n t (size (· % 1024) 64) (size (· / 1024) 32)).copyForward n t []

/-- What TILE, STAMPS and END_OF_FRAME share (R116, R132, R138, R365): the merge of the paths, late frames, and the
frame they belong to, which is begun. -/
def tatreTake (d : Dev) (n t : Nat) (path2 : Bool) (m : List Byte) (f : TileFmt) (go : Dev → Dev) : Dev :=
  let d := d.pathHeard n path2
  let d := if d.ctxState n = stLost ∧ !d.flag F.INGEST_FRESH_STS_PEER_LOST n then d.setCtxState n stSearch else d
  if d.ctxState n ≠ stSearch ∧ d.ctxState n ≠ stLocked then d
  else
    let frame := mget m 24 4
    let late := ((d.ctx n).closedRtp.map (fun k => !laterFrame frame k)).getD false
      || ((d.ctx n).cur.map (fun x => laterFrame x.sent frame)).getD false
    match d.mergeSeq n t (mget m 20 4) path2 late with
    | (false, d) => d
    | (true, d) =>
        let d := (d.tatreTurn n t frame).updCtx n (fun c => { c with origins := [addrCode (mget m 18 1) (mget m 19 1 % 64)] })
        go (if (d.ctx n).cur.isNone then d.tatreBegin n t frame f else d)

/-- A change of the frame being assembled, unless it has ended or is received into no buffer. -/
def updFrame (d : Dev) (n : Nat) (g : InFrame → InFrame) : Dev :=
  d.updCtx n (fun c => { c with cur := c.cur.map (fun f => if f.drop || f.ended then f else g f) })

/-- TATRE_TILE_RX (R360, R361, R365). -/
def tileIn (d : Dev) (n t : Nat) (path2 : Bool) (m : List Byte) : Dev :=
  let f := TileFmt.ofByte (mget m 45 1)
  d.tatreTake n t path2 m f (fun d =>
    let u := mget m 44 1 % 32 + 1
    let key := posKey (mget m 28 2) (mget m 30 2)
    match (d.ctx n).cur with
    | none => d
    | some x =>
      let parts := (key, mget m 46 1 % 2, m.drop 52) :: x.parts.filter (fun p => p.1 ≠ key || p.2.1 ≠ mget m 46 1 % 2)
      let part (k : Nat) : List Byte := ((parts.find? (fun p => p.1 = key && p.2.1 = k)).map (·.2.2)).getD []
      let bytes := part 0 ++ part 1
      if bytes.length ≠ u * 512 then d.updFrame n (fun x => { x with parts := parts })
      else
        let data := storedSamples f bytes
        if crc32c (plainBytes f data) = mget m 40 4 then
          d.updFrame n (fun x =>
            { x with
              parts := x.parts.filter (fun p => p.1 ≠ key)
              whole := (key, { stamp := mget m 32 8, crc := mget m 40 4, sectors := u, pack := u < f.sectors, fmt := f, data := data })
                :: x.whole.filter (fun p => p.1 ≠ key) })
        else d.updFrame n (fun x => { x with parts := x.parts.filter (fun p => p.1 ≠ key) }))

/-- TATRE_STAMPS_RX (R362). -/
def stampsIn (d : Dev) (n t : Nat) (path2 : Bool) (m : List Byte) (errs : List ReadError) : Dev :=
  d.tatreTake n t path2 m (((d.latest n).map (·.fmt)).getD {}) (fun d =>
    (List.range (mget m 28 2)).foldl (fun d k =>
      let c := mget m (32 + 16 * k) 2
      let r := mget m (34 + 16 * k) 2
      let held := (d.latest n).bind (fun q =>
        if c < q.cols && r < q.rows && (d.picTile q c r).valid && (d.picTile q c r).crc = mget m (36 + 16 * k) 4 then
          some (d.readTile (reqIngest n) q c r errs)
        else none)
      match held with
      | some x => x.2.updFrame n (fun f =>
          { f with whole := (posKey c r, { x.1 with stamp := mget m (40 + 16 * k) 8 }) :: f.whole.filter (fun p => p.1 ≠ posKey c r) })
      | none => d.count F.INGEST_LINK_ERR n) d)

/-- TATRE_END_OF_FRAME_RX (R363). -/
def endIn (d : Dev) (n t : Nat) (path2 : Bool) (m : List Byte) : Dev :=
  d.tatreTake n t path2 m (((d.latest n).map (·.fmt)).getD {}) (fun d => d.tatreFinish n t (mget m 36 2) (mget m 38 2))

/-- STREAM_ALIVE_RX (R368, R369): a sender that returns after it was lost starts its frames and sequence anew. -/
def aliveIn (d : Dev) (n : Nat) (path2 : Bool) (m : List Byte) : Dev :=
  let d := (d.pathHeard n path2).updDeal (fun s => { s with streams := sset (fun _ => 0) s.streams n d.house })
  if mget m 28 1 % 2 = 1 then d.streamLost n
  else if d.flag F.INGEST_FRESH_STS_PEER_LOST n then
    let d := (d.put F.INGEST_FRESH_STS_PEER_LOST 0 n).updCtx n (fun c => { c with seen := [], highSeq := none, closedRtp := none })
    let d := if d.ctxState n = stLost then d.setCtxState n stSearch else d
    if d.actFlag F.INGEST_LINK_BONDED n then d else d.irq .nport (d.act F.INGEST_LINK_NETIF n / 4) 0 10
  else d

/-- TATRE_APPLY_TIMEOUT (R275). -/
def applyTimeout (d : Dev) (n t : Nat) : Dev :=
  if d.handReady && d.hand.ctxs.contains n && (d.ctxKind n = 10 || d.ctxKind n = 11) && d.hand.apply + 100000000 ≤ t then
    (d.discardCur n drIncomplete).applyCtx n
  else d

/-! Senders (R361, R364). -/

/-- The parts of a stored tile: part byte, offset and payload (R361). -/
def tileParts (bytes : List Byte) : List (Nat × Nat × List Byte) :=
  let u := bytes.length / 512
  if u ≤ 17 then [(2, 0, bytes)]
  else [(0, 0, bytes.take ((u + 1) / 2 * 512)), (3, (u + 1) / 2 * 512, bytes.drop ((u + 1) / 2 * 512))]

/-- One tile-class message of a sender with the next SEQ of its stream (R359). -/
def streamMsg (d : Dev) (s n ty frame : Nat) (body : List Byte) : Dev :=
  let q := ((d.tsend s).seq + 1) % 2 ^ 32
  let d := d.setTsend s { d.tsend s with seq := q }
  d.tatreSend s (d.tatreHeader ty (28 + body.length) d.house ++ d.tileHead n q frame ++ body)

/-- A TILE message for each part of a tile (R360). -/
def sendTile (d : Dev) (s n : Nat) (p : Pic) (c r : Nat) (x : Tile) : Dev :=
  (tileParts ((storedBytes x.fmt x.pack x.data).take (x.sectors * 512))).foldl (fun d q =>
    (d.streamMsg s n tyTile p.frame
      (leBytes 2 c ++ leBytes 2 r ++ leBytes 8 x.stamp ++ leBytes 4 x.crc
        ++ leBytes 1 ((x.sectors - 1) % 32 + (if x.pack then 32 else 0)) ++ leBytes 1 x.fmt.byte ++ leBytes 1 q.1 ++ leBytes 1 0
        ++ leBytes 4 q.2.1 ++ q.2.2)).count F.SENDT_TILES (tsPage s) (s % 16)) d

/-- TATRE_SEND_FRAME (R364): the frame that waits leaves whole. Without a free tag it waits on (R151). -/
def sendFrame (d : Dev) (s : Nat) (errs : List ReadError) : Dev :=
  match (d.tsend s).waiting with
  | none => d
  | some p =>
    let q := reqSend (d.act F.SENDT_CFG_NETIF_P1 (tsPage s) (s % 16) / 4 % 4) s
    if !d.tatreRuns s || !d.tagFree q then d
    else
      let n := d.act F.SENDT_CFG_CONTEXT (tsPage s) (s % 16)
      let refresh := d.act F.SENDT_CFG_REFRESH (tsPage s) (s % 16)
      let k := (d.tsend s).frames + 1
      let pos := picPositions p
      let rd := pos.foldl (fun (acc : List Tile × Dev) k =>
        let r := acc.2.readTile q p k.1 k.2 errs
        (r.1 :: acc.1, r.2)) ([], d)
      let xs := rd.1.reverse
      let d := rd.2
      let old : List Nat := match (d.tsend s).last with
        | some (w, h, fb, crcs) =>
          if w = p.width ∧ h = p.height ∧ fb = p.fmt.byte ∧ !(refresh ≠ 0 ∧ k % refresh = 0) then crcs else []
        | none => []
      let all := pos.zip xs
      let isNew (i : Nat) (x : Tile) : Bool := old.getD i (2 ^ 32) ≠ x.crc
      let tiles := all.zipIdx.filter (fun q => isNew q.2 q.1.2)
      let rest := all.zipIdx.filter (fun q => !isNew q.2 q.1.2)
      let d := tiles.foldl (fun d q => d.sendTile s n p q.1.1.1 q.1.1.2 q.1.2) d
      let d := (List.range ((rest.length + 511) / 512)).foldl (fun d g =>
        let es := (rest.drop (512 * g)).take 512
        (d.streamMsg s n tyStamps p.frame
          (leBytes 2 es.length ++ leBytes 2 0 ++ es.flatMap (fun q =>
            leBytes 2 q.1.1.1 ++ leBytes 2 q.1.1.2 ++ leBytes 4 q.1.2.crc ++ leBytes 8 q.1.2.stamp))).count
              F.SENDT_STAMPED (tsPage s) (s % 16) es.length) d
      let parts := tiles.foldl (fun m q => m + (if q.1.2.sectors ≤ 17 then 1 else 2)) 0
      let d := (d.streamMsg s n tyEnd p.frame
        (leBytes 4 (parts + rest.length) ++ leBytes 2 p.cols ++ leBytes 2 p.rows ++ leBytes 2 p.width
          ++ leBytes 2 p.height)).count F.SENDT_FRAMES (tsPage s) (s % 16)
      (d.setTsend s { d.tsend s with
        last := some (p.width, p.height, p.fmt.byte, xs.map (·.crc)), frames := k, waiting := none }).setReads (3000 + s) []

/-! Interfaces (R352, R353). -/

/-- Every lane of an interface can carry it (R352, R353): it passes data at the code of the mode, and its link training did not
fail (R92, R111). -/
def netCan (d : Dev) (i : Nat) : Bool :=
  !(d.netLanes i).isEmpty && d.enabled .nport (i / 4) && d.act F.NPORT_SP_CFG_EN (i / 4) (i % 4) = 1
    && (d.netLanes i).all (fun n => d.rxData (96 + n) && d.netCodeOk n && !(d.lane (96 + n)).training && !(d.lane (96 + n)).trainFailed)

/-- 100 ms have passed since the lanes of an interface that went down last recovered (R353; log entry 193). -/
def netSettled (d : Dev) (i : Nat) : Bool :=
  let b := sget (fun _ => 0) d.netBack i
  b = 0 || b - 1 + 100000000 ≤ d.house

/-- NETIF_UP (R353). -/
def netRise (d : Dev) (i : Nat) : Dev :=
  if d.linkBit i || !d.netCan i || !d.netSettled i then d
  else { (d.setLinkBit i 1).irq .nport (i / 4) 0 (4 + i % 4) with netBack := sset (fun _ => 0) d.netBack i 0 }

/-- The counters of the four sub-ports (R375). -/
def nportClear (d : Dev) (p : Nat) : Dev :=
  (List.range 4).foldl (fun d s => d.clear [F.NPORT_RX_FRAMES, F.NPORT_TX_FRAMES, F.NPORT_FCS_ERR, F.NPORT_TAG_FAIL,
    F.NPORT_STALE_MSG, F.NPORT_DUP, F.NPORT_NOT_FOR_US] p s) d

/-- The counters of the Tatre senders whose bit is set (R376). -/
def tatreClear (d : Dev) (page mask : Nat) : Dev :=
  ((List.range 16).filter (inMask mask)).foldl (fun d s =>
    d.clear [F.SENDT_TILES, F.SENDT_STAMPED, F.SENDT_FRAMES, F.SENDT_SKIPPED] page s) d

end Dev

/-- TATRE_TILE_RX (R360). -/
def execTatreTileRx (t : Nat) (rx : TileRx) (s : State) :=
  s.onCtx (fun d => (d.atTime t).tatreRx tyTile rx (fun d n p2 => d.tileIn n t p2 rx.msg))
/-- TATRE_STAMPS_RX (R362). -/
def execTatreStampsRx (t : Nat) (rx : TileRx) (s : State) :=
  s.onCtx (fun d => (d.atTime t).tatreRx tyStamps rx (fun d n p2 => d.stampsIn n t p2 rx.msg rx.errs))
/-- TATRE_END_OF_FRAME_RX (R363). -/
def execTatreEndOfFrameRx (t : Nat) (rx : TileRx) (s : State) :=
  s.onCtx (fun d => (d.atTime t).tatreRx tyEnd rx (fun d n p2 => d.endIn n t p2 rx.msg))
/-- STREAM_ALIVE_RX (R369). -/
def execStreamAliveRx (t : Nat) (rx : TileRx) (s : State) :=
  s.onCtx (fun d => (d.atTime t).tatreRx tyAlive rx (fun d n p2 => d.aliveIn n p2 rx.msg))
/-- TATRE_APPLY_TIMEOUT (R275). -/
def execTatreApplyTimeout (t : Nat) (ctx : Fin 256) (s : State) := s.onDev (fun d => (d.atTime t).applyTimeout ctx t)
/-- TATRE_SEND_FRAME (R364). -/
def execTatreSendFrame (t : Nat) (sender : Fin 256) (errs : List ReadError) (s : State) :=
  s.onDev (fun d => (d.atTime t).sendFrame sender errs)
/-- NETIF_DOWN (R353). -/
def execNetifDown (t : Nat) (i : Fin 16) (s : State) := s.onCtx (fun d => (d.atTime t).netDrop i)
/-- NETIF_UP (R353). -/
def execNetifUp (t : Nat) (i : Fin 16) (s : State) := s.onDev (fun d => (d.atTime t).netRise i)
/-- NPORT_CNT_CLEAR (R375). -/
def execNportCntClear (t : Nat) (port : Fin 4) (s : State) :=
  s.onDev (fun d => (d.atTime t).gate ⟨.nport, port, 0⟩ 0x100 (·.nportClear port))
/-- TATRE_SEND_CNT_CLEAR (R376). -/
def execTatreSendCntClear (t : Nat) (page : Fin 16) (senders : BitVec 16) (s : State) :=
  s.onDev (fun d => (d.atTime t).gate ⟨.sendT, 4 + page, 0⟩ 0x3F0 (·.tatreClear (4 + page) senders.toNat))

end Sys2Proof.Machine
end

