-- ==== Sys2Proof/Machine/Units.lean ====
section
/-! DEFINITION. What stops and what resumes when a unit is fenced and released (R451), and what a soft reset or a loss
of supply does inside it (R69, R431). -/
namespace Sys2Proof.Machine
namespace Dev

/-- R451: what a fence stops at the outside. -/
def unitStop (d : Dev) (b : Blk) (i : Nat) : Dev :=
  match b with
  | .mlane => (d.laneStop i).portsRefresh
  | .nlane => d.laneStop (96 + i)
  | .nport => (List.range 4).foldl (fun d s => d.netDrop (4 * i + s)) d
  | .ingest =>
    (((d.discardCur i drIncomplete).setCtxState i stIdle).noteCause i).updCtx i (fun c => { c with cur := none, fencedCause := true, dma := none })
  | .engine => d.engineStop i d.house
  | .head => (d.recEnded i).portsRefresh
  | .oport => d.portsRefresh
  | .witChain => { d with witResume := true, mg := { d.mg with genesis := true } }
  | .deal => d.elect
  | _ => d

/-- R451: what resumes when a unit is released or first enabled. -/
def unitStart (d : Dev) (b : Blk) (i : Nat) : Dev :=
  match b with
  | .mlane => (d.laneResume i).portsRefresh
  | .nlane =>
    (d.laneResume (96 + i)).laneTrain i
  | .ingest =>
    (if d.ctxKind i = 0 then d.setCtxState i stIdle else d.ctxSearch i).updCtx i (fun c =>
      { c with cur := none, confirmed := none, oddFrames := 0, oddPeriods := 0, lastStart := none, periods := [] })
  | .head =>
    let hs := d.headSt i
    let d := if hs.running then d.setHeadSt i { hs with virt := true, viewed := false, hold := 2 } else d
    (d.setRecHead i { d.recHead i with needKey := true }).portsRefresh
  | .oport => (d.portTrain i).portsRefresh
  | .sendT => (List.range 16).foldl (fun d k =>
      d.setTsend (16 * (i - 4) + k) { d.tsend (16 * (i - 4) + k) with last := none, frames := 0 }) d
  | .audio => { d with audio := { d.audio with realignAll := true } }
  | .recorder => d.recNeedKeys
  | .witChain => d.put F.MGMT_WCHAIN_STS_HALTED 0
  | .talon => d.talonServe
  | .deal => d.elect
  | _ => d

/-- Units that start only with the memory switch (R67), and that its fence fences (R453). -/
def memswUnits : List (Blk × Nat) :=
  (List.range 256).map (fun i => (Blk.ingest, i)) ++ (List.range 64).map (fun i => (Blk.engine, i))
    ++ (List.range 64).map (fun i => (Blk.head, i)) ++ (List.range 4).map (fun i => (Blk.sendV, i))
    ++ (List.range 16).map (fun i => (Blk.sendT, 4 + i))

/-- A unit whose fence has ended starts where it is enabled; with the memory switch its units start (R67). -/
def unitGo (d : Dev) (b : Blk) (i p : Nat) : Dev :=
  if !d.enabled b i p then d
  else if b = .memsw then memswUnits.foldl (fun d u => if d.enabled u.1 u.2 then d.unitStart u.1 u.2 else d) d
  else d.unitStart b i

/-- The internal state of a unit returns to reset (R69, R431). The safe-screen timing of a head goes on (R493), a
layer stays where it is placed, and the slab books stay whole. -/
def internalReset (d : Dev) (b : Blk) (i : Nat) : Dev :=
  match b with
  | .mlane => d.setLane i {}
  | .nlane => d.setLane (96 + i) {}
  | .ingest =>
    let d := (d.ctxLayers i).foldl (fun d l => if d.actFlag F.LAYER_ENG_CTL_ENG_EN l then d.engDrop l true else d) (d.noteCause i)
    d.updCtx i (fun c =>
      { fencedCause := c.fencedCause, peerCause := c.peerCause, protectedCause := c.protectedCause, causeAt := c.causeAt
        causeWas := c.causeWas })
  | .engine => { d with engSince := sset (fun _ => none) d.engSince i none, engBusyNs := sset (fun _ => 0) d.engBusyNs i 0 }
  | .layer =>
    ((d.engDrop i true).updLayer i (fun s =>
      { head := s.head, geom := s.geom, engCause := s.engCause, causeAt := s.causeAt, causeWas := s.causeWas, kept := s.kept, carryCut := s.carryCut
      })).setReads (1000 + i) []
  | .head => d.updHeadSt i (fun s => { s with lockRun := 0, dstar := 0, lipV := [], jump := none, stepped := false })
  | .oport => d.setPort i { d.port i with trained := false }
  | .sendT => (List.range 16).foldl (fun d k =>
      (d.setTsend (16 * (i - 4) + k) {}).setReads (3000 + 16 * (i - 4) + k) []) d
  | .audio => { d with audio := {} }
  | .recorder => d.recEmpty
  | .witness => d.updHeadSt i (fun s => { s with safeOk := false })
  | .witChain => { d with witChan := [], witResume := true, witHanded := d.witChained }
  | .memsw => { d with moved := [], pcErrs := [], hbmScrub := false, scrubAt := none, qos := [] }
  | _ => d

/-- Words of the pages of an instance between two offsets return to reset; KERNEL_VER of an engine goes on showing the kernel
set that is loaded (R206). -/
def wordsReset (d : Dev) (b : Blk) (i lo hi : Nat) : Dev :=
  let base := pageAddr b i 0
  { d with regs := d.regs.filter (fun q =>
      !(base ≤ q.1 && q.1 < base + blkStride b && lo ≤ q.1 % 0x1000 && q.1 % 0x1000 < hi
        && !(b = .engine && q.1 % 0x1000 = F.ENGINE_KERNEL_VER_VERSION.off))) }

/-- R69: the live region and the internal state of an instance; SINK of a port shows its hot-plug input (R266). -/
def unitReset (d : Dev) (b : Blk) (i : Nat) : Dev :=
  let d := (d.internalReset b i).wordsReset b i 0x40 0x400
  (if b = .oport then d.portSink i else d).portsRefresh

end Dev
end Sys2Proof.Machine
end

