-- ==== Sys2Proof/Machine/PowerCore.lean ====
section
/-! DEFINITION. Power domains (R430 to R439): their instances, votes, states, the entry into a low state, and the start
of a wake. -/
namespace Sys2Proof.Machine

/-- Units of a domain, in ascending order (R430). -/
def domUnits (x : Nat) : List (Blk × Nat) :=
  if x < 12 then (List.range 8).map (fun i => (Blk.mlane, 8 * x + i))
  else if x < 16 then (Blk.nport, x - 12) :: (List.range 4).map (fun i => (Blk.nlane, 4 * (x - 12) + i))
  else if x < 24 then (List.range 8).map (fun i => (Blk.engine, 8 * (x - 16) + i))
  else if x < 28 then (List.range 16).map (fun i => (Blk.head, 16 * (x - 24) + i))
  else if x = 32 then (List.range 256).map (fun i => (Blk.ingest, i))
  else if x = 33 then [(Blk.audio, 0)]
  else []

/-- The domain that holds an instance; the pages of other blocks are always on (R430). -/
def unitDom (b : Blk) (i : Nat) : Option Nat :=
  match b with
  | .mlane => some (i / 8)
  | .nport => some (12 + i)
  | .nlane => some (12 + i / 4)
  | .engine => some (16 + i / 8)
  | .head => some (24 + i / 16)
  | .ingest => some 32
  | .audio => some 33
  | _ => none

/-- Whether a domain is a stack of HBM. -/
def isStack (x : Nat) : Bool := 28 ≤ x && x < 32

/-- Steps of a wake from a state (R439). -/
def wakeSteps (stack : Bool) (left : Nat) : List Nat :=
  if left = 1 then [3, 7] else [1, 2, 3] ++ (if stack then [4] else []) ++ [5, 6, 7]

/-- Class of a domain in the wake table (R447). -/
def wakeClass (x : Nat) : Nat :=
  if x < 12 then 0 else if x < 16 then 1 else if x < 24 then 2 else if x < 28 then 3 else if x < 32 then 4 else 5

namespace Dev

def setDom (d : Dev) (x : Nat) (u : PowUnit) : Dev := { d with doms := sset (fun _ => {}) d.doms x u }
def unit (d : Dev) (b : Blk) (i : Nat) : PowUnit := sget (fun _ => {}) d.units (pageAddr b i 0)
def setUnit (d : Dev) (b : Blk) (i : Nat) (u : PowUnit) : Dev :=
  { d with units := sset (fun _ => {}) d.units (pageAddr b i 0) u }

/-- Bits of the header word POWER of an instance. -/
def putPower (d : Dev) (b : Blk) (i lo w v : Nat) : Dev := d.putAt (pageAddr b i 0 + 0x30) lo w v
def powerReq (d : Dev) (b : Blk) (i : Nat) : Nat := d.bitsAt (pageAddr b i 0 + 0x30) 0 2

/-- R432: STATE of an instance is the lower of its own and its domain's. -/
def showPower (d : Dev) (b : Blk) (i : Nat) : Dev :=
  d.putPower b i 4 2 (max (d.unit b i).state ((unitDom b i).elim 0 d.domState))

/-- R435: block votes of a domain. -/
def blockVotes (d : Dev) (x : Nat) : Nat :=
  let casts (b : Blk) (i : Nat) : Bool := d.en b i && d.powerReq b i = 0
  if isStack x then (if d.en .memsw 0 then 1 else 0)
  else if x = 32 then
    (List.range 16).foldl (fun n k => if (List.range 16).any (fun j => casts .ingest (16 * k + j)) then n + 2 ^ k else n) 0
  else ((domUnits x).zipIdx).foldl (fun n u => if casts u.1.1 u.1.2 then n + 2 ^ u.2 else n) 0

/-- DOM_VOTES (R434). -/
def votes (d : Dev) (x : Nat) : Nat :=
  d.blockVotes x + (d.dom x).fw * 2 ^ 16 + d.get F.POWER_DOM_CTL_HOST_VOTES 0 x * 2 ^ 24

/-- A change of a domain's STATE (R446). -/
def setDomState (d : Dev) (x v : Nat) : Dev :=
  if d.domState x = v then d
  else
    let d := ((d.put F.POWER_DOM_STS_STATE v 0 x).setDom x { d.dom x with state := v }).irq .power 0 0 3
    (domUnits x).foldl (fun d u => d.showPower u.1 u.2) d

/-- What an instance loses on leaving ON (R431): operation in RETAIN and OFF, the live region in OFF. -/
def unitLose (d : Dev) (b : Blk) (i state : Nat) : Dev :=
  if state = 2 then d.internalReset b i else if state = 3 then d.unitReset b i else d

/-- R436: when every instance has agreed, the domain completes its entry. -/
def tryEnter (d : Dev) (x : Nat) : Dev :=
  let u := d.dom x
  if u.phase = 1 && (domUnits x).all (fun q => u.agreed.contains (pageAddr q.1 q.2 0) || d.fenced q.1 q.2) then
    let d := d.setDom x { u with phase := 0, agreed := [] }
    let d := ((d.setDomState x u.target).put F.POWER_DOM_STS_BUSY 0 0 x).count F.POWER_ENTRIES
    (domUnits x).foldl (fun d q => d.unitLose q.1 q.2 u.target) d
  else d

/-- R437: an entry is refused, by an instance and for a reason; the domain stays ON. -/
def refuseEntry (d : Dev) (x : Nat) (b : Blk) (i reason : Nat) : Dev :=
  let d := d.setDom x { d.dom x with phase := 0, agreed := [] }
  let d := ((d.put F.POWER_DOM_STS_BUSY 0 0 x).put F.POWER_DOM_STS_REFUSED 1 0 x).put F.POWER_REFUSE_LOG_DOMAIN x
  let d := ((d.put F.POWER_REFUSE_LOG_INSTANCE i).put F.POWER_REFUSE_LOG_BLOCK (blkCode b)).put F.POWER_REFUSE_LOG_REASON reason
  ((d.put64 F.POWER_REFUSE_TIME_LO d.house).count F.POWER_REFUSALS).irq .power 0 0 2

/-- Why an instance refuses at once (R437): 2 a hand that waits for it, 3 a lane state under way. -/
def refusesNow (d : Dev) (b : Blk) (i : Nat) : Nat :=
  match b with
  | .head => if d.handReady && d.hand.heads.contains i then 2 else 0
  | .ingest => if d.handReady && d.hand.ctxs.contains i then 2 else 0
  | .mlane => if (d.lane i).rxTarget.isSome || (d.lane i).txTarget.isSome then 3 else 0
  | .nlane => if (d.lane (96 + i)).rxTarget.isSome || (d.lane (96 + i)).txTarget.isSome then 3 else 0
  | _ => 0

/-- R436: a domain without votes asks its instances to stop. -/
def domEnter (d : Dev) (x : Nat) : Dev :=
  let low := d.get F.POWER_DOM_CTL_LOW_STATE 0 x
  if low = 0 || x ≥ 35 || d.domState x ≠ 0 || (d.dom x).phase ≠ 0 || d.votes x ≠ 0 then d
  else
    let d := d.setDom x { d.dom x with phase := 1, target := low, asked := d.house, agreed := [] }
    let d := (d.put F.POWER_DOM_STS_BUSY 1 0 x).put F.POWER_DOM_STS_REFUSED 0 0 x
    match (domUnits x).find? (fun q => !d.fenced q.1 q.2 && d.refusesNow q.1 q.2 ≠ 0) with
    | some q => d.refuseEntry x q.1 q.2 (d.refusesNow q.1 q.2)
    | none => d.tryEnter x

/-- R439: a wake from a state begins with its first step. -/
def wakeFrom (d : Dev) (x left tries : Nat) : Dev :=
  let step := (wakeSteps (isStack x) left).headD 7
  let d := d.setDom x { d.dom x with phase := 2, left := left, step := step, start := d.house, tries := tries }
  ((d.put F.POWER_DOM_STS_BUSY 1 0 x).put F.POWER_DOM_STS_STEP step 0 x).put F.POWER_DOM_STS_TRIES (min tries 3) 0 x

/-- A wake of a domain; in management-only mode nothing wakes (R464). -/
def domWake (d : Dev) (x tries : Nat) : Dev :=
  if d.flag F.GLOBAL_STS_MGMT_ONLY then d else d.wakeFrom x (d.domState x) tries

/-- R434, R438: the votes of a domain have changed from `old`. -/
def voted (d : Dev) (x old : Nat) : Dev :=
  let v := d.votes x
  if v = old || x ≥ 35 then d
  else if v = 0 then d.domEnter x
  else if (d.dom x).phase = 1 then
    (d.setDom x { d.dom x with phase := 0, agreed := [] }).put F.POWER_DOM_STS_BUSY 0 0 x
  else if d.domState x ≠ 0 && (d.dom x).phase = 0 && !d.flag F.POWER_DOM_STS_FENCED 0 x then d.domWake x 0
  else d

/-- A firmware vote of a domain (bits 16 to 23 of its vote word, R435), as it is stored, and with what follows from it. -/
def fwVote (d : Dev) (x bit : Nat) (on : Bool) : Dev := d.setDom x { d.dom x with fw := putBits (d.dom x).fw bit 1 (if on then 1 else 0) }
def fwVoteNow (d : Dev) (x bit : Nat) (on : Bool) : Dev := (d.fwVote x bit on).voted x (d.votes x)

/-- Domains whose votes an instance casts (R435). -/
def votesOf (b : Blk) (i : Nat) : List Nat :=
  if b = .memsw then [28, 29, 30, 31] else (unitDom b i).toList

/-- A change of the device that may change votes of an instance. -/
def voting (d : Dev) (b : Blk) (i : Nat) (f : Dev → Dev) : Dev :=
  let old := (votesOf b i).map (fun x => (x, d.votes x))
  old.foldl (fun d q => d.voted q.1 q.2) (f d)

/-- A domain is up: ON, and neither waking nor waiting to try again. Where the data plane never started (R464), a domain
that was never woken is not up. -/
def domUp (d : Dev) (x : Nat) : Bool :=
  d.domState x = 0 && (d.dom x).phase ≤ 1 && ((d.dom x).tried || !d.flag F.GLOBAL_STS_MGMT_ONLY)

end Dev
end Sys2Proof.Machine
end

