-- ==== Sys2Proof/Machine/Fence.lean ====
section
/-! DEFINITION. Containment (R65 to R69, R448 to R454): fences and their causes, releases, enables, soft resets, and
the events that fence. -/
namespace Sys2Proof.Machine

/-- Cause codes (R65, R450). -/
def cHost : Nat := 0x01
def cLedger : Nat := 0x02
def cRebuild : Nat := 0x03
def cPower : Nat := 0x04
def cFirmware : Nat := 0x05
def cDisabled : Nat := 0x06
def cPll : Nat := 0x10
def cSynth : Nat := 0x11
def cKernel : Nat := 0x12
def cSram : Nat := 0x13
def cStall : Nat := 0x14
def cMemsw : Nat := 0x15

namespace Dev

/-- Firmware is RUNNING and healthy. -/
def fwUp (d : Dev) : Bool := d.flag F.GLOBAL_STS_FW_HEALTHY

/-- R448, R449: a cause is recorded for a unit, which is fenced by its first one. -/
def raiseOne (d : Dev) (b : Blk) (i p cause detail : Nat) : Dev :=
  let old := d.recs b i p
  if unfenceable b p || !validPage ⟨b, i, p⟩ || old.any (fun r => r.cause = cause ∧ r.detail = detail) then d
  else
    let d := d.setRecs b i p (old ++ [⟨cause, detail, false⟩])
    let a := fenceKey b i p
    let d := if !old.isEmpty then d
      else
        let d := d.putAt (a + 0x20) 16 16 (min (d.bitsAt (a + 0x20) 16 16 + 1) 65535)
        let d := { d.irqAll b i p 24 with draining := addOnce d.draining a }
        d.unitStop b i
    let d := if swCause cause then d else d.snapFault 1 b i
    (unitDom b i).elim d d.tryEnter

/-- A fence; that of the memory switch fences its dependents at the same edge (R453). -/
def fenceRaise (d : Dev) (b : Blk) (i p cause detail : Nat) : Dev :=
  let was := d.fenced b i p
  let d := d.raiseOne b i p cause detail
  if b = .memsw ∧ !was ∧ d.fenced b i p then memswUnits.foldl (fun d u => d.raiseOne u.1 u.2 0 cMemsw 0) d else d

/-! Releases. -/

/-- Whether a release request removes a cause (R449, R450). -/
def removable (d : Dev) (b : Blk) (i : Nat) (host met : Bool) (r : FenceRec) : Bool :=
  if r.cause = cLedger then (b ≠ .talon || (host && d.rebuilt))
  else if r.cause = cRebuild then host && d.rebuilt
  else if r.cause = cDisabled then false
  else if r.cause = cPower then host && r.detail ≠ 0 && (unitDom b i).elim true d.domUp
  else if r.cause = cFirmware then r.detail ≠ 1
  else if r.cause = cPll ∨ r.cause = cSynth then met
  else if r.cause = cKernel then met && d.fwUp
  else if r.cause = cStall then r.rstSince
  else if r.cause = cMemsw then !d.fenced .memsw 0
  else true

/-- R454: the last cause of a unit has been removed. -/
def fenceEnds (d : Dev) (b : Blk) (i p : Nat) : Dev :=
  let d := (d.setRelRefused b i p 0).irqAll b i p 25
  let d := if b = .talon then { d with rebuilt := false } else d
  d.unitGo b i p

/-- A cause goes without a request: the fence ends when no other remains (R449). -/
def dropCause (d : Dev) (b : Blk) (i p : Nat) (f : FenceRec → Bool) : Dev :=
  let old := d.recs b i p
  let keep := old.filter (fun r => !f r)
  if keep.length = old.length then d
  else
    let d := d.setRecs b i p keep
    if keep.isEmpty then d.fenceEnds b i p else d

/-- Instances fenced for the same failing books as a unit (R491). -/
def bookMates (b : Blk) (i : Nat) : List Nat :=
  match b with
  | .ingest => (List.range 256).filter (· ≠ i)
  | .engine => ((List.range 8).map (i / 8 * 8 + ·)).filter (· ≠ i)
  | .head => ((List.range 16).map (i / 16 * 16 + ·)).filter (· ≠ i)
  | .mlane => ((List.range 8).map (i / 8 * 8 + ·)).filter (· ≠ i)
  | _ => []

/-- No tag of a unit, nor of those that share its books, is outstanding (R448, R52). -/
def booksDrained (d : Dev) (b : Blk) (i : Nat) : Bool := (i :: bookMates b i).all (fun k => !d.draining.contains (fenceKey b k 0))

/-- R52: the pool or channel of a released unit starts anew, once its outstanding tags have completed. -/
def booksRenew (d : Dev) (b : Blk) (i detail : Nat) : Dev :=
  if d.booksDrained b i then d.booksAnew b i detail else { d with booksDue := d.booksDue ++ [(pageAddr b i 0, detail)] }

/-- Tags of a page have all returned (R448): pools and channels that waited for them start anew. -/
def tagsBack (d : Dev) (a : Nat) : Dev :=
  let d := { d with draining := d.draining.filter (· ≠ a) }
  d.booksDue.foldl (fun d q =>
    match decodePage q.1 with
    | some r => d.booksRenew r.blk r.inst q.2
    | none => d) { d with booksDue := [] }

/-- R449, R454: a release request: it stands when no cause remains, and then releases the others of the same books
(R491). Failing books whose cause it removes start anew (R52). -/
def releaseNow (d : Dev) (b : Blk) (i p : Nat) (host met : Bool) : Dev :=
  let old := d.recs b i p
  if old.isEmpty then d
  else
    let keep := old.filter (fun r => !d.removable b i host met r)
    let books := old.filter (fun r => r.cause = cLedger && d.removable b i host met r)
    let d := books.foldl (fun d r => d.booksRenew b i r.detail) (d.setRecs b i p keep)
    if keep.isEmpty then
      let d := d.fenceEnds b i p
      books.foldl (fun d r => (bookMates b i).foldl (fun d k =>
        d.dropCause b k 0 (fun q => q.cause = cLedger && q.detail = r.detail)) d) d
    else (d.setRelRefused b i p 1).irqAll b i p 30

/-- A release request. One that must wake its domain first is decided when the wake ends (R440); one by the host of a talon
whose rebuild failed retries the rebuild and is decided by it (R54). -/
def fenceRelease (d : Dev) (b : Blk) (i p : Nat) (host met : Bool) : Dev :=
  let waits := host && (d.recs b i p).any (fun r => r.cause = cPower && r.detail ≠ 0)
  match unitDom b i with
  | some x =>
    if waits && !d.domUp x then
      let d := d.setDom x { d.dom x with releases := addOnce (d.dom x).releases (pageAddr b i 0) }
      if (d.dom x).phase = 0 then d.domWake x 0 else d
    else d.releaseNow b i p host met
  | none =>
    if b = .talon && d.hasCause .talon 0 0 cRebuild && !d.rebuilt then (if host then { d with rebuildAsked := true } else d)
    else d.releaseNow b i p host met

/-! Enables (R66, R67). -/

/-- EN = 1 takes effect: the cause DISABLED goes, or an instance in the reset state starts. -/
def enableNow (d : Dev) (b : Blk) (i : Nat) : Dev :=
  if d.hasCause b i 0 cDisabled then d.dropCause b i 0 (fun r => r.cause = cDisabled)
  else if d.fenced b i then d else d.unitGo b i 0

/-- ENABLE (R66, R67, R435): it waits for the wake of a domain below ON. -/
def enable (d : Dev) (b : Blk) (i : Nat) : Dev :=
  if d.en b i then d
  else
    let d := d.voting b i (fun d => d.putAt (fenceKey b i 0 + 0x08) 0 1 1)
    match unitDom b i with
    | some x =>
      if d.domUp x then d.enableNow b i
      else d.setDom x { d.dom x with waits := addOnce (d.dom x).waits (pageAddr b i 0) }
    | none => d.enableNow b i

/-- DISABLE (R66). -/
def disable (d : Dev) (b : Blk) (i : Nat) : Dev :=
  if !d.en b i then d
  else
    let d := match unitDom b i with
      | some x => d.setDom x { d.dom x with waits := (d.dom x).waits.filter (· ≠ pageAddr b i 0) }
      | none => d
    d.voting b i (fun d => (d.putAt (fenceKey b i 0 + 0x08) 0 1 0).fenceRaise b i 0 cDisabled 0)

/-! Soft resets (R69). -/

/-- SOFT_RST. -/
def softReset (d : Dev) (r : PageRef) : Dev :=
  if enFixed r.blk then d
  else if d.fenced r.blk r.inst r.page || !d.en r.blk r.inst r.page then
    (d.unitReset r.blk r.inst).setRstBusy r.blk r.inst r.page 1
  else d.logErr 7 (pgAddr r + 8) true false (some r)

/-- SOFT_RST_DONE. -/
def softResetDone (d : Dev) (r : PageRef) : Dev :=
  if d.rstBusy r.blk r.inst r.page then
    (d.setRstBusy r.blk r.inst r.page 0).setRecs r.blk r.inst r.page
      ((d.recs r.blk r.inst r.page).map (fun q => { q with rstSince := true }))
  else d

/-- A write that a header word takes: BAR0 must be reachable (R71). -/
def headerGate (d : Dev) (r : PageRef) (f : Dev → Dev) : Dev := if d.reachable && validPage r then f d else d

/-- A host write of CTL.EN of a page (R66, R452). -/
def writeEn (d : Dev) (r : PageRef) (on : Bool) : Dev :=
  if enFixed r.blk then d else if on then d.enable r.blk r.inst else d.disable r.blk r.inst

/-- FENCE_REQ and FENCE_REL of a page (R65, R452). -/
def writeReq (d : Dev) (r : PageRef) : Dev := d.fenceRaise r.blk r.inst r.page cHost 0
def writeRel (d : Dev) (r : PageRef) (met : Bool) : Dev :=
  if unfenceable r.blk r.page then d else d.fenceRelease r.blk r.inst r.page true met

/-- FW_FENCE_CAUSE_WRITE (R65, R449): firmware fences, or releases. -/
def fwCause (d : Dev) (r : PageRef) (cause detail : Nat) (met : Bool) : Dev :=
  if !d.fwUp || unfenceable r.blk r.page || !validPage r then d
  else if cause = 0 then d.fenceRelease r.blk r.inst r.page false met
  else d.fenceRaise r.blk r.inst r.page cause detail

/-! Events that fence (R450). -/

/-- PLL_FAIL (R104, R240). -/
def pllFailed (d : Dev) (n : Nat) (port : Option (Fin 96)) : Dev :=
  match port with
  | some p => d.fenceRaise .oport p.val 0 cPll 0
  | none => d.fenceRaise (laneBlk n) (laneIdx n) 0 cPll 0

/-- STALL_DETECT. -/
def stalled (d : Dev) (r : PageRef) : Dev :=
  match r.blk with
  | .engine | .head | .ingest | .nport | .sendV | .sendT =>
    if d.enabled r.blk r.inst then d.fenceRaise r.blk r.inst 0 cStall 0 else d
  | _ => d

/-- SRAM_UE. -/
def sramError (d : Dev) (r : PageRef) (detail : Nat) : Dev :=
  match r.blk with
  | .engine | .head | .ingest | .oport => d.fenceRaise r.blk r.inst 0 cSram detail
  | _ => d

/-- CE_RATE: firmware fences, while it runs. -/
def ceRate (d : Dev) (r : PageRef) : Dev :=
  if d.fwUp && !enFixed r.blk then d.fenceRaise r.blk r.inst 0 cFirmware 2 else d

end Dev

end Sys2Proof.Machine
end

