-- ==== Sys2Proof/Machine/Power.lean ====
section
/-! DEFINITION. Power requests of instances and the wakes of domains (R430 to R447). -/
namespace Sys2Proof.Machine

/-- Hand-controlled words of an instance. -/
def instHandAddrs (b : Blk) (i : Nat) : List Nat :=
  (List.range (blkPages b)).flatMap (fun p =>
    ((pageWords b p).filter (fun r => isHandOff r.off)).flatMap (fun r => r.offs.map (pageAddr b i p + ·)))

namespace Dev

/-- POWER_DONE of an instance (R65). -/
def powerDone (d : Dev) (b : Blk) (i : Nat) : Dev := (d.putPower b i 8 1 0).irqAll b i 0 29

/-- R105: both halves of a lane go to L2, or to the states last requested. -/
def laneSleep (d : Dev) (n : Nat) : Dev := (d.lstateGo n false 2).lstateGo n true 2
def laneWake (d : Dev) (n : Nat) : Dev :=
  (d.lstateGo n false (d.lget F.MLANE_RX_LSTATE_REQ_REQ n)).lstateGo n true (d.lact F.MLANE_TX_CFG_TX_LSTATE n)

/-- The lane number of a lane page. -/
def laneOf (b : Blk) (i : Nat) : Option Nat :=
  match b with
  | .mlane => some i
  | .nlane => some (96 + i)
  | _ => none

/-- R442, R71: on a wake an instance copies its active copy into its hand region; after OFF both hold reset values. -/
def handWake (d : Dev) (b : Blk) (i left : Nat) : Dev :=
  if left = 3 then d.wordsReset b i 0x400 0xC00
  else if left = 2 then (instHandAddrs b i).foldl (fun d a => d.setWord a (d.word (a - 0x400))) d
  else d

/-- A wake of an instance begins (R433, R439). -/
def unitWake (d : Dev) (b : Blk) (i tries : Nat) : Dev :=
  let u := d.unit b i
  (d.setUnit b i { u with phase := 2, step := (wakeSteps false u.left).headD 7, start := d.house, tries := tries }).putPower b i 8 1 1

/-- R433: the instance has been isolated and enters the state requested; both halves of a lane have reached L2 (R105). -/
def unitEnter (d : Dev) (b : Blk) (i target : Nat) : Dev :=
  let u := d.unit b i
  let d := match laneOf b i with
    | some n => d.laneSettle n
    | none => d
  let d := d.setUnit b i { u with state := target, phase := 0, left := max u.left target }
  ((d.unitLose b i target).showPower b i).powerDone b i

/-- R433: the completion of a wake requested by POWER.REQ removes POWER with DETAIL 0. -/
def unitAwake (d : Dev) (b : Blk) (i : Nat) : Dev :=
  let u := d.unit b i
  let d := d.setUnit b i { u with state := 0, phase := 0, left := 0, tries := 0 }
  let d := ((d.handWake b i u.left).putPower b i 9 2 0).showPower b i
  let d := match laneOf b i with
    | some n => d.laneWake n
    | none => d
  (d.dropCause b i 0 (fun r => r.cause = cPower && r.detail = 0)).powerDone b i

/-- R433: a request takes effect. -/
def unitRequest (d : Dev) (b : Blk) (i req : Nat) : Dev :=
  let u := d.unit b i
  let x := (unitDom b i).getD 35
  let busy := u.phase ≠ 0 || (d.dom x).phase ≠ 0 || (req = 0 && d.domState x ≠ 0)
  if busy then d.setUnit b i { u with next := some req }
  else if req = 0 then (if u.state = 0 then d.unitAwake b i else d.unitWake b i 0)
  else
    let d := (d.putPower b i 9 1 0).fenceRaise b i 0 cPower 0
    let d := match laneOf b i with
      | some n => d.laneSleep n
      | none => d
    let u := d.unit b i
    if u.state ≠ 0 || d.domState x ≠ 0 then d.unitEnter b i req
    else (d.setUnit b i { u with phase := 1, target := req, asked := d.house }).putPower b i 8 1 1

/-- Requests that waited for the end of a transition (R433). -/
def settle (d : Dev) : Dev :=
  (d.units.filter (fun q => q.2.next.isSome)).foldl (fun d q =>
    match decodePage q.1 with
    | some r =>
      let u := d.unit r.blk r.inst
      let x := (unitDom r.blk r.inst).getD 35
      match u.next with
      | some req =>
        if u.phase ≠ 0 || (d.dom x).phase ≠ 0 || (req = 0 && d.domState x ≠ 0) then d
        else (d.setUnit r.blk r.inst { u with next := none }).unitRequest r.blk r.inst req
      | none => d
    | none => d) d

/-- POWER_REQUEST (R433); the pages of R430 that are always on discard it. -/
def powerRequest (d : Dev) (r : PageRef) (req : Nat) : Dev :=
  if (unitDom r.blk r.inst).isNone then d
  else d.voting r.blk r.inst (fun d => (d.putPower r.blk r.inst 0 2 req).unitRequest r.blk r.inst req)

/-! Domains. -/

/-- MGMT_ONLY is set (R464, R84, R463). -/
def mgmtOnly (d : Dev) : Dev :=
  if d.flag F.GLOBAL_STS_MGMT_ONLY then d
  else { (d.put F.GLOBAL_STS_MGMT_ONLY 1).irq .global 0 0 2 with cfgReady := true }

/-- R439: a stack that leaves OFF has undefined content (free values), and its metadata entries are not VALID. -/
def stackLost (d : Dev) (k : Nat) : Dev :=
  let mine (a : Nat) : Bool := pcOf a / 32 = k
  let d := d.tiles.foldl (fun d q =>
    let s := q.1 / 512
    let n := q.1 % 512
    let x := d.tile q.1
    let x := if mine (metaAddr s n) then { x with valid := false } else x
    if (List.range x.fmt.sectors).any (fun i => mine (slotAddr s n x.fmt.sectors + 512 * i)) then
      { d.setTile q.1 { x with data := (List.range x.data.length).map (fun i => Config.freeValue (d.draws + i) % 2 ^ x.fmt.bits) } with
        draws := d.draws + x.data.length }
    else d.setTile q.1 x) d
  d.bytes.foldl (fun d q =>
    if mine q.1 then
      let (v, d) := d.draw
      { d with bytes := memSet d.bytes q.1 (BitVec.ofNat 8 v) }
    else d) d

/-- HBM_TRAINED: all four stacks have trained. -/
def stacksTrained (d : Dev) : Dev :=
  if (List.range 4).all (fun k => (d.dom (28 + k)).tried && d.domUp (28 + k)) then d.put F.GLOBAL_STS_HBM_TRAINED 1 else d

/-- The wake of a domain completes (R435, R438 to R442). -/
def domAwake (d : Dev) (x : Nat) : Dev :=
  let u := d.dom x
  let d := d.setDom x { u with phase := 0, tries := 0, tried := true, waits := [], releases := [] }
  let d := d.putAt (F.POWER_DOM_STS_STATE.addr 0 x 0) 2 8 0
  let d := d.setDomState x 0
  let d := if isStack x then (if u.left = 3 then d.stackLost (x - 28) else d).stacksTrained else d
  let d := (domUnits x).foldl (fun d q =>
    let d := (d.putPower q.1 q.2 10 1 0).showPower q.1 q.2
    let d := if u.tried then d.handWake q.1 q.2 u.left else d
    if u.left ≥ 2 && (d.unit q.1 q.2).state = 0 then d.unitGo q.1 q.2 0 else d) d
  let d := u.waits.foldl (fun d a =>
    match decodePage a with
    | some r => (d.enableNow r.blk r.inst).irqAll r.blk r.inst 0 29
    | none => d) d
  let d := u.releases.foldl (fun d a =>
    match decodePage a with
    | some r => d.releaseNow r.blk r.inst 0 true false
    | none => d) d
  if d.votes x = 0 then d.domEnter x else d

/-- DELAY and TIMEOUT of a step for a domain's class, in ns (R447). -/
def stepDelay (d : Dev) (x s : Nat) : Nat := d.get F.POWER_WAKE_STEP_DELAY_US 0 (8 * wakeClass x + s - 1) * 1000
def stepLimit (d : Dev) (x s : Nat) : Nat := d.get F.POWER_WAKE_STEP_TIMEOUT 0 (8 * wakeClass x + s - 1) * 10000

/-- The step after `s` in the list of a wake. -/
def stepAfter (l : List Nat) (s : Nat) : Option Nat := (l.dropWhile (· ≠ s)).drop 1 |>.head?

/-- A step may end now: its delay has passed, and the CLOCK step has the time base (R439, R441). -/
def stepMay (d : Dev) (x : Nat) (u : PowUnit) : Bool :=
  u.phase = 2 && u.start + d.stepDelay x u.step ≤ d.house && (u.step ≠ 3 || d.flag F.TIME_STS_XO_OK)

/-- WAKE_STEP_END of a domain. -/
def domStepEnd (d : Dev) (x : Nat) : Dev :=
  let u := d.dom x
  if !d.stepMay x u then d
  else
    match stepAfter (wakeSteps (isStack x) u.left) u.step with
    | some s => (d.setDom x { u with step := s, start := d.house }).put F.POWER_DOM_STS_STEP s 0 x
    | none => d.domAwake x

/-- WAKE_STEP_END of an instance. -/
def unitStepEnd (d : Dev) (b : Blk) (i : Nat) : Dev :=
  let u := d.unit b i
  if !d.stepMay ((unitDom b i).getD 35) u then d
  else
    match stepAfter (wakeSteps false u.left) u.step with
    | some s => d.setUnit b i { u with step := s, start := d.house }
    | none => d.unitAwake b i

/-- A failed try is recorded (R440, R455). -/
def wakeFault (d : Dev) (b : Blk) (i : Nat) : Dev :=
  ((d.count F.POWER_WAKE_FAULTS).irq .power 0 0 0).snapFault 7 b i

/-- The last try of a domain has failed (R440, R464). -/
def domFailed (d : Dev) (x step : Nat) : Dev :=
  let u := d.dom x
  let d := d.setDom x { u with phase := 0, tries := 0, releases := [] }
  let d := ((d.put F.POWER_DOM_STS_FENCED 1 0 x).put F.POWER_DOM_STS_BUSY 0 0 x).irq .power 0 0 1
  let d := (domUnits x).foldl (fun d q => d.fenceRaise q.1 q.2 0 cPower step) d
  let d := u.releases.foldl (fun d a =>
    match decodePage a with
    | some r => (d.setRelRefused r.blk r.inst 0 1).irqAll r.blk r.inst 0 30
    | none => d) d
  if !isStack x then d
  else
    let d := (List.range 32).foldl (fun d k => d.pcFence (32 * (x - 28) + k)) d
    if (List.range 4).all (fun k => d.flag F.POWER_DOM_STS_FENCED 0 (28 + k)) then d.mgmtOnly else d

/-- A step that may fail now (R439). -/
def stepLate (d : Dev) (x : Nat) (u : PowUnit) : Bool :=
  u.phase = 2 && d.stepLimit x u.step ≠ 0 && u.start + d.stepLimit x u.step ≤ d.house

/-- WAKE_STEP_TIMEOUT of a domain (R440). -/
def domStepTimeout (d : Dev) (x : Nat) : Dev :=
  let u := d.dom x
  if !d.stepLate x u then d
  else
    let was := d.domState x
    let n := u.tries + 1
    let d := d.setDomState x 3
    let d := if was = 3 then d else (domUnits x).foldl (fun d q => d.unitLose q.1 q.2 3) d
    let d := (d.put F.POWER_DOM_STS_WAKE_FAULT 1 0 x).put F.POWER_DOM_STS_TRIES (min n 3) 0 x
    let d := (domUnits x).foldl (fun d q => d.putPower q.1 q.2 10 1 1) d
    let d := d.setDom x { d.dom x with phase := 3, start := d.house, tries := n, tried := true }
    let d := d.wakeFault .power 0
    if n > d.get F.POWER_DOM_CTL_RETRIES 0 x then d.domFailed x u.step else d

/-- WAKE_STEP_TIMEOUT of an instance: as of its domain (R440). -/
def unitStepTimeout (d : Dev) (b : Blk) (i : Nat) : Dev :=
  let u := d.unit b i
  let x := (unitDom b i).getD 35
  if !d.stepLate x u then d
  else
    let n := u.tries + 1
    let d := d.setUnit b i { u with state := 3, left := 3, phase := 3, start := d.house, tries := n }
    let d := ((d.unitLose b i 3).showPower b i).putPower b i 10 1 1
    let d := d.wakeFault .power 0
    if n > d.get F.POWER_DOM_CTL_RETRIES 0 x then
      let d := d.setUnit b i { d.unit b i with phase := 0, tries := 0 }
      ((d.fenceRaise b i 0 cPower u.step).irq .power 0 0 1).powerDone b i
    else d

/-- WAKE_RETRY: 10 ms after a failed try (R440). -/
def retryDue (d : Dev) (u : PowUnit) : Bool := u.phase = 3 && u.start + 10000000 ≤ d.house
def domRetry (d : Dev) (x : Nat) : Dev := if d.retryDue (d.dom x) then d.domWake x (d.dom x).tries else d
def unitRetry (d : Dev) (b : Blk) (i : Nat) : Dev :=
  if d.retryDue (d.unit b i) then d.unitWake b i (d.unit b i).tries else d

/-- INSTANCE_AGREE (R433, R436). -/
def agree (d : Dev) (r : PageRef) : Dev :=
  match unitDom r.blk r.inst with
  | none => d
  | some x =>
    let u := d.unit r.blk r.inst
    let a := pageAddr r.blk r.inst 0
    let d := d.tagsBack a
    if u.phase = 1 then d.unitEnter r.blk r.inst u.target
    else if (d.dom x).phase = 1 then
      (d.setDom x { d.dom x with agreed := addOnce (d.dom x).agreed a }).tryEnter x
    else d

/-- AGREE_TIMEOUT (R433, R437). -/
def agreeLate (d : Dev) (w : PowTarget) : Dev :=
  let limit := d.get F.POWER_AGREE_AGREE_US * 1000
  match w with
  | .domain x =>
    let u := d.dom x
    if u.phase = 1 && u.asked + limit ≤ d.house then
      match (domUnits x).find? (fun q => !(u.agreed.contains (pageAddr q.1 q.2 0) || d.fenced q.1 q.2)) with
      | some q => d.refuseEntry x q.1 q.2 1
      | none => d
    else d
  | .unit r =>
    let u := d.unit r.blk r.inst
    if u.phase = 1 && u.asked + limit ≤ d.house then
      ((d.setUnit r.blk r.inst { u with phase := 0 }).putPower r.blk r.inst 9 1 1).powerDone r.blk r.inst
    else d

/-- BIAS_UPDATE (R443). -/
def biasUpdate (d : Dev) : Dev :=
  if !d.fwUp then d
  else
    let tj := sgn 9 (d.get F.POWER_TEMP_TJ_MAX)
    let want := (min 150 (max 0 (((20 - tj) * 15) / 4))).toNat
    let now := d.get F.POWER_BIAS_STS_FBB_MV
    d.put F.POWER_BIAS_STS_FBB_MV (if want ≥ now then min want (now + 25) else max want (now - 25))

/-- AVS_UPDATE (R444): a target outside 700 to 850 mV in steps of 5 mV is never sent. -/
def avsUpdate (d : Dev) (target rd : Nat) (ack : Bool) : Dev :=
  if !d.fwUp || target < 700 || target > 850 || target % 5 ≠ 0 then d
  else
    let d := d.put F.POWER_AVS_STS_READ_MV rd
    if ack then (d.put F.POWER_AVS_STS_TARGET_MV target).put F.POWER_AVS_STS_FAULT 0
    else (d.put F.POWER_AVS_STS_FAULT 1).irq .power 0 1 0

/-- TEMP_REPORT (R445). -/
def tempReport (d : Dev) (hi lo : Int) : Dev :=
  let warn := sgn 9 (d.get F.POWER_THERM_CTL_WARN_C)
  let was := sgn 9 (d.get F.POWER_TEMP_TJ_MAX)
  let d := (d.put F.POWER_TEMP_TJ_MAX (unsgn 9 hi)).put F.POWER_TEMP_TJ_MIN (unsgn 9 lo)
  if was < warn ∧ warn ≤ hi then d.irq .power 0 1 1 else d

/-- HOST_VOTES of a domain (R434). -/
def hostVotes (d : Dev) (x v : Nat) : Dev :=
  let old := d.votes x
  (d.put F.POWER_DOM_CTL_HOST_VOTES v 0 x).voted x old

def powerPage (p : Nat) : PageRef := ⟨.power, 0, p⟩

end Dev

/-- A meaning after which hands and power requests that waited may take effect. -/
def State.onPow (s : State) (f : Dev → Dev) : Host.Outcome State Fault Refusal := s.onCtx (fun d => (f d).settle)

/-- POWER_REQUEST (R433). -/
def execPowerRequest (t : Nat) (r : PageRef) (req : BitVec 2) (s : State) :=
  s.onPow (fun d => (d.atTime t).headerGate r (·.powerRequest r req.toNat))
/-- HOST_VOTES_WRITE (R434). -/
def execHostVotesWrite (t : Nat) (x : Fin 36) (v : BitVec 8) (s : State) :=
  s.onPow (fun d => (d.atTime t).gate (Dev.powerPage 0) (0x40 + 4 * x) (·.hostVotes x v.toNat))
/-- DOMAIN_ENTER_WRITE (R437). -/
def execDomainEnterWrite (t : Nat) (x : Fin 36) (s : State) :=
  s.onPow (fun d => (d.atTime t).gate (Dev.powerPage 0) (0x40 + 4 * x) (·.domEnter x))
/-- INSTANCE_AGREE (R436). -/
def execInstanceAgree (t : Nat) (r : PageRef) (s : State) := s.onPow (fun d => (d.atTime t).agree r)
/-- AGREE_TIMEOUT (R437). -/
def execAgreeTimeout (t : Nat) (w : PowTarget) (s : State) := s.onPow (fun d => (d.atTime t).agreeLate w)
/-- WAKE_STEP_END (R439). -/
def execWakeStepEnd (t : Nat) (w : PowTarget) (s : State) :=
  s.onPow (fun d =>
    match w with
    | .domain x => (d.atTime t).domStepEnd x
    | .unit r => (d.atTime t).unitStepEnd r.blk r.inst)
/-- WAKE_STEP_TIMEOUT (R440). -/
def execWakeStepTimeout (t : Nat) (w : PowTarget) (s : State) :=
  s.onPow (fun d =>
    match w with
    | .domain x => (d.atTime t).domStepTimeout x
    | .unit r => (d.atTime t).unitStepTimeout r.blk r.inst)
/-- WAKE_RETRY (R440). -/
def execWakeRetry (t : Nat) (w : PowTarget) (s : State) :=
  s.onPow (fun d =>
    match w with
    | .domain x => (d.atTime t).domRetry x
    | .unit r => (d.atTime t).unitRetry r.blk r.inst)
/-- POWER_CNT_CLEAR (R446). -/
def execPowerCntClear (t : Nat) (s : State) :=
  s.onDev (fun d => (d.atTime t).gate (Dev.powerPage 0) 0x318 (·.clear [F.POWER_REFUSALS, F.POWER_WAKE_FAULTS, F.POWER_ENTRIES]))
/-- BIAS_UPDATE (R443). -/
def execBiasUpdate (t : Nat) (s : State) := s.onDev (fun d => (d.atTime t).biasUpdate)
/-- AVS_UPDATE (R444). -/
def execAvsUpdate (t : Nat) (target rd : BitVec 12) (ack : Bool) (s : State) :=
  s.onDev (fun d => (d.atTime t).avsUpdate target.toNat rd.toNat ack)
/-- TEMP_REPORT (R445). -/
def execTempReport (t : Nat) (hi lo : Int) (s : State) := s.onDev (fun d => (d.atTime t).tempReport hi lo)

end Sys2Proof.Machine
end

