-- ==== Sys2Proof/Machine/Chain.lean ====
section
/-! DEFINITION. The witness chain: handover, chaining and genesis, signing, and the reading of signed entries (R310 to
R321). -/
namespace Sys2Proof.Machine

/-- DEV_ID (R395). -/
def devId : List Byte := shake256 ((List.range 1952).map (fun i => BitVec.ofNat 8 (Config.identityKey i))) 32

/-- The genesis input (R312). -/
def genesisInput (chain time prev first : Nat) (prevC : List Byte) : List Byte :=
  leBytes 4 0x31475751 ++ leBytes 4 0 ++ leBytes 8 chain ++ leBytes 8 time ++ leBytes 8 prev ++ leBytes 8 first ++ devId
    ++ prevC.take 64 ++ List.replicate (64 - prevC.length) 0

namespace Dev

/-- `n` free bytes, and the device with the draws counted. -/
def drawBytes (d : Dev) (n : Nat) : List Byte × Dev :=
  ((List.range n).map (fun i => BitVec.ofNat 8 (Config.freeValue (d.draws + i))), { d with draws := d.draws + n })

/-- Internal debug is unlocked (R402). -/
def debugOpen (d : Dev) : Bool := d.flag F.DEBUG_DBG_STS_OPEN

/-- WITNESS_HANDOVER (R310): the next record, or the oldest still in the ring. Records lost with a slab of the ring (R492), or
unreadable on a fenced pseudo-channel or where scrubbing found a burst bad (R162, R163; DESIGN CHOICE, log entry 235), are
passed over. -/
def handover (d : Dev) : Dev :=
  let next := d.get64 F.WITCHAIN_NEXT_COUNTER_LO 64
  let c := d.get64 F.WITCHAIN_HANDED_LO 64 + 1
  if !d.witRuns || d.witStalled || c ≥ next then d
  else
    let gone (k : Nat) : Bool := d.witLost.contains k || (d.witAddr k).elim true (fun a =>
      d.pcFenced (pcOf a) || d.scrubBad.any (fun b => b + 32 > a && b < a + 128))
    let old := max c d.witOldest
    let from_ := old + ((List.range (next - old)).takeWhile (fun i => gone (old + i))).length
    let d : Dev := { d with witLost := d.witLost.filter (from_ ≤ ·) }
    let d := if from_ = c then d else (d.put64 F.WITCHAIN_HANDED_LO (from_ - 1) 64).witSkip (from_ - c)
    if from_ ≥ next then d
    else
      match d.witAddr from_ with
      | some a => d.witHand from_ (memRead d.bytes a 128)
      | none => d

/-- The message that is signed (R315). -/
def signMessage (d : Dev) (kind chain counter time : Nat) (c : List Byte) : List Byte :=
  leBytes 4 0x31535751 ++ leBytes 1 kind ++ leBytes 1 (d.act F.DEAL_SEAT_CFG_TABLE) ++ leBytes 1 (d.act F.DEAL_SEAT_CFG_SEAT)
    ++ leBytes 1 0 ++ leBytes 8 chain ++ leBytes 8 counter ++ leBytes 8 time ++ devId ++ c

/-- An entry is due (R314, R317). -/
def signDue (d : Dev) (time chain counter : Nat) (c : List Byte) (gen : Option (List Byte)) : Dev :=
  let kind := if d.debugOpen then 3 else if gen.isSome then 2 else 1
  let input := if d.debugOpen then List.replicate 136 0 else gen.getD (List.replicate 136 0)
  let e : SignDue :=
    { body := d.signMessage kind chain counter time c ++ input ++ List.replicate 8 0
      signed := !d.debugOpen, genesis := gen.isSome, chain := chain, counter := counter, value := c }
  { d with mg := { d.mg with due := d.mg.due ++ [e] } }

/-- SIGN_PERIOD in force at an instant, in ms (R314): a change takes effect at the next whole multiple of the new period
(R321). -/
def signMs (d : Dev) (t : Nat) : Nat :=
  match d.mg.signWas with
  | some (old, at_) => if t < at_ then old else d.get F.MGMT_WSIGN_PERIOD_MS
  | none => d.get F.MGMT_WSIGN_PERIOD_MS

/-- A write of WSIGN_PERIOD (R321). -/
def signPeriodSet (d : Dev) (ms : Nat) : Dev :=
  let p := ms * 1000000
  { d.put F.MGMT_WSIGN_PERIOD_MS ms with mg := { d.mg with signWas := some (d.signMs d.house, (d.house + p - 1) / p * p) } }

/-- SIGN_PERIOD (R314). While the chain is fenced, signing stops (R52). -/
def signPeriod (d : Dev) (t : Nat) : Dev :=
  if d.fwUp && !d.fenced .witChain 64 && !d.mg.chainC.isEmpty && t % (d.signMs t * 1000000) = 0 then
    d.signDue t (d.get64 F.MGMT_WCHAIN_NO_LO) (d.get64 F.MGMT_WCHAIN_CNT_LO) d.mg.chainC none
  else d

/-- A signed entry becomes available (R316): the signature is a free value. -/
def entryReady (d : Dev) (e : SignDue) : Dev :=
  let (sig, d) := if e.signed then d.drawBytes 3309 else (List.replicate 3309 0, d)
  let n := (d.get F.MGMT_WSIG_LAST + 1) % 2 ^ 32
  let d := { d with mg := { d.mg with
    due := d.mg.due.drop 1
    entries := (d.mg.entries ++ [(n, e.body ++ sig ++ List.replicate 3 0)]).drop (d.mg.entries.length - 63) } }
  (d.put F.MGMT_WSIG_LAST n).irq .mgmt 0 1 8

/-- The selected entry is held; it has been and is no longer (R321). -/
def sigEntry (d : Dev) : Option (List Byte) := (d.mg.entries.find? (fun e => e.1 = d.get F.MGMT_WSIG_SEL)).map (·.2)
def sigGone (d : Dev) : Bool :=
  d.sigEntry.isNone && d.get F.MGMT_WSIG_SEL ≠ 0 && d.get F.MGMT_WSIG_SEL ≤ d.get F.MGMT_WSIG_LAST

/-- The next word of the selected entry; outside an entry that is held it is a free value. -/
def sigWord (d : Dev) : Word :=
  match d.sigEntry with
  | some e =>
    if d.mg.wordIdx < 896 then BitVec.ofNat 32 (leVal ((e.drop (4 * d.mg.wordIdx)).take 4))
    else BitVec.ofNat 32 (Config.freeValue d.draws)
  | none => BitVec.ofNat 32 (Config.freeValue d.draws)

/-- WSIG_SELECT (R321). -/
def sigSelect (d : Dev) (n : Nat) : Dev := { d.put F.MGMT_WSIG_SEL n with mg := { d.mg with wordIdx := 0 } }

/-- WSIG_DATA_READ (R321). -/
def sigRead (d : Dev) : Dev :=
  { d with
    resp := some (.data d.sigWord)
    draws := if d.sigEntry.isSome && d.mg.wordIdx < 896 then d.draws else d.draws + 1
    mg := { d.mg with wordIdx := d.mg.wordIdx + 1 } }

def mgmtPage (p : Nat) : PageRef := ⟨.mgmt, 0, p⟩

end Dev

/-- WITNESS_CHAIN_RECORD (R311, R312): the record at the head of the channel is chained, under a genesis where a chain
begins, and its credit returns. -/
def State.chainRecord (s : State) : State :=
  let d := s.dev
  match d.witChan with
  | [] => s
  | (c, rcd, resume) :: rest =>
    if !d.fwUp || d.flag F.MGMT_WCHAIN_STS_HALTED || d.fenced .witChain 64 then s
    else
      let start := d.mg.genesis || resume || d.mg.chainC.isEmpty
      let last := d.get64 F.MGMT_WCHAIN_CNT_LO
      if !start && c ≠ last + 1 then { s with dev := d.chainHalt }
      else
        let s := { s with dev := ({ d with witChan := rest, witChained := d.witChained + 1 } : Dev).witStall }
        let s :=
          if !start then s
          else
            let nv := s.nv.increment 0
            let no := (nv.count 0).getD 0
            let prev := if d.mg.chainC.isEmpty then s.nv.chain.map (·.2) else some (last, d.mg.chainC)
            let input := genesisInput no d.house (prev.elim 0 (·.1)) c (prev.elim [] (·.2))
            let g := shake256 input 64
            let d := ({ s.dev with mg := { s.dev.mg with genesis := false, chainC := g } } : Dev).put64 F.MGMT_WCHAIN_NO_LO no
            { s with nv := nv, dev := (d.put F.MGMT_WCHAIN_STS_ACTIVE 1).signDue d.house no (c - 1) g (some input) }
        let d := s.dev
        { s with dev := ({ d with mg := { d.mg with chainC := shake256 (d.mg.chainC ++ rcd) 64 } } : Dev).put64 F.MGMT_WCHAIN_CNT_LO c }

/-- SIGNED_ENTRY_READY (R314, R316): the oldest due entry; firmware records what it signed. -/
def State.signedReady (s : State) : State :=
  match s.dev.mg.due with
  | [] => s
  | e :: _ =>
    if !s.dev.fwUp then s
    else
      { s with
        dev := s.dev.entryReady e
        nv := if e.signed then { s.nv with chain := some (e.chain, e.counter, e.value) } else s.nv }

/-- A meaning that changes what survives a reset too; nothing reaches the device in reset (R458). -/
def State.onAll (s : State) (f : State → State) : Host.Outcome State Fault Refusal :=
  .next (if s.dev.inReset then s
    else { f s with dev := { (f s).dev with inReset := false }, pending := s.pending })

/-- House time reached, in a whole state. -/
def State.atTime (s : State) (t : Nat) : State := { s with dev := s.dev.atTime t }

/-- WITNESS_HANDOVER (R310). -/
def execWitnessHandover (t : Nat) (s : State) := s.onDev (fun d => (d.atTime t).handover)
/-- WITNESS_CHAIN_RECORD (R311). -/
def execWitnessChainRecord (t : Nat) (s : State) := s.onAll (fun s => (s.atTime t).chainRecord)
/-- SIGN_PERIOD (R314). -/
def execSignPeriod (t : Nat) (s : State) := s.onDev (fun d => (d.atTime t).signPeriod t)
/-- SIGNED_ENTRY_READY (R316). -/
def execSignedEntryReady (t : Nat) (s : State) := s.onAll (fun s => (s.atTime t).signedReady)
/-- WSIG_SELECT (R321). -/
def execWsigSelect (t : Nat) (seq : Word) (s : State) :=
  s.onDev (fun d => (d.atTime t).gate (Dev.mgmtPage 1) 0x31C (·.sigSelect seq.toNat))
/-- WSIG_DATA_READ (R321). -/
def execWsigDataRead (t : Nat) (s : State) := s.onDev (fun d => (d.atTime t).gate (Dev.mgmtPage 1) 0x320 (·.sigRead))
/-- WITNESS_CNT_CLEAR (R318). -/
def execWitnessCntClear (t : Nat) (h : Fin 64) (s : State) :=
  s.onDev (fun d => (d.atTime t).gate ⟨.witness, h, 0⟩ 0x184 (fun d =>
    (forN 16 d (fun d w => d.clear [F.WITNESS_WIN_MISMATCHES, F.WITNESS_WIN_SKIPS] h w)).clear [F.WITNESS_RECORDS] h))
/-- CHAIN_CNT_CLEAR (R319). -/
def execChainCntClear (s : State) :=
  s.onDev (fun d => d.gate ⟨.witChain, 64, 0⟩ 0x74
    (·.clear [F.WITCHAIN_SKIPPED, F.WITCHAIN_STREAM_SENT, F.WITCHAIN_STREAM_DROPPED] 64))

end Sys2Proof.Machine
end

