-- ==== Sys2Proof/Machine/FenceRows.lean ====
section
/-! DEFINITION. The commands of containment (R65 to R69, R448 to R454). -/
namespace Sys2Proof.Machine

/-- ENABLE (R66). -/
def execEnable (t : Nat) (r : PageRef) (s : State) := s.onPow (fun d => (d.atTime t).headerGate r (·.writeEn r true))
/-- DISABLE (R66). -/
def execDisable (t : Nat) (r : PageRef) (s : State) := s.onPow (fun d => (d.atTime t).headerGate r (·.writeEn r false))
/-- FENCE_REQ (R65). -/
def execFenceReq (t : Nat) (r : PageRef) (s : State) := s.onPow (fun d => (d.atTime t).headerGate r (·.writeReq r))
/-- FENCE_REL (R454). -/
def execFenceRel (t : Nat) (r : PageRef) (met : Bool) (s : State) :=
  s.onPow (fun d => (d.atTime t).headerGate r (·.writeRel r met))
/-- FW_FENCE_CAUSE_WRITE (R65). -/
def execFwFenceCauseWrite (t : Nat) (r : PageRef) (cause detail : Byte) (met : Bool) (s : State) :=
  s.onPow (fun d => (d.atTime t).fwCause r cause.toNat detail.toNat met)
/-- FENCE_DRAIN_DONE (R448). -/
def execFenceDrainDone (t : Nat) (r : PageRef) (s : State) :=
  s.onPow (fun d => (d.atTime t).tagsBack (Dev.fenceKey r.blk r.inst r.page))
/-- SOFT_RST (R69). -/
def execSoftRst (t : Nat) (r : PageRef) (s : State) := s.onPow (fun d => (d.atTime t).headerGate r (·.softReset r))
/-- SOFT_RST_DONE (R69). -/
def execSoftRstDone (t : Nat) (r : PageRef) (s : State) := s.onPow (fun d => (d.atTime t).softResetDone r)
/-- PLL_FAIL (R104). -/
def execPllFail (t : Nat) (lane : Fin 112) (port : Option (Fin 96)) (s : State) :=
  s.onPow (fun d => (d.atTime t).pllFailed lane port)
/-- SYNTH_FAIL (R450). -/
def execSynthFail (t : Nat) (head : Fin 64) (s : State) := s.onPow (fun d => (d.atTime t).fenceRaise .head head 0 cSynth 0)
/-- STALL_DETECT (R450). -/
def execStallDetect (t : Nat) (r : PageRef) (s : State) := s.onPow (fun d => (d.atTime t).stalled r)
/-- SRAM_UE (R450). -/
def execSramUe (t : Nat) (r : PageRef) (detail : BitVec 3) (s : State) :=
  s.onPow (fun d => (d.atTime t).sramError r detail.toNat)
/-- CE_RATE (R450). -/
def execCeRate (t : Nat) (r : PageRef) (s : State) := s.onPow (fun d => (d.atTime t).ceRate r)

end Sys2Proof.Machine
end

