-- ==== Sys2Proof/Machine/Lanes.lean ====
section
/-! DEFINITION. The commands of the serial lanes (R85 to R111). -/
namespace Sys2Proof.Machine

namespace Dev

/-- R89: the transmit PLL locks; the transmitter leaves electrical idle where it may drive. -/
def txPllLock (d : Dev) (n : Nat) : Dev :=
  if (d.lane n).txWait then
    ((d.lput F.MLANE_LANE_STS_PLL_LOCK 1 n).updLane n (fun l => { l with txWait := false })).txDrive n
  else d

/-- R96, R98: LOS asserts; LOL reads 1 with it. -/
def losAssert (d : Dev) (n : Nat) : Dev :=
  if d.lget F.MLANE_LANE_STS_LOS n = 1 then d
  else
    let hadLol := d.lget F.MLANE_LANE_STS_LOL n = 1
    let d := ((d.lput F.MLANE_LANE_STS_LOS 1 n).lcount F.MLANE_LOS_EVENTS n 1).lirq n 0
    let d := if hadLol then d else ((d.lput F.MLANE_LANE_STS_LOL 1 n).lcount F.MLANE_LOL_EVENTS n 1).lirq n 2
    d.laneLoss n

/-- R96, R95: LOS clears and, in L0, acquisition starts; the detector runs in L1 and L2 too, where the equaliser is held
(R103). -/
def losClear (d : Dev) (n : Nat) : Dev :=
  if d.lget F.MLANE_LANE_STS_LOS n = 0 then d
  else
    let d := (d.lput F.MLANE_LANE_STS_LOS 0 n).lirq n 1
    if d.lget F.MLANE_LANE_STS_RX_LSTATE n = 0 ∧ (d.lane n).rxTarget.isNone then d.acquire n else d

/-- R97: LOL asserts, in L0 and without LOS. -/
def lolAssert (d : Dev) (n : Nat) : Dev :=
  if d.lget F.MLANE_LANE_STS_LOL n = 1 ∨ d.lget F.MLANE_LANE_STS_RX_LSTATE n ≠ 0 then d
  else (((d.lput F.MLANE_LANE_STS_LOL 1 n).lcount F.MLANE_LOL_EVENTS n 1).lirq n 2).laneLoss n

/-- R95: adaptation settles: the values in use are reported and data passes. -/
def adaptEnd (d : Dev) (n : Nat) (eq : Option EqValues) : Dev :=
  let mode := d.lget F.MLANE_RX_EQ_CTL_EQ_MODE n
  let page := pgAddr (lanePage n)
  let d := match eq with
    | none => d
    | some e =>
      let d := if ctleFrozen mode then d else d.lput F.MLANE_RX_EQ_STS_CTLE e.ctle.toNat n
      if dfeFrozen mode then d
      else
        let d := d.setWord (page + 0x50) (e.dfeA &&& (if n < 96 then 0x7F7F7F7F else 0x7F))
        if n < 96 then d.setWord (page + 0x54) (e.dfeB &&& 0x7F)
        else (List.range 4).foldl (fun d k => d.setWord (page + 0xB0 + 4 * k)
          ((if k = 1 then ((e.ffe.getD k 0) &&& 0x3FFFFC00) ||| 256 else (e.ffe.getD k 0) &&& 0x3FFFFFFF))) d
  (((d.lput F.MLANE_LANE_STS_ADAPT_DONE 1 n).updLane n (fun l => { l with acq := false, keep := false })).lirq n 4).laneBack n

/-- SDI line rates in kb/s, by the bits of LINK_RATE.SDI_RATES (R141). -/
def sdiRates : List Nat := [1485000, 2970000, 5940000, 11880000, 23760000]

/-- A rate lies within the lock window of a lane about a nominal one, or about it divided by 1.001 (R95, R97). -/
def nearRate (d : Dev) (n rate nominal : Nat) : Bool :=
  let w := d.lget F.MLANE_DET_CTL_LOL_PPM n
  let by_ (m : Nat) : Bool := (rate - m + (m - rate)) * 10000 ≤ w * m
  by_ nominal || by_ (nominal * 1000 / 1001)

/-- The rate at which a receive half locks to a signal of rate `rate`, and none where it does not. With RATE_SRC the bound
context sets it: of an SDI kind among the rates it searches (R141); of TMDS from the clock that the forwarded-clock half of
the link has measured (R87), 10 or 40 bits to a clock (PRESUMED, log entry 242). A half that takes a forwarded clock reports
that clock; with RX_RATE the rate is fixed. -/
def lockRate (d : Dev) (n rate : Nat) : Option Nat :=
  if 96 ≤ n || d.fwdClk n then some rate
  else if d.act F.MLANE_RX_CFG_RATE_SRC n ≠ 1 then some (d.rxRateUsed n)
  else
    match (d.laneCtxs n).head? with
    | none => some rate
    | some c =>
      if d.ctxKind c = 4 || d.ctxKind c = 5 then
        (if sdiRates.zipIdx.any (fun q => bitsOf (d.act F.INGEST_LINK_RATE_SDI_RATES c) q.2 1 = 1 && d.nearRate n rate q.1) then some rate
         else none)
      else if d.ctxKind c = 1 then
        match (d.ctxLanes c).find? d.fwdClk with
        | none => some rate
        | some k =>
          let clk := d.get F.MLANE_RX_RATE_STS_RATE k
          if d.lget F.MLANE_LANE_STS_LOL k = 1 then none
          else if d.nearRate n rate (40 * clk) then some (40 * clk)
          else if d.nearRate n rate (10 * clk) then some (10 * clk) else none
      else some rate

/-- R97, R95: LOL clears (CDR locked); acquisition starts, and in FROZEN it ends at once. `rate` is the rate of the signal, or
the clock measured. -/
def lolClear (d : Dev) (n rate : Nat) : Dev :=
  if d.lget F.MLANE_LANE_STS_LOL n = 0 ∨ d.lget F.MLANE_LANE_STS_RX_LSTATE n ≠ 0 ∨ (d.lane n).rxTarget.isSome
      ∨ d.lget F.MLANE_LANE_STS_LOS n = 1 ∨ (d.lockRate n rate).isNone then d
  else
    let used := (d.lockRate n rate).getD rate
    let d := ((d.lput F.MLANE_LANE_STS_LOL 0 n).lirq n 3).acquire n
    let d := if n < 96 then d.put F.MLANE_RX_RATE_STS_RATE used n else d
    if d.lget F.MLANE_RX_EQ_CTL_EQ_MODE n = 1 then d.adaptEnd n none else d

/-- R95: ADAPT_DONE. -/
def adaptDone (d : Dev) (n : Nat) (eq : EqValues) : Dev :=
  if (d.lane n).acq ∧ d.lget F.MLANE_LANE_STS_LOL n = 0 then d.adaptEnd n (some eq) else d

/-- The values in use of a stage are copied into its control fields (R94). -/
def freezeStages (d : Dev) (n mode : Nat) : Dev :=
  let page := pgAddr (lanePage n)
  let d := if ctleFrozen mode then d.lput F.MLANE_RX_EQ_CTL_CTLE (d.lget F.MLANE_RX_EQ_STS_CTLE n) n else d
  if dfeFrozen mode then
    let d := (d.setWord (page + 0x48) (d.word (page + 0x50)))
    if n < 96 then d.setWord (page + 0x4C) (d.word (page + 0x54))
    else (List.range 4).foldl (fun d k => d.setWord (page + 0xA0 + 4 * k) (d.word (page + 0xB0 + 4 * k))) d
  else d

/-- R94: a write of RX_EQ_CTL. -/
def eqModeWrite (d : Dev) (n mode ctle : Nat) : Dev :=
  let r := lanePage n
  let d := if ctle > 48 || mode = 3 then d.rsvCode r 0x44 else d
  let d := if ctle > 48 then d else d.lput F.MLANE_RX_EQ_CTL_CTLE ctle n
  if mode = 3 then d.useControls n (d.lget F.MLANE_RX_EQ_CTL_EQ_MODE n)
  else
    let old := d.lget F.MLANE_RX_EQ_CTL_EQ_MODE n
    let d := d.lput F.MLANE_RX_EQ_CTL_EQ_MODE mode n
    if mode = 0 then d.acquireAnew n
    else if old = mode then d.useControls n mode
    else d.freezeStages n mode

/-- R94: a write of a control word: the DFE words at 0x048 and 0x04C, the FFE words at 0x0A0 to 0x0AC. -/
def eqControlWrite (d : Dev) (n off : Nat) (v : Word) : Dev :=
  match rowAt (laneBlk n) 0 off with
  | none => d
  | some row =>
    let a := pgAddr (lanePage n) + off
    if (off = 0x48 || off = 0x4C || (0xA0 ≤ off && off ≤ 0xAC)) && row.rw ≠ 0 then
      let m := BitVec.ofNat 32 row.rw
      let w := (d.word a &&& ~~~ m) ||| (v &&& m)
      let w := if off = 0xA4 ∧ 96 ≤ n then (w &&& 0x3FFFFC00) ||| 256 else w
      (d.setWord a w).useControls n (d.lget F.MLANE_RX_EQ_CTL_EQ_MODE n)
    else d

/-- R100: both counters are set to 0; what is counted at the same edge is kept. -/
def prbsClear (d : Dev) (n : Nat) (rx : List TestData) : Dev :=
  ((d.lput F.MLANE_PRBS_ERR 0 n).put64 (laneFld F.MLANE_PRBS_BITS_LO n) 0 (laneIdx n)).testRx n rx

/-- Writing INJ_MODE = 0b00 ends a rate injection (R101). -/
def injMode (d : Dev) (n mode : Nat) : Dev :=
  let d := d.lput F.MLANE_INJ_CTL_INJ_MODE mode n
  if mode = 0 ∧ (d.lane n).inj = 3 then d.updLane n (fun l => { l with inj := 0 }) else d

/-- R101: INJ_GO. It replaces a rate injection under way (DESIGN CHOICE: R101 refuses it only for single and burst ones; log
entry 243). -/
def injGo (d : Dev) (n mode : Nat) (rx : Bool) (len : Nat) : Dev :=
  let d := ((d.injMode n mode).lput F.MLANE_INJ_CTL_INJ_SIDE (if rx then 1 else 0) n).lput F.MLANE_INJ_CTL_LEN len n
  let busy := (d.lane n).inj = 1 ∨ (d.lane n).inj = 2
  if (if rx then d.rxTest n else d.txTest n) ∧ ¬ busy then
    ((d.lput F.MLANE_LANE_STS_INJ_REFUSED 0 n).updLane n (fun l =>
      { l with inj := mode, injRx := rx, injPhase := 0
               injLeft := if mode = 1 then 1 else if mode = 2 then len + 1 else 0 })).genShow n
  else (d.lput F.MLANE_LANE_STS_INJ_REFUSED 1 n).genShow n

/-- A single or burst injection of a lane can have been sent (R101): its half is in TEST mode, and on the receive half every
bit has passed inverted; on the transmit half the generator drives. -/
def injSent (d : Dev) (n : Nat) : Bool :=
  let l := d.lane n
  (l.inj = 1 || l.inj = 2)
    && (if l.injRx then d.rxTest n && l.injLeft = 0 else d.txTest n && !l.txIdle && d.genPat n ≠ 0)

/-- R101: a single or burst injection has been sent: on the transmit half, the inverted bits of the generator leave. -/
def injDone (d : Dev) (n : Nat) : Dev :=
  let l := d.lane n
  if d.injSent n then
    let d := if l.injRx then d else d.genSend n (l.injLeft + l.injLeft % 2)
    (d.updLane n (fun l => { l with inj := 0, injLeft := 0 })).lirq n 10
  else d

/-- R103: RX_LSTATE_REQ. -/
def rxLstateReq (d : Dev) (n req : Nat) : Dev :=
  if req = 3 then d.rsvCode (lanePage n) 0x64 else (d.lput F.MLANE_RX_LSTATE_REQ_REQ req n).lstateReq n false req

/-- The payload of an alignment marker (R107). -/
def markerBytes (lane id width seq : Nat) (bip : Byte) : List Byte :=
  [0xB6, BitVec.ofNat 8 lane, BitVec.ofNat 8 id, BitVec.ofNat 8 width] ++ leBytes 3 seq ++ [bip]

/-- The blocks of a bond up to its next markers, before scrambling, what goes beyond them, and the messages that wait on. Idle
blocks fill what the stream leaves short. -/
def bondBlocks (b : BondTx) (due : Nat) (stream : List BondItem) : List Block66 × List Block66 × List (List Byte) :=
  let c := codeStream stream b.queue
  let all := b.rest ++ c.1
  let all := all ++ codeIdle (due - all.length)
  (all.take due, all.drop due, c.2)

/-- R107: the stream of a bond up to its next markers: coded, scrambled, and dealt to the lanes block by block; then one marker
leaves on every lane, with the BIP-8 of its blocks. A lane that does not drive in DATA mode sends neither. -/
def bondMarkerTx (d : Dev) (id : Nat) (stream : List BondItem) : Dev :=
  let ls := d.bondLanes id
  let b := sget (fun _ => {}) d.bondTx id
  let w := ls.length
  if w = 0 then d
  else
    let x := bondBlocks b (markerGap * w) stream
    let sc := scramble x.1 b.scr
    let d := { d with bondTx := sset (fun _ => {}) d.bondTx id
                        { scr := sc.2, rest := x.2.1, queue := x.2.2, seq := (b.seq + 1) % 2 ^ 24 } }
    ls.foldl (fun d n =>
      if (d.lane n).txIdle || d.act F.MLANE_TX_CFG_TX_MODE n ≠ 0 then d
      else
        let k := d.act F.MLANE_BOND_BOND_LANE n
        let inv := d.act F.MLANE_TX_CFG_TX_POL_INV n = 1
        let mine := (sc.1.zipIdx.filter (fun q => q.2 % w = k)).map (·.1)
        let p := markerBytes k id (d.act F.MLANE_BOND_BOND_WIDTH n) b.seq (bip8 (mine.map (fun q => (1, q))))
        let d := if mine.isEmpty then d else d.emit (.blocks n inv mine)
        (d.emit (.marker n inv p)).updLane n (fun l => { l with sent := some (p, mine) })) d

/-- Blocks between two markers as received (R108). -/
def markerOnTime (m : MarkerRx) : Bool := (m.blocks.map (·.1)).sum = markerGap

/-- R108: a marker is valid when it names the applied bond and width, stands in its place (the first one found has no place
yet) and lies within the skew the receiver removes. -/
def markerValid (d : Dev) (n : Nat) (m : MarkerRx) : Bool :=
  match m.payload with
  | some [ty, ln, id, w, _, _, _, _] =>
    ty = 0xB6 && ln.toNat < w.toNat && id.toNat = d.act F.MLANE_BOND_BOND_ID n
      && w.toNat = d.act F.MLANE_BOND_BOND_WIDTH n
      && (markerOnTime m || ((d.lane n).mkGood = 0 && d.lget F.MLANE_LANE_STS_MARKER_LOCK n = 0)) && m.skew.natAbs ≤ 2048
  | _ => false

/-- R108: the blocks that the lanes of an aligned bond have brought since their last markers, each lane placed by the
BOND_LANE in its markers, put together, descrambled and decoded; messages are handed up while the bond is up. -/
def bondRecover (d : Dev) (id : Nat) : Dev :=
  let ls := d.bondLanes id
  let cols := (List.range ls.length).map (fun k =>
    match ls.find? (fun n => (d.lane n).mkLane = k) with
    | some n => (d.lane n).got.flatMap (fun (r : Nat × Block66) => List.replicate r.1 r.2)
    | none => [])
  let line := (List.range markerGap).flatMap (fun i => cols.filterMap (fun c => (c.drop i).head?))
  let b := sget (fun _ => {}) d.bondRx id
  let x := descramble line b.scr
  let up := ls.all (fun n => d.lget F.MLANE_LANE_STS_BOND_UP n = 1)
  let r := x.1.foldl (fun (r : Option (List Byte) × List (List Byte)) blk =>
    let y := decodeBlock r.1 blk
    (y.1, if up then r.2 ++ y.2.toList else r.2)) (b.part, b.msgs)
  { d with bondRx := sset (fun _ => {}) d.bondRx id { scr := x.2, part := r.1, msgs := r.2 } }

/-- R109: at alignment the lanes of a bond are compared: unlike sequence numbers take it down, like ones bring their stream,
and bring it up. -/
def bondRound (d : Dev) (id : Nat) : Dev :=
  let ls := d.bondLanes id
  if !d.bondAligned id then d
  else if ls.all (fun n => (d.lane n).mkSeq = (d.lane (ls.headD 0)).mkSeq) then (d.bondRecover id).bondTryUp id
  else d.bondDown id

/-- R108, R109: a valid marker. -/
def markerGood (d : Dev) (n : Nat) (m : MarkerRx) (p : List Byte) : Dev :=
  let id := d.act F.MLANE_BOND_BOND_ID n
  let seq := leVal ((p.drop 4).take 3)
  let locked := d.lget F.MLANE_LANE_STS_MARKER_LOCK n = 1
  let d := d.updLane n (fun l =>
    { l with mkGood := l.mkGood + 1, mkBad := 0, mkSeq := seq, mkLane := (p.getD 1 0).toNat, mkAt := some d.house
             got := m.blocks, mkHeld := if locked then l.mkHeld + 1 else 0 })
  let d := d.put F.MLANE_BOND_STS_SKEW (unsgn 13 m.skew) n
  let d := if markerOnTime m && p.getD 7 0 ≠ bip8 m.blocks then d.count F.MLANE_BIP_ERR n else d
  let d := if !locked ∧ (d.lane n).mkGood ≥ 2 then d.lput F.MLANE_LANE_STS_MARKER_LOCK 1 n else d
  d.bondRound id

/-- R108, R109: a missing or invalid marker; a locked lane goes on counting sequence numbers in its place. -/
def markerMissed (d : Dev) (n : Nat) (m : MarkerRx) : Dev :=
  let locked := d.lget F.MLANE_LANE_STS_MARKER_LOCK n = 1
  let id := d.act F.MLANE_BOND_BOND_ID n
  let d := d.updLane n (fun l =>
    if locked then { l with mkGood := 0, mkBad := l.mkBad + 1, mkSeq := (l.mkSeq + 1) % 2 ^ 24, mkAt := some d.house, got := m.blocks }
    else { l with mkGood := 0, mkBad := l.mkBad + 1, mkAt := none })
  if !locked then d
  else if (d.lane n).mkBad ≥ 4 then
    (((d.lput F.MLANE_LANE_STS_MARKER_LOCK 0 n).updLane n (fun l => { l with mkHeld := 0, mkAt := none })).lirq n 6).bondDown id
  else d.bondRound id

/-- What the receive half of a bond lane takes for a marker and the blocks before it: in LOOP_NEAR what its own transmitter
last sent (R102); with the polarity of RX_POL_INV the bits must stand right (R108). -/
def markerSeen (d : Dev) (n : Nat) (m : MarkerRx) : MarkerRx :=
  let m := if d.loopNear n then
      { m with payload := (d.lane n).sent.map (·.1), blocks := ((d.lane n).sent.elim [] (·.2)).map (fun b => (1, b))
               inverted := d.act F.MLANE_TX_CFG_TX_POL_INV n = 1 }
    else m
  if m.inverted = (d.act F.MLANE_RX_CFG_RX_POL_INV n = 1) then m else { m with payload := none }

/-- R108: what stands where a marker is due on a bond lane whose receive half passes data; in LOOP_FAR it is sent again
(R102). -/
def bondMarkerRx (d : Dev) (n : Nat) (m : MarkerRx) : Dev :=
  if d.act F.MLANE_BOND_BOND_EN n ≠ 1 then d
  else
    let d := if d.loopFar n && d.rxData n && !(d.lane n).txIdle then d.emit (.loopMarker n m) else d
    let m := d.markerSeen n m
    if d.rxData n && d.markerValid n m then d.markerGood n m (m.payload.getD []) else d.markerMissed n m

/-- R92, R111: link training ends; the coefficients stay as the partner left them, and a failure keeps the interface down. -/
def linkTrainingEnd (d : Dev) (n : Nat) (ok : Bool) (fir : Word) : Dev :=
  if (d.lane (96 + n)).training then
    let d := (d.updLane (96 + n) (fun l => { l with training := false, trainFailed := !ok })).setWord
      (pageAddr .nlane n 0 + 0x40) (fir &&& 0x3F3F3F3F)
    let d := d.irq .nlane n 0 11
    if ok then d.laneBack (96 + n) else (d.irq .nlane n 0 12).netLaneLoss n
  else d

/-- R110: the lane's event counters. -/
def laneCntClear (d : Dev) (n : Nat) : Dev :=
  let d := (d.lput F.MLANE_LOS_EVENTS 0 n).lput F.MLANE_LOL_EVENTS 0 n
  if n < 96 then d.put F.MLANE_BIP_ERR 0 n else d

end Dev

/-- TX_PLL_LOCK (R89). -/
def execTxPllLock (t : Nat) (lane : Fin 112) (s : State) := s.onDev (fun d => ((d.atTime t).txPllLock lane).portsRefresh)
/-- LOS_ASSERT (R96, R98). -/
def execLosAssert (t : Nat) (lane : Fin 112) (s : State) := s.onCtx (fun d => (d.atTime t).losAssert lane)
/-- LOS_CLEAR (R96). -/
def execLosClear (t : Nat) (lane : Fin 112) (s : State) := s.onCtx (fun d => (d.atTime t).losClear lane)
/-- LOL_ASSERT (R97). -/
def execLolAssert (t : Nat) (lane : Fin 112) (s : State) := s.onCtx (fun d => (d.atTime t).lolAssert lane)
/-- LOL_CLEAR (R97). -/
def execLolClear (t : Nat) (lane : Fin 112) (rate : BitVec 25) (s : State) :=
  s.onCtx (fun d => (d.atTime t).lolClear lane rate.toNat)
/-- ADAPT_DONE (R95). -/
def execAdaptDone (t : Nat) (lane : Fin 112) (eq : EqValues) (s : State) :=
  s.onDev (fun d => (d.atTime t).adaptDone lane eq)
/-- EQ_MODE_WRITE (R94). -/
def execEqModeWrite (t : Nat) (lane : Fin 112) (mode : BitVec 2) (ctle : BitVec 6) (s : State) :=
  s.onCtx (fun d => (d.atTime t).gate (Dev.lanePage lane) 0x44 (·.eqModeWrite lane mode.toNat ctle.toNat))
/-- EQ_CONTROL_WRITE (R94). -/
def execEqControlWrite (t : Nat) (lane : Fin 112) (off : BitVec 12) (v : Word) (s : State) :=
  s.onDev (fun d => (d.atTime t).gate (Dev.lanePage lane) off.toNat (·.eqControlWrite lane off.toNat v))
/-- PRBS_SYNC (R100). -/
def execPrbsSync (t : Nat) (r : LaneRx) (s : State) := s.onDev (fun d => (d.atTime t).testRx r.lane r.rx)
/-- PRBS_SYNC_LOST (R100). -/
def execPrbsSyncLost (t : Nat) (lane : Fin 112) (rx after : List TestData) (s : State) :=
  s.onDev (fun d => (d.atTime t).testRx lane (rx ++ after))
/-- PRBS_CLEAR (R100). -/
def execPrbsClear (t : Nat) (lane : Fin 112) (before edge : List TestData) (s : State) :=
  s.onDev (fun d => ((d.atTime t).testRx lane before).gate (Dev.lanePage lane) 0x68 (·.prbsClear lane edge))
/-- INJ_GO (R101). -/
def execInjGo (t : Nat) (lane : Fin 112) (mode : BitVec 2) (rx : Bool) (len : BitVec 8) (s : State) :=
  s.onDev (fun d => (d.atTime t).gate (Dev.lanePage lane) 0x6C (·.injGo lane mode.toNat rx len.toNat))
/-- INJ_DONE (R101). -/
def execInjDone (t : Nat) (lane : Fin 112) (s : State) := s.onDev (fun d => (d.atTime t).injDone lane)
/-- RX_LSTATE_REQ (R103). -/
def execRxLstateReq (t : Nat) (lane : Fin 112) (req : BitVec 2) (s : State) :=
  s.onCtx (fun d => (d.atTime t).gate (Dev.lanePage lane) 0x64 (·.rxLstateReq lane req.toNat))
/-- LSTATE_DONE (R103, R104). -/
def execLstateDone (t : Nat) (lane : Fin 112) (tx : Bool) (s : State) :=
  s.onCtx (fun d => ((d.atTime t).lstateDone lane tx).portsRefresh)
/-- BOND_MARKER_TX (R107). -/
def execBondMarkerTx (t : Nat) (bond : Fin 16) (stream : List BondItem) (s : State) :=
  s.onDev (fun d => (d.atTime t).bondMarkerTx bond stream)
/-- BOND_MARKER_RX (R108, R109). -/
def execBondMarkerRx (t : Nat) (lane : Fin 96) (m : MarkerRx) (s : State) :=
  s.onCtx (fun d => (d.atTime t).bondMarkerRx lane m)
/-- LINK_TRAINING_END (R92). -/
def execLinkTrainingEnd (t : Nat) (lane : Fin 16) (ok : Bool) (fir : Word) (s : State) :=
  s.onCtx (fun d => (d.atTime t).linkTrainingEnd lane ok fir)
/-- LANE_CNT_CLEAR (R110). -/
def execLaneCntClear (t : Nat) (lane : Fin 112) (s : State) :=
  s.onDev (fun d => (d.atTime t).gate (Dev.lanePage lane) 0x94 (·.laneCntClear lane))

end Sys2Proof.Machine
end

