-- ==== Sys2Proof/Machine/Ledger.lean ====
section
/-! DEFINITION. The ledger audit (R49 to R52, R491) and the talon rebuild (R53, R54, R492). -/
namespace Sys2Proof.Machine

/-- What an audit fences for failing books (R491): instances, and the recorded detail. -/
structure Owners where
  units : List (Blk × Nat × Nat)
  detail : Nat

/-- A run of instances of a block. -/
def unitRun (b : Blk) (first n : Nat) : List (Blk × Nat × Nat) := (List.range n).map (fun i => (b, first + i, 0))

/-- The instances of a data-plane island (R491). -/
def islandUnits (n : Nat) : List (Blk × Nat × Nat) :=
  if n < 12 then unitRun .mlane (8 * n) 8
  else if n < 16 then [(.nport, n - 12, 0)]
  else if n = 16 then unitRun .ingest 0 256
  else if n = 17 then [(.memsw, 0, 0)]
  else if n < 26 then unitRun .engine (8 * (n - 18)) 8
  else if n < 30 then unitRun .head (16 * (n - 26)) 16
  else [(.audio, 0, 0)]

/-- Every page of the map whose LEDGER.OWNS reads 1 (R491). -/
def bookPages : List PageRef := allPages.filter (fun r => ownsBooks r.blk r.page)

namespace Dev

/-- The instances that failing books fence (R491); an audio FIFO fences no page. -/
def bookOwners (d : Dev) : Books → Owners
  | .talonSlabs => ⟨[(.talon, 0, 0)], 0⟩
  | .tagPool p =>
    if p.val = 0 then ⟨unitRun .ingest 0 256, 0⟩
    else if p.val ≤ 8 then ⟨unitRun .engine (8 * (p.val - 1)) 8, p.val⟩
    else if p.val ≤ 12 then ⟨unitRun .head (16 * (p.val - 9)) 16, p.val⟩
    else if p.val ≤ 16 then ⟨[(.nport, p.val - 13, 0)], p.val⟩
    else if p.val = 17 then ⟨[(.recorder, 0, 0)], 17⟩
    else if p.val = 18 then ⟨(unitRun .ingest 0 256).filter (fun u => d.ctxKind u.2.1 = 11), 18⟩
    else ⟨[(.audio, 0, 0)], 19⟩
  | .credits s r => ⟨islandUnits s, 256 + r⟩
  | .dealBids => ⟨[(.deal, 0, 1)], 0⟩
  | .audioFifo i => ⟨[], i⟩
  | .witnessChain => ⟨[(.witChain, 64, 0)], 0⟩

/-- AUDIT_RUN (R49, R51): the first whole microsecond at least 2 µs later; an audit in progress serves the request, and one
that is due already takes it in (DESIGN CHOICE, log entry 207). -/
def auditRun (d : Dev) : Dev :=
  if d.flag F.LEDGER_AUDIT_STS_BUSY || d.auditDue.isSome then d
  else { d with auditDue := some ((d.house + 2000 + 999) / 1000 * 1000) }

/-- An upset of the talon's books (R53): what it takes from an owner or from FREE is in no count from then on; what it puts
into a map is still counted in FREE. -/
def talonUpset (d : Dev) : SlabUpset → Dev
  | .leak s =>
    if s < slabCount && !d.heldSlabs.contains s && !d.leaked.contains s then { d with leaked := d.leaked ++ [s] } else d
  | .lose o k =>
    match (d.map o).getD k none with
    | some s => { d.setMap o (lset (d.map o) k none) with leaked := addOnce d.leaked s }
    | none => d
  | .claim o k s =>
    if s < slabCount && k < (d.map o).length then
      let was := ((d.map o).getD k none).toList
      { d.setMap o (lset (d.map o) k (some s)) with
        overclaim := d.overclaim + 1, leaked := was.foldl addOnce d.leaked }
    else d

/-- Two latched books are of the same quantity. -/
def sameBook : BookRead → BookRead → Bool
  | .tags p _ _, .tags q _ _ => p = q
  | .channel s r _, .channel s' r' _ => s = s' && r = r'
  | .fifo i _ _ _, .fifo j _ _ _ => i = j
  | .bids i _, .bids j _ => i = j
  | .witness _ _ _, .witness _ _ _ => true
  | _, _ => false

/-- R45, R50: every owner latches its books: tag pools, channels, audio FIFOs, the bids of each participant of each open deal,
and the witness chain with its channel. -/
def auditLatch (d : Dev) : List BookRead :=
  let pools := (List.finRange 20).map (fun p => BookRead.tags p (d.pool p).free (d.pool p).out)
  let chans := d.chans.map (fun q =>
    BookRead.channel (Fin.ofNat 31 (q.1 / 32)) (Fin.ofNat 31 (q.1 % 32)) (q.2.books (Config.channelDepth (q.1 / 32) (q.1 % 32))))
  let fifos := d.audio.rx.map (fun q => BookRead.fifo (Fin.ofNat 128 q.1) q.2.written q.2.read q.2.fifo.length)
  let bids := d.deal.opened.flatMap (fun r => r.bids.dedup.map (fun k => BookRead.bids (Fin.ofNat 64 k) (r.bids.count k)))
  pools ++ chans ++ fifos ++ bids ++ [.witness d.witHanded d.witChained d.witChan.length]

/-- The books that were latched otherwise than the commands had left them take their place in the audit registers; what they
take from the talon's counts or add to them is in the latched counts too (DESIGN CHOICE, log entry 52). -/
def auditFound (d : Dev) (found : List BookRead) : Dev :=
  let z := found.foldl (fun d b => match b with | .slabs u => d.talonUpset u | _ => d) d
  { z with
    auditRegs := found ++ d.auditRegs.filter (fun b => !found.any (sameBook b))
    auditFree := d.auditFree + z.freeCount - d.freeCount
    auditAlloc := d.auditAlloc + z.heldSlabs.length - d.heldSlabs.length }

/-- The quantity whose latched books break their invariant (R46); the talon's two counts are compared apart. -/
def bookFails : BookRead → Option Books
  | .slabs _ => none
  | .tags p free out => if free + out = poolShare p then none else some (.tagPool p)
  | .channel s r c => if chanHolds c (Config.channelDepth s r) then none else some (.credits s r)
  | .fifo i w r fill => if (w + 2 ^ 32 - r % 2 ^ 32) % 2 ^ 32 = fill then none else some (.audioFifo i)
  | .bids _ n => if n ≤ 1 then none else some .dealBids
  | .witness handed advance flying => if handed = advance + flying then none else some .witnessChain

/-- Failing tag pools, channels and witness books go on as they were found, until they start anew (R52). -/
def bookStays (d : Dev) (b : BookRead) : Dev :=
  match b, bookFails b with
  | .tags p free out, some _ => { d with tags := sset TagPool.init d.tags p ⟨free, out⟩ }
  | .witness handed advance _, some _ => { d with witHanded := handed, witChained := advance }
  | .channel s r c, some _ => { d with chans := sset (fun _ => {}) d.chans (s * 32 + r) (chanOf c (Config.channelDepth s r)) }
  | _, _ => d

/-- AUDIT_EVENT (R49 to R51): the due on-demand audit, or that of a whole second not yet audited, whichever is earlier; one
audit where their E coincide. An on-demand audit whose E comes while an audit is BUSY is dropped (DESIGN CHOICE, log entry
207). -/
def auditEvent (d : Dev) (t : Nat) : Dev :=
  let sec := t / 1000000000
  let asked := d.auditDue.filter (· ≤ t)
  let whole := if d.flag F.LEDGER_AUDIT_CTL_PERIODIC && sec > d.auditSecond then some (sec * 1000000000) else none
  match asked.elim whole (fun a => some (whole.elim a (min a))) with
  | none => d
  | some e =>
    let periodic := whole = some e
    let d := if periodic then { d with auditSecond := sec } else d
    let d := if asked = some e then { d with auditDue := none } else d
    if d.flag F.LEDGER_AUDIT_STS_BUSY then (if periodic then d.count F.LEDGER_AUDIT_SKIP else d)
    else
      let rebuilding := d.flag F.LEDGER_AUDIT_STS_REBUILDING
      { d.put F.LEDGER_AUDIT_STS_BUSY 1 with
        auditE := e, auditRegs := d.auditLatch, auditNoTalon := rebuilding, talonFrozen := !rebuilding }

/-- PERIODIC is set: the seconds that passed without it are not audited. -/
def periodicSet (old d : Dev) : Dev :=
  if !old.flag F.LEDGER_AUDIT_CTL_PERIODIC && d.flag F.LEDGER_AUDIT_CTL_PERIODIC then
    { d with auditSecond := max d.auditSecond (d.house / 1000000000) }
  else d

/-- TALON_FREEZE_END (R50): the counts are latched, and held requests are served. -/
def freezeEnd (d : Dev) : Dev :=
  if !d.talonFrozen then d
  else ({ d with talonFrozen := false, auditFree := d.freeCount, auditAlloc := d.heldSlabs.length }).talonServe

/-- Bits of AUDIT_STS a failing book sets (R55). -/
def bookBit : Books → Fld
  | .talonSlabs => F.LEDGER_AUDIT_STS_TALON
  | .tagPool _ => F.LEDGER_AUDIT_STS_TAGS
  | .credits _ _ => F.LEDGER_AUDIT_STS_CREDITS
  | .audioFifo _ => F.LEDGER_AUDIT_STS_AUDIO
  | .dealBids => F.LEDGER_AUDIT_STS_DEAL_BIDS
  | .witnessChain => F.LEDGER_AUDIT_STS_WITNESS_CHAIN

/-- Order in which the first failing books are named: tag pools, channels, FIFOs. -/
def bookRank : Books → Nat
  | .tagPool p => p
  | .credits s r => 1000 + 32 * s.val + r.val
  | .audioFifo i => 5000 + i
  | _ => 9999

/-- FIRST_ID of an audit (R55, R491). -/
def firstId (l : List Books) : Nat :=
  match l.foldl (fun (best : Option Books) b =>
      match best with
      | some x => if bookRank b < bookRank x then some b else some x
      | none => some b) none with
  | some (.tagPool p) => p
  | some (.credits _ r) => r
  | some (.audioFifo i) => i
  | _ => 0

/-- Failing books fence their owners (R52, R491). -/
def bookFence (d : Dev) (b : Books) : Dev :=
  let o := d.bookOwners b
  let d := o.units.foldl (fun d u => d.fenceRaise u.1 u.2.1 u.2.2 cLedger o.detail) d
  match b with
  | .talonSlabs => { d with rebuilt := false }
  | .audioFifo i => d.groupFence (d.rxGroup i)
  | .witnessChain => d.chainHalt
  | _ => d

/-- The quantities that fail in the latched books (R46): the talon's counts unless a rebuild runs (R51), and the others. -/
def auditFailing (d : Dev) : List Books :=
  (if !d.auditNoTalon && d.auditFree + d.auditAlloc ≠ slabCount then [.talonSlabs] else [])
    ++ (d.auditRegs.filterMap bookFails).eraseDups

/-- AUDIT_COMPLETE (R50 to R52, R55, R56). -/
def auditComplete (d : Dev) (found : List BookRead) : Dev :=
  if !d.flag F.LEDGER_AUDIT_STS_BUSY || d.talonFrozen then d
  else
    let d := d.auditFound found
    let failing := d.auditFailing
    let d := d.auditRegs.foldl bookStays d
    let d := (((d.put F.LEDGER_AUDIT_STS_BUSY 0).put64 F.LEDGER_AUDIT_TIME_LO d.auditE)).count F.LEDGER_AUDIT_COUNT
    let d := if d.auditNoTalon then d
      else ((d.put F.LEDGER_AUDIT_STS_TALON 0).put F.LEDGER_TALON_FREE_FREE d.auditFree).put F.LEDGER_TALON_ALLOC_ALLOC d.auditAlloc
    let d := d.clear [F.LEDGER_AUDIT_STS_TAGS, F.LEDGER_AUDIT_STS_CREDITS, F.LEDGER_AUDIT_STS_AUDIO,
      F.LEDGER_AUDIT_STS_DEAL_BIDS, F.LEDGER_AUDIT_STS_WITNESS_CHAIN]
    let d := failing.foldl (fun d b => d.put (bookBit b) 1) d
    let d := d.put F.LEDGER_AUDIT_STS_FIRST_ID (firstId failing)
    let hit := failing.flatMap (fun b => (d.bookOwners b).units)
    let audio := failing.any (fun b => match b with
      | .audioFifo _ => true
      | _ => false)
    let seq := d.get F.LEDGER_AUDIT_COUNT % 65536
    let d := bookPages.foldl (fun d r =>
      if r.blk = .talon && d.auditNoTalon then d
      else
        let bad := hit.any (fun u => u.1 = r.blk && u.2.1 = r.inst && (r.blk ≠ .deal || u.2.2 = r.page)) || (r.blk = .audio && audio)
        (d.putAt (pgAddr r + 0x38) 1 1 (if bad then 1 else 0)).putAt (pgAddr r + 0x38) 16 16 seq) d
    if failing.isEmpty then d
    else failing.foldl bookFence (((d.count F.LEDGER_FAULT_COUNT).irq .ledger 0 0 0).snapFault 0 .ledger 0)

/-! The rebuild. -/

/-- TALON_REBUILD (R53, R54): firmware's command; after a failed one only a host release lets it run again. -/
def rebuildStart (d : Dev) : Dev :=
  if d.fwUp && !d.flag F.LEDGER_AUDIT_STS_REBUILDING && !d.rebuilt
      && (if d.hasCause .talon 0 0 cRebuild then d.rebuildAsked else d.hasCause .talon 0 0 cLedger) then
    forN 4 (d.put F.LEDGER_AUDIT_STS_REBUILDING 1) (fun d k => d.fwVoteNow (28 + k) 1 true)
  else d

/-- The slabs that the rebuild finds out of order: in no books, or named more than once. -/
def suspects (d : Dev) : List Nat :=
  let held := d.heldSlabs
  (held.filter (fun s => 1 < held.count s)).foldl addOnce d.leaked

/-- R53: the owners that refer to a slab: those whose maps name it or that are giving it up, and, for a slab in no books,
those its tiles name (DEDUCED, log entry 231). -/
def slabOwners (d : Dev) (s : Nat) : List Nat :=
  let named := (d.maps.filter (fun q => q.2.contains (some s))).map (·.1) ++ (d.releasing.filter (fun q => q.2.contains s)).map (·.1)
  let tiles := if d.leaked.contains s then (d.tiles.filter (fun x => x.1 / 512 = s && x.2.valid)).map (fun x => x.2.owner) else []
  (named ++ tiles).foldl addOnce []

/-- Delay positions in position `k` of the delay memory read as zero with FILL until written again (R492). -/
def delayLost (d : Dev) (k : Nat) : Dev :=
  let hit (q : Nat × List (Nat × List Nat)) (j : Nat) : Bool :=
    (d.linePlace q.1 + j * (q.2.headD (0, [])).2.length * 4) / 0x200000 = k
  { d with audio := { d.audio with
      lines := d.audio.lines.map (fun q => (q.1, q.2.zipIdx.map (fun f => if hit q f.2 then (f.1.1, f.1.2.map (fun _ => mutedWord)) else f.1))) } }

/-- Records of position `k` of the witness ring are lost (R492). -/
def recordsLost (d : Dev) (k : Nat) : Dev :=
  let old := d.witOldest
  let all := (List.range (d.get64 F.WITCHAIN_NEXT_COUNTER_LO 64 - old)).map (old + ·)
  let at_ (c : Nat) : Nat := (c - d.get64 F.WITCHAIN_RING_BASE_LO 64) % d.witCap / 16384
  { d with witLost := (all.filter (fun c => d.witCap ≠ 0 && at_ c = k)).foldl addOnce d.witLost }

/-- R53, R492: position `k` of an owner's map has lost slab `s`: its tiles are marked poisoned, its meld tiles are dirty, and
what else it held is lost. -/
def slabLost (d : Dev) (o k s : Nat) : Dev :=
  let slots := (d.tiles.filter (fun x => x.1 / 512 = s)).map (fun x => x.1 % 512)
  let d := { d.setMap o (lset (d.map o) k none) with lostAt := sset (fun _ => []) d.lostAt (o * 65536 + k) slots }
  let d := d.mapPics (fun p => if p.owner = o then { p with slabs := p.slabs.map (fun x => if x = some s then none else x) } else p)
  if o / 0x1000 = 3 then
    { d with melds := d.melds.map (fun m =>
        if m.2.pic.owner = o then
          let per := slotsPer m.2.pic.fmt.sectors
          let all := (List.range per).map (k * per + ·)
          (m.1, { m.2 with dirty := m.2.dirty ++ (all.filter (fun i => i < m.2.pic.cols * m.2.pic.rows && !m.2.dirty.contains i)) })
        else m) }
  else if o = ownAudio then d.delayLost k
  else if o = ownWitness then d.recordsLost k
  else d

/-- Positions of an owner's map that name a slab. -/
def placesOf (d : Dev) (o s : Nat) : List Nat := (List.range (d.map o).length).filter (fun k => (d.map o).getD k none = some s)

/-- R53: one slab out of order is treated. With one owner it stands in the owner's map once: where it does already, else in the
first empty position, else behind the end (DESIGN CHOICE, log entry 209). With none it is free. With more it is withdrawn from
all of them. -/
def slabClaim (d : Dev) (s : Nat) : Dev :=
  match d.slabOwners s with
  | [] => d
  | [o] =>
    match d.placesOf o s with
    | _ :: more => more.foldl (fun d k => d.setMap o (lset (d.map o) k none)) d
    | [] =>
      let m := d.map o
      if (d.released o).contains s then d
      else if m.contains none then d.setMap o (lset m (m.findIdx (· = none)) (some s))
      else d.setMap o (m ++ [some s])
  | os =>
    let d := { d with releasing := (d.releasing.map (fun q => (q.1, q.2.filter (· ≠ s)))).filter (fun q => !q.2.isEmpty) }
    os.foldl (fun d o => (d.placesOf o s).foldl (fun d k => d.slabLost o k s) d) d

/-- REBUILD_COMPLETE (R53, R54, R492): every slab is treated, the withdrawn ones are replaced, and the talon-only audit runs.
A failed audit raises REBUILD_FAIL alone (DESIGN CHOICE, log entry 208). -/
def rebuildDone (d : Dev) (found upsets : List SlabUpset) : Dev :=
  if !d.flag F.LEDGER_AUDIT_STS_REBUILDING then d
  else
    let d := found.foldl talonUpset d
    let d := d.suspects.foldl slabClaim d
    let d := (({ d with leaked := [], overclaim := 0 } : Dev).fillEmpty).stageStatus
    let d := upsets.foldl talonUpset d
    let pass := d.freeCount + d.heldSlabs.length = slabCount
    let d := (((d.put F.LEDGER_AUDIT_STS_REBUILDING 0).putB F.LEDGER_AUDIT_STS_TALON (!pass)).putB
      F.LEDGER_AUDIT_STS_REBUILD_FAIL (!pass)).putAt (pageAddr .talon 0 0 + 0x38) 1 1 (if pass then 0 else 1)
    let d := (d.put F.LEDGER_TALON_FREE_FREE d.freeCount).put F.LEDGER_TALON_ALLOC_ALLOC d.heldSlabs.length
    let asked := d.rebuildAsked
    let d := forN 4 { d with rebuildAsked := false } (fun d k => d.fwVoteNow (28 + k) 1 false)
    if pass then
      let d := ({ d with rebuilt := true }).irq .ledger 0 0 1
      if asked || d.flag F.LEDGER_CTL_AUTO_RELEASE then d.releaseNow .talon 0 0 true false else d
    else
      let d := d.irq .ledger 0 0 2
      let d := d.setRecs .talon 0 0 ((d.recs .talon 0).map (fun r => if r.cause = cLedger then { r with cause := cRebuild } else r))
      if asked then (d.setRelRefused .talon 0 0 1).irqAll .talon 0 0 30 else d

def ledgerPage : PageRef := ⟨.ledger, 0, 0⟩

end Dev

/-- AUDIT_RUN (R49). -/
def execAuditRun (t : Nat) (s : State) := s.onDev (fun d => (d.atTime t).gate Dev.ledgerPage 0x40 (·.auditRun))
/-- AUDIT_EVENT (R50). -/
def execAuditEvent (t : Nat) (s : State) := s.onDev (fun d => (d.atTime t).auditEvent t)
/-- TALON_FREEZE_END (R50). -/
def execTalonFreezeEnd (t : Nat) (s : State) := s.onDev (fun d => (d.atTime t).freezeEnd)
/-- AUDIT_COMPLETE (R50). -/
def execAuditComplete (t : Nat) (found : List BookRead) (s : State) := s.onPow (fun d => (d.atTime t).auditComplete found)
/-- LEDGER_CLEAR (R55). -/
def execLedgerClear (t : Nat) (s : State) :=
  s.onDev (fun d => (d.atTime t).gate Dev.ledgerPage 0x40
    (·.clear [F.LEDGER_AUDIT_COUNT, F.LEDGER_FAULT_COUNT, F.LEDGER_AUDIT_SKIP]))
/-- TALON_REBUILD (R53). -/
def execTalonRebuild (t : Nat) (s : State) := s.onDev (fun d => (d.atTime t).rebuildStart)
/-- REBUILD_COMPLETE (R492). -/
def execRebuildComplete (t : Nat) (found upsets : List SlabUpset) (s : State) :=
  s.onPow (fun d => (d.atTime t).rebuildDone found upsets)

end Sys2Proof.Machine
end

