-- ==== Sys2Proof/Machine/Mgmt.lean ====
section
/-! DEFINITION. Firmware: its boot (R389 to R393), its watchdogs and restarts (R387, R388), the install journal (R394),
certificates, quotes and fuses (R395 to R398), and the mailbox (R403). -/
namespace Sys2Proof.Machine

/-- Sizes of a slot, of an image header, and the limit of LOAD_LEN (R389). -/
def slotSize : Nat := 65536 * (Config.slotSectors.val + 1)
def headerSize : Nat := 8192
def loadLimit : Nat := 1835008

/-- Result codes of the mailbox (R403). -/
def mbOk : Nat := 0
def mbOpcode : Nat := 1
def mbArg : Nat := 2
def mbState : Nat := 3
def mbVerify : Nat := 4
def mbRollback : Nat := 5
def mbFlash : Nat := 6
def mbAborted : Nat := 7
def mbUnsupported : Nat := 8

namespace Nonvolatile

/-- A byte of the flash; an erased one reads 0xFF (log entry 19). -/
def flashByte (n : Nonvolatile) (a : Nat) : Byte := sget (fun _ => 0xFF) n.flash a
def flashRead (n : Nonvolatile) (a k : Nat) : List Byte := (List.range k).map (fun i => n.flashByte (a + i))
def setFlash (n : Nonvolatile) (a : Nat) (b : Byte) : Nonvolatile := { n with flash := sset (fun _ => 0xFF) n.flash a b }

/-- A byte of the fuse image (R398). -/
def fuseInit (a : Nat) : Byte := if a < 48 then BitVec.ofNat 8 (Config.fuse a) else 0
def fuseByte (n : Nonvolatile) (a : Nat) : Byte := sget fuseInit n.fuses a
def fuseRead (n : Nonvolatile) (a k : Nat) : List Byte := (List.range k).map (fun i => n.fuseByte (a + i))
def setFuse (n : Nonvolatile) (a : Nat) (b : Byte) : Nonvolatile := { n with fuses := sset fuseInit n.fuses a b }

/-- SLOT_VERIFY (R390): why a slot fails, as FAIL_WHY codes it; 0 where it verifies. -/
def slotFail (n : Nonvolatile) (slot : Nat) : Nat :=
  let base := slot * slotSize
  let word (o : Nat) : Nat := leVal (n.flashRead (base + o) 4)
  let pk := n.flashRead (base + 96) 1952
  let len := word 16
  if word 0 ≠ 0x31464751 || leVal (n.flashRead (base + 4) 2) ≠ 1 || len + headerSize > slotSize || word 20 > loadLimit then 1
  else if shake256 pk 32 ≠ n.fuseRead 0 32 then 2
  else if !Config.verifies pk (n.flashRead base 2048) (n.flashRead (base + 2048) 3309) then 3
  else if word 12 < n.boot.minSec then 4
  else if shake256 (n.flashRead (base + headerSize) len) 64 ≠ n.flashRead (base + 32) 64 then 5
  else 0

end Nonvolatile

namespace Dev

/-- FW_HEALTHY becomes 0 (R84, R387). -/
def unhealthy (d : Dev) : Dev :=
  if d.flag F.GLOBAL_STS_FW_HEALTHY then (d.put F.GLOBAL_STS_FW_HEALTHY 0).irq .global 0 0 3 else d

/-- What firmware holds in its memory goes when it stops: the chain, its entries being signed (R388). -/
def fwForget (d : Dev) : Dev :=
  { d.put F.MGMT_WCHAIN_STS_ACTIVE 0 with mg := { d.mg with chainC := [], genesis := true, due := [] } }

/-- A mailbox operation completes (R403). -/
def mboxFinish (d : Dev) (result : Nat) : Dev :=
  let d := (d.put F.MGMT_MBOX_STS_RESULT result).put F.MGMT_MBOX_STS_TAG (d.get F.MGMT_MBOX_CMD_TAG)
  let d := (d.put F.MGMT_MBOX_STS_RSP_LENGTH d.mg.rsp.length).put F.MGMT_MBOX_STS_BUSY 0
  let d := forN 2 d (fun d k => d.put F.MGMT_MBOX_RSP_ARG (d.mg.rspArgs.getD k 0) 0 k)
  let d := forN ((d.mg.rsp.length + 3) / 4) d (fun d k =>
    d.put F.MGMT_MBOX_DATA (leVal ((d.mg.rsp.drop (4 * k)).take 4)) 0 k)
  { d with mg := { d.mg with rsp := [], rspArgs := [], result := 0, served := false } }.irq .mgmt 0 0 0

/-- WATCHDOG_EXPIRE (R387). -/
def watchdog (d : Dev) : Dev :=
  if d.get F.MGMT_FW_STS_STATE ≠ 1 then d
  else
    let d := if d.mg.startAt + 60000000000 ≤ d.house then d.put F.MGMT_FW_STS_RESTARTS 0 else d
    let d := ((d.unhealthy.put F.MGMT_FW_STS_STATE 2).put F.MGMT_RESET_CAUSE_CAUSE 4).irq .mgmt 0 0 1
    { d.fwForget with mg := { d.fwForget.mg with stopAt := some d.house } }

/-- A firmware restart (R388): the cores, their memory, the bus matrix and the mailbox are reset. -/
def fwRestart (d : Dev) (cause : Nat) : Dev :=
  let d := d.unhealthy.fwForget
  let d := if d.flag F.MGMT_MBOX_STS_BUSY then ({ d with mg := { d.mg with rsp := [], rspArgs := [] } } : Dev).mboxFinish mbAborted else d
  let d := (d.put F.MGMT_FW_STS_STATE 0).put F.MGMT_FW_STS_RESTARTS (min 3 (d.get F.MGMT_FW_STS_RESTARTS + 1))
  let d := (d.put F.MGMT_RESET_CAUSE_CAUSE cause).put F.MGMT_MATRIX_CTL_REMAP 0
  { d with mg := { d.mg with stopAt := none, cause := cause } }

/-- FW_AUTO_RESTART (R387). -/
def autoRestart (d : Dev) : Dev :=
  match d.mg.stopAt with
  | some t0 =>
    if d.flag F.MGMT_FW_CTL_WDOG_AUTO && t0 + 100000000 ≤ d.house && d.get F.MGMT_FW_STS_RESTARTS < 3 then d.fwRestart 4 else d
  | none => d

/-- FW_RESTART by the host (R388). -/
def hostRestart (d : Dev) : Dev :=
  let d := if d.get F.MGMT_FW_STS_STATE = 1 && d.mg.startAt + 60000000000 ≤ d.house then d.put F.MGMT_FW_STS_RESTARTS 0 else d
  d.fwRestart 5

/-- The keys show in KEY_STS (R405). -/
def showKeys (d : Dev) : Dev :=
  ((d.putB F.MGMT_KEY_STS_PROV_HELD d.keys.prov.isSome).put F.MGMT_KEY_STS_TABLE_GEN ((d.keys.table.head?.map (·.1)).getD 0)).put
    F.MGMT_KEY_STS_HOUSE_GEN ((d.keys.house.head?.map (·.1)).getD 0)

/-- BOOT_REC shows in INSTALL_STS and MIN_SEC_VER. -/
def showBoot (d : Dev) (b : BootRec) : Dev :=
  ((d.put F.MGMT_INSTALL_STS_JOURNAL b.journal).put F.MGMT_INSTALL_STS_TARGET b.target).put F.MGMT_MIN_SEC_VER b.minSec

/-- Firmware starts the data plane once after a device reset (R462): it votes for every domain and wakes them all; without
XO156 it wakes none (R441). -/
def startPlane (d : Dev) : Dev :=
  if d.mg.started then d
  else if !d.flag F.TIME_STS_XO_OK then d.mgmtOnly
  else
    let d := { d with mg := { d.mg with started := true } }
    let d := forN 35 d (fun d x => d.fwVote x 0 true)
    forN 35 (d.fwVote 34 2 true) (fun d x => d.wakeFrom x 3 0)

/-- ENGINE_GROUP_RELEASE (R392, R450): a set that matches removes the fence of the start and that of a failed digest. -/
def groupLoad (d : Dev) (g : Nat) (digest : List Byte) (ver build : Nat) (ok : Bool) : Dev :=
  if !d.fwUp then d
  else
    let es := (List.range 8).map (8 * g + ·)
    if ok then
      let d := if d.mg.kernel.isEmpty then { d with mg := { d.mg with kernel := digest } } else d
      es.foldl (fun d n =>
        let d := (d.put F.ENGINE_KERNEL_VER_VERSION ver n).put F.ENGINE_KERNEL_VER_BUILD build n
        d.dropCause .engine n 0 (fun r => r.cause = cKernel || (r.cause = cFirmware && r.detail = 1))) d
    else
      es.foldl (fun d n =>
        if d.hasCause .engine n 0 cKernel || (d.recs .engine n).any (fun r => r.cause = cFirmware && r.detail = 1) then
          d.fenceRaise .engine n 0 cKernel 0
        else d) d

/-- ENGINE_GROUP_RELOAD (R393): a group that has woken checks its reloaded set. -/
def groupReload (d : Dev) (g : Nat) (ok : Bool) : Dev :=
  if ok || !d.domUp (16 + g) then d
  else ((List.range 8).map (8 * g + ·)).foldl (fun d n => d.fenceRaise .engine n 0 cKernel 0) d

/-! Certificates and quotes (R396, R397). -/

def identityPk : List Byte := (List.range 1952).map (fun i => BitVec.ofNat 8 (Config.identityKey i))

/-- An object of GET_CERT (R396). -/
def certObject (d : Dev) (madeAt k : Nat) : List Byte :=
  if k = 0 then
    leBytes 4 0x31434451 ++ leBytes 4 (d.word 0x40).toNat ++ leBytes 8 Config.serial ++ identityPk ++ List.replicate 16 0
      ++ (List.range 3309).map (fun i => BitVec.ofNat 8 (Config.deviceSig i))
  else if k = 1 then
    leBytes 4 0x31435751 ++ leBytes 4 0 ++ leBytes 8 madeAt ++ devId
      ++ (List.range 1952).map (fun i => BitVec.ofNat 8 (Config.witnessKey i))
      ++ (List.range 3309).map (fun i => BitVec.ofNat 8 (Config.witnessSig i))
  else identityPk

/-- CONFIG_DIGEST (R397). -/
def configDigest (d : Dev) (n : Nonvolatile) : List Byte :=
  shake256 (n.fuseRead 0 128 ++ leBytes 4 n.boot.minSec ++ leBytes 1 (if d.debugOpen then 1 else 0)
    ++ leBytes 1 (d.get F.MGMT_KEY_STS_TABLE_GEN) ++ leBytes 1 (d.get F.MGMT_KEY_STS_HOUSE_GEN)
    ++ leBytes 1 (d.get F.MGMT_KEY_STS_PROV_HELD)) 32

/-- The message of a quote (R397). -/
def quoteMessage (d : Dev) (n : Nonvolatile) (nonce : List Byte) : List Byte :=
  leBytes 4 0x31544151 ++ leBytes 1 (if d.debugOpen then 3 else 1) ++ leBytes 1 (d.get F.MGMT_FW_STS_SLOT)
    ++ leBytes 1 (d.get F.TIME_STS_LOCKED + 2 * d.get F.MGMT_FW_STS_FALLBACK) ++ leBytes 1 0
    ++ leBytes 1 (d.act F.DEAL_SEAT_CFG_TABLE) ++ leBytes 1 (d.act F.DEAL_SEAT_CFG_SEAT) ++ leBytes 6 0 ++ leBytes 8 d.house
    ++ nonce ++ devId ++ (d.mg.hdr.drop 32).take 64 ++ leBytes 4 (d.get F.MGMT_ROM_VER) ++ leBytes 4 (d.get F.MGMT_IMAGE_VER)
    ++ leBytes 4 (d.get F.MGMT_SEC_VER) ++ leBytes 4 n.boot.minSec
    ++ (d.mg.kernel ++ List.replicate (32 - d.mg.kernel.length) 0).take 32 ++ d.configDigest n ++ List.replicate 24 0

/-- Request bytes in MBOX_DATA. -/
def mboxBytes (d : Dev) (n : Nat) : List Byte :=
  ((List.range ((n + 3) / 4)).flatMap (fun k => leBytes 4 (d.get F.MGMT_MBOX_DATA 0 k))).take n

/-- The result of the operation in progress, with its response. -/
def mboxResult (d : Dev) (result : Nat) (args : List Nat) (rsp : List Byte) : Dev :=
  { d with mg := { d.mg with result := result, rspArgs := args, rsp := rsp, served := true } }

/-- The mailbox is served: by firmware, or by the boot ROM in RECOVERY (R403). -/
def serving (d : Dev) : Bool := d.fwUp || d.get F.MGMT_FW_STS_STATE = 3

end Dev

namespace State

/-- BOOT_REC is written. -/
def setBoot (s : State) (b : BootRec) : State := { s with nv := { s.nv with boot := b }, dev := s.dev.showBoot b }

/-- A result without an effect. -/
def answer (s : State) (result : Nat) (args : List Nat := []) (rsp : List Byte := []) : State :=
  { s with dev := s.dev.mboxResult result args rsp }

/-- BOOT_ROM_START (R391): the boot ROM runs while the cores are in it. -/
def bootRun (s : State) (xo : Option Int) : State :=
  let d := s.dev
  if d.get F.MGMT_FW_STS_STATE ≠ 0 then s
  else
    let n := s.nv.increment 1
    let n := if d.mg.cause = 2 || d.mg.cause = 3 then n.increment 2 else n
    let n := if n.keysMade then n else { n with keysMade := true, madeAt := d.house }
    let b := n.boot
    let n := if b.journal = 1 || b.journal = 2 then { n with boot := { b with journal := 3 } } else n
    let d := match xo with
      | some x => if d.mg.started then d else (d.put F.TIME_XO_PPB (unsgn 32 (max (-2147483648) (min x 2147483647)))).put F.TIME_STS_XO_OK 1
      | none => d
    let d := ((d.put F.MGMT_RESET_CAUSE_CAUSE d.mg.cause).put F.MGMT_BOOTS ((n.count 1).getD 0 % 2 ^ 32)).put
      F.MGMT_LOCKSTEP_RESETS ((n.count 2).getD 0 % 2 ^ 32)
    let d := (d.put F.MGMT_ROM_VER (Config.romVer % 2 ^ 32)).showBoot n.boot
    let d := ({ d with keys := n.keys } : Dev).showKeys
    let first := if d.flag F.MGMT_BOOT_CTL_OVERRIDE then d.get F.MGMT_BOOT_CTL_SLOT else n.boot.active
    let d := (d.put F.MGMT_BOOT_CTL_OVERRIDE 0).put F.MGMT_FW_STS_FALLBACK 0
    let why := n.slotFail first
    let d := d.put F.MGMT_FW_STS_FAIL_WHY why
    let slot := if why = 0 then some first else if n.slotFail (1 - first) = 0 then some (1 - first) else none
    match slot with
    | none => { s with nv := n, dev := (d.put F.MGMT_FW_STS_STATE 3).mgmtOnly }
    | some k =>
      let hdr := n.flashRead (k * slotSize) 96
      let word (o : Nat) : Nat := leVal ((hdr.drop o).take 4)
      let d := ((d.putB F.MGMT_FW_STS_FALLBACK (why ≠ 0)).put F.MGMT_FW_STS_SLOT k).put F.MGMT_FW_STS_STATE 1
      let d := ((d.put F.MGMT_IMAGE_VER (word 8)).put F.MGMT_SEC_VER (word 12)).put F.MGMT_MATRIX_CTL_REMAP 1
      let (w, d) := d.draw
      let d := (d.put F.MGMT_WDOG_MS_MS (10 + w % 991)).put F.GLOBAL_STS_FW_HEALTHY 1
      let d := ({ d with mg := { d.mg with hdr := hdr, startAt := d.house } } : Dev).irq .mgmt 0 0 2
      { s with nv := n, dev := d.startPlane }

/-! Mailbox operations (R394 to R398, R403): what firmware does, and the result it will report. -/

/-- GET_INFO. -/
def opInfo (s : State) : State :=
  s.answer mbOk [s.dev.get F.MGMT_IMAGE_VER, s.dev.get F.MGMT_SEC_VER] (s.nv.flashRead 0 32 ++ s.nv.flashRead slotSize 32)

/-- INSTALL_BEGIN. -/
def opBegin (s : State) : State :=
  let len := s.dev.get F.MGMT_MBOX_ARG 0 0
  if len + headerSize > slotSize then s.answer mbArg
  else
    let s := s.setBoot { s.nv.boot with journal := 1, target := 1 - s.nv.boot.active }
    let d := s.dev.put F.MGMT_INSTALL_BYTES 0
    ({ s with dev := { d with mg := { d.mg with installLen := len, chunks := [], erased := [] } } } : State).answer mbOk

/-- INSTALL_DATA: the sector of a first chunk is erased; programming clears bits (log entry 19). -/
def opData (s : State) (ok : Bool) : State :=
  let d := s.dev
  let off := d.get F.MGMT_MBOX_ARG 0 0
  if s.nv.boot.journal ≠ 1 then s.answer mbState
  else if off % 512 ≠ 0 || off ≥ headerSize + d.mg.installLen || d.get F.MGMT_MBOX_CMD_LENGTH ≠ 512 then s.answer mbArg
  else
    let base := s.nv.boot.target * slotSize
    let sector := off / 65536
    let n := if d.mg.erased.contains sector then s.nv
      else { s.nv with flash := s.nv.flash.filter (fun q => q.1 < base + sector * 65536 || base + (sector + 1) * 65536 ≤ q.1) }
    let d := { d with mg := { d.mg with erased := addOnce d.mg.erased sector } }
    if ok then
      let n := ((d.mboxBytes 512).zipIdx).foldl (fun (n : Nonvolatile) b =>
        n.setFlash (base + off + b.2) (b.1 &&& n.flashByte (base + off + b.2))) n
      let d := { d with mg := { d.mg with chunks := addOnce d.mg.chunks (off / 512) } }
      let d := d.put F.MGMT_INSTALL_BYTES (512 * d.mg.chunks.length)
      ({ s with nv := n, dev := d } : State).answer mbOk
    else
      let n := (List.range 512).foldl (fun (n : Nonvolatile) i =>
        n.setFlash (base + off + i) (BitVec.ofNat 8 (Config.freeValue (d.draws + i)))) n
      let d := { d with draws := d.draws + 512, mg := { d.mg with chunks := d.mg.chunks.filter (· ≠ off / 512) } }
      ({ s with nv := n, dev := d } : State).answer mbFlash

/-- INSTALL_COMMIT up to its verification. -/
def opCommit (s : State) : State :=
  let all := (headerSize + s.dev.mg.installLen + 511) / 512
  if s.nv.boot.journal ≠ 1 || !(List.range all).all (fun k => s.dev.mg.chunks.contains k) then s.answer mbState
  else (s.setBoot { s.nv.boot with journal := 2 }).answer mbOk

/-- INSTALL_COMMIT: the target is verified, and the journal and the active slot are written together (R394). -/
def endCommit (s : State) : State :=
  let b := s.nv.boot
  if b.journal ≠ 2 then s
  else
    let why := s.nv.slotFail b.target
    if why = 0 then
      let s := s.setBoot { b with journal := 4, active := b.target }
      { s with dev := s.dev.irq .mgmt 0 0 3 }
    else (s.setBoot { b with journal := 5 }).answer (if why = 4 then mbRollback else mbVerify)

/-- INSTALL_ABORT. -/
def opAbort (s : State) : State :=
  if s.nv.boot.journal = 1 || s.nv.boot.journal = 2 then (s.setBoot { s.nv.boot with journal := 0 }).answer mbOk
  else s.answer mbState

/-- INSTALL_CONFIRM. -/
def opConfirm (s : State) : State :=
  let b := s.nv.boot
  if b.journal = 4 && s.dev.get F.MGMT_FW_STS_SLOT = b.target then
    (s.setBoot { b with journal := 6, minSec := max b.minSec (s.dev.get F.MGMT_SEC_VER) }).answer mbOk
  else s.answer mbState

/-- ATTEST_QUOTE: the signature is a free value. -/
def opQuote (s : State) : State :=
  if s.dev.get F.MGMT_MBOX_CMD_LENGTH ≠ 32 then s.answer mbArg
  else
    let msg := s.dev.quoteMessage s.nv (s.dev.mboxBytes 32)
    let (sig, d) := s.dev.drawBytes 3309
    ({ s with dev := { d with mg := { d.mg with quote := msg ++ sig ++ List.replicate 19 0 } } } : State).answer mbOk [3584]

/-- ATTEST_READ. -/
def opRead (s : State) : State :=
  let off := s.dev.get F.MGMT_MBOX_ARG 0 0
  if off % 512 ≠ 0 || off ≥ 3584 then s.answer mbArg
  else if s.dev.mg.quote.isEmpty then s.answer mbState
  else s.answer mbOk [] ((s.dev.mg.quote.drop off).take 512)

/-- GET_CERT. -/
def opCert (s : State) : State :=
  let k := s.dev.get F.MGMT_MBOX_ARG 0 0
  let off := s.dev.get F.MGMT_MBOX_ARG 0 1
  let o := s.dev.certObject s.nv.madeAt k
  if k > 2 || off % 512 ≠ 0 || off ≥ o.length then s.answer mbArg
  else s.answer mbOk [o.length] ((o.drop off).take 512)

/-- Bytes of an owner field of the fuses by its offset, and the bit of FLAGS that marks it (R398). -/
def fuseField (off : Nat) : Option (Nat × Nat) :=
  if off = 48 then some (32, 1) else if off = 80 then some (32, 2) else if off = 112 then some (1, 0) else none

/-- FUSE_WRITE: an owner field is programmed once. -/
def opFuse (s : State) : State :=
  let off := s.dev.get F.MGMT_MBOX_ARG 0 0
  match fuseField off with
  | none => s.answer mbArg
  | some (len, bit) =>
    let bs := s.dev.mboxBytes len
    let flags := (s.nv.fuseByte 112).toNat
    if s.dev.get F.MGMT_MBOX_CMD_LENGTH ≠ len || (len = 1 && bs ≠ [1]) then s.answer mbArg
    else if bitsOf flags bit 1 = 1 then s.answer mbState
    else
      let n := if len = 1 then s.nv else (bs.zipIdx).foldl (fun (n : Nonvolatile) b => n.setFuse (off + b.2) b.1) s.nv
      ({ s with nv := n.setFuse 112 (BitVec.ofNat 8 (flags + 2 ^ bit)) } : State).answer mbOk

/-- Operations the boot ROM serves in RECOVERY. -/
def inRecovery (op : Nat) : Bool := 1 ≤ op && op ≤ 5

/-- An operation is carried out. `ok`: the flash erases and programs. -/
def serve (s : State) (ok : Bool) : State :=
  let op := s.dev.get F.MGMT_MBOX_CMD_OPCODE
  let known : Option (State → State) :=
    if op = 0x01 then some opInfo else if op = 0x02 then some opBegin else if op = 0x03 then some (fun s => s.opData ok)
    else if op = 0x04 then some opCommit else if op = 0x05 then some opAbort else if op = 0x06 then some opConfirm
    else if op = 0x10 then some opQuote else if op = 0x11 then some opRead else if op = 0x12 then some opCert
    else if op = 0x20 then some opFuse else none
  match known with
  | none => s.answer mbOpcode
  | some f => if s.dev.fwUp || inRecovery op then f s else s.answer mbUnsupported

/-- MBOX_DOORBELL (R403): refused while an operation is in progress. -/
def ring (s : State) (ok : Bool) : State :=
  if s.dev.flag F.MGMT_MBOX_STS_BUSY then { s with dev := s.dev.put F.MGMT_MBOX_STS_REFUSED 1 }
  else
    let d := s.dev.put F.MGMT_MBOX_STS_BUSY 1
    let s : State := { s with dev := { d with mg := { d.mg with served := false } } }
    if s.dev.serving then s.serve ok else s

/-- The doorbell of one operation: the host has set its opcode. -/
def ringFor (op : Nat) (ok : Bool) (s : State) : State :=
  if s.dev.reachable && s.dev.get F.MGMT_MBOX_CMD_OPCODE = op then s.ring ok else s

/-- MBOX_DONE (R403). -/
def mboxDone (s : State) : State :=
  if !s.dev.flag F.MGMT_MBOX_STS_BUSY || !s.dev.serving then s
  else
    let s := if s.dev.mg.served then s else s.serve true
    let s := if s.dev.get F.MGMT_MBOX_CMD_OPCODE = 0x04 && s.dev.mg.result = mbOk then s.endCommit else s
    { s with dev := s.dev.mboxFinish s.dev.mg.result }

end State

/-- WATCHDOG_EXPIRE (R387). -/
def execWatchdogExpire (t : Nat) (s : State) := s.onDev (fun d => (d.atTime t).watchdog)
/-- FW_AUTO_RESTART (R387). -/
def execFwAutoRestart (t : Nat) (s : State) := s.onDev (fun d => (d.atTime t).autoRestart)
/-- FW_RESTART (R388). -/
def execFwRestart (t : Nat) (s : State) := s.onDev (fun d => (d.atTime t).gate (Dev.mgmtPage 0) 0x40 (·.hostRestart))
/-- BOOT_ROM_START (R391). -/
def execBootRomStart (t : Nat) (xo : Option Int) (s : State) := s.onAll (fun s => (s.atTime t).bootRun xo)
/-- ENGINE_GROUP_RELEASE (R392). -/
def execEngineGroupRelease (t : Nat) (g : Fin 8) (digest : List Byte) (ver build : BitVec 16) (ok : Bool) (s : State) :=
  s.onPow (fun d => (d.atTime t).groupLoad g digest ver.toNat build.toNat ok)
/-- ENGINE_GROUP_RELOAD (R393). -/
def execEngineGroupReload (t : Nat) (g : Fin 8) (ok : Bool) (s : State) := s.onPow (fun d => (d.atTime t).groupReload g ok)
/-- GET_INFO (R403). -/
def execGetInfo (t : Nat) (s : State) := s.onAll (fun s => (s.atTime t).ringFor 0x01 true)
/-- INSTALL_BEGIN (R394). -/
def execInstallBegin (t : Nat) (s : State) := s.onAll (fun s => (s.atTime t).ringFor 0x02 true)
/-- INSTALL_DATA (R394). -/
def execInstallData (t : Nat) (ok : Bool) (s : State) := s.onAll (fun s => (s.atTime t).ringFor 0x03 ok)
/-- INSTALL_COMMIT (R394). -/
def execInstallCommit (t : Nat) (s : State) := s.onAll (fun s => (s.atTime t).ringFor 0x04 true)
/-- INSTALL_ABORT (R394). -/
def execInstallAbort (t : Nat) (s : State) := s.onAll (fun s => (s.atTime t).ringFor 0x05 true)
/-- INSTALL_CONFIRM (R394). -/
def execInstallConfirm (t : Nat) (s : State) := s.onAll (fun s => (s.atTime t).ringFor 0x06 true)
/-- ATTEST_QUOTE (R397). -/
def execAttestQuote (t : Nat) (s : State) := s.onAll (fun s => (s.atTime t).ringFor 0x10 true)
/-- ATTEST_READ (R403). -/
def execAttestRead (t : Nat) (s : State) := s.onAll (fun s => (s.atTime t).ringFor 0x11 true)
/-- GET_CERT (R396). -/
def execGetCert (t : Nat) (s : State) := s.onAll (fun s => (s.atTime t).ringFor 0x12 true)
/-- FUSE_WRITE (R398). -/
def execFuseWrite (t : Nat) (s : State) := s.onAll (fun s => (s.atTime t).ringFor 0x20 true)
/-- MBOX_DONE (R403). -/
def execMboxDone (t : Nat) (s : State) := s.onAll (fun s => (s.atTime t).mboxDone)

end Sys2Proof.Machine
end

