-- ==== Sys2Proof/Machine/View.lean ====
section
/-! DEFINITION. What a word of a page reads (R57 to R65): the stored word, and the fields that hardware works out when
they are read. -/
namespace Sys2Proof.Machine

/-- The index of an array word at `base + stride * k`, for `k` below `n`. -/
def arrAt (off base stride n : Nat) : Option Nat :=
  if base ≤ off && (off - base) % stride = 0 && (off - base) / stride < n then some ((off - base) / stride) else none

/-- A number of set bits for the numbers below `n`. -/
def maskOf (n : Nat) (p : Nat → Bool) : Nat := (List.range n).foldl (fun m i => if p i then m + 2 ^ i else m) 0

/-- A Bool as a bit at a place. -/
def bitAt (p : Bool) (n : Nat) : Nat := if p then 2 ^ n else 0

namespace Dev

/-! GLOBAL. -/

/-- The LUT bank the window shows: kind, index and bank; none for an index without a table (R83). -/
def lutSel (d : Dev) : Option (Nat × Nat × Nat) :=
  let kind := d.get F.GLOBAL_LUT_WIN_KIND
  let i := d.get F.GLOBAL_LUT_WIN_INDEX
  if kind = 1 && i > 63 then none else some (kind, i, d.get F.GLOBAL_LUT_WIN_BANK)

/-- The bank a table uses, under the active copy or the staged hand. -/
def lutBank (d : Dev) (staged : Bool) (kind i : Nat) : Nat :=
  let f := if kind = 0 then F.LAYER_LUT_CTL_BANK else F.HEAD_POST_LUT_BANK
  if staged then d.get f i else d.act f i

def lutActive (d : Dev) (q : Nat × Nat × Nat) : Bool := d.lutBank false q.1 q.2.1 = q.2.2
/-- A sealed hand selects the bank as the next active one (R76). -/
def lutLocked (d : Dev) (q : Nat × Nat × Nat) : Bool :=
  d.hand.pending && d.lutBank true q.1 q.2.1 = q.2.2

def viewGlobal (d : Dev) (off v : Nat) : Nat :=
  if off = 0x44 then putBits (putBits v 5 1 (d.get F.TIME_STS_LOCKED)) 4 1 (d.get F.DEBUG_DBG_STS_OPEN)
  else if off = 0x48 then
    bitAt (d.flag F.NVM_STS_BUSY) 0 + bitAt d.store.pwrfail 1 + bitAt (d.flag F.GLOBAL_NVM_STS_REJECTED) 2
  else if off = 0x4C then d.house % 2 ^ 32
  else if off = 0x50 then d.house / 2 ^ 32 % 2 ^ 32
  else if off = 0x60 then
    match d.lutSel with
    | some q => v + bitAt (d.lutActive q) 12 + bitAt (d.lutLocked q) 13
    | none => v
  else if off = 0x80 then d.irqClass
  else match arrAt off 0x200 4 55 with
    | some k => d.irqSum k
    | none => v

/-! TIME, DEAL and POWER. -/

/-- The greatest carry in force for a plane of a head whose timing runs (R249). -/
def carryNow (d : Dev) : Nat :=
  d.heads.foldl (fun n p => if p.2.running then (p.2.planes.filter (fun q => !q.held)).foldl (fun n q => max n (d.carryFor p.1 q)) n
    else n) 0

def viewTime (d : Dev) (off v : Nat) : Nat :=
  if off = 0x40 then v + bitAt (d.carryNow ≠ 0) 3
  else if off = 0x44 then d.house % 2 ^ 32
  else if off = 0x48 then d.house / 2 ^ 32 % 2 ^ 32
  else if off = 0x64 then min d.carryNow (2 ^ 32 - 1)
  else if off = 0x68 then d.holdoverSec
  else v

/-- The hand has a domain still to apply. -/
def pendingHead (d : Dev) (h : Nat) : Bool := d.hand.pending && d.hand.heads.contains h
def pendingCtx (d : Dev) (n : Nat) : Bool := d.hand.pending && d.hand.ctxs.contains n

def viewDeal (d : Dev) (off v : Nat) : Nat :=
  if off = 0x8C then maskOf 32 d.pendingHead
  else if off = 0x90 then maskOf 32 (fun i => d.pendingHead (32 + i))
  else match arrAt off 0xA0 4 8 with
    | some k => maskOf 32 (fun i => d.pendingCtx (32 * k + i))
    | none => v

def viewPower (d : Dev) (off v : Nat) : Nat :=
  match arrAt off 0x200 4 36 with
  | some x => d.votes x
  | none => v

/-! ENGINE and LAYER. -/

/-- Bytes of line buffer allotted on an engine under the applied hand (R199). -/
def engineBytes (d : Dev) (n : Nat) : Nat :=
  let es := d.engineLayers n
  es.foldl (fun s q =>
    s + (if q.2.1.strip then
        (if lineRows q.2.1 * q.2.2 * 6 ≤ lineShare es q.2.1 then lineRows q.2.1 * q.2.2 * 6 else lineShare es q.2.1)
      else lineRows q.2.1 * q.2.2 * 6)) 0

def viewEngine (d : Dev) (n off v : Nat) : Nat :=
  if off = 0x40 then loadShown (d.draws + d.house) (d.engineLoad n) + bitsOf v 16 14 * 2 ^ 16
  else if off = 0x44 then d.engineBytes n
  else if off = 0x48 then
    (d.engineLayers n).length + 2 ^ 16 * ((List.range 256).filter (fun c =>
      d.actFlag F.INGEST_FRESH_CTL_HB_EN c && d.act F.INGEST_HB_ENGINE_ENGINE c = n)).length
  else if off = F.ENGINE_JOB_STS_KERNEL.off then putBits v 4 4 (d.kernelNow n)
  else if off = 0x74 then (sget (fun _ => (0 : Word)) d.coefs (n / 8 * 4096 + d.get F.ENGINE_COEF_IDX_WORD n)).toNat
  else if off = 0x78 then v + 2 ^ 16 * maskOf 16 (fun s => (d.setsNamed (n / 8)).contains s)
  else v

/-- Strips of a layer under the applied hand; 0 for a layer that does not run in strips (R200). -/
def layerStripCount (d : Dev) (l : Nat) : Nat :=
  match (d.layerEngines l).head? with
  | none => 0
  | some n =>
    let es := d.engineLayers n
    match es.find? (fun q => q.1 = l) with
    | some q =>
      let r := d.checkRect q.2.1 (d.act F.LAYER_SRC_CTX_CONTEXT l) none
      ((layerStrips es q.2.1 q.2.2 (q.2.1.out r.1 r.2).1).getD []).length
    | none => 0

def viewLayer (d : Dev) (l off v : Nat) : Nat :=
  if off = 0x180 then
    let n := d.layerStripCount l
    bitsOf v 0 1 + bitAt (n ≠ 0) 1 + n % 256 * 2 ^ 8
  else v

/-! Frame store. -/

/-- The address and length of an owner's slab map (R155). -/
def mapWhere (d : Dev) (o : Nat) : Nat := if (d.map o).isEmpty then 0 else d.mapAddr o

def viewTalon (d : Dev) (off v : Nat) : Nat :=
  let o := d.get F.TALON_MAP_QUERY_OWNER
  if off = 0x40 then d.freeCount
  else if off = 0x50 then
    let s := d.get F.TALON_OWNER_QUERY_SLAB
    if s ≥ slabCount then 0xFFFF else (d.ownerOf s).1 + 2 ^ 16 * (d.ownerOf s).2
  else if off = 0x58 then d.mapWhere o % 2 ^ 32
  else if off = 0x5C then d.mapWhere o / 2 ^ 32
  else if off = 0x60 then (d.map o).length
  else match arrAt off 0x90 4 8 with
    | some c => d.classAlloc c
    | none => v

def viewRecorder (d : Dev) (off v : Nat) : Nat :=
  if off = 0x44 then v + bitAt (d.enabled .recorder 0 && d.actFlag F.RECORDER_CFG_EN && d.recSize ≠ 0) 0
  else if off = 0x58 then d.mapWhere ownRecorder % 2 ^ 32
  else if off = 0x5C then d.mapWhere ownRecorder / 2 ^ 32
  else v

/-! HEAD and senders. -/

/-- The line a head scans out now (R239, R264). -/
def lineNow (d : Dev) (h : Nat) : Nat :=
  let hs := d.headSt h
  let g := d.timing h
  if !hs.running || hs.virt then 0
  else
    let n := (d.house - hs.l0) * g.num * g.vtot * ((1000000000 : Int) + d.headDelta h).toNat / max 1 (g.den * 1000000000000000000)
    min n (g.vact + hs.blank - 1)

def viewHead (d : Dev) (h p off v : Nat) : Nat :=
  if p = 0 then (if off = 0x40 then v + d.lineNow h % 65536 * 2 ^ 16 else v)
  else if p = 1 then
    (if off = 0x5C then maskOf 16 (fun k => (d.activeSlots h).any (fun q => q.1 = k)) else v)
  else if p = 2 then
    (if off = 0x6C then (List.range 4).foldl (fun n g => n + d.slabsOf (ownMeld h g)) 0 else v)
  else if off = 0x40 then v + min 255 (d.timing h).cap * 2 ^ 24
  else if off = 0x5C then maskOf 32 (fun s => d.act F.SENDV_CFG_EN (s / 16) (s % 16) = 1 && d.act F.SENDV_CFG_HEAD (s / 16) (s % 16) = h)
  else if off = 0x60 then
    maskOf 32 (fun s => d.act F.SENDV_CFG_EN (2 + s / 16) (s % 16) = 1 && d.act F.SENDV_CFG_HEAD (2 + s / 16) (s % 16) = h)
  else if off = 0x64 then bitAt (d.headSt h).pps.isSome 0
  else match arrAt off 0x50 4 3 with
    | some k => maskOf 32 (fun i => (d.headPorts h).contains (32 * k + i))
    | none => v

def viewSendV (d : Dev) (p off v : Nat) : Nat :=
  match arrAt off 0x40 48 16 with
  | some k =>
    v + bitAt (d.netUp (d.act F.SENDV_CFG_NETIF_P1 p k)) 1
      + bitAt (d.act F.SENDV_CFG_DUAL_PATH p k = 1 && d.netUp (d.act F.SENDV_CFG_NETIF_P2 p k)) 2
  | none => v

def viewSendT (d : Dev) (p off v : Nat) : Nat :=
  match arrAt off 0x40 48 16 with
  | some k =>
    v + bitAt (d.netUp (d.act F.SENDT_CFG_NETIF_P1 p k)) 1
      + bitAt (d.act F.SENDT_CFG_DUAL_PATH p k = 1 && d.netUp (d.act F.SENDT_CFG_NETIF_P2 p k)) 2
  | none => v

/-! AUDIO. -/

def viewAudio (d : Dev) (p off v : Nat) : Nat :=
  if p = 2 then
    match arrAt off 0x40 4 16 with
    | some o =>
      let direct := (d.directIn o).isSome && d.audioRuns
      bitAt (direct || (d.actFlag F.AUDIO_AOUT_CFG_EN 0 o && d.en .audio 0)) 0 + bitAt direct 1
    | none => v
  else if p = 3 then (if off = 0x44 then d.inslotWord else v)
  else if p = 4 then
    match arrAt off 0x40 4 128 with
    | some i => putBits (putBits v 0 3 (d.rxState i)) 16 8 (d.rx i).rot
    | none =>
      let x := d.rx d.statSel
      match arrAt off 0x304 4 9 with
      | some 0 => x.fifo.length % 65536
      | some 1 => x.written % 2 ^ 32
      | some 2 => x.read % 2 ^ 32
      | some 3 => min x.under (2 ^ 32 - 1)
      | some 4 => min x.lapped (2 ^ 32 - 1)
      | some 5 => min x.repeated (2 ^ 32 - 1)
      | some 6 => min x.muted (2 ^ 32 - 1)
      | some 7 => min x.dropped (2 ^ 32 - 1)
      | some _ => x.rate
      | none => v
  else if p = 6 then
    match arrAt off 0x40 4 128 with
    | some i =>
      let on := d.actFlag F.AUDIO_TXS_CFG_EN 0 i && d.en .audio 0
      bitAt on 0 + bitAt (on && d.act F.AUDIO_TXS_CFG_KIND 0 i = 0 && d.embedMuted i) 1
    | none => v
  else v

/-! INGEST, WITNESS[64] and MGMT page 1. -/

/-- EDID_DATA shows the served table at EDID_IDX (R141); ANC_BASE the ring's slab (R118). -/
def viewIngest (d : Dev) (n off v : Nat) : Nat :=
  if off = 0x8C then (sget (fun _ => (0 : Word)) (d.ctx n).edidServed (d.get F.INGEST_EDID_IDX_WORD n)).toNat
  else if off = 0xC0 then (d.ancBase n).getD 0 % 2 ^ 32
  else if off = 0xC4 then (d.ancBase n).getD 0 / 2 ^ 32
  else v

def viewChain (d : Dev) (off v : Nat) : Nat :=
  if off = 0x58 then d.mapWhere ownWitness % 2 ^ 32
  else if off = 0x5C then d.mapWhere ownWitness / 2 ^ 32
  else if off = 0x60 then d.witCap
  else if off = 0x64 then v + bitAt (d.actFlag F.WITCHAIN_WCFG_STREAM_EN 64 && d.netUp (d.act F.WITCHAIN_STREAM_NET_NETIF 64)) 1
  else v

def viewMgmt (d : Dev) (off v : Nat) : Nat :=
  if off = 0x320 then d.sigWord.toNat else if off = 0x324 then bitAt d.sigGone 0 else v

def viewNvm (d : Dev) (off v : Nat) : Nat :=
  if off = 0xBC then
    let n := sget (fun _ => 0) d.store.fails (d.get F.NVM_PW_CTL_REGION)
    n + bitAt (8 ≤ n) 4
  else v

/-! Pages. -/

/-- The domain whose votes VOTE of an instance shows (R430, R434): its own; of the windows of a head that of the head. Blocks
whose logic R430 spreads over several domains have none, and show 0 (DESIGN CHOICE, log entry 252). -/
def voteDom (b : Blk) (i : Nat) : Option Nat := if b = .witness then some (24 + i / 16) else unitDom b i

/-- A header word (R65): shared by the pages of an instance. -/
def viewHeader (d : Dev) (r : PageRef) (off v : Nat) : Nat :=
  match off with
  | 0x008 => d.bitsAt (fenceKey r.blk r.inst r.page + 0x08) 0 1
  | 0x00C => d.stsWord r
  | 0x018 => (d.irqPend r).toNat
  | 0x01C => 0
  | 0x020 => d.causeWord r
  | 0x030 => (d.word (pageAddr r.blk r.inst 0 + 0x30)).toNat
  | 0x034 => (voteDom r.blk r.inst).elim 0 d.votes
  | _ => v

/-- A word below the snapshot region of a page. -/
def viewWord (d : Dev) (r : PageRef) (off : Nat) : Nat :=
  let v := (d.word (pgAddr r + off)).toNat
  if off < 0x40 then d.viewHeader r off v
  else if off ≥ 0x400 then v
  else match r.blk with
    | .global => d.viewGlobal off v
    | .mgmt => if r.page = 1 then d.viewMgmt off v else v
    | .time => if r.page = 0 then d.viewTime off v else v
    | .nvm => d.viewNvm off v
    | .deal => if r.page = 0 then d.viewDeal off v else v
    | .power => if r.page = 0 then d.viewPower off v else v
    | .ingest => d.viewIngest r.inst off v
    | .engine => d.viewEngine r.inst off v
    | .layer => d.viewLayer r.inst off v
    | .talon => d.viewTalon off v
    | .recorder => d.viewRecorder off v
    | .head => d.viewHead r.inst r.page off v
    | .sendV => d.viewSendV r.inst off v
    | .sendT => d.viewSendT r.inst off v
    | .audio => d.viewAudio r.page off v
    | .witChain => d.viewChain off v
    | _ => v

/-- A word of a page, its snapshot mirror included (R58). -/
def pageWord (d : Dev) (r : PageRef) (off : Nat) : Word :=
  if off ≥ 0xC00 then sget (fun _ => (0 : Word)) d.mirror (pgAddr r + off - 0xC00) else BitVec.ofNat 32 (d.viewWord r off)

end Dev
end Sys2Proof.Machine
end

