-- ==== Sys2Proof/Machine/Pages.lean ====
section
/-! DEFINITION. Interrupt words and MSI-X vectors (R65, R81), plain register writes (R59, R62), the LUT bank window (R75,
R76), the BAR2 aperture (R77 to R79), and the access-error log's clear (R83). -/
namespace Sys2Proof.Machine

/-- Size of the frame store (R143). -/
def storeSize : Nat := 0x2000000000

namespace Dev

/-! Interrupt words. -/

/-- Host accesses to the NVM page and window wait while a command of the store is in progress (R414). -/
def nvmHolds (d : Dev) (r : PageRef) : Bool := r.blk = .nvm && d.flag F.NVM_STS_BUSY
def holdAccess (d : Dev) (h : HeldAcc) : Dev := { d with store := { d.store with held := d.store.held ++ [h] } }

/-- A write of a header word, or its wait. -/
def headerWrite (d : Dev) (r : PageRef) (off : Nat) (v : Word) (f : Dev → Dev) : Dev :=
  d.headerGate r (fun d => if d.nvmHolds r then d.holdAccess ⟨true, pgAddr r + off, v⟩ else f d)

/-- MSIX_COALESCE_EXPIRE (R81): the held message leaves when its spacing has passed. -/
def coalExpire (d : Dev) (v : Nat) : Dev :=
  let last := sget (fun _ => 0) d.msiLast v
  if d.msiHeld.contains v && (last == 0 || last - 1 + d.get F.GLOBAL_IRQ_COAL_US * 1000 ≤ d.house) then
    ({ d with msiHeld := d.msiHeld.filter (· ≠ v) }).msixEmit v
  else d

/-- MSIX_UNMASK (R81): the vector's mask bit clears, and its pending message is sent. -/
def unmask (d : Dev) (v : Nat) : Dev :=
  let d := d.putAt (0x8000 + 16 * v + 12) 0 1 0
  if d.msiPending.contains v then ({ d with msiPending := d.msiPending.filter (· ≠ v) }).msixSend v else d

/-! Register words. -/

/-- Bits of a word that are RW: those of its row, but for DSC_EN on heads above 15 (R258). -/
def rwMask (r : PageRef) (w : WordRow) (off : Nat) : Nat :=
  if r.blk = .head && r.page = 3 && off = 0x80C && 16 ≤ r.inst then w.rw / 2 * 2 else w.rw

/-- A host write to a word by its access codes (R59). -/
def plainWrite (d : Dev) (r : PageRef) (off : Nat) (v : Word) : Dev :=
  match rowAt r.blk r.page off with
  | some w =>
    let a := pgAddr r + off
    let old := d.word a
    let rw := BitVec.ofNat 32 (rwMask r w off)
    d.setWord a (((old &&& ~~~ rw) ||| (v &&& rw)) &&& ~~~ (v &&& BitVec.ofNat 32 w.w1c))
  | none => d

/-- A write to the LO word of an RW pair is held; a write to its HI word takes both (R62). -/
def holdLo (d : Dev) (a : Nat) (v : Word) : Dev := { d with loHold := (a, v) :: d.loHold.filter (fun q => q.1 ≠ a) }
def pairHi (d : Dev) (r : PageRef) (off : Nat) (v : Word) : Dev :=
  let a := pgAddr r + off - 4
  let d := match d.loHold.find? (fun q => q.1 = a) with
    | some q => ({ d with loHold := d.loHold.filter (fun q => q.1 ≠ a) } : Dev).plainWrite r (off - 4) q.2
    | none => d
  ({ d with hiLatch := d.hiLatch.filter (fun q => q.1 ≠ pgAddr r + off) } : Dev).plainWrite r off v

def globalPage : PageRef := ⟨.global, 0, 0⟩

/-! The LUT bank window. -/

/-- Component and entry at a byte offset of the window (R75). -/
def lutPlace (kind off : Nat) : Option (Nat × Nat) :=
  if kind = 0 then (if off < 0x6000 then some (off / 0x2000, off % 0x2000 / 4 * 2) else none)
  else if off < 0xF000 ∧ off % 0x5000 / 4 ≤ 4096 then some (off / 0x5000, off % 0x5000 / 4) else none

/-- LUT_WINDOW_WRITE (R75, R76). -/
def lutWrite (d : Dev) (off : Nat) (v : Word) : Dev :=
  match d.lutSel with
  | none => d
  | some q =>
    match lutPlace q.1 off with
    | none => d
    | some (c, e) =>
      if d.lutActive q then d.logErr 5 (0xB00000 + off) true false none
      else if d.lutLocked q then d.logErr 2 (0xB00000 + off) true false none
      else if q.1 = 0 then
        (d.setLut q.1 q.2.1 q.2.2 c e (v.toNat % 65536)).setLut q.1 q.2.1 q.2.2 c (e + 1) (v.toNat / 65536)
      else d.setLut q.1 q.2.1 q.2.2 c e (v.toNat % 4096)

/-- A word of the window as read. -/
def lutRead (d : Dev) (off : Nat) : Word :=
  match d.lutSel with
  | none => 0
  | some q =>
    match lutPlace q.1 off with
    | none => 0
    | some (c, e) =>
      if q.1 = 0 then BitVec.ofNat 32 (d.lut q.1 q.2.1 q.2.2 c e + 65536 * d.lut q.1 q.2.1 q.2.2 c (e + 1))
      else BitVec.ofNat 32 (d.lut q.1 q.2.1 q.2.2 c e)

/-! BAR2. -/

/-- GLOBAL.BAR2_BASE (R77). -/
def bar2Base (d : Dev) : Nat :=
  d.get F.GLOBAL_BAR2_BASE_HI_BASE_HI * 2 ^ 32 + d.get F.GLOBAL_BAR2_BASE_LO_BASE_LO * 2 ^ 21

/-- BAR2 reaches the frame store: the memory switch is enabled (R67, R453), and no fence of the host path's tags is in
force (R491). -/
def bar2Open (d : Dev) : Bool :=
  d.enabled .memsw 0 && !(List.range 256).any (fun n =>
    d.ctxKind n = 11 && (d.recs .ingest n).any (fun c => c.cause = cLedger && c.detail = 18))

/-- The tile slot of a slab whose data lies at an address. -/
def tileAt (d : Dev) (a : Nat) : Option (Nat × Tile) :=
  let s := a / 0x200000
  d.tiles.find? (fun q => q.1 / 512 = s && slotAddr s (q.1 % 512) q.2.fmt.sectors ≤ a
    && a < slotAddr s (q.1 % 512) q.2.fmt.sectors + q.2.fmt.sectors * 512)

/-- A byte of the talon tables (R155); the old map of an owner stands beside the new one until its decrease is released. -/
def tableByte (d : Dev) (a : Nat) : Byte :=
  let o := a - 0x1FBF000000
  if o < 258048 then
    let q := d.ownerOf (o / 4)
    (leBytes 2 q.1 ++ leBytes 2 q.2).getD (o % 4) 0
  else
    match (d.maps.map (fun q => (d.mapAddr q.1, q.2)) ++ d.oldMaps.map (fun q => (q.2.2, q.2.1))).find?
        (fun q => q.1 ≤ a && a < q.1 + 2 * q.2.length) with
    | some q => (leBytes 2 ((q.2.getD ((a - q.1) / 2) none).getD 0)).getD ((a - q.1) % 2) 0
    | none => 0

/-- The byte at a frame-store address, and whether it is a free value: audio delay memory, whose layout the spec does not
give, and the kernel images and firmware tables, whose content it does not give (R143, R155). -/
def storeByte (d : Dev) (a : Nat) : Option Byte :=
  if a < 0x1F80000000 then
    let cls := (d.ownerOf (a / 0x200000)).1 / 0x1000
    if cls = 7 then none
    else if 4 ≤ cls then some (memGet d.bytes a)
    else match d.tileAt a with
      | some q => some ((storedBytes q.2.fmt q.2.pack q.2.data).getD (a - slotAddr (a / 0x200000) (q.1 % 512) q.2.fmt.sectors) 0)
      | none => some (memGet d.bytes a)
  else if a < 0x1FBF000000 then
    let m := a - 0x1F80000000
    some ((d.tile (slotKey (m / 0x4000) (m % 0x4000 / 32))).entry.getD (m % 32) 0)
  else if a < 0x1FC0000000 then some (d.tableByte a)
  else none

/-- Bytes of the frame store. -/
def storeRead (d : Dev) (a : Nat) : Nat → List Byte × Dev
  | 0 => ([], d)
  | n + 1 =>
    let r := storeRead d (a + 1) n
    match d.storeByte a with
    | some b => (b :: r.1, r.2)
    | none => (BitVec.ofNat 8 r.2.draw.1 :: r.1, r.2.draw.2)

/-- R161: the tile that holds an address shows POISON; an unreadable metadata entry is rewritten with STAMP 0. -/
def tilePoison (d : Dev) (a : Nat) : Dev :=
  if a < 0x1F80000000 then
    match d.tileAt a with
    | some q => d.setTile q.1 { q.2 with poison := true }
    | none => d
  else if a < 0x1FBF000000 then
    let m := a - 0x1F80000000
    let k := slotKey (m / 0x4000) (m % 0x4000 / 32)
    d.setTile k { d.tile k with poison := true, stamp := 0 }
  else d

/-- BAR2_READ (R72, R77, R78): a read waits while the host path has no free tag (R151). What scrubbing found bad, and a fenced
pseudo-channel, it meets as uncorrectable (R162, R163). -/
def bar2Read (d : Dev) (off n : Nat) (errs : MemErr) : Dev :=
  let a := d.bar2Base + off
  let err (d : Dev) (cause : Nat) := d.logErr cause off false true none
  if a + n > storeSize || !d.bar2Open then
    { err d 8 with resp := some (if d.flag F.GLOBAL_ERR_CTL_UR_EN then .unsupported else .bytes (List.replicate n 0xFF) false) }
  else if !d.tagFree reqBar2 then d
  else
    let lost := ((List.range n).map (a + ·)).find? (fun x =>
      d.pcFenced (pcOf x) || d.scrubBad.any (fun b => b / 32 = x / 32))
    let (bs, d) := d.storeRead a n
    let d := (d.transact reqBar2 n).corrected errs.ce
    match errs.ue, lost with
    | none, none => { d with resp := some (.bytes bs false) }
    | some b, _ => { err ((d.hbmError b).tilePoison b) 10 with resp := some (.bytes bs true) }
    | none, some x => { err (d.tilePoison x) 10 with resp := some (.bytes bs true) }

/-- BAR2_WRITE (R77, R78): served in the slabs of HOST_STAGE; a write to a fenced pseudo-channel is discarded (R162). -/
def bar2Write (d : Dev) (off : Nat) (bs : List Byte) : Dev :=
  let a := d.bar2Base + off
  if a + bs.length > storeSize || !d.bar2Open then d.logErr 8 off true true none
  else if !(List.range bs.length).all (fun i => a + i < 0x1F80000000 && (d.map ownStage).contains (some ((a + i) / 0x200000))) then
    d.logErr 9 off true true none
  else if !d.tagFree reqBar2 then d
  else
    { d.transact reqBar2 bs.length with
      scrubBad := d.scrubBad.filter (fun b => !(List.range bs.length).any (fun i => (a + i) / 32 = b / 32))
      bytes := (bs.zipIdx).foldl (fun m b => if d.pcFenced (pcOf (a + b.2)) then m else memSet m (a + b.2) b.1) d.bytes }

end Dev

/-- IRQ_RAW_CLEAR (R81): what hardware sets at the same edge stays set (R63). -/
def execIrqRawClear (t : Nat) (r : PageRef) (v setNow : Word) (s : State) :=
  s.onDev (fun d => (d.atTime t).headerGate r (fun d => (d.irqSet r setNow.toNat).headerWrite r 0x10 (v &&& ~~~ setNow)
    (·.irqClear r (v &&& ~~~ setNow))))
/-- IRQ_EN_WRITE (R81). -/
def execIrqEnWrite (t : Nat) (r : PageRef) (v : Word) (s : State) :=
  s.onDev (fun d => (d.atTime t).headerWrite r 0x14 v (·.irqEnable r v))
/-- IRQ_FORCE (R65). -/
def execIrqForce (t : Nat) (r : PageRef) (v : Word) (s : State) :=
  s.onDev (fun d => (d.atTime t).headerWrite r 0x1C v (·.irqSet r v.toNat))
/-- MSIX_COALESCE_EXPIRE (R81). -/
def execMsixCoalesceExpire (t : Nat) (v : Fin 64) (s : State) := s.onDev (fun d => (d.atTime t).coalExpire v)
/-- MSIX_UNMASK (R81). -/
def execMsixUnmask (t : Nat) (v : Fin 64) (s : State) :=
  s.onDev (fun d => (d.atTime t).headerGate Dev.globalPage (·.unmask v))
/-- BAR2_READ (R78). -/
def execBar2Read (t : Nat) (off : BitVec 28) (n : Nat) (errs : MemErr) (s : State) :=
  s.onDev (fun d => (d.atTime t).headerGate Dev.globalPage (·.bar2Read off.toNat n errs))
/-- BAR2_WRITE (R78). -/
def execBar2Write (t : Nat) (off : BitVec 28) (data : List Byte) (s : State) :=
  s.onDev (fun d => (d.atTime t).headerGate Dev.globalPage (·.bar2Write off.toNat data))
/-- BAR2_BASE_WRITE (R79). -/
def execBar2BaseWrite (t : Nat) (v : Word) (s : State) :=
  s.onDev (fun d => (d.atTime t).headerGate Dev.globalPage (·.pairHi Dev.globalPage 0x58 v))
/-- LUT_WINDOW_WRITE (R76). -/
def execLutWindowWrite (t : Nat) (off : BitVec 16) (v : Word) (s : State) :=
  s.onDev (fun d => (d.atTime t).headerGate Dev.globalPage (·.lutWrite off.toNat v))
/-- ERR_CLEAR (R83). -/
def execErrClear (t : Nat) (s : State) :=
  s.onDev (fun d => (d.atTime t).gate Dev.globalPage 0x74
    (·.clear [F.GLOBAL_ERR_ADDR, F.GLOBAL_ERR_INFO_CAUSE, F.GLOBAL_ERR_INFO_WRITE, F.GLOBAL_ERR_INFO_BAR,
      F.GLOBAL_ERR_INFO_OVERFLOW, F.GLOBAL_ERR_COUNT]))
/-- CONFIG_REQUEST (R463). -/
def execConfigRequest (t : Nat) (s : State) :=
  s.onDev (fun d => let d := d.atTime t; { d with resp := some (.config (!d.reachable)) })

end Sys2Proof.Machine
end

