-- ==== Sys2Proof/Machine/Nvm.lean ====
section
/-! DEFINITION. The store controller: its commands (R411 to R425), region passwords (R415), the read aperture and the write
buffer (R409, R410), power failure (R416, R417, R477) and errors (R426). -/
namespace Sys2Proof.Machine

/-- RESULT codes (R428). -/
def nvOk : Nat := 0
def nvRange : Nat := 1
def nvCross : Nat := 2
def nvLocked : Nat := 3
def nvPwrfail : Nat := 4
def nvTorn : Nat := 5
def nvEmpty : Nat := 6
def nvFull : Nat := 7
def nvBadArg : Nat := 8
def nvRefused : Nat := 9
def nvUe : Nat := 10

/-- Region of a store address (R407). -/
def regionOf (a : Nat) : Nat := a / 0x40000

/-- Bytes an operation reaches (R411, R418, R421, R423): address and length. -/
def nvSpan (op fmt slots counter addr len : Nat) : Nat × Nat :=
  if op = 0 then (addr, len)
  else if op = 3 || op = 4 then (counterAt counter, 0x140)
  else if fmt = 0 then (addr, 2 * copySize len)
  else (addr, 64 * slots)

/-- Check 1 of R411. -/
def nvArgs (op fmt slots addr len : Nat) : Bool :=
  if op = 0 then 1 ≤ len && len ≤ 1024
  else if op = 3 || op = 4 then true
  else if op = 1 || op = 2 then
    addr % 64 = 0 && (if fmt = 0 then 1 ≤ len && len ≤ 1008 else slots ≠ 0 && (op = 2 || (1 ≤ len && len ≤ 52)))
  else false

namespace Dev

def nvBusy (d : Dev) : Bool := d.flag F.NVM_STS_BUSY
def updStore (d : Dev) (f : NvmSt → NvmSt) : Dev := { d with store := f d.store }

/-- A password kind of a region is open (R415). -/
def readOpen (d : Dev) (r : Nat) : Bool := bitsOf (d.get F.NVM_PW_OPEN_READ_OPEN) r 1 = 1
def writeOpen (d : Dev) (r : Nat) : Bool := bitsOf (d.get F.NVM_PW_OPEN_WRITE_OPEN) r 1 = 1

/-- Check 4 of R411: R407 and the region's passwords permit the operation. -/
def nvPermits (d : Dev) (op counter addr : Nat) : Bool :=
  if op = 4 then true
  else if op = 3 then counter ≥ 8
  else
    let r := regionOf addr
    if op = 2 then r = 14 || (r < 14 && d.readOpen r) else r < 14 && d.writeOpen r

/-- The checks of R411 in their order; `nvOk` where all pass. -/
def nvChecks (d : Dev) (op fmt slots counter addr len : Nat) : Nat :=
  let s := nvSpan op fmt slots counter addr len
  if !nvArgs op fmt slots addr len then nvBadArg
  else if s.1 + s.2 > nvSize then nvRange
  else if regionOf s.1 ≠ regionOf (s.1 + s.2 - 1) then nvCross
  else if !d.nvPermits op counter addr then nvLocked
  else if d.store.pwrfail then nvPwrfail
  else nvOk

/-- Corrected errors met by a read (R426). -/
def nvCorrected (d : Dev) (ce : Nat) : Dev := if ce = 0 then d else (d.count F.NVM_CE_COUNT 0 0 ce).irq .nvm 0 0 3

/-- Uncorrectable groups met by a read (R426). -/
def nvHits (d : Dev) (gs : List Nat) : Dev :=
  gs.foldl (fun d g =>
    let d := if d.get F.NVM_UE_COUNT = 0 then d.put F.NVM_UE_ADDR_ADDR (8 * g) else d
    (d.count F.NVM_UE_COUNT).irq .nvm 0 0 4) d

/-- A byte of the write buffer. -/
def bufByte (d : Dev) (i : Nat) : Byte := memGet d.store.buffer i
def bufBytes (d : Dev) (n : Nat) : List Byte := (List.range n).map d.bufByte

/-- RESULT of a command that has been rejected (R411). -/
def nvReject (d : Dev) (result : Nat) : Dev := ((d.put F.NVM_STS_RESULT result).put F.GLOBAL_NVM_STS_REJECTED 1).irq .nvm 0 0 1

/-- A command begins; it completes by NVM_CMD_DONE. -/
def nvBegin (d : Dev) (c : NvmCmd) : Dev := (d.put F.NVM_STS_BUSY 1).updStore (fun s => { s with cmd := some c })

/-- A password hash (R415). -/
def pwHash (n : Nonvolatile) (region kind : Nat) (pw : List Byte) : List Byte :=
  shake256 ([0x51, 0x4E, 0x50, 0x31] ++ leBytes 1 region ++ leBytes 1 kind ++ pw ++ n.fuseRead 32 16) 32

/-- Password bytes given by the host. -/
def pwBytes (d : Dev) (len : Nat) : List Byte :=
  ((List.range 16).flatMap (fun k => leBytes 4 (sget (fun _ => (0 : Word)) d.store.pwData k).toNat)).take len

/-- PW_OPEN and PW_SET of a kind. -/
def putOpen (d : Dev) (region kind : Nat) (v : Bool) : Dev := d.putAt 0x400B4 (16 * kind + region) 1 (if v then 1 else 0)
def putSet (d : Dev) (region kind : Nat) (v : Bool) : Dev := d.putAt 0x400B8 (16 * kind + region) 1 (if v then 1 else 0)
def pwSet (d : Dev) (region kind : Nat) : Bool := d.bitsAt 0x400B8 (16 * kind + region) 1 = 1

/-- PW_OPEN and PW_SET as the passwords that are held leave them after a reset (R415). -/
def showPasswords (d : Dev) (n : Nonvolatile) : Dev :=
  n.passwords.foldl (fun d q => (d.putSet (q.1 / 2) (q.1 % 2) true).putOpen (q.1 / 2) (q.1 % 2) false) d

/-- Failed unlocks of a region (R415). -/
def pwFails (d : Dev) (region : Nat) : Nat := sget (fun _ => 0) d.store.fails region

end Dev

/-- What a command stores by its end. -/
def Nonvolatile.applyCmd (n : Nonvolatile) (c : NvmCmd) : Nonvolatile :=
  let n := n.putGroups c.groups
  match c.pw with
  | some (i, some h) => { n with passwords := sset (fun _ => []) n.passwords i h }
  | some (i, none) => { n with passwords := sdel n.passwords i }
  | none => n

namespace State

/-- Errors met by reading `k` bytes of the store at `a`: groups newly found uncorrectable, and corrected ones (R426). -/
def nvSense (s : State) (a k : Nat) (ue : List Nat) (ce : Nat) : State :=
  let new := (ue.filter (fun g => a ≤ 8 * g + 7 && 8 * g < a + k && !s.nv.bad.contains g)).dedup
  let nv := { s.nv with bad := s.nv.bad ++ new }
  { s with nv := nv, dev := (s.dev.nvCorrected ce).nvHits (nv.bad.filter (fun g => a ≤ 8 * g + 7 && 8 * g < a + k)) }

/-- The command an accepted operation becomes (R412, R418 to R425). -/
def nvPlan (s : State) (op fmt slots key counter addr len : Nat) : NvmCmd :=
  let n := s.nv
  let d := s.dev
  let put (a : Nat) (bs : List Byte) := n.groupsOf d.draws a bs
  let buf (bs : List Byte) := some (bs ++ List.replicate (1024 - bs.length) 0)
  let none_ := if n.badIn (nvSpan op fmt slots counter addr len).1 (nvSpan op fmt slots counter addr len).2 then nvUe else nvEmpty
  if op = 0 then { groups := put addr (d.bufBytes len) }
  else if op = 3 then (if (n.newestBase counter).isNone then { result := nvUe } else { groups := n.incGroups d.draws counter })
  else if op = 4 then
    match n.count counter with
    | some c => { count := some c }
    | none => { result := nvUe }
  else if fmt = 0 then
    let c := copySize len
    let best := n.newestCopy addr len
    if op = 1 then
      let k := match best with
        | some k => 1 - k
        | none => 0
      let seq := match best with
        | some k => (n.copySeq (addr + c * k) + 1) % 2 ^ 32
        | none => 1
      { groups := put (addr + c * k) (nativeCopy seq (d.bufBytes len)), seq := some seq, copy := some k }
    else
      match best with
      | some k => { seq := some (n.copySeq (addr + c * k)), copy := some k, len := some len, buffer := buf (n.read (addr + c * k + 12) len) }
      | none => { result := none_, buffer := buf [] }
  else if op = 1 then
    match n.freeSlot addr slots with
    | (some i, seq) => { groups := put (addr + 64 * i) (farariSlot key seq (d.bufBytes len)), seq := some seq }
    | (none, _) => { result := nvFull }
  else
    match n.newestSlot addr slots (fun i => n.slotKey (addr + 64 * i) = key) with
    | some i =>
      let a := addr + 64 * i
      let l := n.value (a + 3) 1
      { seq := some (n.slotSeq a), len := some l, buffer := buf (n.read (a + 8) l) }
    | none => { result := none_, buffer := buf [] }

/-- GO of the register CMD (R411): `v` is the word written. -/
def nvGo (s : State) (v : Word) (ue : List Nat) (ce : Nat) : State :=
  let d := s.dev.plainWrite ⟨.nvm, 0, 0⟩ 0x48 v
  let op := d.get F.NVM_CMD_OP
  let fmt := d.get F.NVM_CMD_FORMAT
  let slots := d.get F.NVM_CMD_SLOTS
  let key := d.get F.NVM_CMD_KEY
  let counter := d.get F.NVM_CMD_COUNTER
  let addr := d.get F.NVM_WR_ADDR_ADDR
  let len := d.get F.NVM_WR_LEN_LEN
  let d := d.put F.NVM_STS_LAST_OP op
  let why := d.nvChecks op fmt slots counter addr len
  if why ≠ nvOk then { s with dev := (d.nvReject why).nvBegin { result := why } }
  else
    let sp := nvSpan op fmt slots counter addr len
    let s := ({ s with dev := d.put F.GLOBAL_NVM_STS_REJECTED 0 } : State)
    let s := if op = 0 then
        ((s.nvSense sp.1 (if sp.1 % 8 = 0 then 0 else 1) ue ce).nvSense (sp.1 + sp.2 - 1) (if (sp.1 + sp.2) % 8 = 0 then 0 else 1) ue 0)
      else s.nvSense sp.1 sp.2 ue ce
    let c := s.nvPlan op fmt slots key counter addr len
    let d := if s.nv.badIn sp.1 sp.2 then { s.dev with draws := s.dev.draws + 4096 } else s.dev
    { s with dev := d.nvBegin c }

/-- A password operation (R415): 0 UNLOCK, 1 LOCK, 2 SET, 3 CLEAR, of the region and kind that PW_CTL holds. -/
def pwOp (s : State) (op : Nat) : State :=
  let d := s.dev
  let r := d.get F.NVM_PW_CTL_REGION
  let k := d.get F.NVM_PW_CTL_KIND
  let len := d.get F.NVM_PW_CTL_LEN
  let okLen := 1 ≤ len && len ≤ 64
  let hash := Dev.pwHash s.nv r k (d.pwBytes len)
  if op = 0 then
    if !d.pwSet r k then s
    else if d.pwFails r ≥ 8 then { s with dev := d.put F.NVM_STS_RESULT nvRefused }
    else if okLen && s.nv.passwords.any (fun q => q.1 = 2 * r + k && q.2 = hash) then { s with dev := d.putOpen r k true }
    else
      let n := d.pwFails r + 1
      let d := d.updStore (fun x => { x with fails := sset (fun _ => 0) x.fails r n })
      { s with dev := if n = 8 then d.irq .nvm 0 0 6 else d }
  else if op = 1 then { s with dev := if d.pwSet r k then d.putOpen r k false else d }
  else
    let why := if op = 2 && !okLen then nvBadArg
      else if !d.writeOpen r then nvLocked
      else if d.store.pwrfail then nvPwrfail
      else nvOk
    if why ≠ nvOk then { s with dev := (d.nvReject why).nvBegin { result := why } }
    else
      { s with dev := (d.put F.GLOBAL_NVM_STS_REJECTED 0).nvBegin { pw := some (2 * r + k, if op = 2 then some hash else none) } }

/-- A write of PW_CTL without its GO bit: REGION 14 and 15 are reserved (R60). -/
def pwCtl (s : State) (v : Word) : State :=
  let w := v.toNat % 2 ^ 15
  let d := s.dev
  if w % 16 > 13 then
    { s with dev := (d.plainWrite ⟨.nvm, 0, 0⟩ 0x70 (BitVec.ofNat 32 (putBits w 0 4 (d.get F.NVM_PW_CTL_REGION)))).rsvCode ⟨.nvm, 0, 0⟩ 0x70 }
  else { s with dev := d.plainWrite ⟨.nvm, 0, 0⟩ 0x70 v }

/-- A write of PW_CTL with GO. -/
def pwGo (s : State) (v : Word) : State := (s.pwCtl v).pwOp (bitsOf v.toNat 5 2)

/-- A command is cut short once `groups` of its groups are whole; one that has no more to write is not. -/
def nvIsCut (c : NvmCmd) (groups : Nat) : Bool := !(c.groups.length ≤ groups && !(c.pw.isSome && groups = 0))

/-- A command completes (R413): what it wrote and what it reports. -/
def nvComplete (s : State) : State :=
  match s.dev.store.cmd with
  | none => s
  | some c =>
    let nv := s.nv.applyCmd c
    let d := (s.dev.put F.NVM_STS_BUSY 0).put F.NVM_STS_RESULT c.result
    let d := c.seq.elim d (fun x => d.put F.NVM_REC_SEQ x)
    let d := c.copy.elim d (fun x => d.put F.NVM_STS_COPY x)
    let d := c.len.elim d (fun x => d.put F.NVM_REC_LEN_LEN x)
    let d := c.count.elim d (fun x => d.put64 F.NVM_CNT_LO x)
    let d := d.updStore (fun x => { x with cmd := none, buffer := c.buffer.elim x.buffer (fun b => memWrite [] 0 b) })
    let d := match c.pw with
      | some (i, some _) => (d.putSet (i / 2) (i % 2) true).putOpen (i / 2) (i % 2) false
      | some (i, none) => (d.putSet (i / 2) (i % 2) false).putOpen (i / 2) (i % 2) true
      | none => d
    { s with nv := nv, dev := d.irq .nvm 0 0 0 }

/-- A command is cut short once `groups` of its groups are whole (R416, R417). -/
def nvCut (s : State) (groups : Nat) : State :=
  match s.dev.store.cmd with
  | none => s
  | some c =>
    if !nvIsCut c groups then s
    else
      { s with
        nv := s.nv.putGroups (c.groups.take groups)
        dev := (s.dev.put F.NVM_STS_BUSY 0).updStore (fun x => { x with cmd := none, cut := true }) }

/-- R417: a command was cut short and the device kept its power. -/
def nvTear (s : State) : State :=
  if s.dev.store.cut then
    let d := (((s.dev.put F.NVM_STS_RESULT nvTorn).count F.NVM_TORN_WRITES).irq .nvm 0 0 2).updStore (fun x => { x with cut := false })
    { s with dev := d }
  else s

/-- A read of the aperture (R409, R410). -/
def nvAperture (s : State) (off : Nat) (ue : List Nat) (ce : Nat) : State :=
  let a := s.dev.get F.NVM_WIN_BASE * 0x4000 + off
  let fail (s : State) (why : Nat) : State :=
    let d := (s.dev.put F.NVM_STS_WIN_ERR why).logErr 11 (0x48000 + off) false false none
    { s with dev := { d with resp := some (if d.flag F.GLOBAL_ERR_CTL_UR_EN then .unsupported else .data 0xFFFFFFFF) } }
  if regionOf a = 15 then fail s 1
  else if regionOf a < 14 && !s.dev.readOpen (regionOf a) then fail s 2
  else
    let s := s.nvSense a 4 ue ce
    if s.nv.badIn a 4 then fail s 3
    else { s with dev := { s.dev with resp := some (.data (BitVec.ofNat 32 (s.nv.value a 4))) } }

end State
end Sys2Proof.Machine
end

