-- ==== Sys2Proof/Machine/Security.lean ====
section
/-! DEFINITION. The loading of keys (R399), the debug lock (R400 to R402, R406), and the clear of the default target's
registers (R385). -/
namespace Sys2Proof.Machine
namespace Dev

/-! Keys. -/

/-- The bytes of KEY_BLOB. -/
def blobBytes (d : Dev) : List Byte := (List.range 20).flatMap (fun k => leBytes 4 (sget (fun _ => (0 : Word)) d.mg.blob k).toNat)

/-- A key of a kind joins the two generations that are held, the newest first (R399). -/
def addGen (l : List (Nat × List Byte)) (gen : Nat) (key : List Byte) : List (Nat × List Byte) :=
  ((gen, key) :: l.filter (fun q => q.1 ≠ gen)).take 2

/-- The keys after a load of the blob, or nothing where it is rejected (R399). -/
def keysAfter (d : Dev) (clear : Bool) : Option Keys :=
  let b := d.blobBytes
  let kind := ((b.getD 16 0).toNat) % 4
  let gen := ((b.getD 16 0).toNat) / 4
  match d.keys.prov with
  | none => if clear then some { d.keys with prov := some ((b.drop 32).take 32) } else none
  | some kp =>
    if clear && kind = 1 then none
    else if kmac256 kp (b.take 64) 16 "Tatre wrap tag" ≠ b.drop 64 then none
    else
      let key := List.zipWith (· ^^^ ·) ((b.drop 32).take 32) (kmac256 kp (b.take 16) 32 "Tatre wrap")
      if kind = 1 then some { d.keys with prov := some key }
      else if kind = 2 then some { d.keys with table := addGen d.keys.table gen key }
      else if kind = 3 then some { d.keys with house := addGen d.keys.house gen key }
      else none

/-! Debug. -/

/-- An attempt is refused without being counted (R401). -/
def dbgRefuse (d : Dev) : Dev := (d.put F.DEBUG_DBG_STS_REFUSED 1).irq .debug 0 0 2

/-- DEBUG_GET_CHALLENGE (R401): 32 free bytes, valid for 60 s. -/
def getChallenge (d : Dev) : Dev :=
  let (bs, d) := d.drawBytes 32
  let d := forN 8 d (fun d k => d.put F.DEBUG_DBG_CHAL (leVal ((bs.drop (4 * k)).take 4)) 0 k)
  { d.put F.DEBUG_DBG_STS_CHAL_VALID 1 with mg := { d.mg with chalAt := d.house + 60000000000 } }

/-- Valid bytes of DBG_DATA. -/
def dbgBytes (d : Dev) : List Byte := d.mg.dbg.take (d.get F.DEBUG_DBG_LEN_BYTES)

/-- DBG_CHAL as bytes. -/
def challenge (d : Dev) : List Byte := (List.range 8).flatMap (fun k => leBytes 4 (d.get F.DEBUG_DBG_CHAL 0 k))

/-- DEBUG_SUBMIT (R401). -/
def submit (d : Dev) (n : Nonvolatile) (byChallenge : Bool) : Dev :=
  let d := d.putB F.DEBUG_DBG_CTL_METHOD byChallenge
  let owner := n.fuseRead 80 32
  let pw := n.fuseRead 48 32
  let off := if byChallenge then owner.all (· = 0) else pw.all (· = 0)
  if d.get F.DEBUG_DBG_STS_FAILS ≥ 8 || (n.fuseByte 112).toNat % 2 = 1 || off then d.dbgRefuse
  else
    let b := d.dbgBytes
    let good :=
      if byChallenge then
        d.flag F.DEBUG_DBG_STS_CHAL_VALID && d.house < d.mg.chalAt && b.length = 5261
          && shake256 (b.take 1952) 32 = owner
          && Config.verifies (b.take 1952) ([0x51, 0x44, 0x42, 0x31] ++ devId ++ d.challenge) (b.drop 1952)
      else 1 ≤ b.length && b.length ≤ 64 && shake256 (b ++ n.fuseRead 32 16) 32 = pw
    let d := d.put F.DEBUG_DBG_STS_REFUSED 0
    let d := if byChallenge then d.put F.DEBUG_DBG_STS_CHAL_VALID 0 else d
    if good then ((d.put F.DEBUG_DBG_STS_OPEN 1).put F.MGMT_WCHAIN_STS_DEBUG 1).irq .debug 0 0 0
    else (d.count F.DEBUG_DBG_STS_FAILS).irq .debug 0 0 1

/-- DEBUG_DATA_APPEND (R406). -/
def dbgAppend (d : Dev) (v : Word) : Dev :=
  if d.mg.dbg.length + 4 > 5264 then d else { d with mg := { d.mg with dbg := d.mg.dbg ++ leBytes 4 v.toNat } }

/-- DEBUG_DATA_RESET (R406). -/
def dbgReset (d : Dev) : Dev := { d with mg := { d.mg with dbg := [] } }

/-- CHALLENGE_EXPIRE (R401). -/
def chalExpire (d : Dev) : Dev :=
  if d.flag F.DEBUG_DBG_STS_CHAL_VALID && d.mg.chalAt ≤ d.house then d.put F.DEBUG_DBG_STS_CHAL_VALID 0 else d

def debugPage : PageRef := ⟨.debug, 0, 0⟩

end Dev

/-- KEY_LOAD (R399): the keys are kept wrapped in region 15 too. -/
def State.keyLoad (s : State) (clear : Bool) : State :=
  if !s.dev.reachable then s
  else
    let d := s.dev.putB F.MGMT_KEY_CTL_CLEAR clear
    match d.keysAfter clear with
    | some k =>
      let d := (({ d with keys := k } : Dev).showKeys.put F.MGMT_KEY_STS_LAST_OK 1).irq .mgmt 0 1 1
      { s with dev := d, nv := { s.nv with keys := k } }
    | none => { s with dev := ((d.put F.MGMT_KEY_STS_LAST_OK 0).count F.MGMT_KEY_FAIL).irq .mgmt 0 1 2 }

/-- DEF_CLEAR (R385). -/
def execDefClear (t : Nat) (s : State) :=
  s.onDev (fun d => (d.atTime t).gate (Dev.mgmtPage 1) 0x4C
    (·.clear [F.MGMT_DEF_ADDR, F.MGMT_DEF_INFO_MASTER, F.MGMT_DEF_INFO_WRITE, F.MGMT_DEF_INFO_REASON, F.MGMT_DEF_INFO_OVERFLOW,
      F.MGMT_DEF_COUNT]))
/-- KEY_LOAD (R399). -/
def execKeyLoad (t : Nat) (clear : Bool) (s : State) := s.onAll (fun s => (s.atTime t).keyLoad clear)
/-- DEBUG_GET_CHALLENGE (R401). -/
def execDebugGetChallenge (t : Nat) (s : State) := s.onDev (fun d => (d.atTime t).gate Dev.debugPage 0x40 (·.getChallenge))
/-- DEBUG_SUBMIT (R401). -/
def execDebugSubmit (t : Nat) (challenge : Bool) (s : State) :=
  s.onDev (fun d => (d.atTime t).gate Dev.debugPage 0x40 (·.submit s.nv challenge))
/-- DEBUG_DATA_APPEND (R406). -/
def execDebugDataAppend (t : Nat) (v : Word) (s : State) := s.onDev (fun d => (d.atTime t).gate Dev.debugPage 0x70 (·.dbgAppend v))
/-- DEBUG_DATA_RESET (R406). -/
def execDebugDataReset (t : Nat) (s : State) := s.onDev (fun d => (d.atTime t).gate Dev.debugPage 0x40 (·.dbgReset))
/-- CHALLENGE_EXPIRE (R401). -/
def execChallengeExpire (t : Nat) (s : State) := s.onDev (fun d => (d.atTime t).chalExpire)

end Sys2Proof.Machine
end

