-- ==== Sys2Proof/Machine/Sideband.lean ====
section
/-! DEFINITION. The commands of the input sideband ports: EDID tables, hot-plug and sink capabilities (R119
to R122). -/
namespace Sys2Proof.Machine
namespace Dev

/-- Contexts that a sideband port serves as applied: HDMI or DisplayPort with SBAND_EN. -/
def sbandCtxs (d : Dev) (sb : Nat) : List Nat :=
  (List.range 256).filter (fun n =>
    1 ≤ d.ctxKind n && d.ctxKind n ≤ 3 && d.actFlag F.INGEST_LINK_SBAND_EN n && d.act F.INGEST_LINK_SBAND n = sb)

/-- R121: the context that owns a port's hot-plug output: of an MST link, the lowest stream number. -/
def sbandOwner (d : Dev) (sb : Nat) : Option Nat :=
  (d.sbandCtxs sb).foldl (fun acc n =>
    match acc with
    | none => some n
    | some m => if d.act F.INGEST_LINK_MST_STREAM n < d.act F.INGEST_LINK_MST_STREAM m then some n else some m) none

/-- The hot-plug output of a sideband port (R121, R459). -/
def hotplug (d : Dev) (sb : Nat) : Bool :=
  !d.inReset &&
  (match d.sbandOwner sb with
   | some n => d.flag F.INGEST_EDID_CTL_HPD_EN n && !(d.ctx n).hpdPulse
   | none => false)

/-- EDID_DATA_WRITE (R119): 4 bytes into the staging bank; the index advances and wraps at 4 KiB. -/
def edidWrite (d : Dev) (n : Nat) (v : Word) : Dev :=
  let w := d.get F.INGEST_EDID_IDX_WORD n
  (d.updCtx n (fun c => { c with edidStage := sset (fun _ => 0) c.edidStage w v })).put F.INGEST_EDID_IDX_WORD (w + 1) n

/-- EDID_COMMIT (R119). -/
def edidCommit (d : Dev) (n : Nat) : Dev := d.put F.INGEST_STATE_COMMIT_PENDING 1 n

/-- HPD_PULSE (R121): hot-plug is deasserted where it is asserted. -/
def hpdPulse (d : Dev) (n : Nat) : Dev := d.updCtx n (fun c => { c with hpdPulse := true, hpdAt := d.house })

/-- HPD_PULSE_END (R121): the pulse has lasted HPD_LOW_MS, at least 100 ms. -/
def hpdPulseEnd (d : Dev) (n : Nat) : Dev :=
  if (d.ctx n).hpdPulse && (d.ctx n).hpdAt + max 100 (d.get F.INGEST_HPD_LOW_HPD_LOW_MS n) * 1000000 ≤ d.house then
    d.updCtx n (fun c => { c with hpdPulse := false })
  else d

/-- EDID_COMMIT_TAKE_EFFECT (R119, R121). -/
def edidTake (d : Dev) (n : Nat) : Dev :=
  if d.flag F.INGEST_STATE_COMMIT_PENDING n then
    let d := (d.put F.INGEST_STATE_COMMIT_PENDING 0 n).updCtx n (fun c => { c with edidServed := c.edidStage })
    if d.flag F.INGEST_EDID_CTL_HPD_ON_COMMIT n then d.hpdPulse n else d
  else d

/-- Bytes of a context's served table; an unwritten table reads 0 (log entry 2). -/
def edidBytes (d : Dev) (n off len : Nat) : List Byte :=
  (List.range len).map (fun k =>
    let a := (off + k) % 4096
    BitVec.ofNat 8 ((sget (fun _ => (0 : Word)) (d.ctx n).edidServed (a / 4)).toNat / 2 ^ (8 * (a % 4))))

/-- The context whose table a source reads on a port (R120): of an MST link, the one carrying its stream. -/
def edidCtx (d : Dev) (sb : Nat) (stream : Option Nat) : Option Nat :=
  (d.sbandCtxs sb).find? (fun n =>
    if d.ctxKind n = 3 && d.actFlag F.INGEST_LINK_MST_EN n then stream = some (d.act F.INGEST_LINK_MST_STREAM n)
    else stream.isNone)

/-- EDID_READ (R120). In reset the pairs are high impedance and do not acknowledge (R459). -/
def edidRead (d : Dev) (sb : Nat) (stream : Option Nat) (off len : Nat) : Dev :=
  if d.inReset then { d with resp := some .noAck }
  else
    match d.edidCtx sb stream with
    | some n => { d with resp := some (.bytes (d.edidBytes n off len) false) }
    | none => { d with resp := some .noAck }

/-- DisplayPort link rates in the units of DPCD 0x001, and the 128b/132b rate bits of DPCD 0x2215, by
LINK_RATE.MAX_RATE (PRESUMED, DisplayPort 2.1; log entry 14). -/
def dpRateByte (m : Nat) : Nat :=
  if m = 0 then 0x06 else if m = 1 then 0x0A else if m = 2 then 0x14 else 0x1E
def dpUhbrByte (m : Nat) : Nat := if m = 4 then 1 else if m = 5 then 5 else if m ≥ 6 then 7 else 0

/-- DPCD_SCDC_ACCESS (R120, R122): link-rate and lane-count capabilities come from MAX_RATE and LANE_COUNT;
HDCP addresses are not acknowledged, and no HDCP capability is reported. -/
def capAccess (d : Dev) (sb : Nat) (a : SinkAccess) : Dev :=
  match d.sbandOwner sb with
  | none => { d with resp := some .noAck }
  | some n =>
    let m := d.act F.INGEST_LINK_RATE_MAX_RATE n
    let lanes := d.act F.INGEST_LINK_LANE_COUNT n
    if d.inReset then { d with resp := some .noAck }
    else
    match a with
    | .hdcpDdc => { d with resp := some .noAck }
    | .dpcdHdcp => if d.ctxKind n = 3 then { d with resp := some (.bytes [0] false) } else { d with resp := some .noAck }
    | .dpcdMaxRate =>
      if d.ctxKind n = 3 then { d with resp := some (.bytes [BitVec.ofNat 8 (dpRateByte m)] false) } else { d with resp := some .noAck }
    | .dpcdUhbr =>
      if d.ctxKind n = 3 then { d with resp := some (.bytes [BitVec.ofNat 8 (dpUhbrByte m)] false) } else { d with resp := some .noAck }
    | .dpcdMaxLanes =>
      if d.ctxKind n = 3 then { d with resp := some (.bytes [BitVec.ofNat 8 lanes] false) } else { d with resp := some .noAck }
    | .scdcMaxFrl =>
      if d.ctxKind n = 2 then { d with resp := some (.bytes [BitVec.ofNat 8 m] false) }
      else if d.ctxKind n = 1 then { d with resp := some (.bytes [0] false) }
      else { d with resp := some .noAck }
    | .other =>
      let r := d.draw
      { r.2 with resp := some (.bytes [BitVec.ofNat 8 r.1] false) }

end Dev

/-- EDID_DATA_WRITE (R119). -/
def execEdidDataWrite (t : Nat) (ctx : Fin 256) (v : Word) (s : State) :=
  s.onDev (fun d => (d.atTime t).gate (Dev.ctxPage ctx) 0x8C (·.edidWrite ctx v))
/-- EDID_COMMIT (R119). -/
def execEdidCommit (t : Nat) (ctx : Fin 256) (s : State) :=
  s.onDev (fun d => (d.atTime t).gate (Dev.ctxPage ctx) 0x90 (·.edidCommit ctx))
/-- EDID_COMMIT_TAKE_EFFECT (R119). -/
def execEdidCommitTakeEffect (t : Nat) (ctx : Fin 256) (s : State) := s.onDev (fun d => (d.atTime t).edidTake ctx)
/-- EDID_READ (R120). -/
def execEdidRead (t : Nat) (sb : Fin 32) (stream : Option (Fin 4)) (off : BitVec 12) (len : Nat) (s : State) :=
  s.onAny (fun d => (if d.inReset then d else d.atTime t).edidRead sb (stream.map (·.val)) off.toNat len)
/-- HPD_PULSE (R121). -/
def execHpdPulse (t : Nat) (ctx : Fin 256) (s : State) :=
  s.onDev (fun d => (d.atTime t).gate (Dev.ctxPage ctx) 0x90 (·.hpdPulse ctx))
/-- HPD_PULSE_END (R121). -/
def execHpdPulseEnd (t : Nat) (ctx : Fin 256) (s : State) := s.onDev (fun d => (d.atTime t).hpdPulseEnd ctx)
/-- DPCD_SCDC_ACCESS (R120, R122). -/
def execDpcdScdcAccess (t : Nat) (sb : Fin 32) (a : SinkAccess) (s : State) :=
  s.onAny (fun d => (if d.inReset then d else d.atTime t).capAccess sb a)

end Sys2Proof.Machine
end

