-- ==== Sys2Proof/Machine/Snap.lean ====
section
/-! DEFINITION. Snapshots (R45, R455 to R457, R466, R467). -/
namespace Sys2Proof.Machine
namespace Dev

def snapPageRef : PageRef := ⟨.snap, 0, 0⟩

/-- SNAP_IN_EDGE (R455). -/
def snapEdge (d : Dev) (t : Nat) (rising : Bool) : Dev :=
  if d.flag F.SNAP_MODE_PIN_EN && d.flag F.SNAP_MODE_PIN_RISE == rising then d.snapTrigger 2 t else d

/-- SNAP_SCHED_ARM (R456): a scheduled snapshot takes a pending one within 10 µs with it. -/
def schedArm (d : Dev) : Dev :=
  let e := d.get64 F.SNAP_SCHED_TIME_LO
  let d := d.put F.SNAP_STS_LATE 0
  if e < d.house + d.get F.SNAP_LEAD_LEAD_US * 1000 then (d.put F.SNAP_STS_LATE 1).irq .snap 0 0 1
  else
    let d := { d.put F.SNAP_STS_SCHED_PENDING 1 with snapSched := e }
    let p := d.get64 F.SNAP_PENDING_E_LO
    if d.flag F.SNAP_STS_PENDING && max e p - min e p ≤ 10000 then (d.put F.SNAP_STS_PENDING 0).count F.SNAP_MERGED else d

/-- SNAP_SCHED_CANCEL (R456). -/
def schedCancel (d : Dev) : Dev := { d.put F.SNAP_STS_SCHED_PENDING 0 with snapSched := 0 }

/-- R457: a page latches its mirror at `e`, as the device `was`. -/
def snapLatch (was : Dev) (e : Nat) (d : Dev) (r : PageRef) : Dev :=
  let a := pgAddr r
  let d := { d with mirror := (List.range 256).foldl (fun m k =>
    sset (fun _ => (0 : Word)) m (a + 4 * k) (BitVec.ofNat 32 (was.viewWord r (4 * k)))) d.mirror }
  let d := (d.setWord (a + 0x28) (BitVec.ofNat 32 e)).setWord (a + 0x2C) (BitVec.ofNat 32 (e / 2 ^ 32))
  (d.putAt (a + 0x24) 1 1 1).irqSet r (2 ^ 28)

/-- R457: whether a page takes part in a snapshot. -/
def snapTakes (d : Dev) (r : PageRef) : Bool :=
  d.bitsAt (pgAddr r + 0x24) 0 1 = 1 && d.powerState r.blk r.inst r.page < 2

/-- R456, R457: the snapshot named `e` by source `src` is taken. -/
def snapTake (d : Dev) (e src : Nat) : Dev :=
  let was := d
  let d := (allPages.filter d.snapTakes).foldl (snapLatch was e) d
  let d := ((d.put64 F.SNAP_LAST_E_LO e).put F.SNAP_STS_LAST_SRC src).count F.SNAP_SNAPSHOTS
  let d := d.irq .snap 0 0 0
  if d.flag F.SNAP_MODE_ONE_SHOT then d.put F.SNAP_STS_ARMED 0 else d

/-- SNAPSHOT_EVENT (R456, R457): the earliest snapshot that is due at `t`; one that is disarmed is missed. -/
def snapEvent (d : Dev) (t : Nat) : Dev :=
  let p := d.get64 F.SNAP_PENDING_E_LO
  let single := d.flag F.SNAP_STS_PENDING && p ≤ t
  let sched := d.flag F.SNAP_STS_SCHED_PENDING && d.snapSched ≤ t
  if !single && !sched then d
  else
    let useSched := sched && (!single || d.snapSched ≤ p)
    let e := if useSched then d.snapSched else p
    let src := if useSched then 3 else d.snapSrc
    let d := if useSched then d.schedCancel else d.put F.SNAP_STS_PENDING 0
    if d.flag F.SNAP_STS_ARMED then d.snapTake e src else d.snapMissed

end Dev

/-- SNAP_NOW (R455). -/
def execSnapNow (t : Nat) (s : State) := s.onDev (fun d => (d.atTime t).gate Dev.snapPageRef 0x40 (fun d => d.snapTrigger 1 d.house))
/-- SNAP_IN_EDGE (R455). -/
def execSnapInEdge (t : Nat) (rising : Bool) (s : State) := s.onDev (fun d => (d.atTime t).snapEdge t rising)
/-- SNAP_SCHED_ARM (R456). -/
def execSnapSchedArm (t : Nat) (s : State) := s.onDev (fun d => (d.atTime t).gate Dev.snapPageRef 0x40 (·.schedArm))
/-- SNAP_SCHED_CANCEL (R456). -/
def execSnapSchedCancel (t : Nat) (s : State) := s.onDev (fun d => (d.atTime t).gate Dev.snapPageRef 0x40 (·.schedCancel))
/-- SNAP_REARM (R456). -/
def execSnapRearm (t : Nat) (s : State) := s.onDev (fun d => (d.atTime t).gate Dev.snapPageRef 0x40 (·.put F.SNAP_STS_ARMED 1))
/-- SNAPSHOT_EVENT (R457). -/
def execSnapshotEvent (t : Nat) (s : State) := s.onDev (fun d => (d.atTime t).snapEvent t)
/-- SNAP_CLEAR (R466). -/
def execSnapClear (t : Nat) (s : State) :=
  s.onDev (fun d => (d.atTime t).gate Dev.snapPageRef 0x7C (·.clear [F.SNAP_SNAPSHOTS, F.SNAP_MERGED, F.SNAP_MISSED]))

end Sys2Proof.Machine
end

