-- ==== Sys2Proof/Machine/HostWrite.lean ====
section
/-! DEFINITION. Host writes to BAR0 (R59 to R64, R70 to R73): which word an access reaches, and what a write of it does.
A word whose write is a command of its own acts as that command does; what the command brings from outside is then taken
as its good case (log entry 20). -/
namespace Sys2Proof.Machine

/-- A bit of a word. -/
def wbit (v : Word) (n : Nat) : Bool := bitsOf v.toNat n 1 = 1

namespace Dev

/-- A write of a live word that has no behaviour of its own: LO words of pairs are held (R62). -/
def liveWrite (d : Dev) (r : PageRef) (off : Nat) (v : Word) : Dev :=
  if loPair r.blk r.page off = some true then d.holdLo (pgAddr r + off) v
  else if off ≥ 4 && loPair r.blk r.page (off - 4) = some true then d.pairHi r off v
  else d.plainWrite r off v

/-- A write of which one field carries a reserved encoding (R60): that field stays. -/
def keepField (d : Dev) (r : PageRef) (off : Nat) (v : Word) (lo w : Nat) : Word :=
  BitVec.ofNat 32 (putBits v.toNat lo w (d.bitsAt (pgAddr r + off) lo w))
def writeKeep (d : Dev) (r : PageRef) (off : Nat) (v : Word) (lo w : Nat) : Dev :=
  (d.plainWrite r off (d.keepField r off v lo w)).rsvCode r off

/-- A write of a hand region (R70): discarded while it is locked. -/
def handWrite (d : Dev) (r : PageRef) (off : Nat) (v : Word) : Dev :=
  let a := pgAddr r + off
  if !d.reachable then d
  else if d.handLocked then d.logErr 2 a true false (some r)
  else d.gate r off (fun d =>
    if (rowAt r.blk r.page off).isSome then { d.liveWrite r off v with written := addOnce d.written a } else d)

/-- CTL of a page (R65): EN follows the bit; a write that asks for a fence and its release fences. -/
def ctlWrite (d : Dev) (r : PageRef) (v : Word) : Dev :=
  let d := d.writeEn r (wbit v 0)
  let d := if wbit v 1 then d.writeReq r else if wbit v 2 then d.writeRel r true else d
  if wbit v 3 then d.softReset r else d

/-! Words with a rule of their own. -/

/-- TX_FIR of a media lane (R90) and of a network lane (R91, R92): a field outside its limit keeps its value, PRE and POST
both where their sum is (R60). -/
def mediaFir (d : Dev) (r : PageRef) (v : Word) : Dev :=
  let badPre := bitsOf v.toNat 4 5 > 16
  let badPost := bitsOf v.toNat 9 5 > 24
  let w := if badPre then d.keepField r 0x40 v 4 5 else v
  let w := if badPost then d.keepField r 0x40 w 9 5 else w
  let sum := bitsOf w.toNat 4 5 + bitsOf w.toNat 9 5 > 28
  let w := if sum then d.keepField r 0x40 (d.keepField r 0x40 w 4 5) 9 5 else w
  let d := d.plainWrite r 0x40 w
  if badPre || badPost || sum then d.rsvCode r 0x40 else d

def netFir (d : Dev) (r : PageRef) (v : Word) : Dev :=
  let c (lo : Nat) : Nat := (sgn 6 (bitsOf v.toNat lo 6)).natAbs
  if (d.lane (96 + r.inst)).training then d
  else if c 0 + c 8 + c 16 + c 24 > 40 then d.rsvCode r 0x40
  else d.plainWrite r 0x40 v

/-- PRBS_CTL of a lane (R99). -/
def prbsWrite (d : Dev) (n : Nat) (r : PageRef) (v : Word) : Dev :=
  let g := d.prbsFits n (bitsOf v.toNat 0 3)
  let c := d.prbsFits n (bitsOf v.toNat 4 3)
  let w := if g then v else d.keepField r 0x68 v 0 3
  let w := if c then w else d.keepField r 0x68 w 4 3
  let d := (d.plainWrite r 0x68 w).genShow n
  if g && c then d else d.rsvCode r 0x68

/-- Words of the MSI-X table (R81, PRESUMED: PCIe; log entry 9). -/
def msixWrite (d : Dev) (off : Nat) (v : Word) : Dev :=
  if off % 16 = 12 then
    (if wbit v 0 then d.setWord (0x8000 + off) 1 else d.unmask (off / 16))
  else d.setWord (0x8000 + off) v

end Dev

namespace State

/-- The state a meaning answers. -/
def after (s : State) (m : State → Host.Outcome State Fault Refusal) : State :=
  match m s with
  | .next x => x
  | _ => s

def on (s : State) (f : Dev → Dev) : State := { s with dev := f s.dev }

/-- What a set bit of a word does, after what the word does otherwise. -/
def when (s : State) (c : Bool) (m : Nat → State → Host.Outcome State Fault Refusal) : State :=
  if c then s.after (m s.dev.house) else s

def plain (s : State) (r : PageRef) (off : Nat) (v : Word) : State := s.on (fun d => d.liveWrite r off v)

def hostGlobal (s : State) (r : PageRef) (off : Nat) (v : Word) : State :=
  if off = 0x74 then s.when (wbit v 0) execErrClear else s.plain r off v

def hostMgmt (s : State) (r : PageRef) (off : Nat) (v : Word) : State :=
  if r.page = 0 then
    if off = 0x40 then (s.plain r off v).when (wbit v 0) execFwRestart
    else if off = 0x94 then (if wbit v 0 then s.ring true else s)
    else if off = 0x80 || (0x84 ≤ off && off ≤ 0x90) || 0x200 ≤ off then
      (if s.dev.flag F.MGMT_MBOX_STS_BUSY then s.on (·.put F.MGMT_MBOX_STS_REFUSED 1) else s.plain r off v)
    else s.plain r off v
  else
    if off = 0x4C then s.when (wbit v 0) execDefClear
    else if off = 0x80 then (if wbit v 0 then s.keyLoad (wbit v 1) else s.plain r off v)
    else if 0xC0 ≤ off && off < 0x110 then
      s.on (fun d => { d with mg := { d.mg with blob := sset (fun _ => (0 : Word)) d.mg.blob ((off - 0xC0) / 4) v } })
    else if off = 0x314 then
      (if 100 ≤ v.toNat % 65536 && v.toNat % 65536 ≤ 60000 then s.on (·.signPeriodSet (v.toNat % 65536)) else s.on (·.rsvCode r off))
    else if off = 0x31C then s.on (·.sigSelect v.toNat)
    else s.plain r off v

def hostDeal (s : State) (r : PageRef) (off : Nat) (v : Word) : State :=
  let parameter := if r.page = 0 then 0x44 ≤ off && off ≤ 0x58 else 0x40 ≤ off && off ≤ 0x64
  if parameter && s.dev.handBusy then s.on (·.logErr 2 (pgAddr r + off) true false (some r))
  else if r.page = 1 then (if off = 0xB8 then s.when (wbit v 0) (fun _ => execDealerCntClear) else s.plain r off v)
  else if off = 0x40 then ((s.when (wbit v 0) execSeal).when (wbit v 1) execWithdraw).when (wbit v 2) execRevert
  else if off = 0x44 && v.toNat % 4 = 3 then s.on (·.rsvCode r off)
  else if off = 0x5C && v.toNat % 16 = 0 then s.on (·.writeKeep r off v 0 4)
  else if off = 0xDC then s.when (wbit v 0) (fun _ => execDealCntClear)
  else s.plain r off v

def hostPower (s : State) (r : PageRef) (off : Nat) (v : Word) : State :=
  if r.page = 1 then s.plain r off v
  else if 0x40 ≤ off && off < 0xD0 then
    let x := (off - 0x40) / 4
    let s := s.on (fun d => d.plainWrite r off (d.keepField r off v 24 8))
    let s := s.after (execHostVotesWrite s.dev.house (Fin.ofNat 36 x) (BitVec.ofNat 8 (v.toNat / 2 ^ 24)))
    s.when (wbit v 4) (fun t => execDomainEnterWrite t (Fin.ofNat 36 x))
  else if off = 0x318 then s.when (wbit v 0) execPowerCntClear
  else if off = 0x31C && v.toNat % 65536 = 0 then s.on (·.rsvCode r off)
  else s.plain r off v

def hostSnap (s : State) (r : PageRef) (off : Nat) (v : Word) : State :=
  if off = 0x40 then
    (((s.when (wbit v 1) execSnapRearm).when (wbit v 3) execSnapSchedCancel).when (wbit v 2) execSnapSchedArm).when
      (wbit v 0) execSnapNow
  else if off = 0x48 && !(2 ≤ v.toNat % 1024 && v.toNat % 1024 ≤ 1000) then s.on (·.rsvCode r off)
  else if off = 0x7C then s.when (wbit v 0) execSnapClear
  else s.plain r off v

def hostDebug (s : State) (r : PageRef) (off : Nat) (v : Word) : State :=
  if off = 0x40 then
    (((s.plain r off v).when (wbit v 3) execDebugDataReset).when (wbit v 0) execDebugGetChallenge).when (wbit v 1)
      (fun t => execDebugSubmit t (wbit v 2))
  else if off = 0x70 then s.on (·.dbgAppend v)
  else s.plain r off v

def hostLane (s : State) (n : Nat) (r : PageRef) (off : Nat) (v : Word) : State :=
  let lane : Fin 112 := Fin.ofNat 112 n
  let x := v.toNat
  if off = 0x40 then s.on (fun d => if n < 96 then d.mediaFir r v else d.netFir r v)
  else if off = 0x44 then s.on (·.eqModeWrite n (bitsOf x 6 2) (bitsOf x 0 6))
  else if off = 0x48 || off = 0x4C || (0xA0 ≤ off && off ≤ 0xAC) then s.on (·.eqControlWrite n off v)
  else if off = 0x5C && !(1 ≤ bitsOf x 8 6 && bitsOf x 8 6 ≤ 50) then s.on (·.writeKeep r off v 8 6)
  else if off = 0x64 then s.after (execRxLstateReq s.dev.house lane (BitVec.ofNat 2 x))
  else if off = 0x68 then (s.on (·.prbsWrite n r v)).when (wbit v 8) (fun t => execPrbsClear t lane [] [])
  else if off = 0x6C then
    (if wbit v 3 then s.after (execInjGo s.dev.house lane (BitVec.ofNat 2 x) (wbit v 2) (BitVec.ofNat 8 (x / 16)))
     else s.on (fun d => (d.plainWrite r off v).injMode n (x % 4)))
  else if off = 0x94 then s.when (wbit v 0) (fun t => execLaneCntClear t lane)
  else s.plain r off v

def hostIngest (s : State) (r : PageRef) (off : Nat) (v : Word) : State :=
  let c : Fin 256 := Fin.ofNat 256 r.inst
  if off = 0x120 then s.when (wbit v 0) (fun t => execIngestFreshClear t c)
  else if off = 0x84 then s.when (wbit v 0) (fun t => execIngestCntClear t c)
  else if off = 0x8C then s.on (·.edidWrite r.inst v)
  else if off = 0x90 then
    ((s.plain r off v).when (wbit v 0) (fun t => execEdidCommit t c)).when (wbit v 1) (fun t => execHpdPulse t c)
  else if off = 0xA8 then s.on (·.dmaRingSizeWrite r.inst (v.toNat % 8192))
  else if off = 0xAC then s.on (·.dmaTailWrite r.inst (v.toNat % 4096))
  else if off = 0xB4 then s.on (·.dmaEnableWrite r.inst (wbit v 0) (bitsOf v.toNat 1 2))
  else s.plain r off v

def hostEngine (s : State) (r : PageRef) (off : Nat) (v : Word) : State :=
  let n : Fin 64 := Fin.ofNat 64 r.inst
  if off = 0x74 then s.on (·.coefWrite r.inst v)
  else if off = 0x7C then s.when (wbit v 0) (fun t => execEngineCntClear t n)
  else s.plain r off v

def hostMemsw (s : State) (r : PageRef) (off : Nat) (v : Word) : State :=
  if off = 0x6C then
    (s.plain r off v).when (wbit v 8) (fun t => execPcRelease t (Fin.ofNat 128 (v.toNat % 128)) true)
  else if off = 0x70 && bitsOf v.toNat 8 8 = 0 then s.on (·.writeKeep r off v 8 8)
  else if off = 0xA0 then s.when (wbit v 0) execMemswCntClear
  else s.plain r off v

def hostAudio (s : State) (r : PageRef) (off : Nat) (v : Word) : State :=
  let m : BitVec 16 := BitVec.ofNat 16 v.toNat
  match r.page with
  | 0 =>
    if off = 0x4C then
      (s.plain r off v).when (wbit v 8) (fun t => execGroupRelease t (Fin.ofNat 64 (v.toNat % 64)) true)
    else if off = 0x204 then s.when (wbit v 0) execDelayStepsClear
    else s.plain r off v
  | 1 => if off = 0x3F0 then s.after (execAinClear s.dev.house m) else s.plain r off v
  | 2 => if off = 0x3F0 then s.after (execAoutFilledClear s.dev.house m) else s.plain r off v
  | 4 => if off = 0x328 then (s.when (wbit v 0) execRxsClear).when (wbit v 1) execRxsRestart else s.plain r off v
  | 7 =>
    if off = 0x3F0 || off = 0x3F4 then s.after (execAsendPktsClear s.dev.house (off = 0x3F4) v) else s.plain r off v
  | _ => s.plain r off v

/-- Clears of an output port, and its sideband transactions (R266). -/
def hostOport (s : State) (r : PageRef) (off : Nat) (v : Word) : State :=
  let p : Fin 96 := Fin.ofNat 96 r.inst
  if off = 0x4C then
    (if wbit v 0 then
      s.after (execSidebandGo s.dev.house p (wbit v 1) (wbit v 2) (BitVec.ofNat 4 (v.toNat / 8)) (BitVec.ofNat 20 (v.toNat / 256)))
     else s.plain r off v)
  else if off = 0x64 then s.when (wbit v 0) (fun t => execOportCntClear t p)
  else s.plain r off v

def hostHead (s : State) (r : PageRef) (off : Nat) (v : Word) : State :=
  let h : Fin 64 := Fin.ofNat 64 r.inst
  if r.page = 0 && off = 0x64 then s.when (wbit v 0) (fun t => execTimingClear t h)
  else if r.page = 2 && off = 0x70 then s.when (wbit v 0) (fun t => execMeldClear t h)
  else if r.page = 3 && off = 0x68 then s.when (wbit v 0) (fun t => execObufClear t h)
  else s.plain r off v

def hostLayer (s : State) (r : PageRef) (off : Nat) (v : Word) : State :=
  let l : Fin 1024 := Fin.ofNat 1024 r.inst
  if off = 0x114 then s.when (wbit v 0) (fun t => execLayerFreshClear t l)
  else if off = 0x150 then s.when (wbit v 0) (fun t => execChaseClear t l)
  else if off = 0x170 then s.when (wbit v 0) (fun t => execSelClear t l)
  else if off = 0x1B4 then s.when (wbit v 0) (fun t => execCompClear t l)
  else s.plain r off v

/-- NVM (R411, R415, R428). -/
def hostNvm (s : State) (r : PageRef) (off : Nat) (v : Word) (ue : List Nat) (ce : Nat) : State :=
  if off = 0x48 then
    (if wbit v 0 then s.nvGo v ue ce
     else if bitsOf v.toNat 1 3 > 4 then s.on (·.writeKeep r off v 1 3)
     else s.plain r off v)
  else if off = 0x70 then (if wbit v 7 then s.pwGo v else s.pwCtl v)
  else if 0x74 ≤ off && off < 0xB4 then
    s.on (fun d => d.updStore (fun x => { x with pwData := sset (fun _ => (0 : Word)) x.pwData ((off - 0x74) / 4) v }))
  else if off = 0xCC && bitsOf v.toNat 8 8 = 0 then s.on (·.writeKeep r off v 8 8)
  else if off = 0xD8 then
    (if wbit v 0 then
      s.on (·.clear [F.NVM_CE_COUNT, F.NVM_UE_COUNT, F.NVM_UE_ADDR_ADDR, F.NVM_SCRUB_PASSES, F.NVM_TORN_WRITES])
     else s)
  else s.plain r off v

/-- A write of a live word of a unit that answers. -/
def hostLive (s : State) (r : PageRef) (off : Nat) (v : Word) (ue : List Nat) (ce : Nat) : State :=
  match r.blk with
  | .global => s.hostGlobal r off v
  | .mgmt => s.hostMgmt r off v
  | .time =>
    if r.page = 0 && off = 0x6C then s.when (wbit v 0) execTimeCntClear
    else if r.page = 1 && off = 0x54 then s.when (wbit v 0) (fun _ => execRefCntClear)
    else s.plain r off v
  | .deal => s.hostDeal r off v
  | .nvm => s.hostNvm r off v ue ce
  | .power => s.hostPower r off v
  | .snap => s.hostSnap r off v
  | .debug => s.hostDebug r off v
  | .mlane => s.hostLane r.inst r off v
  | .nlane => s.hostLane (96 + r.inst) r off v
  | .nport => if off = 0x100 then s.when (wbit v 0) (fun t => execNportCntClear t (Fin.ofNat 4 r.inst)) else s.plain r off v
  | .ingest => s.hostIngest r off v
  | .engine => s.hostEngine r off v
  | .memsw => s.hostMemsw r off v
  | .talon =>
    if off = 0x44 then s.on (·.stageWrite (v.toNat % 65536))
    else if off = 0xB0 then s.when (wbit v 0) execTalonCntClear
    else s.plain r off v
  | .ledger =>
    if off = 0x40 then
      let s1 := s.plain r off v
      (({ s1 with dev := Dev.periodicSet s.dev s1.dev } : State).when (wbit v 0) execAuditRun).when (wbit v 2) execLedgerClear
    else s.plain r off v
  | .recorder =>
    if off = 0x40 then (s.after (execRecorderHoldWrite s.dev.house (wbit v 0))).when (wbit v 1) execRecorderForceKey
    else if off = 0x70 then s.when (wbit v 0) execRecorderClear
    else s.plain r off v
  | .head => s.hostHead r off v
  | .layer => s.hostLayer r off v
  | .oport => s.hostOport r off v
  | .sendV => if off = 0x3F0 then s.after (execSendCntClear s.dev.house (Fin.ofNat 4 r.inst) (BitVec.ofNat 16 v.toNat)) else s.plain r off v
  | .sendT =>
    if off = 0x3F0 then s.after (execTatreSendCntClear s.dev.house (Fin.ofNat 16 (r.inst - 4)) (BitVec.ofNat 16 v.toNat))
    else s.plain r off v
  | .audio => s.hostAudio r off v
  | .witness =>
    if off = 0xC8 then s.when (wbit v 0) (fun t => execSafeRel t (Fin.ofNat 64 r.inst))
    else if off = 0x184 then s.when (wbit v 0) (fun t => execWitnessCntClear t (Fin.ofNat 64 r.inst))
    else s.plain r off v
  | .witChain => if off = 0x74 then s.when (wbit v 0) (fun _ => execChainCntClear) else s.plain r off v

/-- A write of a header word (R65); words that hardware keeps discard it. -/
def hostHeader (s : State) (r : PageRef) (off : Nat) (v : Word) : State :=
  match off with
  | 0x008 => s.after (·.onPow (·.ctlWrite r v))
  | 0x010 => s.on (·.irqClear r v)
  | 0x014 => s.on (·.irqEnable r v)
  | 0x01C => s.on (·.irqSet r v.toNat)
  | 0x024 => s.on (·.putAt (pgAddr r + 0x24) 0 1 (v.toNat % 2))
  | 0x030 => s.after (·.onPow (·.powerRequest r (v.toNat % 4)))
  | _ => s

/-- An aligned write of 32 bits. -/
def hostWord (s : State) (a : Nat) (v : Word) (ue : List Nat := []) (ce : Nat := 0) : State :=
  let held := s.on (·.holdAccess ⟨true, a, v⟩)
  if !s.dev.reachable then s
  else match decodeTarget a with
    | .undecoded => s.on (·.logErr 1 a true false none)
    | .msixTable off => s.on (·.msixWrite off v)
    | .msixPending _ => s
    | .lutWindow off => s.on (·.lutWrite off v)
    | .nvmWindow off =>
      if s.dev.nvBusy then held
      else if off < 0x4000 then s.on (fun d => (d.put F.NVM_STS_WIN_ERR 4).logErr 11 a true false none)
      else if off < 0x4400 then
        s.on (fun d => d.updStore (fun x => { x with buffer := memWrite x.buffer (off - 0x4000) (leBytes 4 v.toNat) }))
      else s
    | .page r off =>
      if s.dev.nvmHolds r then held
      else if off < 0x40 then s.hostHeader r off v
      else if isHandOff off then s.on (·.handWrite r off v)
      else if off ≥ 0x400 then s
      else if s.dev.powerState r.blk r.inst r.page ≥ 2 then s.on (·.gate r off id)
      else s.hostLive r off v ue ce

/-- A host write of any size (R61). -/
def hostWrite (s : State) (a bytes : Nat) (v : Nat) : State :=
  if bytes = 8 && a % 4 = 0 then (s.hostWord a (BitVec.ofNat 32 v)).hostWord (a + 4) (BitVec.ofNat 32 (v / 2 ^ 32))
  else if bytes = 4 && a % 4 = 0 then s.hostWord a (BitVec.ofNat 32 v)
  else if !s.dev.reachable then s
  else
    match decodeTarget a with
    | .undecoded => s.on (·.logErr 1 a true false none)
    | .page r _ => s.on (·.logErr 3 a true false (some r))
    | _ => s.on (·.logErr 3 a true false none)

end State

/-- REGISTER_WRITE (R59). -/
def execRegisterWrite (t : Nat) (addr : BitVec 24) (bytes : Nat) (v : BitVec 64) (s : State) :=
  s.onAll (fun s => (s.atTime t).hostWrite addr.toNat bytes v.toNat)
/-- HAND_WRITE (R70): a write of a hand region. -/
def execHandWrite (t : Nat) (addr : BitVec 24) (v : Word) (s : State) :=
  s.onDev (fun d =>
    let d := d.atTime t
    match decodeTarget addr.toNat with
    | .page r off => if isHandOff off && off % 4 = 0 then d.handWrite r off v else d
    | _ => d)

end Sys2Proof.Machine
end

