-- ==== Sys2Proof/Machine/HostRead.lean ====
section
/-! DEFINITION. Host reads of BAR0 (R61, R62, R71 to R73). The completion is `Dev.resp`. -/
namespace Sys2Proof.Machine
namespace Dev

/-- An error response to a read (R72), logged by R490. -/
def readError (d : Dev) (cause a : Nat) (inPage : Option PageRef) : Dev :=
  { d.logErr cause a false false inPage with
    resp := some (if d.flag F.GLOBAL_ERR_CTL_UR_EN then .unsupported else .data 0xFFFFFFFF) }

/-- The offset at which the LO word of a pair of a word's region is named: the active copy of a hand-controlled register
as the register. -/
def pairOff (off : Nat) : Nat := if 0x400 ≤ off && off < 0x800 then off + 0x400 else off

/-- A word of a page that answers: reading a LO word latches its HI word, which the next read of it takes (R62). -/
def readPage (d : Dev) (r : PageRef) (off : Nat) : Dev :=
  let a := pgAddr r + off
  match d.hiLatch.find? (fun q => q.1 = a) with
  | some q => { d with resp := some (.data q.2), hiLatch := d.hiLatch.filter (fun q => q.1 ≠ a) }
  | none =>
    let d := if off < 0xC00 && (loPair r.blk r.page (pairOff off)).isSome then
        { d with hiLatch := (a + 4, d.pageWord r (off + 4)) :: d.hiLatch.filter (fun q => q.1 ≠ a + 4) }
      else d
    { d with resp := some (.data (d.pageWord r off)) }

/-- MSI-X pending bits (R81). -/
def pendingBits (d : Dev) (off : Nat) : Word :=
  BitVec.ofNat 32 (maskOf 32 (fun i => d.msiPending.contains (8 * off + i)))

end Dev

namespace State

/-- A read of an aligned word. `ue` and `ce` are errors that a read of the store meets (R426). -/
def readWord (s : State) (a : Nat) (ue : List Nat) (ce : Nat) : State :=
  match decodeTarget a with
  | .undecoded => s.on (·.readError 1 a none)
  | .msixTable off => s.on (fun d => { d with resp := some (.data (d.word (0x8000 + off))) })
  | .msixPending off => s.on (fun d => { d with resp := some (.data (d.pendingBits off)) })
  | .lutWindow off => s.on (fun d => { d with resp := some (.data (d.lutRead off)) })
  | .nvmWindow off =>
    if s.dev.nvBusy then s.on (·.holdAccess ⟨false, a, 0⟩)
    else if off < 0x4000 then s.nvAperture off ue ce
    else
      s.on (fun d => { d with resp := some (.data
        (if off < 0x4400 then BitVec.ofNat 32 (leVal (memRead d.store.buffer (off - 0x4000) 4)) else 0)) })
  | .page r off =>
    if s.dev.nvmHolds r then s.on (·.holdAccess ⟨false, a, 0⟩)
    else if off ≥ 0x40 && s.dev.powerState r.blk r.inst r.page ≥ 2 then s.on (·.readError 4 a (some r))
    else if r.blk = .engine && off = 0x74 then s.on (·.coefRead r.inst)
    else if r.blk = .mgmt && r.page = 1 && off = 0x320 then s.on (·.sigRead)
    else s.on (·.readPage r off)

/-- The bytes of a completion. -/
def respBytes (s : State) : List Byte :=
  match s.dev.resp with
  | some (.data v) => leBytes 4 v.toNat
  | some (.bytes bs _) => bs
  | _ => List.replicate 4 0xFF

/-- A host read of any size (R61); one that no word holds receives an error response (log entry 21). -/
def hostRead (s : State) (a bytes : Nat) (ue : List Nat) (ce : Nat) : State :=
  if !s.dev.reachable then s
  else
    let s := s.on (fun d => { d with resp := none })
    if bytes = 8 && a % 4 = 0 then
      let s1 := s.readWord a ue ce
      let s2 := s1.readWord (a + 4) ue ce
      if s1.dev.resp = some .unsupported || s1.dev.resp = none then s2.on (fun d => { d with resp := s1.dev.resp })
      else if s2.dev.resp = some .unsupported || s2.dev.resp = none then s2
      else s2.on (fun d => { d with resp := some (.bytes (s1.respBytes ++ s2.respBytes) false) })
    else if 1 ≤ bytes && a % 4 + bytes ≤ 4 then
      let s := s.readWord (a - a % 4) ue ce
      match s.dev.resp with
      | some (.data v) =>
        if bytes = 4 then s else s.on (fun d => { d with resp := some (.bytes (((leBytes 4 v.toNat).drop (a % 4)).take bytes) false) })
      | _ => s
    else
      match decodeTarget a with
      | .undecoded => s.on (·.readError 1 a none)
      | .page r _ => s.on (·.readError 3 a (some r))
      | _ => s.on (·.readError 3 a none)

end State

/-- READ_LO_LATCH (R62): a read of the LO word of a pair. -/
def execReadLoLatch (t : Nat) (addr : BitVec 24) (s : State) :=
  s.onAll (fun s =>
    let s := s.atTime t
    match decodeTarget addr.toNat with
    | .page r off =>
      if off % 4 = 0 && off < 0xC00 && (loPair r.blk r.page (Dev.pairOff off)).isSome then s.hostRead addr.toNat 4 [] 0 else s
    | _ => s)
/-- BAR0_READ (R71, R72). -/
def execBar0Read (t : Nat) (addr : BitVec 24) (bytes : Nat) (ue : List Nat) (ce : Nat) (s : State) :=
  s.onAll (fun s => (s.atTime t).hostRead addr.toNat bytes ue ce)

end Sys2Proof.Machine
end

