-- ==== Sys2Proof/Machine/Matrix.lean ====
section
/-! DEFINITION. The bus matrix of the management plane: its address map (R381), which master reaches which target (R382,
R43), bursts (R383), and the default target (R385). Its arbitration (R384) is timing. -/
namespace Sys2Proof.Machine

/-- Targets of the bus matrix (R381). -/
inductive BusTarget where
  | bootRom
  | sram
  | nvArray
  | nvControl
  | crypto
  | bridge
  | flash
  | flashControl
  | mailbox
deriving DecidableEq, Repr

/-- The regions of the address map: first address, size and target (R381). -/
def busMap (remap : Bool) : List (Nat × Nat × BusTarget) :=
  [if remap then (0x00000000, 0x200000, .sram) else (0x00000000, 0x40000, .bootRom),
   (0x10000000, 0x200000, .sram), (0x18000000, 0x40000, .bootRom), (0x20000000, 0x400000, .nvArray),
   (0x28000000, 0x1000, .nvControl), (0x30000000, 0x10000, .crypto), (0x40000000, 0x1000000, .bridge),
   (0x50000000, 0x8000000, .flash), (0x58000000, 0x10000, .flashControl), (0x60000000, 0x4000, .mailbox)]

/-- The region an address lies in; none for the default target. -/
def busRegion (remap : Bool) (a : Nat) : Option (Nat × Nat × BusTarget) :=
  (busMap remap).find? (fun r => r.1 ≤ a && a < r.1 + r.2.1)

/-- R43: what the register-fabric bridge reaches of BAR0: the pages of the management plane and the NVM window, and of every
other page the words CTL, FENCE_CAUSE and POWER. -/
def bridgeReaches (off : Nat) : Bool :=
  match decodeTarget off with
  | .page r o =>
    match r.blk with
    | .global | .mgmt | .nvm | .power | .snap | .debug => true
    | _ => o / 4 * 4 = 0x08 || o / 4 * 4 = 0x20 || o / 4 * 4 = 0x30
  | .lutWindow _ => false
  | _ => true

namespace Dev

/-- R382: a master may reach a target; the debug port while debug is unlocked. Masters as DEF_INFO.MASTER codes them. -/
def busAllowed (d : Dev) (master : Nat) (x : BusTarget) (write : Bool) : Bool :=
  let nvs := x = .nvArray || x = .nvControl
  if master ≤ 1 then true
  else if master = 2 then x = .mailbox || nvs || x = .bridge
  else if master = 3 then x = .sram || nvs || (x = .flash && !write) || x = .mailbox
  else if master = 4 then d.debugOpen && (x = .bootRom || x = .sram || nvs || x = .flash || x = .mailbox || x = .bridge)
  else x = .sram

/-- Why a burst of `beats` 64-bit beats goes to the default target (R381 to R383), as DEF_INFO.REASON codes it; none where
it reaches its target. Where several reasons hold, the first of DECODE, PERMISSION and CROSS (DESIGN CHOICE, log entry
236). -/
def busReason (d : Dev) (a master : Nat) (write : Bool) (beats : Nat) : Option Nat :=
  match busRegion (d.flag F.MGMT_MATRIX_CTL_REMAP) a with
  | none => some 1
  | some (first, size, x) =>
    if !d.busAllowed master x write || (x = .bridge && !bridgeReaches (a - 0x40000000)) then some 2
    else if a + 8 * beats > first + size then some 3
    else none

/-- DEFAULT_TARGET_HIT (R385): the first request is held; a request of the PCIe bridge is a host access that receives an
error response (R72). -/
def defaultHit (d : Dev) (addr master : Nat) (write : Bool) (reason : Nat) : Dev :=
  let d := if d.get F.MGMT_DEF_INFO_REASON = 0 then
      (((d.put F.MGMT_DEF_ADDR addr).put F.MGMT_DEF_INFO_MASTER master).putB F.MGMT_DEF_INFO_WRITE write).put F.MGMT_DEF_INFO_REASON reason
    else d.put F.MGMT_DEF_INFO_OVERFLOW 1
  let d := (d.count F.MGMT_DEF_COUNT).irq .mgmt 0 1 0
  if master = 2 then
    let d := d.logErr 1 (addr % 2 ^ 24) write false none
    if write then d
    else { d with resp := some (if d.flag F.GLOBAL_ERR_CTL_UR_EN then .unsupported else .data 0xFFFFFFFF) }
  else { d with busResp := some .unsupported }

/-- Who acts through the bridge: firmware while it runs, the debug port, and the PCIe bridge (R43, R382). -/
def bridgeActs (d : Dev) (master : Nat) : Bool := (master ≤ 1 && d.fwUp) || master = 4 || master = 2

/-- Blocks whose pages the bridge reaches whole (R43). -/
def mgmtBlk (b : Blk) : Bool :=
  match b with
  | .global | .mgmt | .nvm | .power | .snap | .debug => true
  | _ => false

end Dev

namespace State

/-- A write that reaches the register-fabric bridge (R43): of FENCE_CAUSE it fences or releases as FW_FENCE_CAUSE_WRITE does,
whether the condition of a release is met being a free value here (log entry 258); other words act as a host's write does. -/
def bridgeWrite (s : State) (off : Nat) (v : Word) : State :=
  match decodeTarget off with
  | .page r o =>
    if !Dev.validPage r then s
    else if o = 0x20 then
      s.after (fun s => s.onPow (fun d =>
        let x := d.draw
        x.2.fwCause r (v.toNat % 256) (v.toNat / 256 % 256) (x.1 % 2 = 1)))
    else if o < 0x40 then s.hostHeader r o v
    else if !Dev.mgmtBlk r.blk then s
    else if isHandOff o then s.on (·.handWrite r o v)
    else if o ≥ 0x400 then s
    else s.hostLive r o v [] 0
  | .nvmWindow o =>
    if s.dev.nvBusy ∨ o < 0x4000 ∨ 0x4400 ≤ o then s
    else s.on (fun d => d.updStore (fun x => { x with buffer := memWrite x.buffer (o - 0x4000) (leBytes 4 v.toNat) }))
  | .msixTable o => s.on (·.msixWrite o v)
  | _ => s

/-- A read that reaches the bridge: the word goes to the master, and the host's completion stays. A read of the store while it
is busy gets no word (DESIGN CHOICE, log entry 258). -/
def bridgeRead (s : State) (off : Nat) : State :=
  let was := s.dev.resp
  let waits := match decodeTarget off with
    | .page r _ => s.dev.nvmHolds r
    | .nvmWindow _ => s.dev.nvBusy
    | .undecoded => true
    | _ => false
  if waits then s.on (fun d => { d with busResp := none })
  else
    let s := s.readWord off [] 0
    s.on (fun d => { d with busResp := d.resp, resp := was })

end State

/-- DEFAULT_TARGET_HIT (R381 to R385): a request of `beats` + 1 beats on the bus matrix. The default target takes it where no
target does; at the register-fabric bridge it acts on a page (R43). What other targets do with one is their own rows'. -/
def execDefaultTargetHit (t : Nat) (addr : Word) (master : Fin 6) (data : Option Word) (beats : Fin 16) (s : State) :=
  match s.dev.busReason addr.toNat master data.isSome (beats + 1) with
  | some reason => s.onDev (fun d => (d.atTime t).defaultHit addr.toNat master data.isSome reason)
  | none =>
    if addr.toNat / 0x1000000 = 0x40 ∧ s.dev.bridgeActs master then
      s.onAll (fun s =>
        let s := s.atTime t
        match data with
        | some v => s.bridgeWrite (addr.toNat - 0x40000000) v
        | none => s.bridgeRead (addr.toNat - 0x40000000))
    else s.onDev (fun d => d.atTime t)

end Sys2Proof.Machine
end

