-- ==== Sys2Proof/Machine/NvmRows.lean ====
section
/-! DEFINITION. The commands of the non-volatile store (R409 to R429, R477). -/
namespace Sys2Proof.Machine
namespace State

/-- A write of CMD with GO and an operation (R411); `ctl` gives its other fields. -/
def nvCommand (s : State) (op : Nat) (ctl : Word) (ue : List Nat) (ce : Nat) : State :=
  s.hostWord 0x40048 (BitVec.ofNat 32 (putBits (putBits ctl.toNat 0 1 1) 1 3 op)) ue ce

/-- A write of PW_CTL with GO and an operation (R415). -/
def pwCommand (s : State) (op : Nat) (ctl : Word) : State :=
  s.hostWord 0x40070 (BitVec.ofNat 32 (putBits (putBits ctl.toNat 7 1 1) 5 2 op))

/-- A held access is served; it waits again where a command has begun (R414). -/
def serveHeld (ue : List Nat) (ce : Nat) (s : State) (h : HeldAcc) : State :=
  if h.write then s.hostWord h.addr h.v ue ce else s.readWord h.addr ue ce

/-- NVM_CMD_DONE (R413, R414): the command completes, and the accesses that waited are served in their order. -/
def nvDone (s : State) (ue : List Nat) (ce : Nat) : State :=
  if s.dev.store.cmd.isNone then s
  else
    let held := s.dev.store.held
    held.foldl (serveHeld ue ce) (s.nvComplete.on (·.updStore (fun x => { x with held := [] })))

/-- PWRFAIL_FALL (R416): also in reset (R459). -/
def pwrFall (s : State) (groups : Nat) : State :=
  (s.on (·.updStore (fun x => { x with pwrfail := true, rose := none }))).nvCut groups

/-- PWRFAIL_RISE (R477, R417). -/
def pwrRise (s : State) (t : Nat) : State :=
  if s.dev.store.pwrfail && s.dev.store.rose.isNone then
    let s := s.on (·.updStore (fun x => { x with rose := some (t : Int) }))
    if s.dev.inReset then s else s.nvTear
  else s

/-- PWRFAIL_LIFT (R477). -/
def pwrLift (s : State) (t : Nat) : State :=
  match s.dev.store.rose with
  | some r => if r + 100000 ≤ (t : Int) then s.on (·.updStore (fun x => { x with pwrfail := false, rose := none })) else s
  | none => s

/-- NVM_SCRUB_PASS_END (R427): a read of the whole array. -/
def scrubEnd (s : State) (corrected : Nat) (ue : List Nat) : State :=
  if s.dev.store.scrubbing then
    let s := s.nvSense 0 nvSize ue corrected
    s.on (fun d => ((d.count F.NVM_SCRUB_PASSES).irq .nvm 0 0 5).updStore (fun x => { x with scrubbing := false }))
  else s

/-- A meaning that acts in reset too. -/
def always (s : State) (f : State → State) : Host.Outcome State Fault Refusal := .next { f s with pending := s.pending }

end State

/-- NVM_WRITE (R412). -/
def execNvmWrite (t : Nat) (ctl : Word) (ue : List Nat) (ce : Nat) (s : State) :=
  s.onAll (fun s => (s.atTime t).nvCommand 0 ctl ue ce)
/-- NVM_REC_WRITE (R419, R422). -/
def execNvmRecWrite (t : Nat) (ctl : Word) (ue : List Nat) (ce : Nat) (s : State) :=
  s.onAll (fun s => (s.atTime t).nvCommand 1 ctl ue ce)
/-- NVM_REC_READ (R420, R422). -/
def execNvmRecRead (t : Nat) (ctl : Word) (ue : List Nat) (ce : Nat) (s : State) :=
  s.onAll (fun s => (s.atTime t).nvCommand 2 ctl ue ce)
/-- NVM_CNT_INC (R424). -/
def execNvmCntInc (t : Nat) (ctl : Word) (ue : List Nat) (ce : Nat) (s : State) :=
  s.onAll (fun s => (s.atTime t).nvCommand 3 ctl ue ce)
/-- NVM_CNT_READ (R425). -/
def execNvmCntRead (t : Nat) (ctl : Word) (ue : List Nat) (ce : Nat) (s : State) :=
  s.onAll (fun s => (s.atTime t).nvCommand 4 ctl ue ce)
/-- NVM_CMD_DONE (R413). -/
def execNvmCmdDone (t : Nat) (ue : List Nat) (ce : Nat) (s : State) := s.onAll (fun s => (s.atTime t).nvDone ue ce)
/-- PW_UNLOCK (R415). -/
def execPwUnlock (t : Nat) (ctl : Word) (s : State) := s.onAll (fun s => (s.atTime t).pwCommand 0 ctl)
/-- PW_LOCK (R415). -/
def execPwLock (t : Nat) (ctl : Word) (s : State) := s.onAll (fun s => (s.atTime t).pwCommand 1 ctl)
/-- PW_SET (R415). -/
def execPwSet (t : Nat) (ctl : Word) (s : State) := s.onAll (fun s => (s.atTime t).pwCommand 2 ctl)
/-- PW_CLEAR (R415). -/
def execPwClear (t : Nat) (ctl : Word) (s : State) := s.onAll (fun s => (s.atTime t).pwCommand 3 ctl)
/-- NVM_WINDOW_READ (R409, R410): the word of the aperture at a byte offset. -/
def execNvmWindowRead (t : Nat) (off : BitVec 14) (ue : List Nat) (ce : Nat) (s : State) :=
  s.onAll (fun s => (s.atTime t).hostRead (0x48000 + off.toNat - off.toNat % 4) 4 ue ce)
/-- PWRFAIL_FALL (R416). -/
def execPwrfailFall (t groups : Nat) (s : State) :=
  s.always (fun s => (if s.dev.inReset then s else s.atTime t).pwrFall groups)
/-- PWRFAIL_RISE (R477). -/
def execPwrfailRise (t : Nat) (s : State) :=
  s.always (fun s => (if s.dev.inReset then s else s.atTime t).pwrRise t)
/-- PWRFAIL_LIFT (R477). -/
def execPwrfailLift (t : Nat) (s : State) :=
  s.always (fun s => (if s.dev.inReset then s else s.atTime t).pwrLift t)
/-- NVM_SCRUB_START (R427). -/
def execNvmScrubStart (t : Nat) (s : State) :=
  s.onDev (fun d =>
    let d := d.atTime t
    if d.flag F.NVM_SCRUB_CTL_EN then d.updStore (fun x => { x with scrubbing := true }) else d)
/-- NVM_CNT_CLEAR (R428). -/
def execNvmCntClear (t : Nat) (s : State) := s.onAll (fun s => (s.atTime t).hostWord 0x400D8 1)
/-- NVM_SCRUB_PASS_END (R427). -/
def execNvmScrubPassEnd (t corrected : Nat) (ue : List Nat) (s : State) :=
  s.onAll (fun s => (s.atTime t).scrubEnd corrected ue)

end Sys2Proof.Machine
end

