-- ==== Sys2Proof/Machine/Reset.lean ====
section
/-! DEFINITION. The reset of the whole device (R380, R458, R459), READY (R464) and ALIVE_OUT (R461). -/
namespace Sys2Proof.Machine
namespace Dev

/-- The device in reset (R458, R459): every register at its reset value but what survives, every unit idle, and why. What
left the device and the count of free values are the model's own record; the hot-plug inputs keep their level (log entry 259). -/
def inResetFrom (d : Dev) (cause : Nat) : Dev :=
  let fresh : Dev :=
    { inReset := true, draws := d.draws, out := d.out, sbHpd := d.sbHpd
      store := { pwrfail := d.store.pwrfail, rose := d.store.rose.map (· - (d.house : Int)), cut := d.store.cut }
      mg := { cause := cause } }
  (fresh.put F.DEBUG_DBG_STS_FAILS (d.get F.DEBUG_DBG_STS_FAILS)).put F.NVM_TORN_WRITES (d.get F.NVM_TORN_WRITES)

/-- ALIVE_OUT is high: it rose with firmware healthy, and falls 500 µs later (R461). -/
def aliveOut (d : Dev) : Bool := d.alive && d.house < d.aliveAt + 500000

/-- ALIVE_TICK (R461). -/
def aliveTick (d : Dev) (t : Nat) : Dev :=
  if t % 1000000 ≠ 0 || (d.aliveAt ≠ 0 && t < d.aliveAt + 500000) then d
  else if d.flag F.GLOBAL_STS_FW_HEALTHY then { d with alive := true, aliveAt := t }
  else { d with alive := false }

/-- READY_SET (R464, R462): firmware sets READY and takes back the votes of the start. -/
def ready (d : Dev) : Dev :=
  let triedAll := (List.range 35).all (fun x => (d.dom x).tried)
  let trained := (List.range 4).any (fun k => (d.dom (28 + k)).tried && d.domUp (28 + k))
  if !d.fwUp || d.flag F.GLOBAL_STS_READY || d.flag F.GLOBAL_STS_MGMT_ONLY || !d.mg.started || !triedAll || !trained then d
  else
    let d := { (d.put F.GLOBAL_STS_READY 1).irq .global 0 0 0 with cfgReady := true }
    forN 35 d (fun d x => d.fwVoteNow x 0 false)

end Dev

namespace State

/-- The whole device is reset (R458): a command of the store is cut short once `groups` of its groups are whole (R417). -/
def assertReset (s : State) (cause groups : Nat) : State :=
  let s := match s.dev.store.cmd with
    | some c => if nvIsCut c groups then s.nvCut groups else { s with nv := s.nv.applyCmd c }
    | none => s
  { s with dev := s.dev.inResetFrom cause }

/-- The device leaves reset, 20 µs after its assertion at the earliest (R458). -/
def releaseReset (s : State) (t : Nat) : State :=
  if !s.dev.inReset || t < 20000 then s
  else
    let d := { s.dev with
      inReset := false
      store := { s.dev.store with rose := s.dev.store.rose.map (· - (t : Int)) } }
    let d := (d.put F.MGMT_RESET_CAUSE_CAUSE d.mg.cause).showPasswords s.nv
    let s := { s with dev := d }
    if d.store.pwrfail && d.store.rose.isNone then s else s.nvTear

end State

/-- RESET_ASSERT (R458). -/
def execResetAssert (t groups : Nat) (s : State) :=
  s.always (fun s => if s.dev.inReset then s else (s.atTime t).assertReset 1 groups)
/-- RESET_RELEASE (R458): `t` is the time since the assertion. -/
def execResetRelease (t : Nat) (s : State) := s.always (fun s => s.releaseReset t)
/-- LOCKSTEP_MISMATCH (R380). -/
def execLockstepMismatch (t : Nat) (pairB : Bool) (groups : Nat) (s : State) :=
  s.always (fun s => if s.dev.inReset then s else (s.atTime t).assertReset (if pairB then 3 else 2) groups)
/-- READY_SET (R464). -/
def execReadySet (t : Nat) (s : State) := s.onPow (fun d => (d.atTime t).ready)
/-- ALIVE_TICK (R461). -/
def execAliveTick (t : Nat) (s : State) := s.onDev (fun d => (d.atTime t).aliveTick t)

end Sys2Proof.Machine
end

