-- ==== Sys2Proof/Machine/Dispatch.lean ====
section
/-! DEFINITION. The dispatcher: one arm for each command. -/
namespace Sys2Proof.Machine

/-- The effect of a command on everything but the queue. -/
def exec (i : Instr) (s : State) : Host.Outcome State Fault Refusal :=
  match i with
  | .registerWrite t addr bytes v => Sys2Proof.Machine.execRegisterWrite t addr bytes v s
  | .readLoLatch t addr => Sys2Proof.Machine.execReadLoLatch t addr s
  | .handWrite t addr v => Sys2Proof.Machine.execHandWrite t addr v s
  | .enable t page => Sys2Proof.Machine.execEnable t page s
  | .disable t page => Sys2Proof.Machine.execDisable t page s
  | .fenceReq t page => Sys2Proof.Machine.execFenceReq t page s
  | .fenceRel t page met => Sys2Proof.Machine.execFenceRel t page met s
  | .fwFenceCauseWrite t page cause detail met => Sys2Proof.Machine.execFwFenceCauseWrite t page cause detail met s
  | .fenceDrainDone t page => Sys2Proof.Machine.execFenceDrainDone t page s
  | .softRst t page => Sys2Proof.Machine.execSoftRst t page s
  | .softRstDone t page => Sys2Proof.Machine.execSoftRstDone t page s
  | .irqRawClear t page v setNow => Sys2Proof.Machine.execIrqRawClear t page v setNow s
  | .irqEnWrite t page v => Sys2Proof.Machine.execIrqEnWrite t page v s
  | .irqForce t page v => Sys2Proof.Machine.execIrqForce t page v s
  | .msixCoalesceExpire t vector => Sys2Proof.Machine.execMsixCoalesceExpire t vector s
  | .msixUnmask t vector => Sys2Proof.Machine.execMsixUnmask t vector s
  | .powerRequest t page req => Sys2Proof.Machine.execPowerRequest t page req s
  | .bar2Read t off bytes ue => Sys2Proof.Machine.execBar2Read t off bytes ue s
  | .bar2Write t off data => Sys2Proof.Machine.execBar2Write t off data s
  | .bar2BaseWrite t v => Sys2Proof.Machine.execBar2BaseWrite t v s
  | .lutWindowWrite t off v => Sys2Proof.Machine.execLutWindowWrite t off v s
  | .errClear t => Sys2Proof.Machine.execErrClear t s
  | .configRequest t => Sys2Proof.Machine.execConfigRequest t s
  | .auditRun t => Sys2Proof.Machine.execAuditRun t s
  | .auditEvent t => Sys2Proof.Machine.execAuditEvent t s
  | .talonFreezeEnd t => Sys2Proof.Machine.execTalonFreezeEnd t s
  | .auditComplete t found => Sys2Proof.Machine.execAuditComplete t found s
  | .ledgerClear t => Sys2Proof.Machine.execLedgerClear t s
  | .talonRebuild t => Sys2Proof.Machine.execTalonRebuild t s
  | .rebuildComplete t found upsets => Sys2Proof.Machine.execRebuildComplete t found upsets s
  | .snapNow t => Sys2Proof.Machine.execSnapNow t s
  | .snapInEdge t rising => Sys2Proof.Machine.execSnapInEdge t rising s
  | .snapSchedArm t => Sys2Proof.Machine.execSnapSchedArm t s
  | .snapSchedCancel t => Sys2Proof.Machine.execSnapSchedCancel t s
  | .snapRearm t => Sys2Proof.Machine.execSnapRearm t s
  | .snapshotEvent t => Sys2Proof.Machine.execSnapshotEvent t s
  | .snapClear t => Sys2Proof.Machine.execSnapClear t s
  | .txPllLock t lane => Sys2Proof.Machine.execTxPllLock t lane s
  | .losAssert t lane => Sys2Proof.Machine.execLosAssert t lane s
  | .losClear t lane => Sys2Proof.Machine.execLosClear t lane s
  | .lolAssert t lane => Sys2Proof.Machine.execLolAssert t lane s
  | .lolClear t lane rate => Sys2Proof.Machine.execLolClear t lane rate s
  | .adaptDone t lane eq => Sys2Proof.Machine.execAdaptDone t lane eq s
  | .eqModeWrite t lane mode ctle => Sys2Proof.Machine.execEqModeWrite t lane mode ctle s
  | .eqControlWrite t lane off v => Sys2Proof.Machine.execEqControlWrite t lane off v s
  | .prbsSync t r => Sys2Proof.Machine.execPrbsSync t r s
  | .prbsSyncLost t lane rx after => Sys2Proof.Machine.execPrbsSyncLost t lane rx after s
  | .prbsClear t lane before edge => Sys2Proof.Machine.execPrbsClear t lane before edge s
  | .injGo t lane mode rx len => Sys2Proof.Machine.execInjGo t lane mode rx len s
  | .injDone t lane => Sys2Proof.Machine.execInjDone t lane s
  | .rxLstateReq t lane req => Sys2Proof.Machine.execRxLstateReq t lane req s
  | .lstateDone t lane tx => Sys2Proof.Machine.execLstateDone t lane tx s
  | .pllFail t lane port => Sys2Proof.Machine.execPllFail t lane port s
  | .bondMarkerTx t bond stream => Sys2Proof.Machine.execBondMarkerTx t bond stream s
  | .bondMarkerRx t lane m => Sys2Proof.Machine.execBondMarkerRx t lane m s
  | .linkTrainingEnd t lane ok fir => Sys2Proof.Machine.execLinkTrainingEnd t lane ok fir s
  | .laneCntClear t lane => Sys2Proof.Machine.execLaneCntClear t lane s
  | .ingestFrameStart t ctx sig encrypted => Sys2Proof.Machine.execIngestFrameStart t ctx sig encrypted s
  | .ingestLine t ctx samples linkErrors audio last => Sys2Proof.Machine.execIngestLine t ctx samples linkErrors audio last s
  | .formatSignalChange t ctx => Sys2Proof.Machine.execFormatSignalChange t ctx s
  | .encryptionDetected t ctx => Sys2Proof.Machine.execEncryptionDetected t ctx s
  | .mstStreamRemoved t ctx => Sys2Proof.Machine.execMstStreamRemoved t ctx s
  | .ingestSilenceTimeout t ctx => Sys2Proof.Machine.execIngestSilenceTimeout t ctx s
  | .st2110PacketRx t ctx p => Sys2Proof.Machine.execSt2110PacketRx t ctx p s
  | .pathSilent t ctx path2 => Sys2Proof.Machine.execPathSilent t ctx path2 s
  | .hbReadComplete t ctx => Sys2Proof.Machine.execHbReadComplete t ctx s
  | .edidDataWrite t ctx v => Sys2Proof.Machine.execEdidDataWrite t ctx v s
  | .edidCommit t ctx => Sys2Proof.Machine.execEdidCommit t ctx s
  | .edidCommitTakeEffect t ctx => Sys2Proof.Machine.execEdidCommitTakeEffect t ctx s
  | .edidRead t sband stream off len => Sys2Proof.Machine.execEdidRead t sband stream off len s
  | .hpdPulse t ctx => Sys2Proof.Machine.execHpdPulse t ctx s
  | .hpdPulseEnd t ctx => Sys2Proof.Machine.execHpdPulseEnd t ctx s
  | .dmaTailWrite t ctx tail => Sys2Proof.Machine.execDmaTailWrite t ctx tail s
  | .dmaDescriptorStart t ctx desc => Sys2Proof.Machine.execDmaDescriptorStart t ctx desc s
  | .dmaDescriptorDone t ctx lines => Sys2Proof.Machine.execDmaDescriptorDone t ctx lines s
  | .dmaEnableWrite t ctx en prio => Sys2Proof.Machine.execDmaEnableWrite t ctx en prio s
  | .dmaRingSizeWrite t ctx entries => Sys2Proof.Machine.execDmaRingSizeWrite t ctx entries s
  | .copyForwardDone t ctx => Sys2Proof.Machine.execCopyForwardDone t ctx s
  | .ingestCntClear t ctx => Sys2Proof.Machine.execIngestCntClear t ctx s
  | .ingestFreshClear t ctx => Sys2Proof.Machine.execIngestFreshClear t ctx s
  | .tatreTileRx t rx => Sys2Proof.Machine.execTatreTileRx t rx s
  | .tatreStampsRx t rx => Sys2Proof.Machine.execTatreStampsRx t rx s
  | .tatreEndOfFrameRx t rx => Sys2Proof.Machine.execTatreEndOfFrameRx t rx s
  | .streamAliveRx t rx => Sys2Proof.Machine.execStreamAliveRx t rx s
  | .tatreApplyTimeout t ctx => Sys2Proof.Machine.execTatreApplyTimeout t ctx s
  | .pcRelease t pc met => Sys2Proof.Machine.execPcRelease t pc met s
  | .scrubPassStart t => Sys2Proof.Machine.execScrubPassStart t s
  | .scrubDone t corrected bursts => Sys2Proof.Machine.execScrubDone t corrected bursts s
  | .hostStageWrite t slabs => Sys2Proof.Machine.execHostStageWrite t slabs s
  | .talonSlabRelease t => Sys2Proof.Machine.execTalonSlabRelease t s
  | .secondStatistics t => Sys2Proof.Machine.execSecondStatistics t s
  | .memswCntClear t => Sys2Proof.Machine.execMemswCntClear t s
  | .talonCntClear t => Sys2Proof.Machine.execTalonCntClear t s
  | .recorderHoldWrite t hold => Sys2Proof.Machine.execRecorderHoldWrite t hold s
  | .recorderForceKey t => Sys2Proof.Machine.execRecorderForceKey t s
  | .recorderClear t => Sys2Proof.Machine.execRecorderClear t s
  | .chaseClear t layer => Sys2Proof.Machine.execChaseClear t layer s
  | .engineJobStart t layer => Sys2Proof.Machine.execEngineJobStart t layer s
  | .engineJobComplete t layer errs => Sys2Proof.Machine.execEngineJobComplete t layer errs s
  | .engineJobAbandon t layer => Sys2Proof.Machine.execEngineJobAbandon t layer s
  | .coefDataWrite t engine v => Sys2Proof.Machine.execCoefDataWrite t engine v s
  | .coefDataRead t engine => Sys2Proof.Machine.execCoefDataRead t engine s
  | .engineCntClear t engine => Sys2Proof.Machine.execEngineCntClear t engine s
  | .selClear t layer => Sys2Proof.Machine.execSelClear t layer s
  | .compClear t layer => Sys2Proof.Machine.execCompClear t layer s
  | .meldClear t head => Sys2Proof.Machine.execMeldClear t head s
  | .layerFreshClear t layer => Sys2Proof.Machine.execLayerFreshClear t layer s
  | .handSample t head => Sys2Proof.Machine.execHandSample t head s
  | .headLatch t head broken late => Sys2Proof.Machine.execHeadLatch t head broken late s
  | .fetchStart t head => Sys2Proof.Machine.execFetchStart t head s
  | .fetchRowIssue t head plane row errs => Sys2Proof.Machine.execFetchRowIssue t head plane row errs s
  | .line0 t head => Sys2Proof.Machine.execLine0 t head s
  | .outputUnderrun t head line x => Sys2Proof.Machine.execOutputUnderrun t head line x s
  | .obufWatermark t head fill => Sys2Proof.Machine.execObufWatermark t head fill s
  | .synthFail t head => Sys2Proof.Machine.execSynthFail t head s
  | .safeRel t head => Sys2Proof.Machine.execSafeRel t head s
  | .hpdInDeassert t sband => Sys2Proof.Machine.execHpdInDeassert t sband s
  | .hpdInAssert t sband => Sys2Proof.Machine.execHpdInAssert t sband s
  | .oportLinkUp t port => Sys2Proof.Machine.execOportLinkUp t port s
  | .sidebandGo t port ddc read len addr => Sys2Proof.Machine.execSidebandGo t port ddc read len addr s
  | .sidebandDone t port result data => Sys2Proof.Machine.execSidebandDone t port result data s
  | .timingClear t head => Sys2Proof.Machine.execTimingClear t head s
  | .obufClear t head => Sys2Proof.Machine.execObufClear t head s
  | .oportCntClear t port => Sys2Proof.Machine.execOportCntClear t port s
  | .sendCntClear t page senders => Sys2Proof.Machine.execSendCntClear t page senders s
  | .refInPulse t triLevel => Sys2Proof.Machine.execRefInPulse t triLevel s
  | .refInLoss t => Sys2Proof.Machine.execRefInLoss t s
  | .ppsEdge t xo => Sys2Proof.Machine.execPpsEdge t xo s
  | .ppsLoss t => Sys2Proof.Machine.execPpsLoss t s
  | .clk10mLoss t => Sys2Proof.Machine.execClk10mLoss t s
  | .ptpMessageRx t netif domain msg => Sys2Proof.Machine.execPtpMessageRx t netif domain msg s
  | .holdoffExpire t refIn => Sys2Proof.Machine.execHoldoffExpire t refIn s
  | .ptpAnnounceTimeout t => Sys2Proof.Machine.execPtpAnnounceTimeout t s
  | .ptpBackupReturn t => Sys2Proof.Machine.execPtpBackupReturn t s
  | .timeCntClear t => Sys2Proof.Machine.execTimeCntClear t s
  | .refCntClear  => Sys2Proof.Machine.execRefCntClear  s
  | .seal t => Sys2Proof.Machine.execSeal t s
  | .sealComplete t standards => Sys2Proof.Machine.execSealComplete t standards s
  | .withdraw t => Sys2Proof.Machine.execWithdraw t s
  | .revert t => Sys2Proof.Machine.execRevert t s
  | .revertDone t => Sys2Proof.Machine.execRevertDone t s
  | .applyTimeReached t => Sys2Proof.Machine.execApplyTimeReached t s
  | .bidRx t netif msg => Sys2Proof.Machine.execBidRx t netif msg s
  | .retractRx t netif msg => Sys2Proof.Machine.execRetractRx t netif msg s
  | .dealerDecide t => Sys2Proof.Machine.execDealerDecide t s
  | .tableVoteRx t netif msg => Sys2Proof.Machine.execTableVoteRx t netif msg s
  | .houseDecide t => Sys2Proof.Machine.execHouseDecide t s
  | .decisionRx t netif msg => Sys2Proof.Machine.execDecisionRx t netif msg s
  | .decisionDeadline t => Sys2Proof.Machine.execDecisionDeadline t s
  | .lateWindowClose t => Sys2Proof.Machine.execLateWindowClose t s
  | .keepaliveSend t dealer => Sys2Proof.Machine.execKeepaliveSend t dealer s
  | .keepaliveRx t netif msg => Sys2Proof.Machine.execKeepaliveRx t netif msg s
  | .dealerKeepaliveRx t netif msg => Sys2Proof.Machine.execDealerKeepaliveRx t netif msg s
  | .keepaliveMiss t who => Sys2Proof.Machine.execKeepaliveMiss t who s
  | .dealCntClear  => Sys2Proof.Machine.execDealCntClear  s
  | .dealerCntClear  => Sys2Proof.Machine.execDealerCntClear  s
  | .tatreSendFrame t sender errs => Sys2Proof.Machine.execTatreSendFrame t sender errs s
  | .netifDown t netif => Sys2Proof.Machine.execNetifDown t netif s
  | .netifUp t netif => Sys2Proof.Machine.execNetifUp t netif s
  | .nportCntClear t port => Sys2Proof.Machine.execNportCntClear t port s
  | .tatreSendCntClear t page senders => Sys2Proof.Machine.execTatreSendCntClear t page senders s
  | .witnessHandover t => Sys2Proof.Machine.execWitnessHandover t s
  | .witnessChainRecord t => Sys2Proof.Machine.execWitnessChainRecord t s
  | .signPeriod t => Sys2Proof.Machine.execSignPeriod t s
  | .signedEntryReady t => Sys2Proof.Machine.execSignedEntryReady t s
  | .wsigSelect t seq => Sys2Proof.Machine.execWsigSelect t seq s
  | .wsigDataRead t => Sys2Proof.Machine.execWsigDataRead t s
  | .witnessCntClear t head => Sys2Proof.Machine.execWitnessCntClear t head s
  | .chainCntClear  => Sys2Proof.Machine.execChainCntClear  s
  | .audioSampleInstant t => Sys2Proof.Machine.execAudioSampleInstant t s
  | .audioBlockBoundary t => Sys2Proof.Machine.execAudioBlockBoundary t s
  | .aes3FrameRx t input frame => Sys2Proof.Machine.execAes3FrameRx t input frame s
  | .aes3LockLoss t input => Sys2Proof.Machine.execAes3LockLoss t input s
  | .aes3RateMeasure t => Sys2Proof.Machine.execAes3RateMeasure t s
  | .st2110AudioSend t sender => Sys2Proof.Machine.execSt2110AudioSend t sender s
  | .rxsRestart t => Sys2Proof.Machine.execRxsRestart t s
  | .rxsClear t => Sys2Proof.Machine.execRxsClear t s
  | .groupRelease t group met => Sys2Proof.Machine.execGroupRelease t group met s
  | .ainClear t inputs => Sys2Proof.Machine.execAinClear t inputs s
  | .aoutFilledClear t outputs => Sys2Proof.Machine.execAoutFilledClear t outputs s
  | .delayStepsClear t => Sys2Proof.Machine.execDelayStepsClear t s
  | .asendPktsClear t hi senders => Sys2Proof.Machine.execAsendPktsClear t hi senders s
  | .lockstepMismatch t pairB groups => Sys2Proof.Machine.execLockstepMismatch t pairB groups s
  | .watchdogExpire t => Sys2Proof.Machine.execWatchdogExpire t s
  | .fwAutoRestart t => Sys2Proof.Machine.execFwAutoRestart t s
  | .fwRestart t => Sys2Proof.Machine.execFwRestart t s
  | .bootRomStart t xo => Sys2Proof.Machine.execBootRomStart t xo s
  | .engineGroupRelease t group digest version build ok => Sys2Proof.Machine.execEngineGroupRelease t group digest version build ok s
  | .engineGroupReload t group ok => Sys2Proof.Machine.execEngineGroupReload t group ok s
  | .getInfo t => Sys2Proof.Machine.execGetInfo t s
  | .installBegin t => Sys2Proof.Machine.execInstallBegin t s
  | .installData t ok => Sys2Proof.Machine.execInstallData t ok s
  | .installCommit t => Sys2Proof.Machine.execInstallCommit t s
  | .installAbort t => Sys2Proof.Machine.execInstallAbort t s
  | .installConfirm t => Sys2Proof.Machine.execInstallConfirm t s
  | .attestQuote t => Sys2Proof.Machine.execAttestQuote t s
  | .attestRead t => Sys2Proof.Machine.execAttestRead t s
  | .getCert t => Sys2Proof.Machine.execGetCert t s
  | .fuseWrite t => Sys2Proof.Machine.execFuseWrite t s
  | .mboxDone t => Sys2Proof.Machine.execMboxDone t s
  | .defaultTargetHit t addr master data beats => Sys2Proof.Machine.execDefaultTargetHit t addr master data beats s
  | .defClear t => Sys2Proof.Machine.execDefClear t s
  | .keyLoad t clear => Sys2Proof.Machine.execKeyLoad t clear s
  | .debugGetChallenge t => Sys2Proof.Machine.execDebugGetChallenge t s
  | .debugSubmit t challenge => Sys2Proof.Machine.execDebugSubmit t challenge s
  | .debugDataAppend t v => Sys2Proof.Machine.execDebugDataAppend t v s
  | .debugDataReset t => Sys2Proof.Machine.execDebugDataReset t s
  | .challengeExpire t => Sys2Proof.Machine.execChallengeExpire t s
  | .nvmWrite t ctl ue ce => Sys2Proof.Machine.execNvmWrite t ctl ue ce s
  | .nvmRecWrite t ctl ue ce => Sys2Proof.Machine.execNvmRecWrite t ctl ue ce s
  | .nvmRecRead t ctl ue ce => Sys2Proof.Machine.execNvmRecRead t ctl ue ce s
  | .nvmCntInc t ctl ue ce => Sys2Proof.Machine.execNvmCntInc t ctl ue ce s
  | .nvmCntRead t ctl ue ce => Sys2Proof.Machine.execNvmCntRead t ctl ue ce s
  | .nvmCmdDone t ue ce => Sys2Proof.Machine.execNvmCmdDone t ue ce s
  | .pwUnlock t ctl => Sys2Proof.Machine.execPwUnlock t ctl s
  | .pwLock t ctl => Sys2Proof.Machine.execPwLock t ctl s
  | .pwSet t ctl => Sys2Proof.Machine.execPwSet t ctl s
  | .pwClear t ctl => Sys2Proof.Machine.execPwClear t ctl s
  | .nvmWindowRead t off ue ce => Sys2Proof.Machine.execNvmWindowRead t off ue ce s
  | .pwrfailFall t groups => Sys2Proof.Machine.execPwrfailFall t groups s
  | .pwrfailRise t => Sys2Proof.Machine.execPwrfailRise t s
  | .pwrfailLift t => Sys2Proof.Machine.execPwrfailLift t s
  | .nvmScrubStart t => Sys2Proof.Machine.execNvmScrubStart t s
  | .nvmCntClear t => Sys2Proof.Machine.execNvmCntClear t s
  | .hostVotesWrite t dom votes => Sys2Proof.Machine.execHostVotesWrite t dom votes s
  | .domainEnterWrite t dom => Sys2Proof.Machine.execDomainEnterWrite t dom s
  | .instanceAgree t page => Sys2Proof.Machine.execInstanceAgree t page s
  | .agreeTimeout t what => Sys2Proof.Machine.execAgreeTimeout t what s
  | .wakeStepEnd t what => Sys2Proof.Machine.execWakeStepEnd t what s
  | .wakeStepTimeout t what => Sys2Proof.Machine.execWakeStepTimeout t what s
  | .wakeRetry t what => Sys2Proof.Machine.execWakeRetry t what s
  | .powerCntClear t => Sys2Proof.Machine.execPowerCntClear t s
  | .biasUpdate t => Sys2Proof.Machine.execBiasUpdate t s
  | .avsUpdate t target read ack => Sys2Proof.Machine.execAvsUpdate t target read ack s
  | .tempReport t hi lo => Sys2Proof.Machine.execTempReport t hi lo s
  | .stallDetect t page => Sys2Proof.Machine.execStallDetect t page s
  | .sramUe t page detail => Sys2Proof.Machine.execSramUe t page detail s
  | .ceRate t page => Sys2Proof.Machine.execCeRate t page s
  | .resetAssert t groups => Sys2Proof.Machine.execResetAssert t groups s
  | .resetRelease t => Sys2Proof.Machine.execResetRelease t s
  | .readySet t => Sys2Proof.Machine.execReadySet t s
  | .aliveTick t => Sys2Proof.Machine.execAliveTick t s
  | .bar0Read t addr bytes ue ce => Sys2Proof.Machine.execBar0Read t addr bytes ue ce s
  | .clk10mReturn t xo => Sys2Proof.Machine.execClk10mReturn t xo s
  | .nvmScrubPassEnd t corrected ue => Sys2Proof.Machine.execNvmScrubPassEnd t corrected ue s
  | .ptpMessageSend t due => Sys2Proof.Machine.execPtpMessageSend t due s
  | .dpcdScdcAccess t sband a => Sys2Proof.Machine.execDpcdScdcAccess t sband a s
  | .pcRetrainFail t pc => Sys2Proof.Machine.execPcRetrainFail t pc s

end Sys2Proof.Machine
end

