-- ==== Sys2Proof/Safety.lean ====
section
/-! DEFINITION. The terms claims about the machine are stated in: a command that answers, an access that the map takes,
what a claim says stays as it was, and the invariants of a state. -/
namespace Sys2Proof.Machine

/-- The command answers a next state in which the queue and what survives a reset are as before, and of whose device `P`
holds. -/
def Answers (i : Instr) (s : State) (P : Dev → Prop) : Prop := ∃ d, exec i s = .next { s with dev := d } ∧ P d

/-- At house time `t` the device is out of reset and answers host accesses, and the page is one of the map. -/
abbrev State.answersAt (s : State) (t : Nat) (r : PageRef) : Prop :=
  s.dev.inReset = false ∧ (s.dev.atTime t).reachable = true ∧ Dev.validPage r = true

/-- A host write at house time `t` to the live or hand words of a page is taken: the page's unit is in ON or IDLE. -/
abbrev State.takesAt (s : State) (t : Nat) (r : PageRef) : Prop :=
  s.answersAt t r ∧ s.dev.powerState r.blk r.inst r.page < 2

/-- Everything of the device but its register words. -/
def Dev.aside (d : Dev) : Dev := { d with regs := [] }

/-- Everything of the device but its register words, what left at its edge, and the messages of interrupts that wait. -/
def Dev.apart (d : Dev) : Dev := { d with regs := [], msiPending := [], msiHeld := [], msiLast := [], out := [] }

/-- The house time of a command has been reached, and nothing but register words differs. -/
def Dev.wordsOnly (d d' : Dev) (t : Nat) : Prop := d'.aside = (d.atTime t).aside

/-- The house time of a command has been reached, and nothing but register words and what interrupts send differs. -/
def Dev.wordsAndEvents (d d' : Dev) (t : Nat) : Prop := d'.apart = (d.atTime t).apart

/-- Words outside a list read as before. -/
def Dev.keeps (d d' : Dev) (as : List Nat) : Prop := ∀ a, a ∉ as → d'.word a = d.word a

/-- What a host write of a word leaves in it by its access codes (R59): RW bits as written, W1C bits cleared where a 1 is
written, the others as before. -/
def WordRow.after (w : WordRow) (old v : Word) : Word :=
  ((old &&& ~~~ (BitVec.ofNat 32 w.rw)) ||| (v &&& BitVec.ofNat 32 w.rw)) &&& ~~~ (v &&& BitVec.ofNat 32 w.w1c)

/-- No sealed hand waits to be applied, and no power request waits for a transition. -/
abbrev Dev.calm (d : Dev) : Prop := d.hand.pending = false ∧ ∀ q ∈ d.units, q.2.next = none

/-- What survives a reset is in its canonical form: the store, the fuses, the flash and the passwords. -/
abbrev Nonvolatile.canonical (n : Nonvolatile) : Prop :=
  swf nvInit n.store = true ∧ swf Nonvolatile.fuseInit n.fuses = true ∧ swf (fun _ => (0xFF : Byte)) n.flash = true ∧
  swf (fun _ => ([] : List Byte)) n.passwords = true

/-- Words that a reset leaves (R401, R417). -/
def resetKeeps : List Nat := [F.DEBUG_DBG_STS_FAILS.addr 0 0 0, F.NVM_TORN_WRITES.addr 0 0 0]

/-- A device in reset (R458): every other word at its reset value, no store command, and every unit idle. -/
def Dev.atRest (d : Dev) : Prop :=
  (∀ a, a ∉ resetKeeps → d.word a = resetWord a) ∧
  d.store = { pwrfail := d.store.pwrfail, rose := d.store.rose, cut := d.store.cut } ∧ d.mg = { cause := d.mg.cause } ∧
  { d with regs := [], draws := 0, resp := none, out := [], sbHpd := [], store := {}, mg := {} } = ({ inReset := true } : Dev)

/-- The invariant: what survives a reset is canonical, and a device in reset is at rest. -/
def State.Inv (s : State) : Prop := s.nv.canonical ∧ (s.dev.inReset = true → s.dev.atRest)

end Sys2Proof.Machine
end

