-- ==== Sys2Proof/WellFormed.lean ====
section
/-! DEFINITION. The commands that can arrive: operands that name a page name one of the map, and data brought from outside
has the length its interface gives it. The meanings are total: they do not rest on these checks. -/
namespace Sys2Proof

/-- A page of the map (R74). -/
def PageRef.ok (r : PageRef) : Bool :=
  Machine.blkFirst r.blk ≤ r.inst && r.inst < Machine.blkFirst r.blk + Machine.blkCount r.blk && r.page < Machine.blkPages r.blk

/-- A tile of a picture lies in one of at most 2,048 rows and 1,024 columns. -/
def ReadError.ok (e : ReadError) : Bool := e.col < 1024 && e.row < 2048

/-- Equaliser values: the four FFE words of a network lane, or none (R93). -/
def EqValues.ok (e : EqValues) (lane : Nat) : Bool := e.ffe.length = (if lane < 96 then 0 else 4)

/-- A marker's payload is 8 bytes (R107). -/
def MarkerRx.ok (m : MarkerRx) : Bool :=
  match m.payload with
  | some p => p.length = 8
  | none => true

/-- A datagram's payload fits UDP. -/
def msgOk (m : List Byte) : Bool := m.length ≤ 65507

/-- What wakes or is asked to stop names a page of the map. -/
def PowTarget.ok : PowTarget → Bool
  | .domain _ => true
  | .unit r => r.ok

/-- The checks on a command's operands. -/
def Instr.wellFormed : Instr → Bool
  | .registerWrite _ _ bytes _ | .bar0Read _ _ bytes _ _ => 1 ≤ bytes && bytes ≤ 8
  | .enable _ r | .disable _ r | .fenceReq _ r | .fenceRel _ r _ | .fwFenceCauseWrite _ r _ _ _ | .fenceDrainDone _ r
  | .softRst _ r | .softRstDone _ r | .irqRawClear _ r _ _ | .irqEnWrite _ r _ | .irqForce _ r _ | .powerRequest _ r _
  | .instanceAgree _ r | .stallDetect _ r | .sramUe _ r _ | .ceRate _ r => r.ok
  | .bar2Read _ _ bytes _ => 1 ≤ bytes && bytes ≤ 4096
  | .bar2Write _ _ data => 1 ≤ data.length && data.length ≤ 4096
  | .agreeTimeout _ w | .wakeStepEnd _ w | .wakeStepTimeout _ w | .wakeRetry _ w => w.ok
  | .adaptDone _ lane eq => eq.ok lane
  | .bondMarkerRx _ _ m => m.ok
  | .edidRead _ _ _ _ len => 1 ≤ len && len ≤ 4096
  | .sidebandDone _ _ _ data => data.length ≤ 16
  | .engineJobComplete _ _ errs | .fetchRowIssue _ _ _ _ errs | .tatreSendFrame _ _ errs => errs.all (·.ok)
  | .headLatch _ _ _ late => late.all (· < 16)
  | .bidRx _ _ m | .retractRx _ _ m | .tableVoteRx _ _ m | .decisionRx _ _ m | .keepaliveRx _ _ m
  | .dealerKeepaliveRx _ _ m => msgOk m
  | .tatreTileRx _ rx | .tatreStampsRx _ rx | .tatreEndOfFrameRx _ rx | .streamAliveRx _ rx => msgOk rx.msg
  | .engineGroupRelease _ _ digest _ _ _ => digest.length = 32
  | .tempReport _ hi lo => lo ≤ hi && -256 ≤ lo && hi ≤ 255
  | _ => true

/-- The page a target of the power rows names. -/
def PowTarget.pages : PowTarget → List PageRef
  | .domain _ => []
  | .unit r => [r]

/-- The pages a command names by an operand. -/
def Instr.pages : Instr → List PageRef
  | .enable _ r | .disable _ r | .fenceReq _ r | .fenceRel _ r _ | .fwFenceCauseWrite _ r _ _ _ | .fenceDrainDone _ r
  | .softRst _ r | .softRstDone _ r | .irqRawClear _ r _ _ | .irqEnWrite _ r _ | .irqForce _ r _ | .powerRequest _ r _
  | .instanceAgree _ r | .stallDetect _ r | .sramUe _ r _ | .ceRate _ r => [r]
  | .agreeTimeout _ w | .wakeStepEnd _ w | .wakeStepTimeout _ w | .wakeRetry _ w => w.pages
  | _ => []

end Sys2Proof
end

