-- ==== Sys2Proof/Certificates/Slice0/Obligations.lean ====
section
/-! DEFINITION. The statements for the provers. -/
open Sys2Proof Sys2Proof.Machine

/-! The queue, the device in reset, and the invariant. -/

/-- A step runs the command at the front of the queue on the state with the others still waiting (R64). -/
def Obligations.AStepRunsTheFrontCommand : Prop :=
  (∀ (c : Instr) (s : State) (rest : List Instr), s.pending = c :: rest → step s = exec c { s with pending := rest }) ∧
  (∀ (c : Instr) (s : State), ∃ s', exec c s = .next s' ∧ s'.pending = s.pending) ∧
  ∀ s : State, s.pending = [] → step s = .next s

/-- Commands that act on a device in reset. -/
def actsInReset : Instr → Bool
  | .resetRelease .. | .pwrfailFall .. | .pwrfailRise .. | .pwrfailLift .. | .edidRead .. | .dpcdScdcAccess .. => true
  | _ => false

/-- In reset no command changes anything but the end of the reset, a power failure, and a sideband's answer (R458, R459). -/
def Obligations.NothingReachesADeviceInReset : Prop :=
  ∀ s : State, s.dev.inReset = true →
    (∀ c, actsInReset c = false → exec c s = .next s) ∧
    (∀ t sb stream off len, exec (.edidRead t sb stream off len) s = .next { s with dev := { s.dev with resp := some .noAck } }) ∧
    (∀ t sb a, exec (.dpcdScdcAccess t sb a) s = .next { s with dev := { s.dev with resp := some .noAck } })

/-- Every step keeps the store's canonical form, and a device in reset at rest (R458, R459; R407, R412, R417). -/
def Obligations.EveryStepKeepsTheInvariant : Prop :=
  ∀ s s' : State, s.Inv → step s = .next s' → s'.Inv

/-- The state after reset has the invariant (R458). -/
def Obligations.ResetHasTheInvariant : Prop :=
  State.reset.Inv ∧ State.reset.dev.inReset = false ∧ (∀ a, State.reset.dev.word a = resetWord a) ∧ State.reset.pending = []

/-! Counters and records that a command clears. -/

/-- Whole words at some offsets of a page. -/
def wholeWords (os : List Nat) : List (Nat × Word) := os.map (fun o => (o, 0xFFFFFFFF))

/-- The instances of a mask. -/
def maskedOffs {w : Nat} (m : BitVec w) (n : Nat) (os : Nat → List Nat) : List (Nat × Word) :=
  wholeWords (((List.range n).filter (fun k => m.getLsbD k)).flatMap os)

/-- What each clear command sets to 0, by the register tables: its time (0 where the row has none), the page, and the
offsets of its words with the bits that go. -/
def clearedWords : Instr → Option (Nat × PageRef × List (Nat × Word))
  | .ledgerClear t => some (t, ⟨.ledger, 0, 0⟩, wholeWords [0x5C, 0x60, 0x64])
  | .snapClear t => some (t, ⟨.snap, 0, 0⟩, wholeWords [0x70, 0x74, 0x78])
  | .ingestCntClear t c => some (t, ⟨.ingest, c, 0⟩, wholeWords [0x54, 0x58, 0x60, 0x64, 0x68, 0x6C, 0x70, 0x74])
  | .ingestFreshClear t c => some (t, ⟨.ingest, c, 0⟩, wholeWords [0x118, 0x11C])
  | .talonCntClear t => some (t, ⟨.talon, 0, 0⟩, wholeWords [0x84])
  | .memswCntClear t => some (t, ⟨.memsw, 0, 0⟩, wholeWords [0x48, 0x4C, 0x50, 0x54, 0x74])
  | .recorderClear t => some (t, ⟨.recorder, 0, 0⟩, wholeWords [0x60, 0x64, 0x68])
  | .engineCntClear t e => some (t, ⟨.engine, e, 0⟩, wholeWords [0x54, 0x58, 0x5C])
  | .layerFreshClear t l => some (t, ⟨.layer, l, 0⟩, wholeWords [0x108, 0x10C, 0x118])
  | .chaseClear t l => some (t, ⟨.layer, l, 0⟩, wholeWords [0x144, 0x148])
  | .selClear t l => some (t, ⟨.layer, l, 0⟩, wholeWords [0x168, 0x16C])
  | .compClear t l => some (t, ⟨.layer, l, 0⟩, wholeWords [0x1B0])
  | .meldClear t h => some (t, ⟨.head, h, 2⟩, wholeWords [0x50, 0x54, 0x58, 0x5C, 0x60])
  | .timingClear t h => some (t, ⟨.head, h, 0⟩, wholeWords [0x58, 0x60])
  | .obufClear t h => some (t, ⟨.head, h, 3⟩, wholeWords [0x44, 0x48, 0x4C])
  | .oportCntClear t p => some (t, ⟨.oport, p, 0⟩, wholeWords [0x44, 0x48])
  | .timeCntClear t => some (t, ⟨.time, 0, 0⟩, wholeWords [0x5C, 0x60, 0x110])
  | .refCntClear => some (0, ⟨.time, 0, 1⟩, wholeWords [0x50])
  | .dealCntClear => some (0, ⟨.deal, 0, 0⟩, wholeWords [0xC0, 0xC4, 0xC8, 0xCC, 0xD0, 0xD4, 0xD8])
  | .dealerCntClear => some (0, ⟨.deal, 0, 1⟩, wholeWords [0xA0, 0xA4, 0xA8, 0xAC, 0xB0, 0xB4])
  | .witnessCntClear t h =>
    some (t, ⟨.witness, h, 0⟩, wholeWords ((List.range 16).flatMap (fun w => [0x100 + 4 * w, 0x140 + 4 * w]) ++ [0x180]))
  | .chainCntClear => some (0, ⟨.witChain, 64, 0⟩, wholeWords [0x68, 0x6C, 0x70])
  | .delayStepsClear t => some (t, ⟨.audio, 0, 0⟩, wholeWords [0x200])
  | .powerCntClear t => some (t, ⟨.power, 0, 0⟩, wholeWords [0x30C, 0x310, 0x314])
  | .nportCntClear t p =>
    some (t, ⟨.nport, p, 0⟩, wholeWords ((List.range 4).flatMap (fun s => (List.range 7).map (fun k => 0x80 + 32 * s + 4 * k))))
  | .laneCntClear t n =>
    some (t, if (n : Nat) < 96 then ⟨.mlane, n, 0⟩ else ⟨.nlane, n - 96, 0⟩,
      wholeWords (if (n : Nat) < 96 then [0x80, 0x84, 0x88] else [0x80, 0x84]))
  | .sendCntClear t p m => some (t, ⟨.sendV, p, 0⟩, maskedOffs m 16 (fun k => [0x44 + 48 * k, 0x48 + 48 * k, 0x4C + 48 * k]))
  | .tatreSendCntClear t p m =>
    some (t, ⟨.sendT, 4 + p, 0⟩, maskedOffs m 16 (fun k => [0x44 + 48 * k, 0x48 + 48 * k, 0x4C + 48 * k, 0x50 + 48 * k]))
  | .ainClear t m => some (t, ⟨.audio, 0, 1⟩, maskedOffs m 16 (fun k => [0x60 + 48 * k, 0x64 + 48 * k, 0x68 + 48 * k, 0x6C + 48 * k]))
  | .aoutFilledClear t m => some (t, ⟨.audio, 0, 2⟩, maskedOffs m 16 (fun k => [0x80 + 4 * k]))
  | .asendPktsClear t hi m => some (t, ⟨.audio, 0, 7⟩, maskedOffs m 32 (fun k => [0x40 + 4 * (if hi then k + 32 else k)]))
  | .errClear t => some (t, ⟨.global, 0, 0⟩, [(0x68, 0xFFFFFFFF), (0x6C, 0x7F), (0x70, 0xFFFFFFFF)])
  | .defClear t => some (t, ⟨.mgmt, 0, 1⟩, [(0x40, 0xFFFFFFFF), (0x44, 0x7F), (0x48, 0xFFFFFFFF)])
  | .nvmCntClear t =>
    some (t, ⟨.nvm, 0, 0⟩, [(0xC0, 0xFFFFFFFF), (0xC4, 0xFFFFFFFF), (0xC8, 0x3FFFFF), (0xD0, 0xFFFFFFFF), (0xD4, 0xFFFFFFFF)])
  | _ => none

/-- Derived from the register tables: their CLR fields and the counters each table lists under one. -/
def Obligations.ClearsZeroTheirCountersAndNothingElse : Prop :=
  ∀ (c : Instr) (s : State) (t : Nat) (r : PageRef) (ws : List (Nat × Word)),
    clearedWords c = some (t, r, ws) → s.takesAt t r → (r.blk = .nvm → s.dev.nvBusy = false) →
      Answers c s (fun d => s.dev.wordsOnly d t ∧
        ∀ a, d.word a = match ws.find? (fun w => a = pgAddr r + w.1) with
          | some w => s.dev.word a &&& ~~~ w.2
          | none => s.dev.word a)

/-! Interrupt words and messages. -/

/-- IRQ_PEND of a page by its words (R65). -/
def pendWord (d : Dev) (r : PageRef) : Word := d.word (pgAddr r + 0x10) &&& d.word (pgAddr r + 0x14)

/-- IRQ_RAW_CLEAR, IRQ_EN_WRITE and IRQ_FORCE change one word of the page (R63, R65, R81). -/
def interruptWordWritesAct : Prop :=
  ∀ (s : State) (t : Nat) (r : PageRef) (v now : Word), s.answersAt t r → (r.blk = .nvm → s.dev.nvBusy = false) →
    Answers (.irqForce t r v) s (fun d => s.dev.wordsAndEvents d t ∧ s.dev.keeps d [pgAddr r + 0x10] ∧
      d.word (pgAddr r + 0x10) = s.dev.word (pgAddr r + 0x10) ||| (v &&& 0x7FFFFFFF)) ∧
    Answers (.irqEnWrite t r v) s (fun d => s.dev.wordsAndEvents d t ∧ s.dev.keeps d [pgAddr r + 0x14] ∧
      d.word (pgAddr r + 0x14) = v &&& 0x7FFFFFFF) ∧
    Answers (.irqRawClear t r v now) s (fun d => s.dev.wordsAndEvents d t ∧ s.dev.keeps d [pgAddr r + 0x10] ∧
      d.word (pgAddr r + 0x10) = (s.dev.word (pgAddr r + 0x10) ||| (now &&& 0x7FFFFFFF)) &&& ~~~ (v &&& ~~~ now))

/-- The mask bit of a vector is the model's choice: log entry 9. -/
def messageLeavesWhenAPageStartsToPend : Prop :=
  ∀ (s : State) (t : Nat) (r : PageRef) (v : Word), s.answersAt t r → (r.blk = .nvm → s.dev.nvBusy = false) →
    s.dev.get F.GLOBAL_IRQ_COAL_US = 0 → (s.dev.word (0x8000 + 16 * blkVec r.blk + 12)).getLsbD 0 = false →
    let msg : Out := .msix (blkVec r.blk)
      ((s.dev.word (0x8000 + 16 * blkVec r.blk)).toNat + 2 ^ 32 * (s.dev.word (0x8000 + 16 * blkVec r.blk + 4)).toNat)
      (s.dev.word (0x8000 + 16 * blkVec r.blk + 8))
    Answers (.irqForce t r v) s (fun d =>
      d.out = if pendWord s.dev r = 0 ∧ pendWord d r ≠ 0 then msg :: s.dev.out else s.dev.out) ∧
    Answers (.irqEnWrite t r v) s (fun d => d.out = if pendWord d r ≠ 0 then msg :: s.dev.out else s.dev.out)

/-- MSIX_UNMASK and MSIX_COALESCE_EXPIRE send the message that waited (R81). -/
def heldMessagesLeaveInTheEnd : Prop :=
  ∀ (s : State) (t : Nat) (v : Fin 64),
    let msg : Out := .msix v
      ((s.dev.word (0x8000 + 16 * v)).toNat + 2 ^ 32 * (s.dev.word (0x8000 + 16 * v + 4)).toNat) (s.dev.word (0x8000 + 16 * v + 8))
    let last := sget (fun _ => 0) s.dev.msiLast v
    let due := last = 0 ∨ last - 1 + s.dev.get F.GLOBAL_IRQ_COAL_US * 1000 ≤ max s.dev.house t
    (s.answersAt t ⟨.global, 0, 0⟩ → s.dev.get F.GLOBAL_IRQ_COAL_US = 0 →
      Answers (.msixUnmask t v) s (fun d =>
        d.word (0x8000 + 16 * v + 12) = s.dev.word (0x8000 + 16 * v + 12) &&& 0xFFFFFFFE ∧
        s.dev.keeps d [0x8000 + 16 * v + 12] ∧ s.dev.wordsAndEvents d t ∧ (v : Nat) ∉ d.msiPending ∧
        d.out = if (v : Nat) ∈ s.dev.msiPending then msg :: s.dev.out else s.dev.out)) ∧
    (s.dev.inReset = false → (s.dev.word (0x8000 + 16 * v + 12)).getLsbD 0 = false → (v : Nat) ∈ s.dev.msiHeld → due →
      Answers (.msixCoalesceExpire t v) s (fun d => d.regs = s.dev.regs ∧ s.dev.wordsAndEvents d t ∧
        d.out = msg :: s.dev.out ∧ (v : Nat) ∉ d.msiHeld)) ∧
    (s.dev.inReset = false → ((v : Nat) ∉ s.dev.msiHeld ∨ ¬ due) →
      exec (.msixCoalesceExpire t v) s = .next { s with dev := s.dev.atTime t })

/-- Interrupt words act on writes, and messages leave, are held, and are unmasked. -/
def Obligations.InterruptWordsAndMessages : Prop :=
  interruptWordWritesAct ∧ messageLeavesWhenAPageStartsToPend ∧ heldMessagesLeaveInTheEnd

/-! The BAR2 aperture and the LUT bank window. -/

/-- BAR2 writes and reads the slabs of HOST_STAGE (R67, R77, R78; R151, R152, R160, R162, R163). -/
def bar2ReachesTheStage : Prop :=
  ∀ (s : State) (t : Nat) (off : BitVec 28), s.answersAt t ⟨.global, 0, 0⟩ → s.dev.bar2Open = true →
    s.dev.tagFree reqBar2 = true →
    let a := s.dev.bar2Base + off.toNat
    let qos (d : Dev) : Prop := sget (fun _ => 0) d.qos 8192 = s.dev.get F.GLOBAL_BAR2_CTL_QOS
    (∀ bs : List Byte, a + bs.length ≤ 0x2000000000 →
      (∀ i < bs.length, a + i < 0x1F80000000 ∧ some ((a + i) / 0x200000) ∈ s.dev.map ownStage) →
      Answers (.bar2Write t off bs) s (fun d =>
        { d with bytes := [], scrubBad := [], moved := [], qos := [] } =
          { s.dev.atTime t with bytes := [], scrubBad := [], moved := [], qos := [] } ∧ qos d ∧
        (∀ b, b ∈ d.scrubBad ↔ b ∈ s.dev.scrubBad ∧ ∀ i < bs.length, (a + i) / 32 ≠ b / 32) ∧
        ∀ x, memGet d.bytes x =
          if a ≤ x ∧ x < a + bs.length ∧ s.dev.pcFenced (pcOf x) = false then bs.getD (x - a) 0 else memGet s.dev.bytes x)) ∧
    (∀ n : Nat, a + n ≤ 0x2000000000 →
      (∀ i < n, a + i < 0x1F80000000 ∧ s.dev.pcFenced (pcOf (a + i)) = false ∧
        (∀ b ∈ s.dev.scrubBad, b / 32 ≠ (a + i) / 32) ∧
        4 ≤ (s.dev.ownerOf ((a + i) / 0x200000)).1 / 0x1000 ∧ (s.dev.ownerOf ((a + i) / 0x200000)).1 / 0x1000 ≠ 7) →
      Answers (.bar2Read t off n {}) s (fun d => d.resp = some (.bytes (memRead s.dev.bytes a n) false) ∧ qos d ∧
        { d with resp := none, moved := [], qos := [] } = { s.dev.atTime t with resp := none, moved := [], qos := [] }))

/-- BAR2_BASE moves with the write of its HI word (R79). -/
def Obligations.Bar2BaseTakesBothHalves : Prop :=
  ∀ (s : State) (t : Nat) (lo hi : Word), s.answersAt t ⟨.global, 0, 0⟩ →
    (s.dev.loHold.find? (fun q => q.1 = 0x54) = some (0x54, lo) →
      Answers (.bar2BaseWrite t hi) s (fun d =>
        d.bar2Base = hi.toNat % 32 * 2 ^ 32 + lo.toNat / 2 ^ 21 * 2 ^ 21 ∧ s.dev.keeps d [0x54, 0x58] ∧
        { d.aside with loHold := [], hiLatch := [] } = { (s.dev.atTime t).aside with loHold := [], hiLatch := [] } ∧
        ∀ (t' : Nat) (off : BitVec 28) (n : Nat), t ≤ t' → d.bar2Open = true →
          hi.toNat % 32 * 2 ^ 32 + lo.toNat / 2 ^ 21 * 2 ^ 21 + off.toNat + n ≤ 0x1F80000000 →
          d.tagFree reqBar2 = true → d.scrubBad = [] → (∀ i < n, d.pcFenced (pcOf (d.bar2Base + off.toNat + i)) = false ∧
            (d.ownerOf ((d.bar2Base + off.toNat + i) / 0x200000)).1 / 0x1000 = 6) →
          Answers (.bar2Read t' off n {}) { s with dev := d } (fun e => e.resp =
            some (.bytes (memRead d.bytes (hi.toNat % 32 * 2 ^ 32 + lo.toNat / 2 ^ 21 * 2 ^ 21 + off.toNat) n) false)))) ∧
    (s.dev.loHold.find? (fun q => q.1 = 0x54) = none →
      Answers (.bar2BaseWrite t hi) s (fun d =>
        d.bar2Base = hi.toNat % 32 * 2 ^ 32 + (s.dev.word 0x54).toNat / 2 ^ 21 * 2 ^ 21 ∧ s.dev.keeps d [0x58])) ∧
    (s.dev.powerState .global 0 0 < 2 →
      Answers (.registerWrite t 0x54 4 (lo.setWidth 64)) s (fun d =>
        d.bar2Base = s.dev.bar2Base ∧ d.loHold.find? (fun q => q.1 = 0x54) = some (0x54, lo)))

/-- LUT_WINDOW_WRITE stores entries of the bank that LUT_WIN shows (R75, R76, R490; R216, R217). -/
def lutWindowWritesTheBankShown : Prop :=
  ∀ (s : State) (t : Nat) (off : BitVec 16) (v : Word) (q : Nat × Nat × Nat) (p : Nat × Nat),
    s.answersAt t ⟨.global, 0, 0⟩ → s.dev.lutSel = some q → off.toNat % 4 = 0 → Dev.lutPlace q.1 off.toNat = some p →
    (s.dev.lutActive q = false → s.dev.lutLocked q = false →
      Answers (.lutWindowWrite t off v) s (fun d =>
        d.lutRead off.toNat = (if q.1 = 0 then v else v &&& 0xFFF) ∧
        (∀ off', off' % 4 = 0 → off' ≠ off.toNat → d.lutRead off' = s.dev.lutRead off') ∧
        { d with luts := [] } = { s.dev.atTime t with luts := [] })) ∧
    (s.dev.lutActive q = true → s.dev.get F.GLOBAL_ERR_INFO_CAUSE = 0 →
      Answers (.lutWindowWrite t off v) s (fun d =>
        d.luts = s.dev.luts ∧ d.get F.GLOBAL_ERR_INFO_CAUSE = 5 ∧ d.get F.GLOBAL_ERR_ADDR = 0xB00000 + off.toNat))

/-- BAR2 reaches the staging area, and the LUT window the bank that is shown. -/
def Obligations.TheStageAndTheLutWindow : Prop :=
  bar2ReachesTheStage ∧ lutWindowWritesTheBankShown

/-! Accesses to BAR0. -/

/-- A write of a hand region is staged while the hand is not locked, and discarded while it is (R58, R59, R64, R70, R490). -/
def handWritesStage : Prop :=
  ∀ (s : State) (t : Nat) (r : PageRef) (off : Nat) (w : WordRow) (a : BitVec 24) (v : Word),
    s.takesAt t r → isHandOff off = true → off % 4 = 0 → rowAt r.blk r.page off = some w →
    loPair r.blk r.page off ≠ some true → loPair r.blk r.page (off - 4) ≠ some true → a.toNat = pgAddr r + off →
    (s.dev.handLock = false →
      let P (d : Dev) : Prop :=
        d.word a.toNat = w.after (s.dev.word a.toNat) v ∧
        s.dev.keeps d [a.toNat] ∧ { d.aside with written := [] } = { (s.dev.atTime t).aside with written := [] } ∧
        a.toNat ∈ d.written
      Answers (.handWrite t a v) s P ∧ Answers (.registerWrite t a 4 (v.setWidth 64)) s P) ∧
    (s.dev.handLock = true → s.dev.get F.GLOBAL_ERR_INFO_CAUSE = 0 →
      let P (d : Dev) : Prop :=
        d.word a.toNat = s.dev.word a.toNat ∧ d.get F.GLOBAL_ERR_INFO_CAUSE = 2 ∧ d.get F.GLOBAL_ERR_ADDR = a.toNat ∧
        d.get F.GLOBAL_ERR_INFO_WRITE = 1 ∧ (d.word (pgAddr r + 0x10)).getLsbD 26 = true ∧ d.written = s.dev.written
      Answers (.handWrite t a v) s P ∧ Answers (.registerWrite t a 4 (v.setWidth 64)) s P)

/-- The two words of a 64-bit pair are written and read as one value (R62). -/
def pairsWriteAndReadAsOneValue : Prop :=
  (∀ (s : State) (t : Nat) (r : PageRef) (off : Nat) (w w' : WordRow) (a a' : BitVec 24) (lo hi : Word),
    s.takesAt t r → isHandOff off = true → isHandOff (off + 4) = true → off % 4 = 0 →
    loPair r.blk r.page off = some true → loPair r.blk r.page (off + 4) ≠ some true →
    rowAt r.blk r.page off = some w → rowAt r.blk r.page (off + 4) = some w' → s.dev.handLock = false →
    a.toNat = pgAddr r + off → a'.toNat = pgAddr r + off + 4 →
    Answers (.handWrite t a lo) s (fun d =>
      d.regs = s.dev.regs ∧ d.loHold.find? (fun q => q.1 = a.toNat) = some (a.toNat, lo)) ∧
    (s.dev.loHold.find? (fun q => q.1 = a.toNat) = some (a.toNat, lo) →
      Answers (.handWrite t a' hi) s (fun d =>
        d.word a.toNat = w.after (s.dev.word a.toNat) lo ∧
        d.word a'.toNat = w'.after (s.dev.word a'.toNat) hi ∧
        s.dev.keeps d [a.toNat, a'.toNat]))) ∧
  ∀ (s : State) (t : Nat) (r : PageRef) (off : Nat) (a a' : BitVec 24),
    s.takesAt t r → r.blk ≠ .nvm → off < 0xC00 → off % 4 = 0 → (loPair r.blk r.page (Dev.pairOff off)).isSome = true →
    (∀ q ∈ s.dev.hiLatch, q.1 ≠ a.toNat) → a.toNat = pgAddr r + off → a'.toNat = pgAddr r + off + 4 →
    let P (d : Dev) : Prop :=
      d.resp = some (.data ((s.dev.atTime t).pageWord r off)) ∧
      ∀ (s' : State) (t' : Nat), s'.takesAt t' r → s'.dev.hiLatch = d.hiLatch →
        Answers (.bar0Read t' a' 4 [] 0) s' (fun e => e.resp = some (.data ((s.dev.atTime t).pageWord r (off + 4))))
    Answers (.readLoLatch t a) s P ∧ Answers (.bar0Read t a 4 [] 0) s P

/-- Hand words stage, and 64-bit pairs write and read as one value. -/
def Obligations.HandWordsAndPairs : Prop :=
  handWritesStage ∧ pairsWriteAndReadAsOneValue

/-- An access to no page gets the error response and is logged (R72, R73, R490). -/
def undecodedAccessesAreErrors : Prop :=
  ∀ (s : State) (t : Nat) (a : BitVec 24) (v : BitVec 64), s.answersAt t ⟨.global, 0, 0⟩ → a.toNat % 4 = 0 →
    decodeTarget a.toNat = .undecoded →
    let logged (write : Nat) (d : Dev) : Prop :=
      d.get F.GLOBAL_ERR_COUNT = min (s.dev.get F.GLOBAL_ERR_COUNT + 1) 0xFFFFFFFF ∧ (d.word 0x10).getLsbD 1 = true ∧
      s.dev.keeps d [0x10, 0x68, 0x6C, 0x70] ∧
      if s.dev.get F.GLOBAL_ERR_INFO_CAUSE = 0 then
        d.get F.GLOBAL_ERR_ADDR = a.toNat ∧ d.get F.GLOBAL_ERR_INFO_CAUSE = 1 ∧ d.get F.GLOBAL_ERR_INFO_WRITE = write ∧
          d.get F.GLOBAL_ERR_INFO_BAR = 0
      else d.get F.GLOBAL_ERR_ADDR = s.dev.get F.GLOBAL_ERR_ADDR ∧
        d.get F.GLOBAL_ERR_INFO_CAUSE = s.dev.get F.GLOBAL_ERR_INFO_CAUSE ∧ d.get F.GLOBAL_ERR_INFO_OVERFLOW = 1
    Answers (.bar0Read t a 4 [] 0) s (fun d => logged 0 d ∧
      d.resp = some (if s.dev.flag F.GLOBAL_ERR_CTL_UR_EN then .unsupported else .data 0xFFFFFFFF)) ∧
    Answers (.registerWrite t a 4 v) s (logged 1)

/-- CONFIG_REQUEST is retried until the device may answer (R463). -/
def configRequestsWaitForTheDevice : Prop :=
  ∀ (s : State) (t : Nat), s.dev.inReset = false →
    exec (.configRequest t) s = .next { s with dev := { s.dev.atTime t with
      resp := some (.config (!s.dev.cfgReady && decide (max s.dev.house t < s.dev.relTime + 800000000))) } }

/-- Undecoded accesses are errors, and configuration requests wait for the device. -/
def Obligations.AccessErrorsAndConfigRequests : Prop :=
  undecodedAccessesAreErrors ∧ configRequestsWaitForTheDevice

/-! Fences, releases, enables and soft resets. -/

/-- A unit's fence record holds a cause with its detail. -/
def causeHeld (d : Dev) (r : PageRef) (cause detail : Nat) : Prop :=
  ∃ q ∈ d.recs r.blk r.inst r.page, q.cause = cause ∧ q.detail = detail

/-- The unit is fenced with a cause, and keeps the causes it had. -/
def newCause (s : State) (r : PageRef) (cause detail : Nat) (d : Dev) : Prop :=
  causeHeld d r cause detail ∧ ∀ q ∈ s.dev.recs r.blk r.inst r.page, q ∈ d.recs r.blk r.inst r.page

/-- The page of a lane. -/
def lanePageOf (n : Fin 112) : PageRef := if (n : Nat) < 96 then ⟨.mlane, n, 0⟩ else ⟨.nlane, n - 96, 0⟩

/-- Every event that fences a unit records its cause beside those it holds (R449, R450, R452; R65; R104). -/
def Obligations.FencesRecordTheirCause : Prop :=
  ∀ (s : State) (t : Nat), s.dev.inReset = false → s.dev.calm →
    (∀ r, s.answersAt t r → unfenceable r.blk r.page = false → Answers (.fenceReq t r) s (newCause s r 0x01 0)) ∧
    (∀ r (cause detail : Byte) met, Dev.validPage r = true → unfenceable r.blk r.page = false → cause ≠ 0 →
      s.dev.flag F.GLOBAL_STS_FW_HEALTHY = true →
      Answers (.fwFenceCauseWrite t r cause detail met) s (newCause s r cause.toNat detail.toNat)) ∧
    (∀ lane, Answers (.pllFail t lane none) s (newCause s (lanePageOf lane) 0x10 0)) ∧
    (∀ lane (port : Fin 96), Answers (.pllFail t lane (some port)) s (newCause s ⟨.oport, port, 0⟩ 0x10 0)) ∧
    (∀ head : Fin 64, Answers (.synthFail t head) s (newCause s ⟨.head, head, 0⟩ 0x11 0)) ∧
    (∀ r, Dev.validPage r = true → r.blk ∈ [.engine, .head, .ingest, .nport, .sendV, .sendT] →
      s.dev.enabled r.blk r.inst = true → Answers (.stallDetect t r) s (newCause s ⟨r.blk, r.inst, 0⟩ 0x14 0)) ∧
    (∀ r (detail : BitVec 3), Dev.validPage r = true → r.blk ∈ [.engine, .head, .ingest, .oport] →
      Answers (.sramUe t r detail) s (newCause s ⟨r.blk, r.inst, 0⟩ 0x13 detail.toNat)) ∧
    (∀ r, Dev.validPage r = true → enFixed r.blk = false → s.dev.flag F.GLOBAL_STS_FW_HEALTHY = true →
      Answers (.ceRate t r) s (newCause s ⟨r.blk, r.inst, 0⟩ 0x05 2))

/-- What the first FENCE_REQ changes in a unit that nothing outside follows (R448, R449, R451; R65). -/
def firstFenceOfAQuietUnit : Prop :=
  (∀ (s : State) (t : Nat) (r : PageRef), s.answersAt t r → s.dev.calm →
    r.blk ∈ [.layer, .sendV, .sendT, .recorder, .witness] → s.dev.recs r.blk r.inst = [] →
    Answers (.fenceReq t r) s (fun d =>
      d.recs r.blk r.inst = [⟨0x01, 0, false⟩] ∧
      (∀ a, a ≠ pgAddr r → sget fenceReset d.fences a = sget fenceReset s.dev.fences a) ∧
      d.bitsAt (pgAddr r + 0x20) 16 16 = min (s.dev.bitsAt (pgAddr r + 0x20) 16 16 + 1) 65535 ∧
      d.bitsAt (pgAddr r + 0x20) 0 16 = s.dev.bitsAt (pgAddr r + 0x20) 0 16 ∧
      d.word (pgAddr r + 0x10) = s.dev.word (pgAddr r + 0x10) ||| 0x1000000 ∧ s.dev.keeps d [pgAddr r + 0x10, pgAddr r + 0x20] ∧
      pgAddr r ∈ d.draining ∧ (∀ a ∈ s.dev.draining, a ∈ d.draining) ∧
      { d.apart with fences := [], draining := [] } = { (s.dev.atTime t).apart with fences := [], draining := [] })) ∧
  ∀ (s : State) (t : Nat) (r : PageRef), s.dev.inReset = false → s.dev.calm →
    Answers (.fenceDrainDone t r) s (fun d =>
      (∀ a, a ∈ d.draining ↔ a ∈ s.dev.draining ∧ a ≠ Dev.fenceKey r.blk r.inst r.page) ∧ d.regs = s.dev.regs ∧
      { d with draining := [], booksDue := [], tags := [], chans := [], witHanded := 0 } =
        { s.dev.atTime t with draining := [], booksDue := [], tags := [], chans := [], witHanded := 0 } ∧
      (s.dev.booksDue = [] → { d with draining := [] } = { s.dev.atTime t with draining := [] }))

/-- A release stands when it can remove every cause, and is refused when one remains (R449, R454; R65). -/
def releasesStandOrAreRefused : Prop :=
  ∀ (s : State) (t : Nat) (r : PageRef) (met : Bool) (detail : Byte), s.answersAt t r → s.dev.calm →
    unfenceable r.blk r.page = false → s.dev.recs r.blk r.inst r.page ≠ [] →
    ((∀ q ∈ s.dev.recs r.blk r.inst r.page, q.cause = 0x01 ∨ (q.cause = 0x05 ∧ q.detail ≠ 1)) →
      Answers (.fenceRel t r met) s (fun d => d.recs r.blk r.inst r.page = []) ∧
      (s.dev.flag F.GLOBAL_STS_FW_HEALTHY = true →
        Answers (.fwFenceCauseWrite t r 0 detail met) s (fun d => d.recs r.blk r.inst r.page = []))) ∧
    (causeHeld s.dev r 0x06 0 → (∀ q ∈ s.dev.recs r.blk r.inst r.page, q.cause ≠ 0x04 ∧ q.cause ≠ 0x03) →
      let P (d : Dev) : Prop := causeHeld d r 0x06 0 ∧ (d.word (Dev.fenceKey r.blk r.inst r.page + 0x0C)).getLsbD 4 = true ∧
        (d.word (pgAddr r + 0x10)).getLsbD 30 = true ∧
        s.dev.keeps d ((Dev.fenceKey r.blk r.inst r.page + 0x0C) :: (instPages r.blk r.inst r.page).map (fun q => pgAddr q + 0x10))
      Answers (.fenceRel t r met) s P ∧
      (s.dev.flag F.GLOBAL_STS_FW_HEALTHY = true → Answers (.fwFenceCauseWrite t r 0 detail met) s P))

/-- A first fence changes only its unit, and a release stands or is refused. -/
def Obligations.FencesBeginAndAreReleased : Prop :=
  firstFenceOfAQuietUnit ∧ releasesStandOrAreRefused

/-- ENABLE sets EN and ends a DISABLED fence; DISABLE clears EN and fences (R65, R66; R449, R452). -/
def enablesAndDisables : Prop :=
  ∀ (s : State) (t : Nat) (r : PageRef), s.answersAt t r → s.dev.calm →
    (enFixed r.blk = false →
      Answers (.enable t r) s (fun d => d.en r.blk r.inst = true ∧
        (s.dev.en r.blk r.inst = false → unitDom r.blk r.inst = none → ∀ q ∈ d.recs r.blk r.inst, q.cause ≠ 0x06)) ∧
      (s.dev.en r.blk r.inst = true →
        Answers (.disable t r) s (fun d => d.en r.blk r.inst = false ∧ newCause s ⟨r.blk, r.inst, 0⟩ 0x06 0 d))) ∧
    (enFixed r.blk = true ∨ (s.dev.en r.blk r.inst = true) →
      exec (.enable t r) s = .next { s with dev := s.dev.atTime t }) ∧
    (enFixed r.blk = true ∨ (s.dev.en r.blk r.inst = false) →
      exec (.disable t r) s = .next { s with dev := s.dev.atTime t })

/-- SOFT_RST returns the live region to reset, and is an error while the unit runs (R69, R490; R450; R206). -/
def softResetOfAUnit : Prop :=
  ∀ (s : State) (t : Nat) (r : PageRef), s.answersAt t r → s.dev.calm → enFixed r.blk = false →
    (r.blk ≠ .oport → (s.dev.fenced r.blk r.inst r.page = true ∨ s.dev.en r.blk r.inst r.page = false) →
      Answers (.softRst t r) s (fun d =>
        (∀ off, 0x40 ≤ off → off < 0x400 → ¬ (r.blk = .engine ∧ off = 0x4C) → d.word (pgAddr r + off) = resetWord (pgAddr r + off)) ∧
        (r.blk = .engine → d.word (pgAddr r + 0x4C) = s.dev.word (pgAddr r + 0x4C)) ∧
        d.rstBusy r.blk r.inst r.page = true ∧ d.fences = s.dev.fences)) ∧
    (s.dev.fenced r.blk r.inst r.page = false → s.dev.en r.blk r.inst r.page = true → s.dev.get F.GLOBAL_ERR_INFO_CAUSE = 0 →
      Answers (.softRst t r) s (fun d => d.get F.GLOBAL_ERR_INFO_CAUSE = 7 ∧ d.get F.GLOBAL_ERR_ADDR = pgAddr r + 8 ∧
        s.dev.keeps d [0x10, 0x68, 0x6C, 0x70, pgAddr r + 0x10])) ∧
    (s.dev.rstBusy r.blk r.inst r.page = true →
      Answers (.softRstDone t r) s (fun d => d.rstBusy r.blk r.inst r.page = false ∧
        d.recs r.blk r.inst r.page = (s.dev.recs r.blk r.inst r.page).map (fun q => { q with rstSince := true }) ∧
        s.dev.keeps d [Dev.fenceKey r.blk r.inst r.page + 0x0C]))

/-- Enables, disables and soft resets of a unit. -/
def Obligations.EnablesAndSoftResets : Prop :=
  enablesAndDisables ∧ softResetOfAUnit

/-! Power domains and instances. -/

/-- Votes, entry writes and power requests begin what the rules give (R433, R434, R435, R436, R437, R438, R439). -/
def votesAndPowerRequests : Prop :=
  (∀ (s : State) (t : Nat) (x : Fin 36) (v : BitVec 8), s.takesAt t ⟨.power, 0, 0⟩ → s.dev.calm →
    let a := 0x50040 + 4 * (x : Nat)
    let next := (s.dev.put F.POWER_DOM_CTL_HOST_VOTES v.toNat 0 x).votes x
    Answers (.hostVotesWrite t x v) s (fun d => d.get F.POWER_DOM_CTL_HOST_VOTES 0 x = v.toNat ∧
      (s.dev.domState x = 0 → (s.dev.dom x).phase = 0 → next ≠ 0 → s.dev.wordsOnly d t ∧ s.dev.keeps d [a]) ∧
      ((x : Nat) < 35 → s.dev.domState x ≠ 0 → (s.dev.dom x).phase = 0 → s.dev.flag F.POWER_DOM_STS_FENCED 0 x = false →
        s.dev.flag F.GLOBAL_STS_MGMT_ONLY = false → s.dev.votes x = 0 → next ≠ 0 →
        d.get F.POWER_DOM_STS_BUSY 0 x = 1 ∧ (d.dom x).phase = 2 ∧
          (d.dom x).step = (if s.dev.domState x = 1 then 3 else 1) ∧ d.get F.POWER_DOM_STS_STEP 0 x = (d.dom x).step))) ∧
  (∀ (s : State) (t : Nat) (x : Fin 36), s.takesAt t ⟨.power, 0, 0⟩ → s.dev.calm → (x : Nat) < 35 →
    s.dev.get F.POWER_DOM_CTL_LOW_STATE 0 x ≠ 0 → s.dev.domState x = 0 → (s.dev.dom x).phase = 0 → s.dev.votes x = 0 →
    (∃ q ∈ domUnits x, s.dev.fenced q.1 q.2 = false) →
    (∀ q ∈ domUnits x, s.dev.fenced q.1 q.2 = true ∨ s.dev.refusesNow q.1 q.2 = 0) →
    Answers (.domainEnterWrite t x) s (fun d => (d.dom x).phase = 1 ∧
      (d.dom x).target = s.dev.get F.POWER_DOM_CTL_LOW_STATE 0 x ∧ (d.dom x).agreed = [] ∧
      d.get F.POWER_DOM_STS_BUSY 0 x = 1 ∧ d.get F.POWER_DOM_STS_REFUSED 0 x = 0 ∧
      s.dev.keeps d [0x50100 + 4 * (x : Nat)])) ∧
  ∀ (s : State) (t : Nat) (r : PageRef) (req : BitVec 2), s.answersAt t r → s.dev.calm →
    (∀ x, unitDom r.blk r.inst = some x → req ≠ 0 → (s.dev.unit r.blk r.inst).phase = 0 →
      (s.dev.unit r.blk r.inst).state = 0 → (s.dev.dom x).phase = 0 → s.dev.domState x = 0 →
      Answers (.powerRequest t r req) s (fun d => newCause s ⟨r.blk, r.inst, 0⟩ 0x04 0 d ∧
        d.powerReq r.blk r.inst = req.toNat)) ∧
    (unitDom r.blk r.inst = none → exec (.powerRequest t r req) s = .next { s with dev := s.dev.atTime t })

/-- An instance that agrees enters its state; one that does not in time refuses (R433, R436, R437). -/
def agreementsAndTheirTimeLimit : Prop :=
  (∀ (s : State) (t : Nat) (r : PageRef) (x : Nat), s.dev.inReset = false → s.dev.calm → Dev.validPage r = true →
    unitDom r.blk r.inst = some x →
    ((s.dev.unit r.blk r.inst).phase = 1 →
      Answers (.instanceAgree t r) s (fun d => (d.unit r.blk r.inst).phase = 0 ∧
        (d.unit r.blk r.inst).state = (s.dev.unit r.blk r.inst).target ∧ pageAddr r.blk r.inst 0 ∉ d.draining)) ∧
    ((s.dev.unit r.blk r.inst).phase ≠ 1 → (s.dev.dom x).phase = 1 →
      Answers (.instanceAgree t r) s (fun d => pageAddr r.blk r.inst 0 ∉ d.draining ∧
        (pageAddr r.blk r.inst 0 ∈ (d.dom x).agreed ∨ ((d.dom x).phase = 0 ∧ d.domState x = (s.dev.dom x).target % 4)))) ∧
    ((s.dev.unit r.blk r.inst).phase = 1 →
      (s.dev.unit r.blk r.inst).asked + s.dev.get F.POWER_AGREE_AGREE_US * 1000 ≤ max s.dev.house t →
      Answers (.agreeTimeout t (.unit r)) s (fun d => (d.unit r.blk r.inst).phase = 0 ∧
        (d.word (pageAddr r.blk r.inst 0 + 0x30)).getLsbD 9 = true ∧ (d.word (pageAddr r.blk r.inst 0 + 0x30)).getLsbD 8 = false ∧
        (d.word (pageAddr r.blk r.inst 0 + 0x10)).getLsbD 29 = true))) ∧
  ∀ (s : State) (t : Nat) (x : Fin 36), s.dev.inReset = false → s.dev.calm → (s.dev.dom x).phase = 1 →
    (s.dev.dom x).asked + s.dev.get F.POWER_AGREE_AGREE_US * 1000 ≤ max s.dev.house t →
    (∃ q ∈ domUnits x, s.dev.fenced q.1 q.2 = false ∧ pageAddr q.1 q.2 0 ∉ (s.dev.dom x).agreed) →
    Answers (.agreeTimeout t (.domain x)) s (fun d => (d.dom x).phase = 0 ∧ d.get F.POWER_DOM_STS_BUSY 0 x = 0 ∧
      d.get F.POWER_DOM_STS_REFUSED 0 x = 1 ∧ d.get F.POWER_REFUSE_LOG_REASON = 1 ∧ d.get F.POWER_REFUSE_LOG_DOMAIN = x ∧
      d.get F.POWER_REFUSALS = min (s.dev.get F.POWER_REFUSALS + 1) 0xFFFFFFFF ∧ d.get64 F.POWER_REFUSE_TIME_LO = max s.dev.house t % 2 ^ 64)

/-- Power votes and requests, and the agreements of a domain. -/
def Obligations.PowerRequestsAndAgreements : Prop :=
  votesAndPowerRequests ∧ agreementsAndTheirTimeLimit

/-- A wake of a domain takes its next step, fails a try, or tries again (R439, R440, R447; R464). -/
def wakesGoStepByStep : Prop :=
  ∀ (s : State) (t : Nat) (x : Fin 36), s.dev.inReset = false → s.dev.calm → (x : Nat) < 35 →
    let u := s.dev.dom x
    let now := max s.dev.house t
    (u.phase = 2 → u.start + s.dev.stepDelay x u.step ≤ now → (u.step ≠ 3 ∨ s.dev.flag F.TIME_STS_XO_OK = true) →
      (∀ n, Dev.stepAfter (wakeSteps (isStack x) u.left) u.step = some n →
        Answers (.wakeStepEnd t (.domain x)) s (fun d => (d.dom x).phase = 2 ∧ (d.dom x).step = n ∧ (d.dom x).start = now ∧
          d.get F.POWER_DOM_STS_STEP 0 x = n ∧ s.dev.keeps d [0x50100 + 4 * (x : Nat)])) ∧
      (Dev.stepAfter (wakeSteps (isStack x) u.left) u.step = none → s.dev.votes x ≠ 0 → u.waits = [] → u.releases = [] → u.left < 2 →
        Answers (.wakeStepEnd t (.domain x)) s (fun d => d.domState x = 0 ∧ (d.dom x).tried = true))) ∧
    (u.phase = 2 → s.dev.stepLimit x u.step ≠ 0 → u.start + s.dev.stepLimit x u.step ≤ now →
      u.tries + 1 ≤ s.dev.get F.POWER_DOM_CTL_RETRIES 0 x →
      Answers (.wakeStepTimeout t (.domain x)) s (fun d => d.domState x = 3 ∧ (d.dom x).phase = 3 ∧ (d.dom x).start = now ∧
        d.get F.POWER_DOM_STS_WAKE_FAULT 0 x = 1 ∧ d.get F.POWER_DOM_STS_TRIES 0 x = min (u.tries + 1) 3 ∧
        d.get F.POWER_WAKE_FAULTS = min (s.dev.get F.POWER_WAKE_FAULTS + 1) 0xFFFFFFFF)) ∧
    (u.phase = 3 → u.start + 10000000 ≤ now → s.dev.flag F.GLOBAL_STS_MGMT_ONLY = false →
      Answers (.wakeRetry t (.domain x)) s (fun d => (d.dom x).phase = 2 ∧ (d.dom x).start = now ∧ (d.dom x).tries = u.tries ∧
        d.get F.POWER_DOM_STS_BUSY 0 x = 1 ∧ s.dev.keeps d [0x50100 + 4 * (x : Nat)]))

/-- Body bias, supply and temperature reports (R443, R444, R445). -/
def supplyAndTemperatureRows : Prop :=
  ∀ (s : State) (t : Nat), s.dev.inReset = false →
    (s.dev.flag F.GLOBAL_STS_FW_HEALTHY = true →
      Answers (.biasUpdate t) s (fun d =>
        let want : Int := min 150 (max 0 ((20 - sgn 9 (s.dev.get F.POWER_TEMP_TJ_MAX)) * 15 / 4))
        let was : Int := s.dev.get F.POWER_BIAS_STS_FBB_MV
        (d.get F.POWER_BIAS_STS_FBB_MV : Int) = (if was ≤ want then min want (was + 25) else max want (was - 25)) ∧
        s.dev.wordsOnly d t ∧ s.dev.keeps d [0x51044]) ∧
      ∀ (target rd : BitVec 12) (ack : Bool), 700 ≤ target.toNat → target.toNat ≤ 850 → target.toNat % 5 = 0 →
        Answers (.avsUpdate t target rd ack) s (fun d => d.get F.POWER_AVS_STS_READ_MV = rd.toNat ∧
          s.dev.keeps d [0x51040, 0x51010] ∧
          (ack = true → d.get F.POWER_AVS_STS_TARGET_MV = target.toNat ∧ d.get F.POWER_AVS_STS_FAULT = 0 ∧
            d.word 0x51010 = s.dev.word 0x51010) ∧
          (ack = false → d.get F.POWER_AVS_STS_TARGET_MV = s.dev.get F.POWER_AVS_STS_TARGET_MV ∧
            d.get F.POWER_AVS_STS_FAULT = 1 ∧ d.word 0x51010 = s.dev.word 0x51010 ||| 1))) ∧
    ∀ hi lo : Int, -256 ≤ lo → lo ≤ hi → hi < 256 →
      Answers (.tempReport t hi lo) s (fun d =>
        sgn 9 (d.get F.POWER_TEMP_TJ_MAX) = hi ∧ sgn 9 (d.get F.POWER_TEMP_TJ_MIN) = lo ∧ s.dev.keeps d [0x51048, 0x51010] ∧
        ((d.word 0x51010).getLsbD 1 = true ↔ (s.dev.word 0x51010).getLsbD 1 = true ∨
          (sgn 9 (s.dev.get F.POWER_TEMP_TJ_MAX) < sgn 9 (s.dev.get F.POWER_THERM_CTL_WARN_C) ∧
            sgn 9 (s.dev.get F.POWER_THERM_CTL_WARN_C) ≤ hi)))

/-- Wakes go step by step, and supply and temperature are watched. -/
def Obligations.WakesSupplyAndTemperature : Prop :=
  wakesGoStepByStep ∧ supplyAndTemperatureRows

/-! Audits, the rebuild, and snapshots. -/

/-- AUDIT_RUN, AUDIT_EVENT and TALON_FREEZE_END complete: an audit is asked for, starts at its instant, and counts the talon (R49, R50, R51). -/
def auditsStartAndFreeze : Prop :=
  (∀ (s : State) (t : Nat), s.takesAt t ⟨.ledger, 0, 0⟩ → s.dev.flag F.LEDGER_AUDIT_STS_BUSY = false → s.dev.auditDue = none →
    exec (.auditRun t) s = .next { s with dev :=
      { s.dev.atTime t with auditDue := some ((max s.dev.house t + 2999) / 1000 * 1000) } }) ∧
  (∀ (s : State) (t : Nat), s.takesAt t ⟨.ledger, 0, 0⟩ →
    s.dev.flag F.LEDGER_AUDIT_STS_BUSY = true ∨ s.dev.auditDue ≠ none →
    exec (.auditRun t) s = .next { s with dev := s.dev.atTime t }) ∧
  (∀ (s : State) (t e : Nat), s.dev.inReset = false → s.dev.auditDue = some e → e ≤ t →
    s.dev.flag F.LEDGER_AUDIT_CTL_PERIODIC = false → s.dev.flag F.LEDGER_AUDIT_STS_BUSY = false →
    s.dev.flag F.LEDGER_AUDIT_STS_REBUILDING = false →
    Answers (.auditEvent t) s (fun d => d.get F.LEDGER_AUDIT_STS_BUSY = 1 ∧ d.auditE = e ∧ d.talonFrozen = true ∧
      d.auditDue = none ∧ s.dev.keeps d [0x342048] ∧ d.maps = s.dev.maps ∧ d.freeCount = s.dev.freeCount ∧
      ∀ p : Fin 20, BookRead.tags p (s.dev.pool p).free (s.dev.pool p).out ∈ d.auditRegs)) ∧
  (∀ (s : State) (t : Nat), s.dev.inReset = false → s.dev.auditDue = none → s.dev.flag F.LEDGER_AUDIT_CTL_PERIODIC = true →
    s.dev.auditSecond < t / 1000000000 → s.dev.flag F.LEDGER_AUDIT_STS_BUSY = false →
    Answers (.auditEvent t) s (fun d => d.get F.LEDGER_AUDIT_STS_BUSY = 1 ∧ d.auditE = t / 1000000000 * 1000000000 ∧
      d.auditSecond = t / 1000000000 ∧ d.talonFrozen = !s.dev.flag F.LEDGER_AUDIT_STS_REBUILDING ∧ s.dev.keeps d [0x342048])) ∧
  (∀ (s : State) (t : Nat), s.dev.inReset = false → s.dev.auditDue = none → s.dev.flag F.LEDGER_AUDIT_CTL_PERIODIC = true →
    s.dev.auditSecond < t / 1000000000 → s.dev.flag F.LEDGER_AUDIT_STS_BUSY = true →
    Answers (.auditEvent t) s (fun d => d.get F.LEDGER_AUDIT_SKIP = min (s.dev.get F.LEDGER_AUDIT_SKIP + 1) 0xFFFFFFFF ∧
      d.auditE = s.dev.auditE ∧ s.dev.keeps d [0x342064])) ∧
  (∀ (s : State) (t : Nat), s.dev.inReset = false → s.dev.talonFrozen = true →
    Answers (.talonFreezeEnd t) s (fun d => d.talonFrozen = false ∧ d.auditFree = s.dev.freeCount ∧
      d.auditAlloc = s.dev.heldSlabs.length)) ∧
  ∀ (s : State) (t : Nat), s.dev.inReset = false → s.dev.talonFrozen = false →
    exec (.talonFreezeEnd t) s = .next { s with dev := s.dev.atTime t }

/-- AUDIT_COMPLETE reports, and fences the owners of failing books (R46, R50, R51, R52, R55, R491). -/
def Obligations.AuditResults : Prop :=
  ∀ (s : State) (t : Nat) (found : List BookRead), s.dev.inReset = false → s.dev.calm →
    s.dev.flag F.LEDGER_AUDIT_STS_BUSY = true → s.dev.talonFrozen = false →
    let z := s.dev.auditFound found
    let slabs := s.dev.auditNoTalon = false ∧ z.auditFree + z.auditAlloc ≠ 64512
    let fails (b : Books) : Prop := (b = .talonSlabs ∧ slabs) ∨ ∃ q ∈ z.auditRegs, Dev.bookFails q = some b
    (found = [] → z.auditRegs = s.dev.auditRegs ∧ z.auditFree = s.dev.auditFree ∧ z.auditAlloc = s.dev.auditAlloc) ∧
    Answers (.auditComplete t found) s (fun d =>
      d.get F.LEDGER_AUDIT_STS_BUSY = 0 ∧ d.get64 F.LEDGER_AUDIT_TIME_LO = s.dev.auditE % 2 ^ 64 ∧
      d.get F.LEDGER_AUDIT_COUNT = min (s.dev.get F.LEDGER_AUDIT_COUNT + 1) 0xFFFFFFFF ∧
      ((∀ b, ¬ fails b) → d.fences = s.dev.fences ∧ d.get F.LEDGER_FAULT_COUNT = s.dev.get F.LEDGER_FAULT_COUNT ∧
        (s.dev.auditNoTalon = false → d.get F.LEDGER_AUDIT_STS_TALON = 0) ∧ d.get F.LEDGER_AUDIT_STS_TAGS = 0 ∧
        d.get F.LEDGER_AUDIT_STS_CREDITS = 0 ∧ d.get F.LEDGER_AUDIT_STS_AUDIO = 0 ∧ d.get F.LEDGER_AUDIT_STS_DEAL_BIDS = 0 ∧
        d.get F.LEDGER_AUDIT_STS_WITNESS_CHAIN = 0) ∧
      ∀ b, fails b →
        d.get F.LEDGER_FAULT_COUNT = min (s.dev.get F.LEDGER_FAULT_COUNT + 1) 0xFFFFFFFF ∧
        ∀ u ∈ (s.dev.bookOwners b).units, causeHeld d ⟨u.1, u.2.1, u.2.2⟩ 0x02 (s.dev.bookOwners b).detail)

/-- TALON_REBUILD and REBUILD_COMPLETE complete: a rebuild starts from a ledger fault and ends by passing or failing (R46, R53, R54, R492). -/
def rebuildsStartAndEnd : Prop :=
  let rebuildFail (d : Dev) : Prop := d.get F.LEDGER_AUDIT_STS_TALON = 1 ∧ d.get F.LEDGER_AUDIT_STS_REBUILD_FAIL = 1
  let rebuildPass (d : Dev) : Prop := d.get F.LEDGER_AUDIT_STS_TALON = 0 ∧ d.get F.LEDGER_AUDIT_STS_REBUILD_FAIL = 0
  (∀ (s : State) (t : Nat), s.dev.inReset = false → s.dev.flag F.GLOBAL_STS_FW_HEALTHY = true →
    s.dev.flag F.LEDGER_AUDIT_STS_REBUILDING = false → s.dev.rebuilt = false →
    (if s.dev.hasCause .talon 0 0 0x03 = true then s.dev.rebuildAsked = true else s.dev.hasCause .talon 0 0 0x02 = true) →
    Answers (.talonRebuild t) s (fun d => d.get F.LEDGER_AUDIT_STS_REBUILDING = 1)) ∧
  (∀ (s : State) (t : Nat), s.dev.inReset = false → s.dev.hasCause .talon 0 0 0x03 = true → s.dev.rebuildAsked = false →
    exec (.talonRebuild t) s = .next { s with dev := s.dev.atTime t }) ∧
  (∀ (s : State) (t : Nat) (found upsets : List SlabUpset), s.dev.inReset = false → s.dev.calm →
    s.dev.flag F.LEDGER_AUDIT_STS_REBUILDING = true →
    Answers (.rebuildComplete t found upsets) s (fun d => d.get F.LEDGER_AUDIT_STS_REBUILDING = 0 ∧
      (upsets = [] → d.leaked = []) ∧ (rebuildFail d ∨ rebuildPass d))) ∧
  (∀ (s : State) (t : Nat) (found upsets : List SlabUpset), s.dev.inReset = false → s.dev.calm →
    s.dev.flag F.LEDGER_AUDIT_STS_REBUILDING = true → s.dev.rebuildAsked = false → s.dev.flag F.LEDGER_CTL_AUTO_RELEASE = false →
    Answers (.rebuildComplete t found upsets) s (fun d =>
      (d.freeCount + d.heldSlabs.length ≠ 64512 → rebuildFail d ∧
        d.recs .talon 0 = (s.dev.recs .talon 0).map (fun q => if q.cause = 0x02 then { q with cause := 0x03 } else q)) ∧
      (d.freeCount + d.heldSlabs.length = 64512 → rebuildPass d ∧ d.fences = s.dev.fences ∧ d.rebuilt = true))) ∧
  ∀ (s : State) (t : Nat) (found upsets : List SlabUpset), s.dev.inReset = false → s.dev.calm →
    s.dev.flag F.LEDGER_AUDIT_STS_REBUILDING = true → s.dev.flag F.LEDGER_CTL_AUTO_RELEASE = true →
    Answers (.rebuildComplete t found upsets) s (fun d =>
      rebuildFail d ∨ (rebuildPass d ∧ ∀ q ∈ d.recs .talon 0, q.cause ≠ 0x02 ∧ q.cause ≠ 0x03))

/-- Audits start and freeze, and rebuilds start and end. -/
def Obligations.AuditsAndRebuilds : Prop :=
  auditsStartAndFreeze ∧ rebuildsStartAndEnd

/-- What each trigger of a snapshot does (R455, R456, R466, R467). -/
def snapshotTriggers : Prop :=
  ∀ (s : State) (t : Nat),
    let trig (at_ : Nat) (c : Instr) : Prop :=
      (s.dev.flag F.SNAP_STS_ARMED = true → s.dev.flag F.SNAP_STS_PENDING = false → s.dev.flag F.SNAP_STS_SCHED_PENDING = false →
        Answers c s (fun d => d.get F.SNAP_STS_PENDING = 1 ∧
          d.get64 F.SNAP_PENDING_E_LO = (at_ + s.dev.get F.SNAP_LEAD_LEAD_US * 1000) % 2 ^ 64 ∧
          s.dev.keeps d [0x60058, 0x60064, 0x60068])) ∧
      (s.dev.flag F.SNAP_STS_ARMED = true → s.dev.flag F.SNAP_STS_PENDING = true →
        Answers c s (fun d => d.get F.SNAP_MERGED = min (s.dev.get F.SNAP_MERGED + 1) 0xFFFFFFFF ∧ s.dev.keeps d [0x60074])) ∧
      (s.dev.flag F.SNAP_STS_ARMED = false →
        Answers c s (fun d => d.get F.SNAP_MISSED = min (s.dev.get F.SNAP_MISSED + 1) 0xFFFFFFFF ∧
          d.word 0x60010 = s.dev.word 0x60010 ||| 4 ∧ s.dev.keeps d [0x60010, 0x60078]))
    (s.takesAt t ⟨.snap, 0, 0⟩ →
      trig (max s.dev.house t) (.snapNow t) ∧
      (s.dev.flag F.SNAP_STS_PENDING = false →
        (max s.dev.house t + s.dev.get F.SNAP_LEAD_LEAD_US * 1000 ≤ s.dev.get64 F.SNAP_SCHED_TIME_LO →
          Answers (.snapSchedArm t) s (fun d => d.get F.SNAP_STS_SCHED_PENDING = 1 ∧ d.get F.SNAP_STS_LATE = 0 ∧
            d.snapSched = s.dev.get64 F.SNAP_SCHED_TIME_LO ∧ s.dev.keeps d [0x60058])) ∧
        (s.dev.get64 F.SNAP_SCHED_TIME_LO < max s.dev.house t + s.dev.get F.SNAP_LEAD_LEAD_US * 1000 →
          Answers (.snapSchedArm t) s (fun d => d.get F.SNAP_STS_LATE = 1 ∧
            d.get F.SNAP_STS_SCHED_PENDING = s.dev.get F.SNAP_STS_SCHED_PENDING ∧
            d.word 0x60010 = s.dev.word 0x60010 ||| 2 ∧ s.dev.keeps d [0x60010, 0x60058]))) ∧
      Answers (.snapSchedCancel t) s (fun d => d.get F.SNAP_STS_SCHED_PENDING = 0 ∧ s.dev.keeps d [0x60058]) ∧
      Answers (.snapRearm t) s (fun d => d.get F.SNAP_STS_ARMED = 1 ∧ s.dev.wordsOnly d t ∧ s.dev.keeps d [0x60058])) ∧
    ∀ rising, s.dev.inReset = false → s.dev.flag F.SNAP_MODE_PIN_EN = true → s.dev.flag F.SNAP_MODE_PIN_RISE = rising →
      trig t (.snapInEdge t rising)

/-- At E every page that takes part latches its mirror, its stamp and VALID (R456, R457, R466; R58, R65). -/
def snapshotLatchesEveryPage : Prop :=
  ∀ (s : State) (t : Nat), s.dev.inReset = false → s.dev.flag F.SNAP_STS_ARMED = true → s.dev.flag F.SNAP_STS_PENDING = true →
    s.dev.flag F.SNAP_STS_SCHED_PENDING = false → s.dev.get64 F.SNAP_PENDING_E_LO ≤ t →
    let e := s.dev.get64 F.SNAP_PENDING_E_LO
    let was := (s.dev.atTime t).put F.SNAP_STS_PENDING 0
    let takes (r : PageRef) : Prop := (s.dev.word (pgAddr r + 0x24)).getLsbD 0 = true ∧ s.dev.powerState r.blk r.inst r.page < 2
    Answers (.snapshotEvent t) s (fun d =>
      (∀ r, Dev.validPage r = true → takes r →
        (∀ k < 256, sget (fun _ => (0 : Word)) d.mirror (pgAddr r + 4 * k) = BitVec.ofNat 32 (was.viewWord r (4 * k))) ∧
        d.word (pgAddr r + 0x28) = BitVec.ofNat 32 e ∧ d.word (pgAddr r + 0x2C) = BitVec.ofNat 32 (e / 2 ^ 32) ∧
        (d.word (pgAddr r + 0x24)).getLsbD 1 = true ∧ (d.word (pgAddr r + 0x10)).getLsbD 28 = true) ∧
      (∀ r, Dev.validPage r = true → ¬ takes r →
        (∀ k < 256, sget (fun _ => (0 : Word)) d.mirror (pgAddr r + 4 * k) =
          sget (fun _ => (0 : Word)) s.dev.mirror (pgAddr r + 4 * k)) ∧
        d.word (pgAddr r + 0x28) = s.dev.word (pgAddr r + 0x28) ∧ d.word (pgAddr r + 0x2C) = s.dev.word (pgAddr r + 0x2C)) ∧
      d.get F.SNAP_SNAPSHOTS = min (s.dev.get F.SNAP_SNAPSHOTS + 1) 0xFFFFFFFF ∧ d.get64 F.SNAP_LAST_E_LO = e ∧
      d.get F.SNAP_STS_PENDING = 0 ∧ d.get F.SNAP_STS_ARMED = (if s.dev.flag F.SNAP_MODE_ONE_SHOT then 0 else 1))

/-- Snapshot triggers, and the latch of every page. -/
def Obligations.Snapshots : Prop :=
  snapshotTriggers ∧ snapshotLatchesEveryPage

/-! Serial lanes. -/

/-- Loss and return of signal and lock, and the end of acquisition, of a lane (R85, R87, R89, R94, R95, R96, R97, R98, R110). -/
def Obligations.LaneSignalEvents : Prop :=
  ∀ (s : State) (t : Nat) (n : Fin 112) (rate : BitVec 25) (eq : EqValues), s.dev.inReset = false → s.dev.calm →
    let page := pgAddr (lanePageOf n)
    let irq := page + 0x10
    let sts (f : Fld) (d : Dev) : Nat := d.lget f n
    let plus (f : Fld) (d : Dev) : Prop := sts f d = min (sts f s.dev + 1) 0xFFFFFFFF
    (sts F.MLANE_LANE_STS_LOS s.dev = 0 →
      Answers (.losAssert t n) s (fun d => sts F.MLANE_LANE_STS_LOS d = 1 ∧ sts F.MLANE_LANE_STS_LOL d = 1 ∧
        plus F.MLANE_LOS_EVENTS d ∧ (d.word irq).getLsbD 0 = true ∧
        (if sts F.MLANE_LANE_STS_LOL s.dev = 0 then plus F.MLANE_LOL_EVENTS d ∧ (d.word irq).getLsbD 2 = true
          else sts F.MLANE_LOL_EVENTS d = sts F.MLANE_LOL_EVENTS s.dev))) ∧
    (sts F.MLANE_LANE_STS_LOS s.dev = 1 →
      Answers (.losClear t n) s (fun d => sts F.MLANE_LANE_STS_LOS d = 0 ∧ d.word irq = s.dev.word irq ||| 2 ∧
        (sts F.MLANE_LANE_STS_RX_LSTATE s.dev = 0 ∧ (s.dev.lane n).rxTarget = none →
          sts F.MLANE_LANE_STS_ADAPT_DONE d = 0 ∧ (d.lane n).acq = true ∧
          sts F.MLANE_RX_EQ_STS_CTLE d = (if (s.dev.lane n).keep then sts F.MLANE_RX_EQ_STS_CTLE s.dev
            else sts F.MLANE_RX_EQ_CTL_CTLE s.dev) ∧
          ((n : Nat) < 96 → s.dev.keeps d [irq, page + 0x50, page + 0x54, page + 0x60, F.MLANE_RX_EQ_STS_CTLE.addr n 0 0])) ∧
        (sts F.MLANE_LANE_STS_RX_LSTATE s.dev ≠ 0 ∨ (s.dev.lane n).rxTarget ≠ none →
          d.lanes = s.dev.lanes ∧ s.dev.keeps d [irq, page + 0x60]))) ∧
    (sts F.MLANE_LANE_STS_LOL s.dev = 0 → sts F.MLANE_LANE_STS_RX_LSTATE s.dev = 0 →
      Answers (.lolAssert t n) s (fun d => sts F.MLANE_LANE_STS_LOL d = 1 ∧ plus F.MLANE_LOL_EVENTS d ∧
        (d.word irq).getLsbD 2 = true ∧ sts F.MLANE_LOS_EVENTS d = sts F.MLANE_LOS_EVENTS s.dev)) ∧
    (∀ r, sts F.MLANE_LANE_STS_LOL s.dev = 1 → sts F.MLANE_LANE_STS_RX_LSTATE s.dev = 0 →
      (s.dev.lane n).rxTarget = none → sts F.MLANE_LANE_STS_LOS s.dev = 0 → s.dev.lockRate n rate.toNat = some r →
      Answers (.lolClear t n rate) s (fun d => sts F.MLANE_LANE_STS_LOL d = 0 ∧ (d.word irq).getLsbD 3 = true ∧
        ((n : Nat) < 96 → d.get F.MLANE_RX_RATE_STS_RATE n = r % 2 ^ 25) ∧
        ((n : Nat) < 96 → s.dev.act F.MLANE_RX_CFG_FWD_CLK n = 1 → r = rate.toNat) ∧
        ((n : Nat) < 96 → s.dev.act F.MLANE_RX_CFG_FWD_CLK n = 0 → s.dev.act F.MLANE_RX_CFG_RATE_SRC n = 0 →
          r = s.dev.act F.MLANE_RX_RATE_RATE_KBPS n * 1000 / (1000 + s.dev.act F.MLANE_RX_RATE_DIV1001 n)) ∧
        (sts F.MLANE_RX_EQ_CTL_EQ_MODE s.dev ≠ 1 → sts F.MLANE_LANE_STS_ADAPT_DONE d = 0 ∧ (d.lane n).acq = true))) ∧
    ((s.dev.lane n).txWait = true →
      Answers (.txPllLock t n) s (fun d => sts F.MLANE_LANE_STS_PLL_LOCK d = 1 ∧ (d.lane n).txWait = false ∧
        (d.lane n).txIdle = !s.dev.txAllowed n)) ∧
    ((s.dev.lane n).acq = true → sts F.MLANE_LANE_STS_LOL s.dev = 0 →
      Answers (.adaptDone t n eq) s (fun d => sts F.MLANE_LANE_STS_ADAPT_DONE d = 1 ∧ (d.lane n).acq = false ∧ (d.lane n).keep = false ∧
        (d.word irq).getLsbD 4 = true ∧
        sts F.MLANE_RX_EQ_STS_CTLE d =
          if sts F.MLANE_RX_EQ_CTL_EQ_MODE s.dev = 1 ∨ sts F.MLANE_RX_EQ_CTL_EQ_MODE s.dev = 2 then
            sts F.MLANE_RX_EQ_STS_CTLE s.dev else eq.ctle.toNat))

/-- The equaliser, the PRBS checker and the injector of a lane (R85, R93, R94, R95, R99, R100, R101, R110). -/
def Obligations.LaneEqualiserAndTestRows : Prop :=
  ∀ (s : State) (t : Nat) (n : Fin 112), s.dev.inReset = false → s.dev.calm →
    let base := pgAddr (lanePageOf n)
    let sts (f : Fld) (d : Dev) : Nat := d.lget f n
    let errs (d : Dev) : Nat := sts F.MLANE_PRBS_ERR d
    let chk := (s.dev.lane n).chk
    let checks := s.dev.rxData n = true ∧ s.dev.fwdClk n = false ∧ s.dev.rxTest n = true ∧ s.dev.chkPat n ≠ 0 ∧
      ((s.dev.lane n).injRx = false ∨ (s.dev.lane n).inj = 0)
    let bits (d : Dev) : Nat := (d.word (base + 0x78)).toNat + 2 ^ 32 * (d.word (base + 0x7C)).toNat
    (s.takesAt t (lanePageOf n) →
      (∀ (mode : BitVec 2) (ctle : BitVec 6), mode ≠ 3 → ctle.toNat ≤ 48 →
        Answers (.eqModeWrite t n mode ctle) s (fun d => sts F.MLANE_RX_EQ_CTL_EQ_MODE d = mode.toNat ∧
          sts F.MLANE_RX_EQ_CTL_CTLE d = (if mode ≠ 0 ∧ sts F.MLANE_RX_EQ_CTL_EQ_MODE s.dev ≠ mode.toNat then
            sts F.MLANE_RX_EQ_STS_CTLE s.dev else ctle.toNat) ∧
          (mode = 0 → (d.lane n).acq = true ∧ sts F.MLANE_RX_EQ_STS_CTLE d = ctle.toNat ∧
            ((n : Nat) < 96 →
              s.dev.keeps d [base + 0x44, base + 0x50, base + 0x54, base + 0x60, F.MLANE_RX_EQ_STS_CTLE.addr n 0 0])))) ∧
      (∀ (off : BitVec 12) (v : Word) (w : WordRow), off.toNat ∈ [0x48, 0x4C, 0xA0, 0xA4, 0xA8, 0xAC] →
        rowAt (lanePageOf n).blk 0 off.toNat = some w → w.rw ≠ 0 → (off.toNat ≠ 0xA4 ∨ (n : Nat) < 96) →
        sts F.MLANE_RX_EQ_CTL_EQ_MODE s.dev = 0 →
        Answers (.eqControlWrite t n off v) s (fun d => s.dev.wordsOnly d t ∧ s.dev.keeps d [base + off.toNat] ∧
          d.word (base + off.toNat) =
            (s.dev.word (base + off.toNat) &&& ~~~ (BitVec.ofNat 32 w.rw)) ||| (v &&& BitVec.ofNat 32 w.rw))) ∧
      Answers (.prbsClear t n [] []) s (fun d => s.dev.wordsOnly d t ∧ s.dev.keeps d [base + 0x74, base + 0x78, base + 0x7C] ∧
        errs d = 0 ∧ bits d = 0) ∧
      (∀ k < 2 ^ 64, checks → sts F.MLANE_LANE_STS_PRBS_SYNC s.dev = 1 →
        Answers (.prbsClear t n [] [.good k]) s (fun d => s.dev.keeps d [base + 0x74, base + 0x78, base + 0x7C] ∧
          errs d = 0 ∧ bits d = k)) ∧
      (∀ (mode : BitVec 2) (rx : Bool) (len : BitVec 8),
        let inTest := if rx then s.dev.rxTest n else s.dev.txTest n
        let busy := (s.dev.lane n).inj = 1 ∨ (s.dev.lane n).inj = 2
        Answers (.injGo t n mode rx len) s (fun d => sts F.MLANE_INJ_CTL_INJ_MODE d = mode.toNat ∧
          sts F.MLANE_INJ_CTL_INJ_SIDE d = (if rx then 1 else 0) ∧ sts F.MLANE_INJ_CTL_LEN d = len.toNat ∧
          s.dev.keeps d [base + 0x60, base + 0x6C] ∧
          (inTest = true ∧ ¬ busy → sts F.MLANE_LANE_STS_INJ_REFUSED d = 0 ∧ (d.lane n).inj = mode.toNat ∧ (d.lane n).injRx = rx) ∧
          (inTest = false ∨ busy → sts F.MLANE_LANE_STS_INJ_REFUSED d = 1)))) ∧
    (checks → sts F.MLANE_LANE_STS_PRBS_SYNC s.dev = 0 → chk.hist.length = 31 → chk.run < 64 →
      Answers (.prbsSync t ⟨n, [.good (64 - chk.run)]⟩) s (fun d => sts F.MLANE_LANE_STS_PRBS_SYNC d = 1 ∧
        s.dev.keeps d [base + 0x60])) ∧
    (∀ x b, checks → sts F.MLANE_LANE_STS_PRBS_SYNC s.dev = 1 → s.dev.rxBits n x = [b] →
      let err := xor b (s.dev.chkInv n) ≠ prbsNext (s.dev.chkPat n) chk.hist
      let lost := err ∧ 31 ≤ chk.errs.length ∧ chk.pos + 1 - chk.errs.getD 30 0 < 1024
      Answers (.prbsSyncLost t n [x] []) s (fun d => bits d = min (bits s.dev + 1) (2 ^ 64 - 1) ∧
        (err → errs d = min (errs s.dev + 1) 0xFFFFFFFF) ∧ (¬ err → errs d = errs s.dev) ∧
        (lost → sts F.MLANE_LANE_STS_PRBS_SYNC d = 0 ∧ d.word (base + 0x10) = s.dev.word (base + 0x10) ||| 0x20) ∧
        (¬ lost → sts F.MLANE_LANE_STS_PRBS_SYNC d = 1 ∧ d.word (base + 0x10) = s.dev.word (base + 0x10)) ∧
        s.dev.keeps d [base + 0x10, base + 0x60, base + 0x74, base + 0x78, base + 0x7C])) ∧
    (s.dev.injSent n = true →
      Answers (.injDone t n) s (fun d => (d.lane n).inj = 0 ∧ d.word (base + 0x10) = s.dev.word (base + 0x10) ||| 0x400 ∧
        s.dev.keeps d [base + 0x10])) ∧
    (s.dev.injSent n = false → exec (.injDone t n) s = .next { s with dev := s.dev.atTime t })

/-- Lane states, bond markers and link training (R92, R103, R104, R105, R107, R108, R109, R111). -/
def Obligations.LaneStatesBondsAndTraining : Prop :=
  (∀ (s : State) (t : Nat) (n : Fin 112) (req : BitVec 2), s.takesAt t (lanePageOf n) → s.dev.calm →
    (req ≠ 3 → Answers (.rxLstateReq t n req) s (fun d => d.lget F.MLANE_RX_LSTATE_REQ_REQ n = req.toNat ∧
      (s.dev.lanePowered n = false → d.lanes = s.dev.lanes ∧ s.dev.keeps d [pgAddr (lanePageOf n) + 0x64]) ∧
      (s.dev.lanePowered n = true → (s.dev.lane n).rxTarget = none → s.dev.lget F.MLANE_LANE_STS_RX_LSTATE n ≠ req.toNat →
        (d.lane n).rxTarget = some req.toNat ∧ (req ≠ 0 → d.lget F.MLANE_LANE_STS_LOL n = 1)) ∧
      ((s.dev.lane n).rxTarget = none → s.dev.lget F.MLANE_LANE_STS_RX_LSTATE n = req.toNat → d.lanes = s.dev.lanes) ∧
      (s.dev.lanePowered n = true → (s.dev.lane n).rxTarget ≠ none → (d.lane n).rxNext = some req.toNat))) ∧
    (req = 3 → s.dev.get F.GLOBAL_ERR_INFO_CAUSE = 0 →
      Answers (.rxLstateReq t n req) s (fun d => d.lget F.MLANE_RX_LSTATE_REQ_REQ n = s.dev.lget F.MLANE_RX_LSTATE_REQ_REQ n ∧
        d.get F.GLOBAL_ERR_INFO_CAUSE = 6))) ∧
  (∀ (s : State) (t : Nat) (n : Fin 112) (k : Nat), s.dev.inReset = false → s.dev.calm → k < 4 →
    ((s.dev.lane n).rxTarget = some k → (s.dev.lane n).rxNext = none →
      Answers (.lstateDone t n false) s (fun d => d.lget F.MLANE_LANE_STS_RX_LSTATE n = k ∧ (d.lane n).rxTarget = none ∧
        (d.word (pgAddr (lanePageOf n) + 0x10)).getLsbD 9 = true ∧
        (k ≠ 2 → d.lget F.MLANE_LANE_STS_PLL_LOCK n = 1) ∧
        (k = 0 → (d.lane n).acq = true ∧ d.lget F.MLANE_RX_EQ_STS_CTLE n = s.dev.lget F.MLANE_RX_EQ_STS_CTLE n))) ∧
    ((s.dev.lane n).txTarget = some k → (s.dev.lane n).txNext = none →
      Answers (.lstateDone t n true) s (fun d => d.lget F.MLANE_LANE_STS_TX_LSTATE n = k ∧ (d.lane n).txTarget = none ∧
        (d.word (pgAddr (lanePageOf n) + 0x10)).getLsbD 9 = true ∧ (k ≠ 2 → d.lget F.MLANE_LANE_STS_PLL_LOCK n = 1)))) ∧
  (∀ (s : State) (t : Nat) (bond : Fin 16) (stream : List BondItem), s.dev.inReset = false →
    let ls := s.dev.bondLanes bond
    let tx := sget (fun _ => {}) s.dev.bondTx bond
    let x := Dev.bondBlocks tx (markerGap * ls.length) stream
    let sc := scramble x.1 tx.scr
    (ls = [] → exec (.bondMarkerTx t bond stream) s = .next { s with dev := s.dev.atTime t }) ∧
    (ls ≠ [] → Answers (.bondMarkerTx t bond stream) s (fun d => d.regs = s.dev.regs ∧
      sget (fun _ => {}) d.bondTx bond = { scr := sc.2, rest := x.2.1, queue := x.2.2, seq := (tx.seq + 1) % 2 ^ 24 } ∧
      ∀ n ∈ ls, (s.dev.lane n).txIdle = false → s.dev.act F.MLANE_TX_CFG_TX_MODE n = 0 →
        let place := s.dev.act F.MLANE_BOND_BOND_LANE n
        let inv := decide (s.dev.act F.MLANE_TX_CFG_TX_POL_INV n = 1)
        let mine := (sc.1.zipIdx.filter (fun q => q.2 % ls.length = place)).map (·.1)
        (mine ≠ [] → Out.blocks n inv mine ∈ d.out) ∧
        Out.marker n inv ([0xB6, BitVec.ofNat 8 place, BitVec.ofNat 8 bond, BitVec.ofNat 8 (s.dev.act F.MLANE_BOND_BOND_WIDTH n)] ++
          leBytes 3 tx.seq ++ [(mine.map (fun q => xorBytes q.2)).foldl (· ^^^ ·) 0]) ∈ d.out))) ∧
  (∀ (s : State) (t : Nat) (n : Fin 96) (m : MarkerRx), s.dev.inReset = false → s.dev.calm → s.dev.act F.MLANE_BOND_BOND_EN n = 1 →
    let seen := s.dev.markerSeen n m
    (s.dev.loopNear n = false → seen = if m.inverted = decide (s.dev.act F.MLANE_RX_CFG_RX_POL_INV n = 1) then m
      else { m with payload := none }) ∧
    (∀ ln w s0 s1 s2 bip : Byte,
      seen.payload = some [0xB6, ln, BitVec.ofNat 8 (s.dev.act F.MLANE_BOND_BOND_ID n), w, s0, s1, s2, bip] →
      ln.toNat < w.toNat → w.toNat = s.dev.act F.MLANE_BOND_BOND_WIDTH n → s.dev.rxData n = true →
      (Dev.markerOnTime seen = true ∨ ((s.dev.lane n).mkGood = 0 ∧ s.dev.lget F.MLANE_LANE_STS_MARKER_LOCK n = 0)) →
      seen.skew.natAbs ≤ 2048 →
      Answers (.bondMarkerRx t n m) s (fun d => d.get F.MLANE_BOND_STS_SKEW n = unsgn 13 seen.skew ∧
        (d.lane n).mkSeq = s0.toNat + 256 * s1.toNat + 65536 * s2.toNat ∧
        d.get F.MLANE_BIP_ERR n = (if Dev.markerOnTime seen = false ∨ bip = bip8 seen.blocks then s.dev.get F.MLANE_BIP_ERR n
          else min (s.dev.get F.MLANE_BIP_ERR n + 1) 0xFFFFFFFF) ∧
        (1 ≤ (s.dev.lane n).mkGood → d.lget F.MLANE_LANE_STS_MARKER_LOCK n = 1))) ∧
    (seen.payload = none ∨ s.dev.rxData n = false →
      Answers (.bondMarkerRx t n m) s (fun d => (d.lane n).mkGood = 0 ∧
        (s.dev.lget F.MLANE_LANE_STS_MARKER_LOCK n = 1 → 3 ≤ (s.dev.lane n).mkBad →
          d.lget F.MLANE_LANE_STS_MARKER_LOCK n = 0 ∧ (d.word (pageAddr .mlane n 0 + 0x10)).getLsbD 6 = true)))) ∧
  ∀ (s : State) (t : Nat) (n : Fin 16) (ok : Bool) (fir : Word), s.dev.inReset = false → s.dev.calm →
    (s.dev.lane (96 + n)).training = true →
    Answers (.linkTrainingEnd t n ok fir) s (fun d => (d.lane (96 + n)).training = false ∧
      d.word (pageAddr .nlane n 0 + 0x40) = fir &&& 0x3F3F3F3F ∧
      d.word (pageAddr .nlane n 0 + 0x10) = s.dev.word (pageAddr .nlane n 0 + 0x10) ||| (if ok then 0x800 else 0x1800) ∧
      (ok = true → s.dev.keeps d [pageAddr .nlane n 0 + 0x10, pageAddr .nlane n 0 + 0x40]))

/-! Ingest contexts. -/

/-- A counter of a context's page has grown by 1, up to its maximum. -/
def ctxCounts (s : State) (d : Dev) (f : Fld) (n : Nat) : Prop := d.get f n = min (s.dev.get f n + 1) 0xFFFFFFFF

/-- The state of a context that leaves SEARCH or LOCKED for LOST. -/
def ctxLost (s : State) (t n : Nat) (d : Dev) : Prop :=
  d.get F.INGEST_STATE_STATE n = 3 ∧ ctxCounts s d F.INGEST_LOST_EVENTS n ∧ (d.ctx n).cur = none ∧
  (d.word (pageAddr .ingest n 0 + 0x10)).getLsbD 1 = true ∧
  s.dev.keeps d ([0x10, 0x40, 0x58, 0x5C, 0x64, 0x68].map (pageAddr .ingest n 0 + ·)) ∧
  (∀ w, (s.dev.ctx n).changed = some (max s.dev.house t, w) →
    d.get F.INGEST_FORMAT_CHANGES n = s.dev.get F.INGEST_FORMAT_CHANGES n - 1) ∧
  ((∀ w, (s.dev.ctx n).changed ≠ some (max s.dev.house t, w)) →
    d.get F.INGEST_FORMAT_CHANGES n = s.dev.get F.INGEST_FORMAT_CHANGES n) ∧
  { d.apart with ctxs := [] } = { (s.dev.atTime t).apart with ctxs := [] }

/-- Format change, encryption, a removed stream and silence take a context out of LOCKED (R116, R122, R123, R125, R136, R137, R140, R142). -/
def contextsLeaveTheirStates : Prop :=
  ∀ (s : State) (t : Nat) (n : Fin 256), s.dev.inReset = false → s.dev.calm → s.dev.enabled .ingest n = true →
    let st := s.dev.get F.INGEST_STATE_STATE n
    let irq (d : Dev) (b : Nat) : Prop := (d.word (pageAddr .ingest n 0 + 0x10)).getLsbD b = true
    let quiet (gap : Nat) (marker : Bool) : Prop :=
      (Dev.isBaseband (s.dev.ctxKind n) = true ∧
        ∃ sig, (s.dev.ctx n).confirmed = some sig ∧ 4 * (s.dev.ctx n).confPeriod ≤ gap * sig.vtotal) ∨
      (Dev.isBaseband (s.dev.ctxKind n) = false ∧ s.dev.ctxKind n = 6 ∧
        let den := s.dev.act F.INGEST_RATE_DEN n * 1000000000
        let h := s.dev.act F.INGEST_NET_FMT_HEIGHT n
        40 * den + (if marker then h * den else 0) ≤ 10 * gap * s.dev.act F.INGEST_RATE_NUM n * h) ∨
      (Dev.isBaseband (s.dev.ctxKind n) = false ∧ s.dev.ctxKind n ≠ 6 ∧ 4000000 ≤ gap)
    (Dev.isBaseband (s.dev.ctxKind n) = true → st = 2 →
      Answers (.formatSignalChange t n) s (fun d => d.get F.INGEST_STATE_STATE n = 1 ∧ ctxCounts s d F.INGEST_FORMAT_CHANGES n ∧
        irq d 2 ∧ (d.ctx n).cur = none ∧ (d.ctx n).confirmed = none)) ∧
    (Dev.isBaseband (s.dev.ctxKind n) = true → st = 1 ∨ st = 2 ∨ st = 5 →
      Answers (.encryptionDetected t n) s (fun d => d.get F.INGEST_STATE_STATE n = 4 ∧ irq d 4 ∧ (d.ctx n).cur = none ∧
        (d.ctx n).protectedCause = true)) ∧
    (st = 1 ∨ st = 2 →
      (s.dev.ctxKind n = 3 → s.dev.actFlag F.INGEST_LINK_MST_EN n = true → Answers (.mstStreamRemoved t n) s (ctxLost s t n)) ∧
      (Dev.isBaseband (s.dev.ctxKind n) = true ∨ Dev.isSt2110 (s.dev.ctxKind n) = true →
        let c := s.dev.ctx n
        let gap := max s.dev.house t - c.heard.1
        let silent := if st = 1 then 4000000 ≤ gap else quiet gap c.heard.2
        (silent → Answers (.ingestSilenceTimeout t n) s (ctxLost s t n)) ∧
        (¬ silent → exec (.ingestSilenceTimeout t n) s = .next { s with dev := s.dev.atTime t })) ∧
      (Dev.isSt2110 (s.dev.ctxKind n) = true → s.dev.actFlag F.INGEST_CFG_DUAL_PATH n = false →
        quiet (max s.dev.house t - (s.dev.ctx n).heard1.1) (s.dev.ctx n).heard1.2 →
        Answers (.pathSilent t n false) s (ctxLost s t n)) ∧
      (Dev.isSt2110 (s.dev.ctxKind n) = true → s.dev.actFlag F.INGEST_CFG_DUAL_PATH n = true →
        quiet (max s.dev.house t - (s.dev.ctx n).heard1.1) (s.dev.ctx n).heard1.2 →
        ¬ quiet (max s.dev.house t - (s.dev.ctx n).heard2.1) (s.dev.ctx n).heard2.2 →
        s.dev.flag F.INGEST_STATE_PATH2_DOWN n = false →
        Answers (.pathSilent t n false) s (fun d => d.flag F.INGEST_STATE_PATH1_DOWN n = true ∧
          d.flag F.INGEST_STATE_PATH_DOWN n = true ∧ d.get F.INGEST_STATE_STATE n = st)))

/-- A baseband frame begins at its start, and each line of it is counted (R114, R122, R123, R124, R130; R158; R95). -/
def framesBeginAndTakeLines : Prop :=
  ∀ (s : State) (t : Nat) (n : Fin 256), s.dev.inReset = false → s.dev.calm → s.dev.enabled .ingest n = true →
    Dev.isBaseband (s.dev.ctxKind n) = true →
    let st := s.dev.get F.INGEST_STATE_STATE n
    (∀ sig : SigFmt, (s.dev.ctx n).cur = none → st = 1 ∨ st = 2 → (∀ k ∈ s.dev.ctxLanes n, s.dev.rxData k = true) →
      Answers (.ingestFrameStart t n sig true) s (fun d => d.get F.INGEST_STATE_STATE n = 4 ∧
        (d.ctx n).protectedCause = true ∧ (d.word (pageAddr .ingest n 0 + 0x10)).getLsbD 4 = true) ∧
      (Dev.sigSupported sig = false →
        Answers (.ingestFrameStart t n sig false) s (fun d => d.get F.INGEST_STATE_STATE n = 5 ∧
          (d.word (pageAddr .ingest n 0 + 0x10)).getLsbD 5 = true)) ∧
      (Dev.sigSupported sig = true → st = 1 →
        Answers (.ingestFrameStart t n sig false) s (fun d => d.get F.INGEST_STATE_STATE n = 1 ∧
          (d.ctx n).lastStart = some t ∧ d.get F.INGEST_WRITE_LINE n = 0xFFFFFFFF ∧
          ∃ f, (d.ctx n).cur = some f ∧ f.sig = sig ∧ f.lines = 0 ∧ f.written = [])) ∧
      (∀ c, Dev.sigSupported sig = true → st = 2 → (s.dev.ctx n).confirmed = some c → Dev.sigKey c ≠ Dev.sigKey sig →
        Answers (.ingestFrameStart t n sig false) s (fun d => d.get F.INGEST_STATE_STATE n = 1 ∧
          ctxCounts s d F.INGEST_FORMAT_CHANGES n ∧ (d.ctx n).confirmed = none))) ∧
    ∀ (f : InFrame) (xs : List Nat) (errs : Nat), (s.dev.ctx n).cur = some f → f.drop = false → f.lines + 1 ≤ f.sig.height →
      f.lines < 2 ^ 32 → ((∀ k ∈ s.dev.ctxLanes n, s.dev.rxData k = true) → (s.dev.lineHeard n xs).isSome = true →
      Answers (.ingestLine t n xs errs none none) s (fun d => d.get F.INGEST_WRITE_LINE n = f.lines ∧
        d.get F.INGEST_LINK_ERR n = min (s.dev.get F.INGEST_LINK_ERR n + errs) 0xFFFFFFFF ∧
        d.get F.INGEST_STATE_STATE n = st ∧
        ∃ g, (d.ctx n).cur = some g ∧ g.lines = f.lines + 1 ∧ g.sig = f.sig ∧ g.drop = false)) ∧
      ((∃ k ∈ s.dev.ctxLanes n, s.dev.rxData k = false) ∨ s.dev.lineHeard n xs = none →
        exec (.ingestLine t n xs errs none none) s = .next { s with dev := s.dev.atTime t })

/-- Contexts leave their states, and frames begin and take lines. -/
def Obligations.ContextsAndTheirFrames : Prop :=
  contextsLeaveTheirStates ∧ framesBeginAndTakeLines

/-- ST 2110 packets, the heartbeat reader and copy-forward (R115, R116, R118; R28, R29, R30; R195; R159, R162). -/
def Obligations.PacketsHeartbeatsAndCopies : Prop :=
  ∀ (s : State) (t : Nat) (n : Fin 256), s.dev.inReset = false → s.dev.calm → s.dev.enabled .ingest n = true →
    let wr := s.dev.get F.INGEST_ANC_WR n
    (∀ p : RtpPacket, Dev.isSt2110 (s.dev.ctxKind n) = true → s.dev.packetMatches n p = true →
      let long := Dev.overMtu p.dest (rtpOctets (s.dev.ctxKind n) (s.dev.netSig n false).depth p)
      (long = true → Answers (.st2110PacketRx t n p) s (fun d => d.ctxs = s.dev.ctxs ∧ d.bytes = s.dev.bytes)) ∧
      (long = false → Answers (.st2110PacketRx t n p) s (fun d =>
        d.get (if p.path2 then F.INGEST_STATE_PATH2_DOWN else F.INGEST_STATE_PATH1_DOWN) n = 0)) ∧
      (long = false → s.dev.get F.INGEST_STATE_STATE n ≠ 5 → s.dev.ctxKind n = 9 → (∀ h, (s.dev.ctx n).highSeq = some h → h < p.seq) → (∀ e ∈ (s.dev.ctx n).seen, e.1 ≠ p.seq) →
        p.bytes.length ≤ 262144 → ∀ slab, (s.dev.map (ownCtx n)).head? = some (some slab) →
        Answers (.st2110PacketRx t n p) s (fun d => d.get F.INGEST_ANC_WR n = (wr + p.bytes.length) % 262144 ∧
          d.get F.INGEST_STATE_STATE n = 2 ∧ (d.ctx n).highSeq = some p.seq ∧
          ∀ a, memGet d.bytes a =
            match (List.range p.bytes.length).find? (fun i => a = slab * 0x200000 + (wr + i) % 262144) with
            | some i => if s.dev.pcFenced (pcOf a) then memGet s.dev.bytes a else p.bytes.getD i 0
            | none => memGet s.dev.bytes a)) ∧
      (∀ at_ m, s.dev.ctxKind n = 9 → (s.dev.ctx n).seen.find? (fun e => e.1 = p.seq) = some (p.seq, at_, m) → m ≠ 0 →
        t ≤ at_ + s.dev.act F.INGEST_PATH_WIN_PATH_WINDOW_US n * 1000 → (s.dev.ctx n).seen.all (fun e => t ≤ e.2.1 + s.dev.act F.INGEST_PATH_WIN_PATH_WINDOW_US n * 1000) = true →
        Answers (.st2110PacketRx t n p) s (fun d => d.bytes = s.dev.bytes ∧ d.get F.INGEST_ANC_WR n = wr))) ∧
    (s.dev.actFlag F.INGEST_FRESH_CTL_HB_EN n = true →
      (s.dev.enabled .engine (s.dev.act F.INGEST_HB_ENGINE_ENGINE n) = false →
        ∀ errs, Answers (.hbReadComplete t ⟨n, errs⟩) s (fun d => d.get F.INGEST_FRESH_STS_HB_FAIL n = 1)) ∧
      (s.dev.enabled .engine (s.dev.act F.INGEST_HB_ENGINE_ENGINE n) = true →
        s.dev.tagFree (reqEngine (s.dev.act F.INGEST_HB_ENGINE_ENGINE n)) = false → ∀ errs,
        exec (.hbReadComplete t ⟨n, errs⟩) s = .next { s with dev := s.dev.atTime t }) ∧
      (∀ p errs, s.dev.enabled .engine (s.dev.act F.INGEST_HB_ENGINE_ENGINE n) = true →
        s.dev.tagFree (reqEngine (s.dev.act F.INGEST_HB_ENGINE_ENGINE n)) = true → (s.dev.ctx n).hbDue = true →
        s.dev.latest n = some p → s.dev.hbInside n p = true →
        Answers (.hbReadComplete t ⟨n, errs⟩) s (fun d => d.get F.INGEST_HB_VALUE_VALUE n = s.dev.hbDecode n p % 65536 ∧
          d.get F.INGEST_FRESH_STS_HB_VALID n = 1 ∧ (d.ctx n).hbPrev = some (s.dev.hbDecode n p)))) ∧
    ∀ f errs, (s.dev.ctx n).cur = some f → f.drop = false → f.copied = false → f.ended = false →
      (s.dev.tagFree (reqIngest n) = true → Answers (.copyForwardDone t ⟨n, errs⟩) s (fun d =>
        ∃ g, (d.ctx n).cur = some g ∧ g.copied = true ∧ g.pic = f.pic ∧ g.sig = f.sig)) ∧
      (s.dev.tagFree (reqIngest n) = false → exec (.copyForwardDone t ⟨n, errs⟩) s = .next { s with dev := s.dev.atTime t })

/-- EDID tables, hot-plug and the capabilities of an input sideband port (R119, R120, R121, R122; R459). -/
def sidebandTablesAndHotPlug : Prop :=
  (∀ (s : State) (t : Nat) (n : Fin 256) (v : Word), s.takesAt t ⟨.ingest, n, 0⟩ →
    let staged (d : Dev) (k : Nat) : Word := sget (fun _ => 0) (d.ctx n).edidStage k
    let at_ := s.dev.get F.INGEST_EDID_IDX_WORD n
    Answers (.edidDataWrite t n v) s (fun d => (∀ k, staged d k = if k = at_ then v else staged s.dev k) ∧
      d.get F.INGEST_EDID_IDX_WORD n = (at_ + 1) % 1024 ∧ s.dev.keeps d [pageAddr .ingest n 0 + 0x88] ∧
      (d.ctx n).edidServed = (s.dev.ctx n).edidServed) ∧
    Answers (.edidCommit t n) s (fun d => d.get F.INGEST_STATE_COMMIT_PENDING n = 1 ∧ s.dev.wordsOnly d t ∧
      s.dev.keeps d [pageAddr .ingest n 0 + 0x40]) ∧
    Answers (.hpdPulse t n) s (fun d => d.ctx n = { s.dev.ctx n with hpdPulse := true, hpdAt := max s.dev.house t } ∧ d.regs = s.dev.regs)) ∧
  (∀ (s : State) (t : Nat) (n : Fin 256), s.dev.inReset = false →
    (s.dev.get F.INGEST_STATE_COMMIT_PENDING n = 1 →
      Answers (.edidCommitTakeEffect t n) s (fun d => d.get F.INGEST_STATE_COMMIT_PENDING n = 0 ∧
        d.ctx n = { s.dev.ctx n with
          edidServed := (s.dev.ctx n).edidStage
          hpdPulse := (s.dev.ctx n).hpdPulse || s.dev.flag F.INGEST_EDID_CTL_HPD_ON_COMMIT n
          hpdAt := if s.dev.flag F.INGEST_EDID_CTL_HPD_ON_COMMIT n then max s.dev.house t else (s.dev.ctx n).hpdAt } ∧
        s.dev.keeps d [pageAddr .ingest n 0 + 0x40])) ∧
    let ends := (s.dev.ctx n).hpdPulse = true ∧
      (s.dev.ctx n).hpdAt + max 100 (s.dev.get F.INGEST_HPD_LOW_HPD_LOW_MS n) * 1000000 ≤ max s.dev.house t
    (ends → Answers (.hpdPulseEnd t n) s (fun d => d.ctx n = { s.dev.ctx n with hpdPulse := false } ∧ d.regs = s.dev.regs)) ∧
    (¬ ends → exec (.hpdPulseEnd t n) s = .next { s with dev := s.dev.atTime t })) ∧
  ∀ (s : State) (t : Nat) (sb : Fin 32),
    (∀ (stream : Option (Fin 4)) (off : BitVec 12) (len : Nat),
      (s.dev.inReset = true ∨ s.dev.edidCtx sb (stream.map (·.val)) = none →
        Answers (.edidRead t sb stream off len) s (fun d => d.resp = some .noAck ∧ d.regs = s.dev.regs)) ∧
      (∀ n, s.dev.inReset = false → s.dev.edidCtx sb (stream.map (·.val)) = some n →
        Answers (.edidRead t sb stream off len) s (fun d => d.regs = s.dev.regs ∧ ∃ bs, d.resp = some (.bytes bs false) ∧ bs.length = len ∧
          ∀ k < len, (bs.getD k 0).toNat = (sget (fun _ => (0 : Word)) (s.dev.ctx n).edidServed ((off.toNat + k) % 4096 / 4)).toNat
            / 2 ^ (8 * ((off.toNat + k) % 4096 % 4)) % 256))) ∧
    Answers (.dpcdScdcAccess t sb .hdcpDdc) s (fun d => d.resp = some .noAck ∧ d.regs = s.dev.regs) ∧
    (∀ n, s.dev.inReset = false → s.dev.sbandOwner sb = some n → s.dev.ctxKind n = 3 →
      Answers (.dpcdScdcAccess t sb .dpcdHdcp) s (fun d => d.resp = some (.bytes [0] false)) ∧
      Answers (.dpcdScdcAccess t sb .dpcdMaxLanes) s (fun d =>
        d.resp = some (.bytes [BitVec.ofNat 8 (s.dev.act F.INGEST_LINK_LANE_COUNT n)] false)))

/-- The host-surface rings: their registers, and what a descriptor does (R133, R134, R135, R141; R151, R159). -/
def dmaRings : Prop :=
  ∀ (s : State) (t : Nat) (n : Fin 256),
    let e := s.dev.get F.INGEST_DMA_RING_SIZE_ENTRIES n
    let base := pageAddr .ingest n 0
    let head := s.dev.get F.INGEST_DMA_HEAD_HEAD n
    let rejected (cause : Nat) (d : Dev) : Prop := d.get F.INGEST_DMA_ERR_CAUSE n = cause ∧ d.get F.INGEST_DMA_ERR_INDEX n = head ∧
      (d.ctx n).cur = none ∧ d.get F.INGEST_DMA_HEAD_HEAD n = (head + 1) % e % 4096
    (s.takesAt t ⟨.ingest, n, 0⟩ →
      (∀ tail : BitVec 12, e ≠ 0 → Answers (.dmaTailWrite t n tail) s (fun d =>
        d.get F.INGEST_DMA_TAIL_TAIL n = tail.toNat % e ∧ s.dev.wordsOnly d t ∧ s.dev.keeps d [base + 0xAC])) ∧
      (∀ prio : BitVec 2,
        (e ≠ 0 → Answers (.dmaEnableWrite t n true prio) s (fun d => d.get F.INGEST_DMA_CTL_EN n = 1 ∧
          d.get F.INGEST_DMA_CTL_DMA_PRIO n = prio.toNat ∧ s.dev.wordsOnly d t ∧ s.dev.keeps d [base + 0xB4])) ∧
        Answers (.dmaEnableWrite t n false prio) s (fun d => d.get F.INGEST_DMA_CTL_EN n = 0 ∧
          d.get F.INGEST_DMA_CTL_DMA_PRIO n = prio.toNat))) ∧
    (s.dev.inReset = false →
      (∀ x, s.dev.dmaPending n = true → s.dev.dmaBusy < 8 → s.dev.dmaHighest n = true →
        ((∀ f, (s.dev.ctx n).cur = some f → f.ended = false) →
          (s.dev.descCheck n x = 0 → Answers (.dmaDescriptorStart t n x) s (fun d => (d.ctx n).dma = some x ∧
            d.get F.INGEST_DMA_HEAD_HEAD n = head ∧ d.dmaLast = n)) ∧
          (s.dev.descCheck n x ≠ 0 → e ≠ 0 → Answers (.dmaDescriptorStart t n x) s (rejected (s.dev.descCheck n x)))) ∧
        (∀ f, (s.dev.ctx n).cur = some f → f.ended = true → f.drop = false → f.copied = false → s.dev.calm →
          s.dev.tagFree (reqIngest n) = true → s.dev.descCheck n x = 0 → Answers (.dmaDescriptorStart t n x) s (fun d => (d.ctx n).dma = some x ∧
            d.get F.INGEST_FRAMES_PUB n = min (s.dev.get F.INGEST_FRAMES_PUB n + 1) 0xFFFFFFFF ∧
            ∃ g, (d.ctx n).cur = some g ∧ g.ended = false ∧ g.written = []))) ∧
      ∀ x, (s.dev.ctx n).dma = some x → e ≠ 0 →
        (s.dev.tagFree (reqDma n) = false → ∀ lines,
          exec (.dmaDescriptorDone t n lines) s = .next { s with dev := s.dev.atTime t }) ∧
        (s.dev.tagFree (reqDma n) = true →
        Answers (.dmaDescriptorDone t n none) s (fun d => rejected 5 d ∧ (d.ctx n).dma = none) ∧
        (∀ lines, x.eof = false → Answers (.dmaDescriptorDone t n (some lines)) s (fun d => (d.ctx n).dma = none ∧
          d.get F.INGEST_DMA_HEAD_HEAD n = (head + 1) % e % 4096 ∧
          (x.irq = true → (d.word (base + 0x10)).getLsbD 6 = true)))))

/-- EDID tables, hot plug, and host-surface rings. -/
def Obligations.SidebandTablesAndRings : Prop :=
  sidebandTablesAndHotPlug ∧ dmaRings

/-! The memory switch, the talon, the recorder, and the pixel engines. -/

/-- Event bit `n` of a page's IRQ_RAW is set. -/
def raised (d : Dev) (b : Blk) (i p n : Nat) : Prop := (d.word (pageAddr b i p + 0x10)).getLsbD n = true

/-- Pseudo-channels are fenced and released, and scrub passes are counted (R161, R162, R163, R174). -/
def pseudoChannelsAndScrubbing : Prop :=
  ∀ (s : State) (t : Nat), s.dev.inReset = false →
    let irq := pageAddr .memsw 0 0 + 0x10
    let fence (k : Nat) := F.MEMSW_PC_FENCED.addr 0 k 0
    let rel := F.MEMSW_PC_REL_PC.addr 0 0 0
    (∀ pc : Fin 128,
      (s.dev.pcFenced pc = true → exec (.pcRetrainFail t pc) s = .next { s with dev := s.dev.atTime t }) ∧
      (s.dev.pcFenced pc = false → Answers (.pcRetrainFail t pc) s (fun d => s.dev.wordsAndEvents d t ∧ d.pcFenced pc = true ∧
        (∀ q : Fin 128, q ≠ pc → d.pcFenced q = s.dev.pcFenced q) ∧ d.word irq = s.dev.word irq ||| 4 ∧
        s.dev.keeps d [fence (pc / 32), irq])) ∧
      ∀ met, s.takesAt t ⟨.memsw, 0, 0⟩ → Answers (.pcRelease t pc met) s (fun d => s.dev.wordsOnly d t ∧
        d.get F.MEMSW_PC_REL_PC = pc ∧
        let errs := sget (fun _ => 0) s.dev.pcErrs pc
        if met = true ∧ errs < max 1 (s.dev.get F.MEMSW_PC_CTL_PC_UE_LIMIT) then
          d.get F.MEMSW_PC_REL_PC_REL_REFUSED = 0 ∧ d.pcFenced pc = false ∧
          (∀ q : Fin 128, q ≠ pc → d.pcFenced q = s.dev.pcFenced q) ∧ s.dev.keeps d [rel, fence (pc / 32)]
        else s.dev.pcFenced pc = true →
          d.get F.MEMSW_PC_REL_PC_REL_REFUSED = 1 ∧ s.dev.keeps d [rel])) ∧
    (let due :=
        s.dev.flag F.MEMSW_SCRUB_CTL_EN = true ∧ s.dev.hbmScrub = false ∧
        ∀ t0, s.dev.scrubAt = some t0 → t0 + s.dev.get F.MEMSW_SCRUB_CTL_SCRUB_HOURS * 3600000000000 ≤ max s.dev.house t
     (due → exec (.scrubPassStart t) s = .next { s with dev := { s.dev.atTime t with
        hbmScrub := true, scrubAt := some (max s.dev.house t) } }) ∧
     (¬ due → exec (.scrubPassStart t) s = .next { s with dev := s.dev.atTime t })) ∧
    (s.dev.hbmScrub = true → ∀ n : Nat,
      let ce := F.MEMSW_CE_COUNT.addr 0 0 0
      let passes := F.MEMSW_SCRUB_STS.addr 0 0 0
      let ue := [F.MEMSW_UE_COUNT.addr 0 0 0, F.MEMSW_UE_ADDR_LO_ADDR.addr 0 0 0, F.MEMSW_UE_ADDR_LO_ADDR.addr 0 0 0 + 4]
      let common (d : Dev) : Prop := d.hbmScrub = false ∧ raised d .memsw 0 0 3 ∧ (n ≠ 0 → raised d .memsw 0 0 0) ∧
        d.get F.MEMSW_CE_COUNT = min (s.dev.get F.MEMSW_CE_COUNT + n) 0xFFFFFFFF ∧
        d.get F.MEMSW_SCRUB_STS = min (s.dev.get F.MEMSW_SCRUB_STS + 1) 0xFFFFFFFF
      Answers (.scrubDone t n []) s (fun d => common d ∧ s.dev.keeps d [ce, passes, irq] ∧
        { d.apart with hbmScrub := true } = (s.dev.atTime t).apart) ∧
      ∀ b : Nat, b < 2 ^ 37 → Answers (.scrubDone t n [b]) s (fun d => common d ∧
        s.dev.keeps d ([ce, passes, irq] ++ ue ++ [fence (pcOf b / 32)]) ∧ raised d .memsw 0 0 1 ∧
        (∀ x, x ∈ d.scrubBad ↔ x = b ∨ x ∈ s.dev.scrubBad) ∧
        d.get F.MEMSW_UE_COUNT = min (s.dev.get F.MEMSW_UE_COUNT + 1) 0xFFFFFFFF ∧
        d.get64 F.MEMSW_UE_ADDR_LO_ADDR = (if s.dev.get F.MEMSW_UE_COUNT = 0 then b / 32 * 32
          else s.dev.get64 F.MEMSW_UE_ADDR_LO_ADDR) ∧
        (sget (fun _ => 0) s.dev.pcErrs (pcOf b) + 1 ≥ max 1 (s.dev.get F.MEMSW_PC_CTL_PC_UE_LIMIT) → d.pcFenced (pcOf b) = true)))

/-- HOST_STAGE takes and gives slabs, given-up slabs return, and a second's figures appear (R156, R160, R174, R176; R206). -/
def slabsChangeHandsAndSecondsEnd : Prop :=
  ∀ (s : State) (t : Nat), s.dev.inReset = false →
    (∀ n : BitVec 16, s.takesAt t ⟨.talon, 0, 0⟩ →
      let want := F.TALON_HOST_STAGE_SLABS.addr 0 0 0
      let sts := F.TALON_HOST_STAGE_STS_HELD.addr 0 0 0
      (s.dev.talonHeld = true → Answers (.hostStageWrite t n) s (fun d => s.dev.keeps d [want] ∧
        d.get F.TALON_HOST_STAGE_SLABS = n.toNat ∧
        d.aside = { (s.dev.atTime t).aside with talonWaits := s.dev.talonWaits ++ [.stage] })) ∧
      (s.dev.talonHeld = false → (∀ q ∈ s.dev.maps, none ∉ q.2) →
        let had := s.dev.map ownStage
        (s.dev.lowestFree (n.toNat - had.length)).length = n.toNat - had.length →
        Answers (.hostStageWrite t n) s (fun d => s.dev.keeps d [want, sts] ∧ d.get F.TALON_HOST_STAGE_SLABS = n.toNat ∧
          d.get F.TALON_HOST_STAGE_STS_HELD = n.toNat ∧ d.get F.TALON_HOST_STAGE_STS_SHORT = 0 ∧
          d.map ownStage = had.take n.toNat ++ (s.dev.lowestFree (n.toNat - had.length)).map some ∧
          (∀ o, o ≠ ownStage → d.map o = s.dev.map o) ∧
          { d.aside with maps := [], mapAt := [] } = { (s.dev.atTime t).aside with maps := [], mapAt := [] }))) ∧
    (s.dev.talonHeld = true → exec (.talonSlabRelease t) s =
      .next { s with dev := { s.dev.atTime t with talonWaits := s.dev.talonWaits ++ [.release] } }) ∧
    (s.dev.talonHeld = false → (∀ q ∈ s.dev.maps, none ∉ q.2) →
      let stays (x : Nat) : Bool := decide (max s.dev.house t < s.dev.relBy) && s.dev.slabsRead [x]
      Answers (.talonSlabRelease t) s (fun d =>
        (∀ q ∈ d.releasing, ∃ p ∈ s.dev.releasing, q = (p.1, p.2.filter stays)) ∧
        (∀ p ∈ s.dev.releasing, ∀ x ∈ p.2, stays x = true → (p.1, p.2.filter stays) ∈ d.releasing) ∧
        s.dev.keeps d [F.TALON_HOST_STAGE_STS_HELD.addr 0 0 0, pageAddr .talon 0 0 + 0x10] ∧
        { d.apart with releasing := [], oldMaps := [] } = { (s.dev.atTime t).apart with releasing := [], oldMaps := [] })) ∧
    Answers (.secondStatistics t) s (fun d =>
      s.dev.keeps d ((List.range 8).map (F.MEMSW_BW.addr 0 · 0) ++ [F.RECORDER_RATE_MB.addr 0 0 0] ++
        (List.range 64).map (F.ENGINE_BUSY_PCT.addr · 0 0)) ∧
      (∀ k : Fin 8, d.get F.MEMSW_BW 0 k = min (sget (fun _ => 0) s.dev.moved k / 1000000) 0xFFFFFFFF) ∧
      d.get F.RECORDER_RATE_MB = s.dev.recBytes / 1000000 % 2 ^ 32 ∧
      (∀ n : Fin 64, sget (fun _ => none) s.dev.engSince n = none →
        d.get F.ENGINE_BUSY_PCT n = min 10000 (sget (fun _ => 0) s.dev.engBusyNs n / 100000)) ∧
      d.moved = [] ∧ d.recBytes = 0 ∧ d.engBusyNs = [] ∧ d.pcErrs = [])

/-- Pseudo-channels, scrubbing, and slabs that change hands. -/
def Obligations.TheFrameStoreAndItsSlabs : Prop :=
  pseudoChannelsAndScrubbing ∧ slabsChangeHandsAndSecondsEnd

/-- Holding the recorder, and asking it for keyframes (R168, R172, R176). -/
def recorderHoldAndKeyframes : Prop :=
  ∀ (s : State) (t : Nat), s.takesAt t ⟨.recorder, 0, 0⟩ →
    let irq := pageAddr .recorder 0 0 + 0x10
    let keys (d : Dev) : Prop := ∀ h : Fin 64, (d.recHead h).needKey = true ∧ (d.recHead h).prev = (s.dev.recHead h).prev ∧
      (d.recHead h).crcs = (s.dev.recHead h).crcs
    let held := s.dev.flag F.RECORDER_CTL_HOLD
    let begins (h : Fin 64) : Bool := (s.dev.recHead h).begun || ((s.dev.headSt h).viewed && (s.dev.headSt h).shown &&
      (s.dev.headSt h).composed && s.dev.recWants h ((s.dev.headSt h).frame % 2 ^ 32))
    (∀ hold : Bool, Answers (.recorderHoldWrite t hold) s (fun d =>
      d.get F.RECORDER_CTL_HOLD = hold.toNat ∧
      s.dev.keeps d [F.RECORDER_CTL_HOLD.addr 0 0 0, F.RECORDER_STS_HELD.addr 0 0 0, irq] ∧
      { d.apart with recHeads := [] } = { (s.dev.atTime t).apart with recHeads := [] } ∧
      (hold = held → s.dev.keeps d [] ∧ d.recHeads = s.dev.recHeads) ∧
      (hold = false → held = true → keys d ∧ d.get F.RECORDER_STS_HELD = 0 ∧ d.word irq = s.dev.word irq) ∧
      (hold = true → held = false → (∀ h : Fin 64, (d.recHead h).begun = begins h) ∧
        ((∃ h, begins h = true) → d.get F.RECORDER_STS_HELD = 0 ∧ d.word irq = s.dev.word irq) ∧
        ((∀ h, begins h = false) → d.get F.RECORDER_STS_HELD = 1 ∧
          d.word irq = s.dev.word irq ||| (if s.dev.get F.RECORDER_STS_HELD = 0 then 4 else 0))))) ∧
    Answers (.recorderForceKey t) s (fun d => keys d ∧ d.regs = s.dev.regs ∧
      { d with recHeads := [] } = { s.dev.atTime t with recHeads := [] })

/-- A coefficient write stores a word of a set that is not in use; a read answers the word (R192, R206). -/
def coefficientsAreWrittenAndRead : Prop :=
  ∀ (s : State) (t : Nat) (e : Fin 64), s.takesAt t ⟨.engine, e, 0⟩ →
    let idx := s.dev.get F.ENGINE_COEF_IDX_WORD e
    let key := (e : Nat) / 8 * 4096 + idx
    let used := (s.dev.setsNamed (e / 8)).contains (idx / 256)
    let at_ := F.ENGINE_COEF_IDX_WORD.addr e 0 0
    let sts := F.ENGINE_COEF_STS_REFUSED.addr e 0 0
    let irq := pageAddr .engine e 0 + 0x10
    (∀ v : Word, Answers (.coefDataWrite t e v) s (fun d => d.get F.ENGINE_COEF_IDX_WORD e = (idx + 1) % 4096 ∧
      (used = true → d.get F.ENGINE_COEF_STS_REFUSED e = 1 ∧ d.word irq = s.dev.word irq ||| 2 ∧
        s.dev.keeps d [at_, sts, irq] ∧ s.dev.wordsAndEvents d t) ∧
      (used = false → (∀ k, sget (fun _ => (0 : Word)) d.coefs k = if k = key then v else sget (fun _ => 0) s.dev.coefs k) ∧
        s.dev.keeps d [at_] ∧ { d.aside with coefs := [] } = { (s.dev.atTime t).aside with coefs := [] }))) ∧
    Answers (.coefDataRead t e) s (fun d => d.resp = some (.data (sget (fun _ => 0) s.dev.coefs key)) ∧
      d.get F.ENGINE_COEF_IDX_WORD e = (idx + 1) % 4096 ∧ s.dev.keeps d [at_] ∧
      { d.aside with resp := none } = { (s.dev.atTime t).aside with resp := none })

/-- The recorder holds and keys, and coefficients are written and read. -/
def Obligations.RecorderAndCoefficients : Prop :=
  recorderHoldAndKeyframes ∧ coefficientsAreWrittenAndRead

/-- A layer's job starts on the frame that waits, completes into a buffer, or is abandoned (R183, R184, R185, R206, R207; R151). -/
def Obligations.EngineJobsStartEndAndAreAbandoned : Prop :=
  ∀ (s : State) (t : Nat) (l : Fin 1024), s.dev.inReset = false →
    let now := max s.dev.house t
    let es := s.dev.layerEngines l
    let e := s.dev.engAct l
    es ≠ [] → es.Nodup → (∀ n ∈ es, n < 64 ∧ s.dev.enabled .engine n = true) →
    (∀ w, (s.dev.layer l).waiting = some w → (s.dev.layer l).job = none → s.dev.act F.LAYER_COMP_CTL_FIT l ≠ 1 →
      (∀ t0, (s.dev.layer l).lastJob = some t0 → 15 * e.den * 1000000000 ≤ (now - t0) * 16 * e.num) →
      Answers (.engineJobStart t l) s (fun d => d.get F.LAYER_ENG_STS_JOB_ACTIVE l = 1 ∧
        (d.layer l).job = some { src := w.1, src2 := w.2, start := now } ∧ (d.layer l).waiting = none ∧
        (d.layer l).lastJob = some now ∧ (d.layer l).prepared = (s.dev.layer l).prepared ∧
        ∀ n ∈ es, d.get F.ENGINE_JOB_STS_BUSY n = 1)) ∧
    ∀ j, (s.dev.layer l).job = some j →
      (s.dev.tagFree (s.dev.layerReq l) = false →
        ∀ errs, exec (.engineJobComplete t l errs) s = .next { s with dev := s.dev.atTime t }) ∧
      (s.dev.tagFree (s.dev.layerReq l) = true → (now - j.start) * e.num ≤ 2 * e.den * 1000000000 →
        ((s.dev.atTime t).prepBuffer l
          (let img := (s.dev.atTime t).chain l j.src j.src2; Dev.prepSlabs e img.w img.h)).isSome = true →
        ∀ errs, Answers (.engineJobComplete t l errs) s (fun d => d.get F.LAYER_ENG_STS_JOB_ACTIVE l = 0 ∧
          d.get F.LAYER_ENG_DONE_FRAME l = j.src.frame % 2 ^ 32 ∧
          d.get F.LAYER_ENG_JOB_US l = min ((now - j.start) / 1000) 0xFFFFFFFF ∧ (d.layer l).job = none ∧
          (∀ n ∈ es, d.get F.ENGINE_JOBS n = min (s.dev.get F.ENGINE_JOBS n + 1) 0xFFFFFFFF) ∧
          ∃ p ps, (d.layer l).prepared = p :: ps ∧ p.frame = j.src.frame ∧ p.time = now)) ∧
      (2 * e.den * 1000000000 ≤ (now - j.start) * e.num →
        Answers (.engineJobAbandon t l) s (fun d => d.get F.LAYER_ENG_STS_JOB_ACTIVE l = 0 ∧ (d.layer l).job = none ∧
          (d.layer l).prepared = (s.dev.layer l).prepared ∧ raised d .layer l 0 4 ∧
          ∀ n ∈ es, raised d .engine n 0 0 ∧ d.get F.ENGINE_OVERRUNS n = min (s.dev.get F.ENGINE_OVERRUNS n + 1) 0xFFFFFFFF)) ∧
      ((now - j.start) * e.num < 2 * e.den * 1000000000 →
        exec (.engineJobAbandon t l) s = .next { s with dev := s.dev.atTime t })

/-! Heads and output ports. -/

/-- A head that no jump, hand or fence disturbs, in the middle of its frames. -/
abbrev runsOn (s : State) (h : Nat) : Prop :=
  s.dev.inReset = false ∧ s.dev.hand.pending = false ∧ (s.dev.headSt h).running = true ∧ (s.dev.headSt h).virt = false ∧
  (s.dev.headSt h).jump = none ∧ s.dev.fenced .head h = false

/-- No layer keeps settings for a head from before a hand that moves the layer away (R209, R210). -/
abbrev noneKept (s : State) (h : Nat) : Prop := ∀ q ∈ s.dev.layers, ∀ ws, q.2.kept ≠ some (h, ws)

/-- A head's latch selects the latest frames complete by the margin and numbers its next frame (R201; R236, R237, R238). -/
def Obligations.ALatchSelectsFrames : Prop :=
  ∀ (s : State) (t : Nat) (h : Fin 64) (broken : Option Nat) (late : List Nat), runsOn s h → noneKept s h →
    let now := max s.dev.house t
    let g := s.dev.timing h
    Answers (.headLatch t h broken late) s (fun d =>
      let hs := d.headSt h
      d.get64 F.HEAD_LATCH_TIME_LO h = now % 2 ^ 64 ∧ hs.latch = now ∧ hs.frame = (s.dev.headSt h).frame + 1 ∧
      hs.viewed = true ∧ hs.shown = false ∧ hs.composed = true ∧ hs.fetching = false ∧ hs.under = [] ∧
      hs.tf = g.lines (g.vtot - g.vact + g.vact) (d.headDelta h) ∧ hs.j = now + hs.tf ∧
      (∀ p ∈ hs.planes, p.slot < 16 → p.held = false → p.chase = false →
        p.pic = Dev.pickFrame (s.dev.layerFrames p.layer) now (g.lines (s.dev.act F.LAYER_SELECT_MARGIN p.layer) (d.headDelta h))) ∧
      ∀ k : Fin 64, k ≠ h → (d.headSt k).frame = (s.dev.headSt k).frame ∧ (d.headSt k).latch = (s.dev.headSt k).latch)

/-- A head takes a completed hand at its sample point; fetch begins; rows are fetched (R20; R151, R166; R238; R275, R276). -/
def Obligations.HandsAreTakenAtSamplePoints : Prop :=
  ∀ (s : State) (t : Nat) (h : Fin 64), s.dev.inReset = false →
    let hs := s.dev.headSt h
    (s.dev.hand.pending = false → exec (.handSample t h) s = .next { s with dev := s.dev.atTime t }) ∧
    (∀ done, s.dev.hand.pending = true → s.dev.hand.dealt = true → s.dev.hand.done = some done → s.dev.hand.missed = false →
      (h : Nat) ∈ s.dev.hand.heads → hs.running = true → hs.virt = false →
      let point := hs.due - (s.dev.timing h).lines (s.dev.get F.DEAL_CFG_HAND_GUARD) (s.dev.headDelta h)
      (point ≤ max s.dev.house t → done ≤ point → s.dev.hand.apply ≤ hs.due →
        Answers (.handSample t h) s (fun d => d.headSt h = { hs with take := true } ∧ d.hand = { s.dev.hand with taken := true } ∧
          d.regs = s.dev.regs ∧ ∀ k : Fin 64, k ≠ h → d.headSt k = s.dev.headSt k)) ∧
      (max s.dev.house t < point ∨ point < done ∨ hs.due < s.dev.hand.apply →
        exec (.handSample t h) s = .next { s with dev := s.dev.atTime t })) ∧
    (hs.viewed = true → Answers (.fetchStart t h) s (fun d => d.headSt h = { hs with fetching := true } ∧
      (∀ k : Fin 64, k ≠ h → d.headSt k = s.dev.headSt k) ∧
      { d with heads := [] } = { s.dev.atTime t with heads := [] })) ∧
    (hs.viewed = false → ∀ plane row errs, exec (.fetchRowIssue t h plane row errs) s = .next { s with dev := s.dev.atTime t }) ∧
    (s.dev.tagFree (reqHead h) = false → ∀ plane row errs, noneKept s h →
      Answers (.fetchRowIssue t h plane row errs) s (fun d => d.headSt h = hs)) ∧
    (hs.viewed = true → hs.composed = true → s.dev.fenced .head h = false → s.dev.tagFree (reqHead h) = true → noneKept s h →
      s.dev.scrubBad = [] → ∀ (plane : Fin 21) (row : Nat) (p : Plane) (q : Pic),
      (plane : Nat) < 16 → hs.planes = [p] → p.slot = plane → p.held = false → p.leftOut = false → p.chase = false →
      p.slip = none → p.group = none → p.pic = some q → (p.tiles.map (·.1)).Nodup →
      (p.areas.any (fun a => a.1 / 1024 = row)) = true → (∀ f ∈ p.tiles, f.1 / 1024 = row → f.2.read = false) →
      (∀ pc : Fin 128, s.dev.pcFenced pc = false) →
      Answers (.fetchRowIssue t h plane row []) s (fun d => ∃ p', (d.headSt h).planes = [p'] ∧
        ∀ f ∈ p.tiles, f.1 / 1024 = row → f.1 % 1024 < q.cols → f.1 / 1024 < q.rows →
          sget (fun _ => ({} : Fetched)) p'.tiles f.1 =
            s.dev.judgeTile h hs.j p (s.dev.picTile q (f.1 % 1024) (f.1 / 1024)) false))

/-- Line 0 shows the frame, measures the phase, and settles the ports (R239, R241, R244, R245, R260, R261). -/
def lineZeroShowsTheFrame : Prop :=
  ∀ (s : State) (t : Nat) (h : Fin 64), s.dev.inReset = false → (s.dev.headSt h).viewed = true → (s.dev.headSt h).shown = false →
    let now := max s.dev.house t
    let mode := s.dev.act F.HEAD_REF_CTL_REF_MODE h
    let e := s.dev.phaseError h now
    let st := s.dev.get F.HEAD_TIMING_STS_REF_STATE h
    Answers (.line0 t h) s (fun d =>
      d.get F.HEAD_FRAME_NUM h = (s.dev.headSt h).frame % 2 ^ 32 ∧ (d.headSt h).shown = true ∧ (d.headSt h).l0 = now ∧
      (d.headSt h).planes = (s.dev.headSt h).planes ∧ (∀ p : Fin 96, (d.port p).shows = d.portWant p) ∧
      (mode = 0 ∨ s.dev.fenced .head h = true → d.get F.HEAD_PHASE_ERR h = s.dev.get F.HEAD_PHASE_ERR h ∧
        d.get F.HEAD_TIMING_STS_REF_STATE h = st) ∧
      (mode ≠ 0 → s.dev.fenced .head h = false →
        d.get F.HEAD_PHASE_ERR h = sat32 e ∧
        (s.dev.refValid h = false → d.get F.HEAD_TIMING_STS_REF_STATE h = refHoldover ∧
          d.get F.HEAD_HOLDOVERS h = (if st = refHoldover then s.dev.get F.HEAD_HOLDOVERS h
            else min (s.dev.get F.HEAD_HOLDOVERS h + 1) 0xFFFFFFFF)) ∧
        (s.dev.refValid h = true → s.dev.actFlag F.HEAD_REF_CTL_POLICY h = false →
          let top : Int := s.dev.act F.HEAD_SLEW_CTL_SLEW_PPM h * 1000
          (d.headSt h).dstar = max (-top) (min top e) ∧
          d.get F.HEAD_TIMING_STS_REF_STATE h = (if -100 ≤ e ∧ e ≤ 100 ∧ 15 ≤ (s.dev.headSt h).lockRun then refLocked else refSlewing) ∧
          d.get F.HEAD_HOLDOVERS h = s.dev.get F.HEAD_HOLDOVERS h)))

/-- Underruns count their pixels, lines and frames; watermarks show the fill; the safe state is released (R252, R253, R265; R304, R305). -/
def underrunsAndWatermarks : Prop :=
  ∀ (s : State) (t : Nat) (h : Fin 64), s.dev.inReset = false →
    let hs := s.dev.headSt h
    let w := s.dev.act F.HEAD_H_TIMING_HACTIVE h
    let irq3 := pageAddr .head h 3 + 0x10
    (∀ line x : Nat, hs.shown = true → s.dev.fenced .head h = false → line < s.dev.act F.HEAD_V_TIMING_VACTIVE h → x < w →
      (∀ u ∈ hs.under, u.1 ≠ line) → Answers (.outputUnderrun t h line x) s (fun d =>
        d.get F.HEAD_UNDERRUN_PIX h = min (s.dev.get F.HEAD_UNDERRUN_PIX h + (w - x)) 0xFFFFFFFF ∧
        d.get F.HEAD_UNDERRUN_LINES h = min (s.dev.get F.HEAD_UNDERRUN_LINES h + 1) 0xFFFFFFFF ∧
        d.get F.HEAD_UNDERRUN_FRAMES h = min (s.dev.get F.HEAD_UNDERRUN_FRAMES h + (if hs.under = [] then 1 else 0)) 0xFFFFFFFF ∧
        d.word irq3 = s.dev.word irq3 ||| 1 ∧ (d.headSt h).under = (line, x) :: hs.under)) ∧
    (∀ fill : Byte, Answers (.obufWatermark t h fill) s (fun d =>
      let low := decide (fill.toNat < s.dev.act F.HEAD_OBUF_WM_LOW_WM h)
      let crit := decide (fill.toNat < s.dev.act F.HEAD_OBUF_WM_CRIT_WM h)
      d.get F.HEAD_OBUF_STS_FILL h = fill.toNat ∧ d.flag F.HEAD_OBUF_STS_LOW h = low ∧ d.flag F.HEAD_OBUF_STS_CRIT h = crit ∧
      d.word irq3 = s.dev.word irq3 ||| (if low = true ∧ s.dev.flag F.HEAD_OBUF_STS_LOW h = false then 2 else 0)
        ||| (if crit = true ∧ s.dev.flag F.HEAD_OBUF_STS_CRIT h = false then 4 else 0) ∧
      s.dev.keeps d [F.HEAD_OBUF_STS_FILL.addr h 0 0, irq3] ∧
      (d.headSt h).minFill = some (min fill.toNat (hs.minFill.getD fill.toNat)) ∧
      { d.apart with heads := [] } = { (s.dev.atTime t).apart with heads := [] })) ∧
    (s.takesAt t ⟨.witness, h, 0⟩ →
      (s.dev.witSafe h = false → exec (.safeRel t h) s = .next { s with dev := s.dev.atTime t }) ∧
      (s.dev.witSafe h = true → hs.safeOk = true → Answers (.safeRel t h) s (fun d =>
        d.witSafe h = false ∧ d.get F.WITNESS_WIT_STATE_RUN h = 0 ∧ d.get F.WITNESS_WIT_STATE_REL_REFUSED h = 0 ∧
        raised d .witness h 0 2 ∧ ∀ p : Fin 96, (d.port p).shows = d.portWant p)) ∧
      (s.dev.witSafe h = true → hs.safeOk = false → Answers (.safeRel t h) s (fun d => s.dev.wordsAndEvents d t ∧
        d.witSafe h = true ∧ d.get F.WITNESS_WIT_STATE_REL_REFUSED h = 1 ∧ raised d .witness h 0 3 ∧
        s.dev.keeps d [F.WITNESS_WIT_STATE_SAFE.addr h 0 0, pageAddr .witness h 0 + 0x10])))

/-- Line 0 shows the frame, and underruns and watermarks are seen. -/
def Obligations.LineZeroAndUnderruns : Prop :=
  lineZeroShowsTheFrame ∧ underrunsAndWatermarks

/-- Hot-plug stops and starts an output link, and training lets it show (R255, R257, R260, R266). -/
def hotPlugAndTraining : Prop :=
  ∀ (s : State) (t : Nat), s.dev.inReset = false →
    let settled (d : Dev) : Prop := ∀ p : Fin 96, (d.port p).shows = d.portWant p
    (∀ sb : Fin 48,
      Answers (.hpdInDeassert t sb) s (fun d => settled d ∧ ∀ p : Fin 96,
        ((p : Nat) ∉ s.dev.sbandPorts sb → d.get F.OPORT_PORT_STS_SINK p = s.dev.get F.OPORT_PORT_STS_SINK p) ∧
        ((p : Nat) ∈ s.dev.sbandPorts sb → d.get F.OPORT_PORT_STS_SINK p = 0 ∧
          (s.dev.get F.OPORT_PORT_STS_SINK p = 1 → d.get F.OPORT_PORT_STS_TRAINING p = 0 ∧ (d.port p).trained = false ∧
            d.get F.OPORT_LINK_DOWN p = min (s.dev.get F.OPORT_LINK_DOWN p + 1) 0xFFFFFFFF ∧ raised d .oport p 0 1))) ∧
      Answers (.hpdInAssert t sb) s (fun d => settled d ∧ ∀ p : Fin 96,
        ((p : Nat) ∉ s.dev.sbandPorts sb → d.get F.OPORT_PORT_STS_SINK p = s.dev.get F.OPORT_PORT_STS_SINK p) ∧
        ((p : Nat) ∈ s.dev.sbandPorts sb → d.get F.OPORT_PORT_STS_SINK p = 1 ∧ (d.port p).trained = false ∧
          d.flag F.OPORT_PORT_STS_TRAINING p = (s.dev.portTrains p && s.dev.enabled .oport p)))) ∧
    ∀ p : Fin 96, s.dev.portTrains p = true → s.dev.enabled .oport p = true →
      s.dev.actFlag F.OPORT_CFG_SBAND_EN p = false ∨ s.dev.flag F.OPORT_PORT_STS_SINK p = true →
      Answers (.oportLinkUp t p) s (fun d => settled d ∧ (d.port p).trained = true ∧ d.get F.OPORT_PORT_STS_TRAINING p = 0)

/-- A sideband transaction is taken or refused, and its end gives its result and data (R266; R451). -/
def sidebandTransactions : Prop :=
  ∀ (s : State) (t : Nat) (p : Fin 96),
    let cmd := F.OPORT_SB_CMD_LEN.addr p 0 0
    let sts := F.OPORT_SB_STS_BUSY.addr p 0 0
    let irq := pageAddr .oport p 0 + 0x10
    let busy := s.dev.flag F.OPORT_SB_STS_BUSY p
    let refused := s.dev.flag F.OPORT_PORT_STS_TRAINING p || s.dev.fenced .oport p
    (s.takesAt t ⟨.oport, p, 0⟩ → ∀ (ddc read : Bool) (len : BitVec 4) (addr : BitVec 20),
      Answers (.sidebandGo t p ddc read len addr) s (fun d =>
        d.flag F.OPORT_SB_CMD_KIND p = ddc ∧ d.flag F.OPORT_SB_CMD_READ p = read ∧ d.get F.OPORT_SB_CMD_LEN p = len.toNat ∧
        d.get F.OPORT_SB_CMD_ADDR p = addr.toNat ∧ s.dev.wordsAndEvents d t ∧
        (busy = true → s.dev.keeps d [cmd]) ∧
        (busy = false → refused = true → d.get F.OPORT_SB_STS_RESULT p = 3 ∧ d.flag F.OPORT_SB_STS_BUSY p = false ∧
          raised d .oport p 0 4 ∧ s.dev.keeps d [cmd, sts, irq]) ∧
        (busy = false → refused = false → d.flag F.OPORT_SB_STS_BUSY p = true ∧
          d.get F.OPORT_SB_STS_RESULT p = s.dev.get F.OPORT_SB_STS_RESULT p ∧ s.dev.keeps d [cmd, sts]))) ∧
    (s.dev.inReset = false → ∀ (r : Fin 3) (bs : List Byte),
      (busy = false → exec (.sidebandDone t p r bs) s = .next { s with dev := s.dev.atTime t }) ∧
      (busy = true → Answers (.sidebandDone t p r bs) s (fun d => s.dev.wordsAndEvents d t ∧
        d.get F.OPORT_SB_STS_BUSY p = 0 ∧ d.get F.OPORT_SB_STS_RESULT p = r ∧ raised d .oport p 0 4 ∧
        s.dev.keeps d ([sts, irq] ++ (List.range 4).map (F.OPORT_SB_DATA.addr p · 0)) ∧
        ∀ k : Fin 4, if s.dev.flag F.OPORT_SB_CMD_READ p = true ∧ (r : Nat) = 0 ∧
            4 * (k : Nat) < min bs.length (s.dev.get F.OPORT_SB_CMD_LEN p + 1) then
          d.get F.OPORT_SB_DATA p k = leVal (((bs.take (s.dev.get F.OPORT_SB_CMD_LEN p + 1)).drop (4 * k)).take 4)
        else d.get F.OPORT_SB_DATA p k = s.dev.get F.OPORT_SB_DATA p k)))

/-- Hot plug, training and sideband transactions of an output port. -/
def Obligations.OutputSidebandAndHotPlug : Prop :=
  hotPlugAndTraining ∧ sidebandTransactions

/-! Tatre tile streams and interfaces. -/

/-- A tile-class message of a type arrives whole, within the MTU, with no hand waiting, on an interface that is up and receives
tiles (in LOOP_NEAR: one that the device has sent). -/
def tileArrives (s : State) (ty : Nat) (rx : TileRx) : Prop :=
  s.dev.inReset = false ∧ s.dev.hand.pending = false ∧ rx.bond = none ∧ s.dev.netUp rx.netif = true ∧
  Dev.overMtu rx.dest rx.msg.length = false ∧
  s.dev.netHears rx.netif (fun o => match o with
    | .udp k _ q b => k = (rx.netif : Nat) && q = rx.port && b = rx.msg
    | _ => false) = true ∧
  s.dev.act F.NPORT_SP_CFG_TATRE_RX ((rx.netif : Nat) / 4) ((rx.netif : Nat) % 4) = 1 ∧
  Dev.headerOk rx.msg rx.msg.length = true ∧ mget rx.msg 3 1 = ty ∧ Dev.tileLenOk ty rx.msg = true ∧
  Dev.srcCode rx.msg ≠ addrCode s.dev.myTable s.dev.mySeat

/-- Context `n` alone accepts the message, by path 2 or 1. -/
def onlyFor (s : State) (rx : TileRx) (n : Fin 256) (p2 : Bool) : Prop :=
  ∀ m : Fin 256, s.dev.tatrePath m rx = if m = n then some p2 else none

/-- The message belongs to the frame the context assembles, and its SEQ is new to the context. -/
def fitsFrame (s : State) (n : Fin 256) (m : List Byte) (x : InFrame) : Prop :=
  (s.dev.ctx n).cur = some x ∧ x.drop = false ∧ x.ended = false ∧ mget m 24 4 = x.sent ∧
  (s.dev.ctxState n = 1 ∨ s.dev.ctxState n = 2) ∧ (∀ e ∈ (s.dev.ctx n).seen, e.1 ≠ mget m 20 4) ∧
  (∀ q, (s.dev.ctx n).highSeq = some q → q < mget m 20 4) ∧
  (∀ k, (s.dev.ctx n).closedRtp = some k → Dev.laterFrame (mget m 24 4) k = true)

/-- Tile-stream messages reach the context that accepts them, and no other (R353, R357, R360, R362, R363, R365, R369). -/
def tileStreamsReachTheirContext : Prop :=
  ∀ (s : State) (t : Nat) (rx : TileRx),
    let i := (rx.netif : Nat)
    (∀ ty c, tileArrives s ty rx → (∀ m : Fin 256, s.dev.tatrePath m rx = none) →
      (ty = tyTile ∧ c = .tatreTileRx t rx) ∨ (ty = tyStamps ∧ c = .tatreStampsRx t rx) ∨
        (ty = tyEnd ∧ c = .tatreEndOfFrameRx t rx) ∨ (ty = tyAlive ∧ c = .streamAliveRx t rx) →
      Answers c s (fun d => { d.apart with chans := [] } = { (s.dev.atTime t).apart with chans := [] } ∧
        s.dev.keeps d [F.NPORT_RX_FRAMES.addr (i / 4) (i % 4) 0, F.NPORT_NOT_FOR_US.addr (i / 4) (i % 4) 0] ∧
        d.get F.NPORT_RX_FRAMES (i / 4) (i % 4) = min (s.dev.get F.NPORT_RX_FRAMES (i / 4) (i % 4) + 1) 0xFFFFFFFF ∧
        d.get F.NPORT_NOT_FOR_US (i / 4) (i % 4) = min (s.dev.get F.NPORT_NOT_FOR_US (i / 4) (i % 4) + 1) 0xFFFFFFFF)) ∧
    (∀ c, s.dev.inReset = false → s.dev.hand.pending = false → rx.bond = none → s.dev.netUp rx.netif = true →
      (∀ k ∈ s.dev.netLanes rx.netif, s.dev.loopNear (96 + k) = false) → Dev.overMtu rx.dest rx.msg.length = true →
      c = .tatreTileRx t rx ∨ c = .tatreStampsRx t rx ∨ c = .tatreEndOfFrameRx t rx ∨ c = .streamAliveRx t rx →
      Answers c s (fun d => { d.apart with chans := [] } = { (s.dev.atTime t).apart with chans := [] } ∧
        s.dev.keeps d [F.NPORT_RX_FRAMES.addr (i / 4) (i % 4) 0, F.NPORT_FCS_ERR.addr (i / 4) (i % 4) 0] ∧
        d.get F.NPORT_RX_FRAMES (i / 4) (i % 4) = min (s.dev.get F.NPORT_RX_FRAMES (i / 4) (i % 4) + 1) 0xFFFFFFFF ∧
        d.get F.NPORT_FCS_ERR (i / 4) (i % 4) = min (s.dev.get F.NPORT_FCS_ERR (i / 4) (i % 4) + 1) 0xFFFFFFFF)) ∧
    ∀ (n : Fin 256) (p2 : Bool), onlyFor s rx n p2 →
      let m := rx.msg
      (∀ x : InFrame, fitsFrame s n m x →
        (tileArrives s tyTile rx → x.parts = [] → mget m 46 1 % 2 = 0 → m.length = 52 + (mget m 44 1 % 32 + 1) * 512 →
          let f := TileFmt.ofByte (mget m 45 1)
          let data := storedSamples f (m.drop 52)
          let key := posKey (mget m 28 2) (mget m 30 2)
          let u := mget m 44 1 % 32 + 1
          let tile : Tile :=
            { stamp := mget m 32 8, crc := mget m 40 4, sectors := u, pack := u < f.sectors, fmt := f, data := data }
          crc32c (plainBytes f data) = mget m 40 4 →
          Answers (.tatreTileRx t rx) s (fun d => (d.ctx n).cur = some { x with
              whole := (key, tile)
                :: x.whole.filter (fun p => p.1 ≠ key) } ∧
            (d.ctx n).highSeq = some (mget m 20 4) ∧ ∀ k : Fin 256, k ≠ n → d.ctx k = s.dev.ctx k)) ∧
        (tileArrives s tyStamps rx → mget m 28 2 = 1 → rx.errs = [] →
          let c := mget m 32 2
          let r := mget m 34 2
          (s.dev.scrubBad = [] → (∀ pc : Fin 128, s.dev.pcFenced pc = false) → ∀ q, s.dev.latest n = some q → c < q.cols → r < q.rows → (s.dev.picTile q c r).valid = true →
            (s.dev.picTile q c r).crc = mget m 36 4 →
            Answers (.tatreStampsRx t rx) s (fun d => (d.ctx n).cur = some { x with
              whole := (posKey c r, { s.dev.picTile q c r with stamp := mget m 40 8 })
                :: x.whole.filter (fun p => p.1 ≠ posKey c r) } ∧ d.get F.INGEST_LINK_ERR n = s.dev.get F.INGEST_LINK_ERR n)) ∧
          ((∀ q, s.dev.latest n = some q → (s.dev.picTile q c r).crc ≠ mget m 36 4) →
            Answers (.tatreStampsRx t rx) s (fun d => (d.ctx n).cur = some x ∧
              d.get F.INGEST_LINK_ERR n = min (s.dev.get F.INGEST_LINK_ERR n + 1) 0xFFFFFFFF))) ∧
        (tileArrives s tyEnd rx →
          let w := mget m 36 2
          let h := mget m 38 2
          let fmt := (x.whole.head?.map (fun p => p.2.fmt)).getD x.pic.fmt
          Answers (.tatreEndOfFrameRx t rx) s (fun d => (d.ctx n).closedRtp = some x.sent ∧
            (∀ f, (d.ctx n).cur = some f → f.ended = true ∧ f.pic.width = w ∧ f.pic.height = h) ∧
            ((w + 63) / 64 * ((h + 31) / 32) > s.dev.act F.TALON_CTX_BUF_SLABS 0 n * slotsPer fmt.sectors →
              d.bitsAt (F.TALON_CTX_SHORT.addr 0 (n / 32) 0) (n % 32) 1 = 1 ∧ (d.ctx n).cur = none ∧
              raised d .talon 0 0 1 ∧ raised d .ingest n 0 3)))) ∧
      (tileArrives s tyAlive rx →
        (mget m 28 1 % 2 = 1 → Answers (.streamAliveRx t rx) s (fun d => d.flag F.INGEST_FRESH_STS_PEER_LOST n = true ∧
          (s.dev.flag F.INGEST_FRESH_STS_PEER_LOST n = false → (d.ctx n).peerCause = true))) ∧
        (mget m 28 1 % 2 = 0 → Answers (.streamAliveRx t rx) s (fun d => d.flag F.INGEST_FRESH_STS_PEER_LOST n = false ∧
          sget (fun _ => 0) d.deal.streams n = max s.dev.house t ∧
          d.ctxState n = (if s.dev.flag F.INGEST_FRESH_STS_PEER_LOST n = true ∧ s.dev.ctxState n = 3 then 1 else s.dev.ctxState n))))

/-- A sender sends the frame that waits; interfaces rise and fall; a hand is not waited for for ever (R151; R275; R352, R353, R364, R376). -/
def sendersAndInterfaces : Prop :=
  ∀ (s : State) (t : Nat), s.dev.inReset = false →
    (∀ (k : Fin 256) (errs : List ReadError),
      let snd := s.dev.tsend k
      let q := reqSend (s.dev.act F.SENDT_CFG_NETIF_P1 (Dev.tsPage k) ((k : Nat) % 16) / 4 % 4) k
      (snd.waiting = none ∨ s.dev.tatreRuns k = false ∨ s.dev.tagFree q = false → exec (.tatreSendFrame t k errs) s = .next { s with dev := s.dev.atTime t }) ∧
      (∀ p, snd.waiting = some p → s.dev.tatreRuns k = true → s.dev.tagFree q = true → Answers (.tatreSendFrame t k errs) s (fun d =>
        (d.tsend k).waiting = none ∧ (d.tsend k).frames = snd.frames + 1 ∧
        (d.tsend k).last = some (p.width, p.height, p.fmt.byte,
          (Dev.picPositions p).map (fun q => (s.dev.picTile p q.1 q.2).crc)) ∧
        d.get F.SENDT_FRAMES (Dev.tsPage k) (k % 16) = min (s.dev.get F.SENDT_FRAMES (Dev.tsPage k) (k % 16) + 1) 0xFFFFFFFF))) ∧
    (∀ i : Fin 16,
      let irq := pageAddr .nport ((i : Nat) / 4) 0 + 0x10
      let sts := F.NPORT_PORT_STS_LINK_UP.addr ((i : Nat) / 4) 0 0
      (s.dev.hand.pending = false → s.dev.linkBit i = false → exec (.netifDown t i) s = .next { s with dev := s.dev.atTime t }) ∧
      (s.dev.hand.pending = false → s.dev.linkBit i = true → Answers (.netifDown t i) s (fun d => d.linkBit i = false ∧
        (d.word irq).getLsbD ((i : Nat) % 4) = true ∧ ∀ j : Fin 16, j ≠ i → d.linkBit j = s.dev.linkBit j)) ∧
      let since := sget (fun _ => 0) s.dev.netBack i
      let settled := since = 0 ∨ since - 1 + 100000000 ≤ max s.dev.house t
      (s.dev.linkBit i = true ∨ s.dev.netCan i = false ∨ ¬ settled → exec (.netifUp t i) s = .next { s with dev := s.dev.atTime t }) ∧
      (s.dev.linkBit i = false → s.dev.netCan i = true → settled → Answers (.netifUp t i) s (fun d =>
        { d.apart with netBack := [] } = { (s.dev.atTime t).apart with netBack := [] } ∧
        d.linkBit i = true ∧ (∀ j : Fin 16, j ≠ i → d.linkBit j = s.dev.linkBit j) ∧ s.dev.keeps d [sts, irq] ∧
        (d.word irq).getLsbD (4 + (i : Nat) % 4) = true))) ∧
    ∀ n : Fin 256,
      (s.dev.hand.pending = false → exec (.tatreApplyTimeout t n) s = .next { s with dev := s.dev.atTime t }) ∧
      (s.dev.handReady = true → (n : Nat) ∈ s.dev.hand.ctxs → s.dev.ctxKind n = 10 ∨ s.dev.ctxKind n = 11 →
        s.dev.hand.apply + 100000000 ≤ t → Answers (.tatreApplyTimeout t n) s (fun d =>
          (n : Nat) ∉ d.hand.ctxs ∧ ∀ a ∈ s.dev.domWords (.ctx n), d.word (a - 0x400) = s.dev.word a))

/-- Tile streams reach their context, and senders and interfaces follow their links. -/
def Obligations.TatreStreamsAndInterfaces : Prop :=
  tileStreamsReachTheirContext ∧ sendersAndInterfaces

/-! House time, its references, and the PTP port. -/

/-- A step of house time by `x` ns at `now`: house time, the step recorded and counted, its event, and a backward one
among the carries. -/
def stepped (s : State) (now : Nat) (x : Int) (d : Dev) : Prop :=
  d.house = ((now : Int) + x).toNat ∧ d.get64 F.TIME_STEP_LAST_LO = unsgn 64 x ∧
  d.get F.TIME_STEP_COUNT = min (s.dev.get F.TIME_STEP_COUNT + 1) 0xFFFFFFFF ∧ raised d .time 0 0 3 ∧
  d.tm.steps = (if x < 0 then (((now : Int) + x).toNat, (-x).toNat) :: s.dev.tm.steps else s.dev.tm.steps)

/-- House time has lost its reference and runs on the oscillator. -/
def heldOver (d : Dev) : Prop := d.get F.TIME_STS_LOCKED = 0 ∧ d.get F.TIME_STS_HOLDOFF = 0 ∧ d.get F.TIME_STS_HOLDOVER = 1

/-- A hold-off that lasts HOLDOFF_MS ends in a step of house time, or of REF_IN's phase (R248, R249, R262). -/
def holdOffsEndInAStep : Prop :=
  ∀ (s : State) (t : Nat), s.dev.inReset = false →
    let now := max s.dev.house t
    let ms := s.dev.act F.TIME_HOLDOFF_HOLDOFF_MS * 1000000
    (∀ b, s.dev.tm.holdStart = some b → b + ms ≤ now → Answers (.holdoffExpire t false) s (fun d =>
      stepped s now s.dev.tm.offset d ∧ d.tm.holdStart = none ∧ d.get F.TIME_STS_HOLDOFF = 0 ∧
      d.get F.TIME_PTP_STS_SERVO_LOCK = 0 ∧ d.get F.TIME_STS_HOLDOVER = 0)) ∧
    (∀ b, s.dev.tm.refHold = some b → b + ms ≤ now → Answers (.holdoffExpire t true) s (fun d =>
      d.house = now ∧ d.get64 F.TIME_STEP_LAST_LO = unsgn 64 s.dev.tm.refShift ∧
      d.get F.TIME_STEP_COUNT = min (s.dev.get F.TIME_STEP_COUNT + 1) 0xFFFFFFFF ∧ raised d .time 0 0 3 ∧
      d.get F.TIME_REF_STS_HOLDOFF = 0 ∧ d.tm.refHold = none ∧ d.tm.steps = s.dev.tm.steps ∧
      d.tm.refTrack = s.dev.tm.refLast.getD s.dev.tm.refTrack)) ∧
    ((∀ b, s.dev.tm.holdStart = some b → now < b + ms) → exec (.holdoffExpire t false) s = .next { s with dev := s.dev.atTime t }) ∧
    ((∀ b, s.dev.tm.refHold = some b → now < b + ms) → exec (.holdoffExpire t true) s = .next { s with dev := s.dev.atTime t })

/-- REF_IN, PPS and 10 MHz: pulses are timed and judged, losses are seen (R242, R243, R248, R250, R262, R263). -/
def referencePulsesAndLosses : Prop :=
  ∀ (s : State) (t : Nat), s.dev.inReset = false →
    let ref := s.dev.houseRef
    let mis := s.dev.flag F.TIME_REF_STS_MISMATCH
    (∀ tri : Bool,
      let typ := s.dev.act F.TIME_REF_IN_CTL_TYPE
      let det := if tri then 2 else 1
      (s.dev.actFlag F.TIME_REF_IN_CTL_EN = false → exec (.refInPulse t tri) s = .next { s with dev := s.dev.atTime t }) ∧
      (s.dev.actFlag F.TIME_REF_IN_CTL_EN = true → Answers (.refInPulse t tri) s (fun d =>
        d.get64 F.TIME_REF_EDGE_LO = t % 2 ^ 64 ∧ d.get F.TIME_REF_STS_TYPE_DET = det ∧ d.tm.refLast = some t ∧
        d.house = max s.dev.house t ∧
        (s.dev.tm.refLast = none → d.tm.refTrack = t ∧ d.get F.TIME_REF_PERIOD = s.dev.get F.TIME_REF_PERIOD) ∧
        (typ ≠ 0 → typ ≠ det → d.get F.TIME_REF_STS_MISMATCH = 1 ∧
          (mis = false → d.get F.TIME_REF_STS_PRESENT = 0 ∧ raised d .time 0 1 2 ∧
            d.get F.TIME_REF_MISMATCHES = min (s.dev.get F.TIME_REF_MISMATCHES + 1) 0xFFFFFFFF)) ∧
        (∀ b, s.dev.tm.refLast = some b → d.get F.TIME_REF_PERIOD = min ((t - b) * 16) 0xFFFFFFFF ∧
          (typ = 0 ∨ typ = det → s.dev.refPeriodOk (t - b) = true → 15 ≤ s.dev.tm.refGood →
            d.get F.TIME_REF_STS_PRESENT = 1 ∧ d.get F.TIME_REF_STS_LOS = 0 ∧ d.get F.TIME_REF_STS_MISMATCH = 0))))) ∧
    (Answers (.refInLoss t) s (fun d => s.dev.keeps d [F.TIME_REF_STS_LOS.addr 0 0 0, pageAddr .time 0 1 + 0x10] ∧
      d.get F.TIME_REF_STS_PRESENT = 0 ∧ d.get F.TIME_REF_STS_TYPE_DET = 0 ∧ d.get F.TIME_REF_STS_LOS = 1 ∧
      d.get F.TIME_REF_STS_PPS_PRESENT = s.dev.get F.TIME_REF_STS_PPS_PRESENT ∧ d.tm.refLast = none ∧
      (s.dev.flag F.TIME_REF_STS_LOS = false → raised d .time 0 1 0))) ∧
    (∀ xo : Int,
      (∀ b, s.dev.tm.ppsLast = some b → b + 1000000000 ≤ t + 1000 → t ≤ b + 1000001000 → ref ≠ 2 →
        Answers (.ppsEdge t xo) s (fun d => s.dev.keeps d [F.TIME_REF_STS_PPS_PRESENT.addr 0 0 0] ∧
          d.get F.TIME_REF_STS_PPS_PRESENT = 1 ∧ d.tm.ppsLast = some t)) ∧
      (∀ sec, ref = 2 → s.dev.tm.setPending = some sec → Answers (.ppsEdge t xo) s (fun d =>
        stepped s (max s.dev.house t) ((sec * 1000000000 : Nat) - ((max s.dev.house t : Nat) : Int)) d ∧
        d.house = sec * 1000000000 ∧ d.tm.setPending = none ∧ d.get F.TIME_XO_PPB = sat32 xo ∧ d.get F.TIME_STS_XO_OK = 1)) ∧
      Answers (.clk10mReturn t xo) s (fun d => s.dev.wordsOnly d t ∧ d.get F.TIME_REF_STS_CLK10M_PRESENT = 1 ∧
        d.get F.TIME_XO_PPB = sat32 xo ∧ d.get F.TIME_STS_XO_OK = 1 ∧
        s.dev.keeps d [F.TIME_REF_STS_LOS.addr 0 0 0, F.TIME_XO_PPB.addr 0 0 0, F.TIME_STS_LOCKED.addr 0 0 0])) ∧
    Answers (.ppsLoss t) s (fun d => d.get F.TIME_REF_STS_PPS_PRESENT = 0 ∧ d.tm.ppsLast = none ∧
      (s.dev.flag F.TIME_REF_STS_PPS_PRESENT = true → raised d .time 0 1 4) ∧
      (ref = 2 → s.dev.flag F.TIME_STS_HOLDOVER = false → heldOver d ∧ raised d .time 0 0 1) ∧
      (ref ≠ 2 → d.word (F.TIME_STS_LOCKED.addr 0 0 0) = s.dev.word (F.TIME_STS_LOCKED.addr 0 0 0))) ∧
    Answers (.clk10mLoss t) s (fun d => d.get F.TIME_REF_STS_CLK10M_PRESENT = 0 ∧
      (s.dev.flag F.TIME_REF_STS_CLK10M_PRESENT = true → raised d .time 0 1 5) ∧
      (ref = 2 → s.dev.flag F.TIME_STS_HOLDOVER = false → heldOver d ∧ raised d .time 0 0 1) ∧
      (ref ≠ 2 → d.word (F.TIME_STS_LOCKED.addr 0 0 0) = s.dev.word (F.TIME_STS_LOCKED.addr 0 0 0)))

/-- Hold-offs end in a step, and reference pulses and losses. -/
def Obligations.HoldOffsAndReferences : Prop :=
  holdOffsEndInAStep ∧ referencePulsesAndLosses

/-- The PTP port follows its grandmaster, loses it, moves to its backup and back, and sends (R354, R355, R377). -/
def Obligations.ThePtpPort : Prop :=
  ∀ (s : State) (t : Nat), s.dev.inReset = false →
    let changes (d : Dev) : Prop := d.get F.TIME_MASTER_CHANGES = min (s.dev.get F.TIME_MASTER_CHANGES + 1) 0xFFFFFFFF
    let now := max s.dev.house t
    let still : Host.Outcome State Fault Refusal := .next { s with dev := s.dev.atTime t }
    let st := s.dev.get F.TIME_PTP_STS_PORT_STATE
    (∀ (i : Fin 16) (dom : Byte) (m : PtpMsg),
      let rx := F.NPORT_RX_FRAMES.addr ((i : Nat) / 4) ((i : Nat) % 4) 0
      (s.dev.netUp i = false → exec (.ptpMessageRx t i dom m) s = still) ∧
      (s.dev.netUp i = true → s.dev.ptpOn = false ∨ (i : Nat) ≠ s.dev.ptpIface ∨ dom.toNat ≠ s.dev.act F.TIME_PTP_CFG_DOMAIN →
        Answers (.ptpMessageRx t i dom m) s (fun d => s.dev.keeps d [rx] ∧
          (s.dev.flag F.TIME_PTP_STS_ON_BACKUP = false ∨ (i : Nat) ≠ s.dev.act F.TIME_PTP_CFG_PTP_NETIF → s.dev.wordsAndEvents d t) ∧
          d.word rx = BitVec.ofNat 32 (min ((s.dev.word rx).toNat + 1) 0xFFFFFFFF))) ∧
      (s.dev.netUp i = true → s.dev.ptpOn = true → (i : Nat) = s.dev.ptpIface → dom.toNat = s.dev.act F.TIME_PTP_CFG_DOMAIN →
        (∀ port c b, m = .announce port c → c.steps < 255 → c.gm ≠ Config.ptpIdentity →
          (s.dev.tm.masters.find? (fun f => f.netif = (i : Nat) && f.sender = port)).map (·.latest) = some b →
          now ≤ b + 4 * s.dev.annInterval →
          (∀ f ∈ s.dev.tm.masters, f.netif = (i : Nat) → f.sender ≠ port → (s.dev.atTime t).qualified f = true → Dev.clockBetter f.clock c = false) →
          s.dev.actFlag F.TIME_PTP_CFG_SLAVE_ONLY = true ∨ Dev.clockBetter s.dev.ownClock c = false →
          Answers (.ptpMessageRx t i dom m) s (fun d => d.get64 F.TIME_PTP_GM_LO = c.gm.toNat ∧ d.tm.announced = now ∧
            (s.dev.get64 F.TIME_PTP_GM_LO ≠ 0 → s.dev.get64 F.TIME_PTP_GM_LO ≠ c.gm.toNat → changes d ∧
              d.get F.TIME_PTP_STS_SERVO_LOCK = 0 ∧ d.get F.TIME_STS_HOLDOVER = 1))) ∧
        (m = .delayReq → st = 6 → s.dev.actFlag F.TIME_PTP_CFG_DELAY_MECH = false →
          Answers (.ptpMessageRx t i dom m) s (fun d => Out.ptp i (.delayResp t) now ∈ d.out ∧
            s.dev.keeps d [rx, F.NPORT_TX_FRAMES.addr ((i : Nat) / 4) ((i : Nat) % 4) 0])) ∧
        (∀ r c o a t3, m = .delayResp r c → s.dev.actFlag F.TIME_PTP_CFG_DELAY_MECH = false → s.dev.tm.lastSync = some (o, a) →
          s.dev.tm.request = some t3 → Answers (.ptpMessageRx t i dom m) s (fun d => d.tm.request = none ∧
            d.get F.TIME_PTP_PATH = min (((a : Int) - o + ((r : Int) - c - t3)) / 2).toNat 0xFFFFFFFF)))) ∧
    let silent := s.dev.ptpOn = true ∧ st ≠ 6 ∧ s.dev.tm.announced + s.dev.annTimeout ≤ now
    (¬ silent → exec (.ptpAnnounceTimeout t) s = still) ∧
    (silent → Answers (.ptpAnnounceTimeout t) s (fun d => d.get F.TIME_PTP_STS_SERVO_LOCK = 0 ∧
      d.get F.TIME_STS_HOLDOVER = 1 ∧
      let moves := s.dev.actFlag F.TIME_PTP_CFG_BACKUP_EN && !s.dev.flag F.TIME_PTP_STS_ON_BACKUP
      (moves = true → d.get F.TIME_PTP_STS_ON_BACKUP = 1 ∧ changes d) ∧
      (moves = false → d.get F.TIME_PTP_STS_ON_BACKUP = s.dev.get F.TIME_PTP_STS_ON_BACKUP ∧
        d.get F.TIME_PTP_STS_PORT_STATE = (if s.dev.actFlag F.TIME_PTP_CFG_SLAVE_ONLY = true then 4 else 6)))) ∧
    (s.dev.ptpOn = true → s.dev.flag F.TIME_PTP_STS_ON_BACKUP = true →
      (∀ a b, s.dev.netUp (s.dev.act F.TIME_PTP_CFG_PTP_NETIF) = true → s.dev.tm.home = some (a, b) → a + 10000000000 ≤ now →
        now ≤ b + s.dev.annTimeout →
        Answers (.ptpBackupReturn t) s (fun d => d.get F.TIME_PTP_STS_ON_BACKUP = 0 ∧ changes d)) ∧
      (s.dev.netUp (s.dev.act F.TIME_PTP_CFG_PTP_NETIF) = false ∨ s.dev.tm.home = none ∨
        (∃ a b, s.dev.tm.home = some (a, b) ∧ (now < a + 10000000000 ∨ b + s.dev.annTimeout < now)) →
        exec (.ptpBackupReturn t) s = still)) ∧
    (s.dev.ptpOn = false ∨ s.dev.netUp s.dev.ptpIface = false → ∀ due, exec (.ptpMessageSend t due) s = still) ∧
    (s.dev.ptpOn = true → s.dev.netUp s.dev.ptpIface = true → st = 6 → s.dev.actFlag F.TIME_PTP_CFG_SLAVE_ONLY = false →
      Answers (.ptpMessageSend t .sync) s (fun d =>
        let i := s.dev.ptpIface
        d.out = .ptp i .sync (max s.dev.house t) :: s.dev.out ∧
        d.get F.NPORT_TX_FRAMES (i / 4) (i % 4) = min (s.dev.get F.NPORT_TX_FRAMES (i / 4) (i % 4) + 1) 0xFFFFFFFF ∧
        s.dev.keeps d [F.NPORT_TX_FRAMES.addr (i / 4) (i % 4) 0]))

/-! Hands, deals and keepalives. -/

/-- The hand is gone and the hand regions are open. -/
def handGone (d : Dev) : Prop := d.hand = {} ∧ d.handLock = false

/-- SEAL locks the hand regions; a withdrawal folds a hand not yet taken; REVERT copies the active words back (R269, R272, R278, R279, R280). -/
def Obligations.SealsWithdrawalsAndReverts : Prop :=
  ∀ (s : State) (t : Nat),
    let now := max s.dev.house t
    let sts := F.DEAL_STS_OUTCOME.addr 0 0 0
    let irq := pageAddr .deal 0 0 + 0x10
    let still : Host.Outcome State Fault Refusal := .next { s with dev := s.dev.atTime t }
    (s.takesAt t ⟨.deal, 0, 0⟩ →
      (s.dev.handBusy = true → Answers (.seal t) s (fun d => s.dev.wordsAndEvents d t ∧ s.dev.keeps d [sts, irq] ∧
        d.word sts = s.dev.word sts ||| 0x20 ∧ d.word irq = s.dev.word irq ||| 0x100)) ∧
      (s.dev.handBusy = false → Answers (.seal t) s (fun d =>
        let at_ := s.dev.get64 F.DEAL_APPLY_LO
        let effective := if at_ = 0 then now else at_
        d.get F.DEAL_STS_OUTCOME = 1 ∧ d.get F.DEAL_STS_CHECKING = 1 ∧ d.get F.DEAL_EPOCH_SEALED = s.dev.get F.DEAL_EPOCH ∧
        d.get64 F.DEAL_APPLY_EFF_LO = effective % 2 ^ 64 ∧ d.get F.DEAL_HELD_HEADS_LO = 0 ∧ d.get F.DEAL_HELD_HEADS_HI = 0 ∧
        d.handLock = true ∧ d.hand.pending = true ∧ d.hand.edge = now ∧ d.hand.scope = s.dev.get F.DEAL_SCOPE_SCOPE ∧
        d.hand.apply = effective ∧ d.hand.done = none ∧ d.written = [] ∧
        s.dev.keeps d [sts, F.DEAL_EPOCH_SEALED.addr 0 0 0, F.DEAL_APPLY_EFF_LO.addr 0 0 0, F.DEAL_APPLY_EFF_LO.addr 0 0 0 + 4,
          F.DEAL_HELD_HEADS_LO.addr 0 0 0, F.DEAL_HELD_HEADS_HI.addr 0 0 0])) ∧
      (s.dev.hand.pending = false → exec (.withdraw t) s = still) ∧
      (s.dev.hand.pending = true → s.dev.hand.scope = 0 → s.dev.hand.taken = false → (s.dev.atTime t).takesNow = false →
        Answers (.withdraw t) s (fun d => handGone d ∧ d.get F.DEAL_STS_WITHDRAWN = 1 ∧ d.get F.DEAL_STS_CHECKING = 0 ∧
          d.get F.DEAL_STS_OUTCOME = 4 ∧ d.get F.DEAL_STS_FOLD_CAUSE = 1 ∧
          d.get F.DEAL_FOLDS = min (s.dev.get F.DEAL_FOLDS + 1) 0xFFFFFFFF ∧ raised d .deal 0 0 4)) ∧
      (s.dev.hand.pending = true → s.dev.hand.scope = 0 → s.dev.hand.taken = true ∨ (s.dev.atTime t).takesNow = true →
        Answers (.withdraw t) s (fun d => d.hand = { s.dev.hand with tooLate := true } ∧ d.get F.DEAL_STS_WITHDRAWN = 1 ∧
          s.dev.keeps d [sts])) ∧
      (s.dev.handBusy = true → exec (.revert t) s = still) ∧
      (s.dev.handBusy = false → Answers (.revert t) s (fun d => d.get F.DEAL_STS_REVERTING = 1 ∧ d.handLock = true ∧
        s.dev.keeps d [sts] ∧ { d.aside with handLock := s.dev.handLock } = (s.dev.atTime t).aside))) ∧
    (s.dev.inReset = false →
      (s.dev.flag F.DEAL_STS_REVERTING = false → exec (.revertDone t) s = still) ∧
      (s.dev.flag F.DEAL_STS_REVERTING = true → Answers (.revertDone t) s (fun d => d.get F.DEAL_STS_REVERTING = 0 ∧
        d.handLock = false ∧ d.written = s.dev.written ∧
        (∀ a, (decodePage a).isSome = true → isHandOff (a % 0x1000) = true → d.word a = s.dev.word (a - 0x400)) ∧
        ∀ a, (decodePage a).isSome = false ∨ isHandOff (a % 0x1000) = false → a ≠ sts → d.word a = s.dev.word a)))

/-- A seal completes or is rejected; at the apply time a hand's words become active (R270, R271, R275, R277, R279; R492). -/
def Obligations.SealsCompleteAndApply : Prop :=
  ∀ (s : State) (t : Nat), s.dev.inReset = false →
    let now := max s.dev.house t
    let still : Host.Outcome State Fault Refusal := .next { s with dev := s.dev.atTime t }
    let free := s.dev.flag F.LEDGER_AUDIT_STS_REBUILDING = false ∧ s.dev.talonFrozen = false ∧
      ∀ c ∈ s.dev.slabChanges s.dev.sealedView, c.2.2 ≤ c.2.1
    (∀ std, s.dev.hand.pending = false ∨ s.dev.hand.done.isSome = true → exec (.sealComplete t std) s = still) ∧
    (∀ std, s.dev.hand.pending = true → s.dev.hand.done = none → s.dev.hand.missed = false → s.dev.hand.scope = 0 → free →
      let failsStd := (∃ p, StdFail.port p ∈ std) ∨ ∃ q : Fin 16, StdFail.dsc q ∈ std ∧ s.dev.dscChanged q = true
      let lacks := s.dev.freeCount < s.dev.emptyPositions
      (s.dev.hand.fails ≠ [] ∨ failsStd ∨ lacks → Answers (.sealComplete t std) s (fun d => handGone d ∧
        d.get F.DEAL_STS_OUTCOME = 0 ∧ d.get F.DEAL_STS_CHECKING = 0 ∧ raised d .deal 0 0 1 ∧
        d.get F.DEAL_REJECTS = min (s.dev.get F.DEAL_REJECTS + 1) 0xFFFFFFFF ∧ d.get64 F.DEAL_SEAL_TIME_LO = now % 2 ^ 64)) ∧
      (s.dev.hand.fails = [] → ¬ failsStd → ¬ lacks → now < s.dev.hand.apply → Answers (.sealComplete t std) s (fun d =>
        d.hand.pending = true ∧ d.hand.done = some now ∧ d.hand.dealt = true ∧ d.hand.rest = true ∧
        d.handLock = s.dev.handLock ∧ d.get F.DEAL_STS_CHECKING = 0 ∧ d.get F.DEAL_STS_OUTCOME = s.dev.get F.DEAL_STS_OUTCOME ∧
        raised d .deal 0 0 0 ∧ d.get F.DEAL_SEALS = min (s.dev.get F.DEAL_SEALS + 1) 0xFFFFFFFF ∧
        d.get64 F.DEAL_SEAL_TIME_LO = now % 2 ^ 64))) ∧
    (s.dev.handReady = false ∨ now < s.dev.hand.apply → exec (.applyTimeReached t) s = still) ∧
    (s.dev.handReady = true → s.dev.hand.apply ≤ now → s.dev.hand.heads = [] → s.dev.hand.ctxs = [] → s.dev.hand.rest = true →
      Answers (.applyTimeReached t) s (fun d => handGone d ∧
        d.get F.DEAL_EPOCH_ACTIVE = s.dev.hand.epoch % 2 ^ 32 ∧ d.get64 F.DEAL_DONE_TIME_LO = d.house % 2 ^ 64 ∧
        (∀ a ∈ s.dev.domWords .rest, d.word (a - 0x400) = s.dev.word a) ∧
        (∀ a, (decodePage a).isSome = true → isHandOff (a % 0x1000) = true → d.word a = d.word (a - 0x400)) ∧
        (s.dev.hand.tooLate = false → s.dev.hand.lateAt = none → s.dev.get F.DEAL_HELD_HEADS_LO = 0 →
          s.dev.get F.DEAL_HELD_HEADS_HI = 0 → d.get F.DEAL_STS_OUTCOME = 2 ∧ raised d .deal 0 0 2)))

/-- A control message that fails a check is counted and does nothing (R353, R357, R371, R375). -/
def controlMessagesAreChecked : Prop :=
  ∀ (s : State) (t : Nat) (i : Fin 16) (m : List Byte) (ty : Nat) (c : Instr), s.dev.inReset = false →
    (ty = tyBid ∧ c = .bidRx t i m) ∨ (ty = tyRetract ∧ c = .retractRx t i m) ∨ (ty = tyVote ∧ c = .tableVoteRx t i m) ∨
      (ty = tyDecision ∧ c = .decisionRx t i m) ∨ (ty = tyKeep ∧ c = .keepaliveRx t i m) ∨
      (ty = tyDealerKeep ∧ c = .dealerKeepaliveRx t i m) →
    let p := (i : Nat) / 4
    let k := (i : Nat) % 4
    let now := max s.dev.house t
    let sent := mget m 8 8
    let good := Dev.headerOk m (Dev.ctrlLen ty) = true ∧ mget m 3 1 = ty
    let counts (f : Fld) (d : Dev) : Prop := s.dev.wordsAndEvents d t ∧
      d.get F.NPORT_RX_FRAMES p k = min (s.dev.get F.NPORT_RX_FRAMES p k + 1) 0xFFFFFFFF ∧
      d.get f p k = min (s.dev.get f p k + 1) 0xFFFFFFFF
    let words (f : Fld) : List Nat := [F.NPORT_RX_FRAMES.addr p k 0, f.addr p k 0]
    let hears := s.dev.netUp i && s.dev.netHears i (fun o => match o with
      | .udp q _ _ b => q = (i : Nat) && b = m
      | _ => false)
    let long := Dev.overMtu (leVal ((s.dev.grpAddr (if Dev.houseClass m then F.NPORT_HOUSE_GRP else F.NPORT_TABLE_GRP) p).flatMap
      (fun w => leBytes 4 w.toNat))) m.length
    (hears = false → exec c s = .next { s with dev := s.dev.atTime t }) ∧
    (hears = true → s.dev.act F.NPORT_SP_CFG_CTRL_EN p k ≠ 1 → Answers c s (fun d => s.dev.wordsAndEvents d t ∧ s.dev.keeps d [])) ∧
    (hears = true → s.dev.act F.NPORT_SP_CFG_CTRL_EN p k = 1 → long = true →
      Answers c s (fun d => counts F.NPORT_FCS_ERR d ∧ s.dev.keeps d (words F.NPORT_FCS_ERR))) ∧
    (hears = true → s.dev.act F.NPORT_SP_CFG_CTRL_EN p k = 1 → long = false →
      (¬ good → Answers c s (fun d => counts F.NPORT_NOT_FOR_US d ∧ s.dev.keeps d (words F.NPORT_NOT_FOR_US))) ∧
      (good → Dev.srcCode m ≠ addrCode s.dev.myTable s.dev.mySeat →
        (s.dev.tagOk m = false → Answers c s (fun d => counts F.NPORT_TAG_FAIL d ∧ raised d .nport p 0 8 ∧
          s.dev.keeps d ((pageAddr .nport p 0 + 0x10) :: words F.NPORT_TAG_FAIL))) ∧
        (s.dev.tagOk m = true → 5000000 < max sent now - min sent now →
          Answers c s (fun d => counts F.NPORT_STALE_MSG d ∧ s.dev.keeps d (words F.NPORT_STALE_MSG)))))

/-- A control message of a type is accepted: R357, R371. -/
def accepted (s : State) (t : Nat) (i : Fin 16) (ty : Nat) (m : List Byte) : Prop :=
  s.dev.inReset = false ∧ ((s.dev.atTime t).acceptControl i ty m).1 = true

/-- Bids, retracts and votes reach the dealer that is concerned, and it decides in time (R281, R283, R286, R287, R295). -/
def dealersCollectBidsAndDecide : Prop :=
  ∀ (s : State) (t : Nat),
    let dealer := s.dev.flag F.DEAL_DEALER_STS_IS_DEALER
    let house := s.dev.flag F.DEAL_DEALER_STS_IS_HOUSE_DEALER
    let wait := s.dev.act F.DEAL_DEALER_CFG_WAIT_US * 1000
    let up (d : Dev) (f : Fld) : Prop := d.get f = min (s.dev.get f + 1) 0xFFFFFFFF
    let seat (m : List Byte) := mget m 5 1 % 64
    let bid (m : List Byte) : DealRec :=
      { scope := mget m 20 1, epoch := mget m 24 4, apply := mget m 28 8, decide := mget m 36 8, seats := mget m 44 8
        tables := mget m 52 32 }
    (∀ i m, accepted s t i tyBid m →
      (dealer = false → Answers (.bidRx t i m) s (fun d =>
        s.dev.keeps d [F.NPORT_RX_FRAMES.addr ((i : Nat) / 4) ((i : Nat) % 4) 0] ∧ d.deal.opened = s.dev.deal.opened)) ∧
      (dealer = true → s.dev.deal.dealerSince ≤ mget m 8 8 →
        (s.dev.deal.opened.find? (Dev.sameDeal (bid m)) = none → (s.dev.deal.opened.filter (fun q => !q.house)).length < 8 →
          (∀ x ∈ Dev.maskList (mget m 44 8) 64, s.dev.outOfHand x = false) →
          Answers (.bidRx t i m) s (fun d => up d F.DEAL_BIDS ∧
            d.deal.opened = s.dev.deal.opened ++ [{ bid m with bids := [seat m], count := 1 }] ∧
            d.get F.DEAL_DEALS_OPEN_COUNT = (s.dev.deal.opened.filter (fun q => !q.house)).length + 1)) ∧
        (∀ q, s.dev.deal.opened.find? (Dev.sameDeal (bid m)) = some q → q.bids.contains (seat m) = true →
          Answers (.bidRx t i m) s (fun d => up d F.DEAL_BIDS ∧ up d F.DEAL_BID_DUP ∧ d.deal.opened = s.dev.deal.opened)))) ∧
    (∀ i m q, accepted s t i tyRetract m → dealer = true → s.dev.deal.opened = [q] → q.house = false → q.scope = 1 →
      mget m 20 1 = 1 → q.epoch = mget m 24 4 → q.apply = mget m 28 8 →
      (Dev.inMask q.seats (seat m) = true →
        Answers (.retractRx t i m) s (fun d => up d F.DEAL_FOLDS_DECIDED ∧ d.deal.opened = [] ∧ d.get F.DEAL_DEALS_OPEN_COUNT = 0)) ∧
      (Dev.inMask q.seats (seat m) = false →
        Answers (.retractRx t i m) s (fun d => d.get F.DEAL_FOLDS_DECIDED = s.dev.get F.DEAL_FOLDS_DECIDED ∧ d.deal.opened = [q]))) ∧
    (∀ i m, accepted s t i tyVote m → house = true → s.dev.deal.houseSince ≤ mget m 8 8 → s.dev.deal.opened = [] →
      Answers (.tableVoteRx t i m) s (fun d => ∃ q, d.deal.opened = [q] ∧ q.house = true ∧ q.epoch = mget m 24 4 ∧
        q.apply = mget m 28 8 ∧ q.tables = mget m 44 32 ∧ q.differ = false ∧
        (if mget m 20 1 = 1 then q.bids = [mget m 4 1] ∧ q.folds = [] else q.bids = [] ∧ q.folds = [mget m 4 1]))) ∧
    (s.dev.inReset = false →
      ((∀ q ∈ s.dev.deal.opened, q.house = true ∨ t < q.decide + wait) →
        exec (.dealerDecide t) s = .next { s with dev := s.dev.atTime t }) ∧
      ((∀ q ∈ s.dev.deal.opened, q.house = false ∨ t < q.decide + 2 * wait) →
        exec (.houseDecide t) s = .next { s with dev := s.dev.atTime t }) ∧
      ∀ q, s.dev.deal.opened = [q] →
        (q.house = false → q.scope = 1 → q.decide + wait ≤ t → Answers (.dealerDecide t) s (fun d => d.deal.opened = [] ∧
          ((∀ x ∈ Dev.maskList q.seats 64, (s.dev.atTime t).stands q x = true) → up d F.DEAL_DEALS ∧
            d.get F.DEAL_FOLDS_DECIDED = s.dev.get F.DEAL_FOLDS_DECIDED) ∧
          ((∃ x ∈ Dev.maskList q.seats 64, (s.dev.atTime t).stands q x = false) → up d F.DEAL_FOLDS_DECIDED ∧
            d.get F.DEAL_DEALS = s.dev.get F.DEAL_DEALS))) ∧
        (q.house = true → q.decide + 2 * wait ≤ t → Answers (.houseDecide t) s (fun d => d.deal.opened = [])))

/-- The first decision for the own deal takes effect; without one the hand is missed (R279, R284, R285, R293). -/
def decisionsReachTheHand : Prop :=
  ∀ (s : State) (t : Nat),
    let h := s.dev.hand
    let own := h.pending = true ∧ h.scope ≠ 0 ∧ h.dealt = false ∧ h.missed = false
    let up (d : Dev) (f : Fld) : Prop := d.get f = min (s.dev.get f + 1) 0xFFFFFFFF
    let still : Host.Outcome State Fault Refusal := .next { s with dev := s.dev.atTime t }
    (∀ i m, accepted s t i tyDecision m → mget m 36 1 = s.dev.myTable →
      let level := mget m 20 1
      let known := s.dev.deal.decided.find? (fun q => q.1 = level * 2 ^ 32 + mget m 24 4 && q.2.1 = mget m 28 8)
      (known = none → own → h.scope = level + 1 → h.epoch = mget m 24 4 → h.apply = mget m 28 8 →
        (mget m 21 1 = 1 → max s.dev.house t < h.apply → Answers (.decisionRx t i m) s (fun d =>
          d.hand = { h with dealt := true, tooLate := h.withdrawn } ∧ d.get F.DEAL_STS_DECISION = 1 ∧
          d.deal.decided.head? = some (level * 2 ^ 32 + h.epoch, h.apply, 1))) ∧
        (mget m 21 1 = 2 → Answers (.decisionRx t i m) s (fun d => handGone d ∧ d.get F.DEAL_STS_DECISION = 2 ∧
          d.get F.DEAL_STS_OUTCOME = 4 ∧ d.get F.DEAL_STS_FOLD_CAUSE = mget m 22 1 % 16 ∧ up d F.DEAL_FOLDS ∧ raised d .deal 0 0 4))) ∧
      (∀ q, known = some q → q.2.2 ≠ mget m 21 1 → mget m 21 1 = 1 ∨ mget m 21 1 = 2 →
        Answers (.decisionRx t i m) s (fun d => d.hand = h ∧ up d F.DEAL_DECISION_CONFLICT ∧ raised d .deal 0 1 4))) ∧
    (s.dev.inReset = false →
      (own → h.apply ≤ t + 1000000 → Answers (.decisionDeadline t) s (fun d => d.get F.DEAL_STS_OUTCOME = 5 ∧ up d F.DEAL_MISSES ∧
        raised d .deal 0 0 5 ∧ (s.dev.get F.DEAL_CFG_LATE_LIMIT = 0 → handGone d) ∧
        (s.dev.get F.DEAL_CFG_LATE_LIMIT ≠ 0 → d.hand = { h with missed := true } ∧ d.handLock = s.dev.handLock))) ∧
      (h.pending = true → h.missed = true → h.apply + s.dev.get F.DEAL_CFG_LATE_LIMIT * h.tslow ≤ t →
        Answers (.lateWindowClose t) s (fun d => handGone d ∧ d.get F.DEAL_STS_CHECKING = 0 ∧
          s.dev.keeps d [F.DEAL_STS_OUTCOME.addr 0 0 0])) ∧
      (h.pending = false → exec (.decisionDeadline t) s = still) ∧
      (h.missed = false → exec (.lateWindowClose t) s = still))

/-- Dealers collect bids and decide, and decisions reach the hand. -/
def Obligations.BidsAndDecisions : Prop :=
  dealersCollectBidsAndDecide ∧ decisionsReachTheHand

/-- Keepalives are sent, keep seats and tables live, and their silence loses them (R289, R292; R368, R369, R371, R372, R373). -/
def keepalivesKeepSeatsLive : Prop :=
  ∀ (s : State) (t : Nat),
    let now := max s.dev.house t
    let still : Host.Outcome State Fault Refusal := .next { s with dev := s.dev.atTime t }
    (∀ i m, accepted s t i tyKeep m →
      let seat := mget m 5 1 % 64
      (mget m 4 1 = s.dev.myTable → Answers (.keepaliveRx t i m) s (fun d => (d.seat seat).live = true ∧
        (d.seat seat).heard = now ∧ (d.seat seat).epoch = mget m 20 4 ∧ (d.seat seat).flags = mget m 28 1 ∧
        ∀ k, k ≠ seat → d.seat k = s.dev.seat k)) ∧
      (mget m 4 1 ≠ s.dev.myTable → Answers (.keepaliveRx t i m) s (fun d => d.deal.seats = s.dev.deal.seats))) ∧
    (∀ i m, accepted s t i tyDealerKeep m →
      (s.dev.flag F.DEAL_DEALER_STS_IS_DEALER = true → Answers (.dealerKeepaliveRx t i m) s (fun d =>
        (d.tableSt (mget m 4 1)).live = true ∧ (d.tableSt (mget m 4 1)).heard = now ∧
        (d.tableSt (mget m 4 1)).flags = mget m 20 1)) ∧
      (s.dev.flag F.DEAL_DEALER_STS_IS_DEALER = false → Answers (.dealerKeepaliveRx t i m) s (fun d =>
        d.deal.tables = s.dev.deal.tables))) ∧
    (s.dev.inReset = false → s.dev.hand.pending = false →
      (∀ k : Fin 64, if (s.dev.seat k).live = true ∧ (s.dev.seat k).heard + 3000000 ≤ t then
          Answers (.keepaliveMiss t (.seat k)) s (fun d => (d.seat k).live = false ∧ ∀ q, q ≠ (k : Nat) → d.seat q = s.dev.seat q)
        else exec (.keepaliveMiss t (.seat k)) s = still) ∧
      (∀ n : Fin 256, if (s.dev.tableSt n).live = true ∧ (s.dev.tableSt n).heard + 3000000 ≤ t then
          Answers (.keepaliveMiss t (.table n)) s (fun d => (d.tableSt n).live = false)
        else exec (.keepaliveMiss t (.table n)) s = still) ∧
      (∀ n : Fin 256, if s.dev.ctxKind n = 10 ∧ sget (fun _ => 0) s.dev.deal.streams n + 3000000 ≤ t then
          Answers (.keepaliveMiss t (.stream n)) s (fun d => d.flag F.INGEST_FRESH_STS_PEER_LOST n = true)
        else exec (.keepaliveMiss t (.stream n)) s = still)) ∧
    (s.dev.inReset = false → s.dev.keys.table ≠ [] → Answers (.keepaliveSend t false) s (fun d =>
      (∃ w, d.deal.own.head? = some w ∧ now ≤ w ∧ sget (fun _ => 0) s.dev.deal.given tyKeep ≤ w ∧
        sget (fun _ => 0) d.deal.given tyKeep = w + 1) ∧
      ∀ i ∈ s.dev.ctrlIfs, ∃ dst port bytes, Out.udp i dst port bytes ∈ d.out ∧ bytes.take 4 = [0x51, 0x54, 0x01, 0x10]))

/-- Control messages are checked, and keepalives keep seats live. -/
def Obligations.ControlMessagesAndKeepalives : Prop :=
  controlMessagesAreChecked ∧ keepalivesKeepSeatsLive

/-! The witness chain. -/

/-- The words of the witness chain's live region that say what was handed over. -/
def handedWords : List Nat :=
  [F.WITCHAIN_HANDED_LO.addr 64 0 0, F.WITCHAIN_HANDED_LO.addr 64 0 0 + 4, F.WITCHAIN_STS_STALLED.addr 64 0 0,
   pageAddr .witChain 64 0 + 0x10]

/-- Witness records go over the channel in order and are chained by their hash (R310, R311, R312, R313, R320). -/
def Obligations.RecordsAreHandedOverAndChained : Prop :=
  ∀ (s : State) (t : Nat), s.dev.inReset = false →
    (∀ a, s.dev.witRuns = true → s.dev.witStalled = false → s.dev.witResume = false →
      s.dev.get64 F.WITCHAIN_HANDED_LO 64 + 1 < s.dev.get64 F.WITCHAIN_NEXT_COUNTER_LO 64 →
      s.dev.witOldest ≤ s.dev.get64 F.WITCHAIN_HANDED_LO 64 + 1 →
      s.dev.witAddr (s.dev.get64 F.WITCHAIN_HANDED_LO 64 + 1) = some a → s.dev.pcFenced (pcOf a) = false →
      (∀ b ∈ s.dev.scrubBad, b + 32 ≤ a ∨ a + 128 ≤ b) → s.dev.get64 F.WITCHAIN_HANDED_LO 64 + 1 ∉ s.dev.witLost →
      Answers (.witnessHandover t) s (fun d =>
        d.witChan = s.dev.witChan ++ [(s.dev.get64 F.WITCHAIN_HANDED_LO 64 + 1, memRead s.dev.bytes a 128, false)] ∧
        d.get64 F.WITCHAIN_HANDED_LO 64 = s.dev.get64 F.WITCHAIN_HANDED_LO 64 + 1 ∧
        d.flag F.WITCHAIN_STS_STALLED 64 = decide (64 ≤ s.dev.witChan.length + 1) ∧
        s.dev.keeps d handedWords ∧
        d.witLost = s.dev.witLost.filter (s.dev.get64 F.WITCHAIN_HANDED_LO 64 + 1 ≤ ·) ∧
        d.witHanded = s.dev.witHanded + 1 ∧ { d.apart with witChan := [], witLost := [], witHanded := 0 } =
          { (s.dev.atTime t).apart with witChan := [], witLost := [], witHanded := 0 })) ∧
    (s.dev.witRuns = false ∨ s.dev.witStalled = true ∨
      s.dev.get64 F.WITCHAIN_NEXT_COUNTER_LO 64 ≤ s.dev.get64 F.WITCHAIN_HANDED_LO 64 + 1 →
      exec (.witnessHandover t) s = .next { s with dev := s.dev.atTime t }) ∧
    (∀ c rcd resume rest, s.dev.witChan = (c, rcd, resume) :: rest → s.dev.fwUp = true →
      s.dev.flag F.MGMT_WCHAIN_STS_HALTED = false → s.dev.fenced .witChain 64 = false →
      (resume = false → s.dev.mg.genesis = false → s.dev.mg.chainC ≠ [] →
        (c = s.dev.get64 F.MGMT_WCHAIN_CNT_LO + 1 →
          Answers (.witnessChainRecord t) s (fun d =>
            d.witChan = rest ∧ d.mg.chainC = shake256 (s.dev.mg.chainC ++ rcd) 64 ∧
            d.get64 F.MGMT_WCHAIN_CNT_LO = c % 2 ^ 64 ∧
            s.dev.keeps d [F.MGMT_WCHAIN_CNT_LO.addr 0 0 0, F.MGMT_WCHAIN_CNT_LO.addr 0 0 0 + 4,
              F.WITCHAIN_STS_STALLED.addr 64 0 0, pageAddr .witChain 64 0 + 0x10] ∧
            d.witChained = s.dev.witChained + 1 ∧
            { d.apart with witChan := [], witChained := 0, mg := { d.mg with chainC := [] } } =
              { (s.dev.atTime t).apart with witChan := [], witChained := 0, mg := { s.dev.mg with chainC := [] } })) ∧
        (c ≠ s.dev.get64 F.MGMT_WCHAIN_CNT_LO + 1 →
          Answers (.witnessChainRecord t) s (fun d => d.flag F.MGMT_WCHAIN_STS_HALTED = true ∧ d.flag F.MGMT_WCHAIN_STS_ACTIVE = false ∧
            s.dev.keeps d [F.MGMT_WCHAIN_STS_HALTED.addr 0 0 0] ∧ s.dev.wordsOnly d t))) ∧
      (resume = true ∨ s.dev.mg.genesis = true ∨ s.dev.mg.chainC = [] →
        let prev := if s.dev.mg.chainC = [] then s.nv.chain.map (·.2) else some (s.dev.get64 F.MGMT_WCHAIN_CNT_LO, s.dev.mg.chainC)
        let no := ((s.nv.increment 0).count 0).getD 0
        let g := shake256 (genesisInput no (max s.dev.house t) (prev.elim 0 (·.1)) c (prev.elim [] (·.2))) 64
        ∃ d e, exec (.witnessChainRecord t) s = .next { s with dev := d, nv := s.nv.increment 0 } ∧
          d.witChan = rest ∧ d.mg.chainC = shake256 (g ++ rcd) 64 ∧ d.mg.genesis = false ∧
          d.mg.due = s.dev.mg.due ++ [e] ∧ e.genesis = true ∧ e.chain = no ∧ e.counter = c - 1 ∧ e.value = g ∧
          d.flag F.MGMT_WCHAIN_STS_ACTIVE = true ∧ d.get64 F.MGMT_WCHAIN_NO_LO = no % 2 ^ 64 ∧
          d.get64 F.MGMT_WCHAIN_CNT_LO = c % 2 ^ 64))

/-- Signed entries are due at each period, become available in order, and are read word by word (R314, R315, R316, R317, R321). -/
def Obligations.SignedEntriesAreMadeAndRead : Prop :=
  ∀ (s : State) (t : Nat), s.dev.inReset = false →
    (s.dev.fwUp = true → s.dev.fenced .witChain 64 = false → s.dev.mg.chainC ≠ [] → t % (s.dev.signMs t * 1000000) = 0 →
      Answers (.signPeriod t) s (fun d => ∃ e, d.mg.due = s.dev.mg.due ++ [e] ∧
        e.chain = s.dev.get64 F.MGMT_WCHAIN_NO_LO ∧ e.counter = s.dev.get64 F.MGMT_WCHAIN_CNT_LO ∧
        e.value = s.dev.mg.chainC ∧ e.genesis = false ∧ e.signed = !s.dev.debugOpen ∧
        { d with mg := { d.mg with due := [] } } = { s.dev.atTime t with mg := { s.dev.mg with due := [] } })) ∧
    (s.dev.mg.signWas = none → s.dev.signMs t = s.dev.get F.MGMT_WSIGN_PERIOD_MS) ∧
    (∀ old at_, s.dev.mg.signWas = some (old, at_) →
      s.dev.signMs t = if t < at_ then old else s.dev.get F.MGMT_WSIGN_PERIOD_MS) ∧
    (s.dev.mg.chainC = [] ∨ s.dev.fenced .witChain 64 = true ∨ t % (s.dev.signMs t * 1000000) ≠ 0 →
      exec (.signPeriod t) s = .next { s with dev := s.dev.atTime t }) ∧
    (∀ e rest, s.dev.mg.due = e :: rest → s.dev.fwUp = true →
      let n := (s.dev.get F.MGMT_WSIG_LAST + 1) % 2 ^ 32
      ∃ d sig, exec (.signedEntryReady t) s = .next { s with dev := d, nv := if e.signed then
            { s.nv with chain := some (e.chain, e.counter, e.value) } else s.nv } ∧
        d.mg.due = rest ∧ d.get F.MGMT_WSIG_LAST = n ∧ sig.length = 3309 ∧ d.mg.entries.length ≤ 64 ∧
        d.mg.entries.getLast? = some (n, e.body ++ sig ++ List.replicate 3 0) ∧
        (∀ q ∈ d.mg.entries, q ∈ s.dev.mg.entries ∨ q.1 = n) ∧ (d.word (pageAddr .mgmt 0 1 + 0x10)).getLsbD 8 = true ∧
        (e.signed = false → sig = List.replicate 3309 0 ∧ d.draws = s.dev.draws) ∧
        s.dev.keeps d [F.MGMT_WSIG_LAST.addr 0 0 0, pageAddr .mgmt 0 1 + 0x10] ∧
        { d.apart with draws := 0, mg := { d.mg with due := [], entries := [] } } =
          { (s.dev.atTime t).apart with draws := 0, mg := { s.dev.mg with due := [], entries := [] } }) ∧
    (∀ seq : Word, s.takesAt t ⟨.mgmt, 0, 1⟩ →
      Answers (.wsigSelect t seq) s (fun d => d.get F.MGMT_WSIG_SEL = seq.toNat ∧ d.mg = { s.dev.mg with wordIdx := 0 } ∧
        s.dev.keeps d [F.MGMT_WSIG_SEL.addr 0 0 0] ∧
        { d.aside with mg := {} } = { (s.dev.atTime t).aside with mg := {} })) ∧
    (s.takesAt t ⟨.mgmt, 0, 1⟩ →
      (∀ bs, s.dev.sigEntry = some bs → s.dev.mg.wordIdx < 896 →
        exec (.wsigDataRead t) s = .next { s with dev := { s.dev.atTime t with
          resp := some (.data (BitVec.ofNat 32 (leVal ((bs.drop (4 * s.dev.mg.wordIdx)).take 4)))),
          mg := { s.dev.mg with wordIdx := s.dev.mg.wordIdx + 1 } } }) ∧
      (s.dev.sigEntry = none ∨ 896 ≤ s.dev.mg.wordIdx →
        exec (.wsigDataRead t) s = .next { s with dev := { s.dev.atTime t with
          resp := some (.data (BitVec.ofNat 32 (Config.freeValue s.dev.draws))), draws := s.dev.draws + 1,
          mg := { s.dev.mg with wordIdx := s.dev.mg.wordIdx + 1 } } }))

/-! The audio island. -/

/-- Both subframes of an AES3 frame as words. -/
def frameWords (f : AesFrame) : List Nat :=
  [wordOf f.a.sample.toNat f.a.v f.a.u f.a.c f.z false, wordOf f.b.sample.toNat f.b.v f.b.u f.b.c f.z false]

/-- The condition counts 1. -/
def ones (b : Bool) : Nat := if b then 1 else 0

/-- AES3 inputs count errors, lock at the end of a block, lose lock, and are measured (R329, R331, R332, R349). -/
def Obligations.AesInputs : Prop :=
  ∀ (s : State) (t : Nat), s.dev.inReset = false → s.dev.audioRuns = true →
    (∀ (i : Fin 16) (f : AesFrame), s.dev.actFlag F.AUDIO_AIN_CFG_EN 0 i = true →
      (s.dev.directOut i = none → s.dev.flag F.AUDIO_AIN_STS_LOCK 0 i = false → (f.z = true ∨ (s.dev.ain i).pos ≠ some 190) →
        Answers (.aes3FrameRx t i f) s (fun d => d.flag F.AUDIO_AIN_STS_LOS 0 i = false ∧
          d.get F.AUDIO_PARITY_ERR 0 i =
            min (s.dev.get F.AUDIO_PARITY_ERR 0 i + ones (!f.a.parity || !f.b.parity)) (2 ^ F.AUDIO_PARITY_ERR.w - 1) ∧
          d.get F.AUDIO_INVALID 0 i = min (s.dev.get F.AUDIO_INVALID 0 i + ones (f.a.v || f.b.v)) (2 ^ F.AUDIO_INVALID.w - 1) ∧
          ((d.ain i).now, (d.ain i).prev) = (s.dev.ain i).now.add (s.dev.ain i).prev t ∧ (d.ain i).heard = t ∧
          (f.z = true → (d.ain i).pos = some 0) ∧ d.get F.AUDIO_RXS_STS_CHANNELS_IN 0 i = 2 ∧
          (∀ j, j ≠ (i : Nat) → d.ain j = s.dev.ain j) ∧
          s.dev.keeps d [F.AUDIO_AIN_STS_LOS.addr 0 i 0, F.AUDIO_PARITY_ERR.addr 0 i 0, F.AUDIO_INVALID.addr 0 i 0,
            F.AUDIO_RXS_STS_CHANNELS_IN.addr 0 i 0] ∧
          { d.aside with audio := { d.audio with ains := [] } } =
            { (s.dev.atTime t).aside with audio := { s.dev.audio with ains := [] } })) ∧
      (f.z = false → (s.dev.ain i).pos = some 190 → 1 ≤ (s.dev.ain i).good →
        Answers (.aes3FrameRx t i f) s (fun d => d.flag F.AUDIO_AIN_STS_LOCK 0 i = true)) ∧
      (∀ o, s.dev.directOut i = some o →
        Answers (.aes3FrameRx t i f) s (fun d => (d.aout o).words = frameWords f ∧
          ∀ p, p ≠ o → d.aout p = s.dev.aout p))) ∧
    (∀ i : Fin 16,
      (max s.dev.house t < (s.dev.ain i).heard + 100000 →
        exec (.aes3LockLoss t i) s = .next { s with dev := s.dev.atTime t }) ∧
      ((s.dev.ain i).heard + 100000 ≤ max s.dev.house t →
       Answers (.aes3LockLoss t i) s (fun d => d.flag F.AUDIO_AIN_STS_LOCK 0 i = false ∧ d.flag F.AUDIO_AIN_STS_LOS 0 i = true ∧
        (d.ain i).pos = none ∧
        (s.dev.flag F.AUDIO_AIN_STS_LOCK 0 i = true →
          d.get F.AUDIO_LOCK_LOSS 0 i = min (s.dev.get F.AUDIO_LOCK_LOSS 0 i + 1) (2 ^ F.AUDIO_LOCK_LOSS.w - 1) ∧
          (d.word (pageAddr .audio 0 1 + 0x10)).getLsbD 16 = true) ∧
        (s.dev.flag F.AUDIO_AIN_STS_LOCK 0 i = false →
          d.get F.AUDIO_LOCK_LOSS 0 i = s.dev.get F.AUDIO_LOCK_LOSS 0 i ∧ d.out = s.dev.out) ∧
        s.dev.keeps d [F.AUDIO_AIN_STS_LOS.addr 0 i 0, F.AUDIO_LOCK_LOSS.addr 0 i 0, pageAddr .audio 0 1 + 0x10]))) ∧
    let now := max s.dev.house t
    let due := 1000000000 ≤ now ∧ now % 1000000000 ≤ 10000
    (¬ due → exec (.aes3RateMeasure t) s = .next { s with dev := s.dev.atTime t }) ∧
    (due → Answers (.aes3RateMeasure t) s (fun d => ∀ i : Fin 16,
      let r := Dev.measuredRate (now / 1000000000 - 1) (s.dev.ain i).now (s.dev.ain i).prev
      let cls := if r = 0 then 0 else rateClass r (s.dev.act F.AUDIO_AIN_CFG_TOL_PPM 0 i)
      d.get F.AUDIO_AIN_RATE 0 i = min r (2 ^ 32 - 1) ∧ d.get F.AUDIO_AIN_STS_RATE_CLASS 0 i = cls ∧
      d.get F.AUDIO_AIN_STS_IN_TOL 0 i = (if cls = 0 then 0 else 1) ∧
      ((s.dev.get F.AUDIO_AIN_STS_RATE_CLASS 0 i ≠ cls ∨ s.dev.get F.AUDIO_AIN_STS_IN_TOL 0 i ≠ (if cls = 0 then 0 else 1)) →
        (d.word (pageAddr .audio 0 1 + 0x10)).getLsbD i = true)))

/-- At a sample instant each running stream reads one frame or counts an underrun (R327, R333, R338, R339, R349). -/
def streamsAreReadAtSampleInstants : Prop :=
  ∀ (s : State) (t : Nat), s.dev.inReset = false →
    let now := max s.dev.house t
    let new := instantTime (instantAt now) = now ∧ s.dev.audio.instant ≠ some now
    (¬ new → exec (.audioSampleInstant t) s = .next { s with dev := s.dev.atTime t }) ∧
    (new → s.dev.audioRuns = true →
      Answers (.audioSampleInstant t) s (fun d =>
        (∀ i ∈ s.dev.rxStreams, s.dev.groupFenced (s.dev.rxGroup i) = false → s.dev.rxFactor i = 1 → s.dev.rxTimed i = false →
          s.dev.rxLegacy i = false → (s.dev.rx i).stopped = false →
          (∀ p rest, (s.dev.rx i).fifo = p :: rest →
            d.rx i = { s.dev.rx i with fifo := rest, read := ((s.dev.rx i).read + 1) % 2 ^ 32, last := p.2, reps := 0 }) ∧
          ((s.dev.rx i).fifo = [] →
            (d.rx i).under = (s.dev.rx i).under + 1 ∧ (d.rx i).stopped = true ∧ (d.rx i).realign = true ∧
            d.bitsAt (F.AUDIO_RXS_EVENT.addr 0 (i / 32) 0) (i % 32) 1 = 1 ∧
            (d.word (pageAddr .audio 0 4 + 0x10)).getLsbD 0 = true)) ∧
        (∀ o : Fin 16, s.dev.directIn o = none → s.dev.actFlag F.AUDIO_AOUT_CFG_EN 0 o = true →
          s.dev.act F.AUDIO_AOUT_CFG_RATE 0 o = 0 → (s.dev.aout o).pos < 192 → (d.aout o).pos = ((s.dev.aout o).pos + 1) % 192))) ∧
    (new → s.dev.audioRuns = false →
      Answers (.audioSampleInstant t) s (fun d => d.audio.rx = s.dev.audio.rx ∧
        ∀ o : Fin 16, (d.aout o).words.length = 2 ∧ ∀ w ∈ (d.aout o).words, wV w = true ∧ w % 2 ^ 24 = 0))

/-- Members realign at a block boundary, restart on demand, and groups are released (R341, R342, R343, R347, R348, R349). -/
def Obligations.StreamsRealignRestartAndAreReleased : Prop :=
  ∀ (s : State) (t : Nat), s.dev.inReset = false →
    (s.dev.audioRuns = true → s.dev.audio.realignAll = false → max s.dev.house t % 1000000 = 0 →
      s.dev.audio.boundary ≠ some (max s.dev.house t) → Answers (.audioBlockBoundary t) s (fun d =>
        (∀ i ∈ s.dev.rxStreams, s.dev.groupFenced (s.dev.rxGroup i) = false → s.dev.rxTimed i = false →
          ((s.dev.rx i).realign = true → s.dev.rxStart i ≤ (s.dev.rx i).fifo.length →
            (d.rx i).fifo = (s.dev.rx i).fifo.drop ((s.dev.rx i).fifo.length - s.dev.rxStart i) ∧
            (d.rx i).stopped = false ∧ (d.rx i).realign = false ∧
            (d.rx i).dropped = (s.dev.rx i).dropped + ((s.dev.rx i).fifo.length - s.dev.rxStart i)) ∧
          ((s.dev.rx i).realign = false ∨ (s.dev.rx i).fifo.length < s.dev.rxStart i → d.rx i = s.dev.rx i)) ∧
        (∀ h : Fin 64, (h : Nat) ∉ s.dev.audio.setting →
          let target := s.dev.get F.AUDIO_DELAY_STS_TARGET 0 h
          let use := s.dev.get F.AUDIO_DELAY_STS_IN_USE 0 h
          (use < target → s.dev.act F.AUDIO_DELAY_HYST_HYST ≤ target - use → d.get F.AUDIO_DELAY_STS_IN_USE 0 h = use + 1) ∧
          (target < use → s.dev.act F.AUDIO_DELAY_HYST_HYST ≤ use - target → d.get F.AUDIO_DELAY_STS_IN_USE 0 h = use - 1) ∧
          (use = target → d.get F.AUDIO_DELAY_STS_IN_USE 0 h = use)))) ∧
    (s.takesAt t ⟨.audio, 0, 4⟩ →
      let i := s.dev.statSel
      Answers (.rxsRestart t) s (fun d =>
        d.rx i = { s.dev.rx i with fifo := [], read := (s.dev.rx i).written, realign := true, stopped := true, restarted := true,
                                   reps := 0, rot := 0 } ∧
        (∀ j, j ≠ i → d.rx j = s.dev.rx j) ∧ d.regs = s.dev.regs ∧
        { d with audio := { d.audio with rx := [] } } = { s.dev.atTime t with audio := { s.dev.audio with rx := [] } }) ∧
      Answers (.rxsClear t) s (fun d =>
        d.rx i = { s.dev.rx i with under := 0, lapped := 0, repeated := 0, muted := 0, dropped := 0 } ∧
        (∀ j, j ≠ i → d.rx j = s.dev.rx j) ∧ d.regs = s.dev.regs ∧
        { d with audio := { d.audio with rx := [] } } = { s.dev.atTime t with audio := { s.dev.audio with rx := [] } })) ∧
    (∀ (g : Fin 64) (met : Bool), s.takesAt t ⟨.audio, 0, 0⟩ →
      Answers (.groupRelease t g met) s (fun d => d.get F.AUDIO_GROUP_REL_GROUP = g ∧
        (s.dev.groupFenced g = true → met = true → d.groupFenced g = false ∧ d.get F.AUDIO_GROUP_REL_REFUSED = 0 ∧
          (d.word (pageAddr .audio 0 0 + 0x10)).getLsbD 1 = true ∧
          ∀ i ∈ s.dev.rxStreams, s.dev.rxGroup i = g →
            (d.rx i).stopped = true ∧ (d.rx i).realign = true ∧ (d.rx i).restarted = true) ∧
        (s.dev.groupFenced g = true → met = false → d.groupFenced g = true ∧ d.get F.AUDIO_GROUP_REL_REFUSED = 1 ∧
          d.audio = s.dev.audio) ∧
        (s.dev.groupFenced g = false → d.groupFenced g = false ∧ d.get F.AUDIO_GROUP_REL_REFUSED = 0 ∧ d.audio = s.dev.audio) ∧
        (∀ j : Fin 64, j ≠ g → d.groupFenced j = s.dev.groupFenced j)))

/-- An audio sender sends a packet once its stream has a packet's frames (R337). -/
def audioSendersSendPackets : Prop :=
  ∀ (s : State) (t : Nat) (x : Fin 64), s.dev.inReset = false →
    (∀ i, s.dev.senderStream x = some i →
      let r := rateFactor (s.dev.act F.AUDIO_TXS_CFG_RATE 0 i)
      let n := if s.dev.actFlag F.AUDIO_ASEND_CFG_PTIME 0 x then 6 * r else 48 * r
      let q := sget (fun _ => ([] : List (Nat × List Nat))) s.dev.audio.waits i
      let seq := sget (fun _ => 0) s.dev.audio.seqs x
      let ni := s.dev.act F.AUDIO_ASEND_CFG_NETIF_P1 0 x
      (n ≤ q.length →
        Answers (.st2110AudioSend t x) s (fun d =>
          sget (fun _ => ([] : List (Nat × List Nat))) d.audio.waits i = q.drop n ∧
          sget (fun _ => 0) d.audio.seqs x = (seq + 1) % 65536 ∧
          d.get F.AUDIO_ASEND_PKTS 0 x = min (s.dev.get F.AUDIO_ASEND_PKTS 0 x + 1) (2 ^ F.AUDIO_ASEND_PKTS.w - 1) ∧
          (s.dev.actFlag F.AUDIO_ASEND_CFG_DUAL_PATH 0 x = false →
            (s.dev.netUp ni = true →
              ∃ a port rtp body, d.out = .rtp ni a port ((s.dev.act F.AUDIO_ASEND_SSRC_BASE + x) % 2 ^ 32)
                (s.dev.act F.AUDIO_ASEND_CFG_PT 0 x) seq rtp false body :: s.dev.out) ∧
            (s.dev.netUp ni = false → d.out = s.dev.out)))) ∧
      (q.length < n → exec (.st2110AudioSend t x) s = .next { s with dev := s.dev.atTime t })) ∧
    (s.dev.senderStream x = none → exec (.st2110AudioSend t x) s = .next { s with dev := s.dev.atTime t })

/-- Streams are read at sample instants, and audio senders send packets. -/
def Obligations.StreamsAreReadAndSent : Prop :=
  streamsAreReadAtSampleInstants ∧ audioSendersSendPackets

/-- Block boundaries, restarts, clears and group releases complete on every state that takes them (R322, R341, R342, R343, R348). -/
def Obligations.AudioCommandsComplete : Prop :=
  ∀ (s : State) (t : Nat),
    let now := max s.dev.house t
    let acts := s.dev.audioRuns = true ∧ now % 1000000 = 0 ∧ s.dev.audio.boundary ≠ some now
    (s.dev.inReset = false → Answers (.audioBlockBoundary t) s (fun d =>
      (¬ acts → d = s.dev.atTime t) ∧
      (acts → d.audio.realignAll = false ∧ ∀ i ∈ s.dev.rxStreams,
        let x := s.dev.rx i
        let due := x.realign || s.dev.audio.realignAll
        let first := s.dev.rxIndex i (instantAt now)
        let ready := if s.dev.rxTimed i then x.fifo.any (fun p => p.1 = first) else decide (s.dev.rxStart i ≤ x.fifo.length)
        (s.dev.groupFenced (s.dev.rxGroup i) = true ∨ due = false → d.rx i = x) ∧
        (s.dev.groupFenced (s.dev.rxGroup i) = false → due = true →
          (d.rx i).stopped = (!ready && (x.stopped || s.dev.audio.realignAll)) ∧ (ready = true → (d.rx i).realign = false) ∧
          (d.rx i).fifo = (if ready = false then x.fifo
            else if s.dev.rxTimed i = true then x.fifo.filter (fun p => p.1 ≥ first)
            else x.fifo.drop (x.fifo.length - s.dev.rxStart i)))))) ∧
    (s.takesAt t ⟨.audio, 0, 4⟩ →
      Answers (.rxsRestart t) s (fun d => (d.rx s.dev.statSel).fifo = [] ∧ (d.rx s.dev.statSel).restarted = true ∧
        (d.rx s.dev.statSel).read = (s.dev.rx s.dev.statSel).written) ∧
      Answers (.rxsClear t) s (fun d =>
        let y := d.rx s.dev.statSel
        [y.under, y.lapped, y.repeated, y.muted, y.dropped] = [0, 0, 0, 0, 0] ∧ y.fifo = (s.dev.rx s.dev.statSel).fifo)) ∧
    (s.takesAt t ⟨.audio, 0, 0⟩ → ∀ (g : Fin 64) (met : Bool),
      Answers (.groupRelease t g met) s (fun d => d.get F.AUDIO_GROUP_REL_GROUP = g ∧
        d.groupFenced g = (s.dev.groupFenced g && !met)))

/-! Keys, the debug lock, and the bus matrix's default target. -/

/-- A load of a key is taken: the keys, which the store keeps too, and what shows. -/
def keyTaken (s : State) (i : Instr) (k : Keys) : Prop :=
  ∃ d, exec i s = .next { s with dev := d, nv := { s.nv with keys := k } } ∧ d.keys = k ∧
    d.flag F.MGMT_KEY_STS_LAST_OK = true ∧ d.flag F.MGMT_KEY_STS_PROV_HELD = k.prov.isSome ∧ raised d .mgmt 0 1 1

/-- A load of a key is rejected: the keys are as before. -/
def keyRejected (s : State) (i : Instr) : Prop :=
  Answers i s (fun d => d.keys = s.dev.keys ∧ d.flag F.MGMT_KEY_STS_LAST_OK = false ∧
    d.get F.MGMT_KEY_FAIL = min (s.dev.get F.MGMT_KEY_FAIL + 1) (2 ^ F.MGMT_KEY_FAIL.w - 1) ∧ raised d .mgmt 0 1 2)

/-- KEY_LOAD takes a clear provisioning key only while none is held, and wrapped keys by their tag (R399, R405). -/
def keysAreLoadedOrRejected : Prop :=
  ∀ (s : State) (t : Nat), s.answersAt t ⟨.mgmt, 0, 1⟩ →
    (s.dev.keys.prov = none →
      keyTaken s (.keyLoad t true) { s.dev.keys with prov := some ((s.dev.blobBytes.drop 32).take 32) } ∧
      keyRejected s (.keyLoad t false)) ∧
    ∀ kp, s.dev.keys.prov = some kp →
      let b := s.dev.blobBytes
      let kind := (b.getD 16 0).toNat % 4
      let gen := (b.getD 16 0).toNat / 4
      let key := List.zipWith (· ^^^ ·) ((b.drop 32).take 32) (kmac256 kp (b.take 16) 32 "Tatre wrap")
      let tagged := kmac256 kp (b.take 64) 16 "Tatre wrap tag" = b.drop 64
      (¬ tagged → ∀ clear, keyRejected s (.keyLoad t clear)) ∧
      (tagged → kind = 0 → ∀ clear, keyRejected s (.keyLoad t clear)) ∧
      (kind = 1 → keyRejected s (.keyLoad t true)) ∧
      (tagged → kind = 1 → keyTaken s (.keyLoad t false) { s.dev.keys with prov := some key }) ∧
      (tagged → kind = 2 → ∀ clear, keyTaken s (.keyLoad t clear)
        { s.dev.keys with table := ((gen, key) :: s.dev.keys.table.filter (fun q => q.1 ≠ gen)).take 2 }) ∧
      (tagged → kind = 3 → ∀ clear, keyTaken s (.keyLoad t clear)
        { s.dev.keys with house := ((gen, key) :: s.dev.keys.house.filter (fun q => q.1 ≠ gen)).take 2 })

/-- Internal debug opens by password or by a signed challenge, and locks out after eight failures (R400, R401, R402, R406). -/
def Obligations.TheDebugLock : Prop :=
  ∀ (s : State) (t : Nat), s.takesAt t ⟨.debug, 0, 0⟩ →
    let fails := s.dev.get F.DEBUG_DBG_STS_FAILS
    let bytes := s.dev.mg.dbg.take (s.dev.get F.DEBUG_DBG_LEN_BYTES)
    let owner := s.nv.fuseRead 80 32
    let hash := s.nv.fuseRead 48 32
    let shut (byChallenge : Bool) : Prop := 8 ≤ fails ∨ (s.nv.fuseByte 112).toNat % 2 = 1 ∨
      (if byChallenge then owner else hash) = List.replicate 32 0
    let opened (d : Dev) : Prop := d.flag F.DEBUG_DBG_STS_OPEN = true ∧ d.flag F.MGMT_WCHAIN_STS_DEBUG = true ∧
      d.get F.DEBUG_DBG_STS_FAILS = fails ∧ raised d .debug 0 0 0
    let failed (d : Dev) : Prop := d.get F.DEBUG_DBG_STS_OPEN = s.dev.get F.DEBUG_DBG_STS_OPEN ∧
      d.get F.DEBUG_DBG_STS_FAILS = fails + 1 ∧ raised d .debug 0 0 1
    Answers (.debugGetChallenge t) s (fun d => d.flag F.DEBUG_DBG_STS_CHAL_VALID = true ∧ d.draws = s.dev.draws + 32 ∧
      d.mg.chalAt = max s.dev.house t + 60000000000 ∧
      d.challenge = (List.range 32).map (fun i => BitVec.ofNat 8 (Config.freeValue (s.dev.draws + i)))) ∧
    (∀ c, shut c → Answers (.debugSubmit t c) s (fun d => d.flag F.DEBUG_DBG_STS_REFUSED = true ∧
      d.get F.DEBUG_DBG_STS_FAILS = fails ∧ d.get F.DEBUG_DBG_STS_OPEN = s.dev.get F.DEBUG_DBG_STS_OPEN ∧ raised d .debug 0 0 2)) ∧
    (¬ shut false →
      let good := 1 ≤ bytes.length ∧ bytes.length ≤ 64 ∧ shake256 (bytes ++ s.nv.fuseRead 32 16) 32 = hash
      (good → Answers (.debugSubmit t false) s opened) ∧ (¬ good → Answers (.debugSubmit t false) s failed)) ∧
    (¬ shut true →
      let good := s.dev.flag F.DEBUG_DBG_STS_CHAL_VALID = true ∧ max s.dev.house t < s.dev.mg.chalAt ∧ bytes.length = 5261 ∧
        shake256 (bytes.take 1952) 32 = owner ∧
        Config.verifies (bytes.take 1952) ([0x51, 0x44, 0x42, 0x31] ++ devId ++ s.dev.challenge) (bytes.drop 1952) = true
      (good → Answers (.debugSubmit t true) s (fun d => opened d ∧ d.flag F.DEBUG_DBG_STS_CHAL_VALID = false)) ∧
      (¬ good → Answers (.debugSubmit t true) s (fun d => failed d ∧ d.flag F.DEBUG_DBG_STS_CHAL_VALID = false))) ∧
    (∀ v : Word, Answers (.debugDataAppend t v) s (fun d => d.regs = s.dev.regs ∧
      d.mg.dbg = if s.dev.mg.dbg.length + 4 ≤ 5264 then s.dev.mg.dbg ++ leBytes 4 v.toNat else s.dev.mg.dbg)) ∧
    Answers (.debugDataReset t) s (fun d => d.regs = s.dev.regs ∧ d.mg = { s.dev.mg with dbg := [] }) ∧
    Answers (.challengeExpire t) s (fun d =>
      (s.dev.mg.chalAt ≤ max s.dev.house t → d.flag F.DEBUG_DBG_STS_CHAL_VALID = false) ∧
      (max s.dev.house t < s.dev.mg.chalAt → d = s.dev.atTime t) ∧
      s.dev.keeps d [F.DEBUG_DBG_STS_CHAL_VALID.addr 0 0 0] ∧ s.dev.wordsOnly d t)

/-- The default target holds the first request it meets and counts the others (R381, R382, R383, R385, R404; R43). -/
def theDefaultTargetHoldsTheFirst : Prop :=
  ∀ (s : State) (t : Nat) (addr : Word) (master : Fin 6) (data : Option Word) (beats : Fin 16), s.dev.inReset = false →
    (∀ reason, (master : Nat) ≠ 2 → s.dev.busReason addr.toNat master data.isSome (beats + 1) = some reason →
      Answers (.defaultTargetHit t addr master data beats) s (fun d =>
      (s.dev.get F.MGMT_DEF_INFO_REASON = 0 → d.get F.MGMT_DEF_ADDR = addr.toNat ∧ d.get F.MGMT_DEF_INFO_MASTER = master ∧
        d.flag F.MGMT_DEF_INFO_WRITE = data.isSome ∧ d.get F.MGMT_DEF_INFO_REASON = reason ∧
        d.get F.MGMT_DEF_INFO_OVERFLOW = s.dev.get F.MGMT_DEF_INFO_OVERFLOW) ∧
      (s.dev.get F.MGMT_DEF_INFO_REASON ≠ 0 → d.get F.MGMT_DEF_ADDR = s.dev.get F.MGMT_DEF_ADDR ∧
        d.get F.MGMT_DEF_INFO_MASTER = s.dev.get F.MGMT_DEF_INFO_MASTER ∧
        d.get F.MGMT_DEF_INFO_WRITE = s.dev.get F.MGMT_DEF_INFO_WRITE ∧
        d.get F.MGMT_DEF_INFO_REASON = s.dev.get F.MGMT_DEF_INFO_REASON ∧ d.get F.MGMT_DEF_INFO_OVERFLOW = 1) ∧
      d.get F.MGMT_DEF_COUNT = min (s.dev.get F.MGMT_DEF_COUNT + 1) (2 ^ F.MGMT_DEF_COUNT.w - 1) ∧ raised d .mgmt 0 1 0 ∧
      s.dev.keeps d [F.MGMT_DEF_ADDR.addr 0 0 0, F.MGMT_DEF_INFO_MASTER.addr 0 0 0, F.MGMT_DEF_COUNT.addr 0 0 0,
        pageAddr .mgmt 0 1 + 0x10] ∧
      { d.apart with busResp := some .unsupported } = { (s.dev.atTime t).apart with busResp := some .unsupported } ∧
      d.busResp = some .unsupported)) ∧
    (∀ (r : PageRef) (cause detail : Byte), (master : Nat) ≤ 1 → addr.toNat = 0x40000000 + pgAddr r + 0x20 → beats = 0 →
      data = some (BitVec.ofNat 32 (cause.toNat + 256 * detail.toNat)) → Dev.validPage r = true →
      unfenceable r.blk r.page = false → cause ≠ 0 → s.dev.fwUp = true → s.dev.calm →
      Answers (.defaultTargetHit t addr master data beats) s (newCause s r cause.toNat detail.toNat)) ∧
    (s.dev.busReason addr.toNat master data.isSome (beats + 1) = none → addr.toNat / 0x1000000 ≠ 0x40 →
      exec (.defaultTargetHit t addr master data beats) s = .next { s with dev := s.dev.atTime t }) ∧
    (0x70000000 ≤ addr.toNat → s.dev.busReason addr.toNat master data.isSome (beats + 1) = some 1) ∧
    (2 ≤ (master : Nat) → addr.toNat / 0x10000 = 0x3000 → s.dev.busReason addr.toNat master data.isSome (beats + 1) = some 2) ∧
    ((master : Nat) ≤ 1 → addr.toNat = 0x101FFFF8 → beats = 15 → s.dev.busReason addr.toNat master data.isSome (beats + 1) = some 3)

/-- Keys are loaded or rejected, and the default target holds its first request. -/
def Obligations.KeysAndTheDefaultTarget : Prop :=
  keysAreLoadedOrRejected ∧ theDefaultTargetHoldsTheFirst

/-! The non-volatile store. -/

/-- The five store commands by their OP. -/
def storeRow (op : Fin 5) (t : Nat) (ctl : Word) : Instr :=
  match op with
  | 0 => .nvmWrite t ctl [] 0
  | 1 => .nvmRecWrite t ctl [] 0
  | 2 => .nvmRecRead t ctl [] 0
  | 3 => .nvmCntInc t ctl [] 0
  | 4 => .nvmCntRead t ctl [] 0

/-- A command is rejected: its RESULT, and that it is under way until it is done. -/
def storeRejects (s : State) (i : Instr) (why : Nat) : Prop :=
  Answers i s (fun d => d.get F.NVM_STS_RESULT = why ∧ d.flag F.GLOBAL_NVM_STS_REJECTED = true ∧ raised d .nvm 0 0 1 ∧
    d.flag F.NVM_STS_BUSY = true ∧ d.store = { s.dev.store with cmd := some { result := why } })

/-- A command is accepted: what it will store and report when it is done. -/
def storeAccepts (s : State) (i : Instr) (op : Nat) (c : NvmCmd) : Prop :=
  Answers i s (fun d => d.flag F.GLOBAL_NVM_STS_REJECTED = false ∧ d.flag F.NVM_STS_BUSY = true ∧
    d.get F.NVM_STS_LAST_OP = op ∧ d.store = { s.dev.store with cmd := some c })

/-- Store commands are checked in a fixed order, and wait while one is under way (R407, R411, R412, R414). -/
def storeCommandsAreChecked : Prop :=
  ∀ (s : State) (t : Nat) (ctl : Word), s.takesAt t ⟨.nvm, 0, 0⟩ →
    (s.dev.flag F.NVM_STS_BUSY = false →
      (∀ op : Fin 5,
        let why := s.dev.nvChecks op (bitsOf ctl.toNat 4 1) (bitsOf ctl.toNat 5 8) (bitsOf ctl.toNat 21 5)
          (s.dev.get F.NVM_WR_ADDR_ADDR) (s.dev.get F.NVM_WR_LEN_LEN)
        (why ≠ nvOk → storeRejects s (storeRow op t ctl) why)) ∧
      let a := s.dev.get F.NVM_WR_ADDR_ADDR
      let n := s.dev.get F.NVM_WR_LEN_LEN
      let go := Instr.nvmWrite t ctl [] 0
      if n = 0 ∨ 1024 < n then storeRejects s go 8
      else if 0x400000 < a + n then storeRejects s go 1
      else if a / 0x40000 ≠ (a + n - 1) / 0x40000 then storeRejects s go 2
      else if 14 ≤ a / 0x40000 ∨ s.dev.writeOpen (a / 0x40000) = false then storeRejects s go 3
      else if s.dev.store.pwrfail = true then storeRejects s go 4
      else storeAccepts s go 0 { groups := s.nv.groupsOf s.dev.draws a (s.dev.bufBytes n) }) ∧
    (s.dev.flag F.NVM_STS_BUSY = true → ∀ op : Fin 5,
      exec (storeRow op t ctl) s = .next { s with dev := { s.dev.atTime t with store := { s.dev.store with
        held := s.dev.store.held ++ [⟨true, 0x40048, BitVec.ofNat 32 (putBits (putBits ctl.toNat 0 1 1) 1 3 op)⟩] } } })

/-- Records go to the older copy or a free slot, and counters are read and raised by one (R418, R419, R420, R421, R422, R424, R425). -/
def recordsAndCountersArePlanned : Prop :=
  ∀ (s : State) (t : Nat) (ctl : Word), s.takesAt t ⟨.nvm, 0, 0⟩ → s.dev.flag F.NVM_STS_BUSY = false → s.nv.bad = [] →
    let a := s.dev.get F.NVM_WR_ADDR_ADDR
    let n := s.dev.get F.NVM_WR_LEN_LEN
    let slots := bitsOf ctl.toNat 5 8
    let key := bitsOf ctl.toNat 13 8
    let c := bitsOf ctl.toNat 21 5
    let passes (op : Nat) : Prop := s.dev.nvChecks op (bitsOf ctl.toNat 4 1) slots c a n = nvOk
    let groups (b : Nat) (bs : List Byte) := s.nv.groupsOf s.dev.draws b bs
    let padded (bs : List Byte) : List Byte := bs ++ List.replicate (1024 - bs.length) 0
    (passes 1 → bitsOf ctl.toNat 4 1 = 0 →
      (s.nv.newestCopy a n = none →
        storeAccepts s (.nvmRecWrite t ctl [] 0) 1
          { groups := groups a (nativeCopy 1 (s.dev.bufBytes n)), seq := some 1, copy := some 0 }) ∧
      ∀ k, s.nv.newestCopy a n = some k →
        let seq := (s.nv.copySeq (a + copySize n * k) + 1) % 2 ^ 32
        storeAccepts s (.nvmRecWrite t ctl [] 0) 1
          { groups := groups (a + copySize n * (1 - k)) (nativeCopy seq (s.dev.bufBytes n)), seq := some seq, copy := some (1 - k) }) ∧
    (passes 2 → bitsOf ctl.toNat 4 1 = 0 →
      (s.nv.newestCopy a n = none →
        storeAccepts s (.nvmRecRead t ctl [] 0) 2 { result := nvEmpty, buffer := some (padded []) }) ∧
      ∀ k, s.nv.newestCopy a n = some k →
        let from_ := a + copySize n * k
        let held := some (padded (s.nv.read (from_ + 12) n))
        storeAccepts s (.nvmRecRead t ctl [] 0) 2 { seq := some (s.nv.copySeq from_), copy := some k, len := some n, buffer := held }) ∧
    (passes 1 → bitsOf ctl.toNat 4 1 = 1 →
      (∀ i seq, s.nv.freeSlot a slots = (some i, seq) →
        storeAccepts s (.nvmRecWrite t ctl [] 0) 1
          { groups := groups (a + 64 * i) (farariSlot key seq (s.dev.bufBytes n)), seq := some seq }) ∧
      ((s.nv.freeSlot a slots).1 = none → storeAccepts s (.nvmRecWrite t ctl [] 0) 1 { result := nvFull })) ∧
    (passes 2 → bitsOf ctl.toNat 4 1 = 1 → ∀ i,
      s.nv.newestSlot a slots (fun i => s.nv.slotKey (a + 64 * i) = key) = some i →
      let len := s.nv.value (a + 64 * i + 3) 1
      let held := some (padded (s.nv.read (a + 64 * i + 8) len))
      storeAccepts s (.nvmRecRead t ctl [] 0) 2 { seq := some (s.nv.slotSeq (a + 64 * i)), len := some len, buffer := held }) ∧
    (passes 4 → ∀ m, s.nv.count c = some m → storeAccepts s (.nvmCntRead t ctl [] 0) 4 { count := some m }) ∧
    (passes 3 → s.nv.newestBase c ≠ none →
      storeAccepts s (.nvmCntInc t ctl [] 0) 3 { groups := s.nv.incGroups s.dev.draws c })

/-- Store commands are checked in order, and records and counters planned. -/
def Obligations.StoreCommandsArePlanned : Prop :=
  storeCommandsAreChecked ∧ recordsAndCountersArePlanned

/-- NVM_CMD_DONE stores what the command planned and reports its result (R412, R413, R415, R428). -/
def Obligations.StoreCommandsComplete : Prop :=
  ∀ (s : State) (t : Nat), s.dev.inReset = false →
    (s.dev.store.cmd = none → exec (.nvmCmdDone t [] 0) s = .next { s with dev := s.dev.atTime t }) ∧
    ∀ c, s.dev.store.cmd = some c → s.dev.store.held = [] → c.result < 16 →
      ∃ d n, exec (.nvmCmdDone t [] 0) s = .next { s with dev := d, nv := n } ∧
        d.flag F.NVM_STS_BUSY = false ∧ d.get F.NVM_STS_RESULT = c.result ∧ d.store.cmd = none ∧ raised d .nvm 0 0 0 ∧
        (∀ q, c.seq = some q → d.get F.NVM_REC_SEQ = q % 2 ^ 32) ∧ (∀ k, c.copy = some k → d.get F.NVM_STS_COPY = k % 2) ∧
        (∀ k, c.len = some k → d.get F.NVM_REC_LEN_LEN = k % 2 ^ 11) ∧
        (∀ k, c.count = some k → d.get64 F.NVM_CNT_LO = k % 2 ^ 64) ∧
        (∀ b, c.buffer = some b → d.store.buffer = memWrite [] 0 b) ∧
        (c.buffer = none → d.store.buffer = s.dev.store.buffer) ∧
        (∀ i h, c.pw = some (i, some h) → i < 28 → sget (fun _ => []) n.passwords i = h ∧ d.pwSet (i / 2) (i % 2) = true ∧
          d.bitsAt 0x400B4 (16 * (i % 2) + i / 2) 1 = 0) ∧
        (∀ i, c.pw = some (i, none) → i < 28 → sget (fun _ => []) n.passwords i = [] ∧ d.pwSet (i / 2) (i % 2) = false ∧
          d.bitsAt 0x400B4 (16 * (i % 2) + i / 2) 1 = 1) ∧
        (∀ dr a bs, c.pw = none → c.groups = s.nv.groupsOf dr a bs →
          (∀ k, k < bs.length → n.byte (a + k) = bs.getD k 0) ∧
          (∀ x, x < a ∨ a + bs.length ≤ x → x / 8 ∉ s.nv.bad → n.byte x = s.nv.byte x)) ∧
        (n.fuses = s.nv.fuses ∧ n.flash = s.nv.flash ∧ n.boot = s.nv.boot ∧ n.keys = s.nv.keys ∧ n.chain = s.nv.chain)

/-- NVM_CNT_INC and its completion raise a spread counter's count by exactly one, carries included (R423, R424, R425). -/
def Obligations.AnIncrementRaisesTheCountByOne : Prop :=
  ∀ (s : State) (t u m : Nat) (ctl : Word),
    let c := bitsOf ctl.toNat 21 5
    s.takesAt t ⟨.nvm, 0, 0⟩ → s.dev.flag F.NVM_STS_BUSY = false → s.dev.store.held = [] → s.dev.store.pwrfail = false →
    8 ≤ c → s.nv.bad = [] → s.nv.count c = some m → m + 256 < 2 ^ 64 →
    (∀ i, s.nv.tally c < i → i < 256 → s.nv.byte (counterAt c + 0x40 + i) = 0) →
    ∃ s1 s2, exec (.nvmCntInc t ctl [] 0) s = .next s1 ∧ exec (.nvmCmdDone u [] 0) s1 = .next s2 ∧
      s2.nv.count c = some (m + 1) ∧ s2.dev.get F.NVM_STS_RESULT = nvOk

/-- A region's password opens it, closes it, and is counted when it is wrong (R415, R428). -/
def Obligations.RegionPasswords : Prop :=
  ∀ (s : State) (t : Nat) (ctl : Word), s.takesAt t ⟨.nvm, 0, 0⟩ → s.dev.flag F.NVM_STS_BUSY = false →
    let r := bitsOf ctl.toNat 0 4
    let k := bitsOf ctl.toNat 4 1
    let len := bitsOf ctl.toNat 8 7
    let hash := Dev.pwHash s.nv r k (s.dev.pwBytes len)
    let fails := sget (fun _ => 0) s.dev.store.fails r
    let isOpen (d : Dev) (r k : Nat) : Bool := d.bitsAt 0x400B4 (16 * k + r) 1 = 1
    let others (d : Dev) : Prop := ∀ q j, q < 14 → j < 2 → (q, j) ≠ (r, k) → isOpen d q j = isOpen s.dev q j
    let right := 1 ≤ len ∧ len ≤ 64 ∧ ∃ q ∈ s.nv.passwords, q.1 = 2 * r + k ∧ q.2 = hash
    r ≤ 13 →
    (s.dev.pwSet r k = true →
      (8 ≤ fails → Answers (.pwUnlock t ctl) s (fun d => d.get F.NVM_STS_RESULT = nvRefused ∧ d.store = s.dev.store ∧
        isOpen d r k = isOpen s.dev r k ∧ others d)) ∧
      (fails < 8 → right → Answers (.pwUnlock t ctl) s (fun d => isOpen d r k = true ∧ d.store = s.dev.store ∧ others d)) ∧
      (fails < 8 → ¬ right → Answers (.pwUnlock t ctl) s (fun d => isOpen d r k = isOpen s.dev r k ∧ others d ∧
        (∀ q, sget (fun _ => 0) d.store.fails q = if q = r then fails + 1 else sget (fun _ => 0) s.dev.store.fails q) ∧
        (fails = 7 → raised d .nvm 0 0 6))) ∧
      Answers (.pwLock t ctl) s (fun d => isOpen d r k = false ∧ d.store = s.dev.store ∧ others d)) ∧
    ((len = 0 ∨ 64 < len) → storeRejects s (.pwSet t ctl) nvBadArg) ∧
    (s.dev.writeOpen r = false → (1 ≤ len ∧ len ≤ 64 → storeRejects s (.pwSet t ctl) nvLocked) ∧
      storeRejects s (.pwClear t ctl) nvLocked) ∧
    (s.dev.writeOpen r = true → s.dev.store.pwrfail = true → (1 ≤ len ∧ len ≤ 64 → storeRejects s (.pwSet t ctl) nvPwrfail) ∧
      storeRejects s (.pwClear t ctl) nvPwrfail) ∧
    (s.dev.writeOpen r = true → s.dev.store.pwrfail = false →
      let begun (i : Instr) (c : NvmCmd) : Prop := Answers i s (fun d => d.flag F.NVM_STS_BUSY = true ∧
        d.flag F.GLOBAL_NVM_STS_REJECTED = false ∧ d.store = { s.dev.store with cmd := some c })
      (1 ≤ len ∧ len ≤ 64 → begun (.pwSet t ctl) { pw := some (2 * r + k, some hash) }) ∧
      begun (.pwClear t ctl) { pw := some (2 * r + k, none) })

/-- The aperture reads open regions, and a scrub pass is counted (R409, R410, R414, R427, R428). -/
def theApertureAndTheScrub : Prop :=
  (∀ (s : State) (t : Nat) (off : BitVec 14), s.answersAt t ⟨.nvm, 0, 0⟩ →
    let a := s.dev.get F.NVM_WIN_BASE * 0x4000 + (off.toNat - off.toNat % 4)
    let window := 0x48000 + off.toNat - off.toNat % 4
    let failsWith (why : Nat) : Prop := Answers (.nvmWindowRead t off [] 0) s (fun d =>
      d.resp = some (if s.dev.flag F.GLOBAL_ERR_CTL_UR_EN then .unsupported else .data 0xFFFFFFFF) ∧
      d.get F.NVM_STS_WIN_ERR = why ∧ (s.dev.get F.GLOBAL_ERR_INFO_CAUSE = 0 →
        d.get F.GLOBAL_ERR_INFO_CAUSE = 11 ∧ d.get F.GLOBAL_ERR_ADDR = window))
    (s.dev.flag F.NVM_STS_BUSY = false →
      (a / 0x40000 = 15 → failsWith 1) ∧
      (a / 0x40000 < 14 → s.dev.readOpen (a / 0x40000) = false → failsWith 2) ∧
      ((a / 0x40000 = 14 ∨ (a / 0x40000 < 14 ∧ s.dev.readOpen (a / 0x40000) = true)) → s.nv.bad = [] →
        exec (.nvmWindowRead t off [] 0) s =
          .next { s with dev := { s.dev.atTime t with resp := some (.data (BitVec.ofNat 32 (s.nv.value a 4))) } })) ∧
    (s.dev.flag F.NVM_STS_BUSY = true →
      let waits := { s.dev.store with held := s.dev.store.held ++ [⟨false, window, 0⟩] }
      exec (.nvmWindowRead t off [] 0) s = .next { s with dev := { s.dev.atTime t with resp := none, store := waits } })) ∧
  ∀ (s : State) (t : Nat), s.dev.inReset = false →
    (s.dev.flag F.NVM_SCRUB_CTL_EN = true → exec (.nvmScrubStart t) s =
      .next { s with dev := { s.dev.atTime t with store := { s.dev.store with scrubbing := true } } }) ∧
    (s.dev.flag F.NVM_SCRUB_CTL_EN = false → exec (.nvmScrubStart t) s = .next { s with dev := s.dev.atTime t }) ∧
    (s.dev.store.scrubbing = false → exec (.nvmScrubPassEnd t 0 []) s = .next { s with dev := s.dev.atTime t }) ∧
    (s.dev.store.scrubbing = true → s.nv.bad = [] → Answers (.nvmScrubPassEnd t 0 []) s (fun d =>
      d.store = { s.dev.store with scrubbing := false } ∧ raised d .nvm 0 0 5 ∧
      d.get F.NVM_SCRUB_PASSES = min (s.dev.get F.NVM_SCRUB_PASSES + 1) 0xFFFFFFFF ∧
      s.dev.keeps d [F.NVM_SCRUB_PASSES.addr 0 0 0, pageAddr .nvm 0 0 + 0x10]))

/-- A power failure cuts the store's command short, and its end is known 100 microseconds after it rises (R416, R417, R477). -/
def powerFailures : Prop :=
  ∀ (s : State) (t groups : Nat),
    (∃ d n, exec (.pwrfailFall t groups) s = .next { s with dev := d, nv := n } ∧ d.store.pwrfail = true ∧
      d.store.rose = none ∧ d.inReset = s.dev.inReset ∧
      (∀ c, s.dev.store.cmd = some c → groups < c.groups.length →
        d.store.cmd = none ∧ d.store.cut = true ∧ d.flag F.NVM_STS_BUSY = false ∧ n = s.nv.putGroups (c.groups.take groups)) ∧
      (∀ c, s.dev.store.cmd = some c → c.groups.length ≤ groups → c.pw = none →
        d.store.cmd = some c ∧ d.regs = s.dev.regs ∧ n = s.nv) ∧
      (s.dev.store.cmd = none → d.store.cmd = none ∧ d.regs = s.dev.regs ∧ n = s.nv)) ∧
    (s.dev.store.pwrfail = true → s.dev.store.rose = none →
      Answers (.pwrfailRise t) s (fun d => d.store.rose = some (t : Int) ∧ d.store.pwrfail = true ∧
        (s.dev.inReset = false → s.dev.store.cut = true → d.get F.NVM_STS_RESULT = nvTorn ∧ d.store.cut = false ∧
          d.get F.NVM_TORN_WRITES = min (s.dev.get F.NVM_TORN_WRITES + 1) 0xFFFFFFFF ∧ raised d .nvm 0 0 2) ∧
        (s.dev.inReset = true ∨ s.dev.store.cut = false → d.regs = s.dev.regs ∧ d.store.cut = s.dev.store.cut))) ∧
    Answers (.pwrfailLift t) s (fun d => d.regs = s.dev.regs ∧
      (∀ r, s.dev.store.rose = some r → r + 100000 ≤ (t : Int) → d.store.pwrfail = false) ∧
      (∀ r, s.dev.store.rose = some r → (t : Int) < r + 100000 → d.store = s.dev.store) ∧
      (s.dev.store.rose = none → d.store = s.dev.store))

/-- The aperture and the scrub of the store, and power failures. -/
def Obligations.ApertureScrubAndPowerFailure : Prop :=
  theApertureAndTheScrub ∧ powerFailures

/-! Firmware, its boot, the mailbox and the fuses. -/

/-- What firmware holds in its memory is gone. -/
def forgotten (d : Dev) : Prop :=
  d.mg.chainC = [] ∧ d.mg.genesis = true ∧ d.mg.due = [] ∧ d.flag F.MGMT_WCHAIN_STS_ACTIVE = false ∧ d.fwUp = false

/-- A watchdog stops firmware, and restarts keep the data plane (R387, R388, R404). -/
def firmwareStopsAndRestarts : Prop :=
  (∀ (s : State) (t : Nat), s.dev.inReset = false →
    (s.dev.get F.MGMT_FW_STS_STATE = 1 → Answers (.watchdogExpire t) s (fun d => d.get F.MGMT_FW_STS_STATE = 2 ∧
      d.get F.MGMT_RESET_CAUSE_CAUSE = 4 ∧ raised d .mgmt 0 0 1 ∧ forgotten d ∧ d.mg.stopAt = some (max s.dev.house t) ∧
      { d.apart with mg := {} } = { (s.dev.atTime t).apart with mg := {} })) ∧
    (s.dev.get F.MGMT_FW_STS_STATE ≠ 1 → exec (.watchdogExpire t) s = .next { s with dev := s.dev.atTime t }) ∧
    (∀ t0, s.dev.mg.stopAt = some t0 → t0 + 100000000 ≤ max s.dev.house t → s.dev.flag F.MGMT_FW_CTL_WDOG_AUTO = true →
      s.dev.get F.MGMT_FW_STS_RESTARTS < 3 → Answers (.fwAutoRestart t) s (fun d => d.get F.MGMT_FW_STS_STATE = 0 ∧
        d.get F.MGMT_FW_STS_RESTARTS = s.dev.get F.MGMT_FW_STS_RESTARTS + 1 ∧ d.get F.MGMT_RESET_CAUSE_CAUSE = 4 ∧
        d.mg.stopAt = none ∧ forgotten d)) ∧
    (s.dev.mg.stopAt = none ∨ (∃ t0, s.dev.mg.stopAt = some t0 ∧ max s.dev.house t < t0 + 100000000) ∨
      s.dev.flag F.MGMT_FW_CTL_WDOG_AUTO = false ∨ s.dev.get F.MGMT_FW_STS_RESTARTS = 3 →
      exec (.fwAutoRestart t) s = .next { s with dev := s.dev.atTime t })) ∧
  ∀ (s : State) (t : Nat), s.takesAt t ⟨.mgmt, 0, 0⟩ →
    Answers (.fwRestart t) s (fun d => d.get F.MGMT_FW_STS_STATE = 0 ∧ d.get F.MGMT_RESET_CAUSE_CAUSE = 5 ∧
      d.flag F.MGMT_MATRIX_CTL_REMAP = false ∧ d.flag F.MGMT_MBOX_STS_BUSY = false ∧ forgotten d ∧
      (s.dev.flag F.MGMT_MBOX_STS_BUSY = true → d.get F.MGMT_MBOX_STS_RESULT = mbAborted ∧ raised d .mgmt 0 0 0) ∧
      (s.dev.flag F.MGMT_MBOX_STS_BUSY = false → d.get F.MGMT_MBOX_STS_RESULT = s.dev.get F.MGMT_MBOX_STS_RESULT) ∧
      { d.apart with mg := {} } = { (s.dev.atTime t).apart with mg := {} })

/-- Firmware starts from a slot: what shows of it. -/
def bootsFrom (d : Dev) (n : Nonvolatile) (slot fallback why : Nat) : Prop :=
  d.get F.MGMT_FW_STS_STATE = 1 ∧ d.get F.MGMT_FW_STS_SLOT = slot % 2 ∧ d.get F.MGMT_FW_STS_FALLBACK = fallback ∧
  d.get F.MGMT_FW_STS_FAIL_WHY = why ∧ d.fwUp = true ∧ d.flag F.MGMT_MATRIX_CTL_REMAP = true ∧
  d.get F.MGMT_IMAGE_VER = leVal ((n.flashRead (slot * slotSize) 96).drop 8 |>.take 4) ∧
  d.get F.MGMT_SEC_VER = leVal ((n.flashRead (slot * slotSize) 96).drop 12 |>.take 4) ∧
  10 ≤ d.get F.MGMT_WDOG_MS_MS ∧ d.get F.MGMT_WDOG_MS_MS ≤ 1000 ∧ raised d .mgmt 0 0 2

/-- The boot ROM starts the slot that verifies, falls back to the other, or enters RECOVERY (R389, R390, R391, R394). -/
def theBootRomChoosesASlot : Prop :=
  ∀ (s : State) (t : Nat) (xo : Option Int), s.dev.inReset = false →
    let first := if s.dev.flag F.MGMT_BOOT_CTL_OVERRIDE then s.dev.get F.MGMT_BOOT_CTL_SLOT else s.nv.boot.active
    let why := s.nv.slotFail first
    (s.dev.get F.MGMT_FW_STS_STATE ≠ 0 → exec (.bootRomStart t xo) s = .next { s with dev := s.dev.atTime t }) ∧
    (s.dev.get F.MGMT_FW_STS_STATE = 0 → ∃ d n, exec (.bootRomStart t xo) s = .next { s with dev := d, nv := n } ∧
      (why = 0 → bootsFrom d s.nv first 0 0) ∧
      (why ≠ 0 → s.nv.slotFail (1 - first) = 0 → bootsFrom d s.nv (1 - first) 1 why) ∧
      (why ≠ 0 → s.nv.slotFail (1 - first) ≠ 0 → d.get F.MGMT_FW_STS_STATE = 3 ∧ d.get F.MGMT_FW_STS_FAIL_WHY = why ∧
        d.flag F.GLOBAL_STS_MGMT_ONLY = true ∧ d.fwUp = s.dev.fwUp) ∧
      d.flag F.MGMT_BOOT_CTL_OVERRIDE = false ∧ n.boot.minSec = s.nv.boot.minSec ∧ n.boot.active = s.nv.boot.active ∧
      n.boot.journal = (if s.nv.boot.journal = 1 ∨ s.nv.boot.journal = 2 then 3 else s.nv.boot.journal) ∧
      n.flash = s.nv.flash ∧ n.fuses = s.nv.fuses ∧ n.keysMade = true ∧
      ((s.dev.mg.cause ≠ 2 ∧ s.dev.mg.cause ≠ 3) → n.store = (s.nv.increment 1).store))

/-- The boot ROM chooses a slot, and firmware stops and restarts. -/
def Obligations.FirmwareRunsAndStops : Prop :=
  firmwareStopsAndRestarts ∧ theBootRomChoosesASlot

/-- An engine group's kernel set releases its engines or keeps them fenced (R392, R393; R450). -/
def Obligations.EngineGroupsCheckTheirKernels : Prop :=
  ∀ (s : State) (t : Nat) (g : Fin 8) (digest : List Byte) (ver build : BitVec 16), s.dev.inReset = false → s.dev.calm →
    let held (q : FenceRec) : Prop := q.cause = 0x12 ∨ (q.cause = 0x05 ∧ q.detail = 1)
    (s.dev.fwUp = true →
      Answers (.engineGroupRelease t g digest ver build true) s (fun d => ∀ k : Fin 8,
        d.get F.ENGINE_KERNEL_VER_VERSION (8 * g + k) = ver.toNat ∧ d.get F.ENGINE_KERNEL_VER_BUILD (8 * g + k) = build.toNat ∧
        ∀ q ∈ d.recs .engine (8 * g + k), ¬ held q) ∧
      Answers (.engineGroupRelease t g digest ver build false) s (fun d => ∀ k : Fin 8,
        (∃ q ∈ s.dev.recs .engine (8 * g + k), held q) → ∃ q ∈ d.recs .engine (8 * g + k), q.cause = 0x12)) ∧
    (s.dev.fwUp = false → ∀ ok, exec (.engineGroupRelease t g digest ver build ok) s = .next { s with dev := s.dev.atTime t }) ∧
    (s.dev.domUp (16 + g) = true →
      Answers (.engineGroupReload t g false) s (fun d => ∀ k : Fin 8, ∃ q ∈ d.recs .engine (8 * g + k), q.cause = 0x12)) ∧
    exec (.engineGroupReload t g true) s = .next { s with dev := s.dev.atTime t }

/-- A doorbell is answered: what firmware will report, and what survives a reset after it. -/
def mboxAnswers (s : State) (i : Instr) (n : Nonvolatile) (result : Nat) (args : List Nat) (rsp : List Byte)
    (P : Dev → Prop) : Prop :=
  ∃ d, exec i s = .next { s with dev := d, nv := n } ∧ d.flag F.MGMT_MBOX_STS_BUSY = true ∧ d.mg.served = true ∧
    d.mg.result = result ∧ d.mg.rspArgs = args ∧ d.mg.rsp = rsp ∧ P d

/-- The mailbox is free, firmware runs, and the host has set an opcode. -/
abbrev mboxReady (s : State) (t op : Nat) : Prop :=
  s.answersAt t ⟨.mgmt, 0, 0⟩ ∧ s.dev.flag F.MGMT_MBOX_STS_BUSY = false ∧ s.dev.fwUp = true ∧
  s.dev.get F.MGMT_MBOX_CMD_OPCODE = op

/-- An install goes through its journal, and each step is refused out of its state (R394, R403). -/
def Obligations.TheInstallJournal : Prop :=
  ∀ (s : State) (t : Nat),
    let b := s.nv.boot
    let arg := s.dev.get F.MGMT_MBOX_ARG 0 0
    let all := (8192 + s.dev.mg.installLen + 511) / 512
    let sets (i : Instr) (r : BootRec) : Prop := mboxAnswers s i { s.nv with boot := r } mbOk [] [] (fun d =>
      d.get F.MGMT_INSTALL_STS_JOURNAL = r.journal % 8 ∧ d.get F.MGMT_INSTALL_STS_TARGET = r.target % 2 ∧
      d.get F.MGMT_MIN_SEC_VER = r.minSec % 2 ^ 32)
    let tells (i : Instr) (result : Nat) : Prop := mboxAnswers s i s.nv result [] [] (fun _ => True)
    (mboxReady s t 0x02 →
      (slotSize < arg + 8192 → tells (.installBegin t) mbArg) ∧
      (arg + 8192 ≤ slotSize → sets (.installBegin t) { b with journal := 1, target := 1 - b.active } ∧
        mboxAnswers s (.installBegin t) { s.nv with boot := { b with journal := 1, target := 1 - b.active } } mbOk [] []
          (fun d => d.mg.installLen = arg ∧ d.mg.chunks = [] ∧ d.get F.MGMT_INSTALL_BYTES = 0))) ∧
    (mboxReady s t 0x03 →
      (b.journal ≠ 1 → tells (.installData t true) mbState) ∧
      (b.journal = 1 → arg % 512 ≠ 0 ∨ 8192 + s.dev.mg.installLen ≤ arg ∨ s.dev.get F.MGMT_MBOX_CMD_LENGTH ≠ 512 →
        tells (.installData t true) mbArg) ∧
      (b.journal = 1 → arg % 512 = 0 → arg < 8192 + s.dev.mg.installLen → s.dev.get F.MGMT_MBOX_CMD_LENGTH = 512 →
        let base := b.target * slotSize
        let fresh := arg / 65536 ∉ s.dev.mg.erased
        ∃ f, mboxAnswers s (.installData t true) { s.nv with flash := f } mbOk [] [] (fun d => arg / 512 ∈ d.mg.chunks ∧
            (∀ c ∈ s.dev.mg.chunks, c ∈ d.mg.chunks) ∧ arg / 65536 ∈ d.mg.erased) ∧
          (∀ k, k < 512 → sget (fun _ => 0xFF) f (base + arg + k) = (s.dev.mboxBytes 512).getD k 0 &&&
            (if fresh then 0xFF else s.nv.flashByte (base + arg + k))) ∧
          (∀ x, x < base + arg / 65536 * 65536 ∨ base + (arg / 65536 + 1) * 65536 ≤ x →
            sget (fun _ => 0xFF) f x = s.nv.flashByte x))) ∧
    (mboxReady s t 0x04 →
      (b.journal = 1 → (∀ k, k < all → k ∈ s.dev.mg.chunks) → sets (.installCommit t) { b with journal := 2 }) ∧
      (b.journal ≠ 1 ∨ (∃ k, k < all ∧ k ∉ s.dev.mg.chunks) → tells (.installCommit t) mbState)) ∧
    (mboxReady s t 0x05 →
      (b.journal = 1 ∨ b.journal = 2 → sets (.installAbort t) { b with journal := 0 }) ∧
      (b.journal ≠ 1 ∧ b.journal ≠ 2 → tells (.installAbort t) mbState)) ∧
    (mboxReady s t 0x06 →
      (b.journal = 4 → s.dev.get F.MGMT_FW_STS_SLOT = b.target →
        sets (.installConfirm t) { b with journal := 6, minSec := max b.minSec (s.dev.get F.MGMT_SEC_VER) }) ∧
      (b.journal ≠ 4 ∨ s.dev.get F.MGMT_FW_STS_SLOT ≠ b.target → tells (.installConfirm t) mbState))

/-- GET_INFO, quotes and certificates are answered in parts of 512 bytes (R396, R397, R403). -/
def Obligations.QuotesCertificatesAndInformation : Prop :=
  ∀ (s : State) (t : Nat),
    let arg := s.dev.get F.MGMT_MBOX_ARG 0 0
    let tells (i : Instr) (result : Nat) (args : List Nat) (rsp : List Byte) : Prop :=
      mboxAnswers s i s.nv result args rsp (fun d => d.mg.quote = s.dev.mg.quote ∧ d.draws = s.dev.draws)
    (mboxReady s t 0x01 → tells (.getInfo t) mbOk [s.dev.get F.MGMT_IMAGE_VER, s.dev.get F.MGMT_SEC_VER]
      (s.nv.flashRead 0 32 ++ s.nv.flashRead slotSize 32)) ∧
    (mboxReady s t 0x10 →
      (s.dev.get F.MGMT_MBOX_CMD_LENGTH ≠ 32 → tells (.attestQuote t) mbArg [] []) ∧
      (s.dev.get F.MGMT_MBOX_CMD_LENGTH = 32 → mboxAnswers s (.attestQuote t) s.nv mbOk [3584] [] (fun d =>
        ∃ sig, sig.length = 3309 ∧ d.draws = s.dev.draws + 3309 ∧
          d.mg.quote = (s.dev.atTime t).quoteMessage s.nv (s.dev.mboxBytes 32) ++ sig ++ List.replicate 19 0))) ∧
    (mboxReady s t 0x11 →
      (arg % 512 ≠ 0 ∨ 3584 ≤ arg → tells (.attestRead t) mbArg [] []) ∧
      (arg % 512 = 0 → arg < 3584 → s.dev.mg.quote = [] → tells (.attestRead t) mbState [] []) ∧
      (arg % 512 = 0 → arg < 3584 → s.dev.mg.quote ≠ [] →
        tells (.attestRead t) mbOk [] ((s.dev.mg.quote.drop arg).take 512))) ∧
    (mboxReady s t 0x12 →
      let off := s.dev.get F.MGMT_MBOX_ARG 0 1
      let o := s.dev.certObject s.nv.madeAt arg
      (2 < arg ∨ off % 512 ≠ 0 ∨ o.length ≤ off → tells (.getCert t) mbArg [] []) ∧
      (arg ≤ 2 → off % 512 = 0 → off < o.length → tells (.getCert t) mbOk [o.length] ((o.drop off).take 512)))

/-- A second doorbell is refused, and MBOX_DONE reports what was carried out (R394, R403). -/
def Obligations.MailboxOperationsEnd : Prop :=
  ∀ (s : State) (t : Nat), s.dev.inReset = false →
    (s.dev.flag F.MGMT_MBOX_STS_BUSY = true → s.answersAt t ⟨.mgmt, 0, 0⟩ →
      ∀ p ∈ [(0x01, Instr.getInfo t), (0x02, .installBegin t), (0x03, .installData t true), (0x04, .installCommit t),
        (0x05, .installAbort t), (0x06, .installConfirm t), (0x10, .attestQuote t), (0x11, .attestRead t), (0x12, .getCert t),
        (0x20, .fuseWrite t)], s.dev.get F.MGMT_MBOX_CMD_OPCODE = p.1 →
        Answers p.2 s (fun d => d.flag F.MGMT_MBOX_STS_REFUSED = true ∧
          s.dev.keeps d [F.MGMT_MBOX_STS_REFUSED.addr 0 0 0] ∧ s.dev.wordsOnly d t)) ∧
    (s.dev.flag F.MGMT_MBOX_STS_BUSY = false → exec (.mboxDone t) s = .next { s with dev := s.dev.atTime t }) ∧
    (s.dev.flag F.MGMT_MBOX_STS_BUSY = true → s.dev.fwUp = true → s.dev.mg.served = true → s.dev.mg.result ≤ 8 →
      s.dev.mg.rsp.length ≤ 512 →
      (s.dev.get F.MGMT_MBOX_CMD_OPCODE ≠ 0x04 → Answers (.mboxDone t) s (fun d => d.flag F.MGMT_MBOX_STS_BUSY = false ∧
        d.get F.MGMT_MBOX_STS_RESULT = s.dev.mg.result ∧ d.get F.MGMT_MBOX_STS_TAG = s.dev.get F.MGMT_MBOX_CMD_TAG ∧
        d.get F.MGMT_MBOX_STS_RSP_LENGTH = s.dev.mg.rsp.length ∧ raised d .mgmt 0 0 0 ∧
        (∀ k, k < 2 → d.get F.MGMT_MBOX_RSP_ARG 0 k = s.dev.mg.rspArgs.getD k 0 % 2 ^ 32) ∧
        (∀ k, 4 * k < s.dev.mg.rsp.length → d.get F.MGMT_MBOX_DATA 0 k = leVal ((s.dev.mg.rsp.drop (4 * k)).take 4)))) ∧
      (s.dev.get F.MGMT_MBOX_CMD_OPCODE = 0x04 → s.dev.mg.result = mbOk → s.nv.boot.journal = 2 →
        let why := s.nv.slotFail s.nv.boot.target
        let ends (b : BootRec) (result : Nat) : Prop := ∃ d, exec (.mboxDone t) s =
          .next { s with dev := d, nv := { s.nv with boot := b } } ∧ d.flag F.MGMT_MBOX_STS_BUSY = false ∧
          d.get F.MGMT_MBOX_STS_RESULT = result ∧ d.get F.MGMT_INSTALL_STS_JOURNAL = b.journal
        (why = 0 → ends { s.nv.boot with journal := 4, active := s.nv.boot.target } mbOk) ∧
        (why = 4 → ends { s.nv.boot with journal := 5 } mbRollback) ∧
        (why ≠ 0 → why ≠ 4 → ends { s.nv.boot with journal := 5 } mbVerify)))

/-- No command changes a fuse field that is programmed, and FUSE_WRITE programs each owner field once (R398). -/
def Obligations.OwnerFieldsAreProgrammedOnce : Prop :=
  let programmed (n : Nonvolatile) (bit : Nat) : Prop := bitsOf (n.fuseByte 112).toNat bit 1 = 1
  (∀ (s : State) (t : Nat), mboxReady s t 0x20 → ∀ p ∈ [(48, 32, 1), (80, 32, 2), (112, 1, 0)],
    s.dev.get F.MGMT_MBOX_ARG 0 0 = p.1 → s.dev.get F.MGMT_MBOX_CMD_LENGTH = p.2.1 →
    (p.1 = 112 → s.dev.mboxBytes 1 = [1]) →
    (¬ programmed s.nv p.2.2 → ∃ n, mboxAnswers s (.fuseWrite t) n mbOk [] [] (fun _ => True) ∧ programmed n p.2.2 ∧
      (p.1 ≠ 112 → n.fuseRead p.1 32 = s.dev.mboxBytes 32) ∧
      (∀ a, (a < p.1 ∨ p.1 + p.2.1 ≤ a) → a ≠ 112 → n.fuseByte a = s.nv.fuseByte a)) ∧
    (programmed s.nv p.2.2 → mboxAnswers s (.fuseWrite t) s.nv mbState [] [] (fun _ => True))) ∧
  ∀ (i : Instr) (s s' : State), exec i s = .next s' →
    (∀ p ∈ [(48, 32, 1), (80, 32, 2), (112, 1, 0)], programmed s.nv p.2.2 → programmed s'.nv p.2.2 ∧
      (p.1 ≠ 112 → s'.nv.fuseRead p.1 32 = s.nv.fuseRead p.1 32)) ∧
    ∀ a, (a < 48 ∨ 112 < a) → s'.nv.fuseByte a = s.nv.fuseByte a

/-! Reset, readiness and ALIVE_OUT. -/

/-- A reset has been asserted with a cause: what the device then is. -/
def resetFrom (s : State) (cause : Nat) (d : Dev) : Prop :=
  d.inReset = true ∧ d.atRest ∧ d.mg.cause = cause ∧ d.out = s.dev.out ∧ d.store.pwrfail = s.dev.store.pwrfail ∧
  d.get F.DEBUG_DBG_STS_FAILS = s.dev.get F.DEBUG_DBG_STS_FAILS ∧ d.flag F.DEBUG_DBG_STS_OPEN = false ∧
  d.get F.NVM_TORN_WRITES = s.dev.get F.NVM_TORN_WRITES

/-- A reset puts every unit at rest, keeps what survives it, and ends 20 microseconds on (R458, R459; R380, R401; R417). -/
def resetsBeginAndEnd : Prop :=
  (∀ (s : State) (t groups cause : Nat) (i : Instr), s.dev.inReset = false →
    (i, cause) ∈ [(.resetAssert t groups, 1), (.lockstepMismatch t false groups, 2), (.lockstepMismatch t true groups, 3)] →
    ∃ d n, exec i s = .next { s with dev := d, nv := n } ∧ resetFrom s cause d ∧
      (s.dev.store.cmd = none → n = s.nv ∧ d.store.cut = s.dev.store.cut) ∧
      (∀ c, s.dev.store.cmd = some c → groups < c.groups.length → n = s.nv.putGroups (c.groups.take groups) ∧ d.store.cut = true) ∧
      (∀ c, s.dev.store.cmd = some c → c.groups.length ≤ groups → c.pw = none → n = s.nv.putGroups c.groups ∧
        d.store.cut = s.dev.store.cut)) ∧
  ∀ (s : State) (t : Nat),
    (s.dev.inReset = true → 20000 ≤ t → s.dev.mg.cause < 16 → Answers (.resetRelease t) s (fun d => d.inReset = false ∧
      d.get F.MGMT_RESET_CAUSE_CAUSE = s.dev.mg.cause ∧ d.house = s.dev.house ∧ d.hand = s.dev.hand ∧ d.mg = s.dev.mg)) ∧
    (s.dev.inReset = false ∨ t < 20000 → exec (.resetRelease t) s = .next s)

/-- READY is set once the start is complete, and ALIVE_OUT rises at whole milliseconds while firmware is healthy (R461, R462, R464). -/
def readinessAndTheAliveOutput : Prop :=
  ∀ (s : State) (t : Nat), s.dev.inReset = false →
    let starts := s.dev.fwUp = true ∧ s.dev.flag F.GLOBAL_STS_READY = false ∧ s.dev.flag F.GLOBAL_STS_MGMT_ONLY = false ∧
      s.dev.mg.started = true ∧ (∀ x, x < 35 → (s.dev.dom x).tried = true) ∧
      ∃ k, k < 4 ∧ s.dev.domUp (28 + k) = true
    let rises := t % 1000000 = 0 ∧ (s.dev.aliveAt = 0 ∨ s.dev.aliveAt + 500000 ≤ t)
    (s.dev.calm → (starts → Answers (.readySet t) s (fun d => d.flag F.GLOBAL_STS_READY = true ∧ raised d .global 0 0 0 ∧
        d.cfgReady = true)) ∧
      (¬ starts → exec (.readySet t) s = .next { s with dev := s.dev.atTime t })) ∧
    (rises → s.dev.fwUp = true → s.dev.house ≤ t → Answers (.aliveTick t) s (fun d =>
      d = { s.dev.atTime t with alive := true, aliveAt := t } ∧ (∀ u, t ≤ u → ({ d with house := u }.aliveOut = true ↔ u < t + 500000)))) ∧
    (rises → s.dev.fwUp = false → Answers (.aliveTick t) s (fun d =>
      d = { s.dev.atTime t with alive := false } ∧ ∀ u, { d with house := u }.aliveOut = false)) ∧
    (¬ rises → exec (.aliveTick t) s = .next { s with dev := s.dev.atTime t })

/-- Resets begin and end, and READY and ALIVE_OUT follow the start. -/
def Obligations.ResetAndReadiness : Prop :=
  resetsBeginAndEnd ∧ readinessAndTheAliveOutput

/-! Rules of the spec stated whole. -/

/-- A layer without a selectable frame raises NO_FRAME at each latch, and an abandoned job ENG_OVERRUN (R205). -/
def Obligations.NoFrameAndOverrunShow : Prop :=
  (∀ (s : State) (t : Nat) (h : Fin 64) (broken : Option Nat) (late : List Nat), runsOn s h →
    Answers (.headLatch t h broken late) s (fun d => ∀ p ∈ (d.headSt h).planes, p.slot < 16 → p.held = false → p.pic = none →
      raised d .layer p.layer 0 3)) ∧
  ∀ (s : State) (t : Nat) (l : Fin 1024), s.dev.inReset = false → ∀ j, (s.dev.layer l).job = some j →
    2 * (s.dev.engAct l).den * 1000000000 ≤ (max s.dev.house t - j.start) * (s.dev.engAct l).num →
    Answers (.engineJobAbandon t l) s (fun d => (d.layer l).job = none ∧ raised d .layer l 0 4)

/-- DMA_RING_SIZE takes only a power of two from 16 to 4,096, and only while the ring is disabled (R135). -/
def Obligations.RingsTakePowersOfTwo : Prop :=
  ∀ (s : State) (t : Nat) (n : Fin 256) (size : BitVec 13) (i : Instr), s.takesAt t ⟨.ingest, n, 0⟩ →
    let a := pageAddr .ingest n 0 + 0xA8
    i ∈ [.dmaRingSizeWrite t n size, .registerWrite t (BitVec.ofNat 24 a) 4 (size.setWidth 64)] →
    let fits := s.dev.flag F.INGEST_DMA_CTL_EN n = false ∧ ∃ k, 4 ≤ k ∧ k ≤ 12 ∧ size.toNat = 2 ^ k
    (fits → Answers i s (fun d => d.get F.INGEST_DMA_RING_SIZE_ENTRIES n = size.toNat ∧ s.dev.keeps d [a] ∧ s.dev.wordsOnly d t)) ∧
    (¬ fits → Answers i s (fun d =>
      d.get F.INGEST_DMA_RING_SIZE_ENTRIES n = s.dev.get F.INGEST_DMA_RING_SIZE_ENTRIES n ∧
      (s.dev.get F.GLOBAL_ERR_INFO_CAUSE = 0 → d.get F.GLOBAL_ERR_INFO_CAUSE = 6 ∧ d.get F.GLOBAL_ERR_ADDR = a) ∧
      (s.dev.get F.GLOBAL_ERR_INFO_CAUSE ≠ 0 → d.get F.GLOBAL_ERR_INFO_OVERFLOW = 1 ∧
        d.get F.GLOBAL_ERR_INFO_CAUSE = s.dev.get F.GLOBAL_ERR_INFO_CAUSE ∧ d.get F.GLOBAL_ERR_ADDR = s.dev.get F.GLOBAL_ERR_ADDR) ∧
      d.get F.GLOBAL_ERR_COUNT = min (s.dev.get F.GLOBAL_ERR_COUNT + 1) (2 ^ F.GLOBAL_ERR_COUNT.w - 1) ∧
      raised d .global 0 0 1 ∧ raised d .ingest n 0 27 ∧ s.dev.wordsAndEvents d t))
end

