-- ==== Sys2Proof/Laws/Sparse.lean ====
section
/-! SUPPORT. Laws of the sparse maps, of the byte memories and of the bit fields: reading after writing, and the canonical
form kept by every operation. -/
namespace Sys2Proof.Machine

variable {α : Type}

/-! Reading after writing. -/

theorem sget_sdel_self (d : Nat → α) (m : List (Nat × α)) (k : Nat) : sget d (sdel m k) k = d k := by
  induction m with
  | nil => rfl
  | cons p m ih =>
    by_cases h : p.1 = k
    · simpa [sdel, h] using ih
    · simpa [sdel, h, sget] using ih

theorem sget_sdel_ne (d : Nat → α) (m : List (Nat × α)) {k a : Nat} (h : a ≠ k) : sget d (sdel m k) a = sget d m a := by
  induction m with
  | nil => rfl
  | cons p m ih =>
    by_cases hp : p.1 = k
    · have : ¬ p.1 = a := fun e => h (e ▸ hp)
      simpa [sdel, hp, sget, Ne.symm h] using ih
    · by_cases ha : p.1 = a
      · simp [sdel, sget, ha, h]
      · simpa [sdel, hp, sget, ha] using ih

theorem sget_sins_self (d : Nat → α) (m : List (Nat × α)) (k : Nat) (v : α) (h : ∀ p ∈ m, p.1 ≠ k) :
    sget d (sins m k v) k = v := by
  induction m with
  | nil => simp [sins, sget]
  | cons p m ih =>
    have hp : p.1 ≠ k := h p (by simp)
    have hm : ∀ q ∈ m, q.1 ≠ k := fun q hq => h q (by simp [hq])
    by_cases hk : k < p.1
    · simp [sins, hk, sget]
    · simpa [sins, hk, sget, hp] using ih hm

theorem sget_sins_ne (d : Nat → α) (m : List (Nat × α)) {k a : Nat} (v : α) (h : a ≠ k) :
    sget d (sins m k v) a = sget d m a := by
  induction m with
  | nil => simp [sins, sget, Ne.symm h]
  | cons p m ih =>
    by_cases hk : k < p.1
    · simp [sins, hk, sget, Ne.symm h]
    · have e : sins (p :: m) k v = p :: sins m k v := by simp [sins, hk]
      by_cases ha : p.1 = a
      · simp [e, sget, ha]
      · simpa [e, sget, ha] using ih

theorem sdel_ne (m : List (Nat × α)) (k : Nat) : ∀ p ∈ sdel m k, p.1 ≠ k := by
  intro p hp
  have := (List.mem_filter.mp hp).2
  simpa using this

variable [DecidableEq α]

/-- A key reads the value written to it. -/
@[simp] theorem sget_sset_self (d : Nat → α) (m : List (Nat × α)) (k : Nat) (v : α) : sget d (sset d m k v) k = v := by
  unfold sset
  split
  · rename_i h
    rw [sget_sdel_self, h]
  · exact sget_sins_self d _ k v (sdel_ne m k)

/-- Every other key reads as before. -/
theorem sget_sset_ne (d : Nat → α) (m : List (Nat × α)) {k a : Nat} (v : α) (h : a ≠ k) :
    sget d (sset d m k v) a = sget d m a := by
  unfold sset
  split
  · exact sget_sdel_ne d m h
  · rw [sget_sins_ne d _ v h, sget_sdel_ne d m h]

/-- Both at once. -/
theorem sget_sset (d : Nat → α) (m : List (Nat × α)) (k a : Nat) (v : α) :
    sget d (sset d m k v) a = if a = k then v else sget d m a := by
  split
  · rename_i h
    rw [h, sget_sset_self]
  · rename_i h
    exact sget_sset_ne d m v h

/-! The canonical form. -/

/-- Every listed key lies above `k`. -/
def above (k : Nat) (m : List (Nat × α)) : Prop := ∀ p ∈ m, k < p.1

omit [DecidableEq α] in
theorem sorted_cons (k : Nat) (v : α) (m : List (Nat × α)) :
    sorted ((k, v) :: m) = true ↔ above k m ∧ sorted m = true := by
  induction m generalizing k v with
  | nil => simp [sorted, above]
  | cons q m ih =>
    obtain ⟨k', v'⟩ := q
    simp only [sorted, Bool.and_eq_true, decide_eq_true_eq]
    constructor
    · rintro ⟨h, hs⟩
      refine ⟨?_, hs⟩
      intro p hp
      rcases List.mem_cons.mp hp with rfl | hp
      · exact h
      · exact lt_trans h (((ih k' v').mp hs).1 p hp)
    · rintro ⟨ha, hs⟩
      exact ⟨ha (k', v') (by simp), hs⟩

omit [DecidableEq α] in
theorem sorted_sdel (m : List (Nat × α)) (k : Nat) (h : sorted m = true) : sorted (sdel m k) = true := by
  induction m with
  | nil => rfl
  | cons p m ih =>
    obtain ⟨a, v⟩ := p
    obtain ⟨ha, hs⟩ := (sorted_cons a v m).mp h
    by_cases hk : a = k
    · simpa [sdel, hk] using ih hs
    · have e : sdel ((a, v) :: m) k = (a, v) :: sdel m k := by simp [sdel, hk]
      rw [e, sorted_cons]
      exact ⟨fun p hp => ha p (List.mem_of_mem_filter hp), ih hs⟩

omit [DecidableEq α] in
theorem mem_sins {m : List (Nat × α)} {k : Nat} {v : α} {p : Nat × α} (h : p ∈ sins m k v) : p = (k, v) ∨ p ∈ m := by
  induction m with
  | nil => simpa [sins] using h
  | cons q m ih =>
    by_cases hk : k < q.1
    · simpa [sins, hk] using h
    · have h' : p = q ∨ p ∈ sins m k v := by simpa [sins, hk] using h
      rcases h' with rfl | h'
      · simp
      · rcases ih h' with e | e
        · exact .inl e
        · exact .inr (by simp [e])

omit [DecidableEq α] in
theorem sorted_sins (m : List (Nat × α)) (k : Nat) (v : α) (hk : ∀ p ∈ m, p.1 ≠ k) (h : sorted m = true) :
    sorted (sins m k v) = true := by
  induction m with
  | nil => rfl
  | cons q m ih =>
    obtain ⟨a, w⟩ := q
    obtain ⟨ha, hs⟩ := (sorted_cons a w m).mp h
    by_cases hlt : k < a
    · have e : sins ((a, w) :: m) k v = (k, v) :: (a, w) :: m := by simp [sins, hlt]
      rw [e, sorted_cons]
      refine ⟨?_, h⟩
      intro p hp
      rcases List.mem_cons.mp hp with rfl | hp
      · exact hlt
      · exact lt_trans hlt (ha p hp)
    · have e : sins ((a, w) :: m) k v = (a, w) :: sins m k v := by simp [sins, hlt]
      have hne : a ≠ k := hk (a, w) (by simp)
      rw [e, sorted_cons]
      refine ⟨?_, ih (fun p hp => hk p (by simp [hp])) hs⟩
      intro p hp
      rcases mem_sins hp with rfl | hp
      · change a < k
        omega
      · exact ha p hp

/-- Writing keeps the canonical form. -/
theorem swf_sset (d : Nat → α) (m : List (Nat × α)) (k : Nat) (v : α) (h : swf d m = true) : swf d (sset d m k v) = true := by
  simp only [swf, Bool.and_eq_true, List.all_eq_true, decide_eq_true_eq] at h ⊢
  obtain ⟨hs, hd⟩ := h
  unfold sset
  split
  · exact ⟨sorted_sdel m k hs, fun p hp => hd p (List.mem_of_mem_filter hp)⟩
  · rename_i hv
    refine ⟨sorted_sins _ k v (sdel_ne m k) (sorted_sdel m k hs), ?_⟩
    intro p hp
    rcases mem_sins hp with rfl | hp
    · exact hv
    · exact hd p (List.mem_of_mem_filter hp)

theorem swf_supd (d : Nat → α) (m : List (Nat × α)) (k : Nat) (f : α → α) (h : swf d m = true) :
    swf d (supd d m k f) = true := swf_sset d m k _ h

/-! Byte memories. -/

/-- A byte reads what was written to it, and every other byte as before. -/
theorem memGet_memSet (m : List (Nat × Byte)) (a x : Nat) (b : Byte) :
    memGet (memSet m a b) x = if x = a then b else memGet m x := sget_sset _ m a x b

theorem memWf_memSet (m : List (Nat × Byte)) (a : Nat) (b : Byte) (h : Memory.wf m = true) :
    Memory.wf (memSet m a b) = true := swf_sset _ m a b h

theorem memWf_memWrite (m : List (Nat × Byte)) (a : Nat) (bs : List Byte) (h : Memory.wf m = true) :
    Memory.wf (memWrite m a bs) = true := by
  induction bs generalizing m a with
  | nil => exact h
  | cons b bs ih => exact ih _ _ (memWf_memSet m a b h)

/-- A byte outside the written run reads as before. -/
theorem memGet_memWrite_out (m : List (Nat × Byte)) (a x : Nat) (bs : List Byte) (h : x < a ∨ a + bs.length ≤ x) :
    memGet (memWrite m a bs) x = memGet m x := by
  induction bs generalizing m a with
  | nil => rfl
  | cons b bs ih =>
    simp only [List.length_cons] at h
    rw [memWrite, ih _ _ (by omega), memGet_memSet, if_neg (by omega)]

/-- A byte of the written run reads its byte. -/
theorem memGet_memWrite_in (m : List (Nat × Byte)) (a k : Nat) (bs : List Byte) (h : k < bs.length) :
    memGet (memWrite m a bs) (a + k) = bs[k] := by
  induction bs generalizing m a k with
  | nil => simp at h
  | cons b bs ih =>
    cases k with
    | zero =>
      rw [memWrite, memGet_memWrite_out _ _ _ _ (by omega), memGet_memSet]
      simp
    | succ k =>
      have := ih (memSet m a b) (a + 1) k (by simpa using h)
      rw [memWrite, show a + (k + 1) = a + 1 + k by omega, this]
      simp

/-! Bit fields. -/

/-- A field reads the value put into it, within its width. -/
theorem bitsOf_lt (v lo w : Nat) : bitsOf v lo w < 2 ^ w := Nat.mod_lt _ (by positivity)

theorem putBits_eq (v lo w x : Nat) :
    putBits v lo w x = v % 2 ^ lo + x % 2 ^ w * 2 ^ lo + v / 2 ^ (lo + w) * 2 ^ (lo + w) := by
  unfold putBits bitsOf
  have h1 : v / 2 ^ lo % 2 ^ w + 2 ^ w * (v / 2 ^ lo / 2 ^ w) = v / 2 ^ lo := Nat.mod_add_div _ _
  have h2 : v % 2 ^ lo + 2 ^ lo * (v / 2 ^ lo) = v := Nat.mod_add_div _ _
  have h3 : v / 2 ^ lo / 2 ^ w = v / 2 ^ (lo + w) := by rw [Nat.div_div_eq_div_mul, ← pow_add]
  rw [h3] at h1
  have h4 : v = v % 2 ^ lo + v / 2 ^ lo % 2 ^ w * 2 ^ lo + v / 2 ^ (lo + w) * 2 ^ (lo + w) := by
    calc v = v % 2 ^ lo + 2 ^ lo * (v / 2 ^ lo) := h2.symm
      _ = v % 2 ^ lo + 2 ^ lo * (v / 2 ^ lo % 2 ^ w + 2 ^ w * (v / 2 ^ (lo + w))) := by rw [h1]
      _ = _ := by rw [pow_add]; ring
  generalize v % 2 ^ lo = a at *
  generalize v / 2 ^ lo % 2 ^ w * 2 ^ lo = b at *
  generalize v / 2 ^ (lo + w) * 2 ^ (lo + w) = c at *
  omega

@[simp] theorem bitsOf_putBits_self (v lo w x : Nat) : bitsOf (putBits v lo w x) lo w = x % 2 ^ w := by
  rw [putBits_eq, bitsOf, pow_add]
  have e : v % 2 ^ lo + x % 2 ^ w * 2 ^ lo + v / (2 ^ lo * 2 ^ w) * (2 ^ lo * 2 ^ w)
      = v % 2 ^ lo + 2 ^ lo * (x % 2 ^ w + 2 ^ w * (v / (2 ^ lo * 2 ^ w))) := by ring
  rw [e, Nat.add_mul_div_left _ _ (by positivity), Nat.div_eq_of_lt (Nat.mod_lt _ (by positivity)), Nat.zero_add,
    Nat.add_mul_mod_self_left, Nat.mod_mod]

/-- Putting a field leaves the bits below it. -/
theorem bitsOf_putBits_below (v lo w x lo' w' : Nat) (h : lo' + w' ≤ lo) :
    bitsOf (putBits v lo w x) lo' w' = bitsOf v lo' w' := by
  have key (a b : Nat) (hab : a % 2 ^ lo = b % 2 ^ lo) : bitsOf a lo' w' = bitsOf b lo' w' := by
    have hd : 2 ^ (lo' + w') ∣ 2 ^ lo := pow_dvd_pow 2 h
    have e : a % 2 ^ (lo' + w') = b % 2 ^ (lo' + w') := by
      rw [← Nat.mod_mod_of_dvd a hd, hab, Nat.mod_mod_of_dvd b hd]
    have g (n : Nat) : bitsOf n lo' w' = n % 2 ^ (lo' + w') / 2 ^ lo' := by
      rw [bitsOf, pow_add, Nat.mod_mul_right_div_self]
    rw [g, g, e]
  apply key
  rw [putBits_eq, pow_add]
  have e : v % 2 ^ lo + x % 2 ^ w * 2 ^ lo + v / (2 ^ lo * 2 ^ w) * (2 ^ lo * 2 ^ w)
      = v % 2 ^ lo + 2 ^ lo * (x % 2 ^ w + 2 ^ w * (v / (2 ^ lo * 2 ^ w))) := by ring
  rw [e, Nat.add_mul_mod_self_left, Nat.mod_mod]

/-- Putting a field leaves the bits above it. -/
theorem bitsOf_putBits_above (v lo w x lo' w' : Nat) (h : lo + w ≤ lo') :
    bitsOf (putBits v lo w x) lo' w' = bitsOf v lo' w' := by
  have key : putBits v lo w x / 2 ^ (lo + w) = v / 2 ^ (lo + w) := by
    rw [putBits_eq, Nat.add_mul_div_right _ _ (by positivity), Nat.div_eq_of_lt, Nat.zero_add]
    have h1 : v % 2 ^ lo < 2 ^ lo := Nat.mod_lt _ (by positivity)
    have h2 : x % 2 ^ w + 1 ≤ 2 ^ w := Nat.mod_lt _ (by positivity)
    have h3 : (x % 2 ^ w + 1) * 2 ^ lo ≤ 2 ^ w * 2 ^ lo := Nat.mul_le_mul_right _ h2
    rw [pow_add, Nat.mul_comm (2 ^ lo)]
    calc v % 2 ^ lo + x % 2 ^ w * 2 ^ lo < 2 ^ lo + x % 2 ^ w * 2 ^ lo := by omega
      _ = (x % 2 ^ w + 1) * 2 ^ lo := by ring
      _ ≤ _ := h3
  have g (n : Nat) : n / 2 ^ lo' = n / 2 ^ (lo + w) / 2 ^ (lo' - (lo + w)) := by
    rw [Nat.div_div_eq_div_mul, ← pow_add]
    congr 2
    omega
  rw [bitsOf, bitsOf, g (putBits v lo w x), key, ← g]

/-- A word keeps its width when a field inside it is put. -/
theorem putBits_lt (v lo w x n : Nat) (hv : v < 2 ^ n) (hn : lo + w ≤ n) : putBits v lo w x < 2 ^ n := by
  rw [putBits_eq]
  have h1 : v % 2 ^ lo < 2 ^ lo := Nat.mod_lt _ (by positivity)
  have h2 : x % 2 ^ w + 1 ≤ 2 ^ w := Nat.mod_lt _ (by positivity)
  have h3 : (x % 2 ^ w + 1) * 2 ^ lo ≤ 2 ^ w * 2 ^ lo := Nat.mul_le_mul_right _ h2
  have e2 : 2 ^ n = 2 ^ (lo + w) * 2 ^ (n - (lo + w)) := by rw [← pow_add]; congr 1; omega
  have h4 : v / 2 ^ (lo + w) + 1 ≤ 2 ^ (n - (lo + w)) := by
    have : v / 2 ^ (lo + w) < 2 ^ (n - (lo + w)) := Nat.div_lt_of_lt_mul (by rw [← e2]; exact hv)
    omega
  have h5 : (v / 2 ^ (lo + w) + 1) * 2 ^ (lo + w) ≤ 2 ^ (n - (lo + w)) * 2 ^ (lo + w) := Nat.mul_le_mul_right _ h4
  have e1 : 2 ^ (lo + w) = 2 ^ w * 2 ^ lo := by rw [pow_add]; ring
  rw [e2, Nat.mul_comm (2 ^ (lo + w))]
  rw [Nat.add_mul, Nat.one_mul] at h3 h5
  omega

/-- The bytes of a number give the number back. -/
theorem leVal_leBytes (n v : Nat) : leVal (leBytes n v) = v % 256 ^ n := by
  induction n generalizing v with
  | zero => simp [leBytes, leVal, Nat.mod_one]
  | succ n ih =>
    rw [leBytes, leVal, ih, BitVec.toNat_ofNat, show (256 : Nat) ^ (n + 1) = 256 * 256 ^ n by rw [Nat.pow_succ]; ring,
      Nat.mod_mul]

@[simp] theorem length_leBytes (n v : Nat) : (leBytes n v).length = n := by
  induction n generalizing v with
  | zero => rfl
  | succ n ih => simp [leBytes, ih]

end Sys2Proof.Machine
end

