-- ==== Sys2Proof/Laws/State.lean ====
section
/-! SUPPORT. What the updates of the register file and the event flags leave alone: one lemma for each field of the device
and each update. -/
namespace Sys2Proof.Machine
namespace Dev

variable (d : Dev)

/-! Updates of register words. -/

@[simp] theorem setWord_mirror (a : Nat) (v : Word) : (d.setWord a v).mirror = d.mirror := rfl
@[simp] theorem setWord_house (a : Nat) (v : Word) : (d.setWord a v).house = d.house := rfl
@[simp] theorem setWord_inReset (a : Nat) (v : Word) : (d.setWord a v).inReset = d.inReset := rfl
@[simp] theorem setWord_draws (a : Nat) (v : Word) : (d.setWord a v).draws = d.draws := rfl
@[simp] theorem setWord_resp (a : Nat) (v : Word) : (d.setWord a v).resp = d.resp := rfl
@[simp] theorem setWord_out (a : Nat) (v : Word) : (d.setWord a v).out = d.out := rfl
@[simp] theorem setWord_loHold (a : Nat) (v : Word) : (d.setWord a v).loHold = d.loHold := rfl
@[simp] theorem setWord_hiLatch (a : Nat) (v : Word) : (d.setWord a v).hiLatch = d.hiLatch := rfl
@[simp] theorem setWord_msiPending (a : Nat) (v : Word) : (d.setWord a v).msiPending = d.msiPending := rfl
@[simp] theorem setWord_msiHeld (a : Nat) (v : Word) : (d.setWord a v).msiHeld = d.msiHeld := rfl
@[simp] theorem setWord_msiLast (a : Nat) (v : Word) : (d.setWord a v).msiLast = d.msiLast := rfl
@[simp] theorem setWord_fences (a : Nat) (v : Word) : (d.setWord a v).fences = d.fences := rfl
@[simp] theorem setWord_draining (a : Nat) (v : Word) : (d.setWord a v).draining = d.draining := rfl
@[simp] theorem setWord_booksDue (a : Nat) (v : Word) : (d.setWord a v).booksDue = d.booksDue := rfl
@[simp] theorem setWord_snapSrc (a : Nat) (v : Word) : (d.setWord a v).snapSrc = d.snapSrc := rfl
@[simp] theorem setWord_snapSched (a : Nat) (v : Word) : (d.setWord a v).snapSched = d.snapSched := rfl
@[simp] theorem setWord_auditE (a : Nat) (v : Word) : (d.setWord a v).auditE = d.auditE := rfl
@[simp] theorem setWord_auditNoTalon (a : Nat) (v : Word) : (d.setWord a v).auditNoTalon = d.auditNoTalon := rfl
@[simp] theorem setWord_auditDue (a : Nat) (v : Word) : (d.setWord a v).auditDue = d.auditDue := rfl
@[simp] theorem setWord_auditSecond (a : Nat) (v : Word) : (d.setWord a v).auditSecond = d.auditSecond := rfl
@[simp] theorem setWord_auditFree (a : Nat) (v : Word) : (d.setWord a v).auditFree = d.auditFree := rfl
@[simp] theorem setWord_auditAlloc (a : Nat) (v : Word) : (d.setWord a v).auditAlloc = d.auditAlloc := rfl
@[simp] theorem setWord_talonFrozen (a : Nat) (v : Word) : (d.setWord a v).talonFrozen = d.talonFrozen := rfl
@[simp] theorem setWord_rebuildAsked (a : Nat) (v : Word) : (d.setWord a v).rebuildAsked = d.rebuildAsked := rfl
@[simp] theorem setWord_cfgReady (a : Nat) (v : Word) : (d.setWord a v).cfgReady = d.cfgReady := rfl
@[simp] theorem setWord_lanes (a : Nat) (v : Word) : (d.setWord a v).lanes = d.lanes := rfl
@[simp] theorem setWord_bondTx (a : Nat) (v : Word) : (d.setWord a v).bondTx = d.bondTx := rfl
@[simp] theorem setWord_bondRx (a : Nat) (v : Word) : (d.setWord a v).bondRx = d.bondRx := rfl
@[simp] theorem setWord_ctxs (a : Nat) (v : Word) : (d.setWord a v).ctxs = d.ctxs := rfl
@[simp] theorem setWord_maps (a : Nat) (v : Word) : (d.setWord a v).maps = d.maps := rfl
@[simp] theorem setWord_releasing (a : Nat) (v : Word) : (d.setWord a v).releasing = d.releasing := rfl
@[simp] theorem setWord_tiles (a : Nat) (v : Word) : (d.setWord a v).tiles = d.tiles := rfl
@[simp] theorem setWord_bytes (a : Nat) (v : Word) : (d.setWord a v).bytes = d.bytes := rfl
@[simp] theorem setWord_pcErrs (a : Nat) (v : Word) : (d.setWord a v).pcErrs = d.pcErrs := rfl
@[simp] theorem setWord_moved (a : Nat) (v : Word) : (d.setWord a v).moved = d.moved := rfl
@[simp] theorem setWord_coefs (a : Nat) (v : Word) : (d.setWord a v).coefs = d.coefs := rfl
@[simp] theorem setWord_layers (a : Nat) (v : Word) : (d.setWord a v).layers = d.layers := rfl
@[simp] theorem setWord_readers (a : Nat) (v : Word) : (d.setWord a v).readers = d.readers := rfl
@[simp] theorem setWord_heads (a : Nat) (v : Word) : (d.setWord a v).heads = d.heads := rfl
@[simp] theorem setWord_melds (a : Nat) (v : Word) : (d.setWord a v).melds = d.melds := rfl
@[simp] theorem setWord_ports (a : Nat) (v : Word) : (d.setWord a v).ports = d.ports := rfl
@[simp] theorem setWord_sbHpd (a : Nat) (v : Word) : (d.setWord a v).sbHpd = d.sbHpd := rfl
@[simp] theorem setWord_videoSeqs (a : Nat) (v : Word) : (d.setWord a v).videoSeqs = d.videoSeqs := rfl
@[simp] theorem setWord_netBack (a : Nat) (v : Word) : (d.setWord a v).netBack = d.netBack := rfl
@[simp] theorem setWord_busResp (a : Nat) (v : Word) : (d.setWord a v).busResp = d.busResp := rfl
@[simp] theorem setWord_luts (a : Nat) (v : Word) : (d.setWord a v).luts = d.luts := rfl
@[simp] theorem setWord_recHeads (a : Nat) (v : Word) : (d.setWord a v).recHeads = d.recHeads := rfl
@[simp] theorem setWord_recRing (a : Nat) (v : Word) : (d.setWord a v).recRing = d.recRing := rfl
@[simp] theorem setWord_recBytes (a : Nat) (v : Word) : (d.setWord a v).recBytes = d.recBytes := rfl
@[simp] theorem setWord_handLock (a : Nat) (v : Word) : (d.setWord a v).handLock = d.handLock := rfl
@[simp] theorem setWord_engSince (a : Nat) (v : Word) : (d.setWord a v).engSince = d.engSince := rfl
@[simp] theorem setWord_engBusyNs (a : Nat) (v : Word) : (d.setWord a v).engBusyNs = d.engBusyNs := rfl
@[simp] theorem setWord_hand (a : Nat) (v : Word) : (d.setWord a v).hand = d.hand := rfl
@[simp] theorem setWord_tm (a : Nat) (v : Word) : (d.setWord a v).tm = d.tm := rfl
@[simp] theorem setWord_relTime (a : Nat) (v : Word) : (d.setWord a v).relTime = d.relTime := rfl
@[simp] theorem setWord_witChan (a : Nat) (v : Word) : (d.setWord a v).witChan = d.witChan := rfl
@[simp] theorem setWord_witResume (a : Nat) (v : Word) : (d.setWord a v).witResume = d.witResume := rfl
@[simp] theorem setWord_witHanded (a : Nat) (v : Word) : (d.setWord a v).witHanded = d.witHanded := rfl
@[simp] theorem setWord_witChained (a : Nat) (v : Word) : (d.setWord a v).witChained = d.witChained := rfl
@[simp] theorem setWord_audio (a : Nat) (v : Word) : (d.setWord a v).audio = d.audio := rfl
@[simp] theorem setWord_tsends (a : Nat) (v : Word) : (d.setWord a v).tsends = d.tsends := rfl
@[simp] theorem setWord_written (a : Nat) (v : Word) : (d.setWord a v).written = d.written := rfl
@[simp] theorem setWord_deal (a : Nat) (v : Word) : (d.setWord a v).deal = d.deal := rfl
@[simp] theorem setWord_keys (a : Nat) (v : Word) : (d.setWord a v).keys = d.keys := rfl
@[simp] theorem setWord_mg (a : Nat) (v : Word) : (d.setWord a v).mg = d.mg := rfl
@[simp] theorem setWord_store (a : Nat) (v : Word) : (d.setWord a v).store = d.store := rfl
@[simp] theorem setWord_doms (a : Nat) (v : Word) : (d.setWord a v).doms = d.doms := rfl
@[simp] theorem setWord_units (a : Nat) (v : Word) : (d.setWord a v).units = d.units := rfl
@[simp] theorem setWord_aliveAt (a : Nat) (v : Word) : (d.setWord a v).aliveAt = d.aliveAt := rfl
@[simp] theorem setWord_alive (a : Nat) (v : Word) : (d.setWord a v).alive = d.alive := rfl
@[simp] theorem setWord_hbmScrub (a : Nat) (v : Word) : (d.setWord a v).hbmScrub = d.hbmScrub := rfl
@[simp] theorem setWord_dmaLast (a : Nat) (v : Word) : (d.setWord a v).dmaLast = d.dmaLast := rfl
@[simp] theorem setWord_rebuilt (a : Nat) (v : Word) : (d.setWord a v).rebuilt = d.rebuilt := rfl
@[simp] theorem setWord_talonWaits (a : Nat) (v : Word) : (d.setWord a v).talonWaits = d.talonWaits := rfl
@[simp] theorem setWord_tags (a : Nat) (v : Word) : (d.setWord a v).tags = d.tags := rfl
@[simp] theorem setWord_chans (a : Nat) (v : Word) : (d.setWord a v).chans = d.chans := rfl
@[simp] theorem setWord_qos (a : Nat) (v : Word) : (d.setWord a v).qos = d.qos := rfl
@[simp] theorem setWord_auditRegs (a : Nat) (v : Word) : (d.setWord a v).auditRegs = d.auditRegs := rfl
@[simp] theorem setWord_leaked (a : Nat) (v : Word) : (d.setWord a v).leaked = d.leaked := rfl
@[simp] theorem setWord_overclaim (a : Nat) (v : Word) : (d.setWord a v).overclaim = d.overclaim := rfl
@[simp] theorem setWord_lostAt (a : Nat) (v : Word) : (d.setWord a v).lostAt = d.lostAt := rfl
@[simp] theorem setWord_witLost (a : Nat) (v : Word) : (d.setWord a v).witLost = d.witLost := rfl
@[simp] theorem setWord_witWait (a : Nat) (v : Word) : (d.setWord a v).witWait = d.witWait := rfl
@[simp] theorem setWord_mapAt (a : Nat) (v : Word) : (d.setWord a v).mapAt = d.mapAt := rfl
@[simp] theorem setWord_oldMaps (a : Nat) (v : Word) : (d.setWord a v).oldMaps = d.oldMaps := rfl
@[simp] theorem setWord_relBy (a : Nat) (v : Word) : (d.setWord a v).relBy = d.relBy := rfl
@[simp] theorem setWord_scrubAt (a : Nat) (v : Word) : (d.setWord a v).scrubAt = d.scrubAt := rfl
@[simp] theorem setWord_scrubBad (a : Nat) (v : Word) : (d.setWord a v).scrubBad = d.scrubBad := rfl

@[simp] theorem putAt_mirror (a lo w x : Nat) : (d.putAt a lo w x).mirror = d.mirror := setWord_mirror d a _
@[simp] theorem putAt_house (a lo w x : Nat) : (d.putAt a lo w x).house = d.house := setWord_house d a _
@[simp] theorem putAt_inReset (a lo w x : Nat) : (d.putAt a lo w x).inReset = d.inReset := setWord_inReset d a _
@[simp] theorem putAt_draws (a lo w x : Nat) : (d.putAt a lo w x).draws = d.draws := setWord_draws d a _
@[simp] theorem putAt_resp (a lo w x : Nat) : (d.putAt a lo w x).resp = d.resp := setWord_resp d a _
@[simp] theorem putAt_out (a lo w x : Nat) : (d.putAt a lo w x).out = d.out := setWord_out d a _
@[simp] theorem putAt_loHold (a lo w x : Nat) : (d.putAt a lo w x).loHold = d.loHold := setWord_loHold d a _
@[simp] theorem putAt_hiLatch (a lo w x : Nat) : (d.putAt a lo w x).hiLatch = d.hiLatch := setWord_hiLatch d a _
@[simp] theorem putAt_msiPending (a lo w x : Nat) : (d.putAt a lo w x).msiPending = d.msiPending := setWord_msiPending d a _
@[simp] theorem putAt_msiHeld (a lo w x : Nat) : (d.putAt a lo w x).msiHeld = d.msiHeld := setWord_msiHeld d a _
@[simp] theorem putAt_msiLast (a lo w x : Nat) : (d.putAt a lo w x).msiLast = d.msiLast := setWord_msiLast d a _
@[simp] theorem putAt_fences (a lo w x : Nat) : (d.putAt a lo w x).fences = d.fences := setWord_fences d a _
@[simp] theorem putAt_draining (a lo w x : Nat) : (d.putAt a lo w x).draining = d.draining := setWord_draining d a _
@[simp] theorem putAt_booksDue (a lo w x : Nat) : (d.putAt a lo w x).booksDue = d.booksDue := setWord_booksDue d a _
@[simp] theorem putAt_snapSrc (a lo w x : Nat) : (d.putAt a lo w x).snapSrc = d.snapSrc := setWord_snapSrc d a _
@[simp] theorem putAt_snapSched (a lo w x : Nat) : (d.putAt a lo w x).snapSched = d.snapSched := setWord_snapSched d a _
@[simp] theorem putAt_auditE (a lo w x : Nat) : (d.putAt a lo w x).auditE = d.auditE := setWord_auditE d a _
@[simp] theorem putAt_auditNoTalon (a lo w x : Nat) : (d.putAt a lo w x).auditNoTalon = d.auditNoTalon := setWord_auditNoTalon d a _
@[simp] theorem putAt_auditDue (a lo w x : Nat) : (d.putAt a lo w x).auditDue = d.auditDue := setWord_auditDue d a _
@[simp] theorem putAt_auditSecond (a lo w x : Nat) : (d.putAt a lo w x).auditSecond = d.auditSecond := setWord_auditSecond d a _
@[simp] theorem putAt_auditFree (a lo w x : Nat) : (d.putAt a lo w x).auditFree = d.auditFree := setWord_auditFree d a _
@[simp] theorem putAt_auditAlloc (a lo w x : Nat) : (d.putAt a lo w x).auditAlloc = d.auditAlloc := setWord_auditAlloc d a _
@[simp] theorem putAt_talonFrozen (a lo w x : Nat) : (d.putAt a lo w x).talonFrozen = d.talonFrozen := setWord_talonFrozen d a _
@[simp] theorem putAt_rebuildAsked (a lo w x : Nat) : (d.putAt a lo w x).rebuildAsked = d.rebuildAsked := setWord_rebuildAsked d a _
@[simp] theorem putAt_cfgReady (a lo w x : Nat) : (d.putAt a lo w x).cfgReady = d.cfgReady := setWord_cfgReady d a _
@[simp] theorem putAt_lanes (a lo w x : Nat) : (d.putAt a lo w x).lanes = d.lanes := setWord_lanes d a _
@[simp] theorem putAt_bondTx (a lo w x : Nat) : (d.putAt a lo w x).bondTx = d.bondTx := setWord_bondTx d a _
@[simp] theorem putAt_bondRx (a lo w x : Nat) : (d.putAt a lo w x).bondRx = d.bondRx := setWord_bondRx d a _
@[simp] theorem putAt_ctxs (a lo w x : Nat) : (d.putAt a lo w x).ctxs = d.ctxs := setWord_ctxs d a _
@[simp] theorem putAt_maps (a lo w x : Nat) : (d.putAt a lo w x).maps = d.maps := setWord_maps d a _
@[simp] theorem putAt_releasing (a lo w x : Nat) : (d.putAt a lo w x).releasing = d.releasing := setWord_releasing d a _
@[simp] theorem putAt_tiles (a lo w x : Nat) : (d.putAt a lo w x).tiles = d.tiles := setWord_tiles d a _
@[simp] theorem putAt_bytes (a lo w x : Nat) : (d.putAt a lo w x).bytes = d.bytes := setWord_bytes d a _
@[simp] theorem putAt_pcErrs (a lo w x : Nat) : (d.putAt a lo w x).pcErrs = d.pcErrs := setWord_pcErrs d a _
@[simp] theorem putAt_moved (a lo w x : Nat) : (d.putAt a lo w x).moved = d.moved := setWord_moved d a _
@[simp] theorem putAt_coefs (a lo w x : Nat) : (d.putAt a lo w x).coefs = d.coefs := setWord_coefs d a _
@[simp] theorem putAt_layers (a lo w x : Nat) : (d.putAt a lo w x).layers = d.layers := setWord_layers d a _
@[simp] theorem putAt_readers (a lo w x : Nat) : (d.putAt a lo w x).readers = d.readers := setWord_readers d a _
@[simp] theorem putAt_heads (a lo w x : Nat) : (d.putAt a lo w x).heads = d.heads := setWord_heads d a _
@[simp] theorem putAt_melds (a lo w x : Nat) : (d.putAt a lo w x).melds = d.melds := setWord_melds d a _
@[simp] theorem putAt_ports (a lo w x : Nat) : (d.putAt a lo w x).ports = d.ports := setWord_ports d a _
@[simp] theorem putAt_sbHpd (a lo w x : Nat) : (d.putAt a lo w x).sbHpd = d.sbHpd := setWord_sbHpd d a _
@[simp] theorem putAt_videoSeqs (a lo w x : Nat) : (d.putAt a lo w x).videoSeqs = d.videoSeqs := setWord_videoSeqs d a _
@[simp] theorem putAt_netBack (a lo w x : Nat) : (d.putAt a lo w x).netBack = d.netBack := setWord_netBack d a _
@[simp] theorem putAt_busResp (a lo w x : Nat) : (d.putAt a lo w x).busResp = d.busResp := setWord_busResp d a _
@[simp] theorem putAt_luts (a lo w x : Nat) : (d.putAt a lo w x).luts = d.luts := setWord_luts d a _
@[simp] theorem putAt_recHeads (a lo w x : Nat) : (d.putAt a lo w x).recHeads = d.recHeads := setWord_recHeads d a _
@[simp] theorem putAt_recRing (a lo w x : Nat) : (d.putAt a lo w x).recRing = d.recRing := setWord_recRing d a _
@[simp] theorem putAt_recBytes (a lo w x : Nat) : (d.putAt a lo w x).recBytes = d.recBytes := setWord_recBytes d a _
@[simp] theorem putAt_handLock (a lo w x : Nat) : (d.putAt a lo w x).handLock = d.handLock := setWord_handLock d a _
@[simp] theorem putAt_engSince (a lo w x : Nat) : (d.putAt a lo w x).engSince = d.engSince := setWord_engSince d a _
@[simp] theorem putAt_engBusyNs (a lo w x : Nat) : (d.putAt a lo w x).engBusyNs = d.engBusyNs := setWord_engBusyNs d a _
@[simp] theorem putAt_hand (a lo w x : Nat) : (d.putAt a lo w x).hand = d.hand := setWord_hand d a _
@[simp] theorem putAt_tm (a lo w x : Nat) : (d.putAt a lo w x).tm = d.tm := setWord_tm d a _
@[simp] theorem putAt_relTime (a lo w x : Nat) : (d.putAt a lo w x).relTime = d.relTime := setWord_relTime d a _
@[simp] theorem putAt_witChan (a lo w x : Nat) : (d.putAt a lo w x).witChan = d.witChan := setWord_witChan d a _
@[simp] theorem putAt_witResume (a lo w x : Nat) : (d.putAt a lo w x).witResume = d.witResume := setWord_witResume d a _
@[simp] theorem putAt_witHanded (a lo w x : Nat) : (d.putAt a lo w x).witHanded = d.witHanded := setWord_witHanded d a _
@[simp] theorem putAt_witChained (a lo w x : Nat) : (d.putAt a lo w x).witChained = d.witChained := setWord_witChained d a _
@[simp] theorem putAt_audio (a lo w x : Nat) : (d.putAt a lo w x).audio = d.audio := setWord_audio d a _
@[simp] theorem putAt_tsends (a lo w x : Nat) : (d.putAt a lo w x).tsends = d.tsends := setWord_tsends d a _
@[simp] theorem putAt_written (a lo w x : Nat) : (d.putAt a lo w x).written = d.written := setWord_written d a _
@[simp] theorem putAt_deal (a lo w x : Nat) : (d.putAt a lo w x).deal = d.deal := setWord_deal d a _
@[simp] theorem putAt_keys (a lo w x : Nat) : (d.putAt a lo w x).keys = d.keys := setWord_keys d a _
@[simp] theorem putAt_mg (a lo w x : Nat) : (d.putAt a lo w x).mg = d.mg := setWord_mg d a _
@[simp] theorem putAt_store (a lo w x : Nat) : (d.putAt a lo w x).store = d.store := setWord_store d a _
@[simp] theorem putAt_doms (a lo w x : Nat) : (d.putAt a lo w x).doms = d.doms := setWord_doms d a _
@[simp] theorem putAt_units (a lo w x : Nat) : (d.putAt a lo w x).units = d.units := setWord_units d a _
@[simp] theorem putAt_aliveAt (a lo w x : Nat) : (d.putAt a lo w x).aliveAt = d.aliveAt := setWord_aliveAt d a _
@[simp] theorem putAt_alive (a lo w x : Nat) : (d.putAt a lo w x).alive = d.alive := setWord_alive d a _
@[simp] theorem putAt_hbmScrub (a lo w x : Nat) : (d.putAt a lo w x).hbmScrub = d.hbmScrub := setWord_hbmScrub d a _
@[simp] theorem putAt_dmaLast (a lo w x : Nat) : (d.putAt a lo w x).dmaLast = d.dmaLast := setWord_dmaLast d a _
@[simp] theorem putAt_rebuilt (a lo w x : Nat) : (d.putAt a lo w x).rebuilt = d.rebuilt := setWord_rebuilt d a _
@[simp] theorem putAt_talonWaits (a lo w x : Nat) : (d.putAt a lo w x).talonWaits = d.talonWaits := setWord_talonWaits d a _
@[simp] theorem putAt_tags (a lo w x : Nat) : (d.putAt a lo w x).tags = d.tags := setWord_tags d a _
@[simp] theorem putAt_chans (a lo w x : Nat) : (d.putAt a lo w x).chans = d.chans := setWord_chans d a _
@[simp] theorem putAt_qos (a lo w x : Nat) : (d.putAt a lo w x).qos = d.qos := setWord_qos d a _
@[simp] theorem putAt_auditRegs (a lo w x : Nat) : (d.putAt a lo w x).auditRegs = d.auditRegs := setWord_auditRegs d a _
@[simp] theorem putAt_leaked (a lo w x : Nat) : (d.putAt a lo w x).leaked = d.leaked := setWord_leaked d a _
@[simp] theorem putAt_overclaim (a lo w x : Nat) : (d.putAt a lo w x).overclaim = d.overclaim := setWord_overclaim d a _
@[simp] theorem putAt_lostAt (a lo w x : Nat) : (d.putAt a lo w x).lostAt = d.lostAt := setWord_lostAt d a _
@[simp] theorem putAt_witLost (a lo w x : Nat) : (d.putAt a lo w x).witLost = d.witLost := setWord_witLost d a _
@[simp] theorem putAt_witWait (a lo w x : Nat) : (d.putAt a lo w x).witWait = d.witWait := setWord_witWait d a _
@[simp] theorem putAt_mapAt (a lo w x : Nat) : (d.putAt a lo w x).mapAt = d.mapAt := setWord_mapAt d a _
@[simp] theorem putAt_oldMaps (a lo w x : Nat) : (d.putAt a lo w x).oldMaps = d.oldMaps := setWord_oldMaps d a _
@[simp] theorem putAt_relBy (a lo w x : Nat) : (d.putAt a lo w x).relBy = d.relBy := setWord_relBy d a _
@[simp] theorem putAt_scrubAt (a lo w x : Nat) : (d.putAt a lo w x).scrubAt = d.scrubAt := setWord_scrubAt d a _
@[simp] theorem putAt_scrubBad (a lo w x : Nat) : (d.putAt a lo w x).scrubBad = d.scrubBad := setWord_scrubBad d a _

@[simp] theorem put_mirror (f : Fld) (x i k j : Nat) : (d.put f x i k j).mirror = d.mirror := putAt_mirror d _ _ _ x
@[simp] theorem put_house (f : Fld) (x i k j : Nat) : (d.put f x i k j).house = d.house := putAt_house d _ _ _ x
@[simp] theorem put_inReset (f : Fld) (x i k j : Nat) : (d.put f x i k j).inReset = d.inReset := putAt_inReset d _ _ _ x
@[simp] theorem put_draws (f : Fld) (x i k j : Nat) : (d.put f x i k j).draws = d.draws := putAt_draws d _ _ _ x
@[simp] theorem put_resp (f : Fld) (x i k j : Nat) : (d.put f x i k j).resp = d.resp := putAt_resp d _ _ _ x
@[simp] theorem put_out (f : Fld) (x i k j : Nat) : (d.put f x i k j).out = d.out := putAt_out d _ _ _ x
@[simp] theorem put_loHold (f : Fld) (x i k j : Nat) : (d.put f x i k j).loHold = d.loHold := putAt_loHold d _ _ _ x
@[simp] theorem put_hiLatch (f : Fld) (x i k j : Nat) : (d.put f x i k j).hiLatch = d.hiLatch := putAt_hiLatch d _ _ _ x
@[simp] theorem put_msiPending (f : Fld) (x i k j : Nat) : (d.put f x i k j).msiPending = d.msiPending := putAt_msiPending d _ _ _ x
@[simp] theorem put_msiHeld (f : Fld) (x i k j : Nat) : (d.put f x i k j).msiHeld = d.msiHeld := putAt_msiHeld d _ _ _ x
@[simp] theorem put_msiLast (f : Fld) (x i k j : Nat) : (d.put f x i k j).msiLast = d.msiLast := putAt_msiLast d _ _ _ x
@[simp] theorem put_fences (f : Fld) (x i k j : Nat) : (d.put f x i k j).fences = d.fences := putAt_fences d _ _ _ x
@[simp] theorem put_draining (f : Fld) (x i k j : Nat) : (d.put f x i k j).draining = d.draining := putAt_draining d _ _ _ x
@[simp] theorem put_booksDue (f : Fld) (x i k j : Nat) : (d.put f x i k j).booksDue = d.booksDue := putAt_booksDue d _ _ _ x
@[simp] theorem put_snapSrc (f : Fld) (x i k j : Nat) : (d.put f x i k j).snapSrc = d.snapSrc := putAt_snapSrc d _ _ _ x
@[simp] theorem put_snapSched (f : Fld) (x i k j : Nat) : (d.put f x i k j).snapSched = d.snapSched := putAt_snapSched d _ _ _ x
@[simp] theorem put_auditE (f : Fld) (x i k j : Nat) : (d.put f x i k j).auditE = d.auditE := putAt_auditE d _ _ _ x
@[simp] theorem put_auditNoTalon (f : Fld) (x i k j : Nat) : (d.put f x i k j).auditNoTalon = d.auditNoTalon := putAt_auditNoTalon d _ _ _ x
@[simp] theorem put_auditDue (f : Fld) (x i k j : Nat) : (d.put f x i k j).auditDue = d.auditDue := putAt_auditDue d _ _ _ x
@[simp] theorem put_auditSecond (f : Fld) (x i k j : Nat) : (d.put f x i k j).auditSecond = d.auditSecond := putAt_auditSecond d _ _ _ x
@[simp] theorem put_auditFree (f : Fld) (x i k j : Nat) : (d.put f x i k j).auditFree = d.auditFree := putAt_auditFree d _ _ _ x
@[simp] theorem put_auditAlloc (f : Fld) (x i k j : Nat) : (d.put f x i k j).auditAlloc = d.auditAlloc := putAt_auditAlloc d _ _ _ x
@[simp] theorem put_talonFrozen (f : Fld) (x i k j : Nat) : (d.put f x i k j).talonFrozen = d.talonFrozen := putAt_talonFrozen d _ _ _ x
@[simp] theorem put_rebuildAsked (f : Fld) (x i k j : Nat) : (d.put f x i k j).rebuildAsked = d.rebuildAsked := putAt_rebuildAsked d _ _ _ x
@[simp] theorem put_cfgReady (f : Fld) (x i k j : Nat) : (d.put f x i k j).cfgReady = d.cfgReady := putAt_cfgReady d _ _ _ x
@[simp] theorem put_lanes (f : Fld) (x i k j : Nat) : (d.put f x i k j).lanes = d.lanes := putAt_lanes d _ _ _ x
@[simp] theorem put_bondTx (f : Fld) (x i k j : Nat) : (d.put f x i k j).bondTx = d.bondTx := putAt_bondTx d _ _ _ x
@[simp] theorem put_bondRx (f : Fld) (x i k j : Nat) : (d.put f x i k j).bondRx = d.bondRx := putAt_bondRx d _ _ _ x
@[simp] theorem put_ctxs (f : Fld) (x i k j : Nat) : (d.put f x i k j).ctxs = d.ctxs := putAt_ctxs d _ _ _ x
@[simp] theorem put_maps (f : Fld) (x i k j : Nat) : (d.put f x i k j).maps = d.maps := putAt_maps d _ _ _ x
@[simp] theorem put_releasing (f : Fld) (x i k j : Nat) : (d.put f x i k j).releasing = d.releasing := putAt_releasing d _ _ _ x
@[simp] theorem put_tiles (f : Fld) (x i k j : Nat) : (d.put f x i k j).tiles = d.tiles := putAt_tiles d _ _ _ x
@[simp] theorem put_bytes (f : Fld) (x i k j : Nat) : (d.put f x i k j).bytes = d.bytes := putAt_bytes d _ _ _ x
@[simp] theorem put_pcErrs (f : Fld) (x i k j : Nat) : (d.put f x i k j).pcErrs = d.pcErrs := putAt_pcErrs d _ _ _ x
@[simp] theorem put_moved (f : Fld) (x i k j : Nat) : (d.put f x i k j).moved = d.moved := putAt_moved d _ _ _ x
@[simp] theorem put_coefs (f : Fld) (x i k j : Nat) : (d.put f x i k j).coefs = d.coefs := putAt_coefs d _ _ _ x
@[simp] theorem put_layers (f : Fld) (x i k j : Nat) : (d.put f x i k j).layers = d.layers := putAt_layers d _ _ _ x
@[simp] theorem put_readers (f : Fld) (x i k j : Nat) : (d.put f x i k j).readers = d.readers := putAt_readers d _ _ _ x
@[simp] theorem put_heads (f : Fld) (x i k j : Nat) : (d.put f x i k j).heads = d.heads := putAt_heads d _ _ _ x
@[simp] theorem put_melds (f : Fld) (x i k j : Nat) : (d.put f x i k j).melds = d.melds := putAt_melds d _ _ _ x
@[simp] theorem put_ports (f : Fld) (x i k j : Nat) : (d.put f x i k j).ports = d.ports := putAt_ports d _ _ _ x
@[simp] theorem put_sbHpd (f : Fld) (x i k j : Nat) : (d.put f x i k j).sbHpd = d.sbHpd := putAt_sbHpd d _ _ _ x
@[simp] theorem put_videoSeqs (f : Fld) (x i k j : Nat) : (d.put f x i k j).videoSeqs = d.videoSeqs := putAt_videoSeqs d _ _ _ x
@[simp] theorem put_netBack (f : Fld) (x i k j : Nat) : (d.put f x i k j).netBack = d.netBack := putAt_netBack d _ _ _ x
@[simp] theorem put_busResp (f : Fld) (x i k j : Nat) : (d.put f x i k j).busResp = d.busResp := putAt_busResp d _ _ _ x
@[simp] theorem put_luts (f : Fld) (x i k j : Nat) : (d.put f x i k j).luts = d.luts := putAt_luts d _ _ _ x
@[simp] theorem put_recHeads (f : Fld) (x i k j : Nat) : (d.put f x i k j).recHeads = d.recHeads := putAt_recHeads d _ _ _ x
@[simp] theorem put_recRing (f : Fld) (x i k j : Nat) : (d.put f x i k j).recRing = d.recRing := putAt_recRing d _ _ _ x
@[simp] theorem put_recBytes (f : Fld) (x i k j : Nat) : (d.put f x i k j).recBytes = d.recBytes := putAt_recBytes d _ _ _ x
@[simp] theorem put_handLock (f : Fld) (x i k j : Nat) : (d.put f x i k j).handLock = d.handLock := putAt_handLock d _ _ _ x
@[simp] theorem put_engSince (f : Fld) (x i k j : Nat) : (d.put f x i k j).engSince = d.engSince := putAt_engSince d _ _ _ x
@[simp] theorem put_engBusyNs (f : Fld) (x i k j : Nat) : (d.put f x i k j).engBusyNs = d.engBusyNs := putAt_engBusyNs d _ _ _ x
@[simp] theorem put_hand (f : Fld) (x i k j : Nat) : (d.put f x i k j).hand = d.hand := putAt_hand d _ _ _ x
@[simp] theorem put_tm (f : Fld) (x i k j : Nat) : (d.put f x i k j).tm = d.tm := putAt_tm d _ _ _ x
@[simp] theorem put_relTime (f : Fld) (x i k j : Nat) : (d.put f x i k j).relTime = d.relTime := putAt_relTime d _ _ _ x
@[simp] theorem put_witChan (f : Fld) (x i k j : Nat) : (d.put f x i k j).witChan = d.witChan := putAt_witChan d _ _ _ x
@[simp] theorem put_witResume (f : Fld) (x i k j : Nat) : (d.put f x i k j).witResume = d.witResume := putAt_witResume d _ _ _ x
@[simp] theorem put_witHanded (f : Fld) (x i k j : Nat) : (d.put f x i k j).witHanded = d.witHanded := putAt_witHanded d _ _ _ x
@[simp] theorem put_witChained (f : Fld) (x i k j : Nat) : (d.put f x i k j).witChained = d.witChained := putAt_witChained d _ _ _ x
@[simp] theorem put_audio (f : Fld) (x i k j : Nat) : (d.put f x i k j).audio = d.audio := putAt_audio d _ _ _ x
@[simp] theorem put_tsends (f : Fld) (x i k j : Nat) : (d.put f x i k j).tsends = d.tsends := putAt_tsends d _ _ _ x
@[simp] theorem put_written (f : Fld) (x i k j : Nat) : (d.put f x i k j).written = d.written := putAt_written d _ _ _ x
@[simp] theorem put_deal (f : Fld) (x i k j : Nat) : (d.put f x i k j).deal = d.deal := putAt_deal d _ _ _ x
@[simp] theorem put_keys (f : Fld) (x i k j : Nat) : (d.put f x i k j).keys = d.keys := putAt_keys d _ _ _ x
@[simp] theorem put_mg (f : Fld) (x i k j : Nat) : (d.put f x i k j).mg = d.mg := putAt_mg d _ _ _ x
@[simp] theorem put_store (f : Fld) (x i k j : Nat) : (d.put f x i k j).store = d.store := putAt_store d _ _ _ x
@[simp] theorem put_doms (f : Fld) (x i k j : Nat) : (d.put f x i k j).doms = d.doms := putAt_doms d _ _ _ x
@[simp] theorem put_units (f : Fld) (x i k j : Nat) : (d.put f x i k j).units = d.units := putAt_units d _ _ _ x
@[simp] theorem put_aliveAt (f : Fld) (x i k j : Nat) : (d.put f x i k j).aliveAt = d.aliveAt := putAt_aliveAt d _ _ _ x
@[simp] theorem put_alive (f : Fld) (x i k j : Nat) : (d.put f x i k j).alive = d.alive := putAt_alive d _ _ _ x
@[simp] theorem put_hbmScrub (f : Fld) (x i k j : Nat) : (d.put f x i k j).hbmScrub = d.hbmScrub := putAt_hbmScrub d _ _ _ x
@[simp] theorem put_dmaLast (f : Fld) (x i k j : Nat) : (d.put f x i k j).dmaLast = d.dmaLast := putAt_dmaLast d _ _ _ x
@[simp] theorem put_rebuilt (f : Fld) (x i k j : Nat) : (d.put f x i k j).rebuilt = d.rebuilt := putAt_rebuilt d _ _ _ x
@[simp] theorem put_talonWaits (f : Fld) (x i k j : Nat) : (d.put f x i k j).talonWaits = d.talonWaits := putAt_talonWaits d _ _ _ x
@[simp] theorem put_tags (f : Fld) (x i k j : Nat) : (d.put f x i k j).tags = d.tags := putAt_tags d _ _ _ x
@[simp] theorem put_chans (f : Fld) (x i k j : Nat) : (d.put f x i k j).chans = d.chans := putAt_chans d _ _ _ x
@[simp] theorem put_qos (f : Fld) (x i k j : Nat) : (d.put f x i k j).qos = d.qos := putAt_qos d _ _ _ x
@[simp] theorem put_auditRegs (f : Fld) (x i k j : Nat) : (d.put f x i k j).auditRegs = d.auditRegs := putAt_auditRegs d _ _ _ x
@[simp] theorem put_leaked (f : Fld) (x i k j : Nat) : (d.put f x i k j).leaked = d.leaked := putAt_leaked d _ _ _ x
@[simp] theorem put_overclaim (f : Fld) (x i k j : Nat) : (d.put f x i k j).overclaim = d.overclaim := putAt_overclaim d _ _ _ x
@[simp] theorem put_lostAt (f : Fld) (x i k j : Nat) : (d.put f x i k j).lostAt = d.lostAt := putAt_lostAt d _ _ _ x
@[simp] theorem put_witLost (f : Fld) (x i k j : Nat) : (d.put f x i k j).witLost = d.witLost := putAt_witLost d _ _ _ x
@[simp] theorem put_witWait (f : Fld) (x i k j : Nat) : (d.put f x i k j).witWait = d.witWait := putAt_witWait d _ _ _ x
@[simp] theorem put_mapAt (f : Fld) (x i k j : Nat) : (d.put f x i k j).mapAt = d.mapAt := putAt_mapAt d _ _ _ x
@[simp] theorem put_oldMaps (f : Fld) (x i k j : Nat) : (d.put f x i k j).oldMaps = d.oldMaps := putAt_oldMaps d _ _ _ x
@[simp] theorem put_relBy (f : Fld) (x i k j : Nat) : (d.put f x i k j).relBy = d.relBy := putAt_relBy d _ _ _ x
@[simp] theorem put_scrubAt (f : Fld) (x i k j : Nat) : (d.put f x i k j).scrubAt = d.scrubAt := putAt_scrubAt d _ _ _ x
@[simp] theorem put_scrubBad (f : Fld) (x i k j : Nat) : (d.put f x i k j).scrubBad = d.scrubBad := putAt_scrubBad d _ _ _ x

@[simp] theorem putB_mirror (f : Fld) (x : Bool) (i k : Nat) : (d.putB f x i k).mirror = d.mirror := put_mirror d f _ i k 0
@[simp] theorem putB_house (f : Fld) (x : Bool) (i k : Nat) : (d.putB f x i k).house = d.house := put_house d f _ i k 0
@[simp] theorem putB_inReset (f : Fld) (x : Bool) (i k : Nat) : (d.putB f x i k).inReset = d.inReset := put_inReset d f _ i k 0
@[simp] theorem putB_draws (f : Fld) (x : Bool) (i k : Nat) : (d.putB f x i k).draws = d.draws := put_draws d f _ i k 0
@[simp] theorem putB_resp (f : Fld) (x : Bool) (i k : Nat) : (d.putB f x i k).resp = d.resp := put_resp d f _ i k 0
@[simp] theorem putB_out (f : Fld) (x : Bool) (i k : Nat) : (d.putB f x i k).out = d.out := put_out d f _ i k 0
@[simp] theorem putB_loHold (f : Fld) (x : Bool) (i k : Nat) : (d.putB f x i k).loHold = d.loHold := put_loHold d f _ i k 0
@[simp] theorem putB_hiLatch (f : Fld) (x : Bool) (i k : Nat) : (d.putB f x i k).hiLatch = d.hiLatch := put_hiLatch d f _ i k 0
@[simp] theorem putB_msiPending (f : Fld) (x : Bool) (i k : Nat) : (d.putB f x i k).msiPending = d.msiPending := put_msiPending d f _ i k 0
@[simp] theorem putB_msiHeld (f : Fld) (x : Bool) (i k : Nat) : (d.putB f x i k).msiHeld = d.msiHeld := put_msiHeld d f _ i k 0
@[simp] theorem putB_msiLast (f : Fld) (x : Bool) (i k : Nat) : (d.putB f x i k).msiLast = d.msiLast := put_msiLast d f _ i k 0
@[simp] theorem putB_fences (f : Fld) (x : Bool) (i k : Nat) : (d.putB f x i k).fences = d.fences := put_fences d f _ i k 0
@[simp] theorem putB_draining (f : Fld) (x : Bool) (i k : Nat) : (d.putB f x i k).draining = d.draining := put_draining d f _ i k 0
@[simp] theorem putB_booksDue (f : Fld) (x : Bool) (i k : Nat) : (d.putB f x i k).booksDue = d.booksDue := put_booksDue d f _ i k 0
@[simp] theorem putB_snapSrc (f : Fld) (x : Bool) (i k : Nat) : (d.putB f x i k).snapSrc = d.snapSrc := put_snapSrc d f _ i k 0
@[simp] theorem putB_snapSched (f : Fld) (x : Bool) (i k : Nat) : (d.putB f x i k).snapSched = d.snapSched := put_snapSched d f _ i k 0
@[simp] theorem putB_auditE (f : Fld) (x : Bool) (i k : Nat) : (d.putB f x i k).auditE = d.auditE := put_auditE d f _ i k 0
@[simp] theorem putB_auditNoTalon (f : Fld) (x : Bool) (i k : Nat) : (d.putB f x i k).auditNoTalon = d.auditNoTalon := put_auditNoTalon d f _ i k 0
@[simp] theorem putB_auditDue (f : Fld) (x : Bool) (i k : Nat) : (d.putB f x i k).auditDue = d.auditDue := put_auditDue d f _ i k 0
@[simp] theorem putB_auditSecond (f : Fld) (x : Bool) (i k : Nat) : (d.putB f x i k).auditSecond = d.auditSecond := put_auditSecond d f _ i k 0
@[simp] theorem putB_auditFree (f : Fld) (x : Bool) (i k : Nat) : (d.putB f x i k).auditFree = d.auditFree := put_auditFree d f _ i k 0
@[simp] theorem putB_auditAlloc (f : Fld) (x : Bool) (i k : Nat) : (d.putB f x i k).auditAlloc = d.auditAlloc := put_auditAlloc d f _ i k 0
@[simp] theorem putB_talonFrozen (f : Fld) (x : Bool) (i k : Nat) : (d.putB f x i k).talonFrozen = d.talonFrozen := put_talonFrozen d f _ i k 0
@[simp] theorem putB_rebuildAsked (f : Fld) (x : Bool) (i k : Nat) : (d.putB f x i k).rebuildAsked = d.rebuildAsked := put_rebuildAsked d f _ i k 0
@[simp] theorem putB_cfgReady (f : Fld) (x : Bool) (i k : Nat) : (d.putB f x i k).cfgReady = d.cfgReady := put_cfgReady d f _ i k 0
@[simp] theorem putB_lanes (f : Fld) (x : Bool) (i k : Nat) : (d.putB f x i k).lanes = d.lanes := put_lanes d f _ i k 0
@[simp] theorem putB_bondTx (f : Fld) (x : Bool) (i k : Nat) : (d.putB f x i k).bondTx = d.bondTx := put_bondTx d f _ i k 0
@[simp] theorem putB_bondRx (f : Fld) (x : Bool) (i k : Nat) : (d.putB f x i k).bondRx = d.bondRx := put_bondRx d f _ i k 0
@[simp] theorem putB_ctxs (f : Fld) (x : Bool) (i k : Nat) : (d.putB f x i k).ctxs = d.ctxs := put_ctxs d f _ i k 0
@[simp] theorem putB_maps (f : Fld) (x : Bool) (i k : Nat) : (d.putB f x i k).maps = d.maps := put_maps d f _ i k 0
@[simp] theorem putB_releasing (f : Fld) (x : Bool) (i k : Nat) : (d.putB f x i k).releasing = d.releasing := put_releasing d f _ i k 0
@[simp] theorem putB_tiles (f : Fld) (x : Bool) (i k : Nat) : (d.putB f x i k).tiles = d.tiles := put_tiles d f _ i k 0
@[simp] theorem putB_bytes (f : Fld) (x : Bool) (i k : Nat) : (d.putB f x i k).bytes = d.bytes := put_bytes d f _ i k 0
@[simp] theorem putB_pcErrs (f : Fld) (x : Bool) (i k : Nat) : (d.putB f x i k).pcErrs = d.pcErrs := put_pcErrs d f _ i k 0
@[simp] theorem putB_moved (f : Fld) (x : Bool) (i k : Nat) : (d.putB f x i k).moved = d.moved := put_moved d f _ i k 0
@[simp] theorem putB_coefs (f : Fld) (x : Bool) (i k : Nat) : (d.putB f x i k).coefs = d.coefs := put_coefs d f _ i k 0
@[simp] theorem putB_layers (f : Fld) (x : Bool) (i k : Nat) : (d.putB f x i k).layers = d.layers := put_layers d f _ i k 0
@[simp] theorem putB_readers (f : Fld) (x : Bool) (i k : Nat) : (d.putB f x i k).readers = d.readers := put_readers d f _ i k 0
@[simp] theorem putB_heads (f : Fld) (x : Bool) (i k : Nat) : (d.putB f x i k).heads = d.heads := put_heads d f _ i k 0
@[simp] theorem putB_melds (f : Fld) (x : Bool) (i k : Nat) : (d.putB f x i k).melds = d.melds := put_melds d f _ i k 0
@[simp] theorem putB_ports (f : Fld) (x : Bool) (i k : Nat) : (d.putB f x i k).ports = d.ports := put_ports d f _ i k 0
@[simp] theorem putB_sbHpd (f : Fld) (x : Bool) (i k : Nat) : (d.putB f x i k).sbHpd = d.sbHpd := put_sbHpd d f _ i k 0
@[simp] theorem putB_videoSeqs (f : Fld) (x : Bool) (i k : Nat) : (d.putB f x i k).videoSeqs = d.videoSeqs := put_videoSeqs d f _ i k 0
@[simp] theorem putB_netBack (f : Fld) (x : Bool) (i k : Nat) : (d.putB f x i k).netBack = d.netBack := put_netBack d f _ i k 0
@[simp] theorem putB_busResp (f : Fld) (x : Bool) (i k : Nat) : (d.putB f x i k).busResp = d.busResp := put_busResp d f _ i k 0
@[simp] theorem putB_luts (f : Fld) (x : Bool) (i k : Nat) : (d.putB f x i k).luts = d.luts := put_luts d f _ i k 0
@[simp] theorem putB_recHeads (f : Fld) (x : Bool) (i k : Nat) : (d.putB f x i k).recHeads = d.recHeads := put_recHeads d f _ i k 0
@[simp] theorem putB_recRing (f : Fld) (x : Bool) (i k : Nat) : (d.putB f x i k).recRing = d.recRing := put_recRing d f _ i k 0
@[simp] theorem putB_recBytes (f : Fld) (x : Bool) (i k : Nat) : (d.putB f x i k).recBytes = d.recBytes := put_recBytes d f _ i k 0
@[simp] theorem putB_handLock (f : Fld) (x : Bool) (i k : Nat) : (d.putB f x i k).handLock = d.handLock := put_handLock d f _ i k 0
@[simp] theorem putB_engSince (f : Fld) (x : Bool) (i k : Nat) : (d.putB f x i k).engSince = d.engSince := put_engSince d f _ i k 0
@[simp] theorem putB_engBusyNs (f : Fld) (x : Bool) (i k : Nat) : (d.putB f x i k).engBusyNs = d.engBusyNs := put_engBusyNs d f _ i k 0
@[simp] theorem putB_hand (f : Fld) (x : Bool) (i k : Nat) : (d.putB f x i k).hand = d.hand := put_hand d f _ i k 0
@[simp] theorem putB_tm (f : Fld) (x : Bool) (i k : Nat) : (d.putB f x i k).tm = d.tm := put_tm d f _ i k 0
@[simp] theorem putB_relTime (f : Fld) (x : Bool) (i k : Nat) : (d.putB f x i k).relTime = d.relTime := put_relTime d f _ i k 0
@[simp] theorem putB_witChan (f : Fld) (x : Bool) (i k : Nat) : (d.putB f x i k).witChan = d.witChan := put_witChan d f _ i k 0
@[simp] theorem putB_witResume (f : Fld) (x : Bool) (i k : Nat) : (d.putB f x i k).witResume = d.witResume := put_witResume d f _ i k 0
@[simp] theorem putB_witHanded (f : Fld) (x : Bool) (i k : Nat) : (d.putB f x i k).witHanded = d.witHanded := put_witHanded d f _ i k 0
@[simp] theorem putB_witChained (f : Fld) (x : Bool) (i k : Nat) : (d.putB f x i k).witChained = d.witChained := put_witChained d f _ i k 0
@[simp] theorem putB_audio (f : Fld) (x : Bool) (i k : Nat) : (d.putB f x i k).audio = d.audio := put_audio d f _ i k 0
@[simp] theorem putB_tsends (f : Fld) (x : Bool) (i k : Nat) : (d.putB f x i k).tsends = d.tsends := put_tsends d f _ i k 0
@[simp] theorem putB_written (f : Fld) (x : Bool) (i k : Nat) : (d.putB f x i k).written = d.written := put_written d f _ i k 0
@[simp] theorem putB_deal (f : Fld) (x : Bool) (i k : Nat) : (d.putB f x i k).deal = d.deal := put_deal d f _ i k 0
@[simp] theorem putB_keys (f : Fld) (x : Bool) (i k : Nat) : (d.putB f x i k).keys = d.keys := put_keys d f _ i k 0
@[simp] theorem putB_mg (f : Fld) (x : Bool) (i k : Nat) : (d.putB f x i k).mg = d.mg := put_mg d f _ i k 0
@[simp] theorem putB_store (f : Fld) (x : Bool) (i k : Nat) : (d.putB f x i k).store = d.store := put_store d f _ i k 0
@[simp] theorem putB_doms (f : Fld) (x : Bool) (i k : Nat) : (d.putB f x i k).doms = d.doms := put_doms d f _ i k 0
@[simp] theorem putB_units (f : Fld) (x : Bool) (i k : Nat) : (d.putB f x i k).units = d.units := put_units d f _ i k 0
@[simp] theorem putB_aliveAt (f : Fld) (x : Bool) (i k : Nat) : (d.putB f x i k).aliveAt = d.aliveAt := put_aliveAt d f _ i k 0
@[simp] theorem putB_alive (f : Fld) (x : Bool) (i k : Nat) : (d.putB f x i k).alive = d.alive := put_alive d f _ i k 0
@[simp] theorem putB_hbmScrub (f : Fld) (x : Bool) (i k : Nat) : (d.putB f x i k).hbmScrub = d.hbmScrub := put_hbmScrub d f _ i k 0
@[simp] theorem putB_dmaLast (f : Fld) (x : Bool) (i k : Nat) : (d.putB f x i k).dmaLast = d.dmaLast := put_dmaLast d f _ i k 0
@[simp] theorem putB_rebuilt (f : Fld) (x : Bool) (i k : Nat) : (d.putB f x i k).rebuilt = d.rebuilt := put_rebuilt d f _ i k 0
@[simp] theorem putB_talonWaits (f : Fld) (x : Bool) (i k : Nat) : (d.putB f x i k).talonWaits = d.talonWaits := put_talonWaits d f _ i k 0
@[simp] theorem putB_tags (f : Fld) (x : Bool) (i k : Nat) : (d.putB f x i k).tags = d.tags := put_tags d f _ i k 0
@[simp] theorem putB_chans (f : Fld) (x : Bool) (i k : Nat) : (d.putB f x i k).chans = d.chans := put_chans d f _ i k 0
@[simp] theorem putB_qos (f : Fld) (x : Bool) (i k : Nat) : (d.putB f x i k).qos = d.qos := put_qos d f _ i k 0
@[simp] theorem putB_auditRegs (f : Fld) (x : Bool) (i k : Nat) : (d.putB f x i k).auditRegs = d.auditRegs := put_auditRegs d f _ i k 0
@[simp] theorem putB_leaked (f : Fld) (x : Bool) (i k : Nat) : (d.putB f x i k).leaked = d.leaked := put_leaked d f _ i k 0
@[simp] theorem putB_overclaim (f : Fld) (x : Bool) (i k : Nat) : (d.putB f x i k).overclaim = d.overclaim := put_overclaim d f _ i k 0
@[simp] theorem putB_lostAt (f : Fld) (x : Bool) (i k : Nat) : (d.putB f x i k).lostAt = d.lostAt := put_lostAt d f _ i k 0
@[simp] theorem putB_witLost (f : Fld) (x : Bool) (i k : Nat) : (d.putB f x i k).witLost = d.witLost := put_witLost d f _ i k 0
@[simp] theorem putB_witWait (f : Fld) (x : Bool) (i k : Nat) : (d.putB f x i k).witWait = d.witWait := put_witWait d f _ i k 0
@[simp] theorem putB_mapAt (f : Fld) (x : Bool) (i k : Nat) : (d.putB f x i k).mapAt = d.mapAt := put_mapAt d f _ i k 0
@[simp] theorem putB_oldMaps (f : Fld) (x : Bool) (i k : Nat) : (d.putB f x i k).oldMaps = d.oldMaps := put_oldMaps d f _ i k 0
@[simp] theorem putB_relBy (f : Fld) (x : Bool) (i k : Nat) : (d.putB f x i k).relBy = d.relBy := put_relBy d f _ i k 0
@[simp] theorem putB_scrubAt (f : Fld) (x : Bool) (i k : Nat) : (d.putB f x i k).scrubAt = d.scrubAt := put_scrubAt d f _ i k 0
@[simp] theorem putB_scrubBad (f : Fld) (x : Bool) (i k : Nat) : (d.putB f x i k).scrubBad = d.scrubBad := put_scrubBad d f _ i k 0

@[simp] theorem count_mirror (f : Fld) (i k n : Nat) : (d.count f i k n).mirror = d.mirror := put_mirror d f _ i k 0
@[simp] theorem count_house (f : Fld) (i k n : Nat) : (d.count f i k n).house = d.house := put_house d f _ i k 0
@[simp] theorem count_inReset (f : Fld) (i k n : Nat) : (d.count f i k n).inReset = d.inReset := put_inReset d f _ i k 0
@[simp] theorem count_draws (f : Fld) (i k n : Nat) : (d.count f i k n).draws = d.draws := put_draws d f _ i k 0
@[simp] theorem count_resp (f : Fld) (i k n : Nat) : (d.count f i k n).resp = d.resp := put_resp d f _ i k 0
@[simp] theorem count_out (f : Fld) (i k n : Nat) : (d.count f i k n).out = d.out := put_out d f _ i k 0
@[simp] theorem count_loHold (f : Fld) (i k n : Nat) : (d.count f i k n).loHold = d.loHold := put_loHold d f _ i k 0
@[simp] theorem count_hiLatch (f : Fld) (i k n : Nat) : (d.count f i k n).hiLatch = d.hiLatch := put_hiLatch d f _ i k 0
@[simp] theorem count_msiPending (f : Fld) (i k n : Nat) : (d.count f i k n).msiPending = d.msiPending := put_msiPending d f _ i k 0
@[simp] theorem count_msiHeld (f : Fld) (i k n : Nat) : (d.count f i k n).msiHeld = d.msiHeld := put_msiHeld d f _ i k 0
@[simp] theorem count_msiLast (f : Fld) (i k n : Nat) : (d.count f i k n).msiLast = d.msiLast := put_msiLast d f _ i k 0
@[simp] theorem count_fences (f : Fld) (i k n : Nat) : (d.count f i k n).fences = d.fences := put_fences d f _ i k 0
@[simp] theorem count_draining (f : Fld) (i k n : Nat) : (d.count f i k n).draining = d.draining := put_draining d f _ i k 0
@[simp] theorem count_booksDue (f : Fld) (i k n : Nat) : (d.count f i k n).booksDue = d.booksDue := put_booksDue d f _ i k 0
@[simp] theorem count_snapSrc (f : Fld) (i k n : Nat) : (d.count f i k n).snapSrc = d.snapSrc := put_snapSrc d f _ i k 0
@[simp] theorem count_snapSched (f : Fld) (i k n : Nat) : (d.count f i k n).snapSched = d.snapSched := put_snapSched d f _ i k 0
@[simp] theorem count_auditE (f : Fld) (i k n : Nat) : (d.count f i k n).auditE = d.auditE := put_auditE d f _ i k 0
@[simp] theorem count_auditNoTalon (f : Fld) (i k n : Nat) : (d.count f i k n).auditNoTalon = d.auditNoTalon := put_auditNoTalon d f _ i k 0
@[simp] theorem count_auditDue (f : Fld) (i k n : Nat) : (d.count f i k n).auditDue = d.auditDue := put_auditDue d f _ i k 0
@[simp] theorem count_auditSecond (f : Fld) (i k n : Nat) : (d.count f i k n).auditSecond = d.auditSecond := put_auditSecond d f _ i k 0
@[simp] theorem count_auditFree (f : Fld) (i k n : Nat) : (d.count f i k n).auditFree = d.auditFree := put_auditFree d f _ i k 0
@[simp] theorem count_auditAlloc (f : Fld) (i k n : Nat) : (d.count f i k n).auditAlloc = d.auditAlloc := put_auditAlloc d f _ i k 0
@[simp] theorem count_talonFrozen (f : Fld) (i k n : Nat) : (d.count f i k n).talonFrozen = d.talonFrozen := put_talonFrozen d f _ i k 0
@[simp] theorem count_rebuildAsked (f : Fld) (i k n : Nat) : (d.count f i k n).rebuildAsked = d.rebuildAsked := put_rebuildAsked d f _ i k 0
@[simp] theorem count_cfgReady (f : Fld) (i k n : Nat) : (d.count f i k n).cfgReady = d.cfgReady := put_cfgReady d f _ i k 0
@[simp] theorem count_lanes (f : Fld) (i k n : Nat) : (d.count f i k n).lanes = d.lanes := put_lanes d f _ i k 0
@[simp] theorem count_bondTx (f : Fld) (i k n : Nat) : (d.count f i k n).bondTx = d.bondTx := put_bondTx d f _ i k 0
@[simp] theorem count_bondRx (f : Fld) (i k n : Nat) : (d.count f i k n).bondRx = d.bondRx := put_bondRx d f _ i k 0
@[simp] theorem count_ctxs (f : Fld) (i k n : Nat) : (d.count f i k n).ctxs = d.ctxs := put_ctxs d f _ i k 0
@[simp] theorem count_maps (f : Fld) (i k n : Nat) : (d.count f i k n).maps = d.maps := put_maps d f _ i k 0
@[simp] theorem count_releasing (f : Fld) (i k n : Nat) : (d.count f i k n).releasing = d.releasing := put_releasing d f _ i k 0
@[simp] theorem count_tiles (f : Fld) (i k n : Nat) : (d.count f i k n).tiles = d.tiles := put_tiles d f _ i k 0
@[simp] theorem count_bytes (f : Fld) (i k n : Nat) : (d.count f i k n).bytes = d.bytes := put_bytes d f _ i k 0
@[simp] theorem count_pcErrs (f : Fld) (i k n : Nat) : (d.count f i k n).pcErrs = d.pcErrs := put_pcErrs d f _ i k 0
@[simp] theorem count_moved (f : Fld) (i k n : Nat) : (d.count f i k n).moved = d.moved := put_moved d f _ i k 0
@[simp] theorem count_coefs (f : Fld) (i k n : Nat) : (d.count f i k n).coefs = d.coefs := put_coefs d f _ i k 0
@[simp] theorem count_layers (f : Fld) (i k n : Nat) : (d.count f i k n).layers = d.layers := put_layers d f _ i k 0
@[simp] theorem count_readers (f : Fld) (i k n : Nat) : (d.count f i k n).readers = d.readers := put_readers d f _ i k 0
@[simp] theorem count_heads (f : Fld) (i k n : Nat) : (d.count f i k n).heads = d.heads := put_heads d f _ i k 0
@[simp] theorem count_melds (f : Fld) (i k n : Nat) : (d.count f i k n).melds = d.melds := put_melds d f _ i k 0
@[simp] theorem count_ports (f : Fld) (i k n : Nat) : (d.count f i k n).ports = d.ports := put_ports d f _ i k 0
@[simp] theorem count_sbHpd (f : Fld) (i k n : Nat) : (d.count f i k n).sbHpd = d.sbHpd := put_sbHpd d f _ i k 0
@[simp] theorem count_videoSeqs (f : Fld) (i k n : Nat) : (d.count f i k n).videoSeqs = d.videoSeqs := put_videoSeqs d f _ i k 0
@[simp] theorem count_netBack (f : Fld) (i k n : Nat) : (d.count f i k n).netBack = d.netBack := put_netBack d f _ i k 0
@[simp] theorem count_busResp (f : Fld) (i k n : Nat) : (d.count f i k n).busResp = d.busResp := put_busResp d f _ i k 0
@[simp] theorem count_luts (f : Fld) (i k n : Nat) : (d.count f i k n).luts = d.luts := put_luts d f _ i k 0
@[simp] theorem count_recHeads (f : Fld) (i k n : Nat) : (d.count f i k n).recHeads = d.recHeads := put_recHeads d f _ i k 0
@[simp] theorem count_recRing (f : Fld) (i k n : Nat) : (d.count f i k n).recRing = d.recRing := put_recRing d f _ i k 0
@[simp] theorem count_recBytes (f : Fld) (i k n : Nat) : (d.count f i k n).recBytes = d.recBytes := put_recBytes d f _ i k 0
@[simp] theorem count_handLock (f : Fld) (i k n : Nat) : (d.count f i k n).handLock = d.handLock := put_handLock d f _ i k 0
@[simp] theorem count_engSince (f : Fld) (i k n : Nat) : (d.count f i k n).engSince = d.engSince := put_engSince d f _ i k 0
@[simp] theorem count_engBusyNs (f : Fld) (i k n : Nat) : (d.count f i k n).engBusyNs = d.engBusyNs := put_engBusyNs d f _ i k 0
@[simp] theorem count_hand (f : Fld) (i k n : Nat) : (d.count f i k n).hand = d.hand := put_hand d f _ i k 0
@[simp] theorem count_tm (f : Fld) (i k n : Nat) : (d.count f i k n).tm = d.tm := put_tm d f _ i k 0
@[simp] theorem count_relTime (f : Fld) (i k n : Nat) : (d.count f i k n).relTime = d.relTime := put_relTime d f _ i k 0
@[simp] theorem count_witChan (f : Fld) (i k n : Nat) : (d.count f i k n).witChan = d.witChan := put_witChan d f _ i k 0
@[simp] theorem count_witResume (f : Fld) (i k n : Nat) : (d.count f i k n).witResume = d.witResume := put_witResume d f _ i k 0
@[simp] theorem count_witHanded (f : Fld) (i k n : Nat) : (d.count f i k n).witHanded = d.witHanded := put_witHanded d f _ i k 0
@[simp] theorem count_witChained (f : Fld) (i k n : Nat) : (d.count f i k n).witChained = d.witChained := put_witChained d f _ i k 0
@[simp] theorem count_audio (f : Fld) (i k n : Nat) : (d.count f i k n).audio = d.audio := put_audio d f _ i k 0
@[simp] theorem count_tsends (f : Fld) (i k n : Nat) : (d.count f i k n).tsends = d.tsends := put_tsends d f _ i k 0
@[simp] theorem count_written (f : Fld) (i k n : Nat) : (d.count f i k n).written = d.written := put_written d f _ i k 0
@[simp] theorem count_deal (f : Fld) (i k n : Nat) : (d.count f i k n).deal = d.deal := put_deal d f _ i k 0
@[simp] theorem count_keys (f : Fld) (i k n : Nat) : (d.count f i k n).keys = d.keys := put_keys d f _ i k 0
@[simp] theorem count_mg (f : Fld) (i k n : Nat) : (d.count f i k n).mg = d.mg := put_mg d f _ i k 0
@[simp] theorem count_store (f : Fld) (i k n : Nat) : (d.count f i k n).store = d.store := put_store d f _ i k 0
@[simp] theorem count_doms (f : Fld) (i k n : Nat) : (d.count f i k n).doms = d.doms := put_doms d f _ i k 0
@[simp] theorem count_units (f : Fld) (i k n : Nat) : (d.count f i k n).units = d.units := put_units d f _ i k 0
@[simp] theorem count_aliveAt (f : Fld) (i k n : Nat) : (d.count f i k n).aliveAt = d.aliveAt := put_aliveAt d f _ i k 0
@[simp] theorem count_alive (f : Fld) (i k n : Nat) : (d.count f i k n).alive = d.alive := put_alive d f _ i k 0
@[simp] theorem count_hbmScrub (f : Fld) (i k n : Nat) : (d.count f i k n).hbmScrub = d.hbmScrub := put_hbmScrub d f _ i k 0
@[simp] theorem count_dmaLast (f : Fld) (i k n : Nat) : (d.count f i k n).dmaLast = d.dmaLast := put_dmaLast d f _ i k 0
@[simp] theorem count_rebuilt (f : Fld) (i k n : Nat) : (d.count f i k n).rebuilt = d.rebuilt := put_rebuilt d f _ i k 0
@[simp] theorem count_talonWaits (f : Fld) (i k n : Nat) : (d.count f i k n).talonWaits = d.talonWaits := put_talonWaits d f _ i k 0
@[simp] theorem count_tags (f : Fld) (i k n : Nat) : (d.count f i k n).tags = d.tags := put_tags d f _ i k 0
@[simp] theorem count_chans (f : Fld) (i k n : Nat) : (d.count f i k n).chans = d.chans := put_chans d f _ i k 0
@[simp] theorem count_qos (f : Fld) (i k n : Nat) : (d.count f i k n).qos = d.qos := put_qos d f _ i k 0
@[simp] theorem count_auditRegs (f : Fld) (i k n : Nat) : (d.count f i k n).auditRegs = d.auditRegs := put_auditRegs d f _ i k 0
@[simp] theorem count_leaked (f : Fld) (i k n : Nat) : (d.count f i k n).leaked = d.leaked := put_leaked d f _ i k 0
@[simp] theorem count_overclaim (f : Fld) (i k n : Nat) : (d.count f i k n).overclaim = d.overclaim := put_overclaim d f _ i k 0
@[simp] theorem count_lostAt (f : Fld) (i k n : Nat) : (d.count f i k n).lostAt = d.lostAt := put_lostAt d f _ i k 0
@[simp] theorem count_witLost (f : Fld) (i k n : Nat) : (d.count f i k n).witLost = d.witLost := put_witLost d f _ i k 0
@[simp] theorem count_witWait (f : Fld) (i k n : Nat) : (d.count f i k n).witWait = d.witWait := put_witWait d f _ i k 0
@[simp] theorem count_mapAt (f : Fld) (i k n : Nat) : (d.count f i k n).mapAt = d.mapAt := put_mapAt d f _ i k 0
@[simp] theorem count_oldMaps (f : Fld) (i k n : Nat) : (d.count f i k n).oldMaps = d.oldMaps := put_oldMaps d f _ i k 0
@[simp] theorem count_relBy (f : Fld) (i k n : Nat) : (d.count f i k n).relBy = d.relBy := put_relBy d f _ i k 0
@[simp] theorem count_scrubAt (f : Fld) (i k n : Nat) : (d.count f i k n).scrubAt = d.scrubAt := put_scrubAt d f _ i k 0
@[simp] theorem count_scrubBad (f : Fld) (i k n : Nat) : (d.count f i k n).scrubBad = d.scrubBad := put_scrubBad d f _ i k 0

@[simp] theorem put64_mirror (f : Fld) (x i k : Nat) : (d.put64 f x i k).mirror = d.mirror := (setWord_mirror _ _ _).trans (setWord_mirror d _ _)
@[simp] theorem put64_house (f : Fld) (x i k : Nat) : (d.put64 f x i k).house = d.house := (setWord_house _ _ _).trans (setWord_house d _ _)
@[simp] theorem put64_inReset (f : Fld) (x i k : Nat) : (d.put64 f x i k).inReset = d.inReset := (setWord_inReset _ _ _).trans (setWord_inReset d _ _)
@[simp] theorem put64_draws (f : Fld) (x i k : Nat) : (d.put64 f x i k).draws = d.draws := (setWord_draws _ _ _).trans (setWord_draws d _ _)
@[simp] theorem put64_resp (f : Fld) (x i k : Nat) : (d.put64 f x i k).resp = d.resp := (setWord_resp _ _ _).trans (setWord_resp d _ _)
@[simp] theorem put64_out (f : Fld) (x i k : Nat) : (d.put64 f x i k).out = d.out := (setWord_out _ _ _).trans (setWord_out d _ _)
@[simp] theorem put64_loHold (f : Fld) (x i k : Nat) : (d.put64 f x i k).loHold = d.loHold := (setWord_loHold _ _ _).trans (setWord_loHold d _ _)
@[simp] theorem put64_hiLatch (f : Fld) (x i k : Nat) : (d.put64 f x i k).hiLatch = d.hiLatch := (setWord_hiLatch _ _ _).trans (setWord_hiLatch d _ _)
@[simp] theorem put64_msiPending (f : Fld) (x i k : Nat) : (d.put64 f x i k).msiPending = d.msiPending := (setWord_msiPending _ _ _).trans (setWord_msiPending d _ _)
@[simp] theorem put64_msiHeld (f : Fld) (x i k : Nat) : (d.put64 f x i k).msiHeld = d.msiHeld := (setWord_msiHeld _ _ _).trans (setWord_msiHeld d _ _)
@[simp] theorem put64_msiLast (f : Fld) (x i k : Nat) : (d.put64 f x i k).msiLast = d.msiLast := (setWord_msiLast _ _ _).trans (setWord_msiLast d _ _)
@[simp] theorem put64_fences (f : Fld) (x i k : Nat) : (d.put64 f x i k).fences = d.fences := (setWord_fences _ _ _).trans (setWord_fences d _ _)
@[simp] theorem put64_draining (f : Fld) (x i k : Nat) : (d.put64 f x i k).draining = d.draining := (setWord_draining _ _ _).trans (setWord_draining d _ _)
@[simp] theorem put64_booksDue (f : Fld) (x i k : Nat) : (d.put64 f x i k).booksDue = d.booksDue := (setWord_booksDue _ _ _).trans (setWord_booksDue d _ _)
@[simp] theorem put64_snapSrc (f : Fld) (x i k : Nat) : (d.put64 f x i k).snapSrc = d.snapSrc := (setWord_snapSrc _ _ _).trans (setWord_snapSrc d _ _)
@[simp] theorem put64_snapSched (f : Fld) (x i k : Nat) : (d.put64 f x i k).snapSched = d.snapSched := (setWord_snapSched _ _ _).trans (setWord_snapSched d _ _)
@[simp] theorem put64_auditE (f : Fld) (x i k : Nat) : (d.put64 f x i k).auditE = d.auditE := (setWord_auditE _ _ _).trans (setWord_auditE d _ _)
@[simp] theorem put64_auditNoTalon (f : Fld) (x i k : Nat) : (d.put64 f x i k).auditNoTalon = d.auditNoTalon := (setWord_auditNoTalon _ _ _).trans (setWord_auditNoTalon d _ _)
@[simp] theorem put64_auditDue (f : Fld) (x i k : Nat) : (d.put64 f x i k).auditDue = d.auditDue := (setWord_auditDue _ _ _).trans (setWord_auditDue d _ _)
@[simp] theorem put64_auditSecond (f : Fld) (x i k : Nat) : (d.put64 f x i k).auditSecond = d.auditSecond := (setWord_auditSecond _ _ _).trans (setWord_auditSecond d _ _)
@[simp] theorem put64_auditFree (f : Fld) (x i k : Nat) : (d.put64 f x i k).auditFree = d.auditFree := (setWord_auditFree _ _ _).trans (setWord_auditFree d _ _)
@[simp] theorem put64_auditAlloc (f : Fld) (x i k : Nat) : (d.put64 f x i k).auditAlloc = d.auditAlloc := (setWord_auditAlloc _ _ _).trans (setWord_auditAlloc d _ _)
@[simp] theorem put64_talonFrozen (f : Fld) (x i k : Nat) : (d.put64 f x i k).talonFrozen = d.talonFrozen := (setWord_talonFrozen _ _ _).trans (setWord_talonFrozen d _ _)
@[simp] theorem put64_rebuildAsked (f : Fld) (x i k : Nat) : (d.put64 f x i k).rebuildAsked = d.rebuildAsked := (setWord_rebuildAsked _ _ _).trans (setWord_rebuildAsked d _ _)
@[simp] theorem put64_cfgReady (f : Fld) (x i k : Nat) : (d.put64 f x i k).cfgReady = d.cfgReady := (setWord_cfgReady _ _ _).trans (setWord_cfgReady d _ _)
@[simp] theorem put64_lanes (f : Fld) (x i k : Nat) : (d.put64 f x i k).lanes = d.lanes := (setWord_lanes _ _ _).trans (setWord_lanes d _ _)
@[simp] theorem put64_bondTx (f : Fld) (x i k : Nat) : (d.put64 f x i k).bondTx = d.bondTx := (setWord_bondTx _ _ _).trans (setWord_bondTx d _ _)
@[simp] theorem put64_bondRx (f : Fld) (x i k : Nat) : (d.put64 f x i k).bondRx = d.bondRx := (setWord_bondRx _ _ _).trans (setWord_bondRx d _ _)
@[simp] theorem put64_ctxs (f : Fld) (x i k : Nat) : (d.put64 f x i k).ctxs = d.ctxs := (setWord_ctxs _ _ _).trans (setWord_ctxs d _ _)
@[simp] theorem put64_maps (f : Fld) (x i k : Nat) : (d.put64 f x i k).maps = d.maps := (setWord_maps _ _ _).trans (setWord_maps d _ _)
@[simp] theorem put64_releasing (f : Fld) (x i k : Nat) : (d.put64 f x i k).releasing = d.releasing := (setWord_releasing _ _ _).trans (setWord_releasing d _ _)
@[simp] theorem put64_tiles (f : Fld) (x i k : Nat) : (d.put64 f x i k).tiles = d.tiles := (setWord_tiles _ _ _).trans (setWord_tiles d _ _)
@[simp] theorem put64_bytes (f : Fld) (x i k : Nat) : (d.put64 f x i k).bytes = d.bytes := (setWord_bytes _ _ _).trans (setWord_bytes d _ _)
@[simp] theorem put64_pcErrs (f : Fld) (x i k : Nat) : (d.put64 f x i k).pcErrs = d.pcErrs := (setWord_pcErrs _ _ _).trans (setWord_pcErrs d _ _)
@[simp] theorem put64_moved (f : Fld) (x i k : Nat) : (d.put64 f x i k).moved = d.moved := (setWord_moved _ _ _).trans (setWord_moved d _ _)
@[simp] theorem put64_coefs (f : Fld) (x i k : Nat) : (d.put64 f x i k).coefs = d.coefs := (setWord_coefs _ _ _).trans (setWord_coefs d _ _)
@[simp] theorem put64_layers (f : Fld) (x i k : Nat) : (d.put64 f x i k).layers = d.layers := (setWord_layers _ _ _).trans (setWord_layers d _ _)
@[simp] theorem put64_readers (f : Fld) (x i k : Nat) : (d.put64 f x i k).readers = d.readers := (setWord_readers _ _ _).trans (setWord_readers d _ _)
@[simp] theorem put64_heads (f : Fld) (x i k : Nat) : (d.put64 f x i k).heads = d.heads := (setWord_heads _ _ _).trans (setWord_heads d _ _)
@[simp] theorem put64_melds (f : Fld) (x i k : Nat) : (d.put64 f x i k).melds = d.melds := (setWord_melds _ _ _).trans (setWord_melds d _ _)
@[simp] theorem put64_ports (f : Fld) (x i k : Nat) : (d.put64 f x i k).ports = d.ports := (setWord_ports _ _ _).trans (setWord_ports d _ _)
@[simp] theorem put64_sbHpd (f : Fld) (x i k : Nat) : (d.put64 f x i k).sbHpd = d.sbHpd := (setWord_sbHpd _ _ _).trans (setWord_sbHpd d _ _)
@[simp] theorem put64_videoSeqs (f : Fld) (x i k : Nat) : (d.put64 f x i k).videoSeqs = d.videoSeqs := (setWord_videoSeqs _ _ _).trans (setWord_videoSeqs d _ _)
@[simp] theorem put64_netBack (f : Fld) (x i k : Nat) : (d.put64 f x i k).netBack = d.netBack := (setWord_netBack _ _ _).trans (setWord_netBack d _ _)
@[simp] theorem put64_busResp (f : Fld) (x i k : Nat) : (d.put64 f x i k).busResp = d.busResp := (setWord_busResp _ _ _).trans (setWord_busResp d _ _)
@[simp] theorem put64_luts (f : Fld) (x i k : Nat) : (d.put64 f x i k).luts = d.luts := (setWord_luts _ _ _).trans (setWord_luts d _ _)
@[simp] theorem put64_recHeads (f : Fld) (x i k : Nat) : (d.put64 f x i k).recHeads = d.recHeads := (setWord_recHeads _ _ _).trans (setWord_recHeads d _ _)
@[simp] theorem put64_recRing (f : Fld) (x i k : Nat) : (d.put64 f x i k).recRing = d.recRing := (setWord_recRing _ _ _).trans (setWord_recRing d _ _)
@[simp] theorem put64_recBytes (f : Fld) (x i k : Nat) : (d.put64 f x i k).recBytes = d.recBytes := (setWord_recBytes _ _ _).trans (setWord_recBytes d _ _)
@[simp] theorem put64_handLock (f : Fld) (x i k : Nat) : (d.put64 f x i k).handLock = d.handLock := (setWord_handLock _ _ _).trans (setWord_handLock d _ _)
@[simp] theorem put64_engSince (f : Fld) (x i k : Nat) : (d.put64 f x i k).engSince = d.engSince := (setWord_engSince _ _ _).trans (setWord_engSince d _ _)
@[simp] theorem put64_engBusyNs (f : Fld) (x i k : Nat) : (d.put64 f x i k).engBusyNs = d.engBusyNs := (setWord_engBusyNs _ _ _).trans (setWord_engBusyNs d _ _)
@[simp] theorem put64_hand (f : Fld) (x i k : Nat) : (d.put64 f x i k).hand = d.hand := (setWord_hand _ _ _).trans (setWord_hand d _ _)
@[simp] theorem put64_tm (f : Fld) (x i k : Nat) : (d.put64 f x i k).tm = d.tm := (setWord_tm _ _ _).trans (setWord_tm d _ _)
@[simp] theorem put64_relTime (f : Fld) (x i k : Nat) : (d.put64 f x i k).relTime = d.relTime := (setWord_relTime _ _ _).trans (setWord_relTime d _ _)
@[simp] theorem put64_witChan (f : Fld) (x i k : Nat) : (d.put64 f x i k).witChan = d.witChan := (setWord_witChan _ _ _).trans (setWord_witChan d _ _)
@[simp] theorem put64_witResume (f : Fld) (x i k : Nat) : (d.put64 f x i k).witResume = d.witResume := (setWord_witResume _ _ _).trans (setWord_witResume d _ _)
@[simp] theorem put64_witHanded (f : Fld) (x i k : Nat) : (d.put64 f x i k).witHanded = d.witHanded := (setWord_witHanded _ _ _).trans (setWord_witHanded d _ _)
@[simp] theorem put64_witChained (f : Fld) (x i k : Nat) : (d.put64 f x i k).witChained = d.witChained := (setWord_witChained _ _ _).trans (setWord_witChained d _ _)
@[simp] theorem put64_audio (f : Fld) (x i k : Nat) : (d.put64 f x i k).audio = d.audio := (setWord_audio _ _ _).trans (setWord_audio d _ _)
@[simp] theorem put64_tsends (f : Fld) (x i k : Nat) : (d.put64 f x i k).tsends = d.tsends := (setWord_tsends _ _ _).trans (setWord_tsends d _ _)
@[simp] theorem put64_written (f : Fld) (x i k : Nat) : (d.put64 f x i k).written = d.written := (setWord_written _ _ _).trans (setWord_written d _ _)
@[simp] theorem put64_deal (f : Fld) (x i k : Nat) : (d.put64 f x i k).deal = d.deal := (setWord_deal _ _ _).trans (setWord_deal d _ _)
@[simp] theorem put64_keys (f : Fld) (x i k : Nat) : (d.put64 f x i k).keys = d.keys := (setWord_keys _ _ _).trans (setWord_keys d _ _)
@[simp] theorem put64_mg (f : Fld) (x i k : Nat) : (d.put64 f x i k).mg = d.mg := (setWord_mg _ _ _).trans (setWord_mg d _ _)
@[simp] theorem put64_store (f : Fld) (x i k : Nat) : (d.put64 f x i k).store = d.store := (setWord_store _ _ _).trans (setWord_store d _ _)
@[simp] theorem put64_doms (f : Fld) (x i k : Nat) : (d.put64 f x i k).doms = d.doms := (setWord_doms _ _ _).trans (setWord_doms d _ _)
@[simp] theorem put64_units (f : Fld) (x i k : Nat) : (d.put64 f x i k).units = d.units := (setWord_units _ _ _).trans (setWord_units d _ _)
@[simp] theorem put64_aliveAt (f : Fld) (x i k : Nat) : (d.put64 f x i k).aliveAt = d.aliveAt := (setWord_aliveAt _ _ _).trans (setWord_aliveAt d _ _)
@[simp] theorem put64_alive (f : Fld) (x i k : Nat) : (d.put64 f x i k).alive = d.alive := (setWord_alive _ _ _).trans (setWord_alive d _ _)
@[simp] theorem put64_hbmScrub (f : Fld) (x i k : Nat) : (d.put64 f x i k).hbmScrub = d.hbmScrub := (setWord_hbmScrub _ _ _).trans (setWord_hbmScrub d _ _)
@[simp] theorem put64_dmaLast (f : Fld) (x i k : Nat) : (d.put64 f x i k).dmaLast = d.dmaLast := (setWord_dmaLast _ _ _).trans (setWord_dmaLast d _ _)
@[simp] theorem put64_rebuilt (f : Fld) (x i k : Nat) : (d.put64 f x i k).rebuilt = d.rebuilt := (setWord_rebuilt _ _ _).trans (setWord_rebuilt d _ _)
@[simp] theorem put64_talonWaits (f : Fld) (x i k : Nat) : (d.put64 f x i k).talonWaits = d.talonWaits := (setWord_talonWaits _ _ _).trans (setWord_talonWaits d _ _)
@[simp] theorem put64_tags (f : Fld) (x i k : Nat) : (d.put64 f x i k).tags = d.tags := (setWord_tags _ _ _).trans (setWord_tags d _ _)
@[simp] theorem put64_chans (f : Fld) (x i k : Nat) : (d.put64 f x i k).chans = d.chans := (setWord_chans _ _ _).trans (setWord_chans d _ _)
@[simp] theorem put64_qos (f : Fld) (x i k : Nat) : (d.put64 f x i k).qos = d.qos := (setWord_qos _ _ _).trans (setWord_qos d _ _)
@[simp] theorem put64_auditRegs (f : Fld) (x i k : Nat) : (d.put64 f x i k).auditRegs = d.auditRegs := (setWord_auditRegs _ _ _).trans (setWord_auditRegs d _ _)
@[simp] theorem put64_leaked (f : Fld) (x i k : Nat) : (d.put64 f x i k).leaked = d.leaked := (setWord_leaked _ _ _).trans (setWord_leaked d _ _)
@[simp] theorem put64_overclaim (f : Fld) (x i k : Nat) : (d.put64 f x i k).overclaim = d.overclaim := (setWord_overclaim _ _ _).trans (setWord_overclaim d _ _)
@[simp] theorem put64_lostAt (f : Fld) (x i k : Nat) : (d.put64 f x i k).lostAt = d.lostAt := (setWord_lostAt _ _ _).trans (setWord_lostAt d _ _)
@[simp] theorem put64_witLost (f : Fld) (x i k : Nat) : (d.put64 f x i k).witLost = d.witLost := (setWord_witLost _ _ _).trans (setWord_witLost d _ _)
@[simp] theorem put64_witWait (f : Fld) (x i k : Nat) : (d.put64 f x i k).witWait = d.witWait := (setWord_witWait _ _ _).trans (setWord_witWait d _ _)
@[simp] theorem put64_mapAt (f : Fld) (x i k : Nat) : (d.put64 f x i k).mapAt = d.mapAt := (setWord_mapAt _ _ _).trans (setWord_mapAt d _ _)
@[simp] theorem put64_oldMaps (f : Fld) (x i k : Nat) : (d.put64 f x i k).oldMaps = d.oldMaps := (setWord_oldMaps _ _ _).trans (setWord_oldMaps d _ _)
@[simp] theorem put64_relBy (f : Fld) (x i k : Nat) : (d.put64 f x i k).relBy = d.relBy := (setWord_relBy _ _ _).trans (setWord_relBy d _ _)
@[simp] theorem put64_scrubAt (f : Fld) (x i k : Nat) : (d.put64 f x i k).scrubAt = d.scrubAt := (setWord_scrubAt _ _ _).trans (setWord_scrubAt d _ _)
@[simp] theorem put64_scrubBad (f : Fld) (x i k : Nat) : (d.put64 f x i k).scrubBad = d.scrubBad := (setWord_scrubBad _ _ _).trans (setWord_scrubBad d _ _)

/-! The time of a command, and an emission. -/

@[simp] theorem atTime_regs (t : Nat) : (d.atTime t).regs = d.regs := rfl
@[simp] theorem atTime_mirror (t : Nat) : (d.atTime t).mirror = d.mirror := rfl
@[simp] theorem atTime_inReset (t : Nat) : (d.atTime t).inReset = d.inReset := rfl
@[simp] theorem atTime_draws (t : Nat) : (d.atTime t).draws = d.draws := rfl
@[simp] theorem atTime_resp (t : Nat) : (d.atTime t).resp = d.resp := rfl
@[simp] theorem atTime_out (t : Nat) : (d.atTime t).out = d.out := rfl
@[simp] theorem atTime_loHold (t : Nat) : (d.atTime t).loHold = d.loHold := rfl
@[simp] theorem atTime_hiLatch (t : Nat) : (d.atTime t).hiLatch = d.hiLatch := rfl
@[simp] theorem atTime_msiPending (t : Nat) : (d.atTime t).msiPending = d.msiPending := rfl
@[simp] theorem atTime_msiHeld (t : Nat) : (d.atTime t).msiHeld = d.msiHeld := rfl
@[simp] theorem atTime_msiLast (t : Nat) : (d.atTime t).msiLast = d.msiLast := rfl
@[simp] theorem atTime_fences (t : Nat) : (d.atTime t).fences = d.fences := rfl
@[simp] theorem atTime_draining (t : Nat) : (d.atTime t).draining = d.draining := rfl
@[simp] theorem atTime_booksDue (t : Nat) : (d.atTime t).booksDue = d.booksDue := rfl
@[simp] theorem atTime_snapSrc (t : Nat) : (d.atTime t).snapSrc = d.snapSrc := rfl
@[simp] theorem atTime_snapSched (t : Nat) : (d.atTime t).snapSched = d.snapSched := rfl
@[simp] theorem atTime_auditE (t : Nat) : (d.atTime t).auditE = d.auditE := rfl
@[simp] theorem atTime_auditNoTalon (t : Nat) : (d.atTime t).auditNoTalon = d.auditNoTalon := rfl
@[simp] theorem atTime_auditDue (t : Nat) : (d.atTime t).auditDue = d.auditDue := rfl
@[simp] theorem atTime_auditSecond (t : Nat) : (d.atTime t).auditSecond = d.auditSecond := rfl
@[simp] theorem atTime_auditFree (t : Nat) : (d.atTime t).auditFree = d.auditFree := rfl
@[simp] theorem atTime_auditAlloc (t : Nat) : (d.atTime t).auditAlloc = d.auditAlloc := rfl
@[simp] theorem atTime_talonFrozen (t : Nat) : (d.atTime t).talonFrozen = d.talonFrozen := rfl
@[simp] theorem atTime_rebuildAsked (t : Nat) : (d.atTime t).rebuildAsked = d.rebuildAsked := rfl
@[simp] theorem atTime_cfgReady (t : Nat) : (d.atTime t).cfgReady = d.cfgReady := rfl
@[simp] theorem atTime_lanes (t : Nat) : (d.atTime t).lanes = d.lanes := rfl
@[simp] theorem atTime_bondTx (t : Nat) : (d.atTime t).bondTx = d.bondTx := rfl
@[simp] theorem atTime_bondRx (t : Nat) : (d.atTime t).bondRx = d.bondRx := rfl
@[simp] theorem atTime_ctxs (t : Nat) : (d.atTime t).ctxs = d.ctxs := rfl
@[simp] theorem atTime_maps (t : Nat) : (d.atTime t).maps = d.maps := rfl
@[simp] theorem atTime_releasing (t : Nat) : (d.atTime t).releasing = d.releasing := rfl
@[simp] theorem atTime_tiles (t : Nat) : (d.atTime t).tiles = d.tiles := rfl
@[simp] theorem atTime_bytes (t : Nat) : (d.atTime t).bytes = d.bytes := rfl
@[simp] theorem atTime_pcErrs (t : Nat) : (d.atTime t).pcErrs = d.pcErrs := rfl
@[simp] theorem atTime_moved (t : Nat) : (d.atTime t).moved = d.moved := rfl
@[simp] theorem atTime_coefs (t : Nat) : (d.atTime t).coefs = d.coefs := rfl
@[simp] theorem atTime_layers (t : Nat) : (d.atTime t).layers = d.layers := rfl
@[simp] theorem atTime_readers (t : Nat) : (d.atTime t).readers = d.readers := rfl
@[simp] theorem atTime_heads (t : Nat) : (d.atTime t).heads = d.heads := rfl
@[simp] theorem atTime_melds (t : Nat) : (d.atTime t).melds = d.melds := rfl
@[simp] theorem atTime_ports (t : Nat) : (d.atTime t).ports = d.ports := rfl
@[simp] theorem atTime_sbHpd (t : Nat) : (d.atTime t).sbHpd = d.sbHpd := rfl
@[simp] theorem atTime_videoSeqs (t : Nat) : (d.atTime t).videoSeqs = d.videoSeqs := rfl
@[simp] theorem atTime_netBack (t : Nat) : (d.atTime t).netBack = d.netBack := rfl
@[simp] theorem atTime_busResp (t : Nat) : (d.atTime t).busResp = d.busResp := rfl
@[simp] theorem atTime_luts (t : Nat) : (d.atTime t).luts = d.luts := rfl
@[simp] theorem atTime_recHeads (t : Nat) : (d.atTime t).recHeads = d.recHeads := rfl
@[simp] theorem atTime_recRing (t : Nat) : (d.atTime t).recRing = d.recRing := rfl
@[simp] theorem atTime_recBytes (t : Nat) : (d.atTime t).recBytes = d.recBytes := rfl
@[simp] theorem atTime_handLock (t : Nat) : (d.atTime t).handLock = d.handLock := rfl
@[simp] theorem atTime_engSince (t : Nat) : (d.atTime t).engSince = d.engSince := rfl
@[simp] theorem atTime_engBusyNs (t : Nat) : (d.atTime t).engBusyNs = d.engBusyNs := rfl
@[simp] theorem atTime_hand (t : Nat) : (d.atTime t).hand = d.hand := rfl
@[simp] theorem atTime_tm (t : Nat) : (d.atTime t).tm = d.tm := rfl
@[simp] theorem atTime_relTime (t : Nat) : (d.atTime t).relTime = d.relTime := rfl
@[simp] theorem atTime_witChan (t : Nat) : (d.atTime t).witChan = d.witChan := rfl
@[simp] theorem atTime_witResume (t : Nat) : (d.atTime t).witResume = d.witResume := rfl
@[simp] theorem atTime_witHanded (t : Nat) : (d.atTime t).witHanded = d.witHanded := rfl
@[simp] theorem atTime_witChained (t : Nat) : (d.atTime t).witChained = d.witChained := rfl
@[simp] theorem atTime_audio (t : Nat) : (d.atTime t).audio = d.audio := rfl
@[simp] theorem atTime_tsends (t : Nat) : (d.atTime t).tsends = d.tsends := rfl
@[simp] theorem atTime_written (t : Nat) : (d.atTime t).written = d.written := rfl
@[simp] theorem atTime_deal (t : Nat) : (d.atTime t).deal = d.deal := rfl
@[simp] theorem atTime_keys (t : Nat) : (d.atTime t).keys = d.keys := rfl
@[simp] theorem atTime_mg (t : Nat) : (d.atTime t).mg = d.mg := rfl
@[simp] theorem atTime_store (t : Nat) : (d.atTime t).store = d.store := rfl
@[simp] theorem atTime_doms (t : Nat) : (d.atTime t).doms = d.doms := rfl
@[simp] theorem atTime_units (t : Nat) : (d.atTime t).units = d.units := rfl
@[simp] theorem atTime_aliveAt (t : Nat) : (d.atTime t).aliveAt = d.aliveAt := rfl
@[simp] theorem atTime_alive (t : Nat) : (d.atTime t).alive = d.alive := rfl
@[simp] theorem atTime_hbmScrub (t : Nat) : (d.atTime t).hbmScrub = d.hbmScrub := rfl
@[simp] theorem atTime_dmaLast (t : Nat) : (d.atTime t).dmaLast = d.dmaLast := rfl
@[simp] theorem atTime_rebuilt (t : Nat) : (d.atTime t).rebuilt = d.rebuilt := rfl
@[simp] theorem atTime_talonWaits (t : Nat) : (d.atTime t).talonWaits = d.talonWaits := rfl
@[simp] theorem atTime_tags (t : Nat) : (d.atTime t).tags = d.tags := rfl
@[simp] theorem atTime_chans (t : Nat) : (d.atTime t).chans = d.chans := rfl
@[simp] theorem atTime_qos (t : Nat) : (d.atTime t).qos = d.qos := rfl
@[simp] theorem atTime_auditRegs (t : Nat) : (d.atTime t).auditRegs = d.auditRegs := rfl
@[simp] theorem atTime_leaked (t : Nat) : (d.atTime t).leaked = d.leaked := rfl
@[simp] theorem atTime_overclaim (t : Nat) : (d.atTime t).overclaim = d.overclaim := rfl
@[simp] theorem atTime_lostAt (t : Nat) : (d.atTime t).lostAt = d.lostAt := rfl
@[simp] theorem atTime_witLost (t : Nat) : (d.atTime t).witLost = d.witLost := rfl
@[simp] theorem atTime_witWait (t : Nat) : (d.atTime t).witWait = d.witWait := rfl
@[simp] theorem atTime_mapAt (t : Nat) : (d.atTime t).mapAt = d.mapAt := rfl
@[simp] theorem atTime_oldMaps (t : Nat) : (d.atTime t).oldMaps = d.oldMaps := rfl
@[simp] theorem atTime_relBy (t : Nat) : (d.atTime t).relBy = d.relBy := rfl
@[simp] theorem atTime_scrubAt (t : Nat) : (d.atTime t).scrubAt = d.scrubAt := rfl
@[simp] theorem atTime_scrubBad (t : Nat) : (d.atTime t).scrubBad = d.scrubBad := rfl
@[simp] theorem atTime_house (t : Nat) : (d.atTime t).house = max d.house t := rfl

@[simp] theorem emit_regs (o : Out) : (d.emit o).regs = d.regs := rfl
@[simp] theorem emit_mirror (o : Out) : (d.emit o).mirror = d.mirror := rfl
@[simp] theorem emit_house (o : Out) : (d.emit o).house = d.house := rfl
@[simp] theorem emit_inReset (o : Out) : (d.emit o).inReset = d.inReset := rfl
@[simp] theorem emit_draws (o : Out) : (d.emit o).draws = d.draws := rfl
@[simp] theorem emit_resp (o : Out) : (d.emit o).resp = d.resp := rfl
@[simp] theorem emit_loHold (o : Out) : (d.emit o).loHold = d.loHold := rfl
@[simp] theorem emit_hiLatch (o : Out) : (d.emit o).hiLatch = d.hiLatch := rfl
@[simp] theorem emit_msiPending (o : Out) : (d.emit o).msiPending = d.msiPending := rfl
@[simp] theorem emit_msiHeld (o : Out) : (d.emit o).msiHeld = d.msiHeld := rfl
@[simp] theorem emit_msiLast (o : Out) : (d.emit o).msiLast = d.msiLast := rfl
@[simp] theorem emit_fences (o : Out) : (d.emit o).fences = d.fences := rfl
@[simp] theorem emit_draining (o : Out) : (d.emit o).draining = d.draining := rfl
@[simp] theorem emit_booksDue (o : Out) : (d.emit o).booksDue = d.booksDue := rfl
@[simp] theorem emit_snapSrc (o : Out) : (d.emit o).snapSrc = d.snapSrc := rfl
@[simp] theorem emit_snapSched (o : Out) : (d.emit o).snapSched = d.snapSched := rfl
@[simp] theorem emit_auditE (o : Out) : (d.emit o).auditE = d.auditE := rfl
@[simp] theorem emit_auditNoTalon (o : Out) : (d.emit o).auditNoTalon = d.auditNoTalon := rfl
@[simp] theorem emit_auditDue (o : Out) : (d.emit o).auditDue = d.auditDue := rfl
@[simp] theorem emit_auditSecond (o : Out) : (d.emit o).auditSecond = d.auditSecond := rfl
@[simp] theorem emit_auditFree (o : Out) : (d.emit o).auditFree = d.auditFree := rfl
@[simp] theorem emit_auditAlloc (o : Out) : (d.emit o).auditAlloc = d.auditAlloc := rfl
@[simp] theorem emit_talonFrozen (o : Out) : (d.emit o).talonFrozen = d.talonFrozen := rfl
@[simp] theorem emit_rebuildAsked (o : Out) : (d.emit o).rebuildAsked = d.rebuildAsked := rfl
@[simp] theorem emit_cfgReady (o : Out) : (d.emit o).cfgReady = d.cfgReady := rfl
@[simp] theorem emit_lanes (o : Out) : (d.emit o).lanes = d.lanes := rfl
@[simp] theorem emit_bondTx (o : Out) : (d.emit o).bondTx = d.bondTx := rfl
@[simp] theorem emit_bondRx (o : Out) : (d.emit o).bondRx = d.bondRx := rfl
@[simp] theorem emit_ctxs (o : Out) : (d.emit o).ctxs = d.ctxs := rfl
@[simp] theorem emit_maps (o : Out) : (d.emit o).maps = d.maps := rfl
@[simp] theorem emit_releasing (o : Out) : (d.emit o).releasing = d.releasing := rfl
@[simp] theorem emit_tiles (o : Out) : (d.emit o).tiles = d.tiles := rfl
@[simp] theorem emit_bytes (o : Out) : (d.emit o).bytes = d.bytes := rfl
@[simp] theorem emit_pcErrs (o : Out) : (d.emit o).pcErrs = d.pcErrs := rfl
@[simp] theorem emit_moved (o : Out) : (d.emit o).moved = d.moved := rfl
@[simp] theorem emit_coefs (o : Out) : (d.emit o).coefs = d.coefs := rfl
@[simp] theorem emit_layers (o : Out) : (d.emit o).layers = d.layers := rfl
@[simp] theorem emit_readers (o : Out) : (d.emit o).readers = d.readers := rfl
@[simp] theorem emit_heads (o : Out) : (d.emit o).heads = d.heads := rfl
@[simp] theorem emit_melds (o : Out) : (d.emit o).melds = d.melds := rfl
@[simp] theorem emit_ports (o : Out) : (d.emit o).ports = d.ports := rfl
@[simp] theorem emit_sbHpd (o : Out) : (d.emit o).sbHpd = d.sbHpd := rfl
@[simp] theorem emit_videoSeqs (o : Out) : (d.emit o).videoSeqs = d.videoSeqs := rfl
@[simp] theorem emit_netBack (o : Out) : (d.emit o).netBack = d.netBack := rfl
@[simp] theorem emit_busResp (o : Out) : (d.emit o).busResp = d.busResp := rfl
@[simp] theorem emit_luts (o : Out) : (d.emit o).luts = d.luts := rfl
@[simp] theorem emit_recHeads (o : Out) : (d.emit o).recHeads = d.recHeads := rfl
@[simp] theorem emit_recRing (o : Out) : (d.emit o).recRing = d.recRing := rfl
@[simp] theorem emit_recBytes (o : Out) : (d.emit o).recBytes = d.recBytes := rfl
@[simp] theorem emit_handLock (o : Out) : (d.emit o).handLock = d.handLock := rfl
@[simp] theorem emit_engSince (o : Out) : (d.emit o).engSince = d.engSince := rfl
@[simp] theorem emit_engBusyNs (o : Out) : (d.emit o).engBusyNs = d.engBusyNs := rfl
@[simp] theorem emit_hand (o : Out) : (d.emit o).hand = d.hand := rfl
@[simp] theorem emit_tm (o : Out) : (d.emit o).tm = d.tm := rfl
@[simp] theorem emit_relTime (o : Out) : (d.emit o).relTime = d.relTime := rfl
@[simp] theorem emit_witChan (o : Out) : (d.emit o).witChan = d.witChan := rfl
@[simp] theorem emit_witResume (o : Out) : (d.emit o).witResume = d.witResume := rfl
@[simp] theorem emit_witHanded (o : Out) : (d.emit o).witHanded = d.witHanded := rfl
@[simp] theorem emit_witChained (o : Out) : (d.emit o).witChained = d.witChained := rfl
@[simp] theorem emit_audio (o : Out) : (d.emit o).audio = d.audio := rfl
@[simp] theorem emit_tsends (o : Out) : (d.emit o).tsends = d.tsends := rfl
@[simp] theorem emit_written (o : Out) : (d.emit o).written = d.written := rfl
@[simp] theorem emit_deal (o : Out) : (d.emit o).deal = d.deal := rfl
@[simp] theorem emit_keys (o : Out) : (d.emit o).keys = d.keys := rfl
@[simp] theorem emit_mg (o : Out) : (d.emit o).mg = d.mg := rfl
@[simp] theorem emit_store (o : Out) : (d.emit o).store = d.store := rfl
@[simp] theorem emit_doms (o : Out) : (d.emit o).doms = d.doms := rfl
@[simp] theorem emit_units (o : Out) : (d.emit o).units = d.units := rfl
@[simp] theorem emit_aliveAt (o : Out) : (d.emit o).aliveAt = d.aliveAt := rfl
@[simp] theorem emit_alive (o : Out) : (d.emit o).alive = d.alive := rfl
@[simp] theorem emit_hbmScrub (o : Out) : (d.emit o).hbmScrub = d.hbmScrub := rfl
@[simp] theorem emit_dmaLast (o : Out) : (d.emit o).dmaLast = d.dmaLast := rfl
@[simp] theorem emit_rebuilt (o : Out) : (d.emit o).rebuilt = d.rebuilt := rfl
@[simp] theorem emit_talonWaits (o : Out) : (d.emit o).talonWaits = d.talonWaits := rfl
@[simp] theorem emit_tags (o : Out) : (d.emit o).tags = d.tags := rfl
@[simp] theorem emit_chans (o : Out) : (d.emit o).chans = d.chans := rfl
@[simp] theorem emit_qos (o : Out) : (d.emit o).qos = d.qos := rfl
@[simp] theorem emit_auditRegs (o : Out) : (d.emit o).auditRegs = d.auditRegs := rfl
@[simp] theorem emit_leaked (o : Out) : (d.emit o).leaked = d.leaked := rfl
@[simp] theorem emit_overclaim (o : Out) : (d.emit o).overclaim = d.overclaim := rfl
@[simp] theorem emit_lostAt (o : Out) : (d.emit o).lostAt = d.lostAt := rfl
@[simp] theorem emit_witLost (o : Out) : (d.emit o).witLost = d.witLost := rfl
@[simp] theorem emit_witWait (o : Out) : (d.emit o).witWait = d.witWait := rfl
@[simp] theorem emit_mapAt (o : Out) : (d.emit o).mapAt = d.mapAt := rfl
@[simp] theorem emit_oldMaps (o : Out) : (d.emit o).oldMaps = d.oldMaps := rfl
@[simp] theorem emit_relBy (o : Out) : (d.emit o).relBy = d.relBy := rfl
@[simp] theorem emit_scrubAt (o : Out) : (d.emit o).scrubAt = d.scrubAt := rfl
@[simp] theorem emit_scrubBad (o : Out) : (d.emit o).scrubBad = d.scrubBad := rfl
@[simp] theorem emit_out (o : Out) : (d.emit o).out = o :: d.out := rfl

/-! Events: only words, the vectors' messages and what leaves the device change. -/

/-- The parts of the device that an event does not touch. -/
def rest : Dev := { d with regs := [], msiPending := [], msiHeld := [], msiLast := [], out := [] }

theorem msixEmit_rest (v : Nat) : (d.msixEmit v).rest = d.rest := by
  unfold msixEmit
  split <;> rfl
theorem msixSend_rest (v : Nat) : (d.msixSend v).rest = d.rest := by
  unfold msixSend
  dsimp only
  split
  · rfl
  · exact msixEmit_rest d v
theorem irqSet_rest (r : PageRef) (b : Nat) : (d.irqSet r b).rest = d.rest := by
  unfold irqSet
  dsimp only
  split
  · exact (msixSend_rest _ _).trans rfl
  · rfl
theorem irq_rest (b : Blk) (i p n : Nat) : (d.irq b i p n).rest = d.rest := irqSet_rest d _ _
theorem irqAll_rest (b : Blk) (i p n : Nat) : (d.irqAll b i p n).rest = d.rest := by
  unfold irqAll
  generalize instPages b i p = l
  induction l generalizing d with
  | nil => rfl
  | cons r l ih => exact (ih (d.irqSet r (2 ^ n))).trans (irqSet_rest d r _)
theorem irqClear_rest (r : PageRef) (v : Word) : (d.irqClear r v).rest = d.rest := by
  unfold irqClear
  dsimp only
  split
  · exact (msixSend_rest _ _).trans rfl
  · rfl
theorem irqEnable_rest (r : PageRef) (v : Word) : (d.irqEnable r v).rest = d.rest := by
  unfold irqEnable
  dsimp only
  split
  · exact (msixSend_rest _ _).trans rfl
  · rfl
theorem clear_rest (fs : List Fld) (i k : Nat) : (d.clear fs i k).rest = d.rest := by
  unfold clear
  induction fs generalizing d with
  | nil => rfl
  | cons f fs ih => exact (ih (d.put f 0 i k)).trans rfl
theorem put_rest (f : Fld) (x i k j : Nat) : (d.put f x i k j).rest = d.rest := rfl
theorem putB_rest (f : Fld) (x : Bool) (i k : Nat) : (d.putB f x i k).rest = d.rest := rfl
theorem count_rest (f : Fld) (i k n : Nat) : (d.count f i k n).rest = d.rest := rfl
theorem logErr_rest (c a : Nat) (w b : Bool) (r : Option PageRef) : (d.logErr c a w b r).rest = d.rest := by
  unfold logErr
  dsimp only
  cases r <;> simp only [irqSet_rest, irq_rest, count_rest] <;> split <;> simp only [put_rest, putB_rest]

/-! The fields of the rest. -/

section
variable {a b : Dev} (h : a.rest = b.rest)
include h

theorem rest_mirror : a.mirror = b.mirror := (congrArg Dev.mirror h : a.rest.mirror = b.rest.mirror)
theorem rest_house : a.house = b.house := (congrArg Dev.house h : a.rest.house = b.rest.house)
theorem rest_inReset : a.inReset = b.inReset := (congrArg Dev.inReset h : a.rest.inReset = b.rest.inReset)
theorem rest_draws : a.draws = b.draws := (congrArg Dev.draws h : a.rest.draws = b.rest.draws)
theorem rest_resp : a.resp = b.resp := (congrArg Dev.resp h : a.rest.resp = b.rest.resp)
theorem rest_loHold : a.loHold = b.loHold := (congrArg Dev.loHold h : a.rest.loHold = b.rest.loHold)
theorem rest_hiLatch : a.hiLatch = b.hiLatch := (congrArg Dev.hiLatch h : a.rest.hiLatch = b.rest.hiLatch)
theorem rest_fences : a.fences = b.fences := (congrArg Dev.fences h : a.rest.fences = b.rest.fences)
theorem rest_draining : a.draining = b.draining := (congrArg Dev.draining h : a.rest.draining = b.rest.draining)
theorem rest_booksDue : a.booksDue = b.booksDue := (congrArg Dev.booksDue h : a.rest.booksDue = b.rest.booksDue)
theorem rest_snapSrc : a.snapSrc = b.snapSrc := (congrArg Dev.snapSrc h : a.rest.snapSrc = b.rest.snapSrc)
theorem rest_snapSched : a.snapSched = b.snapSched := (congrArg Dev.snapSched h : a.rest.snapSched = b.rest.snapSched)
theorem rest_auditE : a.auditE = b.auditE := (congrArg Dev.auditE h : a.rest.auditE = b.rest.auditE)
theorem rest_auditNoTalon : a.auditNoTalon = b.auditNoTalon := (congrArg Dev.auditNoTalon h : a.rest.auditNoTalon = b.rest.auditNoTalon)
theorem rest_auditDue : a.auditDue = b.auditDue := (congrArg Dev.auditDue h : a.rest.auditDue = b.rest.auditDue)
theorem rest_auditSecond : a.auditSecond = b.auditSecond := (congrArg Dev.auditSecond h : a.rest.auditSecond = b.rest.auditSecond)
theorem rest_auditFree : a.auditFree = b.auditFree := (congrArg Dev.auditFree h : a.rest.auditFree = b.rest.auditFree)
theorem rest_auditAlloc : a.auditAlloc = b.auditAlloc := (congrArg Dev.auditAlloc h : a.rest.auditAlloc = b.rest.auditAlloc)
theorem rest_talonFrozen : a.talonFrozen = b.talonFrozen := (congrArg Dev.talonFrozen h : a.rest.talonFrozen = b.rest.talonFrozen)
theorem rest_rebuildAsked : a.rebuildAsked = b.rebuildAsked := (congrArg Dev.rebuildAsked h : a.rest.rebuildAsked = b.rest.rebuildAsked)
theorem rest_cfgReady : a.cfgReady = b.cfgReady := (congrArg Dev.cfgReady h : a.rest.cfgReady = b.rest.cfgReady)
theorem rest_lanes : a.lanes = b.lanes := (congrArg Dev.lanes h : a.rest.lanes = b.rest.lanes)
theorem rest_bondTx : a.bondTx = b.bondTx := (congrArg Dev.bondTx h : a.rest.bondTx = b.rest.bondTx)
theorem rest_bondRx : a.bondRx = b.bondRx := (congrArg Dev.bondRx h : a.rest.bondRx = b.rest.bondRx)
theorem rest_ctxs : a.ctxs = b.ctxs := (congrArg Dev.ctxs h : a.rest.ctxs = b.rest.ctxs)
theorem rest_maps : a.maps = b.maps := (congrArg Dev.maps h : a.rest.maps = b.rest.maps)
theorem rest_releasing : a.releasing = b.releasing := (congrArg Dev.releasing h : a.rest.releasing = b.rest.releasing)
theorem rest_tiles : a.tiles = b.tiles := (congrArg Dev.tiles h : a.rest.tiles = b.rest.tiles)
theorem rest_bytes : a.bytes = b.bytes := (congrArg Dev.bytes h : a.rest.bytes = b.rest.bytes)
theorem rest_pcErrs : a.pcErrs = b.pcErrs := (congrArg Dev.pcErrs h : a.rest.pcErrs = b.rest.pcErrs)
theorem rest_moved : a.moved = b.moved := (congrArg Dev.moved h : a.rest.moved = b.rest.moved)
theorem rest_coefs : a.coefs = b.coefs := (congrArg Dev.coefs h : a.rest.coefs = b.rest.coefs)
theorem rest_layers : a.layers = b.layers := (congrArg Dev.layers h : a.rest.layers = b.rest.layers)
theorem rest_readers : a.readers = b.readers := (congrArg Dev.readers h : a.rest.readers = b.rest.readers)
theorem rest_heads : a.heads = b.heads := (congrArg Dev.heads h : a.rest.heads = b.rest.heads)
theorem rest_melds : a.melds = b.melds := (congrArg Dev.melds h : a.rest.melds = b.rest.melds)
theorem rest_ports : a.ports = b.ports := (congrArg Dev.ports h : a.rest.ports = b.rest.ports)
theorem rest_sbHpd : a.sbHpd = b.sbHpd := (congrArg Dev.sbHpd h : a.rest.sbHpd = b.rest.sbHpd)
theorem rest_videoSeqs : a.videoSeqs = b.videoSeqs := (congrArg Dev.videoSeqs h : a.rest.videoSeqs = b.rest.videoSeqs)
theorem rest_netBack : a.netBack = b.netBack := (congrArg Dev.netBack h : a.rest.netBack = b.rest.netBack)
theorem rest_busResp : a.busResp = b.busResp := (congrArg Dev.busResp h : a.rest.busResp = b.rest.busResp)
theorem rest_luts : a.luts = b.luts := (congrArg Dev.luts h : a.rest.luts = b.rest.luts)
theorem rest_recHeads : a.recHeads = b.recHeads := (congrArg Dev.recHeads h : a.rest.recHeads = b.rest.recHeads)
theorem rest_recRing : a.recRing = b.recRing := (congrArg Dev.recRing h : a.rest.recRing = b.rest.recRing)
theorem rest_recBytes : a.recBytes = b.recBytes := (congrArg Dev.recBytes h : a.rest.recBytes = b.rest.recBytes)
theorem rest_handLock : a.handLock = b.handLock := (congrArg Dev.handLock h : a.rest.handLock = b.rest.handLock)
theorem rest_engSince : a.engSince = b.engSince := (congrArg Dev.engSince h : a.rest.engSince = b.rest.engSince)
theorem rest_engBusyNs : a.engBusyNs = b.engBusyNs := (congrArg Dev.engBusyNs h : a.rest.engBusyNs = b.rest.engBusyNs)
theorem rest_hand : a.hand = b.hand := (congrArg Dev.hand h : a.rest.hand = b.rest.hand)
theorem rest_tm : a.tm = b.tm := (congrArg Dev.tm h : a.rest.tm = b.rest.tm)
theorem rest_relTime : a.relTime = b.relTime := (congrArg Dev.relTime h : a.rest.relTime = b.rest.relTime)
theorem rest_witChan : a.witChan = b.witChan := (congrArg Dev.witChan h : a.rest.witChan = b.rest.witChan)
theorem rest_witResume : a.witResume = b.witResume := (congrArg Dev.witResume h : a.rest.witResume = b.rest.witResume)
theorem rest_witHanded : a.witHanded = b.witHanded := (congrArg Dev.witHanded h : a.rest.witHanded = b.rest.witHanded)
theorem rest_witChained : a.witChained = b.witChained := (congrArg Dev.witChained h : a.rest.witChained = b.rest.witChained)
theorem rest_audio : a.audio = b.audio := (congrArg Dev.audio h : a.rest.audio = b.rest.audio)
theorem rest_tsends : a.tsends = b.tsends := (congrArg Dev.tsends h : a.rest.tsends = b.rest.tsends)
theorem rest_written : a.written = b.written := (congrArg Dev.written h : a.rest.written = b.rest.written)
theorem rest_deal : a.deal = b.deal := (congrArg Dev.deal h : a.rest.deal = b.rest.deal)
theorem rest_keys : a.keys = b.keys := (congrArg Dev.keys h : a.rest.keys = b.rest.keys)
theorem rest_mg : a.mg = b.mg := (congrArg Dev.mg h : a.rest.mg = b.rest.mg)
theorem rest_store : a.store = b.store := (congrArg Dev.store h : a.rest.store = b.rest.store)
theorem rest_doms : a.doms = b.doms := (congrArg Dev.doms h : a.rest.doms = b.rest.doms)
theorem rest_units : a.units = b.units := (congrArg Dev.units h : a.rest.units = b.rest.units)
theorem rest_aliveAt : a.aliveAt = b.aliveAt := (congrArg Dev.aliveAt h : a.rest.aliveAt = b.rest.aliveAt)
theorem rest_alive : a.alive = b.alive := (congrArg Dev.alive h : a.rest.alive = b.rest.alive)
theorem rest_hbmScrub : a.hbmScrub = b.hbmScrub := (congrArg Dev.hbmScrub h : a.rest.hbmScrub = b.rest.hbmScrub)
theorem rest_dmaLast : a.dmaLast = b.dmaLast := (congrArg Dev.dmaLast h : a.rest.dmaLast = b.rest.dmaLast)
theorem rest_rebuilt : a.rebuilt = b.rebuilt := (congrArg Dev.rebuilt h : a.rest.rebuilt = b.rest.rebuilt)
theorem rest_talonWaits : a.talonWaits = b.talonWaits := (congrArg Dev.talonWaits h : a.rest.talonWaits = b.rest.talonWaits)
theorem rest_tags : a.tags = b.tags := (congrArg Dev.tags h : a.rest.tags = b.rest.tags)
theorem rest_chans : a.chans = b.chans := (congrArg Dev.chans h : a.rest.chans = b.rest.chans)
theorem rest_qos : a.qos = b.qos := (congrArg Dev.qos h : a.rest.qos = b.rest.qos)
theorem rest_auditRegs : a.auditRegs = b.auditRegs := (congrArg Dev.auditRegs h : a.rest.auditRegs = b.rest.auditRegs)
theorem rest_leaked : a.leaked = b.leaked := (congrArg Dev.leaked h : a.rest.leaked = b.rest.leaked)
theorem rest_overclaim : a.overclaim = b.overclaim := (congrArg Dev.overclaim h : a.rest.overclaim = b.rest.overclaim)
theorem rest_lostAt : a.lostAt = b.lostAt := (congrArg Dev.lostAt h : a.rest.lostAt = b.rest.lostAt)
theorem rest_witLost : a.witLost = b.witLost := (congrArg Dev.witLost h : a.rest.witLost = b.rest.witLost)
theorem rest_witWait : a.witWait = b.witWait := (congrArg Dev.witWait h : a.rest.witWait = b.rest.witWait)
theorem rest_mapAt : a.mapAt = b.mapAt := (congrArg Dev.mapAt h : a.rest.mapAt = b.rest.mapAt)
theorem rest_oldMaps : a.oldMaps = b.oldMaps := (congrArg Dev.oldMaps h : a.rest.oldMaps = b.rest.oldMaps)
theorem rest_relBy : a.relBy = b.relBy := (congrArg Dev.relBy h : a.rest.relBy = b.rest.relBy)
theorem rest_scrubAt : a.scrubAt = b.scrubAt := (congrArg Dev.scrubAt h : a.rest.scrubAt = b.rest.scrubAt)
theorem rest_scrubBad : a.scrubBad = b.scrubBad := (congrArg Dev.scrubBad h : a.rest.scrubBad = b.rest.scrubBad)
end

@[simp] theorem irqSet_mirror (r : PageRef) (b : Nat) : (d.irqSet r b).mirror = d.mirror := rest_mirror (irqSet_rest d r b)
@[simp] theorem irqSet_house (r : PageRef) (b : Nat) : (d.irqSet r b).house = d.house := rest_house (irqSet_rest d r b)
@[simp] theorem irqSet_inReset (r : PageRef) (b : Nat) : (d.irqSet r b).inReset = d.inReset := rest_inReset (irqSet_rest d r b)
@[simp] theorem irqSet_draws (r : PageRef) (b : Nat) : (d.irqSet r b).draws = d.draws := rest_draws (irqSet_rest d r b)
@[simp] theorem irqSet_resp (r : PageRef) (b : Nat) : (d.irqSet r b).resp = d.resp := rest_resp (irqSet_rest d r b)
@[simp] theorem irqSet_loHold (r : PageRef) (b : Nat) : (d.irqSet r b).loHold = d.loHold := rest_loHold (irqSet_rest d r b)
@[simp] theorem irqSet_hiLatch (r : PageRef) (b : Nat) : (d.irqSet r b).hiLatch = d.hiLatch := rest_hiLatch (irqSet_rest d r b)
@[simp] theorem irqSet_fences (r : PageRef) (b : Nat) : (d.irqSet r b).fences = d.fences := rest_fences (irqSet_rest d r b)
@[simp] theorem irqSet_draining (r : PageRef) (b : Nat) : (d.irqSet r b).draining = d.draining := rest_draining (irqSet_rest d r b)
@[simp] theorem irqSet_booksDue (r : PageRef) (b : Nat) : (d.irqSet r b).booksDue = d.booksDue := rest_booksDue (irqSet_rest d r b)
@[simp] theorem irqSet_snapSrc (r : PageRef) (b : Nat) : (d.irqSet r b).snapSrc = d.snapSrc := rest_snapSrc (irqSet_rest d r b)
@[simp] theorem irqSet_snapSched (r : PageRef) (b : Nat) : (d.irqSet r b).snapSched = d.snapSched := rest_snapSched (irqSet_rest d r b)
@[simp] theorem irqSet_auditE (r : PageRef) (b : Nat) : (d.irqSet r b).auditE = d.auditE := rest_auditE (irqSet_rest d r b)
@[simp] theorem irqSet_auditNoTalon (r : PageRef) (b : Nat) : (d.irqSet r b).auditNoTalon = d.auditNoTalon := rest_auditNoTalon (irqSet_rest d r b)
@[simp] theorem irqSet_auditDue (r : PageRef) (b : Nat) : (d.irqSet r b).auditDue = d.auditDue := rest_auditDue (irqSet_rest d r b)
@[simp] theorem irqSet_auditSecond (r : PageRef) (b : Nat) : (d.irqSet r b).auditSecond = d.auditSecond := rest_auditSecond (irqSet_rest d r b)
@[simp] theorem irqSet_auditFree (r : PageRef) (b : Nat) : (d.irqSet r b).auditFree = d.auditFree := rest_auditFree (irqSet_rest d r b)
@[simp] theorem irqSet_auditAlloc (r : PageRef) (b : Nat) : (d.irqSet r b).auditAlloc = d.auditAlloc := rest_auditAlloc (irqSet_rest d r b)
@[simp] theorem irqSet_talonFrozen (r : PageRef) (b : Nat) : (d.irqSet r b).talonFrozen = d.talonFrozen := rest_talonFrozen (irqSet_rest d r b)
@[simp] theorem irqSet_rebuildAsked (r : PageRef) (b : Nat) : (d.irqSet r b).rebuildAsked = d.rebuildAsked := rest_rebuildAsked (irqSet_rest d r b)
@[simp] theorem irqSet_cfgReady (r : PageRef) (b : Nat) : (d.irqSet r b).cfgReady = d.cfgReady := rest_cfgReady (irqSet_rest d r b)
@[simp] theorem irqSet_lanes (r : PageRef) (b : Nat) : (d.irqSet r b).lanes = d.lanes := rest_lanes (irqSet_rest d r b)
@[simp] theorem irqSet_bondTx (r : PageRef) (b : Nat) : (d.irqSet r b).bondTx = d.bondTx := rest_bondTx (irqSet_rest d r b)
@[simp] theorem irqSet_bondRx (r : PageRef) (b : Nat) : (d.irqSet r b).bondRx = d.bondRx := rest_bondRx (irqSet_rest d r b)
@[simp] theorem irqSet_ctxs (r : PageRef) (b : Nat) : (d.irqSet r b).ctxs = d.ctxs := rest_ctxs (irqSet_rest d r b)
@[simp] theorem irqSet_maps (r : PageRef) (b : Nat) : (d.irqSet r b).maps = d.maps := rest_maps (irqSet_rest d r b)
@[simp] theorem irqSet_releasing (r : PageRef) (b : Nat) : (d.irqSet r b).releasing = d.releasing := rest_releasing (irqSet_rest d r b)
@[simp] theorem irqSet_tiles (r : PageRef) (b : Nat) : (d.irqSet r b).tiles = d.tiles := rest_tiles (irqSet_rest d r b)
@[simp] theorem irqSet_bytes (r : PageRef) (b : Nat) : (d.irqSet r b).bytes = d.bytes := rest_bytes (irqSet_rest d r b)
@[simp] theorem irqSet_pcErrs (r : PageRef) (b : Nat) : (d.irqSet r b).pcErrs = d.pcErrs := rest_pcErrs (irqSet_rest d r b)
@[simp] theorem irqSet_moved (r : PageRef) (b : Nat) : (d.irqSet r b).moved = d.moved := rest_moved (irqSet_rest d r b)
@[simp] theorem irqSet_coefs (r : PageRef) (b : Nat) : (d.irqSet r b).coefs = d.coefs := rest_coefs (irqSet_rest d r b)
@[simp] theorem irqSet_layers (r : PageRef) (b : Nat) : (d.irqSet r b).layers = d.layers := rest_layers (irqSet_rest d r b)
@[simp] theorem irqSet_readers (r : PageRef) (b : Nat) : (d.irqSet r b).readers = d.readers := rest_readers (irqSet_rest d r b)
@[simp] theorem irqSet_heads (r : PageRef) (b : Nat) : (d.irqSet r b).heads = d.heads := rest_heads (irqSet_rest d r b)
@[simp] theorem irqSet_melds (r : PageRef) (b : Nat) : (d.irqSet r b).melds = d.melds := rest_melds (irqSet_rest d r b)
@[simp] theorem irqSet_ports (r : PageRef) (b : Nat) : (d.irqSet r b).ports = d.ports := rest_ports (irqSet_rest d r b)
@[simp] theorem irqSet_sbHpd (r : PageRef) (b : Nat) : (d.irqSet r b).sbHpd = d.sbHpd := rest_sbHpd (irqSet_rest d r b)
@[simp] theorem irqSet_videoSeqs (r : PageRef) (b : Nat) : (d.irqSet r b).videoSeqs = d.videoSeqs := rest_videoSeqs (irqSet_rest d r b)
@[simp] theorem irqSet_netBack (r : PageRef) (b : Nat) : (d.irqSet r b).netBack = d.netBack := rest_netBack (irqSet_rest d r b)
@[simp] theorem irqSet_busResp (r : PageRef) (b : Nat) : (d.irqSet r b).busResp = d.busResp := rest_busResp (irqSet_rest d r b)
@[simp] theorem irqSet_luts (r : PageRef) (b : Nat) : (d.irqSet r b).luts = d.luts := rest_luts (irqSet_rest d r b)
@[simp] theorem irqSet_recHeads (r : PageRef) (b : Nat) : (d.irqSet r b).recHeads = d.recHeads := rest_recHeads (irqSet_rest d r b)
@[simp] theorem irqSet_recRing (r : PageRef) (b : Nat) : (d.irqSet r b).recRing = d.recRing := rest_recRing (irqSet_rest d r b)
@[simp] theorem irqSet_recBytes (r : PageRef) (b : Nat) : (d.irqSet r b).recBytes = d.recBytes := rest_recBytes (irqSet_rest d r b)
@[simp] theorem irqSet_handLock (r : PageRef) (b : Nat) : (d.irqSet r b).handLock = d.handLock := rest_handLock (irqSet_rest d r b)
@[simp] theorem irqSet_engSince (r : PageRef) (b : Nat) : (d.irqSet r b).engSince = d.engSince := rest_engSince (irqSet_rest d r b)
@[simp] theorem irqSet_engBusyNs (r : PageRef) (b : Nat) : (d.irqSet r b).engBusyNs = d.engBusyNs := rest_engBusyNs (irqSet_rest d r b)
@[simp] theorem irqSet_hand (r : PageRef) (b : Nat) : (d.irqSet r b).hand = d.hand := rest_hand (irqSet_rest d r b)
@[simp] theorem irqSet_tm (r : PageRef) (b : Nat) : (d.irqSet r b).tm = d.tm := rest_tm (irqSet_rest d r b)
@[simp] theorem irqSet_relTime (r : PageRef) (b : Nat) : (d.irqSet r b).relTime = d.relTime := rest_relTime (irqSet_rest d r b)
@[simp] theorem irqSet_witChan (r : PageRef) (b : Nat) : (d.irqSet r b).witChan = d.witChan := rest_witChan (irqSet_rest d r b)
@[simp] theorem irqSet_witResume (r : PageRef) (b : Nat) : (d.irqSet r b).witResume = d.witResume := rest_witResume (irqSet_rest d r b)
@[simp] theorem irqSet_witHanded (r : PageRef) (b : Nat) : (d.irqSet r b).witHanded = d.witHanded := rest_witHanded (irqSet_rest d r b)
@[simp] theorem irqSet_witChained (r : PageRef) (b : Nat) : (d.irqSet r b).witChained = d.witChained := rest_witChained (irqSet_rest d r b)
@[simp] theorem irqSet_audio (r : PageRef) (b : Nat) : (d.irqSet r b).audio = d.audio := rest_audio (irqSet_rest d r b)
@[simp] theorem irqSet_tsends (r : PageRef) (b : Nat) : (d.irqSet r b).tsends = d.tsends := rest_tsends (irqSet_rest d r b)
@[simp] theorem irqSet_written (r : PageRef) (b : Nat) : (d.irqSet r b).written = d.written := rest_written (irqSet_rest d r b)
@[simp] theorem irqSet_deal (r : PageRef) (b : Nat) : (d.irqSet r b).deal = d.deal := rest_deal (irqSet_rest d r b)
@[simp] theorem irqSet_keys (r : PageRef) (b : Nat) : (d.irqSet r b).keys = d.keys := rest_keys (irqSet_rest d r b)
@[simp] theorem irqSet_mg (r : PageRef) (b : Nat) : (d.irqSet r b).mg = d.mg := rest_mg (irqSet_rest d r b)
@[simp] theorem irqSet_store (r : PageRef) (b : Nat) : (d.irqSet r b).store = d.store := rest_store (irqSet_rest d r b)
@[simp] theorem irqSet_doms (r : PageRef) (b : Nat) : (d.irqSet r b).doms = d.doms := rest_doms (irqSet_rest d r b)
@[simp] theorem irqSet_units (r : PageRef) (b : Nat) : (d.irqSet r b).units = d.units := rest_units (irqSet_rest d r b)
@[simp] theorem irqSet_aliveAt (r : PageRef) (b : Nat) : (d.irqSet r b).aliveAt = d.aliveAt := rest_aliveAt (irqSet_rest d r b)
@[simp] theorem irqSet_alive (r : PageRef) (b : Nat) : (d.irqSet r b).alive = d.alive := rest_alive (irqSet_rest d r b)
@[simp] theorem irqSet_hbmScrub (r : PageRef) (b : Nat) : (d.irqSet r b).hbmScrub = d.hbmScrub := rest_hbmScrub (irqSet_rest d r b)
@[simp] theorem irqSet_dmaLast (r : PageRef) (b : Nat) : (d.irqSet r b).dmaLast = d.dmaLast := rest_dmaLast (irqSet_rest d r b)
@[simp] theorem irqSet_rebuilt (r : PageRef) (b : Nat) : (d.irqSet r b).rebuilt = d.rebuilt := rest_rebuilt (irqSet_rest d r b)
@[simp] theorem irqSet_talonWaits (r : PageRef) (b : Nat) : (d.irqSet r b).talonWaits = d.talonWaits := rest_talonWaits (irqSet_rest d r b)
@[simp] theorem irqSet_tags (r : PageRef) (b : Nat) : (d.irqSet r b).tags = d.tags := rest_tags (irqSet_rest d r b)
@[simp] theorem irqSet_chans (r : PageRef) (b : Nat) : (d.irqSet r b).chans = d.chans := rest_chans (irqSet_rest d r b)
@[simp] theorem irqSet_qos (r : PageRef) (b : Nat) : (d.irqSet r b).qos = d.qos := rest_qos (irqSet_rest d r b)
@[simp] theorem irqSet_auditRegs (r : PageRef) (b : Nat) : (d.irqSet r b).auditRegs = d.auditRegs := rest_auditRegs (irqSet_rest d r b)
@[simp] theorem irqSet_leaked (r : PageRef) (b : Nat) : (d.irqSet r b).leaked = d.leaked := rest_leaked (irqSet_rest d r b)
@[simp] theorem irqSet_overclaim (r : PageRef) (b : Nat) : (d.irqSet r b).overclaim = d.overclaim := rest_overclaim (irqSet_rest d r b)
@[simp] theorem irqSet_lostAt (r : PageRef) (b : Nat) : (d.irqSet r b).lostAt = d.lostAt := rest_lostAt (irqSet_rest d r b)
@[simp] theorem irqSet_witLost (r : PageRef) (b : Nat) : (d.irqSet r b).witLost = d.witLost := rest_witLost (irqSet_rest d r b)
@[simp] theorem irqSet_witWait (r : PageRef) (b : Nat) : (d.irqSet r b).witWait = d.witWait := rest_witWait (irqSet_rest d r b)
@[simp] theorem irqSet_mapAt (r : PageRef) (b : Nat) : (d.irqSet r b).mapAt = d.mapAt := rest_mapAt (irqSet_rest d r b)
@[simp] theorem irqSet_oldMaps (r : PageRef) (b : Nat) : (d.irqSet r b).oldMaps = d.oldMaps := rest_oldMaps (irqSet_rest d r b)
@[simp] theorem irqSet_relBy (r : PageRef) (b : Nat) : (d.irqSet r b).relBy = d.relBy := rest_relBy (irqSet_rest d r b)
@[simp] theorem irqSet_scrubAt (r : PageRef) (b : Nat) : (d.irqSet r b).scrubAt = d.scrubAt := rest_scrubAt (irqSet_rest d r b)
@[simp] theorem irqSet_scrubBad (r : PageRef) (b : Nat) : (d.irqSet r b).scrubBad = d.scrubBad := rest_scrubBad (irqSet_rest d r b)

@[simp] theorem irq_mirror (b : Blk) (i p n : Nat) : (d.irq b i p n).mirror = d.mirror := rest_mirror (irq_rest d b i p n)
@[simp] theorem irq_house (b : Blk) (i p n : Nat) : (d.irq b i p n).house = d.house := rest_house (irq_rest d b i p n)
@[simp] theorem irq_inReset (b : Blk) (i p n : Nat) : (d.irq b i p n).inReset = d.inReset := rest_inReset (irq_rest d b i p n)
@[simp] theorem irq_draws (b : Blk) (i p n : Nat) : (d.irq b i p n).draws = d.draws := rest_draws (irq_rest d b i p n)
@[simp] theorem irq_resp (b : Blk) (i p n : Nat) : (d.irq b i p n).resp = d.resp := rest_resp (irq_rest d b i p n)
@[simp] theorem irq_loHold (b : Blk) (i p n : Nat) : (d.irq b i p n).loHold = d.loHold := rest_loHold (irq_rest d b i p n)
@[simp] theorem irq_hiLatch (b : Blk) (i p n : Nat) : (d.irq b i p n).hiLatch = d.hiLatch := rest_hiLatch (irq_rest d b i p n)
@[simp] theorem irq_fences (b : Blk) (i p n : Nat) : (d.irq b i p n).fences = d.fences := rest_fences (irq_rest d b i p n)
@[simp] theorem irq_draining (b : Blk) (i p n : Nat) : (d.irq b i p n).draining = d.draining := rest_draining (irq_rest d b i p n)
@[simp] theorem irq_booksDue (b : Blk) (i p n : Nat) : (d.irq b i p n).booksDue = d.booksDue := rest_booksDue (irq_rest d b i p n)
@[simp] theorem irq_snapSrc (b : Blk) (i p n : Nat) : (d.irq b i p n).snapSrc = d.snapSrc := rest_snapSrc (irq_rest d b i p n)
@[simp] theorem irq_snapSched (b : Blk) (i p n : Nat) : (d.irq b i p n).snapSched = d.snapSched := rest_snapSched (irq_rest d b i p n)
@[simp] theorem irq_auditE (b : Blk) (i p n : Nat) : (d.irq b i p n).auditE = d.auditE := rest_auditE (irq_rest d b i p n)
@[simp] theorem irq_auditNoTalon (b : Blk) (i p n : Nat) : (d.irq b i p n).auditNoTalon = d.auditNoTalon := rest_auditNoTalon (irq_rest d b i p n)
@[simp] theorem irq_auditDue (b : Blk) (i p n : Nat) : (d.irq b i p n).auditDue = d.auditDue := rest_auditDue (irq_rest d b i p n)
@[simp] theorem irq_auditSecond (b : Blk) (i p n : Nat) : (d.irq b i p n).auditSecond = d.auditSecond := rest_auditSecond (irq_rest d b i p n)
@[simp] theorem irq_auditFree (b : Blk) (i p n : Nat) : (d.irq b i p n).auditFree = d.auditFree := rest_auditFree (irq_rest d b i p n)
@[simp] theorem irq_auditAlloc (b : Blk) (i p n : Nat) : (d.irq b i p n).auditAlloc = d.auditAlloc := rest_auditAlloc (irq_rest d b i p n)
@[simp] theorem irq_talonFrozen (b : Blk) (i p n : Nat) : (d.irq b i p n).talonFrozen = d.talonFrozen := rest_talonFrozen (irq_rest d b i p n)
@[simp] theorem irq_rebuildAsked (b : Blk) (i p n : Nat) : (d.irq b i p n).rebuildAsked = d.rebuildAsked := rest_rebuildAsked (irq_rest d b i p n)
@[simp] theorem irq_cfgReady (b : Blk) (i p n : Nat) : (d.irq b i p n).cfgReady = d.cfgReady := rest_cfgReady (irq_rest d b i p n)
@[simp] theorem irq_lanes (b : Blk) (i p n : Nat) : (d.irq b i p n).lanes = d.lanes := rest_lanes (irq_rest d b i p n)
@[simp] theorem irq_bondTx (b : Blk) (i p n : Nat) : (d.irq b i p n).bondTx = d.bondTx := rest_bondTx (irq_rest d b i p n)
@[simp] theorem irq_bondRx (b : Blk) (i p n : Nat) : (d.irq b i p n).bondRx = d.bondRx := rest_bondRx (irq_rest d b i p n)
@[simp] theorem irq_ctxs (b : Blk) (i p n : Nat) : (d.irq b i p n).ctxs = d.ctxs := rest_ctxs (irq_rest d b i p n)
@[simp] theorem irq_maps (b : Blk) (i p n : Nat) : (d.irq b i p n).maps = d.maps := rest_maps (irq_rest d b i p n)
@[simp] theorem irq_releasing (b : Blk) (i p n : Nat) : (d.irq b i p n).releasing = d.releasing := rest_releasing (irq_rest d b i p n)
@[simp] theorem irq_tiles (b : Blk) (i p n : Nat) : (d.irq b i p n).tiles = d.tiles := rest_tiles (irq_rest d b i p n)
@[simp] theorem irq_bytes (b : Blk) (i p n : Nat) : (d.irq b i p n).bytes = d.bytes := rest_bytes (irq_rest d b i p n)
@[simp] theorem irq_pcErrs (b : Blk) (i p n : Nat) : (d.irq b i p n).pcErrs = d.pcErrs := rest_pcErrs (irq_rest d b i p n)
@[simp] theorem irq_moved (b : Blk) (i p n : Nat) : (d.irq b i p n).moved = d.moved := rest_moved (irq_rest d b i p n)
@[simp] theorem irq_coefs (b : Blk) (i p n : Nat) : (d.irq b i p n).coefs = d.coefs := rest_coefs (irq_rest d b i p n)
@[simp] theorem irq_layers (b : Blk) (i p n : Nat) : (d.irq b i p n).layers = d.layers := rest_layers (irq_rest d b i p n)
@[simp] theorem irq_readers (b : Blk) (i p n : Nat) : (d.irq b i p n).readers = d.readers := rest_readers (irq_rest d b i p n)
@[simp] theorem irq_heads (b : Blk) (i p n : Nat) : (d.irq b i p n).heads = d.heads := rest_heads (irq_rest d b i p n)
@[simp] theorem irq_melds (b : Blk) (i p n : Nat) : (d.irq b i p n).melds = d.melds := rest_melds (irq_rest d b i p n)
@[simp] theorem irq_ports (b : Blk) (i p n : Nat) : (d.irq b i p n).ports = d.ports := rest_ports (irq_rest d b i p n)
@[simp] theorem irq_sbHpd (b : Blk) (i p n : Nat) : (d.irq b i p n).sbHpd = d.sbHpd := rest_sbHpd (irq_rest d b i p n)
@[simp] theorem irq_videoSeqs (b : Blk) (i p n : Nat) : (d.irq b i p n).videoSeqs = d.videoSeqs := rest_videoSeqs (irq_rest d b i p n)
@[simp] theorem irq_netBack (b : Blk) (i p n : Nat) : (d.irq b i p n).netBack = d.netBack := rest_netBack (irq_rest d b i p n)
@[simp] theorem irq_busResp (b : Blk) (i p n : Nat) : (d.irq b i p n).busResp = d.busResp := rest_busResp (irq_rest d b i p n)
@[simp] theorem irq_luts (b : Blk) (i p n : Nat) : (d.irq b i p n).luts = d.luts := rest_luts (irq_rest d b i p n)
@[simp] theorem irq_recHeads (b : Blk) (i p n : Nat) : (d.irq b i p n).recHeads = d.recHeads := rest_recHeads (irq_rest d b i p n)
@[simp] theorem irq_recRing (b : Blk) (i p n : Nat) : (d.irq b i p n).recRing = d.recRing := rest_recRing (irq_rest d b i p n)
@[simp] theorem irq_recBytes (b : Blk) (i p n : Nat) : (d.irq b i p n).recBytes = d.recBytes := rest_recBytes (irq_rest d b i p n)
@[simp] theorem irq_handLock (b : Blk) (i p n : Nat) : (d.irq b i p n).handLock = d.handLock := rest_handLock (irq_rest d b i p n)
@[simp] theorem irq_engSince (b : Blk) (i p n : Nat) : (d.irq b i p n).engSince = d.engSince := rest_engSince (irq_rest d b i p n)
@[simp] theorem irq_engBusyNs (b : Blk) (i p n : Nat) : (d.irq b i p n).engBusyNs = d.engBusyNs := rest_engBusyNs (irq_rest d b i p n)
@[simp] theorem irq_hand (b : Blk) (i p n : Nat) : (d.irq b i p n).hand = d.hand := rest_hand (irq_rest d b i p n)
@[simp] theorem irq_tm (b : Blk) (i p n : Nat) : (d.irq b i p n).tm = d.tm := rest_tm (irq_rest d b i p n)
@[simp] theorem irq_relTime (b : Blk) (i p n : Nat) : (d.irq b i p n).relTime = d.relTime := rest_relTime (irq_rest d b i p n)
@[simp] theorem irq_witChan (b : Blk) (i p n : Nat) : (d.irq b i p n).witChan = d.witChan := rest_witChan (irq_rest d b i p n)
@[simp] theorem irq_witResume (b : Blk) (i p n : Nat) : (d.irq b i p n).witResume = d.witResume := rest_witResume (irq_rest d b i p n)
@[simp] theorem irq_witHanded (b : Blk) (i p n : Nat) : (d.irq b i p n).witHanded = d.witHanded := rest_witHanded (irq_rest d b i p n)
@[simp] theorem irq_witChained (b : Blk) (i p n : Nat) : (d.irq b i p n).witChained = d.witChained := rest_witChained (irq_rest d b i p n)
@[simp] theorem irq_audio (b : Blk) (i p n : Nat) : (d.irq b i p n).audio = d.audio := rest_audio (irq_rest d b i p n)
@[simp] theorem irq_tsends (b : Blk) (i p n : Nat) : (d.irq b i p n).tsends = d.tsends := rest_tsends (irq_rest d b i p n)
@[simp] theorem irq_written (b : Blk) (i p n : Nat) : (d.irq b i p n).written = d.written := rest_written (irq_rest d b i p n)
@[simp] theorem irq_deal (b : Blk) (i p n : Nat) : (d.irq b i p n).deal = d.deal := rest_deal (irq_rest d b i p n)
@[simp] theorem irq_keys (b : Blk) (i p n : Nat) : (d.irq b i p n).keys = d.keys := rest_keys (irq_rest d b i p n)
@[simp] theorem irq_mg (b : Blk) (i p n : Nat) : (d.irq b i p n).mg = d.mg := rest_mg (irq_rest d b i p n)
@[simp] theorem irq_store (b : Blk) (i p n : Nat) : (d.irq b i p n).store = d.store := rest_store (irq_rest d b i p n)
@[simp] theorem irq_doms (b : Blk) (i p n : Nat) : (d.irq b i p n).doms = d.doms := rest_doms (irq_rest d b i p n)
@[simp] theorem irq_units (b : Blk) (i p n : Nat) : (d.irq b i p n).units = d.units := rest_units (irq_rest d b i p n)
@[simp] theorem irq_aliveAt (b : Blk) (i p n : Nat) : (d.irq b i p n).aliveAt = d.aliveAt := rest_aliveAt (irq_rest d b i p n)
@[simp] theorem irq_alive (b : Blk) (i p n : Nat) : (d.irq b i p n).alive = d.alive := rest_alive (irq_rest d b i p n)
@[simp] theorem irq_hbmScrub (b : Blk) (i p n : Nat) : (d.irq b i p n).hbmScrub = d.hbmScrub := rest_hbmScrub (irq_rest d b i p n)
@[simp] theorem irq_dmaLast (b : Blk) (i p n : Nat) : (d.irq b i p n).dmaLast = d.dmaLast := rest_dmaLast (irq_rest d b i p n)
@[simp] theorem irq_rebuilt (b : Blk) (i p n : Nat) : (d.irq b i p n).rebuilt = d.rebuilt := rest_rebuilt (irq_rest d b i p n)
@[simp] theorem irq_talonWaits (b : Blk) (i p n : Nat) : (d.irq b i p n).talonWaits = d.talonWaits := rest_talonWaits (irq_rest d b i p n)
@[simp] theorem irq_tags (b : Blk) (i p n : Nat) : (d.irq b i p n).tags = d.tags := rest_tags (irq_rest d b i p n)
@[simp] theorem irq_chans (b : Blk) (i p n : Nat) : (d.irq b i p n).chans = d.chans := rest_chans (irq_rest d b i p n)
@[simp] theorem irq_qos (b : Blk) (i p n : Nat) : (d.irq b i p n).qos = d.qos := rest_qos (irq_rest d b i p n)
@[simp] theorem irq_auditRegs (b : Blk) (i p n : Nat) : (d.irq b i p n).auditRegs = d.auditRegs := rest_auditRegs (irq_rest d b i p n)
@[simp] theorem irq_leaked (b : Blk) (i p n : Nat) : (d.irq b i p n).leaked = d.leaked := rest_leaked (irq_rest d b i p n)
@[simp] theorem irq_overclaim (b : Blk) (i p n : Nat) : (d.irq b i p n).overclaim = d.overclaim := rest_overclaim (irq_rest d b i p n)
@[simp] theorem irq_lostAt (b : Blk) (i p n : Nat) : (d.irq b i p n).lostAt = d.lostAt := rest_lostAt (irq_rest d b i p n)
@[simp] theorem irq_witLost (b : Blk) (i p n : Nat) : (d.irq b i p n).witLost = d.witLost := rest_witLost (irq_rest d b i p n)
@[simp] theorem irq_witWait (b : Blk) (i p n : Nat) : (d.irq b i p n).witWait = d.witWait := rest_witWait (irq_rest d b i p n)
@[simp] theorem irq_mapAt (b : Blk) (i p n : Nat) : (d.irq b i p n).mapAt = d.mapAt := rest_mapAt (irq_rest d b i p n)
@[simp] theorem irq_oldMaps (b : Blk) (i p n : Nat) : (d.irq b i p n).oldMaps = d.oldMaps := rest_oldMaps (irq_rest d b i p n)
@[simp] theorem irq_relBy (b : Blk) (i p n : Nat) : (d.irq b i p n).relBy = d.relBy := rest_relBy (irq_rest d b i p n)
@[simp] theorem irq_scrubAt (b : Blk) (i p n : Nat) : (d.irq b i p n).scrubAt = d.scrubAt := rest_scrubAt (irq_rest d b i p n)
@[simp] theorem irq_scrubBad (b : Blk) (i p n : Nat) : (d.irq b i p n).scrubBad = d.scrubBad := rest_scrubBad (irq_rest d b i p n)

@[simp] theorem irqAll_mirror (b : Blk) (i p n : Nat) : (d.irqAll b i p n).mirror = d.mirror := rest_mirror (irqAll_rest d b i p n)
@[simp] theorem irqAll_house (b : Blk) (i p n : Nat) : (d.irqAll b i p n).house = d.house := rest_house (irqAll_rest d b i p n)
@[simp] theorem irqAll_inReset (b : Blk) (i p n : Nat) : (d.irqAll b i p n).inReset = d.inReset := rest_inReset (irqAll_rest d b i p n)
@[simp] theorem irqAll_draws (b : Blk) (i p n : Nat) : (d.irqAll b i p n).draws = d.draws := rest_draws (irqAll_rest d b i p n)
@[simp] theorem irqAll_resp (b : Blk) (i p n : Nat) : (d.irqAll b i p n).resp = d.resp := rest_resp (irqAll_rest d b i p n)
@[simp] theorem irqAll_loHold (b : Blk) (i p n : Nat) : (d.irqAll b i p n).loHold = d.loHold := rest_loHold (irqAll_rest d b i p n)
@[simp] theorem irqAll_hiLatch (b : Blk) (i p n : Nat) : (d.irqAll b i p n).hiLatch = d.hiLatch := rest_hiLatch (irqAll_rest d b i p n)
@[simp] theorem irqAll_fences (b : Blk) (i p n : Nat) : (d.irqAll b i p n).fences = d.fences := rest_fences (irqAll_rest d b i p n)
@[simp] theorem irqAll_draining (b : Blk) (i p n : Nat) : (d.irqAll b i p n).draining = d.draining := rest_draining (irqAll_rest d b i p n)
@[simp] theorem irqAll_booksDue (b : Blk) (i p n : Nat) : (d.irqAll b i p n).booksDue = d.booksDue := rest_booksDue (irqAll_rest d b i p n)
@[simp] theorem irqAll_snapSrc (b : Blk) (i p n : Nat) : (d.irqAll b i p n).snapSrc = d.snapSrc := rest_snapSrc (irqAll_rest d b i p n)
@[simp] theorem irqAll_snapSched (b : Blk) (i p n : Nat) : (d.irqAll b i p n).snapSched = d.snapSched := rest_snapSched (irqAll_rest d b i p n)
@[simp] theorem irqAll_auditE (b : Blk) (i p n : Nat) : (d.irqAll b i p n).auditE = d.auditE := rest_auditE (irqAll_rest d b i p n)
@[simp] theorem irqAll_auditNoTalon (b : Blk) (i p n : Nat) : (d.irqAll b i p n).auditNoTalon = d.auditNoTalon := rest_auditNoTalon (irqAll_rest d b i p n)
@[simp] theorem irqAll_auditDue (b : Blk) (i p n : Nat) : (d.irqAll b i p n).auditDue = d.auditDue := rest_auditDue (irqAll_rest d b i p n)
@[simp] theorem irqAll_auditSecond (b : Blk) (i p n : Nat) : (d.irqAll b i p n).auditSecond = d.auditSecond := rest_auditSecond (irqAll_rest d b i p n)
@[simp] theorem irqAll_auditFree (b : Blk) (i p n : Nat) : (d.irqAll b i p n).auditFree = d.auditFree := rest_auditFree (irqAll_rest d b i p n)
@[simp] theorem irqAll_auditAlloc (b : Blk) (i p n : Nat) : (d.irqAll b i p n).auditAlloc = d.auditAlloc := rest_auditAlloc (irqAll_rest d b i p n)
@[simp] theorem irqAll_talonFrozen (b : Blk) (i p n : Nat) : (d.irqAll b i p n).talonFrozen = d.talonFrozen := rest_talonFrozen (irqAll_rest d b i p n)
@[simp] theorem irqAll_rebuildAsked (b : Blk) (i p n : Nat) : (d.irqAll b i p n).rebuildAsked = d.rebuildAsked := rest_rebuildAsked (irqAll_rest d b i p n)
@[simp] theorem irqAll_cfgReady (b : Blk) (i p n : Nat) : (d.irqAll b i p n).cfgReady = d.cfgReady := rest_cfgReady (irqAll_rest d b i p n)
@[simp] theorem irqAll_lanes (b : Blk) (i p n : Nat) : (d.irqAll b i p n).lanes = d.lanes := rest_lanes (irqAll_rest d b i p n)
@[simp] theorem irqAll_bondTx (b : Blk) (i p n : Nat) : (d.irqAll b i p n).bondTx = d.bondTx := rest_bondTx (irqAll_rest d b i p n)
@[simp] theorem irqAll_bondRx (b : Blk) (i p n : Nat) : (d.irqAll b i p n).bondRx = d.bondRx := rest_bondRx (irqAll_rest d b i p n)
@[simp] theorem irqAll_ctxs (b : Blk) (i p n : Nat) : (d.irqAll b i p n).ctxs = d.ctxs := rest_ctxs (irqAll_rest d b i p n)
@[simp] theorem irqAll_maps (b : Blk) (i p n : Nat) : (d.irqAll b i p n).maps = d.maps := rest_maps (irqAll_rest d b i p n)
@[simp] theorem irqAll_releasing (b : Blk) (i p n : Nat) : (d.irqAll b i p n).releasing = d.releasing := rest_releasing (irqAll_rest d b i p n)
@[simp] theorem irqAll_tiles (b : Blk) (i p n : Nat) : (d.irqAll b i p n).tiles = d.tiles := rest_tiles (irqAll_rest d b i p n)
@[simp] theorem irqAll_bytes (b : Blk) (i p n : Nat) : (d.irqAll b i p n).bytes = d.bytes := rest_bytes (irqAll_rest d b i p n)
@[simp] theorem irqAll_pcErrs (b : Blk) (i p n : Nat) : (d.irqAll b i p n).pcErrs = d.pcErrs := rest_pcErrs (irqAll_rest d b i p n)
@[simp] theorem irqAll_moved (b : Blk) (i p n : Nat) : (d.irqAll b i p n).moved = d.moved := rest_moved (irqAll_rest d b i p n)
@[simp] theorem irqAll_coefs (b : Blk) (i p n : Nat) : (d.irqAll b i p n).coefs = d.coefs := rest_coefs (irqAll_rest d b i p n)
@[simp] theorem irqAll_layers (b : Blk) (i p n : Nat) : (d.irqAll b i p n).layers = d.layers := rest_layers (irqAll_rest d b i p n)
@[simp] theorem irqAll_readers (b : Blk) (i p n : Nat) : (d.irqAll b i p n).readers = d.readers := rest_readers (irqAll_rest d b i p n)
@[simp] theorem irqAll_heads (b : Blk) (i p n : Nat) : (d.irqAll b i p n).heads = d.heads := rest_heads (irqAll_rest d b i p n)
@[simp] theorem irqAll_melds (b : Blk) (i p n : Nat) : (d.irqAll b i p n).melds = d.melds := rest_melds (irqAll_rest d b i p n)
@[simp] theorem irqAll_ports (b : Blk) (i p n : Nat) : (d.irqAll b i p n).ports = d.ports := rest_ports (irqAll_rest d b i p n)
@[simp] theorem irqAll_sbHpd (b : Blk) (i p n : Nat) : (d.irqAll b i p n).sbHpd = d.sbHpd := rest_sbHpd (irqAll_rest d b i p n)
@[simp] theorem irqAll_videoSeqs (b : Blk) (i p n : Nat) : (d.irqAll b i p n).videoSeqs = d.videoSeqs := rest_videoSeqs (irqAll_rest d b i p n)
@[simp] theorem irqAll_netBack (b : Blk) (i p n : Nat) : (d.irqAll b i p n).netBack = d.netBack := rest_netBack (irqAll_rest d b i p n)
@[simp] theorem irqAll_busResp (b : Blk) (i p n : Nat) : (d.irqAll b i p n).busResp = d.busResp := rest_busResp (irqAll_rest d b i p n)
@[simp] theorem irqAll_luts (b : Blk) (i p n : Nat) : (d.irqAll b i p n).luts = d.luts := rest_luts (irqAll_rest d b i p n)
@[simp] theorem irqAll_recHeads (b : Blk) (i p n : Nat) : (d.irqAll b i p n).recHeads = d.recHeads := rest_recHeads (irqAll_rest d b i p n)
@[simp] theorem irqAll_recRing (b : Blk) (i p n : Nat) : (d.irqAll b i p n).recRing = d.recRing := rest_recRing (irqAll_rest d b i p n)
@[simp] theorem irqAll_recBytes (b : Blk) (i p n : Nat) : (d.irqAll b i p n).recBytes = d.recBytes := rest_recBytes (irqAll_rest d b i p n)
@[simp] theorem irqAll_handLock (b : Blk) (i p n : Nat) : (d.irqAll b i p n).handLock = d.handLock := rest_handLock (irqAll_rest d b i p n)
@[simp] theorem irqAll_engSince (b : Blk) (i p n : Nat) : (d.irqAll b i p n).engSince = d.engSince := rest_engSince (irqAll_rest d b i p n)
@[simp] theorem irqAll_engBusyNs (b : Blk) (i p n : Nat) : (d.irqAll b i p n).engBusyNs = d.engBusyNs := rest_engBusyNs (irqAll_rest d b i p n)
@[simp] theorem irqAll_hand (b : Blk) (i p n : Nat) : (d.irqAll b i p n).hand = d.hand := rest_hand (irqAll_rest d b i p n)
@[simp] theorem irqAll_tm (b : Blk) (i p n : Nat) : (d.irqAll b i p n).tm = d.tm := rest_tm (irqAll_rest d b i p n)
@[simp] theorem irqAll_relTime (b : Blk) (i p n : Nat) : (d.irqAll b i p n).relTime = d.relTime := rest_relTime (irqAll_rest d b i p n)
@[simp] theorem irqAll_witChan (b : Blk) (i p n : Nat) : (d.irqAll b i p n).witChan = d.witChan := rest_witChan (irqAll_rest d b i p n)
@[simp] theorem irqAll_witResume (b : Blk) (i p n : Nat) : (d.irqAll b i p n).witResume = d.witResume := rest_witResume (irqAll_rest d b i p n)
@[simp] theorem irqAll_witHanded (b : Blk) (i p n : Nat) : (d.irqAll b i p n).witHanded = d.witHanded := rest_witHanded (irqAll_rest d b i p n)
@[simp] theorem irqAll_witChained (b : Blk) (i p n : Nat) : (d.irqAll b i p n).witChained = d.witChained := rest_witChained (irqAll_rest d b i p n)
@[simp] theorem irqAll_audio (b : Blk) (i p n : Nat) : (d.irqAll b i p n).audio = d.audio := rest_audio (irqAll_rest d b i p n)
@[simp] theorem irqAll_tsends (b : Blk) (i p n : Nat) : (d.irqAll b i p n).tsends = d.tsends := rest_tsends (irqAll_rest d b i p n)
@[simp] theorem irqAll_written (b : Blk) (i p n : Nat) : (d.irqAll b i p n).written = d.written := rest_written (irqAll_rest d b i p n)
@[simp] theorem irqAll_deal (b : Blk) (i p n : Nat) : (d.irqAll b i p n).deal = d.deal := rest_deal (irqAll_rest d b i p n)
@[simp] theorem irqAll_keys (b : Blk) (i p n : Nat) : (d.irqAll b i p n).keys = d.keys := rest_keys (irqAll_rest d b i p n)
@[simp] theorem irqAll_mg (b : Blk) (i p n : Nat) : (d.irqAll b i p n).mg = d.mg := rest_mg (irqAll_rest d b i p n)
@[simp] theorem irqAll_store (b : Blk) (i p n : Nat) : (d.irqAll b i p n).store = d.store := rest_store (irqAll_rest d b i p n)
@[simp] theorem irqAll_doms (b : Blk) (i p n : Nat) : (d.irqAll b i p n).doms = d.doms := rest_doms (irqAll_rest d b i p n)
@[simp] theorem irqAll_units (b : Blk) (i p n : Nat) : (d.irqAll b i p n).units = d.units := rest_units (irqAll_rest d b i p n)
@[simp] theorem irqAll_aliveAt (b : Blk) (i p n : Nat) : (d.irqAll b i p n).aliveAt = d.aliveAt := rest_aliveAt (irqAll_rest d b i p n)
@[simp] theorem irqAll_alive (b : Blk) (i p n : Nat) : (d.irqAll b i p n).alive = d.alive := rest_alive (irqAll_rest d b i p n)
@[simp] theorem irqAll_hbmScrub (b : Blk) (i p n : Nat) : (d.irqAll b i p n).hbmScrub = d.hbmScrub := rest_hbmScrub (irqAll_rest d b i p n)
@[simp] theorem irqAll_dmaLast (b : Blk) (i p n : Nat) : (d.irqAll b i p n).dmaLast = d.dmaLast := rest_dmaLast (irqAll_rest d b i p n)
@[simp] theorem irqAll_rebuilt (b : Blk) (i p n : Nat) : (d.irqAll b i p n).rebuilt = d.rebuilt := rest_rebuilt (irqAll_rest d b i p n)
@[simp] theorem irqAll_talonWaits (b : Blk) (i p n : Nat) : (d.irqAll b i p n).talonWaits = d.talonWaits := rest_talonWaits (irqAll_rest d b i p n)
@[simp] theorem irqAll_tags (b : Blk) (i p n : Nat) : (d.irqAll b i p n).tags = d.tags := rest_tags (irqAll_rest d b i p n)
@[simp] theorem irqAll_chans (b : Blk) (i p n : Nat) : (d.irqAll b i p n).chans = d.chans := rest_chans (irqAll_rest d b i p n)
@[simp] theorem irqAll_qos (b : Blk) (i p n : Nat) : (d.irqAll b i p n).qos = d.qos := rest_qos (irqAll_rest d b i p n)
@[simp] theorem irqAll_auditRegs (b : Blk) (i p n : Nat) : (d.irqAll b i p n).auditRegs = d.auditRegs := rest_auditRegs (irqAll_rest d b i p n)
@[simp] theorem irqAll_leaked (b : Blk) (i p n : Nat) : (d.irqAll b i p n).leaked = d.leaked := rest_leaked (irqAll_rest d b i p n)
@[simp] theorem irqAll_overclaim (b : Blk) (i p n : Nat) : (d.irqAll b i p n).overclaim = d.overclaim := rest_overclaim (irqAll_rest d b i p n)
@[simp] theorem irqAll_lostAt (b : Blk) (i p n : Nat) : (d.irqAll b i p n).lostAt = d.lostAt := rest_lostAt (irqAll_rest d b i p n)
@[simp] theorem irqAll_witLost (b : Blk) (i p n : Nat) : (d.irqAll b i p n).witLost = d.witLost := rest_witLost (irqAll_rest d b i p n)
@[simp] theorem irqAll_witWait (b : Blk) (i p n : Nat) : (d.irqAll b i p n).witWait = d.witWait := rest_witWait (irqAll_rest d b i p n)
@[simp] theorem irqAll_mapAt (b : Blk) (i p n : Nat) : (d.irqAll b i p n).mapAt = d.mapAt := rest_mapAt (irqAll_rest d b i p n)
@[simp] theorem irqAll_oldMaps (b : Blk) (i p n : Nat) : (d.irqAll b i p n).oldMaps = d.oldMaps := rest_oldMaps (irqAll_rest d b i p n)
@[simp] theorem irqAll_relBy (b : Blk) (i p n : Nat) : (d.irqAll b i p n).relBy = d.relBy := rest_relBy (irqAll_rest d b i p n)
@[simp] theorem irqAll_scrubAt (b : Blk) (i p n : Nat) : (d.irqAll b i p n).scrubAt = d.scrubAt := rest_scrubAt (irqAll_rest d b i p n)
@[simp] theorem irqAll_scrubBad (b : Blk) (i p n : Nat) : (d.irqAll b i p n).scrubBad = d.scrubBad := rest_scrubBad (irqAll_rest d b i p n)

@[simp] theorem irqClear_mirror (r : PageRef) (v : Word) : (d.irqClear r v).mirror = d.mirror := rest_mirror (irqClear_rest d r v)
@[simp] theorem irqClear_house (r : PageRef) (v : Word) : (d.irqClear r v).house = d.house := rest_house (irqClear_rest d r v)
@[simp] theorem irqClear_inReset (r : PageRef) (v : Word) : (d.irqClear r v).inReset = d.inReset := rest_inReset (irqClear_rest d r v)
@[simp] theorem irqClear_draws (r : PageRef) (v : Word) : (d.irqClear r v).draws = d.draws := rest_draws (irqClear_rest d r v)
@[simp] theorem irqClear_resp (r : PageRef) (v : Word) : (d.irqClear r v).resp = d.resp := rest_resp (irqClear_rest d r v)
@[simp] theorem irqClear_loHold (r : PageRef) (v : Word) : (d.irqClear r v).loHold = d.loHold := rest_loHold (irqClear_rest d r v)
@[simp] theorem irqClear_hiLatch (r : PageRef) (v : Word) : (d.irqClear r v).hiLatch = d.hiLatch := rest_hiLatch (irqClear_rest d r v)
@[simp] theorem irqClear_fences (r : PageRef) (v : Word) : (d.irqClear r v).fences = d.fences := rest_fences (irqClear_rest d r v)
@[simp] theorem irqClear_draining (r : PageRef) (v : Word) : (d.irqClear r v).draining = d.draining := rest_draining (irqClear_rest d r v)
@[simp] theorem irqClear_booksDue (r : PageRef) (v : Word) : (d.irqClear r v).booksDue = d.booksDue := rest_booksDue (irqClear_rest d r v)
@[simp] theorem irqClear_snapSrc (r : PageRef) (v : Word) : (d.irqClear r v).snapSrc = d.snapSrc := rest_snapSrc (irqClear_rest d r v)
@[simp] theorem irqClear_snapSched (r : PageRef) (v : Word) : (d.irqClear r v).snapSched = d.snapSched := rest_snapSched (irqClear_rest d r v)
@[simp] theorem irqClear_auditE (r : PageRef) (v : Word) : (d.irqClear r v).auditE = d.auditE := rest_auditE (irqClear_rest d r v)
@[simp] theorem irqClear_auditNoTalon (r : PageRef) (v : Word) : (d.irqClear r v).auditNoTalon = d.auditNoTalon := rest_auditNoTalon (irqClear_rest d r v)
@[simp] theorem irqClear_auditDue (r : PageRef) (v : Word) : (d.irqClear r v).auditDue = d.auditDue := rest_auditDue (irqClear_rest d r v)
@[simp] theorem irqClear_auditSecond (r : PageRef) (v : Word) : (d.irqClear r v).auditSecond = d.auditSecond := rest_auditSecond (irqClear_rest d r v)
@[simp] theorem irqClear_auditFree (r : PageRef) (v : Word) : (d.irqClear r v).auditFree = d.auditFree := rest_auditFree (irqClear_rest d r v)
@[simp] theorem irqClear_auditAlloc (r : PageRef) (v : Word) : (d.irqClear r v).auditAlloc = d.auditAlloc := rest_auditAlloc (irqClear_rest d r v)
@[simp] theorem irqClear_talonFrozen (r : PageRef) (v : Word) : (d.irqClear r v).talonFrozen = d.talonFrozen := rest_talonFrozen (irqClear_rest d r v)
@[simp] theorem irqClear_rebuildAsked (r : PageRef) (v : Word) : (d.irqClear r v).rebuildAsked = d.rebuildAsked := rest_rebuildAsked (irqClear_rest d r v)
@[simp] theorem irqClear_cfgReady (r : PageRef) (v : Word) : (d.irqClear r v).cfgReady = d.cfgReady := rest_cfgReady (irqClear_rest d r v)
@[simp] theorem irqClear_lanes (r : PageRef) (v : Word) : (d.irqClear r v).lanes = d.lanes := rest_lanes (irqClear_rest d r v)
@[simp] theorem irqClear_bondTx (r : PageRef) (v : Word) : (d.irqClear r v).bondTx = d.bondTx := rest_bondTx (irqClear_rest d r v)
@[simp] theorem irqClear_bondRx (r : PageRef) (v : Word) : (d.irqClear r v).bondRx = d.bondRx := rest_bondRx (irqClear_rest d r v)
@[simp] theorem irqClear_ctxs (r : PageRef) (v : Word) : (d.irqClear r v).ctxs = d.ctxs := rest_ctxs (irqClear_rest d r v)
@[simp] theorem irqClear_maps (r : PageRef) (v : Word) : (d.irqClear r v).maps = d.maps := rest_maps (irqClear_rest d r v)
@[simp] theorem irqClear_releasing (r : PageRef) (v : Word) : (d.irqClear r v).releasing = d.releasing := rest_releasing (irqClear_rest d r v)
@[simp] theorem irqClear_tiles (r : PageRef) (v : Word) : (d.irqClear r v).tiles = d.tiles := rest_tiles (irqClear_rest d r v)
@[simp] theorem irqClear_bytes (r : PageRef) (v : Word) : (d.irqClear r v).bytes = d.bytes := rest_bytes (irqClear_rest d r v)
@[simp] theorem irqClear_pcErrs (r : PageRef) (v : Word) : (d.irqClear r v).pcErrs = d.pcErrs := rest_pcErrs (irqClear_rest d r v)
@[simp] theorem irqClear_moved (r : PageRef) (v : Word) : (d.irqClear r v).moved = d.moved := rest_moved (irqClear_rest d r v)
@[simp] theorem irqClear_coefs (r : PageRef) (v : Word) : (d.irqClear r v).coefs = d.coefs := rest_coefs (irqClear_rest d r v)
@[simp] theorem irqClear_layers (r : PageRef) (v : Word) : (d.irqClear r v).layers = d.layers := rest_layers (irqClear_rest d r v)
@[simp] theorem irqClear_readers (r : PageRef) (v : Word) : (d.irqClear r v).readers = d.readers := rest_readers (irqClear_rest d r v)
@[simp] theorem irqClear_heads (r : PageRef) (v : Word) : (d.irqClear r v).heads = d.heads := rest_heads (irqClear_rest d r v)
@[simp] theorem irqClear_melds (r : PageRef) (v : Word) : (d.irqClear r v).melds = d.melds := rest_melds (irqClear_rest d r v)
@[simp] theorem irqClear_ports (r : PageRef) (v : Word) : (d.irqClear r v).ports = d.ports := rest_ports (irqClear_rest d r v)
@[simp] theorem irqClear_sbHpd (r : PageRef) (v : Word) : (d.irqClear r v).sbHpd = d.sbHpd := rest_sbHpd (irqClear_rest d r v)
@[simp] theorem irqClear_videoSeqs (r : PageRef) (v : Word) : (d.irqClear r v).videoSeqs = d.videoSeqs := rest_videoSeqs (irqClear_rest d r v)
@[simp] theorem irqClear_netBack (r : PageRef) (v : Word) : (d.irqClear r v).netBack = d.netBack := rest_netBack (irqClear_rest d r v)
@[simp] theorem irqClear_busResp (r : PageRef) (v : Word) : (d.irqClear r v).busResp = d.busResp := rest_busResp (irqClear_rest d r v)
@[simp] theorem irqClear_luts (r : PageRef) (v : Word) : (d.irqClear r v).luts = d.luts := rest_luts (irqClear_rest d r v)
@[simp] theorem irqClear_recHeads (r : PageRef) (v : Word) : (d.irqClear r v).recHeads = d.recHeads := rest_recHeads (irqClear_rest d r v)
@[simp] theorem irqClear_recRing (r : PageRef) (v : Word) : (d.irqClear r v).recRing = d.recRing := rest_recRing (irqClear_rest d r v)
@[simp] theorem irqClear_recBytes (r : PageRef) (v : Word) : (d.irqClear r v).recBytes = d.recBytes := rest_recBytes (irqClear_rest d r v)
@[simp] theorem irqClear_handLock (r : PageRef) (v : Word) : (d.irqClear r v).handLock = d.handLock := rest_handLock (irqClear_rest d r v)
@[simp] theorem irqClear_engSince (r : PageRef) (v : Word) : (d.irqClear r v).engSince = d.engSince := rest_engSince (irqClear_rest d r v)
@[simp] theorem irqClear_engBusyNs (r : PageRef) (v : Word) : (d.irqClear r v).engBusyNs = d.engBusyNs := rest_engBusyNs (irqClear_rest d r v)
@[simp] theorem irqClear_hand (r : PageRef) (v : Word) : (d.irqClear r v).hand = d.hand := rest_hand (irqClear_rest d r v)
@[simp] theorem irqClear_tm (r : PageRef) (v : Word) : (d.irqClear r v).tm = d.tm := rest_tm (irqClear_rest d r v)
@[simp] theorem irqClear_relTime (r : PageRef) (v : Word) : (d.irqClear r v).relTime = d.relTime := rest_relTime (irqClear_rest d r v)
@[simp] theorem irqClear_witChan (r : PageRef) (v : Word) : (d.irqClear r v).witChan = d.witChan := rest_witChan (irqClear_rest d r v)
@[simp] theorem irqClear_witResume (r : PageRef) (v : Word) : (d.irqClear r v).witResume = d.witResume := rest_witResume (irqClear_rest d r v)
@[simp] theorem irqClear_witHanded (r : PageRef) (v : Word) : (d.irqClear r v).witHanded = d.witHanded := rest_witHanded (irqClear_rest d r v)
@[simp] theorem irqClear_witChained (r : PageRef) (v : Word) : (d.irqClear r v).witChained = d.witChained := rest_witChained (irqClear_rest d r v)
@[simp] theorem irqClear_audio (r : PageRef) (v : Word) : (d.irqClear r v).audio = d.audio := rest_audio (irqClear_rest d r v)
@[simp] theorem irqClear_tsends (r : PageRef) (v : Word) : (d.irqClear r v).tsends = d.tsends := rest_tsends (irqClear_rest d r v)
@[simp] theorem irqClear_written (r : PageRef) (v : Word) : (d.irqClear r v).written = d.written := rest_written (irqClear_rest d r v)
@[simp] theorem irqClear_deal (r : PageRef) (v : Word) : (d.irqClear r v).deal = d.deal := rest_deal (irqClear_rest d r v)
@[simp] theorem irqClear_keys (r : PageRef) (v : Word) : (d.irqClear r v).keys = d.keys := rest_keys (irqClear_rest d r v)
@[simp] theorem irqClear_mg (r : PageRef) (v : Word) : (d.irqClear r v).mg = d.mg := rest_mg (irqClear_rest d r v)
@[simp] theorem irqClear_store (r : PageRef) (v : Word) : (d.irqClear r v).store = d.store := rest_store (irqClear_rest d r v)
@[simp] theorem irqClear_doms (r : PageRef) (v : Word) : (d.irqClear r v).doms = d.doms := rest_doms (irqClear_rest d r v)
@[simp] theorem irqClear_units (r : PageRef) (v : Word) : (d.irqClear r v).units = d.units := rest_units (irqClear_rest d r v)
@[simp] theorem irqClear_aliveAt (r : PageRef) (v : Word) : (d.irqClear r v).aliveAt = d.aliveAt := rest_aliveAt (irqClear_rest d r v)
@[simp] theorem irqClear_alive (r : PageRef) (v : Word) : (d.irqClear r v).alive = d.alive := rest_alive (irqClear_rest d r v)
@[simp] theorem irqClear_hbmScrub (r : PageRef) (v : Word) : (d.irqClear r v).hbmScrub = d.hbmScrub := rest_hbmScrub (irqClear_rest d r v)
@[simp] theorem irqClear_dmaLast (r : PageRef) (v : Word) : (d.irqClear r v).dmaLast = d.dmaLast := rest_dmaLast (irqClear_rest d r v)
@[simp] theorem irqClear_rebuilt (r : PageRef) (v : Word) : (d.irqClear r v).rebuilt = d.rebuilt := rest_rebuilt (irqClear_rest d r v)
@[simp] theorem irqClear_talonWaits (r : PageRef) (v : Word) : (d.irqClear r v).talonWaits = d.talonWaits := rest_talonWaits (irqClear_rest d r v)
@[simp] theorem irqClear_tags (r : PageRef) (v : Word) : (d.irqClear r v).tags = d.tags := rest_tags (irqClear_rest d r v)
@[simp] theorem irqClear_chans (r : PageRef) (v : Word) : (d.irqClear r v).chans = d.chans := rest_chans (irqClear_rest d r v)
@[simp] theorem irqClear_qos (r : PageRef) (v : Word) : (d.irqClear r v).qos = d.qos := rest_qos (irqClear_rest d r v)
@[simp] theorem irqClear_auditRegs (r : PageRef) (v : Word) : (d.irqClear r v).auditRegs = d.auditRegs := rest_auditRegs (irqClear_rest d r v)
@[simp] theorem irqClear_leaked (r : PageRef) (v : Word) : (d.irqClear r v).leaked = d.leaked := rest_leaked (irqClear_rest d r v)
@[simp] theorem irqClear_overclaim (r : PageRef) (v : Word) : (d.irqClear r v).overclaim = d.overclaim := rest_overclaim (irqClear_rest d r v)
@[simp] theorem irqClear_lostAt (r : PageRef) (v : Word) : (d.irqClear r v).lostAt = d.lostAt := rest_lostAt (irqClear_rest d r v)
@[simp] theorem irqClear_witLost (r : PageRef) (v : Word) : (d.irqClear r v).witLost = d.witLost := rest_witLost (irqClear_rest d r v)
@[simp] theorem irqClear_witWait (r : PageRef) (v : Word) : (d.irqClear r v).witWait = d.witWait := rest_witWait (irqClear_rest d r v)
@[simp] theorem irqClear_mapAt (r : PageRef) (v : Word) : (d.irqClear r v).mapAt = d.mapAt := rest_mapAt (irqClear_rest d r v)
@[simp] theorem irqClear_oldMaps (r : PageRef) (v : Word) : (d.irqClear r v).oldMaps = d.oldMaps := rest_oldMaps (irqClear_rest d r v)
@[simp] theorem irqClear_relBy (r : PageRef) (v : Word) : (d.irqClear r v).relBy = d.relBy := rest_relBy (irqClear_rest d r v)
@[simp] theorem irqClear_scrubAt (r : PageRef) (v : Word) : (d.irqClear r v).scrubAt = d.scrubAt := rest_scrubAt (irqClear_rest d r v)
@[simp] theorem irqClear_scrubBad (r : PageRef) (v : Word) : (d.irqClear r v).scrubBad = d.scrubBad := rest_scrubBad (irqClear_rest d r v)

@[simp] theorem irqEnable_mirror (r : PageRef) (v : Word) : (d.irqEnable r v).mirror = d.mirror := rest_mirror (irqEnable_rest d r v)
@[simp] theorem irqEnable_house (r : PageRef) (v : Word) : (d.irqEnable r v).house = d.house := rest_house (irqEnable_rest d r v)
@[simp] theorem irqEnable_inReset (r : PageRef) (v : Word) : (d.irqEnable r v).inReset = d.inReset := rest_inReset (irqEnable_rest d r v)
@[simp] theorem irqEnable_draws (r : PageRef) (v : Word) : (d.irqEnable r v).draws = d.draws := rest_draws (irqEnable_rest d r v)
@[simp] theorem irqEnable_resp (r : PageRef) (v : Word) : (d.irqEnable r v).resp = d.resp := rest_resp (irqEnable_rest d r v)
@[simp] theorem irqEnable_loHold (r : PageRef) (v : Word) : (d.irqEnable r v).loHold = d.loHold := rest_loHold (irqEnable_rest d r v)
@[simp] theorem irqEnable_hiLatch (r : PageRef) (v : Word) : (d.irqEnable r v).hiLatch = d.hiLatch := rest_hiLatch (irqEnable_rest d r v)
@[simp] theorem irqEnable_fences (r : PageRef) (v : Word) : (d.irqEnable r v).fences = d.fences := rest_fences (irqEnable_rest d r v)
@[simp] theorem irqEnable_draining (r : PageRef) (v : Word) : (d.irqEnable r v).draining = d.draining := rest_draining (irqEnable_rest d r v)
@[simp] theorem irqEnable_booksDue (r : PageRef) (v : Word) : (d.irqEnable r v).booksDue = d.booksDue := rest_booksDue (irqEnable_rest d r v)
@[simp] theorem irqEnable_snapSrc (r : PageRef) (v : Word) : (d.irqEnable r v).snapSrc = d.snapSrc := rest_snapSrc (irqEnable_rest d r v)
@[simp] theorem irqEnable_snapSched (r : PageRef) (v : Word) : (d.irqEnable r v).snapSched = d.snapSched := rest_snapSched (irqEnable_rest d r v)
@[simp] theorem irqEnable_auditE (r : PageRef) (v : Word) : (d.irqEnable r v).auditE = d.auditE := rest_auditE (irqEnable_rest d r v)
@[simp] theorem irqEnable_auditNoTalon (r : PageRef) (v : Word) : (d.irqEnable r v).auditNoTalon = d.auditNoTalon := rest_auditNoTalon (irqEnable_rest d r v)
@[simp] theorem irqEnable_auditDue (r : PageRef) (v : Word) : (d.irqEnable r v).auditDue = d.auditDue := rest_auditDue (irqEnable_rest d r v)
@[simp] theorem irqEnable_auditSecond (r : PageRef) (v : Word) : (d.irqEnable r v).auditSecond = d.auditSecond := rest_auditSecond (irqEnable_rest d r v)
@[simp] theorem irqEnable_auditFree (r : PageRef) (v : Word) : (d.irqEnable r v).auditFree = d.auditFree := rest_auditFree (irqEnable_rest d r v)
@[simp] theorem irqEnable_auditAlloc (r : PageRef) (v : Word) : (d.irqEnable r v).auditAlloc = d.auditAlloc := rest_auditAlloc (irqEnable_rest d r v)
@[simp] theorem irqEnable_talonFrozen (r : PageRef) (v : Word) : (d.irqEnable r v).talonFrozen = d.talonFrozen := rest_talonFrozen (irqEnable_rest d r v)
@[simp] theorem irqEnable_rebuildAsked (r : PageRef) (v : Word) : (d.irqEnable r v).rebuildAsked = d.rebuildAsked := rest_rebuildAsked (irqEnable_rest d r v)
@[simp] theorem irqEnable_cfgReady (r : PageRef) (v : Word) : (d.irqEnable r v).cfgReady = d.cfgReady := rest_cfgReady (irqEnable_rest d r v)
@[simp] theorem irqEnable_lanes (r : PageRef) (v : Word) : (d.irqEnable r v).lanes = d.lanes := rest_lanes (irqEnable_rest d r v)
@[simp] theorem irqEnable_bondTx (r : PageRef) (v : Word) : (d.irqEnable r v).bondTx = d.bondTx := rest_bondTx (irqEnable_rest d r v)
@[simp] theorem irqEnable_bondRx (r : PageRef) (v : Word) : (d.irqEnable r v).bondRx = d.bondRx := rest_bondRx (irqEnable_rest d r v)
@[simp] theorem irqEnable_ctxs (r : PageRef) (v : Word) : (d.irqEnable r v).ctxs = d.ctxs := rest_ctxs (irqEnable_rest d r v)
@[simp] theorem irqEnable_maps (r : PageRef) (v : Word) : (d.irqEnable r v).maps = d.maps := rest_maps (irqEnable_rest d r v)
@[simp] theorem irqEnable_releasing (r : PageRef) (v : Word) : (d.irqEnable r v).releasing = d.releasing := rest_releasing (irqEnable_rest d r v)
@[simp] theorem irqEnable_tiles (r : PageRef) (v : Word) : (d.irqEnable r v).tiles = d.tiles := rest_tiles (irqEnable_rest d r v)
@[simp] theorem irqEnable_bytes (r : PageRef) (v : Word) : (d.irqEnable r v).bytes = d.bytes := rest_bytes (irqEnable_rest d r v)
@[simp] theorem irqEnable_pcErrs (r : PageRef) (v : Word) : (d.irqEnable r v).pcErrs = d.pcErrs := rest_pcErrs (irqEnable_rest d r v)
@[simp] theorem irqEnable_moved (r : PageRef) (v : Word) : (d.irqEnable r v).moved = d.moved := rest_moved (irqEnable_rest d r v)
@[simp] theorem irqEnable_coefs (r : PageRef) (v : Word) : (d.irqEnable r v).coefs = d.coefs := rest_coefs (irqEnable_rest d r v)
@[simp] theorem irqEnable_layers (r : PageRef) (v : Word) : (d.irqEnable r v).layers = d.layers := rest_layers (irqEnable_rest d r v)
@[simp] theorem irqEnable_readers (r : PageRef) (v : Word) : (d.irqEnable r v).readers = d.readers := rest_readers (irqEnable_rest d r v)
@[simp] theorem irqEnable_heads (r : PageRef) (v : Word) : (d.irqEnable r v).heads = d.heads := rest_heads (irqEnable_rest d r v)
@[simp] theorem irqEnable_melds (r : PageRef) (v : Word) : (d.irqEnable r v).melds = d.melds := rest_melds (irqEnable_rest d r v)
@[simp] theorem irqEnable_ports (r : PageRef) (v : Word) : (d.irqEnable r v).ports = d.ports := rest_ports (irqEnable_rest d r v)
@[simp] theorem irqEnable_sbHpd (r : PageRef) (v : Word) : (d.irqEnable r v).sbHpd = d.sbHpd := rest_sbHpd (irqEnable_rest d r v)
@[simp] theorem irqEnable_videoSeqs (r : PageRef) (v : Word) : (d.irqEnable r v).videoSeqs = d.videoSeqs := rest_videoSeqs (irqEnable_rest d r v)
@[simp] theorem irqEnable_netBack (r : PageRef) (v : Word) : (d.irqEnable r v).netBack = d.netBack := rest_netBack (irqEnable_rest d r v)
@[simp] theorem irqEnable_busResp (r : PageRef) (v : Word) : (d.irqEnable r v).busResp = d.busResp := rest_busResp (irqEnable_rest d r v)
@[simp] theorem irqEnable_luts (r : PageRef) (v : Word) : (d.irqEnable r v).luts = d.luts := rest_luts (irqEnable_rest d r v)
@[simp] theorem irqEnable_recHeads (r : PageRef) (v : Word) : (d.irqEnable r v).recHeads = d.recHeads := rest_recHeads (irqEnable_rest d r v)
@[simp] theorem irqEnable_recRing (r : PageRef) (v : Word) : (d.irqEnable r v).recRing = d.recRing := rest_recRing (irqEnable_rest d r v)
@[simp] theorem irqEnable_recBytes (r : PageRef) (v : Word) : (d.irqEnable r v).recBytes = d.recBytes := rest_recBytes (irqEnable_rest d r v)
@[simp] theorem irqEnable_handLock (r : PageRef) (v : Word) : (d.irqEnable r v).handLock = d.handLock := rest_handLock (irqEnable_rest d r v)
@[simp] theorem irqEnable_engSince (r : PageRef) (v : Word) : (d.irqEnable r v).engSince = d.engSince := rest_engSince (irqEnable_rest d r v)
@[simp] theorem irqEnable_engBusyNs (r : PageRef) (v : Word) : (d.irqEnable r v).engBusyNs = d.engBusyNs := rest_engBusyNs (irqEnable_rest d r v)
@[simp] theorem irqEnable_hand (r : PageRef) (v : Word) : (d.irqEnable r v).hand = d.hand := rest_hand (irqEnable_rest d r v)
@[simp] theorem irqEnable_tm (r : PageRef) (v : Word) : (d.irqEnable r v).tm = d.tm := rest_tm (irqEnable_rest d r v)
@[simp] theorem irqEnable_relTime (r : PageRef) (v : Word) : (d.irqEnable r v).relTime = d.relTime := rest_relTime (irqEnable_rest d r v)
@[simp] theorem irqEnable_witChan (r : PageRef) (v : Word) : (d.irqEnable r v).witChan = d.witChan := rest_witChan (irqEnable_rest d r v)
@[simp] theorem irqEnable_witResume (r : PageRef) (v : Word) : (d.irqEnable r v).witResume = d.witResume := rest_witResume (irqEnable_rest d r v)
@[simp] theorem irqEnable_witHanded (r : PageRef) (v : Word) : (d.irqEnable r v).witHanded = d.witHanded := rest_witHanded (irqEnable_rest d r v)
@[simp] theorem irqEnable_witChained (r : PageRef) (v : Word) : (d.irqEnable r v).witChained = d.witChained := rest_witChained (irqEnable_rest d r v)
@[simp] theorem irqEnable_audio (r : PageRef) (v : Word) : (d.irqEnable r v).audio = d.audio := rest_audio (irqEnable_rest d r v)
@[simp] theorem irqEnable_tsends (r : PageRef) (v : Word) : (d.irqEnable r v).tsends = d.tsends := rest_tsends (irqEnable_rest d r v)
@[simp] theorem irqEnable_written (r : PageRef) (v : Word) : (d.irqEnable r v).written = d.written := rest_written (irqEnable_rest d r v)
@[simp] theorem irqEnable_deal (r : PageRef) (v : Word) : (d.irqEnable r v).deal = d.deal := rest_deal (irqEnable_rest d r v)
@[simp] theorem irqEnable_keys (r : PageRef) (v : Word) : (d.irqEnable r v).keys = d.keys := rest_keys (irqEnable_rest d r v)
@[simp] theorem irqEnable_mg (r : PageRef) (v : Word) : (d.irqEnable r v).mg = d.mg := rest_mg (irqEnable_rest d r v)
@[simp] theorem irqEnable_store (r : PageRef) (v : Word) : (d.irqEnable r v).store = d.store := rest_store (irqEnable_rest d r v)
@[simp] theorem irqEnable_doms (r : PageRef) (v : Word) : (d.irqEnable r v).doms = d.doms := rest_doms (irqEnable_rest d r v)
@[simp] theorem irqEnable_units (r : PageRef) (v : Word) : (d.irqEnable r v).units = d.units := rest_units (irqEnable_rest d r v)
@[simp] theorem irqEnable_aliveAt (r : PageRef) (v : Word) : (d.irqEnable r v).aliveAt = d.aliveAt := rest_aliveAt (irqEnable_rest d r v)
@[simp] theorem irqEnable_alive (r : PageRef) (v : Word) : (d.irqEnable r v).alive = d.alive := rest_alive (irqEnable_rest d r v)
@[simp] theorem irqEnable_hbmScrub (r : PageRef) (v : Word) : (d.irqEnable r v).hbmScrub = d.hbmScrub := rest_hbmScrub (irqEnable_rest d r v)
@[simp] theorem irqEnable_dmaLast (r : PageRef) (v : Word) : (d.irqEnable r v).dmaLast = d.dmaLast := rest_dmaLast (irqEnable_rest d r v)
@[simp] theorem irqEnable_rebuilt (r : PageRef) (v : Word) : (d.irqEnable r v).rebuilt = d.rebuilt := rest_rebuilt (irqEnable_rest d r v)
@[simp] theorem irqEnable_talonWaits (r : PageRef) (v : Word) : (d.irqEnable r v).talonWaits = d.talonWaits := rest_talonWaits (irqEnable_rest d r v)
@[simp] theorem irqEnable_tags (r : PageRef) (v : Word) : (d.irqEnable r v).tags = d.tags := rest_tags (irqEnable_rest d r v)
@[simp] theorem irqEnable_chans (r : PageRef) (v : Word) : (d.irqEnable r v).chans = d.chans := rest_chans (irqEnable_rest d r v)
@[simp] theorem irqEnable_qos (r : PageRef) (v : Word) : (d.irqEnable r v).qos = d.qos := rest_qos (irqEnable_rest d r v)
@[simp] theorem irqEnable_auditRegs (r : PageRef) (v : Word) : (d.irqEnable r v).auditRegs = d.auditRegs := rest_auditRegs (irqEnable_rest d r v)
@[simp] theorem irqEnable_leaked (r : PageRef) (v : Word) : (d.irqEnable r v).leaked = d.leaked := rest_leaked (irqEnable_rest d r v)
@[simp] theorem irqEnable_overclaim (r : PageRef) (v : Word) : (d.irqEnable r v).overclaim = d.overclaim := rest_overclaim (irqEnable_rest d r v)
@[simp] theorem irqEnable_lostAt (r : PageRef) (v : Word) : (d.irqEnable r v).lostAt = d.lostAt := rest_lostAt (irqEnable_rest d r v)
@[simp] theorem irqEnable_witLost (r : PageRef) (v : Word) : (d.irqEnable r v).witLost = d.witLost := rest_witLost (irqEnable_rest d r v)
@[simp] theorem irqEnable_witWait (r : PageRef) (v : Word) : (d.irqEnable r v).witWait = d.witWait := rest_witWait (irqEnable_rest d r v)
@[simp] theorem irqEnable_mapAt (r : PageRef) (v : Word) : (d.irqEnable r v).mapAt = d.mapAt := rest_mapAt (irqEnable_rest d r v)
@[simp] theorem irqEnable_oldMaps (r : PageRef) (v : Word) : (d.irqEnable r v).oldMaps = d.oldMaps := rest_oldMaps (irqEnable_rest d r v)
@[simp] theorem irqEnable_relBy (r : PageRef) (v : Word) : (d.irqEnable r v).relBy = d.relBy := rest_relBy (irqEnable_rest d r v)
@[simp] theorem irqEnable_scrubAt (r : PageRef) (v : Word) : (d.irqEnable r v).scrubAt = d.scrubAt := rest_scrubAt (irqEnable_rest d r v)
@[simp] theorem irqEnable_scrubBad (r : PageRef) (v : Word) : (d.irqEnable r v).scrubBad = d.scrubBad := rest_scrubBad (irqEnable_rest d r v)

@[simp] theorem clear_mirror (fs : List Fld) (i k : Nat) : (d.clear fs i k).mirror = d.mirror := rest_mirror (clear_rest d fs i k)
@[simp] theorem clear_house (fs : List Fld) (i k : Nat) : (d.clear fs i k).house = d.house := rest_house (clear_rest d fs i k)
@[simp] theorem clear_inReset (fs : List Fld) (i k : Nat) : (d.clear fs i k).inReset = d.inReset := rest_inReset (clear_rest d fs i k)
@[simp] theorem clear_draws (fs : List Fld) (i k : Nat) : (d.clear fs i k).draws = d.draws := rest_draws (clear_rest d fs i k)
@[simp] theorem clear_resp (fs : List Fld) (i k : Nat) : (d.clear fs i k).resp = d.resp := rest_resp (clear_rest d fs i k)
@[simp] theorem clear_loHold (fs : List Fld) (i k : Nat) : (d.clear fs i k).loHold = d.loHold := rest_loHold (clear_rest d fs i k)
@[simp] theorem clear_hiLatch (fs : List Fld) (i k : Nat) : (d.clear fs i k).hiLatch = d.hiLatch := rest_hiLatch (clear_rest d fs i k)
@[simp] theorem clear_fences (fs : List Fld) (i k : Nat) : (d.clear fs i k).fences = d.fences := rest_fences (clear_rest d fs i k)
@[simp] theorem clear_draining (fs : List Fld) (i k : Nat) : (d.clear fs i k).draining = d.draining := rest_draining (clear_rest d fs i k)
@[simp] theorem clear_booksDue (fs : List Fld) (i k : Nat) : (d.clear fs i k).booksDue = d.booksDue := rest_booksDue (clear_rest d fs i k)
@[simp] theorem clear_snapSrc (fs : List Fld) (i k : Nat) : (d.clear fs i k).snapSrc = d.snapSrc := rest_snapSrc (clear_rest d fs i k)
@[simp] theorem clear_snapSched (fs : List Fld) (i k : Nat) : (d.clear fs i k).snapSched = d.snapSched := rest_snapSched (clear_rest d fs i k)
@[simp] theorem clear_auditE (fs : List Fld) (i k : Nat) : (d.clear fs i k).auditE = d.auditE := rest_auditE (clear_rest d fs i k)
@[simp] theorem clear_auditNoTalon (fs : List Fld) (i k : Nat) : (d.clear fs i k).auditNoTalon = d.auditNoTalon := rest_auditNoTalon (clear_rest d fs i k)
@[simp] theorem clear_auditDue (fs : List Fld) (i k : Nat) : (d.clear fs i k).auditDue = d.auditDue := rest_auditDue (clear_rest d fs i k)
@[simp] theorem clear_auditSecond (fs : List Fld) (i k : Nat) : (d.clear fs i k).auditSecond = d.auditSecond := rest_auditSecond (clear_rest d fs i k)
@[simp] theorem clear_auditFree (fs : List Fld) (i k : Nat) : (d.clear fs i k).auditFree = d.auditFree := rest_auditFree (clear_rest d fs i k)
@[simp] theorem clear_auditAlloc (fs : List Fld) (i k : Nat) : (d.clear fs i k).auditAlloc = d.auditAlloc := rest_auditAlloc (clear_rest d fs i k)
@[simp] theorem clear_talonFrozen (fs : List Fld) (i k : Nat) : (d.clear fs i k).talonFrozen = d.talonFrozen := rest_talonFrozen (clear_rest d fs i k)
@[simp] theorem clear_rebuildAsked (fs : List Fld) (i k : Nat) : (d.clear fs i k).rebuildAsked = d.rebuildAsked := rest_rebuildAsked (clear_rest d fs i k)
@[simp] theorem clear_cfgReady (fs : List Fld) (i k : Nat) : (d.clear fs i k).cfgReady = d.cfgReady := rest_cfgReady (clear_rest d fs i k)
@[simp] theorem clear_lanes (fs : List Fld) (i k : Nat) : (d.clear fs i k).lanes = d.lanes := rest_lanes (clear_rest d fs i k)
@[simp] theorem clear_bondTx (fs : List Fld) (i k : Nat) : (d.clear fs i k).bondTx = d.bondTx := rest_bondTx (clear_rest d fs i k)
@[simp] theorem clear_bondRx (fs : List Fld) (i k : Nat) : (d.clear fs i k).bondRx = d.bondRx := rest_bondRx (clear_rest d fs i k)
@[simp] theorem clear_ctxs (fs : List Fld) (i k : Nat) : (d.clear fs i k).ctxs = d.ctxs := rest_ctxs (clear_rest d fs i k)
@[simp] theorem clear_maps (fs : List Fld) (i k : Nat) : (d.clear fs i k).maps = d.maps := rest_maps (clear_rest d fs i k)
@[simp] theorem clear_releasing (fs : List Fld) (i k : Nat) : (d.clear fs i k).releasing = d.releasing := rest_releasing (clear_rest d fs i k)
@[simp] theorem clear_tiles (fs : List Fld) (i k : Nat) : (d.clear fs i k).tiles = d.tiles := rest_tiles (clear_rest d fs i k)
@[simp] theorem clear_bytes (fs : List Fld) (i k : Nat) : (d.clear fs i k).bytes = d.bytes := rest_bytes (clear_rest d fs i k)
@[simp] theorem clear_pcErrs (fs : List Fld) (i k : Nat) : (d.clear fs i k).pcErrs = d.pcErrs := rest_pcErrs (clear_rest d fs i k)
@[simp] theorem clear_moved (fs : List Fld) (i k : Nat) : (d.clear fs i k).moved = d.moved := rest_moved (clear_rest d fs i k)
@[simp] theorem clear_coefs (fs : List Fld) (i k : Nat) : (d.clear fs i k).coefs = d.coefs := rest_coefs (clear_rest d fs i k)
@[simp] theorem clear_layers (fs : List Fld) (i k : Nat) : (d.clear fs i k).layers = d.layers := rest_layers (clear_rest d fs i k)
@[simp] theorem clear_readers (fs : List Fld) (i k : Nat) : (d.clear fs i k).readers = d.readers := rest_readers (clear_rest d fs i k)
@[simp] theorem clear_heads (fs : List Fld) (i k : Nat) : (d.clear fs i k).heads = d.heads := rest_heads (clear_rest d fs i k)
@[simp] theorem clear_melds (fs : List Fld) (i k : Nat) : (d.clear fs i k).melds = d.melds := rest_melds (clear_rest d fs i k)
@[simp] theorem clear_ports (fs : List Fld) (i k : Nat) : (d.clear fs i k).ports = d.ports := rest_ports (clear_rest d fs i k)
@[simp] theorem clear_sbHpd (fs : List Fld) (i k : Nat) : (d.clear fs i k).sbHpd = d.sbHpd := rest_sbHpd (clear_rest d fs i k)
@[simp] theorem clear_videoSeqs (fs : List Fld) (i k : Nat) : (d.clear fs i k).videoSeqs = d.videoSeqs := rest_videoSeqs (clear_rest d fs i k)
@[simp] theorem clear_netBack (fs : List Fld) (i k : Nat) : (d.clear fs i k).netBack = d.netBack := rest_netBack (clear_rest d fs i k)
@[simp] theorem clear_busResp (fs : List Fld) (i k : Nat) : (d.clear fs i k).busResp = d.busResp := rest_busResp (clear_rest d fs i k)
@[simp] theorem clear_luts (fs : List Fld) (i k : Nat) : (d.clear fs i k).luts = d.luts := rest_luts (clear_rest d fs i k)
@[simp] theorem clear_recHeads (fs : List Fld) (i k : Nat) : (d.clear fs i k).recHeads = d.recHeads := rest_recHeads (clear_rest d fs i k)
@[simp] theorem clear_recRing (fs : List Fld) (i k : Nat) : (d.clear fs i k).recRing = d.recRing := rest_recRing (clear_rest d fs i k)
@[simp] theorem clear_recBytes (fs : List Fld) (i k : Nat) : (d.clear fs i k).recBytes = d.recBytes := rest_recBytes (clear_rest d fs i k)
@[simp] theorem clear_handLock (fs : List Fld) (i k : Nat) : (d.clear fs i k).handLock = d.handLock := rest_handLock (clear_rest d fs i k)
@[simp] theorem clear_engSince (fs : List Fld) (i k : Nat) : (d.clear fs i k).engSince = d.engSince := rest_engSince (clear_rest d fs i k)
@[simp] theorem clear_engBusyNs (fs : List Fld) (i k : Nat) : (d.clear fs i k).engBusyNs = d.engBusyNs := rest_engBusyNs (clear_rest d fs i k)
@[simp] theorem clear_hand (fs : List Fld) (i k : Nat) : (d.clear fs i k).hand = d.hand := rest_hand (clear_rest d fs i k)
@[simp] theorem clear_tm (fs : List Fld) (i k : Nat) : (d.clear fs i k).tm = d.tm := rest_tm (clear_rest d fs i k)
@[simp] theorem clear_relTime (fs : List Fld) (i k : Nat) : (d.clear fs i k).relTime = d.relTime := rest_relTime (clear_rest d fs i k)
@[simp] theorem clear_witChan (fs : List Fld) (i k : Nat) : (d.clear fs i k).witChan = d.witChan := rest_witChan (clear_rest d fs i k)
@[simp] theorem clear_witResume (fs : List Fld) (i k : Nat) : (d.clear fs i k).witResume = d.witResume := rest_witResume (clear_rest d fs i k)
@[simp] theorem clear_witHanded (fs : List Fld) (i k : Nat) : (d.clear fs i k).witHanded = d.witHanded := rest_witHanded (clear_rest d fs i k)
@[simp] theorem clear_witChained (fs : List Fld) (i k : Nat) : (d.clear fs i k).witChained = d.witChained := rest_witChained (clear_rest d fs i k)
@[simp] theorem clear_audio (fs : List Fld) (i k : Nat) : (d.clear fs i k).audio = d.audio := rest_audio (clear_rest d fs i k)
@[simp] theorem clear_tsends (fs : List Fld) (i k : Nat) : (d.clear fs i k).tsends = d.tsends := rest_tsends (clear_rest d fs i k)
@[simp] theorem clear_written (fs : List Fld) (i k : Nat) : (d.clear fs i k).written = d.written := rest_written (clear_rest d fs i k)
@[simp] theorem clear_deal (fs : List Fld) (i k : Nat) : (d.clear fs i k).deal = d.deal := rest_deal (clear_rest d fs i k)
@[simp] theorem clear_keys (fs : List Fld) (i k : Nat) : (d.clear fs i k).keys = d.keys := rest_keys (clear_rest d fs i k)
@[simp] theorem clear_mg (fs : List Fld) (i k : Nat) : (d.clear fs i k).mg = d.mg := rest_mg (clear_rest d fs i k)
@[simp] theorem clear_store (fs : List Fld) (i k : Nat) : (d.clear fs i k).store = d.store := rest_store (clear_rest d fs i k)
@[simp] theorem clear_doms (fs : List Fld) (i k : Nat) : (d.clear fs i k).doms = d.doms := rest_doms (clear_rest d fs i k)
@[simp] theorem clear_units (fs : List Fld) (i k : Nat) : (d.clear fs i k).units = d.units := rest_units (clear_rest d fs i k)
@[simp] theorem clear_aliveAt (fs : List Fld) (i k : Nat) : (d.clear fs i k).aliveAt = d.aliveAt := rest_aliveAt (clear_rest d fs i k)
@[simp] theorem clear_alive (fs : List Fld) (i k : Nat) : (d.clear fs i k).alive = d.alive := rest_alive (clear_rest d fs i k)
@[simp] theorem clear_hbmScrub (fs : List Fld) (i k : Nat) : (d.clear fs i k).hbmScrub = d.hbmScrub := rest_hbmScrub (clear_rest d fs i k)
@[simp] theorem clear_dmaLast (fs : List Fld) (i k : Nat) : (d.clear fs i k).dmaLast = d.dmaLast := rest_dmaLast (clear_rest d fs i k)
@[simp] theorem clear_rebuilt (fs : List Fld) (i k : Nat) : (d.clear fs i k).rebuilt = d.rebuilt := rest_rebuilt (clear_rest d fs i k)
@[simp] theorem clear_talonWaits (fs : List Fld) (i k : Nat) : (d.clear fs i k).talonWaits = d.talonWaits := rest_talonWaits (clear_rest d fs i k)
@[simp] theorem clear_tags (fs : List Fld) (i k : Nat) : (d.clear fs i k).tags = d.tags := rest_tags (clear_rest d fs i k)
@[simp] theorem clear_chans (fs : List Fld) (i k : Nat) : (d.clear fs i k).chans = d.chans := rest_chans (clear_rest d fs i k)
@[simp] theorem clear_qos (fs : List Fld) (i k : Nat) : (d.clear fs i k).qos = d.qos := rest_qos (clear_rest d fs i k)
@[simp] theorem clear_auditRegs (fs : List Fld) (i k : Nat) : (d.clear fs i k).auditRegs = d.auditRegs := rest_auditRegs (clear_rest d fs i k)
@[simp] theorem clear_leaked (fs : List Fld) (i k : Nat) : (d.clear fs i k).leaked = d.leaked := rest_leaked (clear_rest d fs i k)
@[simp] theorem clear_overclaim (fs : List Fld) (i k : Nat) : (d.clear fs i k).overclaim = d.overclaim := rest_overclaim (clear_rest d fs i k)
@[simp] theorem clear_lostAt (fs : List Fld) (i k : Nat) : (d.clear fs i k).lostAt = d.lostAt := rest_lostAt (clear_rest d fs i k)
@[simp] theorem clear_witLost (fs : List Fld) (i k : Nat) : (d.clear fs i k).witLost = d.witLost := rest_witLost (clear_rest d fs i k)
@[simp] theorem clear_witWait (fs : List Fld) (i k : Nat) : (d.clear fs i k).witWait = d.witWait := rest_witWait (clear_rest d fs i k)
@[simp] theorem clear_mapAt (fs : List Fld) (i k : Nat) : (d.clear fs i k).mapAt = d.mapAt := rest_mapAt (clear_rest d fs i k)
@[simp] theorem clear_oldMaps (fs : List Fld) (i k : Nat) : (d.clear fs i k).oldMaps = d.oldMaps := rest_oldMaps (clear_rest d fs i k)
@[simp] theorem clear_relBy (fs : List Fld) (i k : Nat) : (d.clear fs i k).relBy = d.relBy := rest_relBy (clear_rest d fs i k)
@[simp] theorem clear_scrubAt (fs : List Fld) (i k : Nat) : (d.clear fs i k).scrubAt = d.scrubAt := rest_scrubAt (clear_rest d fs i k)
@[simp] theorem clear_scrubBad (fs : List Fld) (i k : Nat) : (d.clear fs i k).scrubBad = d.scrubBad := rest_scrubBad (clear_rest d fs i k)

@[simp] theorem logErr_mirror (c a : Nat) (w b : Bool) (r : Option PageRef) : (d.logErr c a w b r).mirror = d.mirror := rest_mirror (logErr_rest d c a w b r)
@[simp] theorem logErr_house (c a : Nat) (w b : Bool) (r : Option PageRef) : (d.logErr c a w b r).house = d.house := rest_house (logErr_rest d c a w b r)
@[simp] theorem logErr_inReset (c a : Nat) (w b : Bool) (r : Option PageRef) : (d.logErr c a w b r).inReset = d.inReset := rest_inReset (logErr_rest d c a w b r)
@[simp] theorem logErr_draws (c a : Nat) (w b : Bool) (r : Option PageRef) : (d.logErr c a w b r).draws = d.draws := rest_draws (logErr_rest d c a w b r)
@[simp] theorem logErr_resp (c a : Nat) (w b : Bool) (r : Option PageRef) : (d.logErr c a w b r).resp = d.resp := rest_resp (logErr_rest d c a w b r)
@[simp] theorem logErr_loHold (c a : Nat) (w b : Bool) (r : Option PageRef) : (d.logErr c a w b r).loHold = d.loHold := rest_loHold (logErr_rest d c a w b r)
@[simp] theorem logErr_hiLatch (c a : Nat) (w b : Bool) (r : Option PageRef) : (d.logErr c a w b r).hiLatch = d.hiLatch := rest_hiLatch (logErr_rest d c a w b r)
@[simp] theorem logErr_fences (c a : Nat) (w b : Bool) (r : Option PageRef) : (d.logErr c a w b r).fences = d.fences := rest_fences (logErr_rest d c a w b r)
@[simp] theorem logErr_draining (c a : Nat) (w b : Bool) (r : Option PageRef) : (d.logErr c a w b r).draining = d.draining := rest_draining (logErr_rest d c a w b r)
@[simp] theorem logErr_booksDue (c a : Nat) (w b : Bool) (r : Option PageRef) : (d.logErr c a w b r).booksDue = d.booksDue := rest_booksDue (logErr_rest d c a w b r)
@[simp] theorem logErr_snapSrc (c a : Nat) (w b : Bool) (r : Option PageRef) : (d.logErr c a w b r).snapSrc = d.snapSrc := rest_snapSrc (logErr_rest d c a w b r)
@[simp] theorem logErr_snapSched (c a : Nat) (w b : Bool) (r : Option PageRef) : (d.logErr c a w b r).snapSched = d.snapSched := rest_snapSched (logErr_rest d c a w b r)
@[simp] theorem logErr_auditE (c a : Nat) (w b : Bool) (r : Option PageRef) : (d.logErr c a w b r).auditE = d.auditE := rest_auditE (logErr_rest d c a w b r)
@[simp] theorem logErr_auditNoTalon (c a : Nat) (w b : Bool) (r : Option PageRef) : (d.logErr c a w b r).auditNoTalon = d.auditNoTalon := rest_auditNoTalon (logErr_rest d c a w b r)
@[simp] theorem logErr_auditDue (c a : Nat) (w b : Bool) (r : Option PageRef) : (d.logErr c a w b r).auditDue = d.auditDue := rest_auditDue (logErr_rest d c a w b r)
@[simp] theorem logErr_auditSecond (c a : Nat) (w b : Bool) (r : Option PageRef) : (d.logErr c a w b r).auditSecond = d.auditSecond := rest_auditSecond (logErr_rest d c a w b r)
@[simp] theorem logErr_auditFree (c a : Nat) (w b : Bool) (r : Option PageRef) : (d.logErr c a w b r).auditFree = d.auditFree := rest_auditFree (logErr_rest d c a w b r)
@[simp] theorem logErr_auditAlloc (c a : Nat) (w b : Bool) (r : Option PageRef) : (d.logErr c a w b r).auditAlloc = d.auditAlloc := rest_auditAlloc (logErr_rest d c a w b r)
@[simp] theorem logErr_talonFrozen (c a : Nat) (w b : Bool) (r : Option PageRef) : (d.logErr c a w b r).talonFrozen = d.talonFrozen := rest_talonFrozen (logErr_rest d c a w b r)
@[simp] theorem logErr_rebuildAsked (c a : Nat) (w b : Bool) (r : Option PageRef) : (d.logErr c a w b r).rebuildAsked = d.rebuildAsked := rest_rebuildAsked (logErr_rest d c a w b r)
@[simp] theorem logErr_cfgReady (c a : Nat) (w b : Bool) (r : Option PageRef) : (d.logErr c a w b r).cfgReady = d.cfgReady := rest_cfgReady (logErr_rest d c a w b r)
@[simp] theorem logErr_lanes (c a : Nat) (w b : Bool) (r : Option PageRef) : (d.logErr c a w b r).lanes = d.lanes := rest_lanes (logErr_rest d c a w b r)
@[simp] theorem logErr_bondTx (c a : Nat) (w b : Bool) (r : Option PageRef) : (d.logErr c a w b r).bondTx = d.bondTx := rest_bondTx (logErr_rest d c a w b r)
@[simp] theorem logErr_bondRx (c a : Nat) (w b : Bool) (r : Option PageRef) : (d.logErr c a w b r).bondRx = d.bondRx := rest_bondRx (logErr_rest d c a w b r)
@[simp] theorem logErr_ctxs (c a : Nat) (w b : Bool) (r : Option PageRef) : (d.logErr c a w b r).ctxs = d.ctxs := rest_ctxs (logErr_rest d c a w b r)
@[simp] theorem logErr_maps (c a : Nat) (w b : Bool) (r : Option PageRef) : (d.logErr c a w b r).maps = d.maps := rest_maps (logErr_rest d c a w b r)
@[simp] theorem logErr_releasing (c a : Nat) (w b : Bool) (r : Option PageRef) : (d.logErr c a w b r).releasing = d.releasing := rest_releasing (logErr_rest d c a w b r)
@[simp] theorem logErr_tiles (c a : Nat) (w b : Bool) (r : Option PageRef) : (d.logErr c a w b r).tiles = d.tiles := rest_tiles (logErr_rest d c a w b r)
@[simp] theorem logErr_bytes (c a : Nat) (w b : Bool) (r : Option PageRef) : (d.logErr c a w b r).bytes = d.bytes := rest_bytes (logErr_rest d c a w b r)
@[simp] theorem logErr_pcErrs (c a : Nat) (w b : Bool) (r : Option PageRef) : (d.logErr c a w b r).pcErrs = d.pcErrs := rest_pcErrs (logErr_rest d c a w b r)
@[simp] theorem logErr_moved (c a : Nat) (w b : Bool) (r : Option PageRef) : (d.logErr c a w b r).moved = d.moved := rest_moved (logErr_rest d c a w b r)
@[simp] theorem logErr_coefs (c a : Nat) (w b : Bool) (r : Option PageRef) : (d.logErr c a w b r).coefs = d.coefs := rest_coefs (logErr_rest d c a w b r)
@[simp] theorem logErr_layers (c a : Nat) (w b : Bool) (r : Option PageRef) : (d.logErr c a w b r).layers = d.layers := rest_layers (logErr_rest d c a w b r)
@[simp] theorem logErr_readers (c a : Nat) (w b : Bool) (r : Option PageRef) : (d.logErr c a w b r).readers = d.readers := rest_readers (logErr_rest d c a w b r)
@[simp] theorem logErr_heads (c a : Nat) (w b : Bool) (r : Option PageRef) : (d.logErr c a w b r).heads = d.heads := rest_heads (logErr_rest d c a w b r)
@[simp] theorem logErr_melds (c a : Nat) (w b : Bool) (r : Option PageRef) : (d.logErr c a w b r).melds = d.melds := rest_melds (logErr_rest d c a w b r)
@[simp] theorem logErr_ports (c a : Nat) (w b : Bool) (r : Option PageRef) : (d.logErr c a w b r).ports = d.ports := rest_ports (logErr_rest d c a w b r)
@[simp] theorem logErr_sbHpd (c a : Nat) (w b : Bool) (r : Option PageRef) : (d.logErr c a w b r).sbHpd = d.sbHpd := rest_sbHpd (logErr_rest d c a w b r)
@[simp] theorem logErr_videoSeqs (c a : Nat) (w b : Bool) (r : Option PageRef) : (d.logErr c a w b r).videoSeqs = d.videoSeqs := rest_videoSeqs (logErr_rest d c a w b r)
@[simp] theorem logErr_netBack (c a : Nat) (w b : Bool) (r : Option PageRef) : (d.logErr c a w b r).netBack = d.netBack := rest_netBack (logErr_rest d c a w b r)
@[simp] theorem logErr_busResp (c a : Nat) (w b : Bool) (r : Option PageRef) : (d.logErr c a w b r).busResp = d.busResp := rest_busResp (logErr_rest d c a w b r)
@[simp] theorem logErr_luts (c a : Nat) (w b : Bool) (r : Option PageRef) : (d.logErr c a w b r).luts = d.luts := rest_luts (logErr_rest d c a w b r)
@[simp] theorem logErr_recHeads (c a : Nat) (w b : Bool) (r : Option PageRef) : (d.logErr c a w b r).recHeads = d.recHeads := rest_recHeads (logErr_rest d c a w b r)
@[simp] theorem logErr_recRing (c a : Nat) (w b : Bool) (r : Option PageRef) : (d.logErr c a w b r).recRing = d.recRing := rest_recRing (logErr_rest d c a w b r)
@[simp] theorem logErr_recBytes (c a : Nat) (w b : Bool) (r : Option PageRef) : (d.logErr c a w b r).recBytes = d.recBytes := rest_recBytes (logErr_rest d c a w b r)
@[simp] theorem logErr_handLock (c a : Nat) (w b : Bool) (r : Option PageRef) : (d.logErr c a w b r).handLock = d.handLock := rest_handLock (logErr_rest d c a w b r)
@[simp] theorem logErr_engSince (c a : Nat) (w b : Bool) (r : Option PageRef) : (d.logErr c a w b r).engSince = d.engSince := rest_engSince (logErr_rest d c a w b r)
@[simp] theorem logErr_engBusyNs (c a : Nat) (w b : Bool) (r : Option PageRef) : (d.logErr c a w b r).engBusyNs = d.engBusyNs := rest_engBusyNs (logErr_rest d c a w b r)
@[simp] theorem logErr_hand (c a : Nat) (w b : Bool) (r : Option PageRef) : (d.logErr c a w b r).hand = d.hand := rest_hand (logErr_rest d c a w b r)
@[simp] theorem logErr_tm (c a : Nat) (w b : Bool) (r : Option PageRef) : (d.logErr c a w b r).tm = d.tm := rest_tm (logErr_rest d c a w b r)
@[simp] theorem logErr_relTime (c a : Nat) (w b : Bool) (r : Option PageRef) : (d.logErr c a w b r).relTime = d.relTime := rest_relTime (logErr_rest d c a w b r)
@[simp] theorem logErr_witChan (c a : Nat) (w b : Bool) (r : Option PageRef) : (d.logErr c a w b r).witChan = d.witChan := rest_witChan (logErr_rest d c a w b r)
@[simp] theorem logErr_witResume (c a : Nat) (w b : Bool) (r : Option PageRef) : (d.logErr c a w b r).witResume = d.witResume := rest_witResume (logErr_rest d c a w b r)
@[simp] theorem logErr_witHanded (c a : Nat) (w b : Bool) (r : Option PageRef) : (d.logErr c a w b r).witHanded = d.witHanded := rest_witHanded (logErr_rest d c a w b r)
@[simp] theorem logErr_witChained (c a : Nat) (w b : Bool) (r : Option PageRef) : (d.logErr c a w b r).witChained = d.witChained := rest_witChained (logErr_rest d c a w b r)
@[simp] theorem logErr_audio (c a : Nat) (w b : Bool) (r : Option PageRef) : (d.logErr c a w b r).audio = d.audio := rest_audio (logErr_rest d c a w b r)
@[simp] theorem logErr_tsends (c a : Nat) (w b : Bool) (r : Option PageRef) : (d.logErr c a w b r).tsends = d.tsends := rest_tsends (logErr_rest d c a w b r)
@[simp] theorem logErr_written (c a : Nat) (w b : Bool) (r : Option PageRef) : (d.logErr c a w b r).written = d.written := rest_written (logErr_rest d c a w b r)
@[simp] theorem logErr_deal (c a : Nat) (w b : Bool) (r : Option PageRef) : (d.logErr c a w b r).deal = d.deal := rest_deal (logErr_rest d c a w b r)
@[simp] theorem logErr_keys (c a : Nat) (w b : Bool) (r : Option PageRef) : (d.logErr c a w b r).keys = d.keys := rest_keys (logErr_rest d c a w b r)
@[simp] theorem logErr_mg (c a : Nat) (w b : Bool) (r : Option PageRef) : (d.logErr c a w b r).mg = d.mg := rest_mg (logErr_rest d c a w b r)
@[simp] theorem logErr_store (c a : Nat) (w b : Bool) (r : Option PageRef) : (d.logErr c a w b r).store = d.store := rest_store (logErr_rest d c a w b r)
@[simp] theorem logErr_doms (c a : Nat) (w b : Bool) (r : Option PageRef) : (d.logErr c a w b r).doms = d.doms := rest_doms (logErr_rest d c a w b r)
@[simp] theorem logErr_units (c a : Nat) (w b : Bool) (r : Option PageRef) : (d.logErr c a w b r).units = d.units := rest_units (logErr_rest d c a w b r)
@[simp] theorem logErr_aliveAt (c a : Nat) (w b : Bool) (r : Option PageRef) : (d.logErr c a w b r).aliveAt = d.aliveAt := rest_aliveAt (logErr_rest d c a w b r)
@[simp] theorem logErr_alive (c a : Nat) (w b : Bool) (r : Option PageRef) : (d.logErr c a w b r).alive = d.alive := rest_alive (logErr_rest d c a w b r)
@[simp] theorem logErr_hbmScrub (c a : Nat) (w b : Bool) (r : Option PageRef) : (d.logErr c a w b r).hbmScrub = d.hbmScrub := rest_hbmScrub (logErr_rest d c a w b r)
@[simp] theorem logErr_dmaLast (c a : Nat) (w b : Bool) (r : Option PageRef) : (d.logErr c a w b r).dmaLast = d.dmaLast := rest_dmaLast (logErr_rest d c a w b r)
@[simp] theorem logErr_rebuilt (c a : Nat) (w b : Bool) (r : Option PageRef) : (d.logErr c a w b r).rebuilt = d.rebuilt := rest_rebuilt (logErr_rest d c a w b r)
@[simp] theorem logErr_talonWaits (c a : Nat) (w b : Bool) (r : Option PageRef) : (d.logErr c a w b r).talonWaits = d.talonWaits := rest_talonWaits (logErr_rest d c a w b r)
@[simp] theorem logErr_tags (c a : Nat) (w b : Bool) (r : Option PageRef) : (d.logErr c a w b r).tags = d.tags := rest_tags (logErr_rest d c a w b r)
@[simp] theorem logErr_chans (c a : Nat) (w b : Bool) (r : Option PageRef) : (d.logErr c a w b r).chans = d.chans := rest_chans (logErr_rest d c a w b r)
@[simp] theorem logErr_qos (c a : Nat) (w b : Bool) (r : Option PageRef) : (d.logErr c a w b r).qos = d.qos := rest_qos (logErr_rest d c a w b r)
@[simp] theorem logErr_auditRegs (c a : Nat) (w b : Bool) (r : Option PageRef) : (d.logErr c a w b r).auditRegs = d.auditRegs := rest_auditRegs (logErr_rest d c a w b r)
@[simp] theorem logErr_leaked (c a : Nat) (w b : Bool) (r : Option PageRef) : (d.logErr c a w b r).leaked = d.leaked := rest_leaked (logErr_rest d c a w b r)
@[simp] theorem logErr_overclaim (c a : Nat) (w b : Bool) (r : Option PageRef) : (d.logErr c a w b r).overclaim = d.overclaim := rest_overclaim (logErr_rest d c a w b r)
@[simp] theorem logErr_lostAt (c a : Nat) (w b : Bool) (r : Option PageRef) : (d.logErr c a w b r).lostAt = d.lostAt := rest_lostAt (logErr_rest d c a w b r)
@[simp] theorem logErr_witLost (c a : Nat) (w b : Bool) (r : Option PageRef) : (d.logErr c a w b r).witLost = d.witLost := rest_witLost (logErr_rest d c a w b r)
@[simp] theorem logErr_witWait (c a : Nat) (w b : Bool) (r : Option PageRef) : (d.logErr c a w b r).witWait = d.witWait := rest_witWait (logErr_rest d c a w b r)
@[simp] theorem logErr_mapAt (c a : Nat) (w b : Bool) (r : Option PageRef) : (d.logErr c a w b r).mapAt = d.mapAt := rest_mapAt (logErr_rest d c a w b r)
@[simp] theorem logErr_oldMaps (c a : Nat) (w b : Bool) (r : Option PageRef) : (d.logErr c a w b r).oldMaps = d.oldMaps := rest_oldMaps (logErr_rest d c a w b r)
@[simp] theorem logErr_relBy (c a : Nat) (w b : Bool) (r : Option PageRef) : (d.logErr c a w b r).relBy = d.relBy := rest_relBy (logErr_rest d c a w b r)
@[simp] theorem logErr_scrubAt (c a : Nat) (w b : Bool) (r : Option PageRef) : (d.logErr c a w b r).scrubAt = d.scrubAt := rest_scrubAt (logErr_rest d c a w b r)
@[simp] theorem logErr_scrubBad (c a : Nat) (w b : Bool) (r : Option PageRef) : (d.logErr c a w b r).scrubBad = d.scrubBad := rest_scrubBad (logErr_rest d c a w b r)

end Dev
end Sys2Proof.Machine
end

