-- ==== Sys2Proof/Laws/Ops.lean ====
section
/-! SUPPORT. What the operations over registers do to words and fields: the word written, every other word as before, and
the one lemma for each shared operation that says all it can do. -/
namespace Sys2Proof.Machine
namespace Dev

variable (d : Dev)

/-! Words. -/

@[simp] theorem word_setWord_self (a : Nat) (v : Word) : (d.setWord a v).word a = v := sget_sset_self _ _ _ _
theorem word_setWord (a b : Nat) (v : Word) : (d.setWord a v).word b = if b = a then v else d.word b :=
  sget_sset _ _ _ _ _
theorem word_setWord_ne {a b : Nat} (v : Word) (h : b ≠ a) : (d.setWord a v).word b = d.word b := sget_sset_ne _ _ _ h

theorem word_congr {a b : Dev} (h : a.regs = b.regs) (x : Nat) : a.word x = b.word x := by rw [word, word, h]

theorem word_putAt_ne {a b : Nat} (lo w x : Nat) (h : b ≠ a) : (d.putAt a lo w x).word b = d.word b :=
  word_setWord_ne d _ h
theorem word_put_ne (f : Fld) (x i k j : Nat) {b : Nat} (h : b ≠ f.addr i k j) : (d.put f x i k j).word b = d.word b :=
  word_setWord_ne d _ h
theorem word_putB_ne (f : Fld) (x : Bool) (i k : Nat) {b : Nat} (h : b ≠ f.addr i k 0) :
    (d.putB f x i k).word b = d.word b := word_setWord_ne d _ h
theorem word_count_ne (f : Fld) (i k n : Nat) {b : Nat} (h : b ≠ f.addr i k 0) :
    (d.count f i k n).word b = d.word b := word_setWord_ne d _ h
theorem word_put64_ne (f : Fld) (x i k : Nat) {b : Nat} (h : b ≠ f.addr i k 0) (h' : b ≠ f.addr i k 0 + 4) :
    (d.put64 f x i k).word b = d.word b := by rw [put64, word_setWord_ne _ _ h', word_setWord_ne _ _ h]

@[simp] theorem word_atTime (t a : Nat) : (d.atTime t).word a = d.word a := rfl
@[simp] theorem word_emit (o : Out) (a : Nat) : (d.emit o).word a = d.word a := rfl

/-! Fields. -/

/-- A field put into a word reads back, within its width. -/
theorem bitsAt_putAt_self (a lo w x : Nat) (h : lo + w ≤ 32) : (d.putAt a lo w x).bitsAt a lo w = x % 2 ^ w := by
  rw [bitsAt, putAt, word_setWord_self, BitVec.toNat_ofNat,
    Nat.mod_eq_of_lt (putBits_lt _ _ _ _ 32 (d.word a).isLt h), bitsOf_putBits_self]

/-- The other fields of the word read as before. -/
theorem bitsAt_putAt_apart (a lo w x lo' w' : Nat) (h : lo + w ≤ 32) (hd : lo' + w' ≤ lo ∨ lo + w ≤ lo') :
    (d.putAt a lo w x).bitsAt a lo' w' = d.bitsAt a lo' w' := by
  rw [bitsAt, putAt, word_setWord_self, BitVec.toNat_ofNat, Nat.mod_eq_of_lt (putBits_lt _ _ _ _ 32 (d.word a).isLt h)]
  rcases hd with hd | hd
  · exact bitsOf_putBits_below _ _ _ _ _ _ hd
  · exact bitsOf_putBits_above _ _ _ _ _ _ hd

theorem bitsAt_putAt_ne {a b : Nat} (lo w x lo' w' : Nat) (h : b ≠ a) :
    (d.putAt a lo w x).bitsAt b lo' w' = d.bitsAt b lo' w' := by rw [bitsAt, word_putAt_ne _ _ _ _ h, bitsAt]

theorem get_put_self (f : Fld) (x i k j : Nat) (h : f.lo + f.w ≤ 32) : (d.put f x i k j).get f i k j = x % 2 ^ f.w :=
  bitsAt_putAt_self d _ _ _ _ h
theorem get_put_ne (f g : Fld) (x i k j i' k' j' : Nat) (h : g.addr i' k' j' ≠ f.addr i k j) :
    (d.put f x i k j).get g i' k' j' = d.get g i' k' j' := bitsAt_putAt_ne d _ _ _ _ _ h
theorem get_put_apart (f g : Fld) (x i k j i' k' j' : Nat) (h : f.lo + f.w ≤ 32)
    (hd : g.lo + g.w ≤ f.lo ∨ f.lo + f.w ≤ g.lo) (e : g.addr i' k' j' = f.addr i k j) :
    (d.put f x i k j).get g i' k' j' = d.get g i' k' j' := by
  rw [get, get, e]
  exact bitsAt_putAt_apart d _ _ _ _ _ _ h hd

theorem get_setWord_ne (f : Fld) (a : Nat) (v : Word) (i k j : Nat) (h : f.addr i k j ≠ a) :
    (d.setWord a v).get f i k j = d.get f i k j := by rw [get, bitsAt, word_setWord_ne _ _ h, get, bitsAt]

/-- A counter grows by what is counted and stays at its maximum. -/
theorem get_count_self (f : Fld) (i k n : Nat) (h : f.lo + f.w ≤ 32) :
    (d.count f i k n).get f i k = min (d.get f i k + n) (2 ^ f.w - 1) := by
  rw [count, get_put_self _ _ _ _ _ _ h, Nat.mod_eq_of_lt]
  have : 0 < 2 ^ f.w := by positivity
  omega

/-- A pair reads the 64-bit value stored into it. -/
theorem get64_put64_self (f : Fld) (x i k : Nat) : (d.put64 f x i k).get64 f i k = x % 2 ^ 64 := by
  rw [get64, put64, word_setWord_self, word_setWord_ne _ _ (by omega), word_setWord_self, BitVec.toNat_ofNat,
    BitVec.toNat_ofNat, show (2 : Nat) ^ 64 = 2 ^ 32 * 2 ^ 32 by norm_num, Nat.mod_mul]

theorem get64_congr {a b : Dev} (f : Fld) (i k : Nat) (h : a.word (f.addr i k 0) = b.word (f.addr i k 0))
    (h' : a.word (f.addr i k 0 + 4) = b.word (f.addr i k 0 + 4)) : a.get64 f i k = b.get64 f i k := by
  rw [get64, get64, h, h']

/-! Clearing. -/

/-- A clear leaves every word that holds none of its fields. -/
theorem word_clear_ne (fs : List Fld) (i k : Nat) {a : Nat} (h : ∀ f ∈ fs, a ≠ f.addr i k 0) :
    (d.clear fs i k).word a = d.word a := by
  induction fs generalizing d with
  | nil => rfl
  | cons f fs ih =>
    have e : d.clear (f :: fs) i k = (d.put f 0 i k).clear fs i k := rfl
    rw [e, ih (d.put f 0 i k) (fun g hg => h g (by simp [hg])), word_put_ne _ _ _ _ _ _ (h f (by simp))]

/-- Putting 0 into a whole word. -/
theorem word_put_zero (f : Fld) (i k : Nat) (hl : f.lo = 0) (hw : f.w = 32) : (d.put f 0 i k).word (f.addr i k 0) = 0 := by
  have hv : (d.word (f.addr i k 0)).toNat < 2 ^ 32 := (d.word (f.addr i k 0)).isLt
  have e : putBits (d.word (f.addr i k 0)).toNat 0 32 0 = 0 := by
    rw [putBits, bitsOf, Nat.pow_zero, Nat.div_one, Nat.mod_eq_of_lt hv]
    simp
  rw [put, putAt, word_setWord_self, hl, hw, e]
  rfl

/-- A clear of whole words makes each of them 0. -/
theorem word_clear (fs : List Fld) (i k : Nat) (hf : ∀ f ∈ fs, f.lo = 0 ∧ f.w = 32) (a : Nat) :
    (d.clear fs i k).word a = if ∃ f ∈ fs, a = f.addr i k 0 then 0 else d.word a := by
  induction fs generalizing d with
  | nil => simp [clear]
  | cons f fs ih =>
    have e : d.clear (f :: fs) i k = (d.put f 0 i k).clear fs i k := rfl
    rw [e, ih (d.put f 0 i k) (fun g hg => hf g (by simp [hg]))]
    by_cases h1 : ∃ g ∈ fs, a = g.addr i k 0
    · rw [if_pos h1, if_pos]
      obtain ⟨g, hg, e⟩ := h1
      exact ⟨g, by simp [hg], e⟩
    · rw [if_neg h1]
      by_cases h2 : a = f.addr i k 0
      · rw [if_pos ⟨f, by simp, h2⟩, h2, word_put_zero _ _ _ _ (hf f (by simp)).1 (hf f (by simp)).2]
      · rw [if_neg, word_put_ne _ _ _ _ _ _ h2]
        rintro ⟨g, hg, hag⟩
        rcases List.mem_cons.mp hg with rfl | hg
        · exact h2 hag
        · exact h1 ⟨g, hg, hag⟩

/-! Events. -/

theorem word_msixEmit (v a : Nat) : (d.msixEmit v).word a = d.word a := by
  unfold msixEmit
  split <;> rfl
theorem word_msixSend (v a : Nat) : (d.msixSend v).word a = d.word a := by
  unfold msixSend
  dsimp only
  split
  · rfl
  · exact word_msixEmit d v a

/-- Setting event bits of a page changes its IRQ_RAW word alone. -/
theorem word_irqSet (r : PageRef) (b a : Nat) :
    (d.irqSet r b).word a =
      if a = pgAddr r + 0x10 then d.word (pgAddr r + 0x10) ||| BitVec.ofNat 32 (b % 2 ^ 31) else d.word a := by
  unfold irqSet
  dsimp only
  split
  · rw [word_msixSend, word_setWord]
  · rw [word_setWord]

theorem word_irqSet_ne (r : PageRef) (b : Nat) {a : Nat} (h : a ≠ pgAddr r + 0x10) : (d.irqSet r b).word a = d.word a := by
  rw [word_irqSet, if_neg h]
theorem word_irq_ne (b : Blk) (i p n : Nat) {a : Nat} (h : a ≠ pageAddr b i p + 0x10) :
    (d.irq b i p n).word a = d.word a := word_irqSet_ne d ⟨b, i, p⟩ _ h
theorem word_irq (b : Blk) (i p n a : Nat) :
    (d.irq b i p n).word a =
      if a = pageAddr b i p + 0x10 then d.word (pageAddr b i p + 0x10) ||| BitVec.ofNat 32 (2 ^ n % 2 ^ 31)
      else d.word a := word_irqSet d ⟨b, i, p⟩ _ a

/-- Clearing event bits changes the page's IRQ_RAW word alone. -/
theorem word_irqClear (r : PageRef) (v : Word) (a : Nat) :
    (d.irqClear r v).word a = if a = pgAddr r + 0x10 then d.word (pgAddr r + 0x10) &&& ~~~ v else d.word a := by
  unfold irqClear
  dsimp only
  split
  · rw [word_msixSend, word_setWord]
  · rw [word_setWord]

/-- Writing IRQ_EN changes that word of the page alone. -/
theorem word_irqEnable (r : PageRef) (v : Word) (a : Nat) :
    (d.irqEnable r v).word a = if a = pgAddr r + 0x14 then v &&& 0x7FFFFFFF else d.word a := by
  unfold irqEnable
  dsimp only
  split
  · rw [word_msixSend, word_setWord]
  · rw [word_setWord]

end Dev

/-! The forms of a meaning. -/

/-- A meaning over the device answers a next state: the queue and what survives a reset stay, and the device stays out of
reset. -/
theorem State.onDev_eq (s : State) (f : Dev → Dev) (h : s.dev.inReset = false) :
    s.onDev f = .next { s with dev := { f s.dev with inReset := false } } := by simp [State.onDev, h]
theorem State.onDev_reset (s : State) (f : Dev → Dev) (h : s.dev.inReset = true) : s.onDev f = .next s := by
  simp [State.onDev, h]
theorem State.onAny_eq (s : State) (f : Dev → Dev) :
    s.onAny f = .next { s with dev := { f s.dev with inReset := s.dev.inReset } } := rfl

/-- A host write that is reachable, names a page of the map and meets no unit without power acts. -/
theorem Dev.gate_eq (d : Dev) (r : PageRef) (off : Nat) (f : Dev → Dev) (hr : d.reachable = true)
    (hv : Dev.validPage r = true) (hp : d.powerState r.blk r.inst r.page < 2) : d.gate r off f = f d := by
  unfold Dev.gate
  simp [hr, hv, Nat.not_le.mpr hp]

/-- A host write that does not reach the device, or names no page, changes nothing. -/
theorem Dev.gate_closed (d : Dev) (r : PageRef) (off : Nat) (f : Dev → Dev) (h : d.reachable = false) :
    d.gate r off f = d := by
  unfold Dev.gate
  simp [h]

end Sys2Proof.Machine
end

