-- ==== Sys2Proof/Laws/Pages.lean ====
section
/-! SUPPORT. Pages of the map do not overlap: words of different pages are different words. -/
namespace Sys2Proof.Machine

/-- First address of a block, and the first one after it. -/
def blkLo (b : Blk) : Nat := blkBase b + blkFirst b * blkStride b
def blkHi (b : Blk) : Nat := blkBase b + (blkFirst b + blkCount b) * blkStride b

/-- The blocks lie apart. -/
theorem blk_apart : ∀ b c : Blk, b ≠ c → blkHi b ≤ blkLo c ∨ blkHi c ≤ blkLo b := by
  intro b c
  cases b <;> cases c <;> decide

theorem page_in_blk (b : Blk) (i p o : Nat) (h1 : blkFirst b ≤ i) (h2 : i < blkFirst b + blkCount b) (h3 : p < blkPages b)
    (h4 : o < 0x1000) : blkLo b ≤ pageAddr b i p + o ∧ pageAddr b i p + o < blkHi b := by
  cases b <;> simp only [blkLo, blkHi, pageAddr, blkStride, blkBase, blkFirst, blkCount, blkPages] at * <;> omega

theorem page_same (b : Blk) (i p o i' p' o' : Nat) (h3 : p < blkPages b) (h3' : p' < blkPages b) (h4 : o < 0x1000)
    (h4' : o' < 0x1000) (e : pageAddr b i p + o = pageAddr b i' p' + o') : i = i' ∧ p = p' ∧ o = o' := by
  cases b <;> simp only [pageAddr, blkStride, blkBase, blkPages] at * <;> omega

/-- Words of different pages, or at different offsets of one page, are different words. -/
theorem page_word_ne (r q : PageRef) (o o' : Nat) (hr : Dev.validPage r = true) (hq : Dev.validPage q = true)
    (ho : o < 0x1000) (ho' : o' < 0x1000) (h : r ≠ q ∨ o ≠ o') : pgAddr r + o ≠ pgAddr q + o' := by
  obtain ⟨b, i, p⟩ := r
  obtain ⟨c, j, k⟩ := q
  simp only [Dev.validPage, Bool.and_eq_true, decide_eq_true_eq] at hr hq
  intro e
  by_cases hb : b = c
  · subst hb
    obtain ⟨h1, h2, h3⟩ := page_same b i p o j k o' hr.2 hq.2 ho ho' e
    subst h1 h2 h3
    simp at h
  · have h1 := page_in_blk b i p o hr.1.1 hr.1.2 hr.2 ho
    have h2 := page_in_blk c j k o' hq.1.1 hq.1.2 hq.2 ho'
    simp only [pgAddr] at e
    rcases blk_apart b c hb with h3 | h3 <;> omega

end Sys2Proof.Machine
end

