-- ==== Sys2Proof/Laws/PerInstr.lean ====
section
/-! SUPPORT. Statements made for each command: a well-formed command names only pages of the map. -/
namespace Sys2Proof.Laws.WellFormed

/-- Every page a well-formed command names is a page of the map (R74). -/
def Statement (i : Instr) : Prop := i.wellFormed = true → ∀ r ∈ i.pages, Machine.Dev.validPage r = true

theorem of_none {i : Instr} (h : i.pages = []) : Statement i := fun _ _ hr => absurd (h ▸ hr) (List.not_mem_nil)
theorem of_page {i : Instr} {r : PageRef} (hp : i.pages = [r]) (hw : i.wellFormed = r.ok) : Statement i := by
  intro h q hq
  rw [hp, List.mem_singleton] at hq
  rw [hw] at h
  rw [hq]
  exact h
theorem of_target {i : Instr} {w : PowTarget} (hp : i.pages = w.pages) (hw : i.wellFormed = w.ok) : Statement i := by
  cases w with
  | domain n => exact of_none hp
  | unit r => exact of_page hp hw

theorem registerWrite (t : Nat) (addr : BitVec 24) (bytes : Nat) (v : BitVec 64) : Statement (.registerWrite t addr bytes v) := of_none rfl
theorem readLoLatch (t : Nat) (addr : BitVec 24) : Statement (.readLoLatch t addr) := of_none rfl
theorem handWrite (t : Nat) (addr : BitVec 24) (v : Word) : Statement (.handWrite t addr v) := of_none rfl
theorem enable (t : Nat) (page : PageRef) : Statement (.enable t page) := of_page rfl rfl
theorem disable (t : Nat) (page : PageRef) : Statement (.disable t page) := of_page rfl rfl
theorem fenceReq (t : Nat) (page : PageRef) : Statement (.fenceReq t page) := of_page rfl rfl
theorem fenceRel (t : Nat) (page : PageRef) (met : Bool) : Statement (.fenceRel t page met) := of_page rfl rfl
theorem fwFenceCauseWrite (t : Nat) (page : PageRef) (cause detail : Byte) (met : Bool) : Statement (.fwFenceCauseWrite t page cause detail met) := of_page rfl rfl
theorem fenceDrainDone (t : Nat) (page : PageRef) : Statement (.fenceDrainDone t page) := of_page rfl rfl
theorem softRst (t : Nat) (page : PageRef) : Statement (.softRst t page) := of_page rfl rfl
theorem softRstDone (t : Nat) (page : PageRef) : Statement (.softRstDone t page) := of_page rfl rfl
theorem irqRawClear (t : Nat) (page : PageRef) (v setNow : Word) : Statement (.irqRawClear t page v setNow) := of_page rfl rfl
theorem irqEnWrite (t : Nat) (page : PageRef) (v : Word) : Statement (.irqEnWrite t page v) := of_page rfl rfl
theorem irqForce (t : Nat) (page : PageRef) (v : Word) : Statement (.irqForce t page v) := of_page rfl rfl
theorem msixCoalesceExpire (t : Nat) (vector : Fin 64) : Statement (.msixCoalesceExpire t vector) := of_none rfl
theorem msixUnmask (t : Nat) (vector : Fin 64) : Statement (.msixUnmask t vector) := of_none rfl
theorem powerRequest (t : Nat) (page : PageRef) (req : BitVec 2) : Statement (.powerRequest t page req) := of_page rfl rfl
theorem bar2Read (t : Nat) (off : BitVec 28) (bytes : Nat) (ue : MemErr) : Statement (.bar2Read t off bytes ue) := of_none rfl
theorem bar2Write (t : Nat) (off : BitVec 28) (data : List Byte) : Statement (.bar2Write t off data) := of_none rfl
theorem bar2BaseWrite (t : Nat) (v : Word) : Statement (.bar2BaseWrite t v) := of_none rfl
theorem lutWindowWrite (t : Nat) (off : BitVec 16) (v : Word) : Statement (.lutWindowWrite t off v) := of_none rfl
theorem errClear (t : Nat) : Statement (.errClear t) := of_none rfl
theorem configRequest (t : Nat) : Statement (.configRequest t) := of_none rfl
theorem auditRun (t : Nat) : Statement (.auditRun t) := of_none rfl
theorem auditEvent (t : Nat) : Statement (.auditEvent t) := of_none rfl
theorem talonFreezeEnd (t : Nat) : Statement (.talonFreezeEnd t) := of_none rfl
theorem auditComplete (t : Nat) (found : List BookRead) : Statement (.auditComplete t found) := of_none rfl
theorem ledgerClear (t : Nat) : Statement (.ledgerClear t) := of_none rfl
theorem talonRebuild (t : Nat) : Statement (.talonRebuild t) := of_none rfl
theorem rebuildComplete (t : Nat) (found upsets : List SlabUpset) : Statement (.rebuildComplete t found upsets) := of_none rfl
theorem snapNow (t : Nat) : Statement (.snapNow t) := of_none rfl
theorem snapInEdge (t : Nat) (rising : Bool) : Statement (.snapInEdge t rising) := of_none rfl
theorem snapSchedArm (t : Nat) : Statement (.snapSchedArm t) := of_none rfl
theorem snapSchedCancel (t : Nat) : Statement (.snapSchedCancel t) := of_none rfl
theorem snapRearm (t : Nat) : Statement (.snapRearm t) := of_none rfl
theorem snapshotEvent (t : Nat) : Statement (.snapshotEvent t) := of_none rfl
theorem snapClear (t : Nat) : Statement (.snapClear t) := of_none rfl
theorem txPllLock (t : Nat) (lane : Fin 112) : Statement (.txPllLock t lane) := of_none rfl
theorem losAssert (t : Nat) (lane : Fin 112) : Statement (.losAssert t lane) := of_none rfl
theorem losClear (t : Nat) (lane : Fin 112) : Statement (.losClear t lane) := of_none rfl
theorem lolAssert (t : Nat) (lane : Fin 112) : Statement (.lolAssert t lane) := of_none rfl
theorem lolClear (t : Nat) (lane : Fin 112) (rate : BitVec 25) : Statement (.lolClear t lane rate) := of_none rfl
theorem adaptDone (t : Nat) (lane : Fin 112) (eq : EqValues) : Statement (.adaptDone t lane eq) := of_none rfl
theorem eqModeWrite (t : Nat) (lane : Fin 112) (mode : BitVec 2) (ctle : BitVec 6) : Statement (.eqModeWrite t lane mode ctle) := of_none rfl
theorem eqControlWrite (t : Nat) (lane : Fin 112) (off : BitVec 12) (v : Word) : Statement (.eqControlWrite t lane off v) := of_none rfl
theorem prbsSync (t : Nat) (r : LaneRx) : Statement (.prbsSync t r) := of_none rfl
theorem prbsSyncLost (t : Nat) (lane : Fin 112) (rx after : List TestData) : Statement (.prbsSyncLost t lane rx after) :=
  of_none rfl
theorem prbsClear (t : Nat) (lane : Fin 112) (before edge : List TestData) : Statement (.prbsClear t lane before edge) :=
  of_none rfl
theorem injGo (t : Nat) (lane : Fin 112) (mode : BitVec 2) (rx : Bool) (len : BitVec 8) : Statement (.injGo t lane mode rx len) := of_none rfl
theorem injDone (t : Nat) (lane : Fin 112) : Statement (.injDone t lane) := of_none rfl
theorem rxLstateReq (t : Nat) (lane : Fin 112) (req : BitVec 2) : Statement (.rxLstateReq t lane req) := of_none rfl
theorem lstateDone (t : Nat) (lane : Fin 112) (tx : Bool) : Statement (.lstateDone t lane tx) := of_none rfl
theorem pllFail (t : Nat) (lane : Fin 112) (port : Option (Fin 96)) : Statement (.pllFail t lane port) := of_none rfl
theorem bondMarkerTx (t : Nat) (bond : Fin 16) (stream : List BondItem) : Statement (.bondMarkerTx t bond stream) := of_none rfl
theorem bondMarkerRx (t : Nat) (lane : Fin 96) (m : MarkerRx) : Statement (.bondMarkerRx t lane m) := of_none rfl
theorem linkTrainingEnd (t : Nat) (lane : Fin 16) (ok : Bool) (fir : Word) : Statement (.linkTrainingEnd t lane ok fir) := of_none rfl
theorem laneCntClear (t : Nat) (lane : Fin 112) : Statement (.laneCntClear t lane) := of_none rfl
theorem ingestFrameStart (t : Nat) (ctx : Fin 256) (sig : SigFmt) (encrypted : Bool) : Statement (.ingestFrameStart t ctx sig encrypted) := of_none rfl
theorem ingestLine (t : Nat) (ctx : Fin 256) (samples : List Nat) (linkErrors : Nat) (audio : Option EmbeddedAudio) (last : Option FrameEnd) : Statement (.ingestLine t ctx samples linkErrors audio last) := of_none rfl
theorem formatSignalChange (t : Nat) (ctx : Fin 256) : Statement (.formatSignalChange t ctx) := of_none rfl
theorem encryptionDetected (t : Nat) (ctx : Fin 256) : Statement (.encryptionDetected t ctx) := of_none rfl
theorem mstStreamRemoved (t : Nat) (ctx : Fin 256) : Statement (.mstStreamRemoved t ctx) := of_none rfl
theorem ingestSilenceTimeout (t : Nat) (ctx : Fin 256) : Statement (.ingestSilenceTimeout t ctx) := of_none rfl
theorem st2110PacketRx (t : Nat) (ctx : Fin 256) (p : RtpPacket) : Statement (.st2110PacketRx t ctx p) := of_none rfl
theorem pathSilent (t : Nat) (ctx : Fin 256) (path2 : Bool) : Statement (.pathSilent t ctx path2) := of_none rfl
theorem hbReadComplete (t : Nat) (ctx : CtxRead) : Statement (.hbReadComplete t ctx) := of_none rfl
theorem edidDataWrite (t : Nat) (ctx : Fin 256) (v : Word) : Statement (.edidDataWrite t ctx v) := of_none rfl
theorem edidCommit (t : Nat) (ctx : Fin 256) : Statement (.edidCommit t ctx) := of_none rfl
theorem edidCommitTakeEffect (t : Nat) (ctx : Fin 256) : Statement (.edidCommitTakeEffect t ctx) := of_none rfl
theorem edidRead (t : Nat) (sband : Fin 32) (stream : Option (Fin 4)) (off : BitVec 12) (len : Nat) : Statement (.edidRead t sband stream off len) := of_none rfl
theorem hpdPulse (t : Nat) (ctx : Fin 256) : Statement (.hpdPulse t ctx) := of_none rfl
theorem hpdPulseEnd (t : Nat) (ctx : Fin 256) : Statement (.hpdPulseEnd t ctx) := of_none rfl
theorem dmaTailWrite (t : Nat) (ctx : Fin 256) (tail : BitVec 12) : Statement (.dmaTailWrite t ctx tail) := of_none rfl
theorem dmaDescriptorStart (t : Nat) (ctx : Fin 256) (desc : Descriptor) : Statement (.dmaDescriptorStart t ctx desc) := of_none rfl
theorem dmaDescriptorDone (t : Nat) (ctx : Fin 256) (lines : Option (List (List Nat))) : Statement (.dmaDescriptorDone t ctx lines) := of_none rfl
theorem dmaEnableWrite (t : Nat) (ctx : Fin 256) (en : Bool) (prio : BitVec 2) : Statement (.dmaEnableWrite t ctx en prio) := of_none rfl
theorem dmaRingSizeWrite (t : Nat) (ctx : Fin 256) (entries : BitVec 13) : Statement (.dmaRingSizeWrite t ctx entries) := of_none rfl
theorem copyForwardDone (t : Nat) (ctx : CtxRead) : Statement (.copyForwardDone t ctx) := of_none rfl
theorem ingestCntClear (t : Nat) (ctx : Fin 256) : Statement (.ingestCntClear t ctx) := of_none rfl
theorem ingestFreshClear (t : Nat) (ctx : Fin 256) : Statement (.ingestFreshClear t ctx) := of_none rfl
theorem engineJobStart (t : Nat) (layer : Fin 1024) : Statement (.engineJobStart t layer) := of_none rfl
theorem engineJobComplete (t : Nat) (layer : Fin 1024) (errs : List ReadError) : Statement (.engineJobComplete t layer errs) := of_none rfl
theorem engineJobAbandon (t : Nat) (layer : Fin 1024) : Statement (.engineJobAbandon t layer) := of_none rfl
theorem coefDataWrite (t : Nat) (engine : Fin 64) (v : Word) : Statement (.coefDataWrite t engine v) := of_none rfl
theorem coefDataRead (t : Nat) (engine : Fin 64) : Statement (.coefDataRead t engine) := of_none rfl
theorem engineCntClear (t : Nat) (engine : Fin 64) : Statement (.engineCntClear t engine) := of_none rfl
theorem recorderHoldWrite (t : Nat) (hold : Bool) : Statement (.recorderHoldWrite t hold) := of_none rfl
theorem recorderForceKey (t : Nat) : Statement (.recorderForceKey t) := of_none rfl
theorem recorderClear (t : Nat) : Statement (.recorderClear t) := of_none rfl
theorem dpcdScdcAccess (t : Nat) (sband : Fin 32) (a : SinkAccess) : Statement (.dpcdScdcAccess t sband a) := of_none rfl
theorem refInPulse (t : Nat) (triLevel : Bool) : Statement (.refInPulse t triLevel) := of_none rfl
theorem refInLoss (t : Nat) : Statement (.refInLoss t) := of_none rfl
theorem ppsEdge (t : Nat) (xo : Int) : Statement (.ppsEdge t xo) := of_none rfl
theorem ppsLoss (t : Nat) : Statement (.ppsLoss t) := of_none rfl
theorem clk10mLoss (t : Nat) : Statement (.clk10mLoss t) := of_none rfl
theorem clk10mReturn (t : Nat) (xo : Int) : Statement (.clk10mReturn t xo) := of_none rfl
theorem ptpMessageRx (t : Nat) (netif : Fin 16) (domain : Byte) (msg : PtpMsg) : Statement (.ptpMessageRx t netif domain msg) := of_none rfl
theorem ptpMessageSend (t : Nat) (due : PtpDue) : Statement (.ptpMessageSend t due) := of_none rfl
theorem holdoffExpire (t : Nat) (refIn : Bool) : Statement (.holdoffExpire t refIn) := of_none rfl
theorem ptpAnnounceTimeout (t : Nat) : Statement (.ptpAnnounceTimeout t) := of_none rfl
theorem ptpBackupReturn (t : Nat) : Statement (.ptpBackupReturn t) := of_none rfl
theorem timeCntClear (t : Nat) : Statement (.timeCntClear t) := of_none rfl
theorem audioSampleInstant (t : Nat) : Statement (.audioSampleInstant t) := of_none rfl
theorem audioBlockBoundary (t : Nat) : Statement (.audioBlockBoundary t) := of_none rfl
theorem aes3FrameRx (t : Nat) (input : Fin 16) (frame : AesFrame) : Statement (.aes3FrameRx t input frame) := of_none rfl
theorem aes3LockLoss (t : Nat) (input : Fin 16) : Statement (.aes3LockLoss t input) := of_none rfl
theorem aes3RateMeasure (t : Nat) : Statement (.aes3RateMeasure t) := of_none rfl
theorem st2110AudioSend (t : Nat) (sender : Fin 64) : Statement (.st2110AudioSend t sender) := of_none rfl
theorem rxsRestart (t : Nat) : Statement (.rxsRestart t) := of_none rfl
theorem rxsClear (t : Nat) : Statement (.rxsClear t) := of_none rfl
theorem groupRelease (t : Nat) (group : Fin 64) (met : Bool) : Statement (.groupRelease t group met) := of_none rfl
theorem ainClear (t : Nat) (inputs : BitVec 16) : Statement (.ainClear t inputs) := of_none rfl
theorem aoutFilledClear (t : Nat) (outputs : BitVec 16) : Statement (.aoutFilledClear t outputs) := of_none rfl
theorem delayStepsClear (t : Nat) : Statement (.delayStepsClear t) := of_none rfl
theorem asendPktsClear (t : Nat) (hi : Bool) (senders : Word) : Statement (.asendPktsClear t hi senders) := of_none rfl
theorem headLatch (t : Nat) (head : Fin 64) (broken : Option Nat) (late : List Nat) : Statement (.headLatch t head broken late) := of_none rfl
theorem fetchStart (t : Nat) (head : Fin 64) : Statement (.fetchStart t head) := of_none rfl
theorem fetchRowIssue (t : Nat) (head : Fin 64) (plane : Fin 21) (row : Nat) (errs : List ReadError) : Statement (.fetchRowIssue t head plane row errs) := of_none rfl
theorem line0 (t : Nat) (head : Fin 64) : Statement (.line0 t head) := of_none rfl
theorem handSample (t : Nat) (head : Fin 64) : Statement (.handSample t head) := of_none rfl
theorem outputUnderrun (t : Nat) (head : Fin 64) (line x : Nat) : Statement (.outputUnderrun t head line x) := of_none rfl
theorem obufWatermark (t : Nat) (head : Fin 64) (fill : Byte) : Statement (.obufWatermark t head fill) := of_none rfl
theorem safeRel (t : Nat) (head : Fin 64) : Statement (.safeRel t head) := of_none rfl
theorem hpdInDeassert (t : Nat) (sband : Fin 48) : Statement (.hpdInDeassert t sband) := of_none rfl
theorem hpdInAssert (t : Nat) (sband : Fin 48) : Statement (.hpdInAssert t sband) := of_none rfl
theorem oportLinkUp (t : Nat) (port : Fin 96) : Statement (.oportLinkUp t port) := of_none rfl
theorem sidebandGo (t : Nat) (port : Fin 96) (ddc read : Bool) (len : BitVec 4) (addr : BitVec 20) : Statement (.sidebandGo t port ddc read len addr) := of_none rfl
theorem sidebandDone (t : Nat) (port : Fin 96) (result : Fin 3) (data : List Byte) : Statement (.sidebandDone t port result data) := of_none rfl
theorem selClear (t : Nat) (layer : Fin 1024) : Statement (.selClear t layer) := of_none rfl
theorem compClear (t : Nat) (layer : Fin 1024) : Statement (.compClear t layer) := of_none rfl
theorem meldClear (t : Nat) (head : Fin 64) : Statement (.meldClear t head) := of_none rfl
theorem layerFreshClear (t : Nat) (layer : Fin 1024) : Statement (.layerFreshClear t layer) := of_none rfl
theorem chaseClear (t : Nat) (layer : Fin 1024) : Statement (.chaseClear t layer) := of_none rfl
theorem timingClear (t : Nat) (head : Fin 64) : Statement (.timingClear t head) := of_none rfl
theorem obufClear (t : Nat) (head : Fin 64) : Statement (.obufClear t head) := of_none rfl
theorem oportCntClear (t : Nat) (port : Fin 96) : Statement (.oportCntClear t port) := of_none rfl
theorem sendCntClear (t : Nat) (page : Fin 4) (senders : BitVec 16) : Statement (.sendCntClear t page senders) := of_none rfl
theorem sealComplete (t : Nat) (standards : List StdFail) : Statement (.sealComplete t standards) := of_none rfl
theorem withdraw (t : Nat) : Statement (.withdraw t) := of_none rfl
theorem revert (t : Nat) : Statement (.revert t) := of_none rfl
theorem revertDone (t : Nat) : Statement (.revertDone t) := of_none rfl
theorem applyTimeReached (t : Nat) : Statement (.applyTimeReached t) := of_none rfl
theorem bidRx (t : Nat) (netif : Fin 16) (msg : List Byte) : Statement (.bidRx t netif msg) := of_none rfl
theorem retractRx (t : Nat) (netif : Fin 16) (msg : List Byte) : Statement (.retractRx t netif msg) := of_none rfl
theorem dealerDecide (t : Nat) : Statement (.dealerDecide t) := of_none rfl
theorem tableVoteRx (t : Nat) (netif : Fin 16) (msg : List Byte) : Statement (.tableVoteRx t netif msg) := of_none rfl
theorem houseDecide (t : Nat) : Statement (.houseDecide t) := of_none rfl
theorem decisionRx (t : Nat) (netif : Fin 16) (msg : List Byte) : Statement (.decisionRx t netif msg) := of_none rfl
theorem decisionDeadline (t : Nat) : Statement (.decisionDeadline t) := of_none rfl
theorem lateWindowClose (t : Nat) : Statement (.lateWindowClose t) := of_none rfl
theorem keepaliveSend (t : Nat) (dealer : Bool) : Statement (.keepaliveSend t dealer) := of_none rfl
theorem keepaliveRx (t : Nat) (netif : Fin 16) (msg : List Byte) : Statement (.keepaliveRx t netif msg) := of_none rfl
theorem dealerKeepaliveRx (t : Nat) (netif : Fin 16) (msg : List Byte) : Statement (.dealerKeepaliveRx t netif msg) := of_none rfl
theorem keepaliveMiss (t : Nat) (who : Lost) : Statement (.keepaliveMiss t who) := of_none rfl
theorem tatreTileRx (t : Nat) (rx : TileRx) : Statement (.tatreTileRx t rx) := of_none rfl
theorem tatreStampsRx (t : Nat) (rx : TileRx) : Statement (.tatreStampsRx t rx) := of_none rfl
theorem tatreEndOfFrameRx (t : Nat) (rx : TileRx) : Statement (.tatreEndOfFrameRx t rx) := of_none rfl
theorem streamAliveRx (t : Nat) (rx : TileRx) : Statement (.streamAliveRx t rx) := of_none rfl
theorem tatreApplyTimeout (t : Nat) (ctx : Fin 256) : Statement (.tatreApplyTimeout t ctx) := of_none rfl
theorem tatreSendFrame (t : Nat) (sender : Fin 256) (errs : List ReadError) : Statement (.tatreSendFrame t sender errs) := of_none rfl
theorem netifDown (t : Nat) (netif : Fin 16) : Statement (.netifDown t netif) := of_none rfl
theorem netifUp (t : Nat) (netif : Fin 16) : Statement (.netifUp t netif) := of_none rfl
theorem nportCntClear (t : Nat) (port : Fin 4) : Statement (.nportCntClear t port) := of_none rfl
theorem tatreSendCntClear (t : Nat) (page : Fin 16) (senders : BitVec 16) : Statement (.tatreSendCntClear t page senders) := of_none rfl
theorem pcRelease (t : Nat) (pc : Fin 128) (met : Bool) : Statement (.pcRelease t pc met) := of_none rfl
theorem scrubPassStart (t : Nat) : Statement (.scrubPassStart t) := of_none rfl
theorem scrubDone (t : Nat) (corrected : Nat) (bursts : List Nat) : Statement (.scrubDone t corrected bursts) := of_none rfl
theorem hostStageWrite (t : Nat) (slabs : BitVec 16) : Statement (.hostStageWrite t slabs) := of_none rfl
theorem talonSlabRelease (t : Nat) : Statement (.talonSlabRelease t) := of_none rfl
theorem secondStatistics (t : Nat) : Statement (.secondStatistics t) := of_none rfl
theorem memswCntClear (t : Nat) : Statement (.memswCntClear t) := of_none rfl
theorem talonCntClear (t : Nat) : Statement (.talonCntClear t) := of_none rfl
theorem pcRetrainFail (t : Nat) (pc : Fin 128) : Statement (.pcRetrainFail t pc) := of_none rfl
theorem synthFail (t : Nat) (head : Fin 64) : Statement (.synthFail t head) := of_none rfl
theorem hostVotesWrite (t : Nat) (dom : Fin 36) (votes : BitVec 8) : Statement (.hostVotesWrite t dom votes) := of_none rfl
theorem domainEnterWrite (t : Nat) (dom : Fin 36) : Statement (.domainEnterWrite t dom) := of_none rfl
theorem instanceAgree (t : Nat) (page : PageRef) : Statement (.instanceAgree t page) := of_page rfl rfl
theorem agreeTimeout (t : Nat) (what : PowTarget) : Statement (.agreeTimeout t what) := of_target rfl rfl
theorem wakeStepEnd (t : Nat) (what : PowTarget) : Statement (.wakeStepEnd t what) := of_target rfl rfl
theorem wakeStepTimeout (t : Nat) (what : PowTarget) : Statement (.wakeStepTimeout t what) := of_target rfl rfl
theorem wakeRetry (t : Nat) (what : PowTarget) : Statement (.wakeRetry t what) := of_target rfl rfl
theorem powerCntClear (t : Nat) : Statement (.powerCntClear t) := of_none rfl
theorem biasUpdate (t : Nat) : Statement (.biasUpdate t) := of_none rfl
theorem avsUpdate (t : Nat) (target read : BitVec 12) (ack : Bool) : Statement (.avsUpdate t target read ack) := of_none rfl
theorem tempReport (t : Nat) (hi lo : Int) : Statement (.tempReport t hi lo) := of_none rfl
theorem stallDetect (t : Nat) (page : PageRef) : Statement (.stallDetect t page) := of_page rfl rfl
theorem sramUe (t : Nat) (page : PageRef) (detail : BitVec 3) : Statement (.sramUe t page detail) := of_page rfl rfl
theorem ceRate (t : Nat) (page : PageRef) : Statement (.ceRate t page) := of_page rfl rfl
theorem witnessHandover (t : Nat) : Statement (.witnessHandover t) := of_none rfl
theorem witnessChainRecord (t : Nat) : Statement (.witnessChainRecord t) := of_none rfl
theorem signPeriod (t : Nat) : Statement (.signPeriod t) := of_none rfl
theorem signedEntryReady (t : Nat) : Statement (.signedEntryReady t) := of_none rfl
theorem wsigSelect (t : Nat) (seq : Word) : Statement (.wsigSelect t seq) := of_none rfl
theorem wsigDataRead (t : Nat) : Statement (.wsigDataRead t) := of_none rfl
theorem witnessCntClear (t : Nat) (head : Fin 64) : Statement (.witnessCntClear t head) := of_none rfl
theorem lockstepMismatch (t : Nat) (pairB : Bool) (groups : Nat) : Statement (.lockstepMismatch t pairB groups) := of_none rfl
theorem watchdogExpire (t : Nat) : Statement (.watchdogExpire t) := of_none rfl
theorem fwAutoRestart (t : Nat) : Statement (.fwAutoRestart t) := of_none rfl
theorem fwRestart (t : Nat) : Statement (.fwRestart t) := of_none rfl
theorem bootRomStart (t : Nat) (xo : Option Int) : Statement (.bootRomStart t xo) := of_none rfl
theorem engineGroupRelease (t : Nat) (group : Fin 8) (digest : List Byte) (version build : BitVec 16) (ok : Bool) : Statement (.engineGroupRelease t group digest version build ok) := of_none rfl
theorem engineGroupReload (t : Nat) (group : Fin 8) (ok : Bool) : Statement (.engineGroupReload t group ok) := of_none rfl
theorem getInfo (t : Nat) : Statement (.getInfo t) := of_none rfl
theorem installBegin (t : Nat) : Statement (.installBegin t) := of_none rfl
theorem installData (t : Nat) (ok : Bool) : Statement (.installData t ok) := of_none rfl
theorem installCommit (t : Nat) : Statement (.installCommit t) := of_none rfl
theorem installAbort (t : Nat) : Statement (.installAbort t) := of_none rfl
theorem installConfirm (t : Nat) : Statement (.installConfirm t) := of_none rfl
theorem attestQuote (t : Nat) : Statement (.attestQuote t) := of_none rfl
theorem attestRead (t : Nat) : Statement (.attestRead t) := of_none rfl
theorem getCert (t : Nat) : Statement (.getCert t) := of_none rfl
theorem fuseWrite (t : Nat) : Statement (.fuseWrite t) := of_none rfl
theorem mboxDone (t : Nat) : Statement (.mboxDone t) := of_none rfl
theorem defaultTargetHit (t : Nat) (addr : Word) (master : Fin 6) (data : Option Word) (beats : Fin 16) :
    Statement (.defaultTargetHit t addr master data beats) := of_none rfl
theorem defClear (t : Nat) : Statement (.defClear t) := of_none rfl
theorem keyLoad (t : Nat) (clear : Bool) : Statement (.keyLoad t clear) := of_none rfl
theorem debugGetChallenge (t : Nat) : Statement (.debugGetChallenge t) := of_none rfl
theorem debugSubmit (t : Nat) (challenge : Bool) : Statement (.debugSubmit t challenge) := of_none rfl
theorem debugDataAppend (t : Nat) (v : Word) : Statement (.debugDataAppend t v) := of_none rfl
theorem debugDataReset (t : Nat) : Statement (.debugDataReset t) := of_none rfl
theorem challengeExpire (t : Nat) : Statement (.challengeExpire t) := of_none rfl
theorem nvmWrite (t : Nat) (ctl : Word) (ue : List Nat) (ce : Nat) : Statement (.nvmWrite t ctl ue ce) := of_none rfl
theorem nvmRecWrite (t : Nat) (ctl : Word) (ue : List Nat) (ce : Nat) : Statement (.nvmRecWrite t ctl ue ce) := of_none rfl
theorem nvmRecRead (t : Nat) (ctl : Word) (ue : List Nat) (ce : Nat) : Statement (.nvmRecRead t ctl ue ce) := of_none rfl
theorem nvmCntInc (t : Nat) (ctl : Word) (ue : List Nat) (ce : Nat) : Statement (.nvmCntInc t ctl ue ce) := of_none rfl
theorem nvmCntRead (t : Nat) (ctl : Word) (ue : List Nat) (ce : Nat) : Statement (.nvmCntRead t ctl ue ce) := of_none rfl
theorem nvmCmdDone (t : Nat) (ue : List Nat) (ce : Nat) : Statement (.nvmCmdDone t ue ce) := of_none rfl
theorem pwUnlock (t : Nat) (ctl : Word) : Statement (.pwUnlock t ctl) := of_none rfl
theorem pwLock (t : Nat) (ctl : Word) : Statement (.pwLock t ctl) := of_none rfl
theorem pwSet (t : Nat) (ctl : Word) : Statement (.pwSet t ctl) := of_none rfl
theorem pwClear (t : Nat) (ctl : Word) : Statement (.pwClear t ctl) := of_none rfl
theorem nvmWindowRead (t : Nat) (off : BitVec 14) (ue : List Nat) (ce : Nat) : Statement (.nvmWindowRead t off ue ce) := of_none rfl
theorem pwrfailFall (t groups : Nat) : Statement (.pwrfailFall t groups) := of_none rfl
theorem pwrfailRise (t : Nat) : Statement (.pwrfailRise t) := of_none rfl
theorem pwrfailLift (t : Nat) : Statement (.pwrfailLift t) := of_none rfl
theorem nvmScrubStart (t : Nat) : Statement (.nvmScrubStart t) := of_none rfl
theorem nvmCntClear (t : Nat) : Statement (.nvmCntClear t) := of_none rfl
theorem nvmScrubPassEnd (t corrected : Nat) (ue : List Nat) : Statement (.nvmScrubPassEnd t corrected ue) := of_none rfl
theorem resetAssert (t groups : Nat) : Statement (.resetAssert t groups) := of_none rfl
theorem resetRelease (t : Nat) : Statement (.resetRelease t) := of_none rfl
theorem readySet (t : Nat) : Statement (.readySet t) := of_none rfl
theorem aliveTick (t : Nat) : Statement (.aliveTick t) := of_none rfl
theorem bar0Read (t : Nat) (addr : BitVec 24) (bytes : Nat) (ue : List Nat) (ce : Nat) : Statement (.bar0Read t addr bytes ue ce) := of_none rfl
theorem refCntClear : Statement (.refCntClear) := of_none rfl
theorem dealCntClear : Statement (.dealCntClear) := of_none rfl
theorem dealerCntClear : Statement (.dealerCntClear) := of_none rfl
theorem chainCntClear : Statement (.chainCntClear) := of_none rfl

end Sys2Proof.Laws.WellFormed

namespace Sys2Proof.Laws

theorem WellFormed.seal (t : Nat) : Statement (.seal t) := of_none rfl

end Sys2Proof.Laws
end

