-- ==== Sys2Proof/Tests/Slice0.lean ====
section
/-! SUPPORT. Tests: ill-formed commands are refused by the checks; worked cases of the spec; and, for every statement with
hypotheses, states and operands that meet them. -/
namespace Sys2Proof.Tests
open Sys2Proof Sys2Proof.Machine
set_option Elab.async false

/-- Out of reset with BAR0 answering. -/
def up : State := { dev := { house := 1000000000 } }
/-- The device in reset. -/
def down : State := { dev := { inReset := true } }
/-- A change of the device. -/
def dev (f : Dev → Dev) (s : State) : State := { s with dev := f s.dev }
/-- A live (or staged) field set. -/
def lit (f : Fld) (x : Nat) (i k j : Nat) (s : State) : State := dev (fun d => d.put f x i k j) s
/-- The active copy of a field set. -/
def act (f : Fld) (x : Nat) (i k j : Nat) (s : State) : State := dev (fun d => d.putAt (f.addr i k j - 0x400) f.lo f.w x) s
/-- Fence causes recorded for a unit. -/
def fenced (b : Blk) (i p : Nat) (l : List FenceRec) (s : State) : State := dev (fun d => d.setRecs b i p l) s
/-- Firmware is healthy. -/
def fw (s : State) : State := lit F.GLOBAL_STS_FW_HEALTHY 1 0 0 0 s
/-- The unit's CTL.EN set. -/
def on (b : Blk) (i p : Nat) (s : State) : State := dev (fun d => d.putAt (Dev.fenceKey b i p + 0x08) 0 1 1) s
/-- The unit's CTL.EN cleared. -/
def off (b : Blk) (i p : Nat) (s : State) : State := dev (fun d => d.putAt (Dev.fenceKey b i p + 0x08) 0 1 0) s
/-- The hidden state of a power domain and of an instance. -/
def dom (x : Nat) (u : PowUnit) (s : State) : State := dev (fun d => d.setDom x u) s
def unit (b : Blk) (i : Nat) (u : PowUnit) (s : State) : State := dev (fun d => d.setUnit b i u) s

/-! The queue, reset and the invariant. -/

theorem witness_front : ({ up with pending := [.aliveTick 0, .signPeriod 0] } : State).pending = .aliveTick 0 :: [.signPeriod 0] := rfl
theorem witness_reset : down.dev.inReset = true ∧ actsInReset (.aliveTick 0) = false := by decide
theorem witness_invariant_up : up.Inv ∧ step { up with pending := [.dealCntClear] } = exec .dealCntClear up :=
  ⟨⟨by decide, fun h => by cases h⟩, rfl⟩
theorem witness_invariant_down : down.Inv ∧ step { down with pending := [.aliveTick 5] } = .next down :=
  ⟨⟨by decide, fun _ => ⟨fun _ _ => rfl, rfl, rfl, rfl⟩⟩, rfl⟩

/-! Counters, interrupts, BAR2 and the LUT window. -/

theorem witness_clears : clearedWords (.ledgerClear 7) = some (7, ⟨.ledger, 0, 0⟩, wholeWords [0x5C, 0x60, 0x64]) ∧
    up.takesAt 7 ⟨.ledger, 0, 0⟩ := ⟨rfl, by decide +kernel⟩
theorem witness_clears_nvm : (clearedWords (.nvmCntClear 0)).isSome = true ∧ up.takesAt 0 ⟨.nvm, 0, 0⟩ ∧ up.dev.nvBusy = false := by
  decide +kernel
theorem witness_irq_words : up.answersAt 0 ⟨.nvm, 0, 0⟩ ∧ up.dev.nvBusy = false ∧ up.answersAt 0 ⟨.layer, 1023, 0⟩ := by
  decide +kernel
theorem witness_message :
    let s := dev (fun d => d.putAt (0x8000 + 16 * blkVec .nvm + 12) 0 1 0) up
    s.answersAt 0 ⟨.nvm, 0, 0⟩ ∧ s.dev.nvBusy = false ∧ s.dev.get F.GLOBAL_IRQ_COAL_US = 0 ∧
      (s.dev.word (0x8000 + 16 * blkVec .nvm + 12)).getLsbD 0 = false := by decide +kernel
theorem witness_held_message :
    let s := dev (fun d => { d.putAt (0x8000 + 16 * 63 + 12) 0 1 0 with msiHeld := [63], msiLast := [(63, 1000000)] }) up
    s.answersAt 0 ⟨.global, 0, 0⟩ ∧ (s.dev.word (0x8000 + 16 * 63 + 12)).getLsbD 0 = false ∧ (63 : Nat) ∈ s.dev.msiHeld ∧
      sget (fun _ => 0) s.dev.msiLast 63 - 1 + s.dev.get F.GLOBAL_IRQ_COAL_US * 1000 ≤ max s.dev.house 0 ∧
      0 ∉ s.dev.msiHeld := by decide +kernel
theorem witness_stage :
    let s := on .memsw 0 0 (dev (fun d => { d with maps := [(ownStage, [some 0, some 5])] }) up)
    s.answersAt 0 ⟨.global, 0, 0⟩ ∧ s.dev.bar2Open = true ∧ some ((0 + 1) / 0x200000) ∈ s.dev.map ownStage ∧
      s.dev.pcFenced (pcOf 1) = false ∧ (s.dev.ownerOf 0).1 / 0x1000 = 6 ∧ s.dev.tagFree reqBar2 = true ∧ s.dev.scrubBad = [] := by decide +kernel
theorem witness_base_held :
    (dev (fun d => { d with loHold := [(0x54, 0xFFE00000)] }) up).dev.loHold.find? (fun q => q.1 = 0x54) = some (0x54, 0xFFE00000) ∧
      (dev (fun d => { d with loHold := [(0x54, 0xFFE00000)] }) up).answersAt 0 ⟨.global, 0, 0⟩ := by decide +kernel
theorem witness_base_free : up.answersAt 0 ⟨.global, 0, 0⟩ ∧ up.dev.loHold.find? (fun q => q.1 = 0x54) = none ∧
    up.dev.powerState .global 0 0 < 2 := by decide +kernel
theorem witness_lut :
    let s := lit F.GLOBAL_LUT_WIN_BANK 1 0 0 0 up
    s.answersAt 0 ⟨.global, 0, 0⟩ ∧ s.dev.lutSel = some (0, 0, 1) ∧ Dev.lutPlace 0 0x5FFC = some (2, 0xFFE) ∧
      s.dev.lutActive (0, 0, 1) = false ∧ s.dev.lutLocked (0, 0, 1) = false := by decide +kernel
theorem witness_lut_active : up.dev.lutSel = some (0, 0, 0) ∧ Dev.lutPlace 0 0 = some (0, 0) ∧ up.dev.lutActive (0, 0, 0) = true ∧
    up.dev.get F.GLOBAL_ERR_INFO_CAUSE = 0 := by decide +kernel

/-! Accesses to BAR0. -/

theorem witness_hand_write : up.takesAt 0 ⟨.layer, 0, 0⟩ ∧ isHandOff 0x800 = true ∧ (rowAt .layer 0 0x800).isSome = true ∧
    loPair .layer 0 0x800 ≠ some true ∧ loPair .layer 0 (0x800 - 4) ≠ some true ∧ up.dev.handLock = false := by decide +kernel
theorem witness_hand_locked :
    let s := dev (fun d => { d with handLock := true }) up
    s.takesAt 0 ⟨.layer, 0, 0⟩ ∧ s.dev.handLock = true ∧ s.dev.get F.GLOBAL_ERR_INFO_CAUSE = 0 := by decide +kernel
theorem witness_pair_write : up.takesAt 0 ⟨.head, 0, 0⟩ ∧ isHandOff 0x818 = true ∧ isHandOff (0x818 + 4) = true ∧
    loPair .head 0 0x818 = some true ∧ loPair .head 0 (0x818 + 4) ≠ some true ∧ (rowAt .head 0 0x818).isSome = true ∧
    (rowAt .head 0 (0x818 + 4)).isSome = true ∧ up.dev.handLock = false := by decide +kernel
theorem witness_pair_half :
    let a := pageAddr .head 0 0 + 0x818
    (dev (fun d => { d with loHold := [(a, 7)] }) up).dev.loHold.find? (fun q => q.1 = a) = some (a, 7) := by decide +kernel
theorem witness_pair_read : up.takesAt 0 ⟨.head, 63, 3⟩ ∧ Blk.head ≠ .nvm ∧ (loPair .head 3 (Dev.pairOff 0x5C)).isSome = true ∧
    (loPair .head 3 (Dev.pairOff 0x28)).isSome = true ∧ up.dev.hiLatch = [] := by decide +kernel
theorem witness_undecoded : up.answersAt 0 ⟨.global, 0, 0⟩ ∧ 0xFFFFFC % 4 = 0 ∧ decodeTarget 0xFFFFFC = .undecoded := by decide +kernel

/-! Fences, enables and soft resets. -/

theorem witness_fence : (fw up).dev.inReset = false ∧ (fw up).dev.calm ∧ (fw up).answersAt 0 ⟨.deal, 0, 1⟩ ∧
    unfenceable .deal 1 = false ∧ Dev.validPage ⟨.deal, 0, 1⟩ = true ∧ (fw up).dev.flag F.GLOBAL_STS_FW_HEALTHY = true := by
  decide +kernel
theorem witness_stall :
    let s := on .nport 3 0 up
    Dev.validPage ⟨.nport, 3, 0⟩ = true ∧ s.dev.enabled .nport 3 = true ∧ s.dev.calm ∧ Dev.validPage ⟨.engine, 63, 0⟩ = true ∧
      enFixed .engine = false := by decide +kernel
theorem witness_drain : up.dev.booksDue = [] ∧ up.dev.inReset = false ∧ up.dev.calm := by decide +kernel
theorem witness_first_fence : up.answersAt 0 ⟨.layer, 1023, 0⟩ ∧ up.dev.calm ∧ up.dev.recs .layer 1023 = [] := by decide +kernel
theorem witness_release :
    let s := fenced .head 5 0 [⟨0x01, 0, false⟩, ⟨0x05, 2, false⟩] (fw up)
    s.answersAt 0 ⟨.head, 5, 0⟩ ∧ s.dev.calm ∧ unfenceable .head 0 = false ∧ s.dev.recs .head 5 ≠ [] ∧
      (∀ q ∈ s.dev.recs .head 5, q.cause = 0x01 ∨ (q.cause = 0x05 ∧ q.detail ≠ 1)) ∧
      s.dev.flag F.GLOBAL_STS_FW_HEALTHY = true := by decide +kernel
theorem witness_release_refused :
    let s := fenced .head 5 0 [⟨0x06, 0, false⟩, ⟨0x01, 0, false⟩] (fw up)
    s.answersAt 0 ⟨.head, 5, 0⟩ ∧ s.dev.calm ∧ (∃ q ∈ s.dev.recs .head 5, q.cause = 0x06 ∧ q.detail = 0) ∧
      (∀ q ∈ s.dev.recs .head 5, q.cause ≠ 0x04 ∧ q.cause ≠ 0x03) := by decide +kernel
theorem witness_enable : up.answersAt 0 ⟨.recorder, 0, 0⟩ ∧ up.dev.calm ∧ enFixed .recorder = false ∧ up.dev.en .recorder 0 = false ∧
    unitDom .recorder 0 = none ∧ (on .recorder 0 0 up).dev.en .recorder 0 = true ∧ enFixed .mgmt = true := by decide +kernel
theorem witness_soft_reset : up.answersAt 0 ⟨.recorder, 0, 0⟩ ∧ up.dev.en .recorder 0 = false ∧
    (on .recorder 0 0 up).dev.fenced .recorder 0 = false ∧ (on .recorder 0 0 up).dev.en .recorder 0 = true ∧
    up.dev.get F.GLOBAL_ERR_INFO_CAUSE = 0 := by decide +kernel
theorem witness_soft_reset_busy :
    let s := dev (fun d => d.setWord (pageAddr .recorder 0 0 + 0x0C) 8) up
    s.answersAt 0 ⟨.recorder, 0, 0⟩ ∧ s.dev.rstBusy .recorder 0 = true := by decide +kernel

/-! Power. -/

theorem witness_votes : up.takesAt 0 ⟨.power, 0, 0⟩ ∧ up.dev.calm ∧ up.dev.domState 35 = 0 ∧ (up.dev.dom 35).phase = 0 ∧
    (up.dev.put F.POWER_DOM_CTL_HOST_VOTES 1 0 35).votes 35 ≠ 0 := by decide +kernel
theorem witness_vote_wakes :
    let s := off .audio 0 0 (lit F.POWER_DOM_STS_STATE 2 0 33 0 up)
    s.takesAt 0 ⟨.power, 0, 0⟩ ∧ s.dev.calm ∧ s.dev.domState 33 ≠ 0 ∧ (s.dev.dom 33).phase = 0 ∧
      s.dev.flag F.POWER_DOM_STS_FENCED 0 33 = false ∧ s.dev.flag F.GLOBAL_STS_MGMT_ONLY = false ∧ s.dev.votes 33 = 0 ∧
      (s.dev.put F.POWER_DOM_CTL_HOST_VOTES 255 0 33).votes 33 ≠ 0 := by decide +kernel
theorem witness_entry :
    let s := off .audio 0 0 (lit F.POWER_DOM_CTL_LOW_STATE 3 0 33 0 up)
    s.takesAt 0 ⟨.power, 0, 0⟩ ∧ s.dev.calm ∧ s.dev.get F.POWER_DOM_CTL_LOW_STATE 0 33 ≠ 0 ∧ s.dev.domState 33 = 0 ∧
      (s.dev.dom 33).phase = 0 ∧ s.dev.votes 33 = 0 ∧ (∃ q ∈ domUnits 33, s.dev.fenced q.1 q.2 = false) ∧
      (∀ q ∈ domUnits 33, s.dev.fenced q.1 q.2 = true ∨ s.dev.refusesNow q.1 q.2 = 0) := by decide +kernel
theorem witness_power_request : up.answersAt 0 ⟨.head, 63, 0⟩ ∧ up.dev.calm ∧ unitDom .head 63 = some 27 ∧
    (up.dev.unit .head 63).phase = 0 ∧ (up.dev.unit .head 63).state = 0 ∧ (up.dev.dom 27).phase = 0 ∧ up.dev.domState 27 = 0 ∧
    unitDom .layer 0 = none := by decide +kernel
theorem witness_agree :
    let s := unit .head 0 { phase := 1, target := 2 } up
    s.dev.inReset = false ∧ s.dev.calm ∧ Dev.validPage ⟨.head, 0, 0⟩ = true ∧ unitDom .head 0 = some 24 ∧
      (s.dev.unit .head 0).phase = 1 ∧
      (s.dev.unit .head 0).asked + s.dev.get F.POWER_AGREE_AGREE_US * 1000 ≤ max s.dev.house 0 := by decide +kernel
theorem witness_agree_domain :
    let s := dom 33 { phase := 1, target := 3 } up
    s.dev.inReset = false ∧ s.dev.calm ∧ unitDom .audio 0 = some 33 ∧ (s.dev.unit .audio 0).phase ≠ 1 ∧ (s.dev.dom 33).phase = 1 ∧
      (s.dev.dom 33).asked + s.dev.get F.POWER_AGREE_AGREE_US * 1000 ≤ max s.dev.house 0 ∧
      (∃ q ∈ domUnits 33, s.dev.fenced q.1 q.2 = false ∧ pageAddr q.1 q.2 0 ∉ (s.dev.dom 33).agreed) := by decide +kernel
theorem witness_wake_step :
    let s := dom 33 { phase := 2, left := 3, step := 1 } up
    s.dev.inReset = false ∧ s.dev.calm ∧ (s.dev.dom 33).start + s.dev.stepDelay 33 1 ≤ max s.dev.house 0 ∧
      Dev.stepAfter (wakeSteps (isStack 33) 3) 1 = some 2 := by decide +kernel
theorem witness_wake_last :
    let s := lit F.POWER_DOM_CTL_HOST_VOTES 1 0 33 0 (dom 33 { phase := 2, left := 1, step := 7 } up)
    s.dev.calm ∧ (s.dev.dom 33).start + s.dev.stepDelay 33 7 ≤ max s.dev.house 0 ∧
      Dev.stepAfter (wakeSteps (isStack 33) 1) 7 = none ∧ s.dev.votes 33 ≠ 0 ∧ (s.dev.dom 33).waits = [] ∧
      (s.dev.dom 33).releases = [] ∧ (s.dev.dom 33).left < 2 := by decide +kernel
theorem witness_wake_timeout :
    let s := dom 33 { phase := 2, left := 3, step := 1 } up
    s.dev.stepLimit 33 1 ≠ 0 ∧ (s.dev.dom 33).start + s.dev.stepLimit 33 1 ≤ max s.dev.house 0 ∧
      (s.dev.dom 33).tries + 1 ≤ s.dev.get F.POWER_DOM_CTL_RETRIES 0 33 := by decide +kernel
theorem witness_wake_retry :
    let s := dom 34 { phase := 3, left := 3, tries := 1 } up
    s.dev.calm ∧ (s.dev.dom 34).start + 10000000 ≤ max s.dev.house 0 ∧ s.dev.flag F.GLOBAL_STS_MGMT_ONLY = false := by decide +kernel
theorem witness_supply : (fw up).dev.inReset = false ∧ (fw up).dev.flag F.GLOBAL_STS_FW_HEALTHY = true ∧
    700 ≤ (850 : BitVec 12).toNat ∧ (850 : BitVec 12).toNat ≤ 850 ∧ (850 : BitVec 12).toNat % 5 = 0 ∧
    (-256 : Int) ≤ -256 ∧ (-256 : Int) ≤ 255 ∧ (255 : Int) < 256 := by decide +kernel

/-! Audits, rebuilds and snapshots. -/

theorem witness_audit : up.takesAt 0 ⟨.ledger, 0, 0⟩ ∧ up.dev.flag F.LEDGER_AUDIT_STS_BUSY = false ∧ up.dev.auditDue = none ∧
    (lit F.LEDGER_AUDIT_STS_BUSY 1 0 0 0 up).dev.flag F.LEDGER_AUDIT_STS_BUSY = true := by decide +kernel
theorem witness_audit_due :
    let s := lit F.LEDGER_AUDIT_CTL_PERIODIC 0 0 0 0 (dev (fun d => { d with auditDue := some 3000 }) up)
    s.dev.auditDue = some 3000 ∧ s.dev.inReset = false ∧ s.takesAt 0 ⟨.ledger, 0, 0⟩ ∧ s.dev.flag F.LEDGER_AUDIT_CTL_PERIODIC = false ∧ s.dev.flag F.LEDGER_AUDIT_STS_BUSY = false ∧
      s.dev.flag F.LEDGER_AUDIT_STS_REBUILDING = false := by decide +kernel
theorem witness_audit_periodic :
    let s := lit F.LEDGER_AUDIT_CTL_PERIODIC 1 0 0 0 up
    s.dev.auditDue = none ∧ s.dev.flag F.LEDGER_AUDIT_CTL_PERIODIC = true ∧ s.dev.auditSecond < 1000000000 / 1000000000 ∧
      (lit F.LEDGER_AUDIT_STS_BUSY 1 0 0 0 s).dev.flag F.LEDGER_AUDIT_STS_BUSY = true ∧
      (dev (fun d => { d with talonFrozen := true }) s).dev.talonFrozen = true := by decide +kernel
theorem witness_audit_result :
    let s := lit F.LEDGER_AUDIT_STS_BUSY 1 0 0 0 (dev (fun d => { d with auditFree := 64511, auditRegs := [.tags 19 1 0, .fifo 127 5 0xFFFFFFFF 6] }) up)
    s.dev.inReset = false ∧ s.dev.calm ∧ s.dev.flag F.LEDGER_AUDIT_STS_BUSY = true ∧ s.dev.talonFrozen = false ∧
      s.dev.auditNoTalon = false ∧ s.dev.auditFree + s.dev.auditAlloc ≠ 64512 ∧
      (∃ q ∈ s.dev.auditRegs, Dev.bookFails q = some (.tagPool 19)) ∧ Dev.bookFails (.fifo 127 5 0xFFFFFFFF 6) = none ∧
      (dev (fun d => { d with auditFree := 64512, auditRegs := [] }) s).dev.auditFree + s.dev.auditAlloc = 64512 ∧
      (s.dev.auditFound [.slabs (.leak 64511)]).auditFree = 64510 ∧
      (s.dev.auditFound [.tags 19 32 0]).auditRegs = [.tags 19 32 0, .fifo 127 5 0xFFFFFFFF 6] := by decide +kernel
theorem witness_rebuild :
    let s := fenced .talon 0 0 [⟨0x02, 0, false⟩] (fw up)
    s.dev.flag F.GLOBAL_STS_FW_HEALTHY = true ∧ s.dev.flag F.LEDGER_AUDIT_STS_REBUILDING = false ∧ s.dev.rebuilt = false ∧
      (∃ q ∈ s.dev.recs .talon 0, q.cause = 0x02 ∧ q.detail = 0) ∧ (¬ ∃ q ∈ s.dev.recs .talon 0, q.cause = 0x03) ∧
      (∃ q ∈ (fenced .talon 0 0 [⟨0x03, 0, false⟩] s).dev.recs .talon 0, q.cause = 0x03) ∧ s.dev.rebuildAsked = false ∧
      s.dev.hasCause .talon 0 0 0x03 = false ∧ s.dev.hasCause .talon 0 0 0x02 = true ∧
      (fenced .talon 0 0 [⟨0x03, 0, false⟩] s).dev.hasCause .talon 0 0 0x03 = true ∧ up.dev.talonFrozen = false ∧
      (dev (fun d => { d with rebuildAsked := true }) s).dev.rebuildAsked = true := by decide +kernel
theorem witness_rebuild_end :
    let s := lit F.LEDGER_CTL_AUTO_RELEASE 0 0 0 0 (lit F.LEDGER_AUDIT_STS_REBUILDING 1 0 0 0 up)
    s.dev.flag F.LEDGER_AUDIT_STS_REBUILDING = true ∧ s.dev.calm ∧ s.dev.rebuildAsked = false ∧
      s.dev.flag F.LEDGER_CTL_AUTO_RELEASE = false ∧
      (lit F.LEDGER_CTL_AUTO_RELEASE 1 0 0 0 s).dev.flag F.LEDGER_CTL_AUTO_RELEASE = true := by decide +kernel
theorem witness_snap :
    let s := lit F.SNAP_STS_ARMED 1 0 0 0 up
    s.takesAt 0 ⟨.snap, 0, 0⟩ ∧ s.dev.flag F.SNAP_STS_ARMED = true ∧ s.dev.flag F.SNAP_STS_PENDING = false ∧
      s.dev.flag F.SNAP_STS_SCHED_PENDING = false ∧ (lit F.SNAP_STS_PENDING 1 0 0 0 s).dev.flag F.SNAP_STS_PENDING = true ∧
      (lit F.SNAP_STS_ARMED 0 0 0 0 s).dev.flag F.SNAP_STS_ARMED = false := by decide +kernel
theorem witness_snap_sched :
    let s := dev (fun d => d.put64 F.SNAP_SCHED_TIME_LO (1000000000 + d.get F.SNAP_LEAD_LEAD_US * 1000)) up
    s.takesAt 0 ⟨.snap, 0, 0⟩ ∧ s.dev.flag F.SNAP_STS_PENDING = false ∧
      max s.dev.house 0 + s.dev.get F.SNAP_LEAD_LEAD_US * 1000 ≤ s.dev.get64 F.SNAP_SCHED_TIME_LO ∧
      up.dev.get64 F.SNAP_SCHED_TIME_LO < max up.dev.house 0 + up.dev.get F.SNAP_LEAD_LEAD_US * 1000 := by decide +kernel
theorem witness_snap_pin :
    let s := lit F.SNAP_MODE_PIN_RISE 1 0 0 0 (lit F.SNAP_MODE_PIN_EN 1 0 0 0 up)
    s.dev.inReset = false ∧ s.dev.flag F.SNAP_MODE_PIN_EN = true ∧ s.dev.flag F.SNAP_MODE_PIN_RISE = true := by decide +kernel
theorem witness_snapshot :
    let s := lit F.SNAP_STS_PENDING 1 0 0 0 (lit F.SNAP_STS_ARMED 1 0 0 0 (dev (fun d => d.put64 F.SNAP_PENDING_E_LO 5) up))
    s.dev.flag F.SNAP_STS_ARMED = true ∧ s.dev.flag F.SNAP_STS_PENDING = true ∧ s.dev.flag F.SNAP_STS_SCHED_PENDING = false ∧
      s.dev.get64 F.SNAP_PENDING_E_LO ≤ 5 := by decide +kernel

/-! Lanes. -/

/-- A lane's hidden state. -/
def lane (n : Nat) (l : LaneSt) (s : State) : State := dev (fun d => d.updLane n (fun _ => l)) s
/-- A lane's live field and its active copy. -/
def llit (f : Fld) (x n : Nat) (s : State) : State := dev (fun d => d.lput f x n) s
/-- A media lane's receive half passes data, with the lane's hidden state. -/
def passes (n : Nat) (l : LaneSt) (s : State) : State :=
  act F.MLANE_RX_CFG_RX_EN 1 n 0 0 (lane n l (on .mlane n 0 (llit F.MLANE_LANE_STS_RX_LSTATE 0 n
    (llit F.MLANE_LANE_STS_LOS 0 n (llit F.MLANE_LANE_STS_LOL 0 n s)))))

theorem witness_los : (llit F.MLANE_LANE_STS_LOS 0 111 up).dev.calm ∧
    (llit F.MLANE_LANE_STS_LOS 0 111 up).dev.lget F.MLANE_LANE_STS_LOS 111 = 0 ∧
    (llit F.MLANE_LANE_STS_LOS 1 0 up).dev.lget F.MLANE_LANE_STS_LOS 0 = 1 := by decide +kernel
theorem witness_lol :
    let s := llit F.MLANE_LANE_STS_LOS 0 95 (llit F.MLANE_LANE_STS_LOL 0 95 (llit F.MLANE_LANE_STS_RX_LSTATE 0 95 up))
    s.dev.lget F.MLANE_LANE_STS_LOL 95 = 0 ∧ s.dev.lget F.MLANE_LANE_STS_RX_LSTATE 95 = 0 ∧
      (llit F.MLANE_LANE_STS_LOL 1 95 s).dev.lget F.MLANE_LANE_STS_LOL 95 = 1 ∧
      (llit F.MLANE_LANE_STS_LOL 1 95 s).dev.lget F.MLANE_LANE_STS_LOS 95 = 0 ∧ (s.dev.lane 95).rxTarget = none ∧
      s.dev.lget F.MLANE_RX_EQ_CTL_EQ_MODE 95 ≠ 1 ∧ s.dev.inReset = false ∧ s.dev.calm ∧
      s.dev.lockRate 95 7 = some (s.dev.rxRateUsed 95) ∧ s.dev.act F.MLANE_RX_CFG_FWD_CLK 95 = 0 ∧ s.dev.act F.MLANE_RX_CFG_RATE_SRC 95 = 0 ∧
      (act F.MLANE_RX_CFG_FWD_CLK 1 95 0 0 s).dev.lockRate 95 297000 = some 297000 ∧
      (act F.MLANE_RX_CFG_FWD_CLK 1 95 0 0 s).dev.act F.MLANE_RX_CFG_FWD_CLK 95 = 1 ∧ s.dev.lockRate 111 7 = some 7 := by decide +kernel
theorem witness_lane_acquires :
    let s := llit F.MLANE_LANE_STS_LOL 0 96 (lane 96 { acq := true, txWait := true } up)
    (s.dev.lane 96).txWait = true ∧ (s.dev.lane 96).acq = true ∧ s.dev.lget F.MLANE_LANE_STS_LOL 96 = 0 := by decide +kernel
theorem witness_equaliser :
    let s := llit F.MLANE_RX_EQ_CTL_EQ_MODE 0 95 up
    s.takesAt 0 (lanePageOf 95) ∧ (2 : BitVec 2) ≠ 3 ∧ (48 : BitVec 6).toNat ≤ 48 ∧
    (rowAt .mlane 0 0x48).isSome = true ∧ s.dev.lget F.MLANE_RX_EQ_CTL_EQ_MODE 95 = 0 := by decide +kernel
/-- Lane 95 in TEST mode with the pattern PRBS7. -/
def checker (l : LaneSt) : State :=
  llit F.MLANE_PRBS_CTL_CHK_PAT 1 95 (act F.MLANE_RX_CFG_RX_MODE 1 95 0 0 (act F.MLANE_RX_RATE_RATE_KBPS 10000000 95 0 0 (passes 95 l up)))
theorem witness_prbs :
    let s := checker { chk := { hist := List.replicate 31 true, run := 63 } }
    s.takesAt 0 (lanePageOf 95) ∧ s.dev.calm ∧ s.dev.rxData 95 = true ∧ s.dev.fwdClk 95 = false ∧ s.dev.rxTest 95 = true ∧ s.dev.chkPat 95 ≠ 0 ∧
      (s.dev.lane 95).inj = 0 ∧ s.dev.lget F.MLANE_LANE_STS_PRBS_SYNC 95 = 0 ∧ (s.dev.lane 95).chk.hist.length = 31 ∧
      (s.dev.lane 95).chk.run < 64 ∧ ((lane 0 { inj := 2 } s).dev.lane 0).inj = 2 := by decide +kernel
theorem witness_prbs_sync :
    let c : PrbsChk := { hist := [true, false], pos := 1000, errs := List.replicate 31 900 }
    let s := llit F.MLANE_LANE_STS_PRBS_SYNC 1 95 (checker { chk := c })
    s.dev.rxData 95 = true ∧ s.dev.rxTest 95 = true ∧ s.dev.chkPat 95 ≠ 0 ∧ (s.dev.lane 95).inj = 0 ∧
      s.dev.lget F.MLANE_LANE_STS_PRBS_SYNC 95 = 1 ∧ s.dev.rxBits 95 (.bits [true]) = [true] ∧
      (xor true (s.dev.chkInv 95) ≠ prbsNext (s.dev.chkPat 95) (s.dev.lane 95).chk.hist) ∧
      31 ≤ (s.dev.lane 95).chk.errs.length ∧ (s.dev.lane 95).chk.pos + 1 - (s.dev.lane 95).chk.errs.getD 30 0 < 1024 := by
  decide +kernel
theorem witness_injection :
    let x := act F.MLANE_TX_CFG_TX_MODE 1 95 0 0 (llit F.MLANE_PRBS_CTL_GEN_PAT 1 95 (checker { txIdle := false, inj := 1, injLeft := 1 }))
    (checker { inj := 2, injRx := true, injLeft := 0 }).dev.injSent 95 = true ∧ x.dev.injSent 95 = true ∧
      (checker { inj := 2, injRx := true, injLeft := 1 }).dev.injSent 95 = false ∧ up.dev.injSent 95 = false := by decide +kernel
theorem witness_lane_state : up.takesAt 0 (lanePageOf 111) ∧ up.dev.calm ∧ (up.dev.lane 111).rxTarget = none ∧
    ((lane 111 { rxTarget := some 3 } up).dev.lane 111).rxTarget ≠ none ∧ up.dev.get F.GLOBAL_ERR_INFO_CAUSE = 0 ∧
    up.dev.lanePowered 111 = true ∧ up.dev.lget F.MLANE_LANE_STS_RX_LSTATE 111 ≠ 1 ∧
    (dev (fun d => d.putAt (pgAddr (lanePageOf 111) + 0x30) 0 2 1) up).dev.lanePowered 111 = false := by decide +kernel
theorem witness_lane_done :
    let s := lane 0 { rxTarget := some 3, txTarget := some 0 } up
    (s.dev.lane 0).rxTarget = some 3 ∧ (s.dev.lane 0).rxNext = none ∧ (s.dev.lane 0).txTarget = some 0 ∧
      (s.dev.lane 0).txNext = none := by decide +kernel
theorem witness_marker :
    let s := act F.MLANE_BOND_BOND_WIDTH 2 95 0 0 (act F.MLANE_BOND_BOND_EN 1 95 0 0
      (passes 95 { txIdle := false, mkBad := 3, mkGood := 1 } up))
    let m : MarkerRx := { payload := some [0xB6, 1, 0, 2, 0xFF, 0xFF, 0xFF, 7], blocks := [(markerGap, false, 0)], skew := -2048 }
    s.dev.inReset = false ∧ s.dev.calm ∧ s.dev.act F.MLANE_BOND_BOND_EN 95 = 1 ∧ s.dev.act F.MLANE_BOND_BOND_ID 95 = 0 ∧
      (s.dev.lane 95).txIdle = false ∧
      m.payload = some [0xB6, 1, BitVec.ofNat 8 (s.dev.act F.MLANE_BOND_BOND_ID 95), 2, 0xFF, 0xFF, 0xFF, 7] ∧
      (1 : Byte).toNat < (2 : Byte).toNat ∧ (2 : Byte).toNat = s.dev.act F.MLANE_BOND_BOND_WIDTH 95 ∧ s.dev.rxData 95 = true ∧
      s.dev.markerSeen 95 m = m ∧ s.dev.loopNear 95 = false ∧ (s.dev.markerSeen 95 { m with inverted := true }).payload = none ∧
      Dev.markerOnTime m = true ∧ Dev.markerOnTime { m with blocks := [] } = false ∧ m.skew.natAbs ≤ 2048 ∧ 1 ≤ (s.dev.lane 95).mkGood ∧ up.dev.rxData 95 = false ∧ 3 ≤ (s.dev.lane 95).mkBad ∧ s.dev.act F.MLANE_BOND_BOND_EN 95 = 1 := by decide +kernel
theorem witness_bond :
    let s := act F.MLANE_BOND_BOND_EN 1 95 0 0 (act F.MLANE_BOND_BOND_ID 15 95 0 0 (lane 95 { txIdle := false } up))
    s.dev.bondLanes 15 ≠ [] ∧ 95 ∈ s.dev.bondLanes 15 ∧ (s.dev.lane 95).txIdle = false ∧ s.dev.act F.MLANE_TX_CFG_TX_MODE 95 = 0 ∧
      s.dev.bondLanes 14 = [] ∧ s.dev.inReset = false := by decide +kernel
theorem witness_training : ((lane 111 { training := true } up).dev.lane 111).training = true := by decide +kernel

/-! Ingest contexts. -/

/-- A context's hidden state. -/
def ctx (n : Nat) (c : CtxSt) (s : State) : State := dev (fun d => d.updCtx n (fun _ => c)) s
/-- A context of a kind, enabled and in a state. -/
def ingest (k n st : Nat) : State :=
  act F.INGEST_CFG_KIND k n 0 0 (lit F.INGEST_STATE_STATE st n 0 0 (on .ingest n 0 (on .memsw 0 0 up)))

theorem witness_ctx_leaves :
    (ingest 5 255 2).dev.calm ∧ (ingest 5 255 2).dev.enabled .ingest 255 = true ∧ (ingest 5 255 2).dev.ctxKind 255 = 5 ∧
      Dev.isBaseband 5 = true ∧ (ingest 5 255 2).dev.get F.INGEST_STATE_STATE 255 = 2 ∧
      (ingest 1 0 5).dev.get F.INGEST_STATE_STATE 0 = 5 ∧
      (act F.INGEST_LINK_MST_EN 1 0 0 0 (ingest 3 0 1)).dev.actFlag F.INGEST_LINK_MST_EN 0 = true ∧
      Dev.isSt2110 ((ingest 9 0 1).dev.ctxKind 0) = true ∧ (ingest 9 0 1).dev.actFlag F.INGEST_CFG_DUAL_PATH 0 = false := by
  decide +kernel
theorem witness_silence :
    let sig : SigFmt := ⟨1920, 1080, 2200, 1125, 0, 1, false, 0, 0, false, false, true⟩
    let s := ctx 255 { confirmed := some sig, confPeriod := 16666667, heard := (999940740, false) } (ingest 5 255 2)
    let r := act F.INGEST_RATE_NUM 60 0 0 0 (act F.INGEST_RATE_DEN 1 0 0 0 (act F.INGEST_NET_FMT_HEIGHT 1080 0 0 0 (ingest 6 0 2)))
    (s.dev.ctx 255).confirmed = some sig ∧ 4 * (s.dev.ctx 255).confPeriod ≤ (max s.dev.house 0 - (s.dev.ctx 255).heard.1) * sig.vtotal ∧
      ¬ 4 * (s.dev.ctx 255).confPeriod ≤ (max s.dev.house 0 - 999940741) * sig.vtotal ∧
      4000000 ≤ max (ingest 5 255 1).dev.house 0 - ((ingest 5 255 1).dev.ctx 255).heard.1 ∧
      Dev.isBaseband (r.dev.ctxKind 0) = false ∧ r.dev.ctxKind 0 = 6 ∧ Dev.isSt2110 (r.dev.ctxKind 0) = true ∧
      (let den := r.dev.act F.INGEST_RATE_DEN 0 * 1000000000
       40 * den ≤ 10 * (max r.dev.house 0 - (r.dev.ctx 0).heard1.1) * r.dev.act F.INGEST_RATE_NUM 0 * r.dev.act F.INGEST_NET_FMT_HEIGHT 0) ∧
      Dev.isBaseband ((ingest 9 0 1).dev.ctxKind 0) = false ∧ (ingest 9 0 1).dev.ctxKind 0 ≠ 6 ∧
      4000000 ≤ max (ingest 9 0 1).dev.house 0 - ((ingest 9 0 1).dev.ctx 0).heard1.1 ∧
      (let q := act F.INGEST_CFG_DUAL_PATH 1 0 0 0 (ctx 0 { heard2 := (1000000000, false) } (ingest 9 0 1))
       q.dev.actFlag F.INGEST_CFG_DUAL_PATH 0 = true ∧ ¬ 4000000 ≤ max q.dev.house 0 - (q.dev.ctx 0).heard2.1 ∧
         q.dev.flag F.INGEST_STATE_PATH2_DOWN 0 = false) := by decide +kernel
theorem witness_frame_start :
    let s := act F.MLANE_RX_CFG_RX_EN 1 95 0 0 (lane 95 {} (on .mlane 95 0 (llit F.MLANE_LANE_STS_RX_LSTATE 0 95
      (llit F.MLANE_LANE_STS_LOS 0 95 (llit F.MLANE_LANE_STS_LOL 0 95 (act F.INGEST_LINK_FIRST_LANE 95 255 0 0 (ingest 4 255 1)))))))
    let sig : SigFmt := ⟨8192, 4352, 9000, 4500, 0, 2, false, 0, 0, false, false, true⟩
    s.dev.calm ∧ s.dev.enabled .ingest 255 = true ∧ (s.dev.ctx 255).cur = none ∧ s.dev.get F.INGEST_STATE_STATE 255 = 1 ∧
      s.dev.ctxLanes 255 = [95] ∧ s.dev.rxData 95 = true ∧ Dev.sigSupported sig = true ∧ Dev.sigKey sig ≠ Dev.sigKey { sig with depth := 1 } ∧
      Dev.sigSupported ⟨8193, 4352, 9000, 4500, 0, 2, false, 0, 0, false, false, true⟩ = false := by decide +kernel
theorem witness_line :
    let f : InFrame := { sig := ⟨8192, 4352, 9000, 4500, 0, 2, false, 0, 0, false, false, true⟩, lines := 4351 }
    let s := ctx 255 { cur := some f } (ingest 5 255 2)
    let r := ctx 255 { cur := some f } (passes 0 {} (act F.INGEST_LINK_FIRST_LANE 0 255 0 0 (ingest 4 255 2)))
    (r.dev.lineHeard 255 [1, 2]).isSome = true ∧
    (act F.MLANE_RX_CFG_RX_MODE 2 0 0 0 (lane 0 { txIdle := false } r)).dev.lineHeard 255 [1, 2] = none ∧
    (∀ k ∈ r.dev.ctxLanes 255, r.dev.rxData k = true) ∧ r.dev.ctxLanes 255 = [0] ∧ (r.dev.ctx 255).cur = some f ∧
      (∃ k ∈ s.dev.ctxLanes 255, s.dev.rxData k = false) ∧ (s.dev.ctx 255).cur = some f ∧ f.drop = false ∧ f.lines + 1 ≤ f.sig.height ∧ f.lines < 2 ^ 32 ∧
      Dev.isBaseband (s.dev.ctxKind 255) = true := by decide +kernel
theorem witness_packet :
    let s := dev (fun d => d.setMap (ownCtx 255) [some 64511]) (ingest 9 255 1)
    let p : RtpPacket := ⟨false, 0, 0, 0, 96, 7, 0, true, [], false, [], [1, 2, 3, 4], 0⟩
    Dev.isSt2110 (s.dev.ctxKind 255) = true ∧ s.dev.packetMatches 255 p = true ∧ s.dev.get F.INGEST_STATE_STATE 255 ≠ 5 ∧
      (∀ h, (s.dev.ctx 255).highSeq = some h → h < p.seq) ∧ (∀ e ∈ (s.dev.ctx 255).seen, e.1 ≠ p.seq) ∧ p.bytes.length ≤ 262144 ∧
      (s.dev.map (ownCtx 255)).head? = some (some 64511) ∧
      (ctx 255 { seen := [(7, 1000000000, 1)] } s).dev.packetMatches 255 p = true ∧
      Dev.overMtu p.dest (rtpOctets (s.dev.ctxKind 255) (s.dev.netSig 255 false).depth p) = false ∧
      Dev.overMtu p.dest (rtpOctets (s.dev.ctxKind 255) (s.dev.netSig 255 false).depth { p with bytes := List.replicate 9000 0 }) = true ∧
      ((ctx 255 { seen := [(7, 1000000000, 1)] } s).dev.ctx 255).seen.find? (fun e => e.1 = p.seq) = some (p.seq, 1000000000, 1) := by
  decide +kernel
theorem witness_heartbeat :
    let s := act F.INGEST_FRESH_CTL_HB_EN 1 255 0 0 (ingest 1 255 2)
    let p : Pic := { width := 32, height := 4 }
    let r := ctx 255 { pubs := [p], hbDue := true } (fenced .engine 0 0 [] (on .engine 0 0 s))
    s.dev.actFlag F.INGEST_FRESH_CTL_HB_EN 255 = true ∧ s.dev.enabled .engine (s.dev.act F.INGEST_HB_ENGINE_ENGINE 255) = false ∧
      r.dev.enabled .ingest 255 = true ∧ r.dev.enabled .engine (r.dev.act F.INGEST_HB_ENGINE_ENGINE 255) = true ∧
      r.dev.latest 255 = some p ∧ (r.dev.ctx 255).hbDue = true ∧ r.dev.hbInside 255 p = true ∧
      (let q := reqEngine (r.dev.act F.INGEST_HB_ENGINE_ENGINE 255)
       r.dev.tagFree q = true ∧ (dev (fun d => { d with tags := [(q.pool, { free := 0 })] }) r).dev.tagFree q = false) := by decide +kernel
theorem witness_copy : (ctx 0 { cur := some {} } (ingest 1 0 2)).dev.enabled .ingest 0 = true ∧
    ((ctx 0 { cur := some {} } (ingest 1 0 2)).dev.ctx 0).cur = some {} ∧ (ctx 0 { cur := some {} } (ingest 1 0 2)).dev.tagFree (reqIngest 0) = true ∧
    (dev (fun d => { d with tags := [((reqIngest 0).pool, { free := 0 })] }) (ctx 0 { cur := some {} } (ingest 1 0 2))).dev.tagFree (reqIngest 0) = false := by
  decide +kernel
theorem witness_edid : up.takesAt 0 ⟨.ingest, 255, 0⟩ ∧
    (lit F.INGEST_STATE_COMMIT_PENDING 1 255 0 0 up).dev.get F.INGEST_STATE_COMMIT_PENDING 255 = 1 ∧
    ((ctx 255 { hpdPulse := true } up).dev.ctx 255).hpdPulse = true ∧
    ((ctx 255 { hpdPulse := true } up).dev.ctx 255).hpdAt + max 100 (up.dev.get F.INGEST_HPD_LOW_HPD_LOW_MS 255) * 1000000 ≤
      max up.dev.house 255000000 ∧ up.dev.edidCtx 31 (some 3) = none ∧
    (act F.INGEST_LINK_SBAND_EN 1 255 0 0 (ingest 1 255 0)).dev.edidCtx 0 none = some 255 ∧ (act F.INGEST_LINK_SBAND_EN 1 7 0 0 (ingest 3 7 0)).dev.sbandOwner 0 = some 7 ∧
    (ingest 3 7 0).dev.ctxKind 7 = 3 := by decide +kernel
/-- A host surface with a ring of two entries and a descriptor waiting. -/
def surface : State :=
  lit F.INGEST_DMA_RING_SIZE_ENTRIES 2 255 0 0 (lit F.INGEST_DMA_CTL_EN 1 255 0 0 (lit F.INGEST_DMA_TAIL_TAIL 1 255 0 0
    (act F.INGEST_NET_FMT_WIDTH 100 255 0 0 (act F.INGEST_NET_FMT_HEIGHT 40 255 0 0 (ingest 11 255 2)))))
theorem witness_dma :
    let x : Descriptor := ⟨0, 1000, false, true, false, 64, 32, 36, 8, 0⟩
    surface.takesAt 0 ⟨.ingest, 255, 0⟩ ∧ surface.dev.get F.INGEST_DMA_RING_SIZE_ENTRIES 255 ≠ 0 ∧ surface.dev.dmaPending 255 = true ∧
      surface.dev.dmaBusy < 8 ∧ surface.dev.dmaHighest 255 = true ∧ surface.dev.descCheck 255 x = 0 ∧
      surface.dev.descCheck 255 { x with w := 37 } ≠ 0 ∧ x.eof = false ∧
      ((ctx 255 { dma := some x } surface).dev.ctx 255).dma = some x ∧ (surface.dev.ctx 255).cur = none ∧
      surface.dev.tagFree (reqDma 255) = true ∧
      (dev (fun d => { d with tags := [((reqDma 255).pool, { free := 0 })] }) surface).dev.tagFree (reqDma 255) = false := by decide +kernel
theorem witness_dma_turn :
    let x : Descriptor := ⟨0, 1000, false, true, false, 64, 32, 36, 8, 0⟩
    let f : InFrame := { ended := true }
    let s := ctx 255 { cur := some f } surface
    s.dev.dmaPending 255 = true ∧ s.dev.dmaBusy < 8 ∧ s.dev.dmaHighest 255 = true ∧ (s.dev.ctx 255).cur = some f ∧ f.ended = true ∧
      f.drop = false ∧ f.copied = false ∧ s.dev.calm ∧ s.dev.tagFree (reqIngest 255) = true ∧ s.dev.descCheck 255 x = 0 := by decide +kernel

/-! The memory switch, the talon, the recorder and the engines. -/

theorem witness_pc : up.dev.pcFenced 127 = false ∧ (act F.MEMSW_PC_FENCED 0 0 0 0 up).takesAt 0 ⟨.memsw, 0, 0⟩ ∧
    (lit F.MEMSW_PC_FENCED 0x80000000 0 3 0 up).dev.pcFenced 127 = true ∧
    (dev (fun d => { d with hbmScrub := true }) up).dev.hbmScrub = true := by decide +kernel
theorem witness_scrub_due :
    let s := lit F.MEMSW_SCRUB_CTL_EN 1 0 0 0 (lit F.MEMSW_SCRUB_CTL_SCRUB_HOURS 1 0 0 0 (dev (fun d => { d with scrubAt := some 0 }) up))
    s.dev.flag F.MEMSW_SCRUB_CTL_EN = true ∧ s.dev.hbmScrub = false ∧ s.dev.scrubAt = some 0 ∧
      0 + s.dev.get F.MEMSW_SCRUB_CTL_SCRUB_HOURS * 3600000000000 ≤ max s.dev.house 3600000000000 ∧
      ¬ 0 + s.dev.get F.MEMSW_SCRUB_CTL_SCRUB_HOURS * 3600000000000 ≤ max s.dev.house 3599999999999 := by decide +kernel
theorem witness_release_stays :
    let s := dev (fun d => { d with releasing := [(7, [3, 4])], relBy := 1000000001, readers := [(0, 4)] }) (fenced .talon 0 0 [] up)
    s.dev.talonHeld = false ∧ (∀ q ∈ s.dev.maps, none ∉ q.2) ∧ max s.dev.house 0 < s.dev.relBy ∧ s.dev.slabsRead [4] = true ∧
      s.dev.slabsRead [3] = false := by decide +kernel
theorem witness_host_stage :
    let s := fenced .talon 0 0 [] up
    s.takesAt 0 ⟨.talon, 0, 0⟩ ∧ s.dev.talonHeld = false ∧ (∀ q ∈ s.dev.maps, none ∉ q.2) ∧
      (s.dev.lowestFree 3).length = 3 ∧ (dev (fun d => { d with talonFrozen := true }) s).dev.talonHeld = true ∧
      sget (fun _ => none) s.dev.engSince 63 = none := by decide +kernel
theorem witness_recorder : (lit F.RECORDER_CTL_HOLD 1 0 0 0 up).takesAt 0 ⟨.recorder, 0, 0⟩ ∧
    (lit F.RECORDER_CTL_HOLD 1 0 0 0 up).dev.flag F.RECORDER_CTL_HOLD = true ∧ up.dev.flag F.RECORDER_CTL_HOLD = false ∧
    (dev (fun d => { d with recHeads := [(63, { begun := true })] }) up).dev.recHead 63 = { begun := true } ∧
    (up.dev.headSt 63).viewed = false := by
  decide +kernel
theorem witness_coef : up.takesAt 0 ⟨.engine, 63, 0⟩ := by decide +kernel
/-- Layer 1023 served by engines 62 and 63. -/
def engined : State :=
  act F.LAYER_ENG_CTL_ENG_EN 1 1023 0 0 (act F.LAYER_ENG_CTL_ENGINE 62 1023 0 0 (act F.LAYER_ENG_CTL_ENG_COUNT 1 1023 0 0
    (fenced .engine 62 0 [] (fenced .engine 63 0 [] (on .engine 62 0 (on .engine 63 0 (on .memsw 0 0 up)))))))
theorem witness_engines : engined.dev.layerEngines 1023 = [62, 63] ∧ engined.dev.enabled .engine 62 = true ∧
    engined.dev.enabled .engine 63 = true ∧ engined.dev.act F.LAYER_COMP_CTL_FIT 1023 ≠ 1 := by decide +kernel
theorem witness_job_start :
    let s := dev (fun d => d.updLayer 1023 (fun l => { l with waiting := some ({}, none) })) engined
    (s.dev.layer 1023).waiting = some ({}, none) ∧ (s.dev.layer 1023).job = none ∧ (s.dev.layer 1023).lastJob = none ∧
      s.dev.layerEngines 1023 = [62, 63] := by decide +kernel
theorem witness_job_end :
    let j : Job := { src := { width := 1, height := 1, slabs := [some 0] }, src2 := none, start := 1000000000 }
    let s := dev (fun d => (d.updLayer 1023 (fun l => { l with job := some j })).setMap (ownLayer 1023) [some 1, some 2, some 3]) engined
    (s.dev.layer 1023).job = some j ∧
      (((s.dev.atTime 0).prepBuffer 1023
        (let img := (s.dev.atTime 0).chain 1023 j.src j.src2; Dev.prepSlabs (s.dev.engAct 1023) img.w img.h)).isSome = true) ∧
      (max s.dev.house 0 - j.start) * (s.dev.engAct 1023).num < 2 * (s.dev.engAct 1023).den * 1000000000 ∧
      2 * (s.dev.engAct 1023).den * 1000000000 ≤ (max s.dev.house 3000000000 - j.start) * (s.dev.engAct 1023).num ∧
      s.dev.tagFree (s.dev.layerReq 1023) = true ∧
      (dev (fun d => { d with tags := [((d.layerReq 1023).pool, { free := 0 })] }) s).dev.tagFree (s.dev.layerReq 1023) = false := by
  decide +kernel

/-! Heads and ports. -/

/-- A head's hidden state. -/
def head (h : Nat) (x : HeadSt) (s : State) : State := dev (fun d => d.setHeadSt h x) s

theorem witness_latch :
    let p : Plane := { slot := 15, layer := 1023, pic := none }
    let s := head 63 { running := true, planes := [p] } up
    runsOn s 63 ∧ noneKept s 63 ∧ p.slot < 16 ∧ p.held = false ∧ p.chase = false := by
  refine ⟨by decide +kernel, ?_, by decide +kernel⟩
  intro q hq
  simp [head, dev, up, Dev.setHeadSt] at hq
theorem witness_hand_sample :
    let s := head 63 { running := true, viewed := true, due := 2000000000 } (dev (fun d => { d with
      hand := { pending := true, dealt := true, done := some 1, heads := [63], apply := 7 } }) up)
    let point := (s.dev.headSt 63).due - (s.dev.timing 63).lines (s.dev.get F.DEAL_CFG_HAND_GUARD) (s.dev.headDelta 63)
    s.dev.hand.pending = true ∧ s.dev.hand.dealt = true ∧ s.dev.hand.done = some 1 ∧ s.dev.hand.missed = false ∧
      63 ∈ s.dev.hand.heads ∧ (s.dev.headSt 63).running = true ∧ (s.dev.headSt 63).virt = false ∧
      point ≤ max s.dev.house 2000000000 ∧ 1 ≤ point ∧ s.dev.hand.apply ≤ (s.dev.headSt 63).due ∧
      max s.dev.house 0 < point ∧ (s.dev.headSt 63).viewed = true ∧ up.dev.hand.pending = false ∧
      (up.dev.headSt 63).viewed = false := by decide +kernel
theorem witness_fetch :
    let q : Pic := { width := 65, height := 33, slabs := [some 0] }
    let p : Plane := { slot := 15, pic := some q, w := 65, h := 33, tiles := [(0, {}), (1, {}), (1024, {}), (1025, {})] }
    let s := head 63 { viewed := true, composed := true, planes := [p] } up
    (s.dev.headSt 63).viewed = true ∧ (s.dev.headSt 63).composed = true ∧ s.dev.fenced .head 63 = false ∧
      (s.dev.headSt 63).planes = [p] ∧ p.slot = 15 ∧ p.held = false ∧ p.leftOut = false ∧ p.chase = false ∧ p.slip = none ∧
      p.group = none ∧ (p.tiles.map (·.1)).Nodup ∧ (p.areas.any (fun a => a.1 / 1024 = 1)) = true ∧
      (∀ f ∈ p.tiles, f.1 / 1024 = 1 → f.2.read = false) ∧ (∀ pc : Fin 128, s.dev.pcFenced pc = false) ∧
      s.dev.layers = [] ∧ s.dev.scrubBad = [] ∧ s.dev.tagFree (reqHead 63) = true ∧
      (dev (fun d => { d with tags := [((reqHead 63).pool, { free := 0 })] }) s).dev.tagFree (reqHead 63) = false := by decide +kernel
theorem witness_line0 :
    let s := head 0 { viewed := true } (act F.HEAD_REF_CTL_REF_MODE 1 0 0 0 up)
    (s.dev.headSt 0).viewed = true ∧ (s.dev.headSt 0).shown = false ∧ s.dev.act F.HEAD_REF_CTL_REF_MODE 0 ≠ 0 ∧
      s.dev.fenced .head 0 = false ∧ s.dev.refValid 0 = false ∧ (act F.HEAD_REF_CTL_REF_MODE 0 0 0 0 up).dev.act F.HEAD_REF_CTL_REF_MODE 0 = 0 ∧
      (lit F.TIME_STS_LOCKED 1 0 0 0 (lit F.TIME_STS_HOLDOFF 0 0 0 0 s)).dev.refValid 0 = true ∧
      s.dev.actFlag F.HEAD_REF_CTL_POLICY 0 = false := by decide +kernel
theorem witness_underrun :
    let s := head 63 { viewed := true, shown := true, under := [(4, 0)] }
      (act F.HEAD_V_TIMING_VACTIVE 1080 63 0 0 (act F.HEAD_H_TIMING_HACTIVE 1920 63 0 0 up))
    (s.dev.headSt 63).shown = true ∧ s.dev.fenced .head 63 = false ∧ 1079 < s.dev.act F.HEAD_V_TIMING_VACTIVE 63 ∧
      1919 < s.dev.act F.HEAD_H_TIMING_HACTIVE 63 ∧ (∀ u ∈ (s.dev.headSt 63).under, u.1 ≠ 1079) := by decide +kernel
theorem witness_safe :
    let s := lit F.WITNESS_WIT_STATE_SAFE 1 63 0 0 up
    s.takesAt 0 ⟨.witness, 63, 0⟩ ∧ s.dev.witSafe 63 = true ∧ (s.dev.headSt 63).safeOk = false ∧
      ((head 63 { safeOk := true } s).dev.headSt 63).safeOk = true ∧ up.dev.witSafe 63 = false := by decide +kernel
theorem witness_training_port :
    let s := act F.OPORT_CFG_PROTOCOL 2 95 0 0 (on .oport 95 0 up)
    s.dev.portTrains 95 = true ∧ s.dev.enabled .oport 95 = true ∧ s.dev.actFlag F.OPORT_CFG_SBAND_EN 95 = false := by decide +kernel
theorem witness_sideband :
    up.takesAt 0 ⟨.oport, 95, 0⟩ ∧ up.dev.flag F.OPORT_SB_STS_BUSY 95 = false ∧
      (lit F.OPORT_SB_STS_BUSY 1 95 0 0 up).dev.flag F.OPORT_SB_STS_BUSY 95 = true ∧
      (lit F.OPORT_PORT_STS_TRAINING 1 95 0 0 up).dev.flag F.OPORT_PORT_STS_TRAINING 95 = true := by decide +kernel

/-! Tatre tile streams and interfaces. -/

/-- The header and the head of a tile-class message from seat 2 of table 1, with its SEQ and FRAME. -/
def tileMsg (ty len seq frame : Nat) (body : List Byte) : List Byte :=
  leBytes 2 0x5451 ++ [1, BitVec.ofNat 8 ty, 1, 2] ++ leBytes 2 len ++ leBytes 8 0 ++ leBytes 4 0 ++ leBytes 4 seq ++ leBytes 4 frame ++ body
/-- Interface 15 is up and receives tiles; context 255 of kind 10 takes the streams of seat 2 of table 1. -/
def tiles : State :=
  lit F.NPORT_PORT_STS_LINK_UP 8 3 0 0 (on .nport 3 0 (act F.NPORT_SP_CFG_EN 1 3 3 0 (act F.NPORT_SP_CFG_TATRE_RX 1 3 3 0
    (act F.INGEST_TATRE_SRC_TABLE 1 255 0 0 (act F.INGEST_TATRE_SRC_SEAT 2 255 0 0 (act F.INGEST_LINK_NETIF 15 255 0 0
      (ingest 10 255 2)))))))
/-- A frame that is being assembled as number 9. -/
def assembly : InFrame := { sent := 9 }
def rxOf (m : List Byte) : TileRx := ⟨none, 15, 0, 0, m, []⟩
/-- STAMPS of one tile with CRC 0, END of a frame of one tile, STREAM_ALIVE with and without its source lost. -/
def stampsMsg : List Byte := tileMsg 2 48 3 9 (leBytes 4 1 ++ leBytes 2 0 ++ leBytes 2 0 ++ leBytes 4 5 ++ leBytes 8 77)
def endMsg : List Byte := tileMsg 3 40 4 9 (leBytes 8 0 ++ leBytes 2 64 ++ leBytes 2 32)
def aliveMsg (lost : Nat) : List Byte := tileMsg 4 32 5 9 (leBytes 4 lost)
/-- A TILE of the smallest sectors, all zero, of 8-bit samples. -/
def tileBytes : List Byte :=
  let data := List.replicate 512 0
  tileMsg 1 564 6 9 (leBytes 4 0 ++ leBytes 8 77 ++ leBytes 4 (crc32c (plainBytes (TileFmt.ofByte 2) (storedSamples (TileFmt.ofByte 2) data)))
    ++ [0, 2] ++ leBytes 6 0 ++ data)

theorem witness_stream : tileArrives tiles tyStamps (rxOf stampsMsg) ∧ tileArrives tiles tyEnd (rxOf endMsg) ∧
    tileArrives tiles tyAlive (rxOf (aliveMsg 0)) ∧ mget (aliveMsg 1) 28 1 % 2 = 1 := by unfold tileArrives; decide +kernel
theorem witness_only : onlyFor tiles (rxOf endMsg) 255 false := by unfold onlyFor; decide +kernel
theorem witness_nobody : ∀ m : Fin 256, up.dev.tatrePath m (rxOf endMsg) = none := by decide +kernel
theorem witness_long : Dev.overMtu (rxOf (List.replicate 9000 0)).dest (rxOf (List.replicate 9000 0)).msg.length = true ∧
    tiles.dev.netUp 15 = true ∧ ∀ k ∈ tiles.dev.netLanes 15, tiles.dev.loopNear (96 + k) = false := by decide +kernel
theorem witness_fits :
    let s := ctx 255 { cur := some assembly } tiles
    (s.dev.ctx 255).cur = some assembly ∧ assembly.drop = false ∧ assembly.ended = false ∧ mget endMsg 24 4 = assembly.sent ∧
      s.dev.ctxState 255 = 2 ∧ (s.dev.ctx 255).seen = [] ∧ (s.dev.ctx 255).highSeq = none ∧ (s.dev.ctx 255).closedRtp = none := by
  decide +kernel
theorem witness_stamps :
    let q : Pic := { width := 1, height := 1, slabs := [some 0] }
    let s := dev (fun d => d.setTile (slotKey 0 0) { valid := true, crc := 5 }) (ctx 255 { cur := some assembly, pubs := [q] } tiles)
    mget stampsMsg 28 2 = 1 ∧ s.dev.latest 255 = some q ∧ 0 < q.cols ∧ 0 < q.rows ∧
      (s.dev.picTile q 0 0).valid = true ∧ (s.dev.picTile q 0 0).crc = mget stampsMsg 36 4 ∧
      (tiles.dev.latest 255 = none) ∧ s.dev.scrubBad = [] ∧ (∀ pc : Fin 128, s.dev.pcFenced pc = false) := by decide +kernel
theorem witness_tile : tileArrives tiles tyTile (rxOf tileBytes) ∧ mget tileBytes 46 1 % 2 = 0 ∧
    tileBytes.length = 52 + (mget tileBytes 44 1 % 32 + 1) * 512 := by unfold tileArrives; decide +kernel
theorem crc_lt (bs : List Byte) : crc32c bs < 2 ^ 32 := by
  have hb : ∀ c < 2 ^ 32, crcBit c < 2 ^ 32 := by
    intro c hc
    unfold crcBit
    split
    · exact Nat.xor_lt_two_pow (by omega) (by norm_num)
    · omega
  have hB : ∀ c < 2 ^ 32, ∀ b : Byte, crcByte c b < 2 ^ 32 := by
    intro c hc b
    unfold crcByte
    exact hb _ (hb _ (hb _ (hb _ (hb _ (hb _ (hb _ (hb _ (Nat.xor_lt_two_pow hc (by omega)))))))))
  have hf : ∀ (l : List Byte) (c : Nat), c < 2 ^ 32 → l.foldl crcByte c < 2 ^ 32 := by
    intro l
    induction l with
    | nil => intro c h; exact h
    | cons b l ih => intro c h; exact ih _ (hB c h b)
  exact Nat.xor_lt_two_pow (hf bs _ (by norm_num)) (by norm_num)
theorem witness_tile_crc :
    crc32c (plainBytes (TileFmt.ofByte (mget tileBytes 45 1)) (storedSamples (TileFmt.ofByte (mget tileBytes 45 1)) (tileBytes.drop 52))) =
      mget tileBytes 40 4 := by
  have h : mget tileBytes 40 4 = leVal (leBytes 4 (crc32c (plainBytes (TileFmt.ofByte 2)
      (storedSamples (TileFmt.ofByte 2) (List.replicate 512 0))))) := rfl
  rw [h, leVal_leBytes, Nat.mod_eq_of_lt (lt_of_lt_of_eq (crc_lt _) (by norm_num))]
  rfl
theorem witness_sender :
    let s := dev (fun d => { d with tsends := [(255, { waiting := some { width := 1, height := 1, slabs := [some 0] } })] })
      (on .sendT 19 0 (act F.SENDT_CFG_EN 1 19 15 0 (on .memsw 0 0 up)))
    let q := reqSend (s.dev.act F.SENDT_CFG_NETIF_P1 (Dev.tsPage 255) (255 % 16) / 4 % 4) 255
    (s.dev.tsend 255).waiting.isSome = true ∧ s.dev.tatreRuns 255 = true ∧ (up.dev.tsend 255).waiting = none ∧
      s.dev.tagFree q = true ∧ (dev (fun d => { d with tags := [(q.pool, { free := 0 })] }) s).dev.tagFree q = false := by decide +kernel
theorem witness_interface : tiles.dev.linkBit 15 = true ∧ up.dev.linkBit 15 = false ∧ tiles.dev.hand.pending = false ∧
    up.dev.netCan 0 = false := by decide +kernel
theorem witness_interface_up :
    let s := llit F.MLANE_LANE_STS_RX_LSTATE 0 111 (llit F.MLANE_LANE_STS_LOS 0 111 (llit F.MLANE_LANE_STS_LOL 0 111
      (act F.NLANE_RX_CFG_RX_EN 1 15 0 0 (act F.NLANE_RATE_CODE 4 15 0 0 (lane 111 {} (on .nlane 15 0
        (act F.NPORT_PORT_CFG_MODE 3 3 0 0 (lit F.NPORT_PORT_STS_LINK_UP 0 3 0 0 tiles))))))))
    let r := dev (fun d => { d with netBack := [(15, 1000000001)] }) s
    s.dev.netLanes 15 = [15] ∧ s.dev.netCan 15 = true ∧ s.dev.linkBit 15 = false ∧ sget (fun _ => 0) s.dev.netBack 15 = 0 ∧
      sget (fun _ => 0) r.dev.netBack 15 - 1 + 100000000 ≤ max r.dev.house 1100000000 ∧
      ¬ sget (fun _ => 0) r.dev.netBack 15 - 1 + 100000000 ≤ max r.dev.house 1099999999 := by decide +kernel
theorem witness_apply_timeout :
    let s := dev (fun d => { d with hand := { pending := true, dealt := true, done := some 1, ctxs := [255], apply := 7 } }) tiles
    s.dev.handReady = true ∧ 255 ∈ s.dev.hand.ctxs ∧ s.dev.ctxKind 255 = 10 ∧ s.dev.hand.apply + 100000000 ≤ 100000007 := by
  decide +kernel

/-! House time, references and PTP. -/

/-- The hidden state of house time. -/
def tm (x : TimeSt) (s : State) : State := dev (fun d => { d with tm := x }) s

theorem witness_holdoff :
    let s := tm { holdStart := some 0, refHold := some 0, offset := -5 } up
    s.dev.tm.holdStart = some 0 ∧ s.dev.tm.refHold = some 0 ∧
      0 + s.dev.act F.TIME_HOLDOFF_HOLDOFF_MS * 1000000 ≤ max s.dev.house (s.dev.act F.TIME_HOLDOFF_HOLDOFF_MS * 1000000) ∧
      (tm { holdStart := some 1000000000 } (act F.TIME_HOLDOFF_HOLDOFF_MS 1 0 0 0 up)).dev.tm.holdStart = some 1000000000 ∧
      max up.dev.house 0 < 1000000000 + (act F.TIME_HOLDOFF_HOLDOFF_MS 1 0 0 0 up).dev.act F.TIME_HOLDOFF_HOLDOFF_MS * 1000000 := by
  decide +kernel
theorem witness_ref_in :
    let s := tm { refLast := some 1000000000, refGood := 15 } (act F.TIME_REF_IN_CTL_EN 1 0 0 0
      (act F.TIME_REF_IN_CTL_TYPE 2 0 0 0 (act F.TIME_REF_RATE_NUM 50 0 0 0 (act F.TIME_REF_RATE_DEN 1 0 0 0 up))))
    s.dev.actFlag F.TIME_REF_IN_CTL_EN = true ∧ s.dev.tm.refLast = some 1000000000 ∧ s.dev.act F.TIME_REF_IN_CTL_TYPE = 2 ∧
      s.dev.refPeriodOk (1020002000 - 1000000000) = true ∧ s.dev.refPeriodOk (1020002001 - 1000000000) = false ∧
      15 ≤ s.dev.tm.refGood ∧ s.dev.flag F.TIME_REF_STS_MISMATCH = false ∧ up.dev.actFlag F.TIME_REF_IN_CTL_EN = false ∧
      (lit F.TIME_REF_STS_LOS 0 0 0 0 s).dev.flag F.TIME_REF_STS_LOS = false := by decide +kernel
theorem witness_pps :
    let s := tm { ppsLast := some 0 } up
    s.dev.tm.ppsLast = some 0 ∧ 0 + 1000000000 ≤ 999999000 + 1000 ∧ 999999000 ≤ 0 + 1000001000 ∧ s.dev.houseRef ≠ 2 ∧
      (act F.TIME_SRC_HOUSE_REF 2 0 0 0 (tm { setPending := some 7 } up)).dev.houseRef = 2 ∧
      (act F.TIME_SRC_HOUSE_REF 2 0 0 0 (tm { setPending := some 7 } up)).dev.tm.setPending = some 7 ∧
      (lit F.TIME_STS_HOLDOVER 0 0 0 0 up).dev.flag F.TIME_STS_HOLDOVER = false ∧
      (lit F.TIME_REF_STS_PPS_PRESENT 1 0 0 0 up).dev.flag F.TIME_REF_STS_PPS_PRESENT = true ∧
      (lit F.TIME_REF_STS_CLK10M_PRESENT 1 0 0 0 up).dev.flag F.TIME_REF_STS_CLK10M_PRESENT = true := by decide +kernel
/-- PTP on interface 15 in domain 127. -/
def ptp : State :=
  act F.TIME_SRC_HOUSE_REF 1 0 0 0 (act F.TIME_PTP_CFG_PTP_NETIF 15 0 0 0 (act F.TIME_PTP_CFG_DOMAIN 127 0 0 0
    (lit F.NPORT_PORT_STS_LINK_UP 8 3 0 0 (on .nport 3 0 (act F.NPORT_SP_CFG_EN 1 3 3 0 up)))))
theorem witness_ptp : ptp.dev.netUp 15 = true ∧ ptp.dev.ptpOn = true ∧ ptp.dev.ptpIface = 15 ∧
    (127 : Byte).toNat = ptp.dev.act F.TIME_PTP_CFG_DOMAIN ∧ up.dev.netUp 15 = false ∧ (126 : Byte).toNat ≠ ptp.dev.act F.TIME_PTP_CFG_DOMAIN ∧
    (dev (fun d => d.put64 F.TIME_PTP_GM_LO 5) ptp).dev.get64 F.TIME_PTP_GM_LO ≠ 0 := by decide +kernel
/-- A master with an identity that is not this clock's. -/
def master : PtpClock :=
  { priority1 := 0, clockClass := 6, accuracy := 0x21, variance := 0, priority2 := 0, gm := Config.ptpIdentity + 1, steps := 0 }
theorem witness_announce :
    let s := tm { masters := [{ netif := 15, sender := 9, clock := master, latest := 1000000000 }] } (act F.TIME_PTP_CFG_SLAVE_ONLY 1 0 0 0 ptp)
    master.steps < 255 ∧ master.gm ≠ Config.ptpIdentity ∧
      (s.dev.tm.masters.find? (fun f => f.netif = 15 && f.sender = 9)).map (·.latest) = some 1000000000 ∧
      max s.dev.house 0 ≤ 1000000000 + 4 * s.dev.annInterval ∧ (∀ f ∈ s.dev.tm.masters, f.netif = 15 → f.sender ≠ 9 → False) ∧
      s.dev.actFlag F.TIME_PTP_CFG_SLAVE_ONLY = true := by
  refine ⟨by decide, ?_, rfl, by decide +kernel, ?_, by decide +kernel⟩
  · simp [master]
  · intro f hf _ h
    simp only [tm, dev, List.mem_singleton] at hf
    exact h (by rw [hf])
theorem witness_ptp_silent :
    let s := tm { announced := 1000000000 } ptp
    s.dev.ptpOn = true ∧ s.dev.get F.TIME_PTP_STS_PORT_STATE ≠ 6 ∧ s.dev.tm.announced + s.dev.annTimeout ≤ max s.dev.house 1000000000000 ∧
      ¬ s.dev.tm.announced + s.dev.annTimeout ≤ max s.dev.house 0 := by decide +kernel
theorem witness_ptp_home :
    let s := tm { home := some (1, 10000000000) } (lit F.TIME_PTP_STS_ON_BACKUP 1 0 0 0 (act F.TIME_PTP_CFG_PTP_NETIF 15 0 0 0 ptp))
    s.dev.flag F.TIME_PTP_STS_ON_BACKUP = true ∧ s.dev.ptpOn = true ∧ s.dev.netUp (s.dev.act F.TIME_PTP_CFG_PTP_NETIF) = true ∧
      s.dev.tm.home = some (1, 10000000000) ∧ 1 + 10000000000 ≤ max s.dev.house 10000000001 ∧
      max s.dev.house 10000000001 ≤ 10000000000 + s.dev.annTimeout ∧ max s.dev.house 10000000000 < 1 + 10000000000 ∧
      up.dev.tm.home = none := by decide +kernel
theorem witness_delay :
    let s := tm { lastSync := some (0, 5), request := some 7 } (act F.TIME_PTP_CFG_DELAY_MECH 0 0 0 0 ptp)
    s.dev.actFlag F.TIME_PTP_CFG_DELAY_MECH = false ∧ s.dev.tm.lastSync = some (0, 5) ∧ s.dev.tm.request = some 7 := by decide +kernel
theorem witness_ptp_moves :
    let s := act F.TIME_PTP_CFG_BACKUP_EN 1 0 0 0 ptp
    (s.dev.actFlag F.TIME_PTP_CFG_BACKUP_EN && !s.dev.flag F.TIME_PTP_STS_ON_BACKUP) = true ∧
      (ptp.dev.actFlag F.TIME_PTP_CFG_BACKUP_EN && !ptp.dev.flag F.TIME_PTP_STS_ON_BACKUP) = false ∧
      (lit F.TIME_PTP_STS_ON_BACKUP 1 0 0 0 ptp).dev.flag F.TIME_PTP_STS_ON_BACKUP = true ∧ (act F.TIME_SRC_HOUSE_REF 0 0 0 0 up).dev.ptpOn = false ∧
      (lit F.TIME_PTP_STS_PORT_STATE 6 0 0 0 ptp).dev.get F.TIME_PTP_STS_PORT_STATE = 6 ∧
      (act F.TIME_PTP_CFG_SLAVE_ONLY 0 0 0 0 ptp).dev.actFlag F.TIME_PTP_CFG_SLAVE_ONLY = false := by decide +kernel

/-! Hands, deals and keepalives. -/

def hand (h : HandSt) (s : State) : State := dev (fun d => { d with hand := h }) s
def deal (x : DealSt) (s : State) : State := dev (fun d => { d with deal := x }) s

theorem witness_seal : up.takesAt 0 ⟨.deal, 0, 0⟩ ∧ up.dev.handBusy = false ∧
    (lit F.DEAL_STS_REVERTING 1 0 0 0 up).dev.handBusy = true ∧ (lit F.DEAL_STS_REVERTING 1 0 0 0 up).takesAt 0 ⟨.deal, 0, 0⟩ ∧
    (hand { pending := true, taken := true } up).takesAt 0 ⟨.deal, 0, 0⟩ ∧ (hand { pending := true } up).dev.hand.scope = 0 ∧
    ((hand { pending := true } up).dev.atTime 0).takesNow = false ∧
    ((hand { pending := true, dealt := true, done := some 1, rest := true, apply := 1000000000 } up).dev.atTime 0).takesNow = true := by
  decide +kernel
theorem witness_slabs_lack :
    let s := dev (fun d => { d with leaked := List.range 64512, maps := [(7, [none])] }) (hand { pending := true, apply := 1000000001 } up)
    s.dev.freeCount < s.dev.emptyPositions ∧ ¬ up.dev.freeCount < up.dev.emptyPositions := by
  constructor
  · simp [Dev.freeCount, Dev.emptyPositions, Dev.heldSlabs, dev, hand, up, slabCount]
  · decide +kernel
theorem witness_seal_complete :
    let s := hand { pending := true, apply := 1000000001, fails := [(1, 1)] } up
    s.dev.hand.done = none ∧ s.dev.hand.missed = false ∧ s.dev.hand.scope = 0 ∧ s.dev.flag F.LEDGER_AUDIT_STS_REBUILDING = false ∧
      s.dev.talonFrozen = false ∧ (∀ c ∈ s.dev.slabChanges s.dev.sealedView, c.2.2 ≤ c.2.1) ∧ s.dev.hand.fails ≠ [] ∧
      (hand { pending := true, apply := 1000000001 } up).dev.hand.fails = [] ∧ max s.dev.house 0 < s.dev.hand.apply ∧
      (lit F.HEAD_DSC_CTL_DSC_EN 1 15 0 0 up).dev.dscChanged 15 = true ∧ up.dev.dscChanged 15 = false := by decide +kernel
theorem witness_apply :
    let s := hand { pending := true, dealt := true, done := some 0, rest := true, apply := 1000000000 } up
    s.dev.handReady = true ∧ s.dev.hand.apply ≤ max s.dev.house 0 ∧ s.dev.hand.heads = [] ∧ s.dev.hand.ctxs = [] ∧
      s.dev.hand.rest = true ∧ s.dev.get F.DEAL_HELD_HEADS_LO = 0 ∧ s.dev.get F.DEAL_HELD_HEADS_HI = 0 ∧
      up.dev.handReady = false := by decide +kernel

/-- A control message from seat 2 of a table, sent at 1 s, without its tag. -/
def ctlMsg (ty len table key : Nat) (body : List Byte) : List Byte :=
  leBytes 2 0x5451 ++ [1, BitVec.ofNat 8 ty, BitVec.ofNat 8 table, 2] ++ leBytes 2 len ++ leBytes 8 1000000000 ++ leBytes 4 key ++ body
/-- The message with the tag its key gives. -/
def tagged (key m : List Byte) : List Byte := m ++ kmac256 key m 16 "Tatre control"
/-- Interface 15 takes control messages; key 5 of each class is loaded. -/
def table : State :=
  act F.NPORT_SP_CFG_CTRL_EN 1 3 3 0 (dev (fun d => { d with keys := { table := [(5, [1, 2, 3])], house := [(5, [4, 5])] } }) ptp)

theorem tag_holds (d : Dev) (key m : List Byte) (hk : d.keyFor (mget (tagged key m) 16 1) = some key)
    (hc : (decide (mget (tagged key m) 16 1 ≥ 128)) = Dev.houseClass (tagged key m))
    (hl : (kmac256 key m 16 "Tatre control").length = 16) : d.tagOk (tagged key m) = true := by
  unfold Dev.tagOk
  rw [hk]
  have hd : (tagged key m).length - 16 = m.length := by simp [tagged, hl]
  have h1 : (tagged key m).drop m.length = kmac256 key m 16 "Tatre control" := by simp [tagged]
  have h2 : (tagged key m).take m.length = m := by simp [tagged]
  simp only [hd, h1, h2, ← hc, decide_true, Bool.and_true, decide_eq_true_eq]
/-- A tagged message from another seat, whole, heard and fresh, that no later one preceded, is accepted. -/
theorem accepts (d : Dev) (i ty : Nat) (key m : List Byte)
    (h0 : (d.netUp i && ((d.netLanes i).isEmpty || !(d.netLanes i).all (fun k => d.loopNear (96 + k)))) = true)
    (hf : (d.netLanes i).filter (fun k => d.loopFar (96 + k) && d.rxData (96 + k) && !(d.lane (96 + k)).txIdle) = [])
    (h1 : d.act F.NPORT_SP_CFG_CTRL_EN (i / 4) (i % 4) = 1)
    (hm : Dev.overMtu (leVal (((d.count F.NPORT_RX_FRAMES (i / 4) (i % 4)).grpAddr
      (if Dev.houseClass (tagged key m) then F.NPORT_HOUSE_GRP else F.NPORT_TABLE_GRP) (i / 4)).flatMap (fun w => leBytes 4 w.toNat)))
      (tagged key m).length = false)
    (h2 : (Dev.headerOk (tagged key m) (Dev.ctrlLen ty) && mget (tagged key m) 3 1 = ty) = true)
    (h3 : Dev.srcCode (tagged key m) ≠ addrCode (d.count F.NPORT_RX_FRAMES (i / 4) (i % 4)).myTable
      (d.count F.NPORT_RX_FRAMES (i / 4) (i % 4)).mySeat)
    (h4 : (d.count F.NPORT_RX_FRAMES (i / 4) (i % 4)).tagOk (tagged key m) = true)
    (h5 : max (mget (tagged key m) 8 8) (d.count F.NPORT_RX_FRAMES (i / 4) (i % 4)).house -
      min (mget (tagged key m) 8 8) (d.count F.NPORT_RX_FRAMES (i / 4) (i % 4)).house ≤ 5000000)
    (h6 : sget (fun _ => 0) (d.count F.NPORT_RX_FRAMES (i / 4) (i % 4)).deal.last (ty * 2 ^ 20 + Dev.srcCode (tagged key m)) ≤
      mget (tagged key m) 8 8) : (d.acceptControl i ty (tagged key m)).1 = true := by
  rw [Bool.and_eq_true] at h0
  obtain ⟨hu, hc⟩ := h0
  have hh : ∀ f, d.netHears i f = true := by
    intro f
    unfold Dev.netHears
    rw [hc, Bool.true_or]
  have hl : ∀ p, d.netLoops i p = d := by
    intro p
    unfold Dev.netLoops
    rw [hf]
    rfl
  unfold Dev.acceptControl
  simp only [hu, hh, hl, h1, hm, h2, h3, h4, h5, Nat.not_lt.mpr h6, if_false, Bool.false_eq_true, Bool.not_true, Bool.or_self,
    decide_true, ne_eq, not_true_eq_false]

def msgBid : List Byte := tagged [1, 2, 3] (ctlMsg 0x12 100 0 5 (leBytes 4 1 ++ leBytes 4 7 ++ leBytes 8 2000000000 ++ leBytes 8 5 ++ leBytes 8 4 ++ leBytes 32 0))
theorem witness_bid : accepted table 0 15 tyBid msgBid :=
  ⟨by decide +kernel, accepts _ _ _ _ _ (by decide +kernel) (by decide +kernel) (by decide +kernel)
    (by decide +kernel) (by decide +kernel) (by decide +kernel)
    (tag_holds _ _ _ (by decide +kernel) (by decide +kernel) (by decide +kernel)) (by decide +kernel) (by decide +kernel)⟩
def msgRetract : List Byte := tagged [1, 2, 3] (ctlMsg 0x13 52 0 5 (leBytes 4 1 ++ leBytes 4 7 ++ leBytes 8 2000000000))
theorem witness_retract : accepted table 0 15 tyRetract msgRetract :=
  ⟨by decide +kernel, accepts _ _ _ _ _ (by decide +kernel) (by decide +kernel) (by decide +kernel)
    (by decide +kernel) (by decide +kernel) (by decide +kernel)
    (tag_holds _ _ _ (by decide +kernel) (by decide +kernel) (by decide +kernel)) (by decide +kernel) (by decide +kernel)⟩
def msgVote : List Byte := tagged [4, 5] (ctlMsg tyVote 92 1 133 (leBytes 4 1 ++ leBytes 4 7 ++ leBytes 8 2000000000 ++ leBytes 8 5 ++ leBytes 32 3))
theorem witness_vote : accepted table 0 15 tyVote msgVote :=
  ⟨by decide +kernel, accepts _ _ _ _ _ (by decide +kernel) (by decide +kernel) (by decide +kernel)
    (by decide +kernel) (by decide +kernel) (by decide +kernel)
    (tag_holds _ _ _ (by decide +kernel) (by decide +kernel) (by decide +kernel)) (by decide +kernel) (by decide +kernel)⟩
def msgDeal : List Byte := tagged [1, 2, 3] (ctlMsg tyDecision 56 0 5 (leBytes 4 0x100 ++ leBytes 4 7 ++ leBytes 8 2000000000 ++ leBytes 4 0))
theorem witness_deal : accepted table 0 15 tyDecision msgDeal :=
  ⟨by decide +kernel, accepts _ _ _ _ _ (by decide +kernel) (by decide +kernel) (by decide +kernel)
    (by decide +kernel) (by decide +kernel) (by decide +kernel)
    (tag_holds _ _ _ (by decide +kernel) (by decide +kernel) (by decide +kernel)) (by decide +kernel) (by decide +kernel)⟩
def msgFold : List Byte := tagged [1, 2, 3] (ctlMsg tyDecision 56 0 5 (leBytes 4 0x10200 ++ leBytes 4 7 ++ leBytes 8 2000000000 ++ leBytes 4 0))
theorem witness_fold : accepted table 0 15 tyDecision msgFold :=
  ⟨by decide +kernel, accepts _ _ _ _ _ (by decide +kernel) (by decide +kernel) (by decide +kernel)
    (by decide +kernel) (by decide +kernel) (by decide +kernel)
    (tag_holds _ _ _ (by decide +kernel) (by decide +kernel) (by decide +kernel)) (by decide +kernel) (by decide +kernel)⟩
def msgKeep : List Byte := tagged [1, 2, 3] (ctlMsg 0x10 48 0 5 (leBytes 12 7))
theorem witness_keep : accepted table 0 15 tyKeep msgKeep :=
  ⟨by decide +kernel, accepts _ _ _ _ _ (by decide +kernel) (by decide +kernel) (by decide +kernel)
    (by decide +kernel) (by decide +kernel) (by decide +kernel)
    (tag_holds _ _ _ (by decide +kernel) (by decide +kernel) (by decide +kernel)) (by decide +kernel) (by decide +kernel)⟩
def msgDealerKeep : List Byte := tagged [4, 5] (ctlMsg 0x11 40 1 133 (leBytes 4 1))
theorem witness_dealerKeep : accepted table 0 15 tyDealerKeep msgDealerKeep :=
  ⟨by decide +kernel, accepts _ _ _ _ _ (by decide +kernel) (by decide +kernel) (by decide +kernel)
    (by decide +kernel) (by decide +kernel) (by decide +kernel)
    (tag_holds _ _ _ (by decide +kernel) (by decide +kernel) (by decide +kernel)) (by decide +kernel) (by decide +kernel)⟩

theorem witness_heard : (table.dev.netUp 15 && table.dev.netHears 15 (fun o => match o with
    | .udp q _ _ b => q = 15 && b = msgKeep
    | _ => false)) = true ∧ (up.dev.netUp 15 && up.dev.netHears 15 (fun _ => false)) = false ∧
    Dev.overMtu 0 (List.replicate 9000 (0 : Byte)).length = true := by decide +kernel
theorem witness_checked : table.dev.netUp 15 = true ∧ table.dev.act F.NPORT_SP_CFG_CTRL_EN 3 3 = 1 ∧ up.dev.netUp 15 = false ∧
    (Dev.headerOk msgKeep (Dev.ctrlLen tyKeep) = true ∧ mget msgKeep 3 1 = tyKeep) ∧
    ¬ (Dev.headerOk msgKeep (Dev.ctrlLen tyBid) = true) ∧
    Dev.srcCode msgKeep ≠ addrCode table.dev.myTable table.dev.mySeat ∧ ptp.dev.tagOk msgKeep = false ∧
    5000000 < max (mget msgKeep 8 8) (max table.dev.house 1005000001) - min (mget msgKeep 8 8) (max table.dev.house 1005000001) := by
  decide +kernel
theorem witness_dealer :
    let s := lit F.DEAL_DEALER_STS_IS_DEALER 1 0 0 0 table
    let q : DealRec := { scope := 1, epoch := 7, apply := 2000000000, decide := 5, seats := 4, bids := [2], count := 1 }
    let new : DealRec := { scope := mget msgBid 20 1, epoch := mget msgBid 24 4, apply := mget msgBid 28 8, decide := mget msgBid 36 8, seats := mget msgBid 44 8, tables := mget msgBid 52 32 }
    s.dev.flag F.DEAL_DEALER_STS_IS_DEALER = true ∧ s.dev.deal.dealerSince ≤ mget msgBid 8 8 ∧
      s.dev.deal.opened.find? (Dev.sameDeal new) = none ∧
      (s.dev.deal.opened.filter (fun q => !q.house)).length < 8 ∧ (∀ x ∈ Dev.maskList (mget msgBid 44 8) 64, s.dev.outOfHand x = false) ∧
      (deal { opened := [q] } s).dev.deal.opened.find? (Dev.sameDeal new) = some q ∧ q.bids.contains (mget msgBid 5 1 % 64) = true ∧
      table.dev.flag F.DEAL_DEALER_STS_IS_DEALER = false ∧
      q.house = false ∧ q.scope = 1 ∧ Dev.inMask q.seats (mget msgRetract 5 1 % 64) = true ∧
      Dev.inMask { q with seats := 1 }.seats (mget msgRetract 5 1 % 64) = false ∧ mget msgRetract 20 1 = 1 ∧ q.epoch = mget msgRetract 24 4 ∧ q.apply = mget msgRetract 28 8 := by
  decide +kernel
theorem witness_house :
    let s := lit F.DEAL_DEALER_STS_IS_HOUSE_DEALER 1 0 0 0 table
    s.dev.flag F.DEAL_DEALER_STS_IS_HOUSE_DEALER = true ∧ s.dev.deal.houseSince ≤ mget msgVote 8 8 ∧ s.dev.deal.opened = [] := by
  decide +kernel
theorem witness_decide :
    let q : DealRec := { scope := 1, epoch := 7, apply := 2000000000, decide := 5, seats := 4, bids := [2], count := 1 }
    let s := deal { opened := [q], seats := [(2, { recent := [(5, 7)] })] } table
    let wait := s.dev.act F.DEAL_DEALER_CFG_WAIT_US * 1000
    s.dev.deal.opened = [q] ∧ q.house = false ∧ q.scope = 1 ∧ q.decide + wait ≤ 5 + wait ∧
      (∀ x ∈ Dev.maskList q.seats 64, (s.dev.atTime (5 + wait)).stands q x = true) ∧
      (∃ x ∈ Dev.maskList q.seats 64, ((deal { opened := [q] } table).dev.atTime (5 + wait)).stands q x = false) ∧
      q.decide + 2 * wait ≤ 5 + 2 * wait := by decide +kernel
theorem witness_decision :
    let h : HandSt := { pending := true, scope := 1, epoch := 7, apply := 2000000000 }
    let s := hand h table
    (h.pending = true ∧ h.scope ≠ 0 ∧ h.dealt = false ∧ h.missed = false) ∧ mget msgDeal 20 1 = 0 ∧ h.scope = mget msgDeal 20 1 + 1 ∧ mget msgDeal 36 1 = s.dev.myTable ∧
      s.dev.deal.decided.find? (fun q => q.1 = mget msgDeal 20 1 * 2 ^ 32 + mget msgDeal 24 4 && q.2.1 = mget msgDeal 28 8) = none ∧ h.epoch = mget msgDeal 24 4 ∧
      h.apply = mget msgDeal 28 8 ∧ mget msgDeal 21 1 = 1 ∧ max s.dev.house 0 < h.apply ∧ mget msgFold 20 1 = 0 ∧
      mget msgFold 21 1 = 2 ∧ h.epoch = mget msgFold 24 4 ∧ h.apply = mget msgFold 28 8 ∧
      (deal { decided := [(7, 2000000000, 1)] } s).dev.deal.decided.find? (fun q => q.1 = mget msgFold 20 1 * 2 ^ 32 + mget msgFold 24 4 && q.2.1 = mget msgFold 28 8) =
        some (7, 2000000000, 1) := by decide +kernel
theorem witness_deadline :
    let h : HandSt := { pending := true, scope := 1, epoch := 7, apply := 2000000000 }
    h.apply ≤ 1999000000 + 1000000 ∧ (lit F.DEAL_CFG_LATE_LIMIT 0 0 0 0 (hand h up)).dev.get F.DEAL_CFG_LATE_LIMIT = 0 ∧
      (lit F.DEAL_CFG_LATE_LIMIT 1 0 0 0 (hand h up)).dev.get F.DEAL_CFG_LATE_LIMIT ≠ 0 ∧
      (hand { h with missed := true, tslow := 3 } up).dev.hand.missed = true ∧ h.apply + 1 * 3 ≤ 2000000003 := by decide +kernel
theorem witness_keepalive :
    let s := deal { seats := [(63, { live := true, heard := 7 })], tables := [(255, { live := true, heard := 7 })] } (ingest 10 255 0)
    mget msgKeep 4 1 = table.dev.myTable ∧ (s.dev.seat 63).live = true ∧ (s.dev.seat 63).heard + 3000000 ≤ 3000007 ∧
      (s.dev.tableSt 255).live = true ∧ (s.dev.tableSt 255).heard + 3000000 ≤ 3000007 ∧ s.dev.ctxKind 255 = 10 ∧
      sget (fun _ => 0) s.dev.deal.streams 255 + 3000000 ≤ 3000000 ∧ s.dev.hand.pending = false ∧
      (lit F.DEAL_DEALER_STS_IS_DEALER 1 0 0 0 table).dev.flag F.DEAL_DEALER_STS_IS_DEALER = true ∧ table.dev.keys.table ≠ [] := by
  decide +kernel

/-! The witness chain. -/

/-- The management firmware's hidden state. -/
def mg (x : MgmtSt) (s : State) : State := dev (fun d => { d with mg := x }) s

theorem witness_handover :
    let s := dev (fun d => (d.setMap ownWitness [some 3]).put64 F.WITCHAIN_NEXT_COUNTER_LO 2 64)
      (act F.WITCHAIN_WRING_SLABS_SLABS 1 64 0 0 (fenced .witChain 64 0 [] (on .witChain 64 0 up)))
    s.dev.witRuns = true ∧ s.dev.witStalled = false ∧ s.dev.witResume = false ∧
      s.dev.get64 F.WITCHAIN_HANDED_LO 64 + 1 < s.dev.get64 F.WITCHAIN_NEXT_COUNTER_LO 64 ∧
      s.dev.witOldest ≤ s.dev.get64 F.WITCHAIN_HANDED_LO 64 + 1 ∧
      s.dev.witAddr (s.dev.get64 F.WITCHAIN_HANDED_LO 64 + 1) = some (3 * 0x200000 + 128) ∧
      s.dev.pcFenced (pcOf (3 * 0x200000 + 128)) = false ∧ s.dev.scrubBad = [] ∧ s.dev.witLost = [] ∧ up.dev.witRuns = false := by decide +kernel
theorem witness_chain :
    let s := mg { genesis := false, chainC := [1] } (dev (fun d => { d with witChan := [(1, [], false)] }) (fenced .witChain 64 0 [] (fw up)))
    s.dev.witChan = [(1, [], false)] ∧ s.dev.fwUp = true ∧ s.dev.flag F.MGMT_WCHAIN_STS_HALTED = false ∧
      s.dev.fenced .witChain 64 = false ∧ s.dev.mg.genesis = false ∧ s.dev.mg.chainC ≠ [] ∧
      1 = s.dev.get64 F.MGMT_WCHAIN_CNT_LO + 1 ∧ up.dev.mg.genesis = true := by decide +kernel
theorem witness_sign :
    let s := mg { chainC := [1], due := [{}] } (fenced .witChain 64 0 [] (fw up))
    s.dev.fenced .witChain 64 = false ∧ (fenced .witChain 64 0 [⟨0x01, 0, false⟩] s).dev.fenced .witChain 64 = true ∧ s.dev.fwUp = true ∧ s.dev.mg.chainC ≠ [] ∧ 0 % (s.dev.signMs 0 * 1000000) = 0 ∧ 1 % (s.dev.signMs 1 * 1000000) ≠ 0 ∧ s.dev.mg.signWas = none ∧
      (mg { signWas := some (1000, 60000000000) } up).dev.mg.signWas = some (1000, 60000000000) ∧ s.dev.mg.due = [{}] ∧
      up.dev.mg.chainC = [] := by decide +kernel
theorem witness_wsig :
    let s := mg { entries := [(1, [7])], wordIdx := 895 } (lit F.MGMT_WSIG_SEL 1 0 0 0 up)
    s.takesAt 0 ⟨.mgmt, 0, 1⟩ ∧ s.dev.sigEntry = some [7] ∧ s.dev.mg.wordIdx < 896 ∧ up.dev.sigEntry = none := by decide +kernel

/-! The audio island. -/

/-- The audio island runs, with its hidden state. -/
def island (x : AudioSt) : State := dev (fun d => { d with audio := x }) (fenced .audio 0 0 [] (on .audio 0 0 (on .memsw 0 0 up)))

theorem witness_aes :
    let s := act F.AUDIO_AIN_CFG_EN 1 0 15 0 (island { ains := [(15, { pos := some 190, good := 1 })] })
    let f : AesFrame := ⟨false, ⟨0xFFFFFF, true, false, false, false⟩, ⟨0, false, false, false, true⟩⟩
    s.dev.audioRuns = true ∧ s.dev.actFlag F.AUDIO_AIN_CFG_EN 0 15 = true ∧ s.dev.directOut 15 = none ∧
      s.dev.flag F.AUDIO_AIN_STS_LOCK 0 15 = false ∧ f.z = false ∧ (s.dev.ain 15).pos = some 190 ∧ 1 ≤ (s.dev.ain 15).good ∧
      (act F.AUDIO_AIN_CFG_DIRECT 1 0 15 0 (act F.AUDIO_AIN_CFG_DIRECT_OUT 15 0 15 0 s)).dev.directOut 15 = some 15 ∧
      (lit F.AUDIO_AIN_STS_LOCK 1 0 15 0 s).dev.flag F.AUDIO_AIN_STS_LOCK 0 15 = true ∧
      (s.dev.ain 15).heard + 100000 ≤ max s.dev.house 0 ∧
      ¬ ((island { ains := [(15, { heard := 1000000000 })] }).dev.ain 15).heard + 100000 ≤ max s.dev.house 1000099999 ∧
      1000000000 ≤ max s.dev.house 1000010000 ∧ max s.dev.house 1000010000 % 1000000000 ≤ 10000 ∧
      ¬ max s.dev.house 1000010001 % 1000000000 ≤ 10000 := by decide +kernel
/-- Stream 127, a member of group 63. -/
def stream (x : RxStream) : State :=
  act F.AUDIO_RXS_CFG_EN 1 0 127 0 (act F.AUDIO_RXS_CFG_GROUP 63 0 127 0 (act F.AUDIO_GROUP_CFG_EN 1 0 63 0
    (act F.AUDIO_GROUP_CFG_TARGET 2 0 63 0 (island { rx := [(127, x)] }))))
theorem witness_instant :
    let s := act F.AUDIO_AOUT_CFG_EN 1 0 15 0 (act F.AUDIO_AOUT_CFG_RATE 0 0 15 0 (stream { stopped := false, fifo := [(0, [1, 2])] }))
    s.dev.audioRuns = true ∧ 127 ∈ s.dev.rxStreams ∧ s.dev.groupFenced (s.dev.rxGroup 127) = false ∧ s.dev.rxFactor 127 = 1 ∧
      s.dev.rxTimed 127 = false ∧ s.dev.rxLegacy 127 = false ∧ (s.dev.rx 127).stopped = false ∧
      (s.dev.rx 127).fifo = [(0, [1, 2])] ∧ ((stream { stopped := false }).dev.rx 127).fifo = [] ∧
      s.dev.directIn 15 = none ∧ s.dev.actFlag F.AUDIO_AOUT_CFG_EN 0 15 = true ∧ s.dev.act F.AUDIO_AOUT_CFG_RATE 0 15 = 0 ∧
      (s.dev.aout 15).pos < 192 ∧ instantTime (instantAt (max s.dev.house 0)) = max s.dev.house 0 ∧ s.dev.audio.instant ≠ some 1000000000 ∧
      instantTime (instantAt (max s.dev.house 1000000001)) ≠ max s.dev.house 1000000001 ∧ up.dev.audioRuns = false := by decide +kernel
theorem witness_realign :
    let s := lit F.AUDIO_DELAY_STS_TARGET 48000 0 63 0 (stream { fifo := [(0, []), (1, [])] })
    s.dev.inReset = false ∧ s.dev.audioRuns = true ∧ max s.dev.house 0 % 1000000 = 0 ∧ s.dev.audio.boundary ≠ some (max s.dev.house 0) ∧
      max s.dev.house 1000000001 % 1000000 ≠ 0 ∧ s.dev.groupFenced (s.dev.rxGroup 127) = false ∧
      s.dev.audio.realignAll = false ∧ 127 ∈ s.dev.rxStreams ∧ s.dev.rxTimed 127 = false ∧ (s.dev.rx 127).realign = true ∧
      s.dev.rxStart 127 = 2 ∧ 63 ∉ s.dev.audio.setting ∧
      s.dev.get F.AUDIO_DELAY_STS_IN_USE 0 63 < s.dev.get F.AUDIO_DELAY_STS_TARGET 0 63 ∧
      s.dev.act F.AUDIO_DELAY_HYST_HYST ≤ s.dev.get F.AUDIO_DELAY_STS_TARGET 0 63 - s.dev.get F.AUDIO_DELAY_STS_IN_USE 0 63 ∧
      s.takesAt 0 ⟨.audio, 0, 4⟩ ∧ s.takesAt 0 ⟨.audio, 0, 0⟩ ∧
      (lit F.AUDIO_GROUP_FENCED_HI 0x80000000 0 0 0 s).dev.groupFenced 63 = true := by decide +kernel
theorem witness_audio_send :
    let s := act F.AUDIO_TXS_CFG_EN 1 0 127 0 (act F.AUDIO_TXS_CFG_KIND 1 0 127 0 (act F.AUDIO_TXS_CFG_TARGET 63 0 127 0
      (act F.AUDIO_ASEND_CFG_PTIME 1 0 63 0 (act F.AUDIO_ASEND_CFG_NETIF_P1 15 0 63 0
        (lit F.NPORT_PORT_STS_LINK_UP 8 3 0 0 (on .nport 3 0 (act F.NPORT_SP_CFG_EN 1 3 3 0
          (island { waits := [(127, List.replicate 6 (0, []))] }))))))))
    s.dev.senderStream 63 = some 127 ∧ s.dev.actFlag F.AUDIO_ASEND_CFG_PTIME 0 63 = true ∧ s.dev.actFlag F.AUDIO_ASEND_CFG_DUAL_PATH 0 63 = false ∧
      6 * rateFactor (s.dev.act F.AUDIO_TXS_CFG_RATE 0 127) ≤ (sget (fun _ => ([] : List (Nat × List Nat))) s.dev.audio.waits 127).length ∧
      s.dev.netUp (s.dev.act F.AUDIO_ASEND_CFG_NETIF_P1 0 63) = true ∧ up.dev.senderStream 63 = none := by decide +kernel

/-! Keys and the debug lock. -/

/-- The words of a blob. -/
def blobOf (bs : List Byte) : List (Nat × Word) :=
  (List.range 20).map (fun k => (k, BitVec.ofNat 32 (leVal ((bs.drop (4 * k)).take 4))))
/-- A blob of 64 bytes with its kind and generation byte, and its tag under a key of zeros. -/
def blobBody (kindGen : Byte) : List Byte := List.replicate 16 7 ++ [kindGen] ++ List.replicate 47 3
def zeroKey : List Byte := List.replicate 32 0
def keyed (kindGen : Byte) : State :=
  mg { blob := blobOf (blobBody kindGen ++ kmac256 zeroKey (blobBody kindGen) 16 "Tatre wrap tag") }
    (dev (fun d => { d with keys := { prov := some zeroKey } }) up)
theorem leVal_lt (l : List Byte) : leVal l < 256 ^ l.length := by
  induction l with
  | nil => simp [leVal]
  | cons b l ih =>
    have := b.isLt
    simp only [leVal, List.length_cons, Nat.pow_succ]
    omega
theorem leBytes_leVal (l : List Byte) : leBytes l.length (leVal l) = l := by
  induction l with
  | nil => rfl
  | cons b l ih =>
    have h : (b.toNat + 256 * leVal l) / 256 = leVal l := by have := b.isLt; omega
    simp only [leVal, List.length_cons, leBytes, h, ih, List.cons.injEq, and_true]
    apply BitVec.eq_of_toNat_eq
    have := b.isLt
    simp only [BitVec.toNat_ofNat]
    omega
theorem chunks (bs : List Byte) (n : Nat) : (List.range n).flatMap (fun k => (bs.drop (4 * k)).take 4) = bs.take (4 * n) := by
  induction n with
  | zero => simp
  | succ n ih => simp [List.range_succ, ih, Nat.mul_succ, List.take_add]
theorem blob_back (bs : List Byte) (h : bs.length = 80) (s : State) : (mg { blob := blobOf bs } s).dev.blobBytes = bs := by
  have e : (mg { blob := blobOf bs } s).dev.blobBytes = (List.range 20).flatMap (fun k => (bs.drop (4 * k)).take 4) := by
    unfold Dev.blobBytes
    refine List.flatMap_congr (fun k hk => ?_)
    have hk : k < 20 := by simpa using hk
    have hl : ((bs.drop (4 * k)).take 4).length = 4 := by simp [h]; omega
    have f : sget (fun _ => (0 : Word)) (mg { blob := blobOf bs } s).dev.mg.blob k =
        BitVec.ofNat 32 (leVal ((bs.drop (4 * k)).take 4)) := by interval_cases k <;> rfl
    have hlt := leVal_lt ((bs.drop (4 * k)).take 4)
    rw [hl] at hlt
    rw [f, BitVec.toNat_ofNat, Nat.mod_eq_of_lt (by simpa using hlt)]
    have := leBytes_leVal ((bs.drop (4 * k)).take 4)
    rwa [hl] at this
  rw [e, chunks, List.take_of_length_le (by omega)]
/-- The blob carries the tag of the key that is held, and its kind and generation. -/
def keyShape (g : Byte) : Prop :=
  kmac256 zeroKey ((keyed g).dev.blobBytes.take 64) 16 "Tatre wrap tag" = (keyed g).dev.blobBytes.drop 64 ∧
    ((keyed g).dev.blobBytes.getD 16 0).toNat = g.toNat
theorem key_right (g : Byte) (hg : (kmac256 zeroKey (blobBody g) 16 "Tatre wrap tag").length = 16) : keyShape g := by
  have hl : (blobBody g).length = 64 := rfl
  have h := blob_back (blobBody g ++ kmac256 zeroKey (blobBody g) 16 "Tatre wrap tag") (by rw [List.length_append, hg, hl])
    (dev (fun d => { d with keys := { prov := some zeroKey } }) up)
  constructor
  · unfold keyed
    rw [h, List.take_left' hl, List.drop_left' hl]
  · unfold keyed
    rw [h]
    rfl
theorem witness_key_kind0 : keyShape 0 := key_right 0 (by decide +kernel)
theorem witness_key_kind1 : keyShape 5 := key_right 5 (by decide +kernel)
theorem witness_key_kind2 : keyShape 0xFE := key_right 0xFE (by decide +kernel)
theorem witness_key_kind3 : keyShape 0xFF := key_right 0xFF (by decide +kernel)
theorem witness_key : ∀ g ∈ [(0 : Byte), 5, 0xFE, 0xFF], (keyed g).answersAt 0 ⟨.mgmt, 0, 1⟩ ∧ (keyed g).dev.keys.prov = some zeroKey := by
  decide +kernel
theorem witness_bad_key : ¬ kmac256 zeroKey ((mg {} (keyed 0)).dev.blobBytes.take 64) 16 "Tatre wrap tag" =
    (mg {} (keyed 0)).dev.blobBytes.drop 64 ∧ up.dev.keys.prov = none := by decide +kernel

/-- What survives a reset. -/
def nv (n : Nonvolatile) (s : State) : State := { s with nv := n }
/-- Fuses: 16 bytes from 32, 32 from 48 and 32 from 80. -/
def fusesOf (id hash owner : List Byte) : List (Nat × Byte) :=
  (List.range 16).map (fun k => (32 + k, id.getD k 0)) ++ (List.range 32).map (fun k => (48 + k, hash.getD k 0)) ++
    (List.range 32).map (fun k => (80 + k, owner.getD k 0)) ++ [(112, 0)]
theorem fuses_hash (hash owner : List Byte) (h : hash.length = 32) (n : Nonvolatile) (e : n.fuses = fusesOf [] hash owner) :
    n.fuseRead 48 32 = hash := by
  obtain ⟨_, _, f, _, _, _, _, _, _, _⟩ := n
  subst e
  have e : ∀ k < 32, sget Nonvolatile.fuseInit (fusesOf [] hash owner) (48 + k) = hash.getD k 0 := by
    intro k hk
    interval_cases k <;> rfl
  refine List.ext_getElem (by simp [Nonvolatile.fuseRead, h]) (fun i h1 h2 => ?_)
  have hi : i < 32 := h ▸ h2
  simp [Nonvolatile.fuseRead, Nonvolatile.fuseByte, e i hi, List.getD_eq_getElem?_getD, List.getElem?_eq_getElem h2]
/-- One password byte, whose digest the fuses hold. -/
def passworded : State :=
  lit F.DEBUG_DBG_LEN_BYTES 1 0 0 0 (mg { dbg := [0x61] } (nv { fuses := fusesOf [] (shake256 (0x61 :: List.replicate 16 0) 32) [] } up))
theorem password_hash : passworded.nv.fuseRead 48 32 = shake256 (0x61 :: List.replicate 16 0) 32 :=
  fuses_hash _ [] (by decide +kernel) _ rfl
theorem password_id : passworded.nv.fuseRead 32 16 = List.replicate 16 0 := by decide +kernel
theorem password_bytes : passworded.dev.mg.dbg.take (passworded.dev.get F.DEBUG_DBG_LEN_BYTES) = [0x61] := by decide +kernel
theorem witness_password : passworded.takesAt 0 ⟨.debug, 0, 0⟩ ∧ ¬ 8 ≤ passworded.dev.get F.DEBUG_DBG_STS_FAILS ∧
    (passworded.nv.fuseByte 112).toNat % 2 ≠ 1 := by decide +kernel
theorem witness_password_held : passworded.nv.fuseRead 48 32 ≠ List.replicate 32 0 := by
  rw [password_hash]
  decide +kernel
theorem witness_password_right :
    1 ≤ (passworded.dev.mg.dbg.take (passworded.dev.get F.DEBUG_DBG_LEN_BYTES)).length ∧
      (passworded.dev.mg.dbg.take (passworded.dev.get F.DEBUG_DBG_LEN_BYTES)).length ≤ 64 ∧
      shake256 (passworded.dev.mg.dbg.take (passworded.dev.get F.DEBUG_DBG_LEN_BYTES) ++ passworded.nv.fuseRead 32 16) 32 =
        passworded.nv.fuseRead 48 32 := by
  rw [password_hash, password_id, password_bytes, List.singleton_append]
  exact ⟨by decide, by decide, rfl⟩
theorem witness_password_wrong : shake256 ([] ++ passworded.nv.fuseRead 32 16) 32 ≠ passworded.nv.fuseRead 48 32 := by
  rw [password_hash, password_id]
  decide +kernel
theorem witness_refused :
    let s := nv { fuses := fusesOf [] [] [] } up
    s.takesAt 0 ⟨.debug, 0, 0⟩ ∧ s.nv.fuseRead 48 32 = List.replicate 32 0 ∧ s.nv.fuseRead 80 32 = List.replicate 32 0 ∧
      8 ≤ (lit F.DEBUG_DBG_STS_FAILS 8 0 0 0 s).dev.get F.DEBUG_DBG_STS_FAILS := by decide +kernel
/-- A challenge that is held, a key whose digest the fuses hold, and a response of the right length: the signature decides. -/
def challenged (owner : List Byte) : State :=
  lit F.DEBUG_DBG_LEN_BYTES 5261 0 0 0 (lit F.DEBUG_DBG_STS_CHAL_VALID 1 0 0 0
    (mg { dbg := List.replicate 5261 1, chalAt := 1000000001 } (nv { fuses := fusesOf [] [] owner } up)))
theorem fuses_owner (owner : List Byte) (h : owner.length = 32) : (challenged owner).nv.fuseRead 80 32 = owner := by
  have e : ∀ k < 32, sget Nonvolatile.fuseInit (fusesOf [] [] owner) (80 + k) = owner.getD k 0 := by
    intro k hk
    interval_cases k <;> rfl
  have g : (challenged owner).nv.fuses = fusesOf [] [] owner := rfl
  refine List.ext_getElem (by simp [Nonvolatile.fuseRead, h]) (fun i h1 h2 => ?_)
  have hi : i < 32 := h ▸ h2
  simp [Nonvolatile.fuseRead, Nonvolatile.fuseByte, g, e i hi, List.getD_eq_getElem?_getD, List.getElem?_eq_getElem h2]
theorem challenge_bytes (owner : List Byte) :
    ((challenged owner).dev.mg.dbg.take ((challenged owner).dev.get F.DEBUG_DBG_LEN_BYTES)).take 1952 = List.replicate 1952 1 := by
  have d : (challenged owner).dev = (challenged []).dev := rfl
  have g : (challenged []).dev.get F.DEBUG_DBG_LEN_BYTES = 5261 := by decide +kernel
  have e : (challenged []).dev.mg.dbg = List.replicate 5261 1 := rfl
  rw [d, g, e, List.take_replicate, List.take_replicate, show min 1952 (min 5261 5261) = 1952 from by decide]
theorem witness_challenge :
    (challenged []).dev.flag F.DEBUG_DBG_STS_CHAL_VALID = true ∧ max (challenged []).dev.house 0 < (challenged []).dev.mg.chalAt ∧
      ((challenged []).dev.mg.dbg.take ((challenged []).dev.get F.DEBUG_DBG_LEN_BYTES)).length = 5261 := by decide +kernel
theorem witness_challenge_key :
    shake256 (((challenged (shake256 (List.replicate 1952 1) 32)).dev.mg.dbg.take
        ((challenged (shake256 (List.replicate 1952 1) 32)).dev.get F.DEBUG_DBG_LEN_BYTES)).take 1952) 32 =
      (challenged (shake256 (List.replicate 1952 1) 32)).nv.fuseRead 80 32 := by
  rw [challenge_bytes, fuses_owner _ (by decide +kernel)]
theorem witness_default : up.dev.get F.MGMT_DEF_INFO_REASON = 0 ∧ ((5 : Fin 6) : Nat) ≠ 2 ∧
    up.dev.busReason 0x70000000 5 true 1 = some 1 ∧ up.dev.busReason 0x101FFF80 5 false 16 = none ∧
    up.dev.busReason 0x101FFF88 5 false 16 = some 3 ∧ up.dev.busReason 0x40400040 0 true 1 = some 2 ∧
    up.dev.busReason 0x40400008 0 true 1 = none ∧
    (lit F.MGMT_DEF_INFO_REASON 3 0 0 0 up).dev.get F.MGMT_DEF_INFO_REASON ≠ 0 ∧
    Dev.validPage ⟨.layer, 1023, 0⟩ = true ∧ unfenceable .layer 0 = false ∧ 0x40000000 + pgAddr ⟨.layer, 1023, 0⟩ + 0x20 < 2 ^ 32 ∧
    (fw up).dev.fwUp = true ∧ (fw up).dev.calm := by decide +kernel

/-! The non-volatile store. -/

/-- WR_ADDR and WR_LEN. -/
def wr (a n : Nat) (s : State) : State := lit F.NVM_WR_ADDR_ADDR a 0 0 0 (lit F.NVM_WR_LEN_LEN n 0 0 0 s)
/-- Bytes in the store from an address. -/
def stored (a : Nat) (bs : List Byte) : List (Nat × Byte) := bs.zipIdx.map (fun q => (a + q.2, q.1))
def store (x : NvmSt) (s : State) : State := dev (fun d => { d with store := x }) s

theorem witness_store : up.takesAt 0 ⟨.nvm, 0, 0⟩ ∧ up.dev.flag F.NVM_STS_BUSY = false ∧
    (∀ op ∈ [0, 1, 2], (wr 0 0 up).dev.nvChecks op 0 0 0 0 0 ≠ nvOk) ∧ up.dev.nvChecks 3 0 0 7 0 0 ≠ nvOk ∧
    (lit F.NVM_STS_BUSY 1 0 0 0 up).dev.flag F.NVM_STS_BUSY = true ∧
    up.dev.writeOpen 13 = true ∧ (lit F.NVM_PW_OPEN_WRITE_OPEN 0 0 0 0 up).dev.writeOpen 13 = false := by decide +kernel
theorem witness_native :
    let n : Nonvolatile := { store := stored 64 (nativeCopy 0xFFFFFFFF [9]) }
    n.bad = [] ∧ up.dev.nvChecks 1 0 0 0 0 1 = nvOk ∧ up.dev.nvChecks 2 0 0 0 0 1 = nvOk ∧ n.newestCopy 0 1 = some 1 ∧
      ({} : Nonvolatile).newestCopy 0 1 = none := by decide +kernel
theorem witness_farari :
    let n : Nonvolatile := { store := stored 0 (farariSlot 5 7 [9]) }
    up.dev.nvChecks 1 1 2 0 0 52 = nvOk ∧ up.dev.nvChecks 2 1 2 0 0 0 = nvOk ∧ n.freeSlot 0 2 = (some 1, 8) ∧
      (n.freeSlot 0 1).1 = none ∧ n.newestSlot 0 2 (fun i => n.slotKey (0 + 64 * i) = 5) = some 0 := by decide +kernel
theorem witness_counter : up.dev.nvChecks 4 0 0 31 0 0 = nvOk ∧ up.dev.nvChecks 3 0 0 31 0 0 = nvOk ∧
    ({} : Nonvolatile).count 31 = some 0 ∧ ({} : Nonvolatile).newestBase 31 ≠ none := by decide +kernel
theorem witness_increment :
    let n : Nonvolatile := {}
    8 ≤ bitsOf (31 * 2 ^ 21) 21 5 ∧ n.count 31 = some 0 ∧ 0 + 256 < 2 ^ 64 ∧ up.dev.store.held = [] ∧ up.dev.store.pwrfail = false ∧
      ∀ i < 256, n.tally 31 < i → n.byte (counterAt 31 + 0x40 + i) = 0 := by decide +kernel
theorem witness_complete :
    let c : NvmCmd := { groups := (up.nv.groupsOf 0 7 [1, 2]), pw := none }
    let p : NvmCmd := { pw := some (27, some [1]) }
    (store { cmd := some c } up).dev.store.cmd = some c ∧ (store { cmd := some c } up).dev.store.held = [] ∧ c.result < 16 ∧
      c.groups = up.nv.groupsOf 0 7 [1, 2] ∧ p.pw = some (27, some [1]) ∧ p.groups = [] ∧ up.dev.store.cmd = none := by decide +kernel
theorem witness_region :
    let s := lit F.NVM_PW_SET_WRITE_SET 0x2000 0 0 0 up
    s.takesAt 0 ⟨.nvm, 0, 0⟩ ∧ s.dev.flag F.NVM_STS_BUSY = false ∧ bitsOf (0x4000 + 29) 0 4 = 13 ∧ bitsOf (0x4000 + 29) 4 1 = 1 ∧
      bitsOf (0x4000 + 29) 8 7 = 64 ∧ s.dev.pwSet 13 1 = true ∧ sget (fun _ => 0) s.dev.store.fails 13 < 8 ∧
      8 ≤ sget (fun _ => 0) (store { fails := [(13, 8)] } s).dev.store.fails 13 ∧
      (store { pwrfail := true } up).dev.store.pwrfail = true ∧ ¬ (∃ q ∈ s.nv.passwords, q.1 = 27) := by decide +kernel
theorem pwHash_passwords (n : Nonvolatile) (l : List (Nat × List Byte)) (r k : Nat) (pw : List Byte) :
    Dev.pwHash { n with passwords := l } r k pw = Dev.pwHash n r k pw := rfl
theorem witness_right (pw : List Byte) :
    ∃ q ∈ (nv { passwords := [(27, Dev.pwHash {} 13 1 pw)] } up).nv.passwords,
      q.1 = 2 * 13 + 1 ∧ q.2 = Dev.pwHash (nv { passwords := [(27, Dev.pwHash {} 13 1 pw)] } up).nv 13 1 pw :=
  ⟨(27, Dev.pwHash {} 13 1 pw), List.mem_singleton_self _, rfl, (pwHash_passwords {} _ 13 1 pw).symm⟩
theorem witness_window :
    let base (b : Nat) (s : State) : State := lit F.NVM_WIN_BASE b 0 0 0 s
    let a (s : State) : Nat := s.dev.get F.NVM_WIN_BASE * 0x4000 + (0x3FFF - 0x3FFF % 4)
    up.answersAt 0 ⟨.nvm, 0, 0⟩ ∧ a (base 255 up) / 0x40000 = 15 ∧ a (base 239 up) / 0x40000 = 14 ∧ a (base 223 up) / 0x40000 = 13 ∧
      (base 223 up).dev.readOpen 13 = true ∧ (lit F.NVM_PW_OPEN_READ_OPEN 0 0 0 0 up).dev.readOpen 13 = false ∧
      (lit F.NVM_SCRUB_CTL_EN 1 0 0 0 up).dev.flag F.NVM_SCRUB_CTL_EN = true ∧
      (lit F.NVM_SCRUB_CTL_EN 0 0 0 0 up).dev.flag F.NVM_SCRUB_CTL_EN = false ∧
      (store { scrubbing := true } up).dev.store.scrubbing = true ∧ up.dev.store.scrubbing = false := by decide +kernel
theorem witness_power_failure :
    let c : NvmCmd := { groups := (up.nv.groupsOf 0 7 [1, 2]) }
    c.groups.length = 2 ∧ c.pw = none ∧ (store { pwrfail := true, cut := true } up).dev.store.rose = none ∧
      (store { pwrfail := true, rose := some 7 } up).dev.store.rose = some 7 ∧ (7 : Int) + 100000 ≤ ((100007 : Nat) : Int) := by
  decide +kernel

/-! Firmware, its boot, the mailbox and the fuses. -/

theorem witness_firmware :
    let s := lit F.MGMT_FW_CTL_WDOG_AUTO 1 0 0 0 (lit F.MGMT_FW_STS_RESTARTS 2 0 0 0 (mg { stopAt := some 1000000000 } up))
    (lit F.MGMT_FW_STS_STATE 1 0 0 0 up).dev.get F.MGMT_FW_STS_STATE = 1 ∧ up.dev.get F.MGMT_FW_STS_STATE = 0 ∧
      s.dev.mg.stopAt = some 1000000000 ∧ 1000000000 + 100000000 ≤ max s.dev.house 1100000000 ∧
      s.dev.flag F.MGMT_FW_CTL_WDOG_AUTO = true ∧ s.dev.get F.MGMT_FW_STS_RESTARTS < 3 ∧
      max s.dev.house 1099999999 < 1000000000 + 100000000 ∧ up.dev.mg.stopAt = none ∧
      (lit F.MGMT_FW_STS_RESTARTS 3 0 0 0 up).dev.get F.MGMT_FW_STS_RESTARTS = 3 ∧ up.takesAt 0 ⟨.mgmt, 0, 0⟩ ∧
      (lit F.MGMT_MBOX_STS_BUSY 1 0 0 0 up).dev.flag F.MGMT_MBOX_STS_BUSY = true := by decide +kernel

/-- Slot 0 holds an image without a body, its security version 1, under a key of erased bytes; its key's digest is in the
fuses. -/
def imageKey : List Byte := List.replicate 1952 0xFF
def imageWord (o v : Nat) : List (Nat × Byte) := stored o (leBytes 4 v)
def slotted (key digest : List Byte) (minSec : Nat) : Nonvolatile :=
  { flash := imageWord 0 0x31464751 ++ imageWord 4 1 ++ imageWord 12 1 ++ imageWord 16 0 ++ imageWord 20 0 ++
      (List.range 64).map (fun k => (32 + k, digest.getD k 0))
    fuses := (List.range 32).map (fun k => (k, key.getD k 0))
    boot := { minSec := minSec } }
theorem slot_key (key digest : List Byte) (m : Nat) (h : key.length = 32) : (slotted key digest m).fuseRead 0 32 = key := by
  have e : ∀ k < 32, sget Nonvolatile.fuseInit ((List.range 32).map (fun k => (k, key.getD k 0))) (0 + k) = key.getD k 0 := by
    intro k hk
    interval_cases k <;> rfl
  have g : (slotted key digest m).fuses = (List.range 32).map (fun k => (k, key.getD k 0)) := rfl
  refine List.ext_getElem (by simp [Nonvolatile.fuseRead, h]) (fun i h1 h2 => ?_)
  have hi : i < 32 := h ▸ h2
  simp only [Nonvolatile.fuseRead, Nonvolatile.fuseByte, g, List.getElem_map, List.getElem_range, e i hi]
  simp [List.getD_eq_getElem?_getD, List.getElem?_eq_getElem h2]
theorem slot_digest (key digest : List Byte) (m : Nat) (h : digest.length = 64) : (slotted key digest m).flashRead 32 64 = digest := by
  have e : ∀ k < 64, (slotted key digest m).flashByte (32 + k) = digest.getD k 0 := by
    intro k hk
    interval_cases k <;> rfl
  refine List.ext_getElem (by simp [Nonvolatile.flashRead, h]) (fun i h1 h2 => ?_)
  have hi : i < 64 := h ▸ h2
  simp only [Nonvolatile.flashRead, List.getElem_map, List.getElem_range, e i hi]
  simp [List.getD_eq_getElem?_getD, List.getElem?_eq_getElem h2]
theorem sget_absent (d : Nat → Byte) (l : List (Nat × Byte)) (k : Nat) (h : ∀ a ∈ l.map (·.1), a ≠ k) : sget d l k = d k := by
  induction l with
  | nil => rfl
  | cons q l ih =>
    obtain ⟨a, v⟩ := q
    have h1 : a ≠ k := h a (by simp)
    rw [sget, if_neg h1]
    exact ih (fun x hx => h x (by simp only [List.map_cons, List.mem_cons]; exact Or.inr hx))
theorem slot_image_key (key digest : List Byte) (m : Nat) : (slotted key digest m).flashRead 96 1952 = imageKey := by
  have e : ∀ i, (slotted key digest m).flashByte (96 + i) = 0xFF := by
    intro i
    refine sget_absent _ _ _ (fun a ha => ?_)
    have h3 : (slotted key digest m).flash.map (·.1) = (slotted [] [] 0).flash.map (·.1) := rfl
    have h4 : ∀ a ∈ (slotted [] [] 0).flash.map (·.1), a < 96 := by decide +kernel
    have := h4 _ (h3 ▸ ha)
    omega
  unfold imageKey
  refine List.ext_getElem ?_ (fun i h1 h2 => ?_)
  · rw [Nonvolatile.flashRead, List.length_map, List.length_range, List.length_replicate]
  · simp only [Nonvolatile.flashRead, List.getElem_map, e, List.getElem_replicate]
theorem slot_header (key digest : List Byte) (m o k : Nat) (h : o + k ≤ 8 ∨ 12 ≤ o ∧ o + k ≤ 24) :
    (slotted key digest m).flashRead o k = (slotted [] [] 0).flashRead o k := by
  have e : ∀ i < 24, i < 8 ∨ 12 ≤ i → (slotted key digest m).flashByte i = (slotted [] [] 0).flashByte i := by
    intro i hi hh
    interval_cases i <;> rfl
  unfold Nonvolatile.flashRead
  refine List.map_congr_left (fun i hi => e _ ?_ ?_) <;> (have := List.mem_range.1 hi; omega)
/-- Such a slot fails by its signature, by the version that is asked, or not at all. -/
theorem witness_slot (m : Nat) (hm : m ≤ 2) :
    let n := slotted (shake256 imageKey 32) (shake256 [] 64) m
    n.slotFail 0 = (if Config.verifies imageKey (n.flashRead 0 2048) (n.flashRead 2048 3309) = false then 3 else if m = 2 then 4 else 0) := by
  intro n
  have k1 : n.fuseRead 0 32 = shake256 imageKey 32 := slot_key _ _ _ (by decide +kernel)
  have k2 : n.flashRead 32 64 = shake256 [] 64 := slot_digest _ _ _ (by decide +kernel)
  have k3 : n.flashRead 96 1952 = imageKey := slot_image_key _ _ _
  have w0 : leVal (n.flashRead 0 4) = 0x31464751 := by
    rw [show n = slotted _ _ _ from rfl, slot_header _ _ _ _ _ (by omega)]
    decide +kernel
  have w4 : leVal (n.flashRead 4 2) = 1 := by
    rw [show n = slotted _ _ _ from rfl, slot_header _ _ _ _ _ (by omega)]
    decide +kernel
  have w12 : leVal (n.flashRead 12 4) = 1 := by
    rw [show n = slotted _ _ _ from rfl, slot_header _ _ _ _ _ (by omega)]
    decide +kernel
  have w16 : leVal (n.flashRead 16 4) = 0 := by
    rw [show n = slotted _ _ _ from rfl, slot_header _ _ _ _ _ (by omega)]
    decide +kernel
  have w20 : leVal (n.flashRead 20 4) = 0 := by
    rw [show n = slotted _ _ _ from rfl, slot_header _ _ _ _ _ (by omega)]
    decide +kernel
  have hs : ¬ headerSize > slotSize := by unfold headerSize slotSize; omega
  have hb : n.flashRead headerSize 0 = [] := rfl
  have hmin : n.boot.minSec = m := rfl
  unfold Nonvolatile.slotFail
  simp only [Nat.zero_mul, Nat.zero_add, w0, w4, w12, w16, w20, k1, k2, k3, hs, hb, hmin, Nat.not_lt_zero, ne_eq, not_true_eq_false,
    decide_false, Bool.or_self, Bool.false_eq_true, if_false, gt_iff_lt]
  cases h : Config.verifies imageKey (n.flashRead 0 2048) (n.flashRead 2048 3309)
  · simp
  · interval_cases m <;> simp
theorem witness_no_slot : ({} : Nonvolatile).slotFail 0 = 1 ∧ ({} : Nonvolatile).slotFail 1 = 1 ∧ up.dev.get F.MGMT_FW_STS_STATE = 0 ∧
    up.nv.boot.active = 0 ∧ up.dev.mg.cause ≠ 2 ∧ up.dev.mg.cause ≠ 3 := by decide +kernel
theorem witness_group :
    (fw up).dev.fwUp = true ∧ (fw up).dev.calm ∧ (up.dev.recs .engine 63).any (fun q => q.cause = 0x05 && q.detail = 1) = true ∧
      up.dev.fwUp = false ∧ up.dev.domUp 23 = true := by decide +kernel
/-- The mailbox is free with an opcode, two arguments and a length. -/
def mbox (op a0 a1 len : Nat) (s : State) : State :=
  lit F.MGMT_MBOX_CMD_OPCODE op 0 0 0 (lit F.MGMT_MBOX_ARG a0 0 0 0 (lit F.MGMT_MBOX_ARG a1 0 1 0 (lit F.MGMT_MBOX_CMD_LENGTH len 0 0 0 (fw s))))
theorem witness_mailbox : ∀ op ∈ [1, 2, 3, 4, 5, 6, 0x10, 0x11, 0x12, 0x20], mboxReady (mbox op 0 0 0 up) 0 op := by decide +kernel
theorem witness_install :
    let s := mbox 3 8192 0 512 (nv { boot := { journal := 1, target := 1 } } (mg { installLen := 1, chunks := List.range 17 } up))
    s.nv.boot.journal = 1 ∧ s.dev.get F.MGMT_MBOX_ARG 0 0 % 512 = 0 ∧ s.dev.get F.MGMT_MBOX_ARG 0 0 < 8192 + s.dev.mg.installLen ∧
      s.dev.get F.MGMT_MBOX_CMD_LENGTH = 512 ∧ (∀ k < (8192 + s.dev.mg.installLen + 511) / 512, k ∈ s.dev.mg.chunks) ∧
      (lit F.MGMT_FW_STS_SLOT 1 0 0 0 s).dev.get F.MGMT_FW_STS_SLOT = s.nv.boot.target ∧ up.nv.boot.journal ≠ 1 ∧
      up.nv.boot.journal ≠ 2 ∧ up.nv.boot.journal ≠ 4 := by decide +kernel
theorem witness_room : (mbox 2 0 0 0 up).dev.get F.MGMT_MBOX_ARG 0 0 + 8192 ≤ slotSize ∧
    slotSize < (mbox 2 0xFFFFFFFF 0 0 up).dev.get F.MGMT_MBOX_ARG 0 0 + 8192 := by
  have h0 : (mbox 2 0 0 0 up).dev.get F.MGMT_MBOX_ARG 0 0 = 0 := by decide +kernel
  have h1 : (mbox 2 0xFFFFFFFF 0 0 up).dev.get F.MGMT_MBOX_ARG 0 0 = 0xFFFFFFFF := by decide +kernel
  have := Config.slotSectors.isLt
  rw [h0, h1]
  unfold slotSize
  omega
theorem witness_quote :
    (mbox 0x10 0 0 32 up).dev.get F.MGMT_MBOX_CMD_LENGTH = 32 ∧ (mbox 0x11 3072 0 0 up).dev.get F.MGMT_MBOX_ARG 0 0 = 3072 ∧
      (mbox 0x11 3072 0 0 up).dev.mg.quote = [] ∧ (mbox 0x11 0 0 0 (mg { quote := [1] } up)).dev.mg.quote ≠ [] ∧
      (mbox 0x12 2 0 0 up).dev.get F.MGMT_MBOX_ARG 0 0 = 2 ∧ (mbox 0x12 3 511 0 up).dev.get F.MGMT_MBOX_ARG 0 1 % 512 ≠ 0 := by
  decide +kernel
theorem witness_certificate : ∀ k ∈ [0, 1, 2], 0 < (up.dev.certObject 0 k).length := by decide +kernel
theorem witness_mailbox_done :
    let s := mg { served := true, result := 8, rsp := List.replicate 512 1 } (lit F.MGMT_MBOX_STS_BUSY 1 0 0 0 (mbox 1 0 0 0 up))
    s.dev.flag F.MGMT_MBOX_STS_BUSY = true ∧ s.dev.fwUp = true ∧ s.dev.mg.served = true ∧ s.dev.mg.result ≤ 8 ∧
      s.dev.mg.rsp.length ≤ 512 ∧ s.dev.get F.MGMT_MBOX_CMD_OPCODE = 1 ∧ s.answersAt 0 ⟨.mgmt, 0, 0⟩ := by decide +kernel
theorem witness_commit :
    let s := nv { boot := { journal := 2 } } (mg { served := true } (mbox 4 0 0 0 up))
    s.dev.mg.result = mbOk ∧ s.nv.boot.journal = 2 ∧ s.nv.slotFail s.nv.boot.target = 1 := by decide +kernel
theorem witness_fuses :
    let s := lit F.MGMT_MBOX_DATA 1 0 0 0 (mbox 0x20 112 0 1 up)
    s.dev.mboxBytes 1 = [1] ∧ s.dev.get F.MGMT_MBOX_ARG 0 0 = 112 ∧ s.dev.get F.MGMT_MBOX_CMD_LENGTH = 1 ∧
      bitsOf (s.nv.fuseByte 112).toNat 0 1 ≠ 1 ∧ bitsOf ((nv { fuses := [(112, 7)] } s).nv.fuseByte 112).toNat 2 1 = 1 := by
  decide +kernel

/-! Reset and readiness; the rules stated whole. -/

theorem witness_resets :
    let c : NvmCmd := { groups := up.nv.groupsOf 0 7 [1, 2] }
    up.dev.inReset = false ∧ down.dev.inReset = true ∧ down.dev.mg.cause < 16 ∧ (store { cmd := some c } up).dev.store.cmd = some c ∧
      1 < c.groups.length ∧ c.groups.length ≤ 2 ∧ c.pw = none := by decide +kernel
theorem witness_ready :
    let s := dev (fun d => { d with doms := (List.range 35).map (fun x => (x, { d.dom x with tried := true })), mg := { started := true } }) (fw up)
    s.dev.fwUp = true ∧ s.dev.flag F.GLOBAL_STS_READY = false ∧ s.dev.flag F.GLOBAL_STS_MGMT_ONLY = false ∧ s.dev.mg.started = true ∧
      (∀ x < 35, (s.dev.dom x).tried = true) ∧ (∃ k < 4, s.dev.domUp (28 + k) = true) ∧ s.dev.calm ∧ up.dev.fwUp = false := by
  decide +kernel
theorem witness_alive : 1000000000 % 1000000 = 0 ∧ up.dev.aliveAt = 0 ∧ up.dev.house ≤ 1000000000 ∧
    (dev (fun d => { d with aliveAt := 999500000 }) up).dev.aliveAt + 500000 ≤ 1000000000 ∧ (fw up).dev.fwUp = true := by decide +kernel
theorem witness_no_frame :
    let p : Plane := { slot := 15, layer := 1023, leftOut := true }
    let s := head 63 { running := true, planes := [p] } up
    runsOn s 63 := by decide +kernel
theorem witness_ring : up.takesAt 0 ⟨.ingest, 255, 0⟩ ∧ up.dev.flag F.INGEST_DMA_CTL_EN 255 = false ∧
    (∃ k, k < 13 ∧ 4 ≤ k ∧ (4096 : BitVec 13).toNat = 2 ^ k) ∧ (∃ k, k < 13 ∧ 4 ≤ k ∧ (16 : BitVec 13).toNat = 2 ^ k) ∧
    (lit F.INGEST_DMA_CTL_EN 1 255 0 0 up).dev.flag F.INGEST_DMA_CTL_EN 255 = true ∧ up.dev.get F.GLOBAL_ERR_INFO_CAUSE = 0 ∧
    (lit F.GLOBAL_ERR_INFO_CAUSE 1 0 0 0 up).dev.get F.GLOBAL_ERR_INFO_CAUSE ≠ 0 := by decide +kernel

/-! Ill-formed commands. -/

theorem test_refuses_width : Instr.wellFormed (.registerWrite 0 0 9 0) = false ∧ Instr.wellFormed (.bar0Read 0 0 0 [] 0) = false ∧
    Instr.wellFormed (.registerWrite 0 0 8 0) = true := by decide
theorem test_refuses_page : Instr.wellFormed (.enable 0 ⟨.ingest, 256, 0⟩) = false ∧ Instr.wellFormed (.disable 0 ⟨.head, 0, 4⟩) = false ∧
    Instr.wellFormed (.enable 0 ⟨.head, 63, 3⟩) = true := by decide
theorem test_refuses_burst : Instr.wellFormed (.bar2Read 0 0 4097 {}) = false ∧ Instr.wellFormed (.bar2Write 0 0 []) = false := by decide
theorem test_refuses_target : Instr.wellFormed (.agreeTimeout 0 (.unit ⟨.audio, 1, 0⟩)) = false ∧
    Instr.wellFormed (.agreeTimeout 0 (.domain 34)) = true := by decide
theorem test_refuses_equaliser : Instr.wellFormed (.adaptDone 0 96 ⟨0, 0, 0, []⟩) = false ∧
    Instr.wellFormed (.adaptDone 0 95 ⟨0, 0, 0, []⟩) = true := by decide
theorem test_refuses_marker : Instr.wellFormed (.bondMarkerRx 0 0 ⟨some [1], [], 0, false⟩) = false := by decide
theorem test_refuses_edid : Instr.wellFormed (.edidRead 0 0 none 0 0) = false ∧ Instr.wellFormed (.edidRead 0 0 none 0 4097) = false := by
  decide
theorem test_refuses_sideband : Instr.wellFormed (.sidebandDone 0 0 0 (List.replicate 17 0)) = false := by decide
theorem test_refuses_tile : Instr.wellFormed (.tatreSendFrame 0 0 [⟨1024, 0, 0, false, false⟩]) = false := by decide
theorem test_refuses_late : Instr.wellFormed (.headLatch 0 0 none [16]) = false := by decide
theorem test_refuses_message : Instr.wellFormed (.bidRx 0 0 (List.replicate 65508 0)) = false := by decide +kernel
theorem test_refuses_digest : Instr.wellFormed (.engineGroupRelease 0 0 [] 0 0 true) = false := by decide
theorem test_refuses_temperature : Instr.wellFormed (.tempReport 0 1 2) = false := by decide

/-! Worked cases of the spec. -/

/-- The timing of head 0 in the worked example of 09_scanout.md. -/
def wall : Timing :=
  { hact := 3840, htot := 4400, vact := 2160, vtot := 2250, vss := 2168, vse := 2178, num := 60000, den := 1001, phase := 0, mode := 1
    mult := 1, pf := 16 }
theorem test_head_target : wall.target 59940059940 = 999999999999000000 := by decide +kernel
theorem test_head_lines : wall.lines 2160 0 = 16016000 ∧ wall.lines 2234 0 = 16564696 := by decide +kernel
/-- 08_composition.md, one pixel of head 5: STRAIGHT and PREMUL. -/
theorem test_blend : Dev.blendOver false 3072 2313 [51392, 0, 0] [10240, 0, 0] = [33478, 0, 0] ∧
    Dev.blendOver true 3072 2313 [51392, 0, 0] [10240, 0, 0] = [43002, 0, 0] := by decide +kernel
/-- 06_frame_store.md, tile 3 of slab 1,000. -/
theorem test_slot : slotAddr 1000 3 15 = 0x7D005A00 ∧ pcOf (slotAddr 1000 3 15) = 86 ∧ metaAddr 1000 3 = 0x1F80FA0060 ∧
    pcOf (metaAddr 1000 3) = 5 := by decide +kernel
/-- 03_register_pages.md, addresses of one layer and one head. -/
theorem test_decode : decodeTarget 0x705900 = .page ⟨.layer, 517, 0⟩ 0x900 ∧ decodeTarget 0x705D00 = .page ⟨.layer, 517, 0⟩ 0xD00 ∧
    decodeTarget 0x496000 = .page ⟨.head, 37, 2⟩ 0 := by decide +kernel
theorem test_page_id : (match exec (.bar0Read 0 0x496000 4 [] 0) up with
    | .next s => s.dev.resp
    | _ => none) = some (.data 0x00202540) := by decide +kernel
/-- 05_ingest.md, R128. -/
theorem test_depth : depthDown 4095 12 8 = 255 ∧ depthUp 255 8 10 = 1023 := by decide +kernel
/-- 01_freshness.md, R29. -/
theorem test_luma : Dev.luma {} [255, 255, 255] = 255 := by decide +kernel
/-- 16_power.md, R443: the bias at -40, 0 and 20 degrees, at most 25 mV an update. -/
theorem test_bias :
    let at_ (tj : Int) (now : Nat) : Nat := (((fw up).dev.put F.POWER_TEMP_TJ_MAX (unsgn 9 tj)).put F.POWER_BIAS_STS_FBB_MV now).biasUpdate.get F.POWER_BIAS_STS_FBB_MV
    at_ (-40) 140 = 150 ∧ at_ (-40) 100 = 125 ∧ at_ 0 70 = 75 ∧ at_ 20 20 = 0 := by decide +kernel
/-- The check value of CRC-32C, and SHAKE256 of the empty string (FIPS 202). -/
theorem test_crc : crc32c [0x31, 0x32, 0x33, 0x34, 0x35, 0x36, 0x37, 0x38, 0x39] = 0xE3069283 := by decide +kernel
theorem test_shake : shake256 [] 4 = [0x46, 0xB9, 0xDD, 0x2B] := by decide +kernel
/-- The queue is first in, first out. -/
theorem test_queue : (match step { up with pending := [.seal 0, .withdraw 0] } with
    | .next s => s.pending
    | _ => []) = [.withdraw 0] := by decide +kernel
theorem test_idle : step State.reset = .next State.reset := rfl

end Sys2Proof.Tests
end

section
/-! PROOF. A head's sample point and the start and rows of its fetch: the hand that a head takes (R275, R276), the tiles that a
sound frame store gives (R161, R162), and the judgement of a fetched row (R20, R166). -/
namespace Sys2Proof.Machine

/-- A map written at each of some keys reads there what was written, and elsewhere as before. -/
theorem sget_foldl_sset {α : Type} [DecidableEq α] (d g : Nat → α) (ks : List Nat) (m : List (Nat × α)) (a : Nat) :
    sget d (ks.foldl (fun m k => sset d m k (g k)) m) a = if a ∈ ks then g a else sget d m a := by
  induction ks generalizing m with
  | nil => simp
  | cons k ks ih =>
    rw [List.foldl_cons, ih, sget_sset]
    by_cases hk : a = k
    · simp [hk]
    · simp [hk]

/-! Meanings over the device. -/

/-- A meaning that leaves the device out of reset answers the device that it makes. -/
theorem exec_of_onDev {i : Instr} {s : State} {f : Dev → Dev} {d : Dev} (hi : exec i s = s.onDev f)
    (hr : s.dev.inReset = false) (hf : f s.dev = d) (hd : d.inReset = false) : exec i s = .next { s with dev := d } := by
  have he : { d with inReset := false } = d := by rw [← hd]
  rw [hi, s.onDev_eq f hr, hf, he]

namespace Dev

/-! The hidden state of a head after its update. -/

@[simp] theorem headSt_updHeadSt_self (d : Dev) (h : Nat) (f : HeadSt → HeadSt) :
    (d.updHeadSt h f).headSt h = f (d.headSt h) := sget_sset_self _ _ _ _

theorem headSt_updHeadSt_ne (d : Dev) {h k : Nat} (f : HeadSt → HeadSt) (hk : k ≠ h) :
    (d.updHeadSt h f).headSt k = d.headSt k := sget_sset_ne _ _ _ hk

/-! The sample point (R275, R276). -/

/-- A head has taken the hand for its next boundary. -/
def handTaken (d : Dev) (h : Nat) : Dev :=
  { d.updHeadSt h (fun s => { s with take := true }) with hand := { d.hand with taken := true } }

theorem headSt_handTaken_self (d : Dev) (h : Nat) : (d.handTaken h).headSt h = { d.headSt h with take := true } :=
  headSt_updHeadSt_self d h (fun s => { s with take := true })

theorem headSt_handTaken_ne (d : Dev) {h k : Nat} (hk : k ≠ h) : (d.handTaken h).headSt k = d.headSt k :=
  headSt_updHeadSt_ne d (fun s => { s with take := true }) hk

theorem handSample_of_not_pending (d : Dev) (h : Nat) (hp : d.hand.pending = false) : d.handSample h = d := by
  simp [handSample, handReady, hp]

theorem handReady_of_done {d : Dev} {done : Nat} (hp : d.hand.pending = true) (hdealt : d.hand.dealt = true)
    (hdone : d.hand.done = some done) (hmiss : d.hand.missed = false) : d.handReady = true := by
  simp [handReady, hp, hdealt, hdone, hmiss]

/-- A running head has a latch to come and does not start, so only its sample point decides. -/
theorem handSample_of_running (d : Dev) (h : Nat) (hr : d.handReady = true) (hh : h ∈ d.hand.heads)
    (hrun : (d.headSt h).running = true) (hv : (d.headSt h).virt = false) :
    d.handSample h = if d.samplePast h && d.sampleTakes h then d.handTaken h else d := by
  simp [handSample, handTaken, latchStarts, latchRuns, hr, hh, hrun, hv]

theorem samplePast_and_takes_iff {d : Dev} (h : Nat) {done : Nat} (hdone : d.hand.done = some done) :
    (d.samplePast h && d.sampleTakes h) = true ↔
      d.samplePoint h ≤ d.house ∧ done ≤ d.samplePoint h ∧ d.hand.apply ≤ (d.headSt h).due := by
  simp [samplePast, sampleTakes, hdone]

/-! Layer settings kept from before a hand. -/

theorem keptSwap_of_none_kept (d : Dev) (h : Nat) (hn : ∀ q ∈ d.layers, ∀ ws, q.2.kept ≠ some (h, ws)) :
    d.keptSwap h = d := by
  unfold keptSwap
  refine List.foldlRecOn (motive := fun e => e = d) d.layers _ rfl ?_
  intro e he q hq
  subst he
  split
  next o ws hk =>
    have ho : o ≠ h := fun e => hn q hq ws (by rw [hk, e])
    rw [if_pos ho]
  next => rfl

theorem withKept_of_none_kept (d : Dev) (h : Nat) (f : Dev → Dev) (hn : ∀ q ∈ d.layers, ∀ ws, q.2.kept ≠ some (h, ws))
    (hf : (f d).layers = d.layers) : d.withKept h f = f d := by
  rw [withKept, keptSwap_of_none_kept d h hn, keptSwap_of_none_kept (f d) h (by rwa [hf])]

/-! The books of the tile transactions. -/

/-- The device without the books that a tile transaction moves: bytes by class, QoS and channels (R152, R174, R48). -/
def offBooks (d : Dev) : Dev := { d with moved := [], qos := [], chans := [] }

theorem offBooks_transact (d : Dev) (q : Req) (n : Nat) : (d.transact q n).offBooks = d.offBooks := by
  unfold transact
  cases poolIsland q.pool with
  | none => rfl
  | some i => rfl

/-! Reading a sound frame store (R161, R162). -/

/-- No burst is marked by a scrub, and no pseudo-channel is fenced. -/
def soundStore (d : Dev) : Prop := d.scrubBad = [] ∧ ∀ pc : Fin 128, d.pcFenced pc = false

theorem soundStore_congr {d d' : Dev} (he : d'.offBooks = d.offBooks) (hs : d.soundStore) : d'.soundStore := by
  change d'.offBooks.soundStore
  rw [he]
  exact hs

end Dev

theorem pcOf_lt (a : Nat) : pcOf a < 128 := by
  unfold pcOf
  exact lt_of_le_of_lt Nat.and_le_right (by norm_num)

namespace Dev

theorem slotFenced_of_sound {d : Dev} (hs : d.soundStore) (s slot sectors used : Nat) :
    d.slotFenced s slot sectors used = false := by
  have hpc (a : Nat) : ¬ d.pcFenced (pcOf a) = true := Bool.eq_false_iff.mp (hs.2 ⟨pcOf a, pcOf_lt a⟩)
  refine List.any_eq_false.mpr fun pc hmem => ?_
  rcases List.mem_cons.mp hmem with rfl | hdata
  · exact hpc _
  · obtain ⟨i, -, rfl⟩ := List.mem_map.mp hdata
    exact hpc _

theorem readFails_of_sound {d : Dev} (hs : d.soundStore) (p : Pic) (c r : Nat) {place : Nat × Nat}
    (hp : p.slot c r = some place) : d.readFails p c r [] = false := by
  simp [readFails, hp, hs.1, slotFenced_of_sound hs]

/-- A tile reads as it is stored, and only the books of the transaction move. -/
theorem readTile_of_sound {d : Dev} (hs : d.soundStore) (q : Req) (p : Pic) (c r : Nat) :
    ∃ d', d.readTile q p c r [] = (d.picTile p c r, d') ∧ d'.offBooks = d.offBooks := by
  cases hp : p.slot c r with
  | none => exact ⟨d, by simp [readTile, picTile, hp], rfl⟩
  | some place =>
    obtain ⟨slab, slot⟩ := place
    refine ⟨d.transact q ((d.tile (slotKey slab slot)).sectors * 512 + 32), ?_, offBooks_transact _ _ _⟩
    have hok : (d.transact q ((d.tile (slotKey slab slot)).sectors * 512 + 32)).readFails p c r [] = false :=
      readFails_of_sound (soundStore_congr (offBooks_transact _ _ _) hs) p c r hp
    simp [readTile, picTile, hp, corrected, hok]

/-! The fetch of a row (R20, R166). -/

/-- What a head shows of a tile that it fetches: the stored tile judged by its own stamp and poison, or none where no
picture holds it. -/
def fetchedAs (d : Dev) (h j : Nat) (p : Plane) (key : Nat) : Fetched :=
  match rowSource p (key / 1024) with
  | some q =>
    if key % 1024 < q.cols ∧ key / 1024 < q.rows then d.judgeTile h j p (d.picTile q (key % 1024) (key / 1024)) false
    else d.judgeTile h j p {} true
  | none => d.judgeTile h j p {} true

theorem fetchedAs_congr {d d' : Dev} (he : d'.offBooks = d.offBooks) (h j : Nat) (p : Plane) (key : Nat) :
    d'.fetchedAs h j p key = d.fetchedAs h j p key := by
  change d'.offBooks.fetchedAs h j p key = d.offBooks.fetchedAs h j p key
  rw [he]

theorem fetchedAs_of_pic {d : Dev} {h j : Nat} {p : Plane} {q : Pic} {key : Nat} (hslip : p.slip = none)
    (hpic : p.pic = some q) (hc : key % 1024 < q.cols) (hr : key / 1024 < q.rows) :
    d.fetchedAs h j p key = d.judgeTile h j p (d.picTile q (key % 1024) (key / 1024)) false := by
  simp [fetchedAs, rowSource, hslip, hpic, hc, hr]

theorem fetchTile_of_sound {d : Dev} (hs : d.soundStore) (h j : Nat) (p : Plane) (key : Nat) :
    ∃ d', d.fetchTile h j p key [] = ({ p with tiles := sset (fun _ => {}) p.tiles key (d.fetchedAs h j p key) }, d') ∧
      d'.offBooks = d.offBooks := by
  unfold fetchTile fetchedAs
  cases rowSource p (key / 1024) with
  | none => exact ⟨d, rfl, rfl⟩
  | some q =>
    by_cases hin : key % 1024 < q.cols ∧ key / 1024 < q.rows
    · obtain ⟨d', hd, hoff⟩ := readTile_of_sound hs (reqHead h) q (key % 1024) (key / 1024)
      exact ⟨d', by simp [hin, hd], hoff⟩
    · exact ⟨d, by simp [hin], rfl⟩

/-- The tiles of a plane after those of a list of keys have been fetched. -/
def tilesFetched (d : Dev) (h j : Nat) (p : Plane) (ks : List Nat) : List (Nat × Fetched) :=
  ks.foldl (fun m k => sset (fun _ => {}) m k (d.fetchedAs h j p k)) p.tiles

theorem sget_tilesFetched (d : Dev) (h j : Nat) (p : Plane) {ks : List Nat} {key : Nat} (hk : key ∈ ks) :
    sget (fun _ => ({} : Fetched)) (d.tilesFetched h j p ks) key = d.fetchedAs h j p key := by
  rw [tilesFetched, sget_foldl_sset, if_pos hk]

/-- Tiles fetched in turn are each judged alone: the judgement rests neither on the tiles fetched before nor on the books. -/
theorem foldl_fetchTile_of_sound {d : Dev} (hs : d.soundStore) (h j : Nat) (p : Plane) (ks : List Nat) :
    ∃ d', ks.foldl (fun (acc : Plane × Dev) k => acc.2.fetchTile h j acc.1 k []) (p, d) =
        ({ p with tiles := d.tilesFetched h j p ks }, d') ∧
      d'.offBooks = d.offBooks := by
  induction ks generalizing d p with
  | nil => exact ⟨d, rfl, rfl⟩
  | cons k ks ih =>
    obtain ⟨d1, hd1, hoff1⟩ := fetchTile_of_sound hs h j p k
    obtain ⟨d2, hd2, hoff2⟩ :=
      ih (soundStore_congr hoff1 hs) { p with tiles := sset (fun _ => {}) p.tiles k (d.fetchedAs h j p k) }
    refine ⟨d2, ?_, hoff2.trans hoff1⟩
    rw [List.foldl_cons, hd1, hd2]
    simp only [tilesFetched, fetchedAs_congr hoff1, List.foldl_cons]
    rfl

/-- The visible tiles of a plane in a source tile row. -/
def rowKeys (p : Plane) (r : Nat) : List Nat := (p.tiles.map (·.1)).filter (fun k => k / 1024 = r)

/-- A row of a plane that is drawn, neither waits, is left out nor chases, and lies in no meld group: each of its visible
tiles is read and judged. -/
theorem fetchRow_of_sound {d : Dev} (hs : d.soundStore) (h j : Nat) (ms : List (Nat × MeldView)) {p : Plane} {r : Nat}
    (hheld : p.held = false) (hleft : p.leftOut = false) (hchase : p.chase = false) (hgroup : p.group = none)
    (harea : p.areas.any (fun a => a.1 / 1024 = r) = true) :
    ∃ d', d.fetchRow h j ms p r [] = ({ p with tiles := d.tilesFetched h j p (rowKeys p r) }, d') ∧
      d'.offBooks = d.offBooks := by
  have hneed : d.tileNeeded h ms p = fun _ => true := by funext k; simp [tileNeeded, hgroup]
  obtain ⟨d', hd, hoff⟩ := foldl_fetchTile_of_sound hs h j p (rowKeys p r)
  refine ⟨d', ?_, hoff⟩
  rw [← hd]
  simp only [fetchRow, hheld, hleft, hchase, harea, hneed, List.filter_true]
  rfl

theorem fetchIssue_of_no_tag (d : Dev) (h plane row : Nat) (errs : List ReadError) (ht : d.tagFree (reqHead h) = false) :
    d.fetchIssue h plane row errs = d := by
  simp [fetchIssue, ht]

/-- The row of the one plane of a head is due at once where the plane does not chase, so it is fetched. Neither that nor
the end of the head's reads after its last row (R158) changes a layer. -/
theorem fetchIssue_of_lone_plane {d d' : Dev} {h plane row : Nat} {p p' : Plane} {errs : List ReadError}
    (hview : (d.headSt h).viewed = true) (hcomp : (d.headSt h).composed = true) (hfence : d.fenced .head h = false)
    (htag : d.tagFree (reqHead h) = true) (hplane : plane < 16) (hplanes : (d.headSt h).planes = [p]) (hslot : p.slot = plane)
    (hchase : p.chase = false) (hunread : ∀ f ∈ p.tiles, f.1 / 1024 = row → f.2.read = false)
    (hrow : d.fetchRow h (d.headSt h).j (d.headSt h).melds p row errs = (p', d')) (hoff : d'.offBooks = d.offBooks) :
    ((d.fetchIssue h plane row errs).headSt h).planes = [p'] ∧ (d.fetchIssue h plane row errs).layers = d.layers ∧
      (d.fetchIssue h plane row errs).inReset = d.inReset := by
  have hdue : d.rowDue h p row = true := by simp [rowDue, hchase]
  have hall : (p.tiles.filter (fun f => f.1 / 1024 = row)).all (fun f => !f.2.read) = true := by
    simpa [← imp_iff_not_or] using fun a b hf => hunread (a, b) hf
  have hlayers : d'.offBooks.layers = d.offBooks.layers := by rw [hoff]
  have hout : d'.offBooks.inReset = d.offBooks.inReset := by rw [hoff]
  have he : d.fetchIssue h plane row errs =
      (let e := d'.updHeadSt h (fun s => { s with planes := [p'] }); if e.fetchOver h then e.setReads h [] else e) := by
    simp [fetchIssue, hview, hcomp, hfence, htag, Nat.not_le.mpr (Nat.lt_succ_of_lt hplane), hplanes, hslot, hdue, hall, hrow]
  rw [he]
  dsimp only
  split
  · exact ⟨by simp [setReads, headSt, updHeadSt, setHeadSt], hlayers, hout⟩
  · exact ⟨by simp, hlayers, hout⟩

end Dev

/-! The commands. -/

theorem exec_handSample (t : Nat) (h : Fin 64) (s : State) :
    exec (.handSample t h) s = s.onDev (fun d => (d.atTime t).handSample h) := rfl

theorem exec_fetchStart (t : Nat) (h : Fin 64) (s : State) :
    exec (.fetchStart t h) s = s.onDev (fun d => (d.atTime t).fetchStart h) := rfl

theorem exec_fetchRowIssue (t : Nat) (h : Fin 64) (plane : Fin 21) (row : Nat) (errs : List ReadError) (s : State) :
    exec (.fetchRowIssue t h plane row errs) s = s.onDev (fun d =>
      if ((d.atTime t).headSt h).viewed then (d.atTime t).withKept h (·.fetchIssue h plane row errs) else d.atTime t) := rfl

/-- A head takes a hand completed by its sample point at or after that point, for a latch at or after the apply time, and
not otherwise (R275, R276). -/
theorem handSample_at_sample_point {s : State} (t : Nat) (h : Fin 64) {done : Nat} (hr : s.dev.inReset = false)
    (hready : s.dev.handReady = true) (hdone : s.dev.hand.done = some done) (hh : (h : Nat) ∈ s.dev.hand.heads)
    (hrun : (s.dev.headSt h).running = true) (hv : (s.dev.headSt h).virt = false) :
    (s.dev.samplePoint h ≤ max s.dev.house t → done ≤ s.dev.samplePoint h →
      s.dev.hand.apply ≤ (s.dev.headSt h).due →
      Answers (.handSample t h) s (fun d => d.headSt h = { s.dev.headSt h with take := true } ∧
        d.hand = { s.dev.hand with taken := true } ∧ d.regs = s.dev.regs ∧
        ∀ k : Fin 64, k ≠ h → d.headSt k = s.dev.headSt k)) ∧
    (max s.dev.house t < s.dev.samplePoint h ∨ s.dev.samplePoint h < done ∨ (s.dev.headSt h).due < s.dev.hand.apply →
      exec (.handSample t h) s = .next { s with dev := s.dev.atTime t }) := by
  have hsample := Dev.handSample_of_running (s.dev.atTime t) h hready hh hrun hv
  have hiff : ((s.dev.atTime t).samplePast h && (s.dev.atTime t).sampleTakes h) = true ↔
      s.dev.samplePoint h ≤ max s.dev.house t ∧ done ≤ s.dev.samplePoint h ∧
        s.dev.hand.apply ≤ (s.dev.headSt h).due :=
    Dev.samplePast_and_takes_iff h hdone
  constructor
  · intro hpast hby happly
    rw [if_pos (hiff.mpr ⟨hpast, hby, happly⟩)] at hsample
    exact ⟨_, exec_of_onDev (exec_handSample t h s) hr hsample hr, Dev.headSt_handTaken_self _ _, rfl, rfl,
      fun k hk => Dev.headSt_handTaken_ne (s.dev.atTime t) (Fin.val_ne_of_ne hk)⟩
  · intro hnot
    rw [if_neg (fun e => by have := hiff.mp e; omega)] at hsample
    exact exec_of_onDev (exec_handSample t h s) hr hsample hr

/-- The fetch of a head that has selected a frame begins, and nothing else changes (R238). -/
theorem fetchStart_of_viewed {s : State} (t : Nat) (h : Fin 64) (hr : s.dev.inReset = false)
    (hview : (s.dev.headSt h).viewed = true) :
    Answers (.fetchStart t h) s (fun d => d.headSt h = { s.dev.headSt h with fetching := true } ∧
      (∀ k : Fin 64, k ≠ h → d.headSt k = s.dev.headSt k) ∧
      { d with heads := [] } = { s.dev.atTime t with heads := [] }) := by
  have hstart : (s.dev.atTime t).fetchStart h = (s.dev.atTime t).updHeadSt h (fun x => { x with fetching := true }) :=
    if_pos hview
  exact ⟨_, exec_of_onDev (exec_fetchStart t h s) hr hstart hr, Dev.headSt_updHeadSt_self _ _ _,
    fun k hk => Dev.headSt_updHeadSt_ne (s.dev.atTime t) _ (Fin.val_ne_of_ne hk), rfl⟩

theorem fetchRowIssue_of_not_viewed {s : State} (t : Nat) (h : Fin 64) (plane : Fin 21) (row : Nat) (errs : List ReadError)
    (hr : s.dev.inReset = false) (hview : (s.dev.headSt h).viewed = false) :
    exec (.fetchRowIssue t h plane row errs) s = .next { s with dev := s.dev.atTime t } :=
  exec_of_onDev (exec_fetchRowIssue t h plane row errs s) hr (if_neg (Bool.eq_false_iff.mp hview)) hr

/-- A row waits for a free tag (R151). -/
theorem fetchRowIssue_of_no_tag {s : State} (t : Nat) (h : Fin 64) (plane : Fin 21) (row : Nat) (errs : List ReadError)
    (hr : s.dev.inReset = false) (htag : s.dev.tagFree (reqHead h) = false) (hn : noneKept s h) :
    Answers (.fetchRowIssue t h plane row errs) s (fun d => d.headSt h = s.dev.headSt h) := by
  have hissue := Dev.fetchIssue_of_no_tag (s.dev.atTime t) h plane row errs htag
  have hkept : (s.dev.atTime t).withKept h (·.fetchIssue h plane row errs) = s.dev.atTime t :=
    (Dev.withKept_of_none_kept (s.dev.atTime t) h _ hn (congrArg Dev.layers hissue)).trans hissue
  refine ⟨s.dev.atTime t, exec_of_onDev (exec_fetchRowIssue t h plane row errs s) hr ?_ hr, rfl⟩
  rw [hkept, ite_self]

/-- With a free tag and a sound frame store, a row of the one plane of a head is read and judged tile by tile (R20, R166). -/
theorem fetchRowIssue_of_sound {s : State} (t : Nat) {h : Fin 64} {plane : Fin 21} {row : Nat} {p : Plane}
    (hr : s.dev.inReset = false) (hview : (s.dev.headSt h).viewed = true) (hcomp : (s.dev.headSt h).composed = true)
    (hfence : s.dev.fenced .head h = false) (htag : s.dev.tagFree (reqHead h) = true) (hn : noneKept s h)
    (hs : s.dev.soundStore) (hplane : (plane : Nat) < 16) (hplanes : (s.dev.headSt h).planes = [p]) (hslot : p.slot = plane)
    (hheld : p.held = false) (hleft : p.leftOut = false) (hchase : p.chase = false) (hgroup : p.group = none)
    (harea : p.areas.any (fun a => a.1 / 1024 = row) = true)
    (hunread : ∀ f ∈ p.tiles, f.1 / 1024 = row → f.2.read = false) :
    Answers (.fetchRowIssue t h plane row []) s (fun d =>
      (d.headSt h).planes = [{ p with tiles := s.dev.tilesFetched h (s.dev.headSt h).j p (Dev.rowKeys p row) }]) := by
  obtain ⟨d', hrow, hoff⟩ := Dev.fetchRow_of_sound (d := s.dev.atTime t) hs h (s.dev.headSt h).j (s.dev.headSt h).melds
    hheld hleft hchase hgroup harea
  obtain ⟨hfetched, hlayers, hout⟩ := Dev.fetchIssue_of_lone_plane (d := s.dev.atTime t) hview hcomp hfence htag hplane
    hplanes hslot hchase hunread hrow hoff
  refine ⟨_, exec_of_onDev (exec_fetchRowIssue t h plane row [] s) hr ?_ (hout.trans hr), hfetched⟩
  rw [if_pos (show ((s.dev.atTime t).headSt h).viewed = true from hview),
    Dev.withKept_of_none_kept (s.dev.atTime t) h _ hn hlayers]

end Sys2Proof.Machine

open Sys2Proof Sys2Proof.Machine

/-- Settles O29: a running head's sample point alone decides whether it takes a ready hand, the start of a fetch touches its
head alone, and the tiles of a row are judged each by what the sound store holds of it. -/
theorem handsAreTakenAtSamplePoints : Obligations.HandsAreTakenAtSamplePoints := by
  intro s t h hr hs
  refine ⟨?_, ?_, ?_, ?_, ?_, ?_⟩
  · intro hp
    exact exec_of_onDev (exec_handSample t h s) hr (Dev.handSample_of_not_pending (s.dev.atTime t) _ hp) hr
  · intro done hp hdealt hdone hmiss hh hrun hv
    exact handSample_at_sample_point t h hr (Dev.handReady_of_done hp hdealt hdone hmiss) hdone hh hrun hv
  · exact fetchStart_of_viewed t h hr
  · exact fun hview plane row errs => fetchRowIssue_of_not_viewed t h plane row errs hr hview
  · exact fun htag plane row errs hn => fetchRowIssue_of_no_tag t h plane row errs hr htag hn
  · intro hview hcomp hfence htag hn hscrub plane row p q hplane hplanes hslot hheld hleft hchase hslip hgroup hpic _ harea
      hunread hpcs
    obtain ⟨d, hexec, hd⟩ := fetchRowIssue_of_sound t hr hview hcomp hfence htag hn ⟨hscrub, hpcs⟩ hplane hplanes hslot
      hheld hleft hchase hgroup harea hunread
    refine ⟨d, hexec, _, hd, fun f hf hrow hc hr' => ?_⟩
    have hkey : f.1 ∈ Dev.rowKeys p row := List.mem_filter.mpr ⟨List.mem_map_of_mem hf, decide_eq_true hrow⟩
    rw [← Dev.fetchedAs_of_pic hslip hpic hc hr']
    exact Dev.sget_tilesFetched _ _ _ _ hkey
end


section
/-! PROOF. Audits start and freeze, and rebuilds start and end (R49 to R54, R492). Changes of slab owners, the talon's release
and votes for the stacks leave the ledger's live words, the waiting hand and the power requests; so the result that a
rebuild shows in AUDIT_STS stands to its end. -/
namespace Sys2Proof.Machine

/-- A fold whose steps keep a view keeps it. -/
theorem foldl_keeps {α β γ : Type} (v : α → γ) {f : α → β → α} {l : List β} (h : ∀ a, ∀ b ∈ l, v (f a b) = v a)
    (a : α) : v (l.foldl f a) = v a :=
  List.foldlRecOn (motive := fun e => v e = v a) l f rfl (fun e ih b hb => (h e b hb).trans ih)

/-- The live words of the LEDGER page. -/
def ledgerLive (a : Nat) : Bool := 0x342040 ≤ a && a < 0x342400

/-- The live words of the ledger, and the parts of the device that neither a change of slab owners nor a vote touches. -/
structure LedgerSide where
  words : Nat → Word
  fences : List (Nat × List FenceRec)
  hand : HandSt
  units : List (Nat × PowUnit)
  inReset : Bool
  rebuildAsked : Bool
  talonFrozen : Bool
  auditFree : Nat
  auditAlloc : Nat

namespace Dev

/-- The books of the slabs: the maps, the slabs given up, and those in no count or in two (R46). -/
def slabBooks (d : Dev) : List (Nat × List (Option Nat)) × List (Nat × List Nat) × List Nat × Nat :=
  (d.maps, d.releasing, d.leaked, d.overclaim)

def ledgerSide (d : Dev) : LedgerSide :=
  { words := fun a => if ledgerLive a then d.word a else 0, fences := d.fences, hand := d.hand, units := d.units
    inReset := d.inReset, rebuildAsked := d.rebuildAsked, talonFrozen := d.talonFrozen
    auditFree := d.auditFree, auditAlloc := d.auditAlloc }

section
variable {a b : Dev} (h : a.ledgerSide = b.ledgerSide)
include h

theorem ledgerSide_hand : a.hand = b.hand := congrArg LedgerSide.hand h
theorem ledgerSide_units : a.units = b.units := congrArg LedgerSide.units h
theorem ledgerSide_inReset : a.inReset = b.inReset := congrArg LedgerSide.inReset h
theorem ledgerSide_fences : a.fences = b.fences := congrArg LedgerSide.fences h
theorem ledgerSide_rebuildAsked : a.rebuildAsked = b.rebuildAsked := congrArg LedgerSide.rebuildAsked h
theorem ledgerSide_talonFrozen : a.talonFrozen = b.talonFrozen := congrArg LedgerSide.talonFrozen h
theorem ledgerSide_auditFree : a.auditFree = b.auditFree := congrArg LedgerSide.auditFree h
theorem ledgerSide_auditAlloc : a.auditAlloc = b.auditAlloc := congrArg LedgerSide.auditAlloc h

theorem ledgerSide_word {x : Nat} (hx : ledgerLive x = true) : a.word x = b.word x := by
  have hw := congrFun (congrArg LedgerSide.words h) x
  simpa [ledgerSide, hx] using hw

theorem ledgerSide_get {f : Fld} (hf : ledgerLive (f.addr 0 0 0) = true) : a.get f = b.get f := by
  rw [get, get, bitsAt, bitsAt, ledgerSide_word h hf]
end

theorem ledgerSide_of_rest {a b : Dev} (h : a.rest = b.rest) (hw : ∀ x, ledgerLive x = true → a.word x = b.word x) :
    a.ledgerSide = b.ledgerSide := by
  have hwords : a.ledgerSide.words = b.ledgerSide.words := by
    funext x
    by_cases hx : ledgerLive x = true
    · simp [ledgerSide, hx, hw x hx]
    · simp [ledgerSide, hx]
  have hrest : { a.ledgerSide with words := fun _ => 0 } = { b.ledgerSide with words := fun _ => 0 } :=
    congrArg (fun d : Dev => { d.ledgerSide with words := fun _ => 0 }) h
  exact congrArg₂ (fun w (l : LedgerSide) => { l with words := w }) hwords hrest

variable (d : Dev)

/-! Words outside the ledger. -/

theorem ledgerSide_setWord {a : Nat} (v : Word) (ha : ledgerLive a = false) : (d.setWord a v).ledgerSide = d.ledgerSide :=
  ledgerSide_of_rest rfl fun x hx => word_setWord_ne d v (by rintro rfl; simp [ha] at hx)

theorem ledgerSide_putAt {a : Nat} (lo w x : Nat) (ha : ledgerLive a = false) :
    (d.putAt a lo w x).ledgerSide = d.ledgerSide := ledgerSide_setWord d _ ha

theorem ledgerSide_put {f : Fld} (x : Nat) {i k j : Nat} (hf : ledgerLive (f.addr i k j) = false) :
    (d.put f x i k j).ledgerSide = d.ledgerSide := ledgerSide_setWord d _ hf

theorem ledgerSide_count {f : Fld} {i k : Nat} (n : Nat) (hf : ledgerLive (f.addr i k 0) = false) :
    (d.count f i k n).ledgerSide = d.ledgerSide := ledgerSide_setWord d _ hf

theorem ledgerSide_irqSet {r : PageRef} (b : Nat) (hr : ledgerLive (pgAddr r + 0x10) = false) :
    (d.irqSet r b).ledgerSide = d.ledgerSide :=
  ledgerSide_of_rest (irqSet_rest d r b) fun x hx => word_irqSet_ne d r b (by rintro rfl; simp [hr] at hx)

theorem ledgerSide_irq {b : Blk} {i p : Nat} (n : Nat) (hr : ledgerLive (pageAddr b i p + 0x10) = false) :
    (d.irq b i p n).ledgerSide = d.ledgerSide := ledgerSide_irqSet (r := ⟨b, i, p⟩) d _ hr

@[simp] theorem slabBooks_irq (b : Blk) (i p n : Nat) : (d.irq b i p n).slabBooks = d.slabBooks :=
  (congrArg slabBooks (irq_rest d b i p n) :)

/-! Slab maps (R53, R155, R492). -/

/-- The device without the slab maps and what refers to them: pictures, tiles, and bytes of slabs. -/
def offMaps : Dev :=
  { d with maps := [], mapAt := [], oldMaps := [], releasing := [], tiles := [], bytes := [], lostAt := [], ctxs := []
           layers := [], heads := [], melds := [], tsends := [] }

theorem offMaps_setTile (k : Nat) (x : Tile) : (d.setTile k x).offMaps = d.offMaps := rfl

theorem offMaps_fillAt (o k s : Nat) : (d.fillAt o k s).offMaps = d.offMaps := rfl

theorem offMaps_fillEmpty : d.fillEmpty.offMaps = d.offMaps := by
  refine foldl_keeps offMaps (fun e p _ => foldl_keeps offMaps (fun e k _ => ?_) e) d
  split
  · split
    · exact (foldl_keeps offMaps (fun e slot _ => offMaps_setTile e _ _) _).trans (offMaps_fillAt e _ _ _)
    · rfl
  · rfl

theorem ledgerSide_of_offMaps {a b : Dev} (h : a.offMaps = b.offMaps) : a.ledgerSide = b.ledgerSide :=
  (congrArg ledgerSide h :)

theorem ledgerSide_talonUpset (u : SlabUpset) : (d.talonUpset u).ledgerSide = d.ledgerSide := by
  cases u <;> simp only [talonUpset] <;> split <;> rfl

theorem ledgerSide_setMap (o : Nat) (m : List (Option Nat)) : (d.setMap o m).ledgerSide = d.ledgerSide := rfl

theorem ledgerSide_mapPics (f : Pic → Pic) : (d.mapPics f).ledgerSide = d.ledgerSide := rfl

theorem ledgerSide_delayLost (k : Nat) : (d.delayLost k).ledgerSide = d.ledgerSide := rfl

theorem ledgerSide_recordsLost (k : Nat) : (d.recordsLost k).ledgerSide = d.ledgerSide := rfl

theorem ledgerSide_slabLost (o k s : Nat) : (d.slabLost o k s).ledgerSide = d.ledgerSide := by
  have hlost (e : Dev) (l : List (Nat × List Nat)) : ({ e with lostAt := l } : Dev).ledgerSide = e.ledgerSide := rfl
  have hmelds (e : Dev) (l : List (Nat × MeldSt)) : ({ e with melds := l } : Dev).ledgerSide = e.ledgerSide := rfl
  unfold slabLost
  extract_lets slots d0 d1 d2
  have h1 : d1.ledgerSide = d.ledgerSide := (hlost d0 _).trans (ledgerSide_setMap d o _)
  have h2 : d2.ledgerSide = d.ledgerSide := (ledgerSide_mapPics d1 _).trans h1
  split
  · exact (hmelds d2 _).trans h2
  · split
    · exact (ledgerSide_delayLost d2 k).trans h2
    · split
      · exact (ledgerSide_recordsLost d2 k).trans h2
      · exact h2

theorem ledgerSide_slabClaim (s : Nat) : (d.slabClaim s).ledgerSide = d.ledgerSide := by
  unfold slabClaim
  split
  · rfl
  · split
    · refine foldl_keeps ledgerSide (fun e k _ => ?_) d
      rfl
    · dsimp only
      split
      · rfl
      · split <;> rfl
  · exact foldl_keeps ledgerSide (fun e o _ => foldl_keeps ledgerSide (fun e k _ => ledgerSide_slabLost e o k s) e) _

theorem ledgerSide_stageStatus : d.stageStatus.ledgerSide = d.ledgerSide := by
  have hput (held : Nat) (short : Bool) :
      ((d.put F.TALON_HOST_STAGE_STS_HELD held).putB F.TALON_HOST_STAGE_STS_SHORT short).ledgerSide = d.ledgerSide :=
    (ledgerSide_put _ _ (by decide)).trans (ledgerSide_put _ _ (by decide))
  unfold stageStatus
  dsimp only
  split
  · exact (ledgerSide_irq _ _ (by decide)).trans (hput _ _)
  · exact hput _ _

theorem leaked_stageStatus : d.stageStatus.leaked = d.leaked := by
  unfold stageStatus
  dsimp only
  split <;> simp

/-- What a change of slab owners leaves: the ledger's side, and the slabs in no books. -/
def beyondMaps : LedgerSide × List Nat := (d.ledgerSide, d.leaked)

theorem beyondMaps_fillEmpty : d.fillEmpty.beyondMaps = d.beyondMaps := (congrArg beyondMaps (offMaps_fillEmpty d) :)

theorem beyondMaps_stageStatus : d.stageStatus.beyondMaps = d.beyondMaps :=
  congrArg₂ Prod.mk (ledgerSide_stageStatus d) (leaked_stageStatus d)

theorem beyondMaps_releaseSlabs : d.releaseSlabs.beyondMaps = d.beyondMaps :=
  (beyondMaps_stageStatus _).trans (beyondMaps_fillEmpty _)

theorem beyondMaps_stageApply : d.stageApply.beyondMaps = d.beyondMaps := by
  refine (beyondMaps_stageStatus _).trans ((beyondMaps_fillEmpty _).trans ((beyondMaps_stageStatus _).trans ?_))
  dsimp only
  split <;> rfl

theorem beyondMaps_talonServe : d.talonServe.beyondMaps = d.beyondMaps := by
  unfold talonServe
  split
  · rfl
  · refine (foldl_keeps beyondMaps (fun e q _ => ?_) _).trans rfl
    cases q with
    | release => exact beyondMaps_releaseSlabs e
    | stage => exact beyondMaps_stageApply e

/-! Votes of the stacks of HBM (R434 to R438). -/

/-- What a vote of a stack leaves: the ledger's side, and the books of the slabs. -/
def beyondPower : LedgerSide × (List (Nat × List (Option Nat)) × List (Nat × List Nat) × List Nat × Nat) :=
  (d.ledgerSide, d.slabBooks)

theorem beyondPower_put {f : Fld} (x : Nat) {i k j : Nat} (hf : ledgerLive (f.addr i k j) = false) :
    (d.put f x i k j).beyondPower = d.beyondPower := congrArg₂ Prod.mk (ledgerSide_put d x hf) rfl

theorem beyondPower_count {f : Fld} {i k : Nat} (n : Nat) (hf : ledgerLive (f.addr i k 0) = false) :
    (d.count f i k n).beyondPower = d.beyondPower := congrArg₂ Prod.mk (ledgerSide_count d n hf) rfl

theorem beyondPower_irq {b : Blk} {i p : Nat} (n : Nat) (hr : ledgerLive (pageAddr b i p + 0x10) = false) :
    (d.irq b i p n).beyondPower = d.beyondPower := congrArg₂ Prod.mk (ledgerSide_irq d n hr) (slabBooks_irq d b i p n)

theorem beyondPower_setDom (x : Nat) (u : PowUnit) : (d.setDom x u).beyondPower = d.beyondPower := rfl

/-- A word of an array of DOM_STS for a stack lies in the POWER page. -/
theorem ledgerLive_domWord {f : Fld} {x : Nat} (hf : f.addr 0 0 0 < 0x52000) (hs : f.str = 4) (hx : x < 36) :
    ledgerLive (f.addr 0 x 0) = false := by
  have hlow : f.addr 0 x 0 < 0x342040 := by
    simp only [Fld.addr, hs] at hf ⊢
    omega
  simp [ledgerLive, hlow]

variable {x : Nat}

theorem domUnits_stack (h28 : 28 ≤ x) (h32 : x < 32) : domUnits x = [] := by
  have h12 : ¬ x < 12 := by omega
  have h16 : ¬ x < 16 := by omega
  have h24 : ¬ x < 24 := by omega
  have hx28 : ¬ x < 28 := by omega
  have hx32 : x ≠ 32 := by omega
  have hx33 : x ≠ 33 := by omega
  simp [domUnits, *]

theorem beyondPower_domSts {f : Fld} (v : Nat) (hf : f.addr 0 0 0 < 0x52000) (hs : f.str = 4) (h32 : x < 32) :
    (d.put f v 0 x).beyondPower = d.beyondPower :=
  beyondPower_put d v (ledgerLive_domWord hf hs (by omega))

theorem beyondPower_setDomState (v : Nat) (h28 : 28 ≤ x) (h32 : x < 32) :
    (d.setDomState x v).beyondPower = d.beyondPower := by
  unfold setDomState
  rw [domUnits_stack h28 h32]
  split
  · rfl
  · exact (beyondPower_irq _ _ (by decide)).trans
      ((beyondPower_setDom _ _ _).trans (beyondPower_domSts d _ (by decide) (by decide) h32))

theorem beyondPower_tryEnter (h28 : 28 ≤ x) (h32 : x < 32) : (d.tryEnter x).beyondPower = d.beyondPower := by
  unfold tryEnter
  rw [domUnits_stack h28 h32]
  dsimp only
  split
  · exact (beyondPower_count _ _ (by decide)).trans ((beyondPower_domSts _ _ (by decide) (by decide) h32).trans
      ((beyondPower_setDomState _ _ h28 h32).trans (beyondPower_setDom d _ _)))
  · rfl

theorem beyondPower_domEnter (h28 : 28 ≤ x) (h32 : x < 32) : (d.domEnter x).beyondPower = d.beyondPower := by
  unfold domEnter
  rw [domUnits_stack h28 h32]
  dsimp only [List.find?_nil]
  split
  · rfl
  · exact (beyondPower_tryEnter _ h28 h32).trans ((beyondPower_domSts _ _ (by decide) (by decide) h32).trans
      ((beyondPower_domSts _ _ (by decide) (by decide) h32).trans (beyondPower_setDom d _ _)))

theorem beyondPower_domWake (tries : Nat) (h32 : x < 32) : (d.domWake x tries).beyondPower = d.beyondPower := by
  unfold domWake
  split
  · rfl
  · exact (beyondPower_domSts _ _ (by decide) (by decide) h32).trans ((beyondPower_domSts _ _ (by decide) (by decide) h32).trans
      ((beyondPower_domSts _ _ (by decide) (by decide) h32).trans (beyondPower_setDom d _ _)))

theorem beyondPower_voted (old : Nat) (h28 : 28 ≤ x) (h32 : x < 32) : (d.voted x old).beyondPower = d.beyondPower := by
  unfold voted
  dsimp only
  split
  · rfl
  · split
    · exact beyondPower_domEnter d h28 h32
    · split
      · exact (beyondPower_domSts _ _ (by decide) (by decide) h32).trans (beyondPower_setDom d _ _)
      · split
        · exact beyondPower_domWake d _ h32
        · rfl

/-- The votes that a rebuild casts for the four stacks, or withdraws. -/
theorem beyondPower_stackVotes (on : Bool) : (forN 4 d (fun d k => d.fwVoteNow (28 + k) 1 on)).beyondPower = d.beyondPower :=
  foldl_keeps beyondPower (fun e k hk =>
    have := List.mem_range.mp hk
    (beyondPower_voted (x := 28 + k) _ _ (by omega) (by omega)).trans (beyondPower_setDom e _ _)) d

end Dev

/-- A calm device has no hand to sweep and no power request to settle. -/
theorem exec_of_onPow {i : Instr} {s : State} {f : Dev → Dev} {d : Dev} (hi : exec i s = s.onPow f)
    (hr : s.dev.inReset = false) (hf : f s.dev = d) (hc : d.calm) (hd : d.inReset = false) :
    exec i s = .next { s with dev := d } := by
  obtain ⟨hhand, hunits⟩ := hc
  have hwaits : d.units.filter (fun q => q.2.next.isSome) = [] :=
    List.filter_eq_nil_iff.mpr fun q hq => by simp [hunits q hq]
  have hsettle : d.settle = d := by rw [Dev.settle, hwaits, List.foldl_nil]
  have hsweep : d.ctxSweep = d := by simp [Dev.ctxSweep, Dev.handReady, hhand]
  exact exec_of_onDev (f := fun e => (f e).settle.ctxSweep) hi hr (by rw [hf, hsettle, hsweep]) hd

namespace Dev
variable (d : Dev)

/-! A release of the talon (R449, R54). -/

theorem ledgerSide_of_beyondMaps {a b : Dev} (h : a.beyondMaps = b.beyondMaps) : a.ledgerSide = b.ledgerSide :=
  congrArg Prod.fst h

theorem ledgerSide_irqAll_talon (n : Nat) : (d.irqAll .talon 0 0 n).ledgerSide = d.ledgerSide :=
  foldl_keeps ledgerSide (fun e r hr => ledgerSide_irqSet e _ (by
    obtain rfl : r = ⟨.talon, 0, 0⟩ := by simpa [instPages, blkPages] using hr
    decide)) d

theorem beyondMaps_irqAll_talon (n : Nat) : (d.irqAll .talon 0 0 n).beyondMaps = d.beyondMaps :=
  congrArg₂ Prod.mk (ledgerSide_irqAll_talon d n) (irqAll_leaked d _ _ _ _)

theorem beyondMaps_setRelRefused_talon (v : Nat) : (d.setRelRefused .talon 0 0 v).beyondMaps = d.beyondMaps :=
  congrArg₂ Prod.mk (ledgerSide_putAt d 4 1 v (by decide)) rfl

theorem beyondMaps_unitGo_talon : (d.unitGo .talon 0 0).beyondMaps = d.beyondMaps := by
  unfold unitGo
  split
  · rfl
  · exact beyondMaps_talonServe d

theorem beyondMaps_fenceEnds_talon : (d.fenceEnds .talon 0 0).beyondMaps = d.beyondMaps :=
  (beyondMaps_unitGo_talon _).trans
    ((beyondMaps_irqAll_talon (d.setRelRefused .talon 0 0 0) 25).trans (beyondMaps_setRelRefused_talon d 0))

theorem beyondMaps_booksRenew (b : Blk) (i detail : Nat) : (d.booksRenew b i detail).beyondMaps = d.beyondMaps := by
  unfold booksRenew
  split
  · unfold booksAnew
    split
    · rfl
    · cases b <;> rfl
  · rfl

/-- A release of the talon takes the causes that it may, and leaves the rest of the ledger's side. -/
theorem beyondMaps_releaseNow_talon (host met : Bool) :
    ∃ fs, (d.releaseNow .talon 0 0 host met).beyondMaps = ({ d with fences := fs } : Dev).beyondMaps ∧
      sget fenceReset fs (fenceKey .talon 0 0) = (d.recs .talon 0).filter (fun r => !d.removable .talon 0 host met r) := by
  unfold releaseNow
  dsimp only
  split
  next h =>
    have hnone : d.recs .talon 0 = [] := List.isEmpty_iff.mp h
    exact ⟨d.fences, rfl, by rw [hnone]; exact hnone⟩
  next =>
    refine ⟨_, ?_, sget_sset_self fenceReset d.fences (fenceKey .talon 0 0) _⟩
    split
    · refine (foldl_keeps beyondMaps (fun e r _ => rfl) _).trans ((beyondMaps_fenceEnds_talon _).trans ?_)
      exact foldl_keeps beyondMaps (fun e r _ => beyondMaps_booksRenew e _ _ _) _
    · refine (beyondMaps_irqAll_talon _ 30).trans ((beyondMaps_setRelRefused_talon _ 1).trans ?_)
      exact foldl_keeps beyondMaps (fun e r _ => beyondMaps_booksRenew e _ _ _) _

theorem recs_congr {a b : Dev} (h : a.fences = b.fences) (k : Blk) (i p : Nat) : a.recs k i p = b.recs k i p := by
  rw [recs, recs, h]

/-- After a rebuild that passed, a host release leaves the talon neither LEDGER nor REBUILD_FAIL (R54). -/
theorem recs_releaseNow_talon_of_rebuilt (hb : d.rebuilt = true) :
    ∀ q ∈ (d.releaseNow .talon 0 0 true false).recs .talon 0, q.cause ≠ cLedger ∧ q.cause ≠ cRebuild := by
  obtain ⟨fs, hview, hfs⟩ := beyondMaps_releaseNow_talon d true false
  have hrecs : (d.releaseNow .talon 0 0 true false).recs .talon 0 = sget fenceReset fs (fenceKey .talon 0 0) :=
    recs_congr (b := { d with fences := fs }) (ledgerSide_fences (ledgerSide_of_beyondMaps hview)) _ _ _
  intro q hq
  rw [hrecs, hfs, List.mem_filter] at hq
  obtain ⟨-, hkeep⟩ := hq
  constructor
  · intro hc
    simp [removable, hc, hb] at hkeep
  · intro hc
    simp [removable, hc, hb, cLedger, cRebuild] at hkeep

/-! The end of a rebuild (R53, R54, R492). -/

/-- Every slab has been treated, and the empty positions are filled. -/
def slabsTreated (found upsets : List SlabUpset) : Dev :=
  let d := found.foldl talonUpset d
  let d := d.suspects.foldl slabClaim d
  upsets.foldl talonUpset (({ d with leaked := [], overclaim := 0 } : Dev).fillEmpty).stageStatus

/-- The talon-only audit passes: every slab is free or held (R54). -/
abbrev slabsWhole : Prop := d.freeCount + d.heldSlabs.length = slabCount

/-- The registers of the talon-only audit show its result (R54, R55). -/
def resultPut : Dev :=
  let e := (((d.put F.LEDGER_AUDIT_STS_REBUILDING 0).putB F.LEDGER_AUDIT_STS_TALON (!d.slabsWhole)).putB
    F.LEDGER_AUDIT_STS_REBUILD_FAIL (!d.slabsWhole)).putAt (pageAddr .talon 0 0 + 0x38) 1 1 (if d.slabsWhole then 0 else 1)
  (e.put F.LEDGER_TALON_FREE_FREE e.freeCount).put F.LEDGER_TALON_ALLOC_ALLOC e.heldSlabs.length

/-- No host release waits for the rebuild, and its votes for the stacks are withdrawn. -/
def rebuildAnswered : Dev := forN 4 { d with rebuildAsked := false } (fun d k => d.fwVoteNow (28 + k) 1 false)

/-- A rebuild that passed is reported. -/
def rebuildPassed : Dev := ({ d with rebuilt := true } : Dev).irq .ledger 0 0 1

/-- A rebuild that failed is reported, and turns LEDGER into REBUILD_FAIL. -/
def rebuildFailed : Dev :=
  let e := d.irq .ledger 0 0 2
  e.setRecs .talon 0 0 ((e.recs .talon 0).map (fun r => if r.cause = cLedger then { r with cause := cRebuild } else r))

theorem rebuildDone_eq (found upsets : List SlabUpset) (hr : d.flag F.LEDGER_AUDIT_STS_REBUILDING = true) :
    d.rebuildDone found upsets =
      let e := d.slabsTreated found upsets
      if e.slabsWhole then
        if e.resultPut.rebuildAsked || e.resultPut.rebuildAnswered.rebuildPassed.flag F.LEDGER_CTL_AUTO_RELEASE then
          e.resultPut.rebuildAnswered.rebuildPassed.releaseNow .talon 0 0 true false
        else e.resultPut.rebuildAnswered.rebuildPassed
      else if e.resultPut.rebuildAsked then (e.resultPut.rebuildAnswered.rebuildFailed.setRelRefused .talon 0 0 1).irqAll .talon 0 0 30
      else e.resultPut.rebuildAnswered.rebuildFailed := by
  unfold rebuildDone
  rw [if_neg (by simp [hr])]
  rfl

theorem putAt_rest (a lo w x : Nat) : (d.putAt a lo w x).rest = d.rest := rfl

theorem get_putAt_ne (f : Fld) (a lo w x i k j : Nat) (h : f.addr i k j ≠ a) :
    (d.putAt a lo w x).get f i k j = d.get f i k j := get_setWord_ne d f a _ i k j h

theorem slabsWhole_congr {a b : Dev} (h : a.slabBooks = b.slabBooks) : a.slabsWhole ↔ b.slabsWhole := by
  simp only [slabBooks, Prod.mk.injEq] at h
  obtain ⟨hmaps, hrel, hleaked, hover⟩ := h
  simp only [slabsWhole, freeCount, heldSlabs, hmaps, hrel, hleaked, hover]

theorem recs_setRecs_self (b : Blk) (i p : Nat) (l : List FenceRec) : (d.setRecs b i p l).recs b i p = l :=
  sget_sset_self _ _ _ _

theorem ledgerSide_slabsTreated (found upsets : List SlabUpset) : (d.slabsTreated found upsets).ledgerSide = d.ledgerSide := by
  have hupsets (l : List SlabUpset) (e : Dev) : (l.foldl talonUpset e).ledgerSide = e.ledgerSide :=
    foldl_keeps ledgerSide (fun e u _ => ledgerSide_talonUpset e u) e
  have hclaims (l : List Nat) (e : Dev) : (l.foldl slabClaim e).ledgerSide = e.ledgerSide :=
    foldl_keeps ledgerSide (fun e s _ => ledgerSide_slabClaim e s) e
  refine (hupsets _ _).trans ((ledgerSide_stageStatus _).trans ((ledgerSide_of_offMaps (offMaps_fillEmpty _)).trans ?_))
  exact (hclaims _ (found.foldl talonUpset d)).trans (hupsets _ _)

theorem leaked_slabsTreated (found : List SlabUpset) : (d.slabsTreated found []).leaked = [] :=
  congrArg Prod.snd ((beyondMaps_stageStatus _).trans (beyondMaps_fillEmpty
    { found.foldl talonUpset d |>.suspects.foldl slabClaim (found.foldl talonUpset d) with leaked := [], overclaim := 0 }))

theorem resultPut_rest : d.resultPut.rest = d.rest := by
  unfold resultPut
  exact (put_rest _ _ _ _ _ _).trans ((put_rest _ _ _ _ _ _).trans ((putAt_rest _ _ _ _ _).trans
    ((putB_rest _ _ _ _ _).trans ((putB_rest _ _ _ _ _).trans (put_rest _ _ _ _ _ _)))))

theorem resultPut_sts :
    d.resultPut.get F.LEDGER_AUDIT_STS_REBUILDING = 0 ∧
    d.resultPut.get F.LEDGER_AUDIT_STS_TALON = (if d.slabsWhole then 0 else 1) ∧
    d.resultPut.get F.LEDGER_AUDIT_STS_REBUILD_FAIL = (if d.slabsWhole then 0 else 1) ∧
    d.resultPut.get F.LEDGER_CTL_AUTO_RELEASE = d.get F.LEDGER_CTL_AUTO_RELEASE := by
  unfold resultPut
  dsimp only [putB]
  simp (disch := decide) only [get_put_ne, get_putAt_ne, get_put_apart, get_put_self]
  by_cases h : d.slabsWhole <;> simp [h, F.LEDGER_AUDIT_STS_TALON, F.LEDGER_AUDIT_STS_REBUILD_FAIL]

theorem leaked_of_slabBooks {a b : Dev} (h : a.slabBooks = b.slabBooks) : a.leaked = b.leaked := congrArg (fun v => v.2.2.1) h

theorem beyondPower_rebuildAnswered : d.rebuildAnswered.beyondPower = ({ d with rebuildAsked := false } : Dev).beyondPower := by
  unfold rebuildAnswered
  exact beyondPower_stackVotes _ false

theorem ledgerSide_of_beyondPower {a b : Dev} (h : a.beyondPower = b.beyondPower) : a.ledgerSide = b.ledgerSide :=
  congrArg Prod.fst h

theorem slabBooks_rebuildAnswered : d.rebuildAnswered.slabBooks = d.slabBooks :=
  congrArg Prod.snd (beyondPower_rebuildAnswered d)

theorem ledgerSide_rebuildAnswered : d.rebuildAnswered.ledgerSide = { d.ledgerSide with rebuildAsked := false } :=
  congrArg Prod.fst (beyondPower_rebuildAnswered d)

/-- What the end of a rebuild leaves: the ledger's side but for the fences and what was asked, and the slabs in no books. -/
def beyondFences : LedgerSide × List Nat := ({ d.ledgerSide with fences := [], rebuildAsked := false }, d.leaked)

section
variable {a b : Dev}

theorem beyondFences_of_beyondMaps (h : a.beyondMaps = b.beyondMaps) : a.beyondFences = b.beyondFences :=
  congrArg (fun p : LedgerSide × List Nat => ({ p.1 with fences := [], rebuildAsked := false }, p.2)) h

theorem beyondFences_side (h : a.beyondFences = b.beyondFences) :
    ({ a with fences := [], rebuildAsked := false } : Dev).ledgerSide =
      ({ b with fences := [], rebuildAsked := false } : Dev).ledgerSide :=
  congrArg Prod.fst h

theorem beyondFences_hand (h : a.beyondFences = b.beyondFences) : a.hand = b.hand := congrArg (fun p => p.1.hand) h
theorem beyondFences_units (h : a.beyondFences = b.beyondFences) : a.units = b.units := congrArg (fun p => p.1.units) h
theorem beyondFences_inReset (h : a.beyondFences = b.beyondFences) : a.inReset = b.inReset := congrArg (fun p => p.1.inReset) h
theorem beyondFences_leaked (h : a.beyondFences = b.beyondFences) : a.leaked = b.leaked := congrArg Prod.snd h
theorem beyondFences_get (h : a.beyondFences = b.beyondFences) {f : Fld} (hf : ledgerLive (f.addr 0 0 0) = true) :
    a.get f = b.get f := ledgerSide_get (beyondFences_side h) hf
end

theorem beyondFences_rebuildAnswered : d.rebuildAnswered.beyondFences = d.beyondFences := by
  have hleaked : d.rebuildAnswered.leaked = d.leaked := leaked_of_slabBooks (slabBooks_rebuildAnswered d)
  rw [beyondFences, beyondFences, ledgerSide_rebuildAnswered, hleaked]

theorem beyondMaps_irq_ledger (n : Nat) : (d.irq .ledger 0 0 n).beyondMaps = d.beyondMaps :=
  congrArg₂ Prod.mk (ledgerSide_irq d n (by decide)) (irq_leaked d _ _ _ _)

theorem beyondMaps_rebuildPassed : d.rebuildPassed.beyondMaps = d.beyondMaps := by
  unfold rebuildPassed
  exact beyondMaps_irq_ledger _ 1

theorem beyondFences_setRecs (l : List FenceRec) : (d.setRecs .talon 0 0 l).beyondFences = d.beyondFences := rfl

theorem beyondFences_rebuildFailed : d.rebuildFailed.beyondFences = d.beyondFences := by
  unfold rebuildFailed
  exact (beyondFences_setRecs _ _).trans (beyondFences_of_beyondMaps (beyondMaps_irq_ledger d 2))

theorem beyondFences_releaseNow_talon (host met : Bool) :
    (d.releaseNow .talon 0 0 host met).beyondFences = d.beyondFences := by
  obtain ⟨fs, hview, -⟩ := beyondMaps_releaseNow_talon d host met
  exact (beyondFences_of_beyondMaps hview).trans rfl

theorem beyondFences_rebuildDone (found upsets : List SlabUpset) (hr : d.flag F.LEDGER_AUDIT_STS_REBUILDING = true) :
    (d.rebuildDone found upsets).beyondFences = (d.slabsTreated found upsets).resultPut.beyondFences := by
  rw [rebuildDone_eq d found upsets hr]
  have hpassed (e : Dev) : e.rebuildAnswered.rebuildPassed.beyondFences = e.beyondFences :=
    (beyondFences_of_beyondMaps (beyondMaps_rebuildPassed _)).trans (beyondFences_rebuildAnswered e)
  have hfailed (e : Dev) : e.rebuildAnswered.rebuildFailed.beyondFences = e.beyondFences :=
    (beyondFences_rebuildFailed _).trans (beyondFences_rebuildAnswered e)
  dsimp only
  split
  · split
    · exact (beyondFences_releaseNow_talon _ _ _).trans (hpassed _)
    · exact hpassed _
  · split
    · exact (beyondFences_of_beyondMaps
        ((beyondMaps_irqAll_talon _ 30).trans (beyondMaps_setRelRefused_talon _ 1))).trans (hfailed _)
    · exact hfailed _

/-- The end of a rebuild shows whether every slab is free or held (R54). -/
theorem rebuildDone_sts (found upsets : List SlabUpset) (hr : d.flag F.LEDGER_AUDIT_STS_REBUILDING = true) :
    (d.rebuildDone found upsets).get F.LEDGER_AUDIT_STS_REBUILDING = 0 ∧
    (d.rebuildDone found upsets).get F.LEDGER_AUDIT_STS_TALON = (if (d.slabsTreated found upsets).slabsWhole then 0 else 1) ∧
    (d.rebuildDone found upsets).get F.LEDGER_AUDIT_STS_REBUILD_FAIL =
      (if (d.slabsTreated found upsets).slabsWhole then 0 else 1) := by
  have hview := beyondFences_rebuildDone d found upsets hr
  obtain ⟨hrun, htalon, hfail, -⟩ := resultPut_sts (d.slabsTreated found upsets)
  exact ⟨(beyondFences_get hview (by decide)).trans hrun, (beyondFences_get hview (by decide)).trans htalon,
    (beyondFences_get hview (by decide)).trans hfail⟩

theorem rebuildDone_leaked (found upsets : List SlabUpset) (hr : d.flag F.LEDGER_AUDIT_STS_REBUILDING = true) :
    (d.rebuildDone found upsets).leaked = (d.slabsTreated found upsets).leaked :=
  (beyondFences_leaked (beyondFences_rebuildDone d found upsets hr)).trans (rest_leaked (resultPut_rest _))

theorem rebuildDone_calm (found upsets : List SlabUpset) (hr : d.flag F.LEDGER_AUDIT_STS_REBUILDING = true) (hc : d.calm)
    (ho : d.inReset = false) : (d.rebuildDone found upsets).calm ∧ (d.rebuildDone found upsets).inReset = false := by
  have hview := beyondFences_rebuildDone d found upsets hr
  have hput := resultPut_rest (d.slabsTreated found upsets)
  have htreated := ledgerSide_slabsTreated d found upsets
  have hhand : (d.rebuildDone found upsets).hand = d.hand :=
    (beyondFences_hand hview).trans ((rest_hand hput).trans (ledgerSide_hand htreated))
  have hunits : (d.rebuildDone found upsets).units = d.units :=
    (beyondFences_units hview).trans ((rest_units hput).trans (ledgerSide_units htreated))
  have hreset : (d.rebuildDone found upsets).inReset = d.inReset :=
    (beyondFences_inReset hview).trans ((rest_inReset hput).trans (ledgerSide_inReset htreated))
  exact ⟨by rw [calm, hhand, hunits]; exact hc, hreset.trans ho⟩

end Dev

theorem exec_rebuildComplete {s : State} (t : Nat) (found upsets : List SlabUpset) (ho : s.dev.inReset = false)
    (hc : s.dev.calm) (hr : s.dev.flag F.LEDGER_AUDIT_STS_REBUILDING = true) :
    exec (.rebuildComplete t found upsets) s = .next { s with dev := (s.dev.atTime t).rebuildDone found upsets } := by
  obtain ⟨hcalm, hout⟩ := Dev.rebuildDone_calm (s.dev.atTime t) found upsets hr hc ho
  exact exec_of_onPow (f := fun d => (d.atTime t).rebuildDone found upsets) rfl ho rfl hcalm hout

namespace Dev

theorem slabBooks_of_rest {a b : Dev} (h : a.rest = b.rest) : a.slabBooks = b.slabBooks := (congrArg slabBooks h :)

section
variable {d : Dev} (found upsets : List SlabUpset)

theorem resultPut_asked : (d.slabsTreated found upsets).resultPut.rebuildAsked = d.rebuildAsked :=
  (rest_rebuildAsked (resultPut_rest _)).trans (ledgerSide_rebuildAsked (ledgerSide_slabsTreated d found upsets))

theorem rebuildPassed_auto :
    (d.slabsTreated found upsets).resultPut.rebuildAnswered.rebuildPassed.flag F.LEDGER_CTL_AUTO_RELEASE =
      d.flag F.LEDGER_CTL_AUTO_RELEASE := by
  have hpassed := beyondFences_of_beyondMaps (beyondMaps_rebuildPassed (d.slabsTreated found upsets).resultPut.rebuildAnswered)
  have hanswered := beyondFences_rebuildAnswered (d.slabsTreated found upsets).resultPut
  obtain ⟨-, -, -, hauto⟩ := resultPut_sts (d.slabsTreated found upsets)
  rw [flag, flag, beyondFences_get (hpassed.trans hanswered) (by decide), hauto,
    ledgerSide_get (ledgerSide_slabsTreated d found upsets) (by decide)]

theorem slabBooks_resultPut (e : Dev) : e.resultPut.slabBooks = e.slabBooks := slabBooks_of_rest (resultPut_rest e)

theorem fences_rebuildAnswered (e : Dev) : e.rebuildAnswered.fences = e.fences :=
  ledgerSide_fences (b := { e with rebuildAsked := false }) (ledgerSide_of_beyondPower (beyondPower_rebuildAnswered e))

theorem fences_resultPut :
    (d.slabsTreated found upsets).resultPut.rebuildAnswered.fences = d.fences :=
  (fences_rebuildAnswered _).trans
    ((rest_fences (resultPut_rest _)).trans (ledgerSide_fences (ledgerSide_slabsTreated d found upsets)))

variable {found upsets} (hr : d.flag F.LEDGER_AUDIT_STS_REBUILDING = true)
include hr

/-- A rebuild that passes without a release keeps the talon's causes (R54). -/
theorem rebuildDone_of_whole (ha : d.rebuildAsked = false) (hauto : d.flag F.LEDGER_CTL_AUTO_RELEASE = false)
    (hw : (d.slabsTreated found upsets).slabsWhole) :
    d.rebuildDone found upsets = (d.slabsTreated found upsets).resultPut.rebuildAnswered.rebuildPassed := by
  rw [rebuildDone_eq d found upsets hr]
  dsimp only
  rw [if_pos hw, resultPut_asked, rebuildPassed_auto, ha, hauto]
  exact if_neg Bool.false_ne_true

/-- With AUTO_RELEASE a rebuild that passes releases the talon (R54). -/
theorem rebuildDone_of_whole_auto (hauto : d.flag F.LEDGER_CTL_AUTO_RELEASE = true)
    (hw : (d.slabsTreated found upsets).slabsWhole) :
    d.rebuildDone found upsets =
      (d.slabsTreated found upsets).resultPut.rebuildAnswered.rebuildPassed.releaseNow .talon 0 0 true false := by
  rw [rebuildDone_eq d found upsets hr]
  dsimp only
  rw [if_pos hw, rebuildPassed_auto, hauto, Bool.or_true]
  exact if_pos rfl

theorem rebuildDone_of_not_whole (ha : d.rebuildAsked = false) (hw : ¬ (d.slabsTreated found upsets).slabsWhole) :
    d.rebuildDone found upsets = (d.slabsTreated found upsets).resultPut.rebuildAnswered.rebuildFailed := by
  rw [rebuildDone_eq d found upsets hr]
  dsimp only
  rw [if_neg hw, resultPut_asked, ha]
  exact if_neg Bool.false_ne_true
end

theorem rebuildPassed_keeps (d : Dev) :
    d.rebuildPassed.slabBooks = d.slabBooks ∧ d.rebuildPassed.fences = d.fences ∧ d.rebuildPassed.rebuilt = true := by
  unfold rebuildPassed
  exact ⟨slabBooks_irq _ _ _ _ _, irq_fences _ _ _ _ _, irq_rebuilt _ _ _ _ _⟩

theorem rebuildFailed_keeps (d : Dev) :
    d.rebuildFailed.slabBooks = d.slabBooks ∧
      d.rebuildFailed.recs .talon 0 =
        (d.recs .talon 0).map (fun r => if r.cause = cLedger then { r with cause := cRebuild } else r) := by
  have hrecs : (d.irq .ledger 0 0 2).recs .talon 0 = d.recs .talon 0 := recs_congr (irq_fences d _ _ _ _) _ _ _
  unfold rebuildFailed
  exact ⟨slabBooks_irq d _ _ _ _, (recs_setRecs_self _ _ _ _ _).trans (by rw [hrecs])⟩

end Dev

theorem rebuildComplete_shows {s : State} (t : Nat) (found upsets : List SlabUpset) (ho : s.dev.inReset = false)
    (hc : s.dev.calm) (hr : s.dev.flag F.LEDGER_AUDIT_STS_REBUILDING = true) :
    Answers (.rebuildComplete t found upsets) s (fun d => d.get F.LEDGER_AUDIT_STS_REBUILDING = 0 ∧
      (upsets = [] → d.leaked = []) ∧
      ((d.get F.LEDGER_AUDIT_STS_TALON = 1 ∧ d.get F.LEDGER_AUDIT_STS_REBUILD_FAIL = 1) ∨
        (d.get F.LEDGER_AUDIT_STS_TALON = 0 ∧ d.get F.LEDGER_AUDIT_STS_REBUILD_FAIL = 0))) := by
  refine ⟨_, exec_rebuildComplete t found upsets ho hc hr, ?_⟩
  obtain ⟨hrun, htalon, hfail⟩ := Dev.rebuildDone_sts (s.dev.atTime t) found upsets hr
  refine ⟨hrun, ?_, ?_⟩
  · rintro rfl
    exact (Dev.rebuildDone_leaked (s.dev.atTime t) found [] hr).trans (Dev.leaked_slabsTreated _ _)
  · rw [htalon, hfail]
    split
    · exact .inr ⟨rfl, rfl⟩
    · exact .inl ⟨rfl, rfl⟩

/-- Without a release the audit decides alone (R54). -/
theorem rebuildComplete_of_not_asked {s : State} (t : Nat) (found upsets : List SlabUpset) (ho : s.dev.inReset = false)
    (hc : s.dev.calm) (hr : s.dev.flag F.LEDGER_AUDIT_STS_REBUILDING = true) (ha : s.dev.rebuildAsked = false)
    (hauto : s.dev.flag F.LEDGER_CTL_AUTO_RELEASE = false) :
    Answers (.rebuildComplete t found upsets) s (fun d =>
      (¬ d.slabsWhole → (d.get F.LEDGER_AUDIT_STS_TALON = 1 ∧ d.get F.LEDGER_AUDIT_STS_REBUILD_FAIL = 1) ∧
        d.recs .talon 0 =
          (s.dev.recs .talon 0).map (fun q => if q.cause = cLedger then { q with cause := cRebuild } else q)) ∧
      (d.slabsWhole → (d.get F.LEDGER_AUDIT_STS_TALON = 0 ∧ d.get F.LEDGER_AUDIT_STS_REBUILD_FAIL = 0) ∧
        d.fences = s.dev.fences ∧ d.rebuilt = true)) := by
  refine ⟨_, exec_rebuildComplete t found upsets ho hc hr, ?_⟩
  obtain ⟨-, htalon, hfail⟩ := Dev.rebuildDone_sts (s.dev.atTime t) found upsets hr
  have hfences := Dev.fences_resultPut (d := s.dev.atTime t) found upsets
  have hshown := (Dev.slabBooks_rebuildAnswered _).trans (Dev.slabBooks_resultPut ((s.dev.atTime t).slabsTreated found upsets))
  by_cases hw : ((s.dev.atTime t).slabsTreated found upsets).slabsWhole
  · rw [if_pos hw] at htalon hfail
    obtain ⟨hbooks, hkept, hrebuilt⟩ :=
      Dev.rebuildPassed_keeps ((s.dev.atTime t).slabsTreated found upsets).resultPut.rebuildAnswered
    have hd := Dev.rebuildDone_of_whole (d := s.dev.atTime t) hr ha hauto hw
    have hwhole := (Dev.slabsWhole_congr (hbooks.trans hshown)).mpr hw
    rw [← hd] at hkept hrebuilt hwhole
    exact ⟨fun h => absurd hwhole h, fun _ => ⟨⟨htalon, hfail⟩, hkept.trans hfences, hrebuilt⟩⟩
  · rw [if_neg hw] at htalon hfail
    obtain ⟨hbooks, hrecs⟩ := Dev.rebuildFailed_keeps ((s.dev.atTime t).slabsTreated found upsets).resultPut.rebuildAnswered
    have hd := Dev.rebuildDone_of_not_whole (d := s.dev.atTime t) hr ha hw
    have hnot := mt (Dev.slabsWhole_congr (hbooks.trans hshown)).mp hw
    rw [← hd] at hrecs hnot
    rw [Dev.recs_congr hfences] at hrecs
    exact ⟨fun _ => ⟨⟨htalon, hfail⟩, hrecs⟩, fun h => absurd h hnot⟩

/-- With AUTO_RELEASE a pass releases the talon (R54). -/
theorem rebuildComplete_of_auto {s : State} (t : Nat) (found upsets : List SlabUpset) (ho : s.dev.inReset = false)
    (hc : s.dev.calm) (hr : s.dev.flag F.LEDGER_AUDIT_STS_REBUILDING = true)
    (hauto : s.dev.flag F.LEDGER_CTL_AUTO_RELEASE = true) :
    Answers (.rebuildComplete t found upsets) s (fun d =>
      (d.get F.LEDGER_AUDIT_STS_TALON = 1 ∧ d.get F.LEDGER_AUDIT_STS_REBUILD_FAIL = 1) ∨
      ((d.get F.LEDGER_AUDIT_STS_TALON = 0 ∧ d.get F.LEDGER_AUDIT_STS_REBUILD_FAIL = 0) ∧
        ∀ q ∈ d.recs .talon 0, q.cause ≠ cLedger ∧ q.cause ≠ cRebuild)) := by
  refine ⟨_, exec_rebuildComplete t found upsets ho hc hr, ?_⟩
  obtain ⟨-, htalon, hfail⟩ := Dev.rebuildDone_sts (s.dev.atTime t) found upsets hr
  by_cases hw : ((s.dev.atTime t).slabsTreated found upsets).slabsWhole
  · rw [if_pos hw] at htalon hfail
    have hd := Dev.rebuildDone_of_whole_auto (d := s.dev.atTime t) hr hauto hw
    obtain ⟨-, -, hrebuilt⟩ :=
      Dev.rebuildPassed_keeps ((s.dev.atTime t).slabsTreated found upsets).resultPut.rebuildAnswered
    have hrecs := Dev.recs_releaseNow_talon_of_rebuilt _ hrebuilt
    rw [← hd] at hrecs
    exact .inr ⟨⟨htalon, hfail⟩, hrecs⟩
  · rw [if_neg hw] at htalon hfail
    exact .inl ⟨htalon, hfail⟩

/-! The start of a rebuild (R53, R54). -/

namespace Dev

theorem rebuildStart_of_due {d : Dev} (hfw : d.flag F.GLOBAL_STS_FW_HEALTHY = true)
    (hrun : d.flag F.LEDGER_AUDIT_STS_REBUILDING = false) (hb : d.rebuilt = false)
    (hcause : if d.hasCause .talon 0 0 cRebuild = true then d.rebuildAsked = true else d.hasCause .talon 0 0 cLedger = true) :
    d.rebuildStart = forN 4 (d.put F.LEDGER_AUDIT_STS_REBUILDING 1) (fun d k => d.fwVoteNow (28 + k) 1 true) := by
  unfold rebuildStart
  rw [if_pos]
  split at hcause <;> simp [fwUp, *]

theorem rebuildStart_of_not_asked {d : Dev} (hc : d.hasCause .talon 0 0 cRebuild = true) (ha : d.rebuildAsked = false) :
    d.rebuildStart = d := by
  simp [rebuildStart, hc, ha]

end Dev

theorem talonRebuild_of_due {s : State} (t : Nat) (ho : s.dev.inReset = false)
    (hfw : s.dev.flag F.GLOBAL_STS_FW_HEALTHY = true) (hrun : s.dev.flag F.LEDGER_AUDIT_STS_REBUILDING = false)
    (hb : s.dev.rebuilt = false)
    (hcause : if s.dev.hasCause .talon 0 0 cRebuild = true then s.dev.rebuildAsked = true
      else s.dev.hasCause .talon 0 0 cLedger = true) :
    Answers (.talonRebuild t) s (fun d => d.get F.LEDGER_AUDIT_STS_REBUILDING = 1) := by
  have hvotes := Dev.beyondPower_stackVotes ((s.dev.atTime t).put F.LEDGER_AUDIT_STS_REBUILDING 1) true
  have hside := Dev.ledgerSide_of_beyondPower hvotes
  refine ⟨_, exec_of_onDev (f := fun d => (d.atTime t).rebuildStart) rfl ho
    (Dev.rebuildStart_of_due (d := s.dev.atTime t) hfw hrun hb hcause)
    ((Dev.ledgerSide_inReset hside).trans ((Dev.put_inReset _ _ _ _ _ _).trans ho)), ?_⟩
  exact (Dev.ledgerSide_get hside (by decide)).trans (Dev.get_put_self _ _ _ _ _ _ (by decide))

theorem talonRebuild_of_not_asked {s : State} (t : Nat) (ho : s.dev.inReset = false)
    (hc : s.dev.hasCause .talon 0 0 cRebuild = true) (ha : s.dev.rebuildAsked = false) :
    exec (.talonRebuild t) s = .next { s with dev := s.dev.atTime t } :=
  exec_of_onDev (f := fun d => (d.atTime t).rebuildStart) rfl ho (Dev.rebuildStart_of_not_asked (d := s.dev.atTime t) hc ha) ho

namespace Dev

/-! The start of an audit (R49 to R51). -/

theorem auditRun_of_free {d : Dev} (hb : d.flag F.LEDGER_AUDIT_STS_BUSY = false) (hd : d.auditDue = none) :
    d.auditRun = { d with auditDue := some ((d.house + 2999) / 1000 * 1000) } := by
  simp [auditRun, hb, hd]

theorem auditRun_of_taken {d : Dev} (h : d.flag F.LEDGER_AUDIT_STS_BUSY = true ∨ d.auditDue ≠ none) : d.auditRun = d := by
  rcases h with hb | hd
  · simp [auditRun, hb]
  · simp [auditRun, Option.ne_none_iff_isSome.mp hd]

/-- An audit at `e` is in progress, and every owner has latched its books (R45, R50). -/
def auditBegun (d : Dev) (e : Nat) : Dev :=
  { d.put F.LEDGER_AUDIT_STS_BUSY 1 with
    auditE := e, auditRegs := d.auditLatch, auditNoTalon := d.flag F.LEDGER_AUDIT_STS_REBUILDING
    talonFrozen := !d.flag F.LEDGER_AUDIT_STS_REBUILDING }

theorem auditEvent_of_asked {d : Dev} {t e : Nat} (hdue : d.auditDue = some e) (ht : e ≤ t)
    (hp : d.flag F.LEDGER_AUDIT_CTL_PERIODIC = false) (hb : d.flag F.LEDGER_AUDIT_STS_BUSY = false) :
    d.auditEvent t = ({ d with auditDue := none } : Dev).auditBegun e := by
  have hb' : ({ d with auditDue := none } : Dev).flag F.LEDGER_AUDIT_STS_BUSY = false := hb
  simp [auditEvent, auditBegun, hdue, ht, hp, hb', Option.filter]

/-- With none asked for, a whole second starts an audit, or is counted where one is in progress. -/
theorem auditEvent_of_second {d : Dev} {t : Nat} (hdue : d.auditDue = none)
    (hp : d.flag F.LEDGER_AUDIT_CTL_PERIODIC = true) (ht : d.auditSecond < t / 1000000000) :
    d.auditEvent t =
      if d.flag F.LEDGER_AUDIT_STS_BUSY then ({ d with auditSecond := t / 1000000000 } : Dev).count F.LEDGER_AUDIT_SKIP
      else ({ d with auditSecond := t / 1000000000 } : Dev).auditBegun (t / 1000000000 * 1000000000) := by
  simp only [auditEvent, hdue, hp, ht, Option.filter_none, Option.elim_none, decide_true, Bool.and_true, if_true]
  rfl

theorem auditBegun_regs (d : Dev) (e : Nat) : (d.auditBegun e).regs = (d.put F.LEDGER_AUDIT_STS_BUSY 1).regs := by
  rw [auditBegun]

theorem auditBegun_keeps (d : Dev) (e : Nat) :
    (d.auditBegun e).inReset = d.inReset ∧ (d.auditBegun e).auditDue = d.auditDue ∧
      (d.auditBegun e).auditSecond = d.auditSecond ∧ (d.auditBegun e).maps = d.maps ∧
      (d.auditBegun e).freeCount = d.freeCount := by
  unfold auditBegun
  simp [freeCount, heldSlabs]

theorem auditBegun_busy (d : Dev) (e : Nat) : (d.auditBegun e).get F.LEDGER_AUDIT_STS_BUSY = 1 := by
  rw [get, bitsAt, word_congr (auditBegun_regs d e)]
  exact get_put_self d F.LEDGER_AUDIT_STS_BUSY 1 0 0 0 (by decide)

theorem auditBegun_words (d : Dev) (e : Nat) : d.keeps (d.auditBegun e) [0x342048] := fun a ha =>
  (word_congr (auditBegun_regs d e) a).trans (word_put_ne d F.LEDGER_AUDIT_STS_BUSY 1 0 0 0 (List.ne_of_not_mem_cons ha))

/-- A tag pool is latched as it stands (R50). -/
theorem tags_mem_auditLatch (d : Dev) (p : Fin 20) : BookRead.tags p (d.pool p).free (d.pool p).out ∈ d.auditLatch := by
  have hpool : BookRead.tags p (d.pool p).free (d.pool p).out ∈
      (List.finRange 20).map (fun p => BookRead.tags p (d.pool p).free (d.pool p).out) :=
    List.mem_map_of_mem (f := fun p : Fin 20 => BookRead.tags p (d.pool p).free (d.pool p).out) (List.mem_finRange p)
  simp only [auditLatch, List.append_assoc]
  exact List.mem_append_left _ hpool

/-- The freeze is over, and the talon's counts are latched (R50). -/
def countsLatched (d : Dev) : Dev :=
  { d with talonFrozen := false, auditFree := d.freeCount, auditAlloc := d.heldSlabs.length }

theorem freezeEnd_of_frozen {d : Dev} (hf : d.talonFrozen = true) : d.freezeEnd = d.countsLatched.talonServe := by
  simp [freezeEnd, countsLatched, hf]

theorem ledgerSide_talonServe (d : Dev) : d.talonServe.ledgerSide = d.ledgerSide :=
  ledgerSide_of_beyondMaps (beyondMaps_talonServe d)

theorem freezeEnd_of_not_frozen {d : Dev} (hf : d.talonFrozen = false) : d.freezeEnd = d := by simp [freezeEnd, hf]
end Dev

theorem exec_auditRun {s : State} {t : Nat} {d : Dev} (ht : s.takesAt t ⟨.ledger, 0, 0⟩)
    (hd : (s.dev.atTime t).auditRun = d) (hout : d.inReset = false) : exec (.auditRun t) s = .next { s with dev := d } := by
  obtain ⟨⟨ho, hreach, hpage⟩, hpower⟩ := ht
  exact exec_of_onDev (f := fun d => (d.atTime t).gate Dev.ledgerPage 0x40 (·.auditRun)) rfl ho
    ((Dev.gate_eq _ _ _ _ hreach hpage hpower).trans hd) hout

theorem exec_auditEvent {s : State} {t : Nat} {d : Dev} (ho : s.dev.inReset = false)
    (hd : (s.dev.atTime t).auditEvent t = d) (hout : d.inReset = false) :
    exec (.auditEvent t) s = .next { s with dev := d } :=
  exec_of_onDev (f := fun d => (d.atTime t).auditEvent t) rfl ho hd hout

theorem auditEvent_of_asked {s : State} {t e : Nat} (ho : s.dev.inReset = false) (hdue : s.dev.auditDue = some e) (ht : e ≤ t)
    (hp : s.dev.flag F.LEDGER_AUDIT_CTL_PERIODIC = false) (hb : s.dev.flag F.LEDGER_AUDIT_STS_BUSY = false)
    (hrun : s.dev.flag F.LEDGER_AUDIT_STS_REBUILDING = false) :
    Answers (.auditEvent t) s (fun d => d.get F.LEDGER_AUDIT_STS_BUSY = 1 ∧ d.auditE = e ∧ d.talonFrozen = true ∧
      d.auditDue = none ∧ s.dev.keeps d [0x342048] ∧ d.maps = s.dev.maps ∧ d.freeCount = s.dev.freeCount ∧
      ∀ p : Fin 20, BookRead.tags p (s.dev.pool p).free (s.dev.pool p).out ∈ d.auditRegs) := by
  obtain ⟨hout, hdone, -, hmaps, hfree⟩ := Dev.auditBegun_keeps ({ s.dev.atTime t with auditDue := none } : Dev) e
  exact ⟨_, exec_auditEvent ho (Dev.auditEvent_of_asked (d := s.dev.atTime t) hdue ht hp hb) (hout.trans ho),
    Dev.auditBegun_busy _ e, rfl, congrArg not hrun, hdone, Dev.auditBegun_words _ e, hmaps, hfree, Dev.tags_mem_auditLatch _⟩

theorem auditEvent_of_second {s : State} {t : Nat} (ho : s.dev.inReset = false) (hdue : s.dev.auditDue = none)
    (hp : s.dev.flag F.LEDGER_AUDIT_CTL_PERIODIC = true) (ht : s.dev.auditSecond < t / 1000000000)
    (hb : s.dev.flag F.LEDGER_AUDIT_STS_BUSY = false) :
    Answers (.auditEvent t) s (fun d => d.get F.LEDGER_AUDIT_STS_BUSY = 1 ∧ d.auditE = t / 1000000000 * 1000000000 ∧
      d.auditSecond = t / 1000000000 ∧ d.talonFrozen = !s.dev.flag F.LEDGER_AUDIT_STS_REBUILDING ∧ s.dev.keeps d [0x342048]) := by
  have he := (Dev.auditEvent_of_second (d := s.dev.atTime t) hdue hp ht).trans (if_neg (Bool.eq_false_iff.mp hb))
  obtain ⟨hout, -, hsec, -⟩ := Dev.auditBegun_keeps ({ s.dev.atTime t with auditSecond := t / 1000000000 } : Dev)
    (t / 1000000000 * 1000000000)
  exact ⟨_, exec_auditEvent ho he (hout.trans ho), Dev.auditBegun_busy _ _, rfl, hsec, rfl, Dev.auditBegun_words _ _⟩

/-- A whole second that comes while an audit is in progress is skipped (R50). -/
theorem auditEvent_of_busy {s : State} {t : Nat} (ho : s.dev.inReset = false) (hdue : s.dev.auditDue = none)
    (hp : s.dev.flag F.LEDGER_AUDIT_CTL_PERIODIC = true) (ht : s.dev.auditSecond < t / 1000000000)
    (hb : s.dev.flag F.LEDGER_AUDIT_STS_BUSY = true) :
    Answers (.auditEvent t) s (fun d => d.get F.LEDGER_AUDIT_SKIP = min (s.dev.get F.LEDGER_AUDIT_SKIP + 1) 0xFFFFFFFF ∧
      d.auditE = s.dev.auditE ∧ s.dev.keeps d [0x342064]) := by
  have he := (Dev.auditEvent_of_second (d := s.dev.atTime t) hdue hp ht).trans (if_pos hb)
  exact ⟨_, exec_auditEvent ho he ((Dev.count_inReset _ _ _ _ _).trans ho), Dev.get_count_self _ _ _ _ _ (by decide),
    Dev.count_auditE _ _ _ _ _, fun a ha => Dev.word_count_ne _ F.LEDGER_AUDIT_SKIP 0 0 1 (List.ne_of_not_mem_cons ha)⟩

theorem talonFreezeEnd_of_frozen {s : State} (t : Nat) (ho : s.dev.inReset = false) (hf : s.dev.talonFrozen = true) :
    Answers (.talonFreezeEnd t) s (fun d => d.talonFrozen = false ∧ d.auditFree = s.dev.freeCount ∧
      d.auditAlloc = s.dev.heldSlabs.length) := by
  have hserve := Dev.ledgerSide_talonServe (s.dev.atTime t).countsLatched
  exact ⟨_, exec_of_onDev (f := fun d => (d.atTime t).freezeEnd) rfl ho (Dev.freezeEnd_of_frozen (d := s.dev.atTime t) hf)
    ((Dev.ledgerSide_inReset hserve).trans ho), Dev.ledgerSide_talonFrozen hserve, Dev.ledgerSide_auditFree hserve,
    Dev.ledgerSide_auditAlloc hserve⟩

theorem talonFreezeEnd_of_not_frozen {s : State} (t : Nat) (ho : s.dev.inReset = false) (hf : s.dev.talonFrozen = false) :
    exec (.talonFreezeEnd t) s = .next { s with dev := s.dev.atTime t } :=
  exec_of_onDev (f := fun d => (d.atTime t).freezeEnd) rfl ho (Dev.freezeEnd_of_not_frozen (d := s.dev.atTime t) hf) ho

end Sys2Proof.Machine

open Sys2Proof Sys2Proof.Machine

theorem audits_start_and_freeze : auditsStartAndFreeze := by
  refine ⟨?_, ?_, ?_, ?_, ?_, ?_, ?_⟩
  · intro s t ht hb hdue
    exact exec_auditRun ht (Dev.auditRun_of_free (d := s.dev.atTime t) hb hdue) ht.1.1
  · intro s t ht h
    exact exec_auditRun ht (Dev.auditRun_of_taken (d := s.dev.atTime t) h) ht.1.1
  · exact fun s t e ho hdue ht hp hb hrun => auditEvent_of_asked ho hdue ht hp hb hrun
  · exact fun s t ho hdue hp ht hb => auditEvent_of_second ho hdue hp ht hb
  · exact fun s t ho hdue hp ht hb => auditEvent_of_busy ho hdue hp ht hb
  · exact fun s t ho hf => talonFreezeEnd_of_frozen t ho hf
  · exact fun s t ho hf => talonFreezeEnd_of_not_frozen t ho hf

theorem rebuilds_start_and_end : rebuildsStartAndEnd := by
  refine ⟨?_, ?_, ?_, ?_, ?_⟩
  · exact fun s t ho hfw hrun hb hcause => talonRebuild_of_due t ho hfw hrun hb hcause
  · exact fun s t ho hc ha => talonRebuild_of_not_asked t ho hc ha
  · exact fun s t found upsets ho hc hr => rebuildComplete_shows t found upsets ho hc hr
  · exact fun s t found upsets ho hc hr ha hauto => rebuildComplete_of_not_asked t found upsets ho hc hr ha hauto
  · exact fun s t found upsets ho hc hr hauto => rebuildComplete_of_auto t found upsets ho hc hr hauto

/-- Settles O17: an audit starts at the instant asked for or at a whole second, and the registers of the ledger stand apart from
the slab maps and the power votes that a rebuild changes. -/
theorem auditsAndRebuilds : Obligations.AuditsAndRebuilds :=
  ⟨audits_start_and_freeze, rebuilds_start_and_end⟩
end

section
/-! PROOF. A report of an audit need not stand (R52, R55, R451): the fence of an engine makes the engines of its layers show their
jobs anew, and the numbers that ENG_CTL gives them may pass the engines of the map, into the pages of the ledger. -/
namespace Sys2Proof.Machine

theorem dvd_pageAddr (b : Blk) (i p : Nat) : 0x1000 ∣ pageAddr b i p := by
  have hbase : 0x1000 ∣ blkBase b := by cases b <;> decide
  exact Nat.dvd_add (Nat.dvd_add hbase ((Nat.dvd_mul_left _ _).mul_left _)) (Nat.dvd_mul_left _ _)

namespace Dev

/-- The hand, power, and the words of the device outside a set of addresses. -/
def outside (S : Nat → Bool) (d : Dev) : HandSt × List (Nat × PowUnit) × List (Nat × PowUnit) × Bool × (Nat → Word) :=
  (d.hand, d.units, d.doms, d.inReset, fun a => if S a then 0 else d.word a)

section
variable {S : Nat → Bool} {a b : Dev}

theorem outside_of_rest (h : a.rest = b.rest) (hw : ∀ x, S x = false → a.word x = b.word x) : a.outside S = b.outside S := by
  have hwords : (fun x => if S x then 0 else a.word x) = fun x => if S x then 0 else b.word x := by
    funext x
    by_cases hx : S x = true
    · simp [hx]
    · simp [hx, hw x (Bool.eq_false_iff.mpr hx)]
  rw [outside, outside, rest_hand h, rest_units h, rest_doms h, rest_inReset h, hwords]

theorem outside_setWord (d : Dev) {x : Nat} (v : Word) (hx : S x = true) : (d.setWord x v).outside S = d.outside S :=
  outside_of_rest rfl fun y hy => word_setWord_ne d v (by rintro rfl; simp [hx] at hy)

theorem outside_put (d : Dev) {f : Fld} (v : Nat) {i k j : Nat} (hf : S (f.addr i k j) = true) :
    (d.put f v i k j).outside S = d.outside S :=
  outside_setWord d _ hf

theorem outside_irqSet (d : Dev) (r : PageRef) (bits : Nat) (hr : S (pgAddr r + 0x10) = true) :
    (d.irqSet r bits).outside S = d.outside S :=
  outside_of_rest (irqSet_rest d r bits) fun y hy => word_irqSet_ne d r bits (by rintro rfl; simp [hr] at hy)

variable (h : a.outside S = b.outside S)
include h

theorem outside_hand : a.hand = b.hand := congrArg (·.1) h
theorem outside_units : a.units = b.units := congrArg (·.2.1) h
theorem outside_doms : a.doms = b.doms := congrArg (·.2.2.1) h
theorem outside_inReset : a.inReset = b.inReset := congrArg (·.2.2.2.1) h

theorem outside_word {x : Nat} (hx : S x = false) : a.word x = b.word x := by
  have hw := congrFun (congrArg (·.2.2.2.2) h) x
  simpa [outside, hx] using hw

theorem outside_mono {T : Nat → Bool} (hST : ∀ x, T x = false → S x = false) : a.outside T = b.outside T := by
  have hwords : (fun x => if T x then 0 else a.word x) = fun x => if T x then 0 else b.word x := by
    funext x
    by_cases hx : T x = true
    · simp [hx]
    · simp [hx, outside_word h (hST x (Bool.eq_false_iff.mpr hx))]
  rw [outside, outside, outside_hand h, outside_units h, outside_doms h, outside_inReset h, hwords]
end

end Dev

/-! The report of an audit (R50, R52, R55). -/

/-- The words that the report of an audit may write: the LEDGER page, and the LEDGER word of every page that owns books. -/
def reportWord (a : Nat) : Bool := a / 0x1000 = 0x342 || a % 0x1000 = 0x38

namespace Dev

/-- What the report of an audit leaves: layers, fences, the hand, power, and every word that it does not write. -/
def besideReport (d : Dev) : List (Nat × LayerSt) × List (Nat × List FenceRec) ×
    (HandSt × List (Nat × PowUnit) × List (Nat × PowUnit) × Bool × (Nat → Word)) :=
  (d.layers, d.fences, d.outside reportWord)

section
variable {a b : Dev} (h : a.besideReport = b.besideReport)
include h

theorem besideReport_layers : a.layers = b.layers := congrArg (·.1) h
theorem besideReport_fences : a.fences = b.fences := congrArg (·.2.1) h
theorem besideReport_outside : a.outside reportWord = b.outside reportWord := congrArg (·.2.2) h
end

section
variable (d : Dev)

theorem besideReport_setWord {a : Nat} (v : Word) (ha : reportWord a = true) : (d.setWord a v).besideReport = d.besideReport :=
  congrArg (fun q => (d.layers, d.fences, q)) (outside_setWord d v ha)

theorem besideReport_put {f : Fld} (x : Nat) (hf : reportWord (f.addr 0 0 0) = true) :
    (d.put f x).besideReport = d.besideReport := besideReport_setWord d _ hf

theorem besideReport_put64 {f : Fld} (x : Nat) (hf : reportWord (f.addr 0 0 0) = true) (hf' : reportWord (f.addr 0 0 0 + 4) = true) :
    (d.put64 f x).besideReport = d.besideReport :=
  (besideReport_setWord _ _ hf').trans (besideReport_setWord d _ hf)

theorem snapFault_of_masked (bit : Nat) (b : Blk) (i : Nat) (h : d.get F.SNAP_FAULT_MASK_MASK = 0) : d.snapFault bit b i = d := by
  simp [snapFault, h, bitsOf]

theorem besideReport_irq_ledger (n : Nat) : (d.irq .ledger 0 0 n).besideReport = d.besideReport := by
  have hrest := irq_rest d .ledger 0 0 n
  rw [besideReport, besideReport, rest_layers hrest, rest_fences hrest, irq, outside_irqSet d _ _ (by decide)]

theorem besideReport_bookStays (b : BookRead) : (d.bookStays b).besideReport = d.besideReport := by
  have htags (m : List (Nat × TagPool)) : ({ d with tags := m } : Dev).besideReport = d.besideReport := rfl
  have hchans (m : List (Nat × Chan)) : ({ d with chans := m } : Dev).besideReport = d.besideReport := rfl
  have hchain (m n : Nat) : ({ d with witHanded := m, witChained := n } : Dev).besideReport = d.besideReport := rfl
  unfold bookStays
  split
  · exact htags _
  · exact hchain _ _
  · exact hchans _
  · rfl

theorem besideReport_auditRegs (l : List BookRead) (m n : Nat) :
      ({ d with auditRegs := l, auditFree := m, auditAlloc := n } : Dev).besideReport = d.besideReport := rfl

theorem auditFound_nil : d.auditFound [] = { d with
    auditRegs := d.auditRegs.filter (fun _ => true), auditFree := d.auditFree + d.freeCount - d.freeCount
    auditAlloc := d.auditAlloc + d.heldSlabs.length - d.heldSlabs.length } := by
  rw [auditFound]
  rfl

theorem besideReport_auditFound_nil : (d.auditFound []).besideReport = d.besideReport := by
  rw [auditFound_nil]
  exact besideReport_auditRegs d _ _ _

theorem reportWord_ledgerHeader (r : PageRef) : reportWord (pgAddr r + 0x38) = true := by
  have hpage : pgAddr r % 0x1000 = 0 := Nat.mod_eq_zero_of_dvd (dvd_pageAddr r.blk r.inst r.page)
  have : (pgAddr r + 0x38) % 0x1000 = 0x38 := by omega
  simp [reportWord, this]

theorem reportWord_bookBit (b : Books) : reportWord ((bookBit b).addr 0 0 0) = true := by
  cases b <;> rw [bookBit] <;> decide

/-- An audit that finds failing books reports them, and then fences their owners (R52). -/
theorem auditComplete_of_failing (hb : d.flag F.LEDGER_AUDIT_STS_BUSY = true)
    (hf : d.talonFrozen = false) (hne : (d.auditFound []).auditFailing ≠ []) (hmask : d.get F.SNAP_FAULT_MASK_MASK = 0) :
    ∃ e : Dev, e.besideReport = d.besideReport ∧ d.auditComplete [] = (d.auditFound []).auditFailing.foldl bookFence e := by
  unfold auditComplete
  rw [if_neg (by simp [hb, hf])]
  extract_lets z failing d1 d2 d3 d4 d5 d6 hit audio seq d7
  rw [if_neg (by simpa [failing, z] using hne)]
  have hstays : d1.besideReport = d.besideReport :=
    (foldl_keeps besideReport (fun e b _ => besideReport_bookStays e b) z).trans (besideReport_auditFound_nil d)
  have htimed : d2.besideReport = d1.besideReport :=
    (besideReport_put _ _ (by decide)).trans
      ((besideReport_put64 _ _ (by decide) (by decide)).trans (besideReport_put _ _ (by decide)))
  have htalon : d3.besideReport = d2.besideReport := by
    by_cases hn : d2.auditNoTalon = true
    · rw [show d3 = d2 from if_pos hn]
    · rw [show d3 = _ from if_neg hn]
      exact (besideReport_put _ _ (by decide)).trans ((besideReport_put _ _ (by decide)).trans (besideReport_put _ _ (by decide)))
  have hclear : d4.besideReport = d3.besideReport := foldl_keeps besideReport (fun e f hf => besideReport_put e 0 (by
    revert f
    decide)) d3
  have hbits : d5.besideReport = d4.besideReport := foldl_keeps besideReport (fun e b _ => besideReport_put e 1 (reportWord_bookBit b)) d4
  have hfirst : d6.besideReport = d5.besideReport := besideReport_put _ _ (by decide)
  have hpages : d7.besideReport = d6.besideReport := by
    refine foldl_keeps besideReport (fun e r _ => ?_) d6
    split
    · rfl
    · exact (besideReport_setWord _ _ (reportWord_ledgerHeader r)).trans (besideReport_setWord _ _ (reportWord_ledgerHeader r))
  have hreport : ((d7.count F.LEDGER_FAULT_COUNT).irq .ledger 0 0 0).besideReport = d.besideReport :=
    (besideReport_irq_ledger _ 0).trans ((besideReport_put _ _ (by decide)).trans
      (hpages.trans (hfirst.trans (hbits.trans (hclear.trans (htalon.trans (htimed.trans hstays)))))))
  refine ⟨_, ?_, rfl⟩
  have hword : (d7.count F.LEDGER_FAULT_COUNT |>.irq .ledger 0 0 0).get F.SNAP_FAULT_MASK_MASK = 0 := by
    rw [get, bitsAt, outside_word (besideReport_outside hreport) (by decide)]
    exact hmask
  rw [snapFault_of_masked _ _ _ _ hword]
  exact hreport
end
end Dev

/-- A key of a map holds its default or stands in the list. -/
theorem sget_default_or_mem {α : Type} (z : Nat → α) (m : List (Nat × α)) (k : Nat) :
    sget z m k = z k ∨ (k, sget z m k) ∈ m := by
  induction m with
  | nil => exact .inl rfl
  | cons q m ih =>
    obtain ⟨a, v⟩ := q
    by_cases ha : a = k
    · simp [sget, ha]
    · rw [sget, if_neg ha]
      exact ih.imp_right (List.mem_cons_of_mem _)

theorem mem_sset {α : Type} [DecidableEq α] {z : Nat → α} {m : List (Nat × α)} {k : Nat} {v : α} {p : Nat × α}
    (h : p ∈ sset z m k v) : p = (k, v) ∨ p ∈ m := by
  rw [sset] at h
  split at h
  · exact .inr (List.mem_of_mem_filter h)
  · exact (mem_sins h).imp_right List.mem_of_mem_filter

/-! The stop of an idle engine (R451, R207). -/

/-- The live words at or above the ENGINE pages: what layers that lose their jobs may write. -/
def jobWord (a : Nat) : Bool := 0x300000 ≤ a && a % 0x1000 < 0x400

/-- The live words of the INGEST pages: what heartbeats that fail may write. -/
def beatWord (a : Nat) : Bool := 0x200000 ≤ a && a < 0x300000 && a % 0x1000 < 0x400

/-- What the fence of an engine may write: the live words at or above the INGEST pages. -/
def stopWord (a : Nat) : Bool := 0x200000 ≤ a && a % 0x1000 < 0x400

theorem stopWord_of_jobWord {a : Nat} (h : stopWord a = false) : jobWord a = false := by
  simp only [stopWord, jobWord, Bool.and_eq_false_iff, decide_eq_false_iff_not] at h ⊢
  omega

theorem stopWord_of_beatWord {a : Nat} (h : stopWord a = false) : beatWord a = false := by
  simp only [stopWord, beatWord, Bool.and_eq_false_iff, decide_eq_false_iff_not] at h ⊢
  omega

theorem engine_jobSts_addr (n : Nat) : F.ENGINE_JOB_STS_BUSY.addr n 0 0 = 0x300050 + n * 0x1000 := by
  simp [Fld.addr, F.ENGINE_JOB_STS_BUSY, pageAddr, blkBase, blkStride, blkPages]
  omega

theorem layer_jobActive_addr (l : Nat) : F.LAYER_ENG_STS_JOB_ACTIVE.addr l 0 0 = 0x500180 + l * 0x1000 := by
  simp [Fld.addr, F.LAYER_ENG_STS_JOB_ACTIVE, pageAddr, blkBase, blkStride, blkPages]
  omega

theorem beatWord_offset {c off : Nat} (hc : c < 256) (ho : off < 0x400) : beatWord (0x200000 + c * 0x1000 + off) = true := by
  simp only [beatWord, Bool.and_eq_true, decide_eq_true_eq]
  omega

theorem beatWord_ingest {f : Fld} (hb : f.blk = .ingest) (hp : f.page = 0) (ho : f.off < 0x400) {c : Nat} (hc : c < 256) :
    beatWord (f.addr c 0 0) = true := by
  have haddr : f.addr c 0 0 = 0x200000 + c * 0x1000 + f.off := by
    simp [Fld.addr, hb, hp, pageAddr, blkBase, blkStride, blkPages]
  rw [haddr]
  exact beatWord_offset hc ho

namespace Dev

/-- No layer has a running job. -/
def idle (d : Dev) : Prop := ∀ p ∈ d.layers, p.2.job = none

section
variable {d : Dev}

theorem job_layer_of_idle (h : d.idle) (l : Nat) : (d.layer l).job = none := by
  rcases sget_default_or_mem (fun _ => ({} : LayerSt)) d.layers l with hz | hmem
  · rw [layer, hz]
  · exact h _ hmem

theorem idle_updLayer (h : d.idle) (l : Nat) (f : LayerSt → LayerSt) (hf : (f (d.layer l)).job = none) : (d.updLayer l f).idle := by
  intro p (hp : p ∈ sset (fun _ => {}) d.layers l (f (d.layer l)))
  rcases mem_sset hp with rfl | hp
  · exact hf
  · exact h p hp

theorem idle_noteLayer (h : d.idle) (l : Nat) : (d.noteLayer l).idle := by
  refine idle_updLayer h l _ ?_
  split <;> exact job_layer_of_idle h l

theorem showJob_of_idle (h : d.idle) (n : Nat) : d.showJob n = d.put F.ENGINE_JOB_STS_BUSY 0 n := by
  have hnone : d.layers.find? (fun p => p.2.job.isSome && (d.layerEngines p.1).contains n) = none :=
    List.find?_eq_none.mpr fun p hp => by simp [h p hp]
  rw [showJob, hnone]
end

section
variable (d : Dev)

/-- An engine shows its job, and its busy time is marked. -/
def engineShown (t n : Nat) : Dev := (d.showJob n).engBusyMark n t

/-- A layer has lost its job to a fenced engine. -/
def jobLost (l : Nat) : Dev := (d.noteLayer l).updLayer l (fun s => { s with engCause := true, job := none })

/-- A layer loses its job to a fenced engine, and its engines show their jobs anew. -/
def layerStop (t l : Nat) : Dev := ((d.jobLost l).put F.LAYER_ENG_STS_JOB_ACTIVE 0 l).showJobs l t

/-- The heartbeat of a context fails where a fenced engine reads it. -/
def beatStop (n c : Nat) : Dev :=
  if d.actFlag F.INGEST_FRESH_CTL_HB_EN c && d.act F.INGEST_HB_ENGINE_ENGINE c = n then
    ((d.hbFail c true).put F.INGEST_FRESH_RUNS_HB_RUN 0 c).updCtx c (fun x => { x with hbDue := false, hbRestart := true })
  else d

theorem engineStop_eq (n t : Nat) : d.engineStop n t =
    (List.range 256).foldl (beatStop · n)
      ((d.knownLayers.filter (fun l => (d.layerEngines l).contains n)).foldl (layerStop · t) d) := rfl

theorem engBusyMark_layers (n t : Nat) : (d.engBusyMark n t).layers = d.layers := by
  unfold engBusyMark
  split <;> rfl

theorem engBusyMark_word (n t a : Nat) : (d.engBusyMark n t).word a = d.word a := by
  unfold engBusyMark
  split <;> rfl

theorem engBusyMark_outside (S : Nat → Bool) (n t : Nat) : (d.engBusyMark n t).outside S = d.outside S := by
  unfold engBusyMark
  split <;> rfl

theorem updLayer_outside (S : Nat → Bool) (l : Nat) (f : LayerSt → LayerSt) : (d.updLayer l f).outside S = d.outside S := rfl
theorem updCtx_outside (S : Nat → Bool) (c : Nat) (f : CtxSt → CtxSt) : (d.updCtx c f).outside S = d.outside S := rfl
theorem noteCause_outside (S : Nat → Bool) (c : Nat) : (d.noteCause c).outside S = d.outside S := rfl

theorem hbFail_outside {c : Nat} (hc : c < 256) (v : Bool) : (d.hbFail c v).outside beatWord = d.outside beatWord := by
  unfold hbFail
  split
  · rfl
  · refine (outside_irqSet _ _ _ ?_).trans ((outside_put _ _ ?_).trans (noteCause_outside d _ c))
    · have hraw : pgAddr ⟨.ingest, c, 0⟩ + 0x10 = 0x200000 + c * 0x1000 + 0x10 := by
        simp [pgAddr, pageAddr, blkBase, blkStride, blkPages]
      rw [hraw]
      exact beatWord_offset hc (by decide)
    · exact beatWord_ingest rfl rfl (by decide) hc

theorem beatStop_outside (n : Nat) {c : Nat} (hc : c < 256) : (d.beatStop n c).outside beatWord = d.outside beatWord := by
  unfold beatStop
  split
  · refine (updCtx_outside _ _ c _).trans ((outside_put _ _ ?_).trans (hbFail_outside d hc true))
    exact beatWord_ingest rfl rfl (by decide) hc
  · rfl

theorem jobWord_engine (n : Nat) : jobWord (F.ENGINE_JOB_STS_BUSY.addr n 0 0) = true := by
  rw [engine_jobSts_addr]
  simp only [jobWord, Bool.and_eq_true, decide_eq_true_eq]
  omega

theorem jobWord_layer (l : Nat) : jobWord (F.LAYER_ENG_STS_JOB_ACTIVE.addr l 0 0) = true := by
  rw [layer_jobActive_addr]
  simp only [jobWord, Bool.and_eq_true, decide_eq_true_eq]
  omega

/-- An idle engine's JOB_STS reads 0 once it is shown, and no other word changes. -/
theorem engineShown_of_idle (h : d.idle) (t n : Nat) :
    (d.engineShown t n).idle ∧ (d.engineShown t n).outside jobWord = d.outside jobWord ∧
      ∀ a, (d.engineShown t n).word a = (d.put F.ENGINE_JOB_STS_BUSY 0 n).word a := by
  unfold engineShown
  rw [showJob_of_idle h n]
  refine ⟨fun p hp => h p ?_, (engBusyMark_outside _ _ n t).trans (outside_put d 0 (jobWord_engine n)), engBusyMark_word _ n t⟩
  rw [engBusyMark_layers] at hp
  exact hp

/-- Word 0x342050 is the AUDIT_TIME of the ledger: bit 0 of its high half, where an engine 66 would show JOB_STS. -/
abbrev timeBit (d : Dev) : Nat := d.get F.ENGINE_JOB_STS_BUSY 66

theorem timeBit_engineShown (h : d.idle) (t n : Nat) :
    (d.engineShown t n).timeBit = if n = 66 then 0 else d.timeBit := by
  obtain ⟨-, -, hword⟩ := engineShown_of_idle d h t n
  have hput : (d.engineShown t n).timeBit = (d.put F.ENGINE_JOB_STS_BUSY 0 n).timeBit := by
    rw [timeBit, timeBit, get, get, bitsAt, bitsAt, hword]
  rw [hput]
  split
  next hn =>
    subst hn
    exact get_put_self d _ 0 66 0 0 (by decide)
  next hn =>
    refine get_put_ne d _ _ 0 n 0 0 66 0 0 ?_
    rw [engine_jobSts_addr, engine_jobSts_addr]
    omega

/-- Engines that show that they are idle. -/
theorem enginesShown_of_idle (h : d.idle) (t : Nat) (ns : List Nat) :
    (ns.foldl (engineShown · t) d).idle ∧ (ns.foldl (engineShown · t) d).outside jobWord = d.outside jobWord ∧
      (ns.foldl (engineShown · t) d).timeBit = if 66 ∈ ns then 0 else d.timeBit := by
  induction ns generalizing d with
  | nil => exact ⟨h, rfl, rfl⟩
  | cons n ns ih =>
    obtain ⟨hidle, hout, -⟩ := engineShown_of_idle d h t n
    obtain ⟨hidle', hout', hbit⟩ := ih (d.engineShown t n) hidle
    refine ⟨hidle', hout'.trans hout, hbit.trans ?_⟩
    rw [timeBit_engineShown d h t n]
    by_cases hn : n = 66
    · simp [hn]
    · simp [hn, Ne.symm hn]

theorem layer_engCtl_addr {f : Fld} (hf : f.blk = .layer) (hp : f.page = 0) (ho : f.off = 0x980) (l : Nat) :
    f.addr l 0 0 - 0x400 = 0x500580 + l * 0x1000 := by
  simp [Fld.addr, hf, hp, ho, pageAddr, blkBase, blkStride, blkPages]
  omega

theorem layerEngines_congr {a b : Dev} {l : Nat} (h : a.word (0x500580 + l * 0x1000) = b.word (0x500580 + l * 0x1000)) :
    a.layerEngines l = b.layerEngines l := by
  have hact {f : Fld} (hf : f.blk = .layer) (hp : f.page = 0) (ho : f.off = 0x980) : a.act f l = b.act f l := by
    rw [act, act, bitsAt, bitsAt, layer_engCtl_addr hf hp ho, h]
  rw [layerEngines, layerEngines, actFlag, actFlag, hact rfl rfl rfl, hact rfl rfl rfl, hact rfl rfl rfl]

theorem jobWord_engCtl (l : Nat) : jobWord (0x500580 + l * 0x1000) = false := by
  simp only [jobWord, Bool.and_eq_false_iff, decide_eq_false_iff_not]
  omega

theorem layerEngines_outside {a b : Dev} (h : a.outside jobWord = b.outside jobWord) (l : Nat) : a.layerEngines l = b.layerEngines l :=
  layerEngines_congr (outside_word h (jobWord_engCtl l))

theorem jobLost_of_idle (h : d.idle) (l : Nat) :
    (d.jobLost l).idle ∧ (d.jobLost l).outside jobWord = d.outside jobWord ∧ (d.jobLost l).timeBit = d.timeBit :=
  ⟨idle_updLayer (idle_noteLayer h l) l _ rfl, (updLayer_outside _ _ l _).trans (updLayer_outside d _ l _), rfl⟩

theorem layerStop_of_idle (h : d.idle) (t l : Nat) :
    (d.layerStop t l).idle ∧ (d.layerStop t l).outside jobWord = d.outside jobWord ∧
      (d.layerStop t l).timeBit = if 66 ∈ d.layerEngines l then 0 else d.timeBit := by
  obtain ⟨hidle, hdrop, hbit⟩ := jobLost_of_idle d h l
  unfold layerStop
  generalize d.jobLost l = e at hidle hdrop hbit ⊢
  have hput : (e.put F.LAYER_ENG_STS_JOB_ACTIVE 0 l).outside jobWord = d.outside jobWord :=
    (outside_put e 0 (jobWord_layer l)).trans hdrop
  have hputBit : (e.put F.LAYER_ENG_STS_JOB_ACTIVE 0 l).timeBit = d.timeBit := by
    refine (get_put_ne e _ _ 0 l 0 0 66 0 0 ?_).trans hbit
    rw [engine_jobSts_addr, layer_jobActive_addr]
    omega
  obtain ⟨hidle', hout, htime⟩ := enginesShown_of_idle (e.put F.LAYER_ENG_STS_JOB_ACTIVE 0 l) hidle t
    ((e.put F.LAYER_ENG_STS_JOB_ACTIVE 0 l).layerEngines l)
  refine ⟨hidle', hout.trans hput, htime.trans ?_⟩
  rw [layerEngines_outside hput, hputBit]

/-- Layers that lose their jobs: the bit falls with the first one that engine 66 serves. -/
theorem layersStop_of_idle (h : d.idle) (t : Nat) (ls : List Nat) :
    (ls.foldl (layerStop · t) d).outside jobWord = d.outside jobWord ∧
      (ls.foldl (layerStop · t) d).timeBit = if ∃ l ∈ ls, 66 ∈ d.layerEngines l then 0 else d.timeBit := by
  induction ls generalizing d with
  | nil => simp
  | cons l ls ih =>
    obtain ⟨hidle, hout, hbit⟩ := layerStop_of_idle d h t l
    obtain ⟨hout', hbit'⟩ := ih (d.layerStop t l) hidle
    refine ⟨hout'.trans hout, hbit'.trans ?_⟩
    simp only [layerEngines_outside hout, hbit, List.mem_cons, exists_eq_or_imp]
    by_cases hl : 66 ∈ d.layerEngines l <;> simp [hl]

theorem beatsStop_outside (n : Nat) : ((List.range 256).foldl (beatStop · n) d).outside beatWord = d.outside beatWord :=
  foldl_keeps (outside beatWord) (fun e _ hc => beatStop_outside e n (List.mem_range.mp hc)) d

theorem engineStop_of_idle (h : d.idle) (n t : Nat) : (d.engineStop n t).outside stopWord = d.outside stopWord := by
  rw [engineStop_eq]
  obtain ⟨hout, -⟩ := layersStop_of_idle d h t (d.knownLayers.filter (fun l => (d.layerEngines l).contains n))
  exact (outside_mono (beatsStop_outside _ n) fun _ => stopWord_of_beatWord).trans (outside_mono hout fun _ => stopWord_of_jobWord)

/-- An engine that a layer shares with engine 66 clears the bit when it stops. -/
theorem timeBit_engineStop (h : d.idle) {l n : Nat} (t : Nat) (hl : l ∈ d.knownLayers) (hn : n ∈ d.layerEngines l)
    (h66 : 66 ∈ d.layerEngines l) : (d.engineStop n t).timeBit = 0 := by
  obtain ⟨-, hbit⟩ := layersStop_of_idle d h t (d.knownLayers.filter (fun l => (d.layerEngines l).contains n))
  have hserved : l ∈ d.knownLayers.filter (fun l => (d.layerEngines l).contains n) := by simp [hl, hn]
  rw [if_pos ⟨l, hserved, h66⟩] at hbit
  rw [engineStop_eq, timeBit, get, bitsAt, outside_word (beatsStop_outside _ n) (by decide)]
  exact hbit

theorem mem_addOnce {l : List Nat} {n k : Nat} : k ∈ addOnce l n ↔ k = n ∨ k ∈ l := by
  unfold addOnce
  split
  next h => exact ⟨.inr, fun hk => hk.elim (fun e => e ▸ List.contains_iff_mem.mp h) id⟩
  next => exact List.mem_cons

/-- A layer with a word that differs from reset is known. -/
theorem mem_knownLayers {a : Nat} (hw : d.word a ≠ resetWord a) (hlo : 0x500000 ≤ a) (hhi : a < 0x900000) :
    (a - 0x500000) / 0x1000 ∈ d.knownLayers := by
  have hreg : (a, d.word a) ∈ d.regs := (sget_default_or_mem resetWord d.regs a).resolve_left hw
  obtain ⟨before, after, hregs⟩ := List.append_of_mem hreg
  rw [knownLayers, hregs, List.foldl_append, List.foldl_cons, if_pos ⟨hlo, hhi⟩]
  refine List.foldlRecOn (motive := fun known => (a - 0x500000) / 0x1000 ∈ known) after _ (mem_addOnce.mpr (.inl rfl)) ?_
  intro known hknown p _
  split
  · exact mem_addOnce.mpr (.inr hknown)
  · exact hknown

/-! The fences of a tag pool's engines (R52, R448). -/

/-- A cause that a unit holds is not recorded again. -/
theorem raiseOne_of_held {b : Blk} {i p cause detail : Nat} {r : FenceRec} (h : r ∈ d.recs b i p)
    (hr : r.cause = cause ∧ r.detail = detail) : d.raiseOne b i p cause detail = d := by
  have hany : (d.recs b i p).any (fun r => r.cause = cause ∧ r.detail = detail) = true :=
    List.any_eq_true.mpr ⟨r, h, decide_eq_true hr⟩
  unfold raiseOne
  extract_lets old
  exact if_pos (by rw [show old.any _ = true from hany, Bool.or_true])

/-- A fence of an engine is counted and reported in its page. -/
def fenceCounted (n : Nat) : Dev :=
  (d.putAt (fenceKey .engine n 0 + 0x20) 16 16 (min (d.bitsAt (fenceKey .engine n 0 + 0x20) 16 16 + 1) 65535)).irqAll .engine n 0 24

/-- An engine with its first cause, before it stops. -/
def engineFenced (n cause detail : Nat) : Dev :=
  { (d.setRecs .engine n 0 [⟨cause, detail, false⟩]).fenceCounted n with draining := addOnce d.draining (fenceKey .engine n 0) }

/-- An engine with its first cause stops. -/
theorem raiseOne_engine {n detail : Nat} (hnone : d.recs .engine n 0 = []) (hv : validPage ⟨.engine, n, 0⟩ = true) :
    d.raiseOne .engine n 0 cLedger detail =
      (((d.engineFenced n cLedger detail).engineStop n (d.engineFenced n cLedger detail).house).snapFault 1 .engine n).tryEnter
        (16 + n / 8) := by
  unfold raiseOne
  rw [hnone]
  exact if_neg (by simp [unfenceable, enFixed, hv])

theorem tryEnter_of_no_doms {x : Nat} (h : d.doms = []) : d.tryEnter x = d := by
  have hphase : (d.dom x).phase = 0 := by
    rw [dom, h]
    rfl
  rw [tryEnter]
  simp [hphase]

theorem stopWord_engine (n : Nat) {off : Nat} (ho : off < 0x400) : stopWord (fenceKey .engine n 0 + off) = true := by
  have haddr : fenceKey .engine n 0 + off = 0x300000 + n * 0x1000 + off := by
    simp [fenceKey, mainPage, pageAddr, blkBase, blkStride, blkPages]
  rw [haddr]
  simp only [stopWord, Bool.and_eq_true, decide_eq_true_eq]
  omega

/-- A change of what drains is neither in the words nor in the layers. -/
theorem draining_outside (S : Nat → Bool) (l : List Nat) :
    ({ d with draining := l } : Dev).outside S = d.outside S ∧ ({ d with draining := l } : Dev).layers = d.layers := ⟨rfl, rfl⟩

theorem setRecs_outside (S : Nat → Bool) (b : Blk) (i p : Nat) (l : List FenceRec) :
    (d.setRecs b i p l).outside S = d.outside S ∧ (d.setRecs b i p l).layers = d.layers := ⟨rfl, rfl⟩

theorem fenceCounted_outside (n : Nat) :
    (d.fenceCounted n).outside stopWord = d.outside stopWord ∧ (d.fenceCounted n).layers = d.layers := by
  have hirq (e : Dev) : (e.irqAll .engine n 0 24).outside stopWord = e.outside stopWord :=
    foldl_keeps (outside stopWord) (fun e r hr => outside_irqSet e r _ (by
      obtain rfl : r = ⟨.engine, n, 0⟩ := by simpa [instPages, blkPages] using hr
      exact stopWord_engine n (by decide))) e
  unfold fenceCounted
  exact ⟨(hirq _).trans (outside_setWord d _ (stopWord_engine n (by decide))), rest_layers (irqAll_rest _ _ _ _ _)⟩

theorem engineFenced_outside (n cause detail : Nat) :
    (d.engineFenced n cause detail).outside stopWord = d.outside stopWord ∧ (d.engineFenced n cause detail).layers = d.layers := by
  obtain ⟨hrecs, hrecs'⟩ := setRecs_outside d stopWord .engine n 0 [⟨cause, detail, false⟩]
  obtain ⟨hcount, hcount'⟩ := fenceCounted_outside (d.setRecs .engine n 0 [⟨cause, detail, false⟩]) n
  obtain ⟨hdrain, hdrain'⟩ := draining_outside ((d.setRecs .engine n 0 [⟨cause, detail, false⟩]).fenceCounted n) stopWord
    (addOnce d.draining (fenceKey .engine n 0))
  exact ⟨hdrain.trans (hcount.trans hrecs), hdrain'.trans (hcount'.trans hrecs')⟩

/-- A ledger fence of an engine that a layer shares with engine 66 clears the bit. -/
theorem timeBit_raiseOne {l n detail : Nat} (hlayers : d.layers = []) (hdoms : d.doms = []) (hmask : d.get F.SNAP_FAULT_MASK_MASK = 0)
    (hnone : d.recs .engine n 0 = []) (hv : validPage ⟨.engine, n, 0⟩ = true) (hl : l < 1024)
    (hctl : d.word (0x500580 + l * 0x1000) ≠ resetWord (0x500580 + l * 0x1000))
    (hn : n ∈ d.layerEngines l) (h66 : 66 ∈ d.layerEngines l) :
    (d.raiseOne .engine n 0 cLedger detail).outside stopWord = d.outside stopWord ∧
      (d.raiseOne .engine n 0 cLedger detail).timeBit = 0 := by
  obtain ⟨hfenced, hfenced'⟩ := engineFenced_outside d n cLedger detail
  rw [raiseOne_engine d hnone hv]
  generalize d.engineFenced n cLedger detail = e at hfenced hfenced' ⊢
  have hidle : e.idle := by
    rw [idle, hfenced', hlayers]
    simp
  have hkept : (e.engineStop n e.house).outside stopWord = d.outside stopWord := (engineStop_of_idle e hidle n _).trans hfenced
  have hword : e.word (0x500580 + l * 0x1000) = d.word (0x500580 + l * 0x1000) := outside_word hfenced (by
    simp only [stopWord, Bool.and_eq_false_iff, decide_eq_false_iff_not]
    omega)
  have hknown := mem_knownLayers e (hword ▸ hctl) (by omega) (by omega)
  rw [show (0x500580 + l * 0x1000 - 0x500000) / 0x1000 = l by omega] at hknown
  rw [← layerEngines_congr hword] at hn h66
  have hbit := timeBit_engineStop e hidle e.house hknown hn h66
  have hmask' : (e.engineStop n e.house).get F.SNAP_FAULT_MASK_MASK = 0 := by
    rw [get, bitsAt, outside_word hkept (by decide)]
    exact hmask
  rw [snapFault_of_masked _ _ _ _ hmask', tryEnter_of_no_doms _ ((outside_doms hkept).trans hdoms)]
  exact ⟨hkept, hbit⟩

end
end Dev

/-! The counterexample: an audit whose report a fence overwrites. -/

/-- An audit with E = 2^32 is in progress, and tag pool 8 has lost tags. Of the pool's owners, engines 56 to 63, only engine 63
is not fenced for it yet. The active ENG_CTL of layer 0 names four engines from 63 on, so engines 64 to 66 too. -/
def overrunDev : Dev :=
  { regs := [(0x342048, 1), (0x500580, 383)], auditE := 2 ^ 32, auditFree := 64512, auditRegs := [.tags 8 1 0]
    fences := (List.range 7).map (fun k => (0x338000 + 0x1000 * k, [⟨2, 8, false⟩])) ++ [(0x33F000, [])] }

namespace Dev

theorem overrunDev_failing : (overrunDev.auditFound []).auditFailing = [.tagPool 8] := by
  rw [auditFound_nil]
  simp only [auditFailing, Nat.add_sub_cancel]
  decide

theorem fenceRaise_engine (d : Dev) (n cause detail : Nat) :
    d.fenceRaise .engine n 0 cause detail = d.raiseOne .engine n 0 cause detail := by
  rw [fenceRaise]
  exact if_neg (by simp)

/-- With seven of the pool's engines fenced already, only engine 63 is fenced. -/
theorem bookFence_pool8 (d : Dev) (h : d.fences = overrunDev.fences) :
    d.bookFence (.tagPool 8) = d.raiseOne .engine 63 0 cLedger 8 := by
  have hheld : ∀ u ∈ unitRun .engine 56 7, d.fenceRaise u.1 u.2.1 u.2.2 cLedger 8 = d := by
    have hunit : ∀ u ∈ unitRun .engine 56 7, u.1 = .engine ∧ u.2.2 = 0 ∧
        ⟨cLedger, 8, false⟩ ∈ overrunDev.recs .engine u.2.1 0 := by decide
    intro u hu
    obtain ⟨hb, hp, hrec⟩ := hunit u hu
    rw [hb, hp, fenceRaise_engine]
    rw [← recs_congr h] at hrec
    exact raiseOne_of_held d hrec ⟨rfl, rfl⟩
  have hsplit : (d.bookOwners (.tagPool 8)).units = unitRun .engine 56 7 ++ [(.engine, 63, 0)] := rfl
  have hrun : (unitRun .engine 56 7).foldl (fun d u => d.fenceRaise u.1 u.2.1 u.2.2 cLedger 8) d = d :=
    List.foldlRecOn (motive := (· = d)) _ _ rfl fun e he u hu => by rw [he]; exact hheld u hu
  show (d.bookOwners (.tagPool 8)).units.foldl (fun d u => d.fenceRaise u.1 u.2.1 u.2.2 cLedger 8) d = _
  rw [hsplit, List.foldl_append, hrun]
  exact fenceRaise_engine d 63 cLedger 8

theorem overrunDev_engCtl : overrunDev.word 0x500580 ≠ resetWord 0x500580 := by decide

theorem overrunDev_engines : overrunDev.layerEngines 0 = [63, 64, 65, 66] := by decide

theorem overrunDev_calm : overrunDev.calm := ⟨rfl, by simp [overrunDev]⟩

/-- The report stands, then engine 63 stops: engine 66 shows that it is idle in the report. -/
theorem auditComplete_overrunDev :
    (overrunDev.auditComplete []).calm ∧ (overrunDev.auditComplete []).inReset = false ∧
      (overrunDev.auditComplete []).timeBit = 0 := by
  obtain ⟨e, hreport, hend⟩ := auditComplete_of_failing overrunDev (by decide) rfl (by rw [overrunDev_failing]; simp) (by decide)
  rw [hend, overrunDev_failing, List.foldl_cons, List.foldl_nil, bookFence_pool8 e (besideReport_fences hreport)]
  have hside := besideReport_outside hreport
  have hctl : e.word 0x500580 = overrunDev.word 0x500580 := outside_word hside (by decide)
  have hengines : e.layerEngines 0 = [63, 64, 65, 66] := (layerEngines_congr hctl).trans overrunDev_engines
  have hmask : e.get F.SNAP_FAULT_MASK_MASK = 0 := by
    rw [get, bitsAt, outside_word hside (by decide)]
    decide
  have hnone : e.recs .engine 63 0 = [] := (recs_congr (besideReport_fences hreport) _ _ _).trans (by decide)
  obtain ⟨hkept, hbit⟩ := timeBit_raiseOne e (l := 0) (n := 63) (detail := 8) (besideReport_layers hreport)
    (outside_doms hside) hmask hnone (by decide) (by decide) (hctl ▸ overrunDev_engCtl) (by simp [hengines]) (by simp [hengines])
  refine ⟨?_, (outside_inReset hkept).trans (outside_inReset hside), hbit⟩
  rw [calm, (outside_hand hkept).trans (outside_hand hside), (outside_units hkept).trans (outside_units hside)]
  exact overrunDev_calm

/-- AUDIT_TIME with bit 0 of its high half 0 is not 2^32. -/
theorem auditTime_ne_of_timeBit {d : Dev} (h : d.timeBit = 0) : d.get64 F.LEDGER_AUDIT_TIME_LO ≠ 2 ^ 32 := by
  have hhigh : (d.word 0x342050).toNat % 2 = 0 := by
    rw [timeBit, get, engine_jobSts_addr] at h
    simpa [bitsAt, F.ENGINE_JOB_STS_BUSY, bitsOf] using h
  have hlow := (d.word (F.LEDGER_AUDIT_TIME_LO.addr 0 0 0)).isLt
  intro htime
  rw [get64, show F.LEDGER_AUDIT_TIME_LO.addr 0 0 0 + 4 = 0x342050 by decide] at htime
  omega

end Dev

/-- An instruction has one next state: what it answers holds of the device there. -/
theorem of_answers {i : Instr} {s : State} {d : Dev} {P : Dev → Prop} (hd : exec i s = .next { s with dev := d })
    (h : Answers i s P) : P d := by
  obtain ⟨d', hd', hP⟩ := h
  rw [hd] at hd'
  injection hd' with hstate
  have hdev : d = d' := congrArg State.dev hstate
  exact hdev ▸ hP

theorem exec_auditComplete_overrun :
    exec (.auditComplete 0 []) { dev := overrunDev } = .next { dev := overrunDev.auditComplete [] } := by
  obtain ⟨hcalm, hout, -⟩ := Dev.auditComplete_overrunDev
  exact exec_of_onPow (s := { dev := overrunDev }) (f := fun d => (d.atTime 0).auditComplete []) rfl rfl rfl hcalm hout

end Sys2Proof.Machine

open Sys2Proof Sys2Proof.Machine

/-- Refutes O16. In `overrunDev` the active ENG_CTL of layer 0 gives it engines 63 to 66, of which the map holds only 63. The
audit writes AUDIT_TIME = 2^32, then fences engine 63 for tag pool 8; the engines of layer 0 show their jobs anew, and the
JOB_STS of an engine 66 would stand at 0x342050, the high half of AUDIT_TIME. AUDIT_TIME so reads 0 and not the audit's E. The
seal's check ENGCFG refuses a hand with such a setting (R182); the statement bounds no active word, so it speaks of this state. -/
theorem not_auditResults : ¬ Obligations.AuditResults := by
  intro h
  obtain ⟨-, hanswers⟩ := h { dev := overrunDev } 0 [] rfl Dev.overrunDev_calm (by decide) rfl
  obtain ⟨-, htime, -⟩ := of_answers exec_auditComplete_overrun hanswers
  obtain ⟨-, -, hbit⟩ := Dev.auditComplete_overrunDev
  exact Dev.auditTime_ne_of_timeBit hbit htime
end

section
/-! PROOF. Every command answers a next state and leaves the queue. -/
namespace Sys2Proof.Machine

/-- A command answers a next state and leaves the queue. -/
def KeepsQueue (c : Instr) : Prop := ∀ s, ∃ s', exec c s = .next s' ∧ s'.pending = s.pending

/-- Of two states with one queue, the queue of either is that queue. -/
theorem pending_ite {p : Prop} [Decidable p] {a b : State} {q : List Instr} (ha : a.pending = q) (hb : b.pending = q) :
    (if p then a else b).pending = q := by
  split
  · exact ha
  · exact hb

/-- A hit of the default target is logged, or acts through the bridge, or does nothing but take its time. -/
theorem keepsQueue_defaultTargetHit (t : Nat) (addr : Word) (master : Fin 6) (data : Option Word) (beats : Fin 16) :
    KeepsQueue (.defaultTargetHit t addr master data beats) := by
  intro s
  change ∃ s', execDefaultTargetHit t addr master data beats s = .next s' ∧ _
  unfold execDefaultTargetHit
  split
  · exact ⟨_, rfl, rfl⟩
  · split
    · exact ⟨_, rfl, pending_ite rfl rfl⟩
    · exact ⟨_, rfl, rfl⟩

theorem keepsQueue (c : Instr) : KeepsQueue c := by
  cases c
  case defaultTargetHit t addr master data beats => exact keepsQueue_defaultTargetHit t addr master data beats
  case registerWrite | readLoLatch | bar0Read | witnessChainRecord | signedEntryReady | bootRomStart | getInfo | installBegin
      | installData | installCommit | installAbort | installConfirm | attestQuote | attestRead | getCert | fuseWrite | mboxDone
      | keyLoad | nvmWrite | nvmRecWrite | nvmRecRead | nvmCntInc | nvmCntRead | nvmCmdDone | pwUnlock | pwLock | pwSet | pwClear
      | nvmWindowRead | nvmCntClear | nvmScrubPassEnd =>
    exact fun s => ⟨_, rfl, pending_ite rfl rfl⟩
  all_goals exact fun s => ⟨_, rfl, rfl⟩

end Sys2Proof.Machine

open Sys2Proof Sys2Proof.Machine

/-- Settles O1: a step on a queue that is not empty is its front command's meaning, and each meaning has one of four forms. -/
theorem aStepRunsTheFrontCommand : Obligations.AStepRunsTheFrontCommand := by
  refine ⟨?_, keepsQueue, ?_⟩
  · intro c s rest hs
    simp only [step, hs]
  · intro s hs
    simp only [step, hs]
end

section
/-! PROOF. The counterexample to the clause on hand words: DSC_EN of a head above 15. -/
namespace Sys2Proof.Machine

/-- A device of which every unit is in ON, every word at its reset value and no hand sealed. -/
def restDev : Dev := { house := 1000000000 }

/-- HEAD.DSC_CTL of head 16. -/
def dscWord : BitVec 24 := BitVec.ofNat 24 (pageAddr .head 16 3 + 0x80C)

theorem handWrite_dscWord : ((restDev.handWrite ⟨.head, 16, 3⟩ 0x80C 1).word dscWord.toNat).getLsbD 0 = false := by decide +kernel

theorem exec_handWrite_dscWord :
    exec (.handWrite 0 dscWord 1) { dev := restDev } = .next { dev := restDev.handWrite ⟨.head, 16, 3⟩ 0x80C 1 } := by
  have htarget : decodeTarget dscWord.toNat = .page ⟨.head, 16, 3⟩ 0x80C := by decide +kernel
  have hexec : exec (.handWrite 0 dscWord 1) { dev := restDev } = execHandWrite 0 dscWord 1 { dev := restDev } := rfl
  have hreset : (restDev.handWrite ⟨.head, 16, 3⟩ 0x80C 1).inReset = false := by decide +kernel
  refine exec_of_onDev hexec rfl ?_ hreset
  simp only [htarget]
  rfl

end Sys2Proof.Machine

open Sys2Proof Sys2Proof.Machine

/-- Refutes O9 at the first clause: the host writes 1 to DSC_CTL of head 16, with every unit in ON and no hand sealed. The
register table gives bit 0 of the word, DSC_EN, the access RW, so `WordRow.after` asks that it reads 1; on heads above 15 the bit
is reserved (R258), and the model leaves it 0. -/
theorem not_handWordsAndPairs : ¬ Obligations.HandWordsAndPairs := by
  rintro ⟨hstage, -⟩
  obtain ⟨w, hw, hrw⟩ : ∃ w, rowAt .head 3 0x80C = some w ∧ (w.after (restDev.word dscWord.toNat) 1).getLsbD 0 = true :=
    ⟨_, rfl, by decide +kernel⟩
  obtain ⟨hopen, -⟩ := hstage { dev := restDev } 0 ⟨.head, 16, 3⟩ 0x80C w dscWord 1 (by decide +kernel) (by decide) (by decide) hw
    (by decide +kernel) (by decide +kernel) (by decide +kernel)
  obtain ⟨hanswers, -⟩ := hopen (by decide +kernel)
  obtain ⟨hword, -⟩ := of_answers exec_handWrite_dscWord hanswers
  rw [← hword, handWrite_dscWord] at hrw
  exact Bool.false_ne_true hrw
end

section
/-! PROOF. What an access that is logged does to the access-error log, and the gates that a host access passes. -/
namespace Sys2Proof.Machine
namespace Dev

theorem get_congr {d e : Dev} (f : Fld) (i k j : Nat) (h : e.word (f.addr i k j) = d.word (f.addr i k j)) :
    e.get f i k j = d.get f i k j := by
  rw [get, get, bitsAt, h, bitsAt]

section
variable (d : Dev)

/-- What R490 writes in ERR_ADDR and ERR_INFO: the access where the log is empty, else OVERFLOW. -/
def errNoted (cause addr : Nat) (write bar2 : Bool) : Dev :=
  if d.get F.GLOBAL_ERR_INFO_CAUSE = 0 then
    ((((d.put F.GLOBAL_ERR_ADDR addr).put F.GLOBAL_ERR_INFO_CAUSE cause).putB F.GLOBAL_ERR_INFO_WRITE write).putB
      F.GLOBAL_ERR_INFO_BAR bar2)
  else d.put F.GLOBAL_ERR_INFO_OVERFLOW 1

theorem logErr_none_eq (cause addr : Nat) (write bar2 : Bool) :
    d.logErr cause addr write bar2 none =
      ((d.errNoted cause addr write bar2).count F.GLOBAL_ERR_COUNT).irq .global 0 0 1 := rfl

theorem word_errNoted (cause addr : Nat) (write bar2 : Bool) {a : Nat} (h : a ≠ 0x68) (h' : a ≠ 0x6C) :
    (d.errNoted cause addr write bar2).word a = d.word a := by
  unfold errNoted
  split
  · rw [word_putB_ne _ F.GLOBAL_ERR_INFO_BAR _ _ _ h', word_putB_ne _ F.GLOBAL_ERR_INFO_WRITE _ _ _ h',
      word_put_ne _ F.GLOBAL_ERR_INFO_CAUSE _ _ _ _ h', word_put_ne _ F.GLOBAL_ERR_ADDR _ _ _ _ h]
  · exact word_put_ne _ F.GLOBAL_ERR_INFO_OVERFLOW _ _ _ _ h'

/-- A logged access changes the log and bit 1 of GLOBAL.IRQ_RAW. -/
theorem word_logErr (cause addr : Nat) (write bar2 : Bool) {a : Nat} (h : a ∉ [0x10, 0x68, 0x6C, 0x70]) :
    (d.logErr cause addr write bar2 none).word a = d.word a := by
  simp only [List.mem_cons, List.not_mem_nil, or_false, not_or] at h
  obtain ⟨hirq, haddr, hinfo, hcount⟩ := h
  rw [logErr_none_eq, word_irq_ne _ .global 0 0 1 hirq, word_count_ne _ F.GLOBAL_ERR_COUNT _ _ _ hcount,
    word_errNoted _ _ _ _ _ haddr hinfo]

/-- A word of the log but ERR_COUNT is what noting the access left. -/
theorem word_logErr_noted (cause addr : Nat) (write bar2 : Bool) {a : Nat} (h : a ≠ 0x10) (h' : a ≠ 0x70) :
    (d.logErr cause addr write bar2 none).word a = (d.errNoted cause addr write bar2).word a := by
  rw [logErr_none_eq, word_irq_ne _ .global 0 0 1 h, word_count_ne _ F.GLOBAL_ERR_COUNT _ _ _ h']

theorem get_logErr_count (cause addr : Nat) (write bar2 : Bool) :
    (d.logErr cause addr write bar2 none).get F.GLOBAL_ERR_COUNT = min (d.get F.GLOBAL_ERR_COUNT + 1) 0xFFFFFFFF := by
  have hirq := get_congr F.GLOBAL_ERR_COUNT 0 0 0
    (word_irq_ne ((d.errNoted cause addr write bar2).count F.GLOBAL_ERR_COUNT) .global 0 0 1
      (a := F.GLOBAL_ERR_COUNT.addr 0 0 0) (by decide))
  have hnoted := get_congr F.GLOBAL_ERR_COUNT 0 0 0
    (word_errNoted d cause addr write bar2 (a := F.GLOBAL_ERR_COUNT.addr 0 0 0) (by decide) (by decide))
  rw [logErr_none_eq, hirq, get_count_self _ _ _ _ _ (by decide), hnoted]
  rfl

theorem logErr_irqBit (cause addr : Nat) (write bar2 : Bool) :
    ((d.logErr cause addr write bar2 none).word 0x10).getLsbD 1 = true := by
  rw [logErr_none_eq, word_irq, if_pos (by decide), BitVec.getLsbD_or]
  exact Bool.or_eq_true_iff.2 (.inr rfl)

/-- The first access is logged with its address, cause, direction and aperture. -/
theorem logErr_first (cause addr : Nat) (write bar2 : Bool) (h : d.get F.GLOBAL_ERR_INFO_CAUSE = 0) :
    let e := d.logErr cause addr write bar2 none
    e.get F.GLOBAL_ERR_ADDR = addr % 2 ^ 32 ∧ e.get F.GLOBAL_ERR_INFO_CAUSE = cause % 16 ∧
      e.get F.GLOBAL_ERR_INFO_WRITE = write.toNat ∧ e.get F.GLOBAL_ERR_INFO_BAR = bar2.toNat := by
  have hbool (b : Bool) : (if b then 1 else 0) % 2 ^ 1 = b.toNat := by cases b <;> rfl
  have hnoted (f : Fld) (hf : f.addr 0 0 0 ≠ 0x10) (hf' : f.addr 0 0 0 ≠ 0x70) :
      (d.logErr cause addr write bar2 none).get f = (d.errNoted cause addr write bar2).get f :=
    get_congr f 0 0 0 (word_logErr_noted d cause addr write bar2 hf hf')
  dsimp only
  rw [hnoted _ (by decide) (by decide), hnoted _ (by decide) (by decide), hnoted _ (by decide) (by decide),
    hnoted _ (by decide) (by decide), errNoted, if_pos h]
  refine ⟨?_, ?_, ?_, ?_⟩
  · rw [putB, putB, get_put_ne _ _ _ _ _ _ _ _ _ _ (by decide), get_put_ne _ _ _ _ _ _ _ _ _ _ (by decide),
      get_put_ne _ _ _ _ _ _ _ _ _ _ (by decide), get_put_self _ _ _ _ _ _ (by decide)]
    rfl
  · rw [putB, putB, get_put_apart _ _ _ _ _ _ _ _ _ _ (by decide) (by decide) (by decide),
      get_put_apart _ _ _ _ _ _ _ _ _ _ (by decide) (by decide) (by decide), get_put_self _ _ _ _ _ _ (by decide)]
    rfl
  · rw [putB, putB, get_put_apart _ _ _ _ _ _ _ _ _ _ (by decide) (by decide) (by decide),
      get_put_self _ _ _ _ _ _ (by decide)]
    exact hbool write
  · rw [putB, get_put_self _ _ _ _ _ _ (by decide)]
    exact hbool bar2

/-- A later access sets OVERFLOW and leaves the rest of the log. -/
theorem logErr_later (cause addr : Nat) (write bar2 : Bool) (h : d.get F.GLOBAL_ERR_INFO_CAUSE ≠ 0) :
    let e := d.logErr cause addr write bar2 none
    e.get F.GLOBAL_ERR_ADDR = d.get F.GLOBAL_ERR_ADDR ∧
      e.get F.GLOBAL_ERR_INFO_CAUSE = d.get F.GLOBAL_ERR_INFO_CAUSE ∧ e.get F.GLOBAL_ERR_INFO_OVERFLOW = 1 := by
  have hnoted (f : Fld) (hf : f.addr 0 0 0 ≠ 0x10) (hf' : f.addr 0 0 0 ≠ 0x70) :
      (d.logErr cause addr write bar2 none).get f = (d.errNoted cause addr write bar2).get f :=
    get_congr f 0 0 0 (word_logErr_noted d cause addr write bar2 hf hf')
  dsimp only
  rw [hnoted _ (by decide) (by decide), hnoted _ (by decide) (by decide), hnoted _ (by decide) (by decide), errNoted,
    if_neg h]
  exact ⟨get_put_ne _ _ _ _ _ _ _ _ _ _ (by decide), get_put_apart _ _ _ _ _ _ _ _ _ _ (by decide) (by decide) (by decide),
    get_put_self _ _ _ _ _ _ (by decide)⟩

/-! The gates of an access. -/

/-- While the device answers, a write of a header word of a page of the map is taken. -/
theorem headerGate_eq (r : PageRef) (f : Dev → Dev) (hr : d.reachable = true) (hv : validPage r = true) :
    d.headerGate r f = f d := by
  rw [headerGate, hr, hv]
  exact if_pos rfl

@[simp] theorem atTime_zero : d.atTime 0 = d := by
  rw [atTime]
  simp

end
end Dev

end Sys2Proof.Machine
end

section
/-! PROOF. A field that is set to 0, as a mask of its word. -/
namespace Sys2Proof.Machine

/-- The bits of a field in its word. -/
def fieldMask (lo w : Nat) : Word := BitVec.ofNat 32 ((2 ^ w - 1) * 2 ^ lo)

theorem bitsOf_mul_eq_and (x lo w : Nat) : bitsOf x lo w * 2 ^ lo = x &&& (2 ^ w - 1) * 2 ^ lo := by
  apply Nat.eq_of_testBit_eq
  intro i
  simp only [bitsOf, Nat.testBit_mul_two_pow, Nat.testBit_mod_two_pow, Nat.testBit_div_two_pow, Nat.testBit_and,
    Nat.testBit_two_pow_sub_one]
  by_cases hi : lo ≤ i
  · rw [Nat.sub_add_cancel hi]
    simp [hi, Bool.and_comm]
  · simp [hi]

theorem toNat_and_fieldMask (x : Word) {lo w : Nat} (h : lo + w ≤ 32) :
    (x &&& fieldMask lo w).toNat = bitsOf x.toNat lo w * 2 ^ lo := by
  have hmask : (2 ^ w - 1) * 2 ^ lo < 2 ^ 32 :=
    calc (2 ^ w - 1) * 2 ^ lo < 2 ^ w * 2 ^ lo := (Nat.mul_lt_mul_right (by positivity)).2 (Nat.sub_lt (by positivity) one_pos)
      _ ≤ 2 ^ 32 := by rw [← pow_add]; exact Nat.pow_le_pow_right (by decide) (by omega)
  rw [bitsOf_mul_eq_and, BitVec.toNat_and, fieldMask, BitVec.toNat_ofNat, Nat.mod_eq_of_lt hmask]

theorem sub_and_self (x m : Word) : x - (x &&& m) = x &&& ~~~ m := by
  have hdisjoint : (x &&& ~~~ m) &&& (x &&& m) = 0#32 := by
    ext i hi
    simp only [BitVec.getElem_and, BitVec.getElem_not, BitVec.getElem_zero]
    cases m[i] <;> simp
  have hsum : x = (x &&& ~~~ m) + (x &&& m) := by
    rw [BitVec.add_eq_or_of_and_eq_zero _ _ hdisjoint]
    ext i hi
    simp only [BitVec.getElem_or, BitVec.getElem_and, BitVec.getElem_not]
    cases m[i] <;> simp
  rw [eq_comm, BitVec.eq_sub_iff_add_eq]
  exact hsum.symm

/-- A field set to 0 leaves the other bits of its word. -/
theorem Dev.word_putAt_zero (d : Dev) (a : Nat) {lo w : Nat} (h : lo + w ≤ 32) :
    (d.putAt a lo w 0).word a = d.word a &&& ~~~ fieldMask lo w := by
  have hle : (d.word a &&& fieldMask lo w).toNat ≤ (d.word a).toNat := by
    rw [BitVec.toNat_and]
    exact Nat.and_le_left
  rw [Dev.putAt, Dev.word_setWord_self, putBits, Nat.zero_mod, Nat.zero_mul, Nat.add_zero, ← toNat_and_fieldMask _ h,
    ← sub_and_self]
  bv_omega

end Sys2Proof.Machine
end

section
/-! PROOF. Accesses that no page or window takes. -/
namespace Sys2Proof.Machine

/-- A command on the whole state that leaves the device out of reset and what survives a reset as it was answers the device
that it makes. -/
theorem exec_of_onAll {i : Instr} {s : State} {f : State → State} {d : Dev} (hi : exec i s = s.onAll f)
    (hr : s.dev.inReset = false) (hf : f s = { s with dev := d }) (hd : d.inReset = false) :
    exec i s = .next { s with dev := d } := by
  have he : { d with inReset := false } = d := by rw [← hd]
  have hall : s.onAll f = .next { f s with dev := { (f s).dev with inReset := false }, pending := s.pending } := by
    simp [State.onAll, hr]
  rw [hi, hall, hf, he]

namespace State

theorem hostWrite_word (s : State) (a v : Nat) (ha : a % 4 = 0) :
    s.hostWrite a 4 v = s.hostWord a (BitVec.ofNat 32 v) := by
  simp [hostWrite, ha]

/-- A write that no page or window takes is logged. -/
theorem hostWord_undecoded (s : State) (a : Nat) (v : Word) (hr : s.dev.reachable = true)
    (ha : decodeTarget a = .undecoded) : s.hostWord a v = s.on (·.logErr 1 a true false none) := by
  simp [hostWord, hr, ha]

/-- A device whose next completion is to be found. -/
def unanswered (s : State) : State := s.on (fun d => { d with resp := none })

/-- An aligned read of 32 bits completes as the word it reads does. -/
theorem hostRead_word (s : State) (a : Nat) (ue : List Nat) (ce : Nat) (hr : s.dev.reachable = true) (h4 : a % 4 = 0) :
    s.hostRead a 4 ue ce = s.unanswered.readWord a ue ce := by
  unfold hostRead
  rw [hr, h4]
  change (match (s.unanswered.readWord a ue ce).dev.resp with
    | some (.data _) => s.unanswered.readWord a ue ce
    | _ => s.unanswered.readWord a ue ce) = s.unanswered.readWord a ue ce
  split <;> rfl

/-- A read that no page or window takes gets the error response. -/
theorem readWord_undecoded (s : State) (a : Nat) (ha : decodeTarget a = .undecoded) :
    s.readWord a [] 0 = s.on (·.readError 1 a none) := by
  simp only [readWord, ha]

end State

/-- An aligned read of 32 bits that leaves what survives a reset. -/
theorem exec_bar0Read_word {s : State} {t : Nat} {a : BitVec 24} {d : Dev} (hr : s.dev.inReset = false)
    (hreach : (s.dev.atTime t).reachable = true) (h4 : a.toNat % 4 = 0)
    (hf : (s.atTime t).unanswered.readWord a.toNat [] 0 = { s with dev := d }) (hd : d.inReset = false) :
    exec (.bar0Read t a 4 [] 0) s = .next { s with dev := d } :=
  exec_of_onAll (f := fun s => (s.atTime t).hostRead a.toNat 4 [] 0) rfl hr
    ((State.hostRead_word (s.atTime t) _ _ _ hreach h4).trans hf) hd

/-- An aligned write of 32 bits that leaves what survives a reset. -/
theorem exec_registerWrite_word {s : State} {t : Nat} {a : BitVec 24} {v : BitVec 64} {d : Dev} (hr : s.dev.inReset = false)
    (h4 : a.toNat % 4 = 0) (hf : (s.atTime t).hostWord a.toNat (BitVec.ofNat 32 v.toNat) = { s with dev := d })
    (hd : d.inReset = false) : exec (.registerWrite t a 4 v) s = .next { s with dev := d } :=
  exec_of_onAll (f := fun s => (s.atTime t).hostWrite a.toNat 4 v.toNat) rfl hr
    ((State.hostWrite_word (s.atTime t) _ _ h4).trans hf) hd

/-- What undecodedAccessesAreErrors asks of the log. -/
theorem logErr_undecoded (d : Dev) {a : Nat} (ha : a < 2 ^ 32) (write : Bool) :
    let e := d.logErr 1 a write false none
    e.get F.GLOBAL_ERR_COUNT = min (d.get F.GLOBAL_ERR_COUNT + 1) 0xFFFFFFFF ∧ (e.word 0x10).getLsbD 1 = true ∧
      d.keeps e [0x10, 0x68, 0x6C, 0x70] ∧
      if d.get F.GLOBAL_ERR_INFO_CAUSE = 0 then
        e.get F.GLOBAL_ERR_ADDR = a ∧ e.get F.GLOBAL_ERR_INFO_CAUSE = 1 ∧ e.get F.GLOBAL_ERR_INFO_WRITE = write.toNat ∧
          e.get F.GLOBAL_ERR_INFO_BAR = 0
      else e.get F.GLOBAL_ERR_ADDR = d.get F.GLOBAL_ERR_ADDR ∧
        e.get F.GLOBAL_ERR_INFO_CAUSE = d.get F.GLOBAL_ERR_INFO_CAUSE ∧ e.get F.GLOBAL_ERR_INFO_OVERFLOW = 1 := by
  refine ⟨d.get_logErr_count _ _ _ _, d.logErr_irqBit _ _ _ _, fun b hb => d.word_logErr _ _ _ _ hb, ?_⟩
  split
  case isTrue h =>
    obtain ⟨haddr, hcause, hwrite, hbar⟩ := d.logErr_first 1 a write false h
    exact ⟨haddr.trans (Nat.mod_eq_of_lt ha), hcause, hwrite, hbar⟩
  case isFalse h => exact d.logErr_later 1 a write false h

theorem undecodedAccessesAreErrors_holds : undecodedAccessesAreErrors := by
  rintro s t a v ⟨hr, hreach, -⟩ h4 ha
  have haddr : a.toNat < 2 ^ 32 := lt_trans a.isLt (by decide)
  constructor
  · refine ⟨_, exec_bar0Read_word hr hreach h4 (State.readWord_undecoded (s.atTime t).unanswered _ ha) ?_,
      logErr_undecoded ({ s.dev.atTime t with resp := none } : Dev) haddr false, rfl⟩
    exact (Dev.logErr_inReset _ _ _ _ _ _).trans hr
  · refine ⟨_, exec_registerWrite_word hr h4 (State.hostWord_undecoded (s.atTime t) _ _ hreach ha) ?_,
      logErr_undecoded (s.dev.atTime t) haddr true⟩
    exact (Dev.logErr_inReset _ _ _ _ _ _).trans hr

theorem configRequestsWaitForTheDevice_holds : configRequestsWaitForTheDevice := by
  intro s t hr
  have hwait : (!(s.dev.atTime t).reachable) = (!s.dev.cfgReady && decide (max s.dev.house t < s.dev.relTime + 800000000)) := by
    simp only [Dev.reachable, Dev.atTime, hr, ge_iff_le, Bool.not_false, Bool.true_and, Bool.not_or, ← decide_not, not_le]
  refine exec_of_onDev (f := fun d => { d.atTime t with resp := some (.config (!(d.atTime t).reachable)) }) rfl hr ?_ hr
  dsimp only
  rw [hwait]

end Sys2Proof.Machine

open Sys2Proof Sys2Proof.Machine

/-- Settles O10: an undecoded address reaches `logErr` with cause 1, by a read with the error response. -/
theorem accessErrorsAndConfigRequests : Obligations.AccessErrorsAndConfigRequests :=
  ⟨undecodedAccessesAreErrors_holds, configRequestsWaitForTheDevice_holds⟩
end

section
/-! PROOF. Interrupt words and the messages of a page's vector. -/
namespace Sys2Proof.Machine

/-- No page of the map holds the MSI-X table. -/
theorem pgAddr_ne_msix {r : PageRef} (hv : Dev.validPage r = true) {o : Nat} (ho : o < 0x1000) :
    pgAddr r + o < 0x8000 ∨ 0x9000 ≤ pgAddr r + o := by
  obtain ⟨b, i, p⟩ := r
  simp only [Dev.validPage, Bool.and_eq_true, decide_eq_true_eq] at hv
  obtain ⟨⟨hfirst, hlast⟩, hpage⟩ := hv
  have hblk : ∀ b, blkHi b ≤ 0x8000 ∨ 0x9000 ≤ blkLo b := by intro b; cases b <;> decide
  have hin := page_in_blk b i p o hfirst hlast hpage ho
  have := hblk b
  simp only [pgAddr]
  omega

theorem blkVec_lt (b : Blk) : blkVec b < 64 := by cases b <;> decide

namespace Dev

theorem reachable_of_rest {d e : Dev} (h : e.rest = d.rest) : e.reachable = d.reachable := by
  simp only [reachable, rest_inReset h, rest_cfgReady h, rest_house h, rest_relTime h]

section
variable (d : Dev)

/-- The message of a vector, by its table entry (R81). -/
def message (v : Nat) : Out :=
  .msix v ((d.word (0x8000 + 16 * v)).toNat + 2 ^ 32 * (d.word (0x8000 + 16 * v + 4)).toNat) (d.word (0x8000 + 16 * v + 8))

theorem vecMasked_eq (v : Nat) : d.vecMasked v = (d.word (0x8000 + 16 * v + 12)).getLsbD 0 := by
  rw [vecMasked, bitsAt, bitsOf, BitVec.getLsbD, Nat.testBit_zero]
  simp

/-- A vector that is not masked sends its message. -/
theorem msixEmit_of_unmasked {v : Nat} (hmask : (d.word (0x8000 + 16 * v + 12)).getLsbD 0 = false) :
    d.msixEmit v = { d.emit (d.message v) with msiLast := sset (fun _ => 0) d.msiLast v (d.house + 1) } := by
  rw [msixEmit, vecMasked_eq, hmask]
  rfl

theorem out_msixEmit {v : Nat} (hmask : (d.word (0x8000 + 16 * v + 12)).getLsbD 0 = false) :
    (d.msixEmit v).out = d.message v :: d.out := by
  rw [d.msixEmit_of_unmasked hmask]
  rfl

/-- Without coalescing a message is not held. -/
theorem msixSend_of_uncoalesced (v : Nat) (hus : d.get F.GLOBAL_IRQ_COAL_US = 0) : d.msixSend v = d.msixEmit v := by
  rw [msixSend]
  exact if_neg (by simp [hus])

/-- A word of a page's header keeps every vector's table entry and IRQ_COAL. -/
theorem message_setWord {r : PageRef} (hv : validPage r = true) {o v : Nat} (ho : o < 0x40) (hvec : v < 64) (x : Word) :
    let e := d.setWord (pgAddr r + o) x
    e.message v = d.message v ∧ e.word (0x8000 + 16 * v + 12) = d.word (0x8000 + 16 * v + 12) ∧
      e.get F.GLOBAL_IRQ_COAL_US = d.get F.GLOBAL_IRQ_COAL_US := by
  have hfar := pgAddr_ne_msix hv (o := o) (by omega)
  have hword {a : Nat} (ha : 0x8000 ≤ a) (ha' : a < 0x9000) : (d.setWord (pgAddr r + o) x).word a = d.word a :=
    word_setWord_ne d _ (by omega)
  refine ⟨?_, hword (by omega) (by omega), get_congr _ _ _ _ (word_setWord_ne d _ ?_)⟩
  · rw [message, hword (by omega) (by omega), hword (by omega) (by omega), hword (by omega) (by omega), message]
  · obtain ⟨k, hk⟩ := dvd_pageAddr r.blk r.inst r.page
    simp only [show F.GLOBAL_IRQ_COAL_US.addr 0 0 0 = 0x84 by decide, pgAddr]
    omega

theorem irqPend_congr {d e : Dev} {r : PageRef} (h : e.word (pgAddr r + 0x10) = d.word (pgAddr r + 0x10))
    (h' : e.word (pgAddr r + 0x14) = d.word (pgAddr r + 0x14)) : e.irqPend r = d.irqPend r := by
  rw [irqPend, h, h', irqPend]

theorem irqPend_msixSend (v : Nat) (r : PageRef) : (d.msixSend v).irqPend r = d.irqPend r :=
  irqPend_congr (word_msixSend d _ _) (word_msixSend d _ _)

section
variable {r : PageRef} (hv : validPage r = true) (hus : d.get F.GLOBAL_IRQ_COAL_US = 0)
  (hmask : (d.word (0x8000 + 16 * blkVec r.blk + 12)).getLsbD 0 = false)
include hv hus hmask

/-- After a write of a header word, the page's vector sends its message as it stood. -/
theorem out_msixSend_setWord {o : Nat} (ho : o < 0x40) (x : Word) :
    ((d.setWord (pgAddr r + o) x).msixSend (blkVec r.blk)).out = d.message (blkVec r.blk) :: d.out := by
  obtain ⟨hmsg, hctl, hcoal⟩ := d.message_setWord hv ho (blkVec_lt r.blk) x
  rw [msixSend_of_uncoalesced _ _ (hcoal.trans hus), out_msixEmit _ (by rw [hctl, hmask]), hmsg]
  rfl

/-- Event bits send the page's message exactly when they take IRQ_PEND from zero. -/
theorem out_irqSet (b : Nat) :
    (d.irqSet r b).out =
      if d.irqPend r = 0 ∧ (d.irqSet r b).irqPend r ≠ 0 then d.message (blkVec r.blk) :: d.out else d.out := by
  have hpend : (d.irqSet r b).irqPend r =
      (d.setWord (pgAddr r + 0x10) (d.word (pgAddr r + 0x10) ||| BitVec.ofNat 32 (b % 2 ^ 31))).irqPend r := by
    unfold irqSet
    dsimp only
    split
    · exact irqPend_msixSend _ _ _
    · rfl
  rw [hpend, irqSet]
  split
  · exact out_msixSend_setWord d hv hus hmask (by decide) _
  · rfl

/-- A write of IRQ_EN sends the page's message exactly when IRQ_PEND is then not zero. -/
theorem out_irqEnable (v : Word) :
    (d.irqEnable r v).out =
      if (d.irqEnable r v).irqPend r ≠ 0 then d.message (blkVec r.blk) :: d.out else d.out := by
  have hpend : (d.irqEnable r v).irqPend r = (d.setWord (pgAddr r + 0x14) (v &&& 0x7FFFFFFF)).irqPend r := by
    unfold irqEnable
    dsimp only
    split
    · exact irqPend_msixSend _ _ _
    · rfl
  rw [hpend, irqEnable]
  split
  · exact out_msixSend_setWord d hv hus hmask (by decide) _
  · rfl

end

/-- A write of a header word, while the store's page does not wait. -/
theorem headerWrite_eq (r : PageRef) (off : Nat) (v : Word) (f : Dev → Dev) (hr : d.reachable = true) (hv : validPage r = true)
    (hn : r.blk = .nvm → d.nvBusy = false) : d.headerWrite r off v f = f d := by
  have hnvm : d.nvmHolds r = false := by
    rw [nvmHolds, Bool.and_eq_false_imp]
    exact fun h => hn (of_decide_eq_true h)
  rw [headerWrite, headerGate_eq _ _ _ hr hv, hnvm]
  rfl

/-- Event bits leave the store's BUSY. -/
theorem nvBusy_irqSet (r : PageRef) (b : Nat) : (d.irqSet r b).nvBusy = d.nvBusy := by
  have hword := word_irqSet_ne d r b (a := F.NVM_STS_BUSY.addr 0 0 0) (by
    obtain ⟨k, hk⟩ := dvd_pageAddr r.blk r.inst r.page
    have hsts : F.NVM_STS_BUSY.addr 0 0 0 % 0x1000 ≠ 0x10 := by decide
    rw [pgAddr]
    omega)
  rw [nvBusy, flag, get_congr F.NVM_STS_BUSY 0 0 0 hword, nvBusy, flag]

end
end Dev

theorem ofNat_mod_two_pow_31 (v : Word) : BitVec.ofNat 32 (v.toNat % 2 ^ 31) = v &&& 0x7FFFFFFF := by
  apply BitVec.eq_of_toNat_eq
  have hlt : v.toNat % 2 ^ 31 < 2 ^ 32 := lt_trans (Nat.mod_lt _ (by decide)) (by decide)
  rw [BitVec.toNat_ofNat, Nat.mod_eq_of_lt hlt, BitVec.toNat_and]
  exact (Nat.and_two_pow_sub_one_eq_mod _ 31).symm

section
variable {s : State} {t : Nat} {r : PageRef} {v now : Word} (h : s.answersAt t r) (hn : r.blk = .nvm → s.dev.nvBusy = false)
include h hn

theorem exec_irqForce : exec (.irqForce t r v) s = .next { s with dev := (s.dev.atTime t).irqSet r v.toNat } := by
  obtain ⟨hr, hreach, hv⟩ := h
  exact exec_of_onDev (f := fun d => (d.atTime t).headerWrite r 0x1C v (·.irqSet r v.toNat)) rfl hr
    (Dev.headerWrite_eq _ _ _ _ _ hreach hv hn) ((Dev.irqSet_inReset _ _ _).trans hr)

theorem exec_irqEnWrite : exec (.irqEnWrite t r v) s = .next { s with dev := (s.dev.atTime t).irqEnable r v } := by
  obtain ⟨hr, hreach, hv⟩ := h
  exact exec_of_onDev (f := fun d => (d.atTime t).headerWrite r 0x14 v (·.irqEnable r v)) rfl hr
    (Dev.headerWrite_eq _ _ _ _ _ hreach hv hn) ((Dev.irqEnable_inReset _ _ _).trans hr)

theorem exec_irqRawClear :
    exec (.irqRawClear t r v now) s =
      .next { s with dev := ((s.dev.atTime t).irqSet r now.toNat).irqClear r (v &&& ~~~ now) } := by
  obtain ⟨hr, hreach, hv⟩ := h
  have hset : ((s.dev.atTime t).irqSet r now.toNat).reachable = true :=
    (Dev.reachable_of_rest (Dev.irqSet_rest _ _ _)).trans hreach
  have hbusy : r.blk = .nvm → ((s.dev.atTime t).irqSet r now.toNat).nvBusy = false :=
    fun hb => (Dev.nvBusy_irqSet _ _ _).trans (hn hb)
  exact exec_of_onDev (f := fun d => (d.atTime t).headerGate r (fun d => (d.irqSet r now.toNat).headerWrite r 0x10
      (v &&& ~~~ now) (·.irqClear r (v &&& ~~~ now)))) rfl hr
    ((Dev.headerGate_eq _ _ _ hreach hv).trans (Dev.headerWrite_eq _ _ _ _ _ hset hv hbusy))
    ((Dev.irqClear_inReset _ _ _).trans ((Dev.irqSet_inReset _ _ _).trans hr))

end

theorem interruptWordWritesAct_holds : interruptWordWritesAct := by
  intro s t r v now h hn
  refine ⟨⟨_, exec_irqForce h hn, Dev.irqSet_rest _ _ _, ?_, ?_⟩, ⟨_, exec_irqEnWrite h hn, Dev.irqEnable_rest _ _ _, ?_, ?_⟩,
    ⟨_, exec_irqRawClear h hn, (Dev.irqClear_rest _ _ _).trans (Dev.irqSet_rest _ _ _), ?_, ?_⟩⟩
  · exact fun a ha => Dev.word_irqSet_ne _ _ _ (by simpa using ha)
  · rw [Dev.word_irqSet, if_pos rfl, ofNat_mod_two_pow_31]
    rfl
  · intro a ha
    rw [Dev.word_irqEnable, if_neg (by simpa using ha)]
    rfl
  · rw [Dev.word_irqEnable, if_pos rfl]
  · intro a ha
    rw [Dev.word_irqClear, if_neg (by simpa using ha)]
    exact Dev.word_irqSet_ne _ _ _ (by simpa using ha)
  · rw [Dev.word_irqClear, if_pos rfl, Dev.word_irqSet, if_pos rfl, ofNat_mod_two_pow_31]
    rfl

theorem messageLeavesWhenAPageStartsToPend_holds : messageLeavesWhenAPageStartsToPend := by
  intro s t r v h hn hus hmask
  have hv := h.2.2
  exact ⟨⟨_, exec_irqForce h hn, Dev.out_irqSet (s.dev.atTime t) hv hus hmask v.toNat⟩,
    ⟨_, exec_irqEnWrite h hn, Dev.out_irqEnable (s.dev.atTime t) hv hus hmask v⟩⟩

namespace Dev
section
variable (d : Dev)

/-- Unmasking clears the mask bit of the vector's control word. -/
theorem word_unmask (v a : Nat) :
    (d.unmask v).word a =
      if a = 0x8000 + 16 * v + 12 then d.word (0x8000 + 16 * v + 12) &&& 0xFFFFFFFE else d.word a := by
  have hput : (d.unmask v).word a = (d.putAt (0x8000 + 16 * v + 12) 0 1 0).word a := by
    unfold unmask
    dsimp only
    split
    · exact word_msixSend _ _ _
    · rfl
  rw [hput]
  split
  · next h => rw [h, word_putAt_zero _ _ (by decide)]; rfl
  · next h => exact word_putAt_ne _ _ _ _ h

theorem unmask_apart (v : Nat) : (d.unmask v).apart = d.apart := by
  unfold unmask
  dsimp only
  split
  · exact msixSend_rest _ _
  · rfl

/-- A vector that is unmasked and of which no message is pending. -/
def unmasked (v : Nat) : Dev :=
  { d.putAt (0x8000 + 16 * v + 12) 0 1 0 with msiPending := d.msiPending.filter (· ≠ v) }

theorem word_unmasked_ne {v a : Nat} (ha : a ≠ 0x8000 + 16 * v + 12) : (d.unmasked v).word a = d.word a :=
  word_putAt_ne d _ _ _ ha

theorem unmasked_mask (v : Nat) : ((d.unmasked v).word (0x8000 + 16 * v + 12)).getLsbD 0 = false := by
  have hword : (d.unmasked v).word (0x8000 + 16 * v + 12) = d.word (0x8000 + 16 * v + 12) &&& ~~~ fieldMask 0 1 :=
    word_putAt_zero d _ (by decide)
  rw [hword]
  simp [fieldMask]

theorem message_unmasked (v : Nat) : (d.unmasked v).message v = d.message v := by
  rw [message, d.word_unmasked_ne (by omega), d.word_unmasked_ne (by omega), d.word_unmasked_ne (by omega), message]

theorem coal_unmasked (v : Nat) : (d.unmasked v).get F.GLOBAL_IRQ_COAL_US = d.get F.GLOBAL_IRQ_COAL_US :=
  get_congr _ _ _ _ (d.word_unmasked_ne (by rw [show F.GLOBAL_IRQ_COAL_US.addr 0 0 0 = 0x84 by decide]; omega))

/-- Without coalescing, a pending message of the vector is sent as it is unmasked, and none is pending then. -/
theorem unmask_sends (v : Nat) (hus : d.get F.GLOBAL_IRQ_COAL_US = 0) :
    v ∉ (d.unmask v).msiPending ∧
      (d.unmask v).out = if v ∈ d.msiPending then d.message v :: d.out else d.out := by
  by_cases hmem : v ∈ d.msiPending
  · have hunmask : d.unmask v = (d.unmasked v).msixSend v := by
      simp only [unmask]
      exact if_pos (by simpa using hmem)
    rw [hunmask, msixSend_of_uncoalesced _ v ((d.coal_unmasked v).trans hus), msixEmit_of_unmasked _ (d.unmasked_mask v),
      message_unmasked, if_pos hmem]
    exact ⟨by simp [unmasked], rfl⟩
  · have hunmask : d.unmask v = d.putAt (0x8000 + 16 * v + 12) 0 1 0 := by
      simp only [unmask]
      exact if_neg (by simpa using hmem)
    rw [hunmask, if_neg hmem]
    exact ⟨hmem, rfl⟩

end
end Dev

theorem exec_msixUnmask {s : State} {t : Nat} (v : Fin 64) (h : s.answersAt t ⟨.global, 0, 0⟩) :
    exec (.msixUnmask t v) s = .next { s with dev := (s.dev.atTime t).unmask v } := by
  obtain ⟨hr, hreach, hv⟩ := h
  exact exec_of_onDev (f := fun d => (d.atTime t).headerGate Dev.globalPage (·.unmask v)) rfl hr
    (Dev.headerGate_eq _ _ _ hreach hv) ((Dev.rest_inReset (Dev.unmask_apart _ _)).trans hr)

/-- No message of a vector is held. -/
def Dev.unheld (d : Dev) (v : Nat) : Dev := { d with msiHeld := d.msiHeld.filter (· ≠ v) }

/-- The message held for a vector leaves once its spacing has passed. -/
theorem Dev.coalExpire_due (d : Dev) (v : Nat) (hheld : v ∈ d.msiHeld)
    (hdue : sget (fun _ => 0) d.msiLast v = 0 ∨
      sget (fun _ => 0) d.msiLast v - 1 + d.get F.GLOBAL_IRQ_COAL_US * 1000 ≤ d.house) :
    d.coalExpire v = (d.unheld v).msixEmit v := by
  rw [coalExpire]
  exact if_pos (by simpa [hheld] using hdue)

/-- Before that, and where none is held, nothing changes. -/
theorem Dev.coalExpire_waits (d : Dev) (v : Nat)
    (h : v ∉ d.msiHeld ∨ ¬ (sget (fun _ => 0) d.msiLast v = 0 ∨
      sget (fun _ => 0) d.msiLast v - 1 + d.get F.GLOBAL_IRQ_COAL_US * 1000 ≤ d.house)) : d.coalExpire v = d := by
  rw [coalExpire]
  refine if_neg fun hsend => ?_
  simp only [Bool.and_eq_true, List.contains_iff_mem, Bool.or_eq_true, beq_iff_eq, decide_eq_true_eq] at hsend
  exact h.elim (fun hnot => hnot hsend.1) (fun hnot => hnot hsend.2)

theorem heldMessagesLeaveInTheEnd_holds : heldMessagesLeaveInTheEnd := by
  intro s t v
  refine ⟨fun h hus => ?_, fun hr hmask hheld hdue => ?_, fun hr hwait => ?_⟩
  · obtain ⟨hnone, hout⟩ := Dev.unmask_sends (s.dev.atTime t) v hus
    refine ⟨_, exec_msixUnmask v h, ?_, fun a ha => ?_, Dev.unmask_apart _ _, hnone, hout⟩
    · rw [Dev.word_unmask, if_pos rfl]
      rfl
    · rw [Dev.word_unmask, if_neg (by simpa using ha)]
      rfl
  · have hsend := (Dev.coalExpire_due (s.dev.atTime t) v hheld hdue).trans (Dev.msixEmit_of_unmasked _ hmask)
    refine ⟨_, exec_of_onDev (f := fun d => (d.atTime t).coalExpire v) rfl hr hsend hr, rfl, rfl, rfl, ?_⟩
    simp [Dev.unheld]
  · exact exec_of_onDev (f := fun d => (d.atTime t).coalExpire v) rfl hr (Dev.coalExpire_waits (s.dev.atTime t) v hwait) hr

end Sys2Proof.Machine

open Sys2Proof Sys2Proof.Machine

/-- Settles O6: each write changes its one word and asks for the page's message, which its vector sends, holds or keeps pending. -/
theorem interruptWordsAndMessages : Obligations.InterruptWordsAndMessages :=
  ⟨interruptWordWritesAct_holds, messageLeavesWhenAPageStartsToPend_holds, heldMessagesLeaveInTheEnd_holds⟩
end

section
/-! PROOF. Reads through BAR2, and the word that a host write leaves by its access codes. -/
namespace Sys2Proof.Machine

/-- A field of RW bits reads as written. -/
theorem bitsOf_access {old v rw w1c : Word} {lo w : Nat} (h : lo + w ≤ 32) (hrw : fieldMask lo w &&& rw = fieldMask lo w)
    (hw1c : fieldMask lo w &&& w1c = 0) :
    bitsOf (((old &&& ~~~ rw) ||| (v &&& rw)) &&& ~~~ (v &&& w1c)).toNat lo w = bitsOf v.toNat lo w := by
  have hmasked : (((old &&& ~~~ rw) ||| (v &&& rw)) &&& ~~~ (v &&& w1c)) &&& fieldMask lo w = v &&& fieldMask lo w := by
    ext i hi
    have hset : (fieldMask lo w)[i] = true → rw[i] = true := fun hm => by
      have hbit := congrArg (fun x : Word => x[i]) hrw
      simpa [hm] using hbit
    have hclear : (fieldMask lo w)[i] = true → w1c[i] = false := fun hm => by
      have hbit := congrArg (fun x : Word => x[i]) hw1c
      simpa [hm] using hbit
    simp only [BitVec.getElem_and, BitVec.getElem_or, BitVec.getElem_not]
    cases hm : (fieldMask lo w)[i]
    · simp
    · simp [hset hm, hclear hm]
  have hnat := congrArg BitVec.toNat hmasked
  rw [toNat_and_fieldMask _ h, toNat_and_fieldMask _ h] at hnat
  exact Nat.eq_of_mul_eq_mul_right (by positivity) hnat

namespace Dev
section
variable (d : Dev)

/-- A write of a word of the global page follows its access codes. -/
theorem plainWrite_global {off : Nat} {w : WordRow} (v : Word) (hw : rowAt .global 0 off = some w) :
    d.plainWrite globalPage off v = d.setWord off (w.after (d.word off) v) := by
  have haddr : pgAddr globalPage + off = off := Nat.zero_add off
  simp only [plainWrite, globalPage, hw] at haddr ⊢
  rw [haddr]
  rfl

/-! BAR2. -/

theorem transact_bar2 (n : Nat) :
    d.transact reqBar2 n =
      { d.move 8 n with qos := sset (fun _ => 0) d.qos 8192 (d.get F.GLOBAL_BAR2_CTL_QOS) } := by
  have hqos : d.qosOf reqBar2 = d.get F.GLOBAL_BAR2_CTL_QOS := by simp [qosOf, reqBar2]
  rw [← hqos]
  rfl

/-- Bytes of the slabs that hold neither tiles nor audio delay memory are read as stored. -/
theorem storeRead_of_bytes (a n : Nat) (h : ∀ i < n, a + i < 0x1F80000000 ∧
      4 ≤ (d.ownerOf ((a + i) / 0x200000)).1 / 0x1000 ∧ (d.ownerOf ((a + i) / 0x200000)).1 / 0x1000 ≠ 7) :
    d.storeRead a n = (memRead d.bytes a n, d) := by
  induction n generalizing a with
  | zero => rfl
  | succ n ih =>
    have hrest := ih (a + 1) fun i hi => by
      rw [show a + 1 + i = a + (i + 1) by omega]
      exact h (i + 1) (by omega)
    obtain ⟨hspace, hclass, hdelay⟩ := h 0 (by omega)
    rw [Nat.add_zero] at hspace hclass hdelay
    have hbyte : d.storeByte a = some (memGet d.bytes a) := by
      rw [storeByte, if_pos hspace]
      simp only [hdelay, hclass, if_true, if_false]
    simp only [storeRead, hbyte, hrest, memRead]

/-- A read through BAR2 of sound bytes that are neither tiles nor audio delay memory. -/
theorem bar2Read_of_bytes (off n : Nat) (hspace : d.bar2Base + off + n ≤ storeSize) (hopen : d.bar2Open = true)
    (htag : d.tagFree reqBar2 = true)
    (h : ∀ i < n, d.bar2Base + off + i < 0x1F80000000 ∧ d.pcFenced (pcOf (d.bar2Base + off + i)) = false ∧
      (∀ b ∈ d.scrubBad, b / 32 ≠ (d.bar2Base + off + i) / 32) ∧
      4 ≤ (d.ownerOf ((d.bar2Base + off + i) / 0x200000)).1 / 0x1000 ∧
      (d.ownerOf ((d.bar2Base + off + i) / 0x200000)).1 / 0x1000 ≠ 7) :
    d.bar2Read off n {} =
      { d.transact reqBar2 n with resp := some (.bytes (memRead d.bytes (d.bar2Base + off) n) false) } := by
  have hsound : ((List.range n).map (d.bar2Base + off + ·)).find? (fun x =>
      d.pcFenced (pcOf x) || d.scrubBad.any (fun b => b / 32 = x / 32)) = none := by
    rw [List.find?_eq_none]
    intro x hx
    obtain ⟨i, hi, rfl⟩ := List.mem_map.1 hx
    obtain ⟨-, hpc, hbad, -⟩ := h i (List.mem_range.1 hi)
    simpa [hpc] using hbad
  have hread := d.storeRead_of_bytes (d.bar2Base + off) n fun i hi => by
    obtain ⟨hlt, -, -, hclass⟩ := h i hi
    exact ⟨hlt, hclass⟩
  simp only [bar2Read, Nat.not_lt.2 hspace, hopen, htag, hsound, hread, corrected]
  rfl

end
end Dev

/-- A read through BAR2 that answers. -/
theorem exec_bar2Read {s : State} {t n : Nat} {off : BitVec 28} (h : s.answersAt t ⟨.global, 0, 0⟩) {d : Dev}
    (hd : (s.dev.atTime t).bar2Read off.toNat n {} = d) (hr : d.inReset = false) :
    exec (.bar2Read t off n {}) s = .next { s with dev := d } := by
  obtain ⟨hreset, hreach, hv⟩ := h
  exact exec_of_onDev (f := fun d => (d.atTime t).headerGate Dev.globalPage (·.bar2Read off.toNat n {})) rfl hreset
    ((Dev.headerGate_eq _ _ _ hreach hv).trans hd) hr

end Sys2Proof.Machine
end

section
/-! PROOF. BAR2_BASE, of which both halves are taken with the write of the HI word. -/
namespace Sys2Proof.Machine
namespace Dev

theorem exists_rowAt_baseLo : ∃ w, rowAt .global 0 0x54 = some w ∧ w.rw = 0xFFE00000 ∧ w.w1c = 0 :=
  ⟨_, rfl, rfl, rfl⟩

theorem exists_rowAt_baseHi : ∃ w, rowAt .global 0 0x58 = some w ∧ w.rw = 31 ∧ w.w1c = 0 :=
  ⟨_, rfl, rfl, rfl⟩

section
variable (d : Dev)

/-- A write of BAR2_BASE_LO, as it is taken. -/
theorem plainWrite_baseLo (v : Word) :
    ∃ x, d.plainWrite globalPage 0x54 v = d.setWord 0x54 x ∧ bitsOf x.toNat 21 11 = bitsOf v.toNat 21 11 := by
  obtain ⟨w, hw, hrw, hw1c⟩ := exists_rowAt_baseLo
  refine ⟨_, d.plainWrite_global v hw, bitsOf_access (by decide) ?_ ?_⟩
  · rw [hrw]; decide
  · rw [hw1c]; decide

/-- A write of BAR2_BASE_HI. -/
theorem plainWrite_baseHi (v : Word) :
    ∃ x, d.plainWrite globalPage 0x58 v = d.setWord 0x58 x ∧ bitsOf x.toNat 0 5 = bitsOf v.toNat 0 5 := by
  obtain ⟨w, hw, hrw, hw1c⟩ := exists_rowAt_baseHi
  refine ⟨_, d.plainWrite_global v hw, bitsOf_access (by decide) ?_ ?_⟩
  · rw [hrw]; decide
  · rw [hw1c]; decide

/-- The base by its two words. -/
theorem bar2Base_eq {lo hi : Word} (hlo : bitsOf (d.word 0x54).toNat 21 11 = bitsOf lo.toNat 21 11)
    (hhi : bitsOf (d.word 0x58).toNat 0 5 = bitsOf hi.toNat 0 5) :
    d.bar2Base = hi.toNat % 32 * 2 ^ 32 + lo.toNat / 2 ^ 21 * 2 ^ 21 := by
  have hshort : lo.toNat / 2 ^ 21 % 2 ^ 11 = lo.toNat / 2 ^ 21 :=
    Nat.mod_eq_of_lt ((Nat.div_lt_iff_lt_mul (by decide)).2 lo.isLt)
  change bitsOf (d.word 0x58).toNat 0 5 * 2 ^ 32 + bitsOf (d.word 0x54).toNat 21 11 * 2 ^ 21 = _
  rw [hlo, hhi, bitsOf, bitsOf, hshort, pow_zero, Nat.div_one]
  rfl

/-- The device with both words of BAR2_BASE stored, neither of them held or latched. -/
def rebased (x y : Word) : Dev :=
  { d with loHold := d.loHold.filter (fun q => q.1 ≠ 0x54), hiLatch := d.hiLatch.filter (fun q => q.1 ≠ 0x58)
           regs := ((d.setWord 0x54 x).setWord 0x58 y).regs }

theorem word_rebased (x y : Word) (a : Nat) : (d.rebased x y).word a = ((d.setWord 0x54 x).setWord 0x58 y).word a := rfl

/-- The HI word takes with it the LO word that was held. -/
theorem pairHi_base_held {lo hi : Word} (h : d.loHold.find? (fun q => q.1 = 0x54) = some (0x54, lo)) :
    ∃ x y, bitsOf x.toNat 21 11 = bitsOf lo.toNat 21 11 ∧ bitsOf y.toNat 0 5 = bitsOf hi.toNat 0 5 ∧
      d.pairHi globalPage 0x58 hi = d.rebased x y := by
  obtain ⟨x, hx, hxbits⟩ :=
    ({ d with loHold := d.loHold.filter (fun q => q.1 ≠ 0x54) } : Dev).plainWrite_baseLo lo
  obtain ⟨y, hy, hybits⟩ := ({ d with loHold := d.loHold.filter (fun q => q.1 ≠ 0x54)
                                      hiLatch := d.hiLatch.filter (fun q => q.1 ≠ 0x58)
                                      regs := (d.setWord 0x54 x).regs } : Dev).plainWrite_baseHi hi
  refine ⟨x, y, hxbits, hybits, ?_⟩
  rw [pairHi]
  simp only [show pgAddr globalPage + 0x58 = 0x58 by decide, h]
  exact (congrArg (fun e : Dev => ({ e with hiLatch := e.hiLatch.filter (fun q => q.1 ≠ 0x58) } : Dev).plainWrite
    globalPage 0x58 hi) hx).trans hy

/-- With no LO word held, the HI word moves alone. -/
theorem pairHi_base_alone {hi : Word} (h : d.loHold.find? (fun q => q.1 = 0x54) = none) :
    ∃ y, bitsOf y.toNat 0 5 = bitsOf hi.toNat 0 5 ∧
      d.pairHi globalPage 0x58 hi =
        ({ d with hiLatch := d.hiLatch.filter (fun q => q.1 ≠ 0x58), regs := (d.setWord 0x58 y).regs } : Dev) := by
  obtain ⟨y, hy, hybits⟩ := ({ d with hiLatch := d.hiLatch.filter (fun q => q.1 ≠ 0x58) } : Dev).plainWrite_baseHi hi
  refine ⟨y, hybits, ?_⟩
  rw [pairHi]
  simp only [show pgAddr globalPage + 0x58 = 0x58 by decide, h]
  exact hy

end
end Dev

theorem exec_bar2BaseWrite {s : State} {t : Nat} {hi : Word} (h : s.answersAt t ⟨.global, 0, 0⟩) {d : Dev}
    (hd : (s.dev.atTime t).pairHi Dev.globalPage 0x58 hi = d) (hr : d.inReset = false) :
    exec (.bar2BaseWrite t hi) s = .next { s with dev := d } := by
  obtain ⟨hreset, hreach, hv⟩ := h
  exact exec_of_onDev (f := fun d => (d.atTime t).headerGate Dev.globalPage (·.pairHi Dev.globalPage 0x58 hi)) rfl hreset
    ((Dev.headerGate_eq _ _ _ hreach hv).trans hd) hr

/-- A device that answered goes on answering. -/
theorem Dev.reachable_later {d : Dev} {t t' : Nat} (h : (d.atTime t).reachable = true) :
    ((d.atTime t).atTime t').reachable = true := by
  simp only [Dev.reachable, Dev.atTime, Bool.and_eq_true, Bool.or_eq_true, decide_eq_true_eq, ge_iff_le] at h ⊢
  exact ⟨h.1, h.2.imp id fun hlate => hlate.trans (le_max_left _ _)⟩

/-- A read of the staging area's slabs at the base completes with the bytes stored there. -/
theorem answers_bar2Read_staged {s : State} {t n base : Nat} {off : BitVec 28} (h : s.answersAt t ⟨.global, 0, 0⟩)
    (hbase : s.dev.bar2Base = base) (hopen : s.dev.bar2Open = true) (hspace : base + off.toNat + n ≤ 0x1F80000000)
    (htag : s.dev.tagFree reqBar2 = true) (hbad : s.dev.scrubBad = [])
    (hbytes : ∀ i < n, s.dev.pcFenced (pcOf (s.dev.bar2Base + off.toNat + i)) = false ∧
      (s.dev.ownerOf ((s.dev.bar2Base + off.toNat + i) / 0x200000)).1 / 0x1000 = 6) :
    Answers (.bar2Read t off n {}) s (fun e => e.resp = some (.bytes (memRead s.dev.bytes (base + off.toNat) n) false)) := by
  subst hbase
  have hread := Dev.bar2Read_of_bytes (s.dev.atTime t) off.toNat n (hspace.trans (by decide)) hopen htag fun i hi => by
    obtain ⟨hpc, hstage⟩ := hbytes i hi
    replace hstage : ((s.dev.atTime t).ownerOf (((s.dev.atTime t).bar2Base + off.toNat + i) / 0x200000)).1 / 0x1000 = 6 := hstage
    replace hspace : (s.dev.atTime t).bar2Base + off.toNat + n ≤ 0x1F80000000 := hspace
    exact ⟨by omega, hpc, fun b hb => absurd (hbad ▸ hb : b ∈ []) List.not_mem_nil, by omega, by omega⟩
  exact ⟨_, exec_bar2Read h hread h.1, rfl⟩

/-- A write of BAR2_BASE_LO is held. -/
theorem hostWord_baseLo (s : State) (v : Word) (hr : s.dev.reachable = true) (hp : s.dev.powerState .global 0 0 < 2) :
    s.hostWord 0x54 v = s.on (·.holdLo 0x54 v) := by
  have htarget : decodeTarget 0x54 = .page ⟨.global, 0, 0⟩ 0x54 := by decide
  have hlo : loPair .global 0 0x54 = some true := by decide
  have hlive : s.hostLive ⟨.global, 0, 0⟩ 0x54 v [] 0 = s.on (·.holdLo 0x54 v) := by
    change s.on (fun d => d.liveWrite ⟨.global, 0, 0⟩ 0x54 v) = _
    simp only [Dev.liveWrite, hlo]
    rfl
  rw [← hlive]
  simp only [State.hostWord, hr, htarget, Dev.nvmHolds]
  simp [isHandOff, Nat.not_le.2 hp]

end Sys2Proof.Machine

open Sys2Proof Sys2Proof.Machine

/-- Settles O7: the write of the HI word stores both halves; a read through BAR2 then takes its base from the words as they
stand. -/
theorem bar2BaseTakesBothHalves : Obligations.Bar2BaseTakesBothHalves := by
  intro s t lo hi h
  refine ⟨fun hheld => ?_, fun hnone => ?_, fun hp => ?_⟩
  · obtain ⟨x, y, hx, hy, hpair⟩ := Dev.pairHi_base_held (s.dev.atTime t) (hi := hi) hheld
    have hbase : ((s.dev.atTime t).rebased x y).bar2Base = hi.toNat % 32 * 2 ^ 32 + lo.toNat / 2 ^ 21 * 2 ^ 21 := by
      apply Dev.bar2Base_eq
      · rw [Dev.word_rebased, Dev.word_setWord_ne _ _ (by decide), Dev.word_setWord_self, hx]
      · rw [Dev.word_rebased, Dev.word_setWord_self, hy]
    refine ⟨_, exec_bar2BaseWrite h hpair h.1, hbase, fun a ha => ?_, rfl, ?_⟩
    · simp only [List.mem_cons, List.not_mem_nil, or_false, not_or] at ha
      obtain ⟨hlo, hhi⟩ := ha
      rw [Dev.word_rebased, Dev.word_setWord_ne _ _ hhi, Dev.word_setWord_ne _ _ hlo]
      rfl
    · intro t' off n _ hopen hspace htag hbad hbytes
      obtain ⟨hr, hreach, hv⟩ := h
      have hlater : (((s.dev.atTime t).rebased x y).atTime t').reachable = true := Dev.reachable_later (t' := t') hreach
      exact answers_bar2Read_staged ⟨hr, hlater, hv⟩ hbase hopen hspace htag hbad hbytes
  · obtain ⟨y, hy, hpair⟩ := Dev.pairHi_base_alone (s.dev.atTime t) (hi := hi) hnone
    refine ⟨_, exec_bar2BaseWrite h hpair h.1, Dev.bar2Base_eq _ ?_ ?_, ?_⟩
    · exact congrArg (fun w : Word => bitsOf w.toNat 21 11) (Dev.word_setWord_ne (s.dev.atTime t) y (by decide : 0x54 ≠ 0x58))
    · exact (congrArg (fun w : Word => bitsOf w.toNat 0 5) (Dev.word_setWord_self (s.dev.atTime t) 0x58 y)).trans hy
    · exact fun a ha => Dev.word_setWord_ne (s.dev.atTime t) y (by simpa using ha)
  · have hv : BitVec.ofNat 32 (lo.setWidth 64).toNat = lo := by bv_omega
    refine ⟨(s.dev.atTime t).holdLo 0x54 lo, exec_registerWrite_word h.1 (by decide) ?_ h.1, rfl, ?_⟩
    · rw [hv]
      exact hostWord_baseLo (s.atTime t) lo h.2.1 hp
    · simp [Dev.holdLo]
end

section
/-! PROOF. Writes through BAR2, and the window on the LUT banks. -/
namespace Sys2Proof.Machine

/-! The staging area. -/

/-- The byte memory after a run of bytes of which some places are left out. -/
theorem memGet_foldl_memSet (skip : Nat → Bool) (bs : List Byte) (m : List (Nat × Byte)) (a k x : Nat) :
    memGet ((bs.zipIdx k).foldl (fun m b => if skip (a + b.2) then m else memSet m (a + b.2) b.1) m) x =
      if a + k ≤ x ∧ x < a + k + bs.length ∧ skip x = false then bs.getD (x - (a + k)) 0 else memGet m x := by
  induction bs generalizing m k with
  | nil => exact (if_neg fun h => by rw [List.length_nil] at h; omega).symm
  | cons b bs ih =>
    rw [List.zipIdx_cons, List.foldl_cons, ih]
    obtain hlt | rfl | hgt := Nat.lt_trichotomy x (a + k)
    · simp only [show ¬ a + (k + 1) ≤ x by omega, show ¬ a + k ≤ x by omega, false_and, if_false]
      split
      · rfl
      · rw [memGet_memSet, if_neg (by omega)]
    · simp only [show ¬ a + (k + 1) ≤ a + k by omega, false_and, if_false]
      cases skip (a + k) <;> simp [memGet_memSet]
    · have hindex : x - (a + k) = (x - (a + (k + 1))) + 1 := by omega
      have hrest : memGet (if skip (a + k) then m else memSet m (a + k) b) x = memGet m x := by
        split
        · rfl
        · rw [memGet_memSet, if_neg (by omega)]
      rw [hindex, List.getD_cons_succ, hrest]
      refine if_congr ?_ rfl rfl
      rw [List.length_cons, ← and_assoc, ← and_assoc]
      exact and_congr_left' (by omega)

namespace Dev
section
variable (d : Dev)

/-- A write through BAR2 to slabs of HOST_STAGE. -/
theorem bar2Write_of_stage (off : Nat) (bs : List Byte) (hspace : d.bar2Base + off + bs.length ≤ storeSize)
    (hopen : d.bar2Open = true) (htag : d.tagFree reqBar2 = true)
    (h : ∀ i < bs.length, d.bar2Base + off + i < 0x1F80000000 ∧
      some ((d.bar2Base + off + i) / 0x200000) ∈ d.map ownStage) :
    d.bar2Write off bs =
      { d.transact reqBar2 bs.length with
        scrubBad := d.scrubBad.filter (fun b => !(List.range bs.length).any (fun i => (d.bar2Base + off + i) / 32 = b / 32))
        bytes := (bs.zipIdx).foldl (fun m b => if d.pcFenced (pcOf (d.bar2Base + off + b.2)) then m
          else memSet m (d.bar2Base + off + b.2) b.1) d.bytes } := by
  have hstage : (List.range bs.length).all (fun i => d.bar2Base + off + i < 0x1F80000000 &&
      (d.map ownStage).contains (some ((d.bar2Base + off + i) / 0x200000))) = true := by
    rw [List.all_eq_true]
    intro i hi
    obtain ⟨hlt, hmem⟩ := h i (List.mem_range.1 hi)
    simp [hlt, hmem]
  simp only [bar2Write, Nat.not_lt.2 hspace, hopen, hstage, htag]
  rfl

end
end Dev

theorem exec_bar2Write {s : State} {t : Nat} {off : BitVec 28} {bs : List Byte} (h : s.answersAt t ⟨.global, 0, 0⟩) {d : Dev}
    (hd : (s.dev.atTime t).bar2Write off.toNat bs = d) (hr : d.inReset = false) :
    exec (.bar2Write t off bs) s = .next { s with dev := d } := by
  obtain ⟨hreset, hreach, hv⟩ := h
  exact exec_of_onDev (f := fun d => (d.atTime t).headerGate Dev.globalPage (·.bar2Write off.toNat bs)) rfl hreset
    ((Dev.headerGate_eq _ _ _ hreach hv).trans hd) hr

theorem bar2ReachesTheStage_holds : bar2ReachesTheStage := by
  intro s t off h hopen htag
  refine ⟨fun bs hspace hstage => ?_, fun n hspace hbytes => ?_⟩
  · refine ⟨_, exec_bar2Write h (Dev.bar2Write_of_stage (s.dev.atTime t) off.toNat bs hspace hopen htag hstage) ?_, ?_, ?_, ?_, ?_⟩
    · exact h.1
    · rw [Dev.transact_bar2]
      rfl
    · rw [Dev.transact_bar2]
      exact sget_sset_self _ _ _ _
    · intro b
      simp only [List.mem_filter, Bool.not_eq_true', List.any_eq_false, List.mem_range, decide_eq_true_eq]
      rfl
    · intro x
      have hrun := memGet_foldl_memSet (fun y => s.dev.pcFenced (pcOf y)) bs s.dev.bytes (s.dev.bar2Base + off.toNat) 0 x
      rw [Nat.add_zero] at hrun
      exact hrun
  · refine ⟨_, exec_bar2Read h (Dev.bar2Read_of_bytes (s.dev.atTime t) off.toNat n hspace hopen htag hbytes) ?_, rfl, ?_, ?_⟩
    · exact h.1
    · rw [Dev.transact_bar2]
      exact sget_sset_self _ _ _ _
    · rw [Dev.transact_bar2]
      rfl

/-! The LUT window. -/

/-- The component and entry of an aligned offset determine it. -/
theorem lutPlace_some {kind off c e : Nat} (h4 : off % 4 = 0) (h : Dev.lutPlace kind off = some (c, e)) :
    e + 1 < 8192 ∧ if kind = 0 then off = c * 0x2000 + e * 2 ∧ e % 2 = 0 else off = c * 0x5000 + e * 4 := by
  unfold Dev.lutPlace at h
  split at h
  case isTrue hkind =>
    split at h
    · obtain ⟨rfl, rfl⟩ : off / 0x2000 = c ∧ off % 0x2000 / 4 * 2 = e := by simpa using h
      rw [if_pos hkind]
      omega
    · simp at h
  case isFalse hkind =>
    split at h
    · obtain ⟨rfl, rfl⟩ : off / 0x5000 = c ∧ off % 0x5000 / 4 = e := by simpa using h
      rw [if_neg hkind]
      omega
    · simp at h

namespace Dev
section
variable (d : Dev)

/-- An entry of a bank after a write to it. -/
theorem lut_setLut (kind index bank c e v : Nat) {c' e' : Nat} (he : e < 8192) (he' : e' < 8192) :
    (d.setLut kind index bank c e v).lut kind index bank c' e' =
      if c' = c ∧ e' = e then v else d.lut kind index bank c' e' := by
  have hkey : lutKey kind index bank c' e' = lutKey kind index bank c e ↔ c' = c ∧ e' = e := by
    unfold lutKey
    omega
  rw [lut, setLut, sget_sset]
  exact if_congr hkey rfl rfl

/-- Two entries of an input LUT, as one word of the window holds them. -/
def setLutPair (q : Nat × Nat × Nat) (c e : Nat) (v : Word) : Dev :=
  (d.setLut q.1 q.2.1 q.2.2 c e (v.toNat % 65536)).setLut q.1 q.2.1 q.2.2 c (e + 1) (v.toNat / 65536)

theorem lut_setLutPair (q : Nat × Nat × Nat) (c e : Nat) (v : Word) {c' e' : Nat} (he : e + 1 < 8192) (he' : e' < 8192) :
    (d.setLutPair q c e v).lut q.1 q.2.1 q.2.2 c' e' =
      if c' = c ∧ e' = e + 1 then v.toNat / 65536 else if c' = c ∧ e' = e then v.toNat % 65536
      else d.lut q.1 q.2.1 q.2.2 c' e' := by
  rw [setLutPair, lut_setLut _ _ _ _ _ _ _ he he', lut_setLut _ _ _ _ _ _ _ (by omega) he']

/-- A word of the window that holds no entry. -/
theorem lutRead_none {q : Nat × Nat × Nat} {off : Nat} (hq : d.lutSel = some q) (hp : lutPlace q.1 off = none) :
    d.lutRead off = 0 := by
  simp only [lutRead, hq, hp]

/-- A word of the window that holds entries. -/
theorem lutRead_some {q : Nat × Nat × Nat} {off c e : Nat} (hq : d.lutSel = some q) (hp : lutPlace q.1 off = some (c, e)) :
    d.lutRead off =
      if q.1 = 0 then BitVec.ofNat 32 (d.lut q.1 q.2.1 q.2.2 c e + 65536 * d.lut q.1 q.2.1 q.2.2 c (e + 1))
      else BitVec.ofNat 32 (d.lut q.1 q.2.1 q.2.2 c e) := by
  simp only [lutRead, hq, hp]

section
variable {q : Nat × Nat × Nat} {off c e : Nat} (hq : d.lutSel = some q) (hp : lutPlace q.1 off = some (c, e)) (v : Word)
include hq hp

/-- A write to the window of a bank that is not active and not locked. -/
theorem lutWrite_of_open (ha : d.lutActive q = false) (hl : d.lutLocked q = false) :
    d.lutWrite off v =
      if q.1 = 0 then d.setLutPair q c e v else d.setLut q.1 q.2.1 q.2.2 c e (v.toNat % 4096) := by
  simp only [lutWrite, hq, hp, ha, hl]
  rfl

/-- A write to the window of the active bank is logged. -/
theorem lutWrite_of_active (ha : d.lutActive q = true) :
    d.lutWrite off v = d.logErr 5 (0xB00000 + off) true false none := by
  simp only [lutWrite, hq, hp, ha]
  rfl

end

/-- The window after a write of two entries of an input LUT. -/
theorem lutRead_setLut_input {q : Nat × Nat × Nat} {off off' c e : Nat} (hq : d.lutSel = some q) (hkind : q.1 = 0)
    (h4 : off % 4 = 0) (h4' : off' % 4 = 0) (hp : lutPlace q.1 off = some (c, e)) (v : Word) :
    (d.setLutPair q c e v).lutRead off' = if off' = off then v else d.lutRead off' := by
  obtain ⟨hlt, hoff⟩ := lutPlace_some h4 hp
  rw [if_pos hkind] at hoff
  obtain rfl | hne := eq_or_ne off' off
  · have hv : BitVec.ofNat 32 (v.toNat % 65536 + 65536 * (v.toNat / 65536)) = v := by
      rw [Nat.mod_add_div]
      simp
    rw [if_pos rfl, (d.setLutPair q c e v).lutRead_some hq hp, if_pos hkind, lut_setLutPair _ _ _ _ _ hlt (by omega),
      lut_setLutPair _ _ _ _ _ hlt (by omega)]
    simpa using hv
  · rw [if_neg hne]
    obtain hp' | ⟨⟨c', e'⟩, hp'⟩ := (lutPlace q.1 off').eq_none_or_eq_some
    · rw [(d.setLutPair q c e v).lutRead_none hq hp', d.lutRead_none hq hp']
    · obtain ⟨hlt', hoff'⟩ := lutPlace_some h4' hp'
      rw [if_pos hkind] at hoff'
      have hother {x : Nat} (hx : x < 8192) (hsame : x = e' ∨ x = e' + 1) :
          (d.setLutPair q c e v).lut q.1 q.2.1 q.2.2 c' x = d.lut q.1 q.2.1 q.2.2 c' x := by
        rw [lut_setLutPair _ _ _ _ _ hlt hx, if_neg (by omega), if_neg (by omega)]
      rw [(d.setLutPair q c e v).lutRead_some hq hp', d.lutRead_some hq hp', hother (by omega) (.inl rfl),
        hother (by omega) (.inr rfl)]

/-- The window after a write of an entry of an output LUT. -/
theorem lutRead_setLut_output {q : Nat × Nat × Nat} {off off' c e : Nat} (hq : d.lutSel = some q) (hkind : q.1 ≠ 0)
    (h4 : off % 4 = 0) (h4' : off' % 4 = 0) (hp : lutPlace q.1 off = some (c, e)) (v : Word) :
    (d.setLut q.1 q.2.1 q.2.2 c e (v.toNat % 4096)).lutRead off' = if off' = off then v &&& 0xFFF else d.lutRead off' := by
  obtain ⟨hlt, hoff⟩ := lutPlace_some h4 hp
  rw [if_neg hkind] at hoff
  obtain rfl | hne := eq_or_ne off' off
  · have hv : BitVec.ofNat 32 (v.toNat % 4096) = v &&& 0xFFF := by
      apply BitVec.eq_of_toNat_eq
      rw [BitVec.toNat_ofNat, Nat.mod_eq_of_lt (by omega), BitVec.toNat_and]
      exact (Nat.and_two_pow_sub_one_eq_mod _ 12).symm
    rw [if_pos rfl, (d.setLut q.1 q.2.1 q.2.2 c e (v.toNat % 4096)).lutRead_some hq hp, if_neg hkind,
      lut_setLut _ _ _ _ _ _ _ (by omega) (by omega)]
    simpa using hv
  · rw [if_neg hne]
    obtain hp' | ⟨⟨c', e'⟩, hp'⟩ := (lutPlace q.1 off').eq_none_or_eq_some
    · rw [(d.setLut q.1 q.2.1 q.2.2 c e (v.toNat % 4096)).lutRead_none hq hp', d.lutRead_none hq hp']
    · obtain ⟨hlt', hoff'⟩ := lutPlace_some h4' hp'
      rw [if_neg hkind] at hoff'
      rw [(d.setLut q.1 q.2.1 q.2.2 c e (v.toNat % 4096)).lutRead_some hq hp', d.lutRead_some hq hp', if_neg hkind, if_neg hkind,
        lut_setLut _ _ _ _ _ _ _ (by omega) (by omega), if_neg (by omega)]

end
end Dev

theorem exec_lutWindowWrite {s : State} {t : Nat} {off : BitVec 16} {v : Word} (h : s.answersAt t ⟨.global, 0, 0⟩) {d : Dev}
    (hd : (s.dev.atTime t).lutWrite off.toNat v = d) (hr : d.inReset = false) :
    exec (.lutWindowWrite t off v) s = .next { s with dev := d } := by
  obtain ⟨hreset, hreach, hv⟩ := h
  exact exec_of_onDev (f := fun d => (d.atTime t).headerGate Dev.globalPage (·.lutWrite off.toNat v)) rfl hreset
    ((Dev.headerGate_eq _ _ _ hreach hv).trans hd) hr

theorem lutWindowWritesTheBankShown_holds : lutWindowWritesTheBankShown := by
  rintro s t off v q ⟨c, e⟩ h hq h4 hp
  refine ⟨fun ha hl => ?_, fun ha hempty => ?_⟩
  · have hwrite := Dev.lutWrite_of_open (s.dev.atTime t) hq hp v ha hl
    by_cases hkind : q.1 = 0
    · rw [if_pos hkind] at hwrite
      refine ⟨_, exec_lutWindowWrite h hwrite h.1, ?_, fun off' h4' hne => ?_, rfl⟩
      · rw [Dev.lutRead_setLut_input (s.dev.atTime t) hq hkind h4 h4 hp, if_pos rfl, if_pos hkind]
      · rw [Dev.lutRead_setLut_input (s.dev.atTime t) hq hkind h4 h4' hp, if_neg hne]
        rfl
    · rw [if_neg hkind] at hwrite
      refine ⟨_, exec_lutWindowWrite h hwrite h.1, ?_, fun off' h4' hne => ?_, rfl⟩
      · rw [Dev.lutRead_setLut_output (s.dev.atTime t) hq hkind h4 h4 hp, if_pos rfl, if_neg hkind]
      · rw [Dev.lutRead_setLut_output (s.dev.atTime t) hq hkind h4 h4' hp, if_neg hne]
        rfl
  · obtain ⟨haddr, hcause, -, -⟩ := (s.dev.atTime t).logErr_first 5 (0xB00000 + off.toNat) true false hempty
    refine ⟨_, exec_lutWindowWrite h (Dev.lutWrite_of_active (s.dev.atTime t) hq hp v ha) ?_, ?_, hcause, haddr.trans ?_⟩
    · exact (Dev.logErr_inReset _ _ _ _ _ _).trans h.1
    · exact Dev.logErr_luts _ _ _ _ _ _
    · exact Nat.mod_eq_of_lt (by omega)

end Sys2Proof.Machine

open Sys2Proof Sys2Proof.Machine

/-- Settles O8: the run of bytes is written and read byte by byte, and the words of the LUT window stand for entries of their
own. -/
theorem theStageAndTheLutWindow : Obligations.TheStageAndTheLutWindow :=
  ⟨bar2ReachesTheStage_holds, lutWindowWritesTheBankShown_holds⟩
end

section
/-! PROOF. Commands that clear counters: which words they set to 0. -/
namespace Sys2Proof.Machine

/-- The words at some addresses are set to 0, and nothing else is changed. -/
def Zeroes (as : List Nat) (d e : Dev) : Prop :=
  e.aside = d.aside ∧ ∀ a, e.word a = if a ∈ as then 0 else d.word a

namespace Zeroes

theorem refl (d : Dev) : Zeroes [] d d := ⟨rfl, fun _ => (if_neg List.not_mem_nil).symm⟩

theorem trans {as bs : List Nat} {d e f : Dev} (h : Zeroes as d e) (h' : Zeroes bs e f) : Zeroes (as ++ bs) d f := by
  refine ⟨h'.1.trans h.1, fun a => ?_⟩
  rw [h'.2, h.2]
  by_cases ha : a ∈ as <;> by_cases hb : a ∈ bs <;> simp [ha, hb]

/-- An update for each of some numbers. -/
theorem foldl {α : Type} {g : Dev → α → Dev} {as : α → List Nat} (ks : List α)
    (h : ∀ k ∈ ks, ∀ d, Zeroes (as k) d (g d k)) (d : Dev) : Zeroes (ks.flatMap as) d (ks.foldl g d) := by
  induction ks generalizing d with
  | nil => exact refl d
  | cons k ks ih =>
    exact (h k List.mem_cons_self d).trans (ih (fun j hj => h j (List.mem_cons_of_mem _ hj)) (g d k))

/-- A register field that is a whole word. -/
theorem put {f : Fld} {i k : Nat} (hf : f.lo = 0 ∧ f.w = 32) (d : Dev) : Zeroes [f.addr i k 0] d (d.put f 0 i k) := by
  refine ⟨rfl, fun a => ?_⟩
  by_cases ha : a = f.addr i k 0
  · rw [if_pos (List.mem_singleton.2 ha), ha, Dev.word_put_zero _ _ _ _ hf.1 hf.2]
  · rw [if_neg (by simpa using ha), Dev.word_put_ne _ _ _ _ _ _ ha]

theorem clear {fs : List Fld} {i k : Nat} (hf : ∀ f ∈ fs, f.lo = 0 ∧ f.w = 32) (d : Dev) :
    Zeroes (fs.map (·.addr i k 0)) d (d.clear fs i k) := by
  have h := foldl (g := fun d f => d.put f 0 i k) fs (fun f hm d => put (hf f hm) d) d
  rwa [← List.map_eq_flatMap] at h

theorem congr {as bs : List Nat} {d e : Dev} (h : Zeroes as d e) (hmem : ∀ a, a ∈ as ↔ a ∈ bs) : Zeroes bs d e :=
  ⟨h.1, fun a => (h.2 a).trans (if_congr (hmem a) rfl rfl)⟩

theorem put64 (f : Fld) (i k : Nat) (d : Dev) : Zeroes [f.addr i k 0, f.addr i k 0 + 4] d (d.put64 f 0 i k) := by
  refine ⟨rfl, fun a => ?_⟩
  rw [Dev.put64, Dev.word_setWord, Dev.word_setWord]
  simp only [List.mem_cons, List.not_mem_nil, or_false]
  split_ifs <;> simp_all

end Zeroes

/-- A field that is a whole word of a page. -/
abbrev Fld.isWordOf (f : Fld) (b : Blk) (p : Nat) : Prop := (f.lo = 0 ∧ f.w = 32) ∧ f.blk = b ∧ f.page = p

/-- The words at some offsets of a page are set to 0, and nothing else is changed. -/
def ZeroesPage (r : PageRef) (os : List Nat) (d e : Dev) : Prop := Zeroes (os.map (pgAddr r + ·)) d e

namespace ZeroesPage
section
variable {r : PageRef} {b : Blk} {i p k : Nat}

theorem trans {os os' : List Nat} {d e f : Dev} (h : ZeroesPage r os d e) (h' : ZeroesPage r os' e f) :
    ZeroesPage r (os ++ os') d f := by
  rw [ZeroesPage, List.map_append]
  exact Zeroes.trans h h'

theorem foldl {α : Type} {g : Dev → α → Dev} {os : α → List Nat} (ks : List α)
    (h : ∀ k d, ZeroesPage r (os k) d (g d k)) (d : Dev) : ZeroesPage r (ks.flatMap os) d (ks.foldl g d) := by
  rw [ZeroesPage, List.map_flatMap]
  exact Zeroes.foldl ks (fun k _ => h k) d

/-- The address of a word by its offset in its page. -/
theorem addr_eq {f : Fld} (hf : f.isWordOf b p) : f.addr i k 0 = pgAddr ⟨b, i, p⟩ + (f.off + k * f.str) := by
  obtain ⟨-, rfl, rfl⟩ := hf
  simp only [Fld.addr, pgAddr]
  omega

theorem put {f : Fld} (hf : f.isWordOf b p) (d : Dev) : ZeroesPage ⟨b, i, p⟩ [f.off + k * f.str] d (d.put f 0 i k) := by
  have h := Zeroes.put (i := i) (k := k) hf.1 d
  rwa [addr_eq hf] at h

theorem clear {fs : List Fld} (hf : ∀ f ∈ fs, f.isWordOf b p) (d : Dev) :
    ZeroesPage ⟨b, i, p⟩ (fs.map (fun f => f.off + k * f.str)) d (d.clear fs i k) := by
  have h := Zeroes.clear (i := i) (k := k) (fun f hm => (hf f hm).1) d
  rw [List.map_congr_left fun f hm => addr_eq (hf f hm)] at h
  rwa [ZeroesPage, List.map_map]

end
end ZeroesPage

/-- What clearedWords gives for whole words. -/
theorem find?_wholeWords (p a : Nat) (os : List Nat) (x : Word) :
    (match (wholeWords os).find? (fun w => a = p + w.1) with
      | some w => x &&& ~~~ w.2
      | none => x) = if a ∈ os.map (p + ·) then 0 else x := by
  induction os with
  | nil => rfl
  | cons o os ih =>
    by_cases ha : a = p + o
    · simp [wholeWords, ha]
    · simpa [wholeWords, ha] using ih

/-- The statement of O5 for one command. -/
def ClearsAsTabled (c : Instr) : Prop :=
  ∀ (s : State) (t : Nat) (r : PageRef) (ws : List (Nat × Word)),
    clearedWords c = some (t, r, ws) → s.takesAt t r → (r.blk = .nvm → s.dev.nvBusy = false) →
      Answers c s (fun d => s.dev.wordsOnly d t ∧
        ∀ a, d.word a = match ws.find? (fun w => a = pgAddr r + w.1) with
          | some w => s.dev.word a &&& ~~~ w.2
          | none => s.dev.word a)

/-- A command that clears whole words of a page. -/
theorem clearsAsTabled_of_zeroes {c : Instr} {t off : Nat} {r : PageRef} {os : List Nat} {f : Dev → Dev}
    (htable : clearedWords c = some (t, r, wholeWords os))
    (hc : ∀ s, exec c s = s.onDev (fun d => (d.atTime t).gate r off f)) (hf : ∀ d, ZeroesPage r os d (f d)) : ClearsAsTabled c := by
  intro s t' r' ws hws htakes _
  rw [htable] at hws
  obtain ⟨rfl, rfl, rfl⟩ : t = t' ∧ r = r' ∧ wholeWords os = ws := by simpa using hws
  obtain ⟨⟨hr, hreach, hv⟩, hp⟩ := htakes
  obtain ⟨haside, hword⟩ := hf (s.dev.atTime t)
  refine ⟨_, exec_of_onDev (hc s) hr (Dev.gate_eq _ r off f hreach hv hp) ?_, haside, fun a => ?_⟩
  · exact (congrArg Dev.inReset haside).trans hr
  · rw [find?_wholeWords, hword]
    rfl

/-- A command that clears some of a page's words. -/
theorem clearsAsTabled_of_clear {c : Instr} {t off : Nat} {b : Blk} {i p : Nat} {os : List Nat} (fs : List Fld)
    (htable : clearedWords c = some (t, ⟨b, i, p⟩, wholeWords os))
    (hc : ∀ s, exec c s = s.onDev (fun d => (d.atTime t).gate ⟨b, i, p⟩ off (·.clear fs i)))
    (hf : ∀ f ∈ fs, f.isWordOf b p) (hos : fs.map (fun f => f.off + 0 * f.str) = os) : ClearsAsTabled c :=
  clearsAsTabled_of_zeroes htable hc (hos ▸ ZeroesPage.clear hf)

/-- A clear of some words of each unit that a mask names; `place` is the index of the fields of the unit. -/
theorem zeroesPage_masked {b : Blk} {i p n : Nat} {m : Nat → Bool} {fs : List Fld} {os : Nat → List Nat} {place : Nat → Nat}
    (hf : ∀ f ∈ fs, f.isWordOf b p) (hos : ∀ k, fs.map (fun f => f.off + place k * f.str) = os k) (d : Dev) :
    ZeroesPage ⟨b, i, p⟩ (((List.range n).filter m).flatMap os) d
      (((List.range n).filter m).foldl (fun d k => d.clear fs i (place k)) d) :=
  ZeroesPage.foldl _ (fun k d => hos k ▸ ZeroesPage.clear hf d) d

theorem bitsOf_one_eq {w : Nat} (m : BitVec w) (k : Nat) : decide (bitsOf m.toNat k 1 = 1) = m.getLsbD k := by
  rw [bitsOf, BitVec.getLsbD, Nat.testBit_eq_decide_div_mod_eq, pow_one]

theorem inMask_eq {w : Nat} (m : BitVec w) : Dev.inMask m.toNat = m.getLsbD := by
  funext k
  rw [Dev.inMask, BitVec.getLsbD, Nat.testBit_eq_decide_div_mod_eq]

theorem clearsAsTabled_ainClear (t : Nat) (m : BitVec 16) : ClearsAsTabled (.ainClear t m) :=
  clearsAsTabled_of_zeroes rfl (fun _ => rfl) fun d => by
    simp only [bitsOf_one_eq]
    exact zeroesPage_masked (place := id) (by decide)
      (fun k => by simp [F.AUDIO_PARITY_ERR, F.AUDIO_CRCC_ERR, F.AUDIO_INVALID, F.AUDIO_LOCK_LOSS, Nat.mul_comm]) d

theorem clearsAsTabled_aoutFilledClear (t : Nat) (m : BitVec 16) : ClearsAsTabled (.aoutFilledClear t m) :=
  clearsAsTabled_of_zeroes rfl (fun _ => rfl) fun d => by
    simp only [bitsOf_one_eq]
    exact zeroesPage_masked (place := id) (by decide) (fun k => by simp [F.AUDIO_AOUT_FILLED, Nat.mul_comm]) d

theorem clearsAsTabled_asendPktsClear (t : Nat) (hi : Bool) (m : BitVec 32) : ClearsAsTabled (.asendPktsClear t hi m) :=
  clearsAsTabled_of_zeroes rfl (fun _ => rfl) fun d => by
    simp only [bitsOf_one_eq]
    exact zeroesPage_masked (place := fun k => if hi then k + 32 else k) (by decide)
      (fun k => by simp [F.AUDIO_ASEND_PKTS, Nat.mul_comm]) d

theorem clearsAsTabled_tatreSendCntClear (t : Nat) (page : Fin 16) (m : BitVec 16) :
    ClearsAsTabled (.tatreSendCntClear t page m) :=
  clearsAsTabled_of_zeroes rfl (fun _ => rfl) fun d => by
    simp only [Dev.tatreClear, inMask_eq]
    exact zeroesPage_masked (place := id) (by decide)
      (fun k => by simp [F.SENDT_TILES, F.SENDT_STAMPED, F.SENDT_FRAMES, F.SENDT_SKIPPED, Nat.mul_comm]) d

theorem clearsAsTabled_sendCntClear (t : Nat) (page : Fin 4) (m : BitVec 16) : ClearsAsTabled (.sendCntClear t page m) :=
  clearsAsTabled_of_zeroes rfl (fun _ => rfl) fun d => by
    rw [← List.foldl_filter]
    exact zeroesPage_masked (place := id) (by decide)
      (fun k => by simp [F.SENDV_PACKETS, F.SENDV_FRAMES, F.SENDV_LATE, Nat.mul_comm]) d

theorem clearsAsTabled_nportCntClear (t : Nat) (port : Fin 4) : ClearsAsTabled (.nportCntClear t port) :=
  clearsAsTabled_of_zeroes rfl (fun _ => rfl) fun d =>
    ZeroesPage.foldl (List.range 4) (fun _ d => ZeroesPage.clear (by decide) d) d

theorem clearsAsTabled_witnessCntClear (t : Nat) (h : Fin 64) : ClearsAsTabled (.witnessCntClear t h) :=
  clearsAsTabled_of_zeroes rfl (fun _ => rfl) fun d =>
    (ZeroesPage.foldl (List.range 16) (fun _ d => ZeroesPage.clear (by decide) d) d).trans (ZeroesPage.clear (by decide) _)

theorem clearsAsTabled_meldClear (t : Nat) (head : Fin 64) : ClearsAsTabled (.meldClear t head) :=
  clearsAsTabled_of_zeroes rfl (fun _ => rfl) fun d =>
    (ZeroesPage.foldl (List.range 4) (fun _ d => ZeroesPage.put (by decide) d) d).trans (ZeroesPage.put (by decide) _)

theorem clearsAsTabled_memswCntClear (t : Nat) : ClearsAsTabled (.memswCntClear t) :=
  clearsAsTabled_of_zeroes rfl (fun _ => rfl) fun d =>
    ((Zeroes.clear (by decide) d).trans (Zeroes.put64 F.MEMSW_UE_ADDR_LO_ADDR 0 0 _)).congr fun _ => List.Perm.mem_iff (by decide)

theorem ZeroesPage.lput {f : Fld} (hf : f.isWordOf .mlane 0) (n : Nat) (d : Dev) :
    ZeroesPage (Dev.lanePage n) [f.off] d (d.lput f 0 n) := by
  have h := ZeroesPage.put (f := laneFld f n) (i := laneIdx n) (k := 0) ⟨hf.1, rfl, hf.2.2⟩ d
  rwa [Nat.zero_mul] at h

theorem clearsAsTabled_laneCntClear (t : Nat) (n : Fin 112) : ClearsAsTabled (.laneCntClear t n) := by
  have hpage : (if (n : Nat) < 96 then ⟨.mlane, n, 0⟩ else ⟨.nlane, n - 96, 0⟩ : PageRef) = Dev.lanePage n := by
    unfold Dev.lanePage laneBlk laneIdx
    split <;> rfl
  refine clearsAsTabled_of_zeroes (r := Dev.lanePage n) (congrArg (fun r => some (t, r, _)) hpage) (fun _ => rfl) fun d => ?_
  have hevents := (ZeroesPage.lput (f := F.MLANE_LOS_EVENTS) (by decide) n d).trans
    (ZeroesPage.lput (f := F.MLANE_LOL_EVENTS) (by decide) n _)
  unfold Dev.laneCntClear
  split
  case isTrue hmedia =>
    have hbip := ZeroesPage.put (f := F.MLANE_BIP_ERR) (i := n) (k := 0) (b := .mlane) (p := 0) (by decide)
      ((d.lput F.MLANE_LOS_EVENTS 0 n).lput F.MLANE_LOL_EVENTS 0 n)
    rw [← if_pos (c := (n : Nat) < 96) (t := (⟨.mlane, n, 0⟩ : PageRef)) hmedia, hpage] at hbip
    exact hevents.trans hbip
  case isFalse hnet => exact hevents

/-! Records whose words hold several fields. -/

/-- The bits of a word that some fields are. -/
def fieldsMask (fs : List Fld) (i k a : Nat) : Word :=
  fs.foldr (fun f m => (if a = f.addr i k 0 then fieldMask f.lo f.w else 0) ||| m) 0

theorem fieldsMask_of_notMem {fs : List Fld} {i k a : Nat} (h : a ∉ fs.map (·.addr i k 0)) : fieldsMask fs i k a = 0 := by
  induction fs with
  | nil => rfl
  | cons f fs ih =>
    rw [List.map_cons, List.mem_cons, not_or] at h
    have hcons : fieldsMask (f :: fs) i k a =
        (if a = f.addr i k 0 then fieldMask f.lo f.w else 0) ||| fieldsMask fs i k a := rfl
    rw [hcons, if_neg h.1, ih h.2]
    rfl

theorem and_not_zero (x : Word) : x &&& ~~~ (0 : Word) = x := by
  rw [show ~~~ (0 : Word) = BitVec.allOnes 32 from rfl, BitVec.and_allOnes]

/-- A clear leaves the bits of every word that are none of its fields. -/
theorem Dev.word_clear_fields (d : Dev) {fs : List Fld} {i k : Nat} (hf : ∀ f ∈ fs, f.lo + f.w ≤ 32) (a : Nat) :
    (d.clear fs i k).word a = d.word a &&& ~~~ fieldsMask fs i k a := by
  induction fs generalizing d with
  | nil => exact (and_not_zero _).symm
  | cons f fs ih =>
    have hcons : fieldsMask (f :: fs) i k a =
        (if a = f.addr i k 0 then fieldMask f.lo f.w else 0) ||| fieldsMask fs i k a := rfl
    have hput : (d.put f 0 i k).word a = d.word a &&& ~~~ (if a = f.addr i k 0 then fieldMask f.lo f.w else 0) := by
      split
      case isTrue h => rw [h]; exact d.word_putAt_zero _ (hf f List.mem_cons_self)
      case isFalse h => rw [Dev.word_put_ne _ _ _ _ _ _ h, and_not_zero]
    have hrest : (d.clear (f :: fs) i k).word a = (d.put f 0 i k).word a &&& ~~~ fieldsMask fs i k a :=
      ih _ fun g hg => hf g (List.mem_cons_of_mem _ hg)
    rw [hrest, hput, hcons, BitVec.and_assoc]
    congr 1
    ext j hj
    simp [Bool.not_or]

theorem Dev.clear_aside (d : Dev) (fs : List Fld) (i k : Nat) : (d.clear fs i k).aside = d.aside :=
  foldl_keeps (f := fun d f => d.put f 0 i k) Dev.aside (fun _ _ _ => rfl) d

/-- The bits that a table gives for a word. -/
def tableMask (p : Nat) (ws : List (Nat × Word)) (a : Nat) : Word :=
  match ws.find? (fun w => a = p + w.1) with
  | some w => w.2
  | none => 0

theorem word_tableMask (p : Nat) (ws : List (Nat × Word)) (a : Nat) (x : Word) :
    (match ws.find? (fun w => a = p + w.1) with
      | some w => x &&& ~~~ w.2
      | none => x) = x &&& ~~~ tableMask p ws a := by
  unfold tableMask
  cases ws.find? (fun w => a = p + w.1)
  case none => exact (and_not_zero x).symm
  case some w => rfl

/-- Fields and a table that agree on the words they name agree on every word. -/
theorem fieldsMask_eq_tableMask {fs : List Fld} {p : Nat} {ws : List (Nat × Word)}
    (hwords : ∀ w ∈ ws, p + w.1 ∈ fs.map (·.addr 0 0 0))
    (hbits : ∀ a ∈ fs.map (·.addr 0 0 0), fieldsMask fs 0 0 a = tableMask p ws a) (a : Nat) :
    fieldsMask fs 0 0 a = tableMask p ws a := by
  by_cases ha : a ∈ fs.map (·.addr 0 0 0)
  · exact hbits a ha
  · have hnone : ws.find? (fun w => a = p + w.1) = none := by
      rw [List.find?_eq_none]
      intro w hw heq
      exact ha (of_decide_eq_true heq ▸ hwords w hw)
    rw [fieldsMask_of_notMem ha, tableMask, hnone]

/-- A command that clears fields of a page's words. -/
theorem clearsAsTabled_of_fields {c : Instr} {t : Nat} {r : PageRef} {ws : List (Nat × Word)} (fs : List Fld)
    (htable : clearedWords c = some (t, r, ws))
    (hc : ∀ s : State, s.takesAt t r → (r.blk = .nvm → s.dev.nvBusy = false) →
      exec c s = .next { s with dev := (s.dev.atTime t).clear fs })
    (hf : ∀ f ∈ fs, f.lo + f.w ≤ 32) (hmask : ∀ a, fieldsMask fs 0 0 a = tableMask (pgAddr r) ws a) : ClearsAsTabled c := by
  intro s t' r' ws' hws htakes hn
  rw [htable] at hws
  obtain ⟨rfl, rfl, rfl⟩ : t = t' ∧ r = r' ∧ ws = ws' := by simpa using hws
  refine ⟨_, hc s htakes hn, Dev.clear_aside _ _ _ _, fun a => ?_⟩
  rw [word_tableMask, Dev.word_clear_fields _ hf, hmask]
  rfl

/-- A command that clears fields of a page that is no page of the store. -/
theorem exec_clear {c : Instr} {s : State} {t off : Nat} {r : PageRef} {fs : List Fld} (h : s.takesAt t r)
    (hc : exec c s = s.onDev (fun d => (d.atTime t).gate r off (·.clear fs))) :
    exec c s = .next { s with dev := (s.dev.atTime t).clear fs } := by
  obtain ⟨⟨hr, hreach, hv⟩, hp⟩ := h
  exact exec_of_onDev hc hr (Dev.gate_eq _ r off _ hreach hv hp)
    ((Dev.clear_inReset _ _ _ _).trans hr)

theorem clearsAsTabled_errClear (t : Nat) : ClearsAsTabled (.errClear t) :=
  clearsAsTabled_of_fields _ rfl (fun _ h _ => exec_clear h rfl) (by decide) (fieldsMask_eq_tableMask (by decide) (by decide))

theorem clearsAsTabled_defClear (t : Nat) : ClearsAsTabled (.defClear t) :=
  clearsAsTabled_of_fields _ rfl (fun _ h _ => exec_clear h rfl) (by decide) (fieldsMask_eq_tableMask (by decide) (by decide))

/-- The records that CNT_CLR of the store clears (R428). -/
def nvmRecords : List Fld := [F.NVM_CE_COUNT, F.NVM_UE_COUNT, F.NVM_UE_ADDR_ADDR, F.NVM_SCRUB_PASSES, F.NVM_TORN_WRITES]

theorem hostWord_nvmCntClear (s : State) (hr : s.dev.reachable = true) (hp : s.dev.powerState .nvm 0 0 < 2)
    (hn : s.dev.nvBusy = false) : s.hostWord 0x400D8 1 = { s with dev := s.dev.clear nvmRecords } := by
  have htarget : decodeTarget 0x400D8 = .page ⟨.nvm, 0, 0⟩ 0xD8 := by decide
  have hfree : s.dev.nvmHolds ⟨.nvm, 0, 0⟩ = false := hn
  have hlive : s.hostLive ⟨.nvm, 0, 0⟩ 0xD8 1 [] 0 = { s with dev := s.dev.clear nvmRecords } := rfl
  rw [← hlive]
  simp only [State.hostWord, hr, htarget, hfree]
  simp [isHandOff, Nat.not_le.2 hp]

theorem clearsAsTabled_nvmCntClear (t : Nat) : ClearsAsTabled (.nvmCntClear t) := by
  refine clearsAsTabled_of_fields nvmRecords rfl (fun s h hn => ?_) (by decide) (fieldsMask_eq_tableMask (by decide) (by decide))
  obtain ⟨⟨hr, hreach, -⟩, hp⟩ := h
  have hexec : exec (.nvmCntClear t) s = s.onAll (fun s => (s.atTime t).hostWord 0x400D8 1) := rfl
  have hhost : (s.atTime t).hostWord 0x400D8 1 = { s.atTime t with dev := (s.dev.atTime t).clear nvmRecords } :=
    hostWord_nvmCntClear (s.atTime t) hreach hp (hn rfl)
  have hreset : ((s.dev.atTime t).clear nvmRecords).inReset = false :=
    (Dev.clear_inReset _ _ _ _).trans hr
  exact exec_of_onAll hexec hr hhost hreset

theorem clearsAsTabled (c : Instr) : ClearsAsTabled c := by
  cases c
  case ledgerClear | snapClear | ingestCntClear | ingestFreshClear | talonCntClear | recorderClear | engineCntClear
      | layerFreshClear | chaseClear | selClear | compClear | timingClear | obufClear | oportCntClear | timeCntClear
      | delayStepsClear | powerCntClear =>
    exact clearsAsTabled_of_clear _ rfl (fun _ => rfl) (by decide) (by decide)
  case refCntClear | dealCntClear | dealerCntClear | chainCntClear =>
    exact clearsAsTabled_of_clear (t := 0) _ rfl (fun s => by simp only [Dev.atTime_zero]; rfl) (by decide) (by decide)
  case memswCntClear t => exact clearsAsTabled_memswCntClear t
  case meldClear t head => exact clearsAsTabled_meldClear t head
  case witnessCntClear t h => exact clearsAsTabled_witnessCntClear t h
  case nportCntClear t port => exact clearsAsTabled_nportCntClear t port
  case laneCntClear t n => exact clearsAsTabled_laneCntClear t n
  case sendCntClear t page m => exact clearsAsTabled_sendCntClear t page m
  case tatreSendCntClear t page m => exact clearsAsTabled_tatreSendCntClear t page m
  case ainClear t m => exact clearsAsTabled_ainClear t m
  case aoutFilledClear t m => exact clearsAsTabled_aoutFilledClear t m
  case asendPktsClear t hi m => exact clearsAsTabled_asendPktsClear t hi m
  case errClear t => exact clearsAsTabled_errClear t
  case defClear t => exact clearsAsTabled_defClear t
  case nvmCntClear t => exact clearsAsTabled_nvmCntClear t
  all_goals exact fun _ _ _ _ h => absurd h (Option.some_ne_none _).symm

end Sys2Proof.Machine

open Sys2Proof Sys2Proof.Machine

/-- Settles O5: each command sets fields of its page to 0, and those fields are the words and bits of the table. -/
theorem clearsZeroTheirCountersAndNothingElse : Obligations.ClearsZeroTheirCountersAndNothingElse :=
  fun c => clearsAsTabled c
end

section
/-! PROOF. What decides whether a unit runs: the hand, the instances of power, the fence records and the CTL words. No fence,
release, vote or reset of a unit changes them but where it says so (R65 to R69, R431 to R438, R451). -/
namespace Sys2Proof.Machine
namespace Dev

/-- The hand, the instances' power requests, the reset, the fence records, and the CTL word of every page. -/
def gating (d : Dev) : HandSt × List (Nat × PowUnit) × Bool × List (Nat × List FenceRec) × (Nat → Word) :=
  (d.hand, d.units, d.inReset, d.fences, fun a => if a % 0x1000 = 0x08 then d.word a else 0)

section
variable {d e : Dev}

theorem gating_fences (h : e.gating = d.gating) : e.fences = d.fences := congrArg (·.2.2.2.1) h
theorem gating_of (hrest : e.rest = d.rest) (hword : ∀ a, a % 0x1000 = 0x08 → e.word a = d.word a) : e.gating = d.gating := by
  have hctl : (fun a => if a % 0x1000 = 0x08 then e.word a else 0) = fun a => if a % 0x1000 = 0x08 then d.word a else 0 := by
    funext a
    split
    · next ha => exact hword a ha
    · rfl
  rw [gating, gating, rest_hand hrest, rest_units hrest, rest_inReset hrest, rest_fences hrest, hctl]

end

section
variable (d : Dev)

/-! Register words and events. -/

theorem gating_setWord {a : Nat} (v : Word) (h : a % 0x1000 ≠ 0x08) : (d.setWord a v).gating = d.gating :=
  gating_of rfl fun b hb => word_setWord_ne d v (by rintro rfl; exact h hb)

@[simp] theorem gating_putAt {a : Nat} (lo w x : Nat) (h : a % 0x1000 ≠ 0x08) : (d.putAt a lo w x).gating = d.gating :=
  d.gating_setWord _ h

theorem addr_mod (f : Fld) (i k j : Nat) : f.addr i k j % 0x1000 = (f.off + k * f.str + j * f.str2) % 0x1000 := by
  obtain ⟨m, hm⟩ := dvd_pageAddr f.blk i f.page
  simp only [Fld.addr]
  omega

@[simp] theorem gating_put {f : Fld} {k j : Nat} (x i : Nat) (h : (f.off + k * f.str + j * f.str2) % 0x1000 ≠ 0x08) :
    (d.put f x i k j).gating = d.gating := d.gating_putAt _ _ _ (by rwa [addr_mod])

@[simp] theorem gating_putB {f : Fld} {k : Nat} (x : Bool) (i : Nat) (h : (f.off + k * f.str + 0 * f.str2) % 0x1000 ≠ 0x08) :
    (d.putB f x i k).gating = d.gating := d.gating_put _ _ h

@[simp] theorem gating_count {f : Fld} {k : Nat} (i n : Nat) (h : (f.off + k * f.str + 0 * f.str2) % 0x1000 ≠ 0x08) :
    (d.count f i k n).gating = d.gating := d.gating_put _ _ h

@[simp] theorem gating_put64 {f : Fld} {k : Nat} (x i : Nat) (h : (f.off + k * f.str + 0 * f.str2) % 0x1000 ≠ 0x08)
    (h' : (f.off + k * f.str + 0 * f.str2 + 4) % 0x1000 ≠ 0x08) : (d.put64 f x i k).gating = d.gating := by
  have haddr := addr_mod f i k 0
  rw [put64, gating_setWord _ _ (by omega), gating_setWord _ _ (by omega)]

theorem header_mod (r : PageRef) (o : Nat) : (pgAddr r + o) % 0x1000 = o % 0x1000 := by
  obtain ⟨m, hm⟩ := dvd_pageAddr r.blk r.inst r.page
  simp only [pgAddr]
  omega

@[simp] theorem gating_irqSet (r : PageRef) (b : Nat) : (d.irqSet r b).gating = d.gating := by
  refine gating_of (irqSet_rest d r b) fun a ha => word_irqSet_ne d r b ?_
  rintro rfl
  rw [header_mod] at ha
  exact absurd ha (by decide)

@[simp] theorem gating_irq (b : Blk) (i p n : Nat) : (d.irq b i p n).gating = d.gating := d.gating_irqSet _ _

@[simp] theorem gating_irqAll (b : Blk) (i p n : Nat) : (d.irqAll b i p n).gating = d.gating :=
  foldl_keeps gating (fun e r _ => e.gating_irqSet r _) d

@[simp] theorem gating_setRelRefused (b : Blk) (i p v : Nat) : (d.setRelRefused b i p v).gating = d.gating := by
  obtain ⟨m, hm⟩ := dvd_pageAddr b i (mainPage b p)
  exact d.gating_putAt _ _ _ (by rw [fenceKey]; omega)

/-! Hidden state. -/

@[simp] theorem gating_updCtx (n : Nat) (f : CtxSt → CtxSt) : (d.updCtx n f).gating = d.gating := rfl
@[simp] theorem gating_updLayer (n : Nat) (f : LayerSt → LayerSt) : (d.updLayer n f).gating = d.gating := rfl
@[simp] theorem gating_updTm (f : TimeSt → TimeSt) : (d.updTm f).gating = d.gating := rfl
@[simp] theorem gating_setLane (n : Nat) (c : LaneSt) : (d.setLane n c).gating = d.gating := rfl
@[simp] theorem gating_updLane (n : Nat) (f : LaneSt → LaneSt) : (d.updLane n f).gating = d.gating := rfl
@[simp] theorem gating_setHeadSt (n : Nat) (c : HeadSt) : (d.setHeadSt n c).gating = d.gating := rfl
@[simp] theorem gating_updHeadSt (n : Nat) (f : HeadSt → HeadSt) : (d.updHeadSt n f).gating = d.gating := rfl
@[simp] theorem gating_setRecHead (n : Nat) (c : RecHead) : (d.setRecHead n c).gating = d.gating := rfl
@[simp] theorem gating_setTsend (n : Nat) (c : TSend) : (d.setTsend n c).gating = d.gating := rfl
@[simp] theorem gating_setPort (n : Nat) (c : PortSt) : (d.setPort n c).gating = d.gating := rfl
@[simp] theorem gating_setReads (n : Nat) (ps : List Pic) : (d.setReads n ps).gating = d.gating := rfl
@[simp] theorem gating_setTile (n : Nat) (c : Tile) : (d.setTile n c).gating = d.gating := rfl
@[simp] theorem gating_setDom (x : Nat) (u : PowUnit) : (d.setDom x u).gating = d.gating := rfl
@[simp] theorem gating_fillAt (o k s : Nat) : (d.fillAt o k s).gating = d.gating := rfl
@[simp] theorem gating_netHeal (n : Nat) : (d.netHeal n).gating = d.gating := rfl
@[simp] theorem gating_engHold (n : Nat) : (d.engHold n).gating = d.gating := rfl

/-- An update for each of some numbers. -/
theorem gating_foldl {β : Type} {f : Dev → β → Dev} (l : List β) (h : ∀ e, ∀ b ∈ l, (f e b).gating = e.gating) :
    (l.foldl f d).gating = d.gating := foldl_keeps gating h d

/-! Snapshot triggers. -/

theorem gating_snapMissed : d.snapMissed.gating = d.gating := by simp (disch := decide) [snapMissed]

theorem gating_snapTrigger (src t : Nat) : (d.snapTrigger src t).gating = d.gating := by
  have hpending (e : Nat) : ((d.put F.SNAP_STS_PENDING 1).put64 F.SNAP_PENDING_E_LO e).gating = d.gating := by
    simp (disch := decide)
  have hsrc (e : Dev) : ({ e with snapSrc := src } : Dev).gating = e.gating := rfl
  have hmerged : (d.count F.SNAP_MERGED).gating = d.gating := d.gating_count 0 1 (by decide)
  unfold snapTrigger
  dsimp only
  split
  · rfl
  · split
    · exact d.gating_snapMissed
    · split
      · exact hmerged
      · split
        · exact hmerged
        · exact (hsrc _).trans (hpending _)

@[simp] theorem gating_snapFault (bit : Nat) (b : Blk) (i : Nat) : (d.snapFault bit b i).gating = d.gating := by
  unfold snapFault
  split
  · rw [gating_snapTrigger]
    simp (disch := decide)
  · rfl

/-! Slabs. -/

@[simp] theorem gating_fillEmpty : d.fillEmpty.gating = d.gating := by
  refine gating_foldl d _ fun e p _ => gating_foldl e _ fun e k _ => ?_
  split
  · split
    · exact (gating_foldl _ _ fun e s _ => e.gating_setTile _ _).trans (e.gating_fillAt _ _ _)
    · rfl
  · rfl

@[simp] theorem gating_stageStatus : d.stageStatus.gating = d.gating := by
  unfold stageStatus
  dsimp only
  split <;> simp (disch := decide)

@[simp] theorem gating_releaseSlabs : d.releaseSlabs.gating = d.gating := by
  unfold releaseSlabs
  rw [gating_stageStatus, gating_fillEmpty]
  rfl

@[simp] theorem gating_stageApply : d.stageApply.gating = d.gating := by
  unfold stageApply
  dsimp only
  rw [gating_stageStatus, gating_fillEmpty, gating_stageStatus]
  split <;> rfl

@[simp] theorem gating_talonServe : d.talonServe.gating = d.gating := by
  unfold talonServe
  split
  · rfl
  · refine (gating_foldl _ _ fun e q _ => ?_).trans rfl
    cases q
    case release => exact e.gating_releaseSlabs
    case stage => exact e.gating_stageApply

end
end Dev
end Sys2Proof.Machine
end

section
/-! PROOF. What decides whether a unit runs, under what stops and starts lanes, interfaces and contexts (R89 to R109, R136, R140,
R353, R355). -/
namespace Sys2Proof.Machine
namespace Dev
section
variable (d : Dev)

/-! Contexts. -/

@[simp] theorem gating_setCtxState (n st : Nat) : (d.setCtxState n st).gating = d.gating := by
  simp (disch := decide) [setCtxState]

@[simp] theorem gating_noteCause (n : Nat) : (d.noteCause n).gating = d.gating := rfl
@[simp] theorem gating_noteLayer (n : Nat) : (d.noteLayer n).gating = d.gating := rfl

@[simp] theorem gating_discardCur (n reason : Nat) : (d.discardCur n reason).gating = d.gating := by
  unfold discardCur
  split
  · split <;> simp (disch := decide) [discard]
  · rfl

theorem gating_changeUndo (n : Nat) : (d.changeUndo n).gating = d.gating := by
  have hbit (e : Dev) : (e.putAt (pageAddr .ingest n 0 + 0x10) 2 1 0).gating = e.gating :=
    e.gating_putAt _ _ _ (by rw [show pageAddr .ingest n 0 = pgAddr ⟨.ingest, n, 0⟩ from rfl, header_mod]; decide)
  unfold changeUndo
  split
  · split
    · dsimp only
      rw [gating_updCtx]
      split <;> simp (disch := decide) [hbit]
    · rfl
  · rfl

@[simp] theorem gating_ctxLose (n : Nat) : (d.ctxLose n).gating = d.gating := by
  unfold ctxLose
  split
  · simp (disch := decide) [gating_changeUndo]
  · rfl

@[simp] theorem gating_ctxSearch (n : Nat) : (d.ctxSearch n).gating = d.gating := by simp [ctxSearch]

@[simp] theorem gating_hbFail (n : Nat) (v : Bool) : (d.hbFail n v).gating = d.gating := by
  unfold hbFail
  split
  · rfl
  · simp (disch := decide)

/-! The house reference and interfaces. -/

@[simp] theorem gating_houseLost : d.houseLost.gating = d.gating := by
  have hold (e : Dev) : e.holdoverOn.gating = e.gating := by
    unfold holdoverOn
    dsimp only
    split <;> simp (disch := decide)
  unfold houseLost
  split
  · rfl
  · simp (disch := decide) [hold]

@[simp] theorem gating_ptpLose : d.ptpLose.gating = d.gating := by
  have hreset : d.ptpReset.houseLost.gating = d.gating := by simp (disch := decide) [ptpReset]
  unfold ptpLose
  split
  · rfl
  · dsimp only
    split
    · simp (disch := decide) [hreset]
    · split
      · exact hreset
      · simp (disch := decide) [hreset]

@[simp] theorem gating_setLinkBit (i v : Nat) : (d.setLinkBit i v).gating = d.gating :=
  d.gating_putAt _ _ _ (by rw [addr_mod]; decide)

@[simp] theorem gating_pathDown (n : Nat) (path2 : Bool) : (d.pathDown n path2).gating = d.gating := by
  have hput : ((d.put (if path2 then F.INGEST_STATE_PATH2_DOWN else F.INGEST_STATE_PATH1_DOWN) 1 n).put
      F.INGEST_STATE_PATH_DOWN 1 n).gating = d.gating := by
    cases path2 <;> simp (disch := decide)
  unfold pathDown
  dsimp only
  split
  · exact hput
  · rw [gating_irq, hput]

@[simp] theorem gating_pathGone (n : Nat) (path2 : Bool) : (d.pathGone n path2).gating = d.gating := by
  unfold pathGone
  split_ifs <;> simp

@[simp] theorem gating_netSilent (i n : Nat) : (d.netSilent i n).gating = d.gating := by
  unfold netSilent
  dsimp only
  split_ifs <;> simp

@[simp] theorem gating_netDrop (i : Nat) : (d.netDrop i).gating = d.gating := by
  have hback (e : Dev) (x : List (Nat × Nat)) (f : TimeSt → TimeSt) :
      (({ e with netBack := x } : Dev).updTm f).gating = e.gating := rfl
  unfold netDrop
  split
  · rfl
  · dsimp only
    split
    · rw [gating_ptpLose, gating_foldl _ _ fun e n _ => e.gating_netSilent i n]
      exact (hback _ _ _).trans (by simp)
    · rw [gating_foldl _ _ fun e n _ => e.gating_netSilent i n]
      exact (hback _ _ _).trans (by simp)

@[simp] theorem gating_netLaneLoss (n : Nat) : (d.netLaneLoss n).gating = d.gating := by
  refine gating_foldl d _ fun e s _ => ?_
  dsimp only
  split
  · exact e.gating_netDrop _
  · rfl

/-! Lanes. -/

@[simp] theorem gating_lput {f : Fld} (x n : Nat) (h : (f.off + 0 * f.str + 0 * f.str2) % 0x1000 ≠ 0x08) :
    (d.lput f x n).gating = d.gating := d.gating_put (f := laneFld f n) x _ h

@[simp] theorem gating_lirq (n bit : Nat) : (d.lirq n bit).gating = d.gating := d.gating_irq _ _ _ _

theorem gating_setWord_header (r : PageRef) {o : Nat} (v : Word) (h : o % 0x1000 ≠ 0x08) :
    (d.setWord (pgAddr r + o) v).gating = d.gating := d.gating_setWord v (by rwa [header_mod])

theorem gating_useTaps (n : Nat) : (d.useTaps n).gating = d.gating := by
  unfold useTaps
  dsimp only
  split
  · rw [gating_setWord_header _ _ _ (by decide), gating_setWord_header _ _ _ (by decide)]
  · have hffe (e : Dev) : ((List.range 4).foldl (fun e k =>
        e.setWord (pgAddr (lanePage n) + 0xB0 + 4 * k) (e.word (pgAddr (lanePage n) + 0xA0 + 4 * k))) e).gating = e.gating :=
      gating_foldl e _ fun e k hk => by
        rw [Nat.add_assoc]
        have := List.mem_range.1 hk
        exact e.gating_setWord_header _ _ (by omega)
    rw [hffe, gating_setWord_header _ _ _ (by decide)]

@[simp] theorem gating_acquire (n : Nat) : (d.acquire n).gating = d.gating := by
  have huse : (if (d.lane n).keep then d else (d.useCtle n).useTaps n).gating = d.gating := by
    split
    · rfl
    · rw [gating_useTaps]
      simp (disch := decide) [useCtle]
  unfold acquire
  dsimp only
  split <;> simp (disch := decide) [huse]

theorem gating_bondFall (lanes ctxs : List Nat) : (d.bondFall lanes ctxs).gating = d.gating := by
  unfold bondFall
  split
  · rw [gating_foldl _ _ fun e n _ => e.gating_ctxLose n]
    exact gating_foldl d _ fun e n _ => by simp (disch := decide)
  · rfl

@[simp] theorem gating_laneLoss (n : Nat) : (d.laneLoss n).gating = d.gating := by
  unfold laneLoss
  split
  · dsimp only
    rw [gating_foldl _ _ fun e c _ => e.gating_ctxLose c]
    split
    · exact d.gating_bondFall _ _
    · rfl
  · exact d.gating_netLaneLoss _

@[simp] theorem gating_laneBack (n : Nat) : (d.laneBack n).gating = d.gating := by
  unfold laneBack
  split
  · refine gating_foldl d _ fun e c _ => ?_
    split
    · exact e.gating_ctxSearch c
    · rfl
  · split
    · exact d.gating_netHeal _
    · rfl

@[simp] theorem gating_genShow (n : Nat) : (d.genShow n).gating = d.gating := by
  unfold genShow
  split <;> rfl

@[simp] theorem gating_laneTrain (i : Nat) : (d.laneTrain i).gating = d.gating := by
  unfold laneTrain
  dsimp only
  split
  · exact gating_setWord_header _ ⟨.nlane, i, 0⟩ _ (by decide)
  · rfl

@[simp] theorem gating_txStop (n : Nat) : (d.txStop n).gating = d.gating := by simp [txStop]

@[simp] theorem gating_txDrive (n : Nat) : (d.txDrive n).gating = d.gating := by
  unfold txDrive
  dsimp only
  split
  · exact d.gating_txStop n
  · split <;> split <;> simp

@[simp] theorem gating_laneStop (n : Nat) : (d.laneStop n).gating = d.gating := by simp [laneStop]

@[simp] theorem gating_laneResume (n : Nat) : (d.laneResume n).gating = d.gating := by
  unfold laneResume
  dsimp only
  split <;> simp

end
end Dev
end Sys2Proof.Machine
end

section
/-! PROOF. What decides whether a unit runs, under the work of engines, the recorder and the ports, and under what stops, starts
and resets a unit (R69, R171, R183, R261, R431, R451). -/
namespace Sys2Proof.Machine
namespace Dev
section
variable (d : Dev)

/-! Engines and layers. -/

theorem gating_showJob (n : Nat) : (d.showJob n).gating = d.gating := by
  unfold showJob
  split <;> simp (disch := decide)

theorem gating_engBusyMark (n t : Nat) : (d.engBusyMark n t).gating = d.gating := by
  unfold engBusyMark
  split <;> rfl

@[simp] theorem gating_showJobs (l t : Nat) : (d.showJobs l t).gating = d.gating := by
  unfold showJobs
  rw [gating_engHold]
  exact gating_foldl d _ fun e n _ => (gating_engBusyMark _ _ _).trans (e.gating_showJob n)

@[simp] theorem gating_engDrop (l : Nat) (all : Bool) : (d.engDrop l all).gating = d.gating := by
  simp (disch := decide) [engDrop]

@[simp] theorem gating_engineStop (n t : Nat) : (d.engineStop n t).gating = d.gating := by
  unfold engineStop
  dsimp only
  refine (gating_foldl _ _ fun e c _ => ?_).trans (gating_foldl d _ fun e l _ => by simp (disch := decide))
  split
  · simp (disch := decide)
  · rfl

/-! The recorder. -/

@[simp] theorem gating_recEmpty : d.recEmpty.gating = d.gating := by
  have hold (e : Dev) : e.recOldest.gating = e.gating := by
    unfold recOldest
    split <;> simp (disch := decide)
  have hnone : ({ d with recRing := [], recHeads := [] } : Dev).gating = d.gating := rfl
  unfold recEmpty
  rw [hold, gating_put _ _ _ (by decide), gating_put _ _ _ (by decide), hnone]

@[simp] theorem gating_recNeedKeys : d.recNeedKeys.gating = d.gating := gating_foldl d _ fun _ _ _ => rfl

@[simp] theorem gating_recEnded (h : Nat) : (d.recEnded h).gating = d.gating := by
  have hheld (e : Dev) : e.recHeld.gating = e.gating := by
    unfold recHeld
    dsimp only
    split <;> simp (disch := decide)
  unfold recEnded
  split
  · rw [hheld, gating_setRecHead]
  · rfl

/-! Ports. -/

@[simp] theorem gating_portSink (p : Nat) : (d.portSink p).gating = d.gating := by simp (disch := decide) [portSink]

@[simp] theorem gating_portTrain (p : Nat) : (d.portTrain p).gating = d.gating := by
  have hports (e : Dev) (x : List (Nat × PortSt)) : ({ e with ports := x } : Dev).gating = e.gating := rfl
  unfold portTrain
  dsimp only
  rw [gating_putB _ _ _ (by decide)]
  exact (hports _ _).trans (d.gating_portSink p)

theorem gating_portSwitch (p new : Nat) : (d.portSwitch p new).gating = d.gating := by
  unfold portSwitch
  dsimp only
  split
  · rfl
  · split <;> split <;> split <;> split <;> simp (disch := decide)

@[simp] theorem gating_portsRefresh : d.portsRefresh.gating = d.gating := gating_foldl d _ fun e _ _ => e.gating_portSwitch _ _

/-! Units. -/

theorem gating_unitStop {b : Blk} (hb : b ≠ .deal) (i : Nat) : (d.unitStop b i).gating = d.gating := by
  cases b
  case deal => exact absurd rfl hb
  case nport => exact gating_foldl d _ fun e s _ => e.gating_netDrop _
  case witChain => rfl
  all_goals simp [unitStop]

theorem gating_unitStart {b : Blk} (hb : b ≠ .deal) (i : Nat) : (d.unitStart b i).gating = d.gating := by
  cases b
  case deal => exact absurd rfl hb
  case nlane => simp [unitStart]
  case ingest =>
    simp only [unitStart, gating_updCtx]
    split <;> simp
  case head =>
    simp only [unitStart, gating_portsRefresh, gating_setRecHead]
    split <;> simp
  case sendT => exact gating_foldl d _ fun _ _ _ => rfl
  case witChain => exact d.gating_put _ _ (by decide)
  case audio => rfl
  all_goals simp [unitStart]

theorem memswUnits_ne_deal {u : Blk × Nat} (hu : u ∈ memswUnits) : u.1 ≠ .deal := by
  simp only [memswUnits, List.mem_append, List.mem_map] at hu
  rintro hdeal
  simp_all [Prod.ext_iff]

theorem gating_unitGo {b : Blk} (hb : b ≠ .deal) (i p : Nat) : (d.unitGo b i p).gating = d.gating := by
  unfold unitGo
  split
  · rfl
  · split
    · refine gating_foldl d _ fun e u hu => ?_
      split
      · exact e.gating_unitStart (memswUnits_ne_deal hu) _
      · rfl
    · exact d.gating_unitStart hb i

theorem gating_internalReset (b : Blk) (i : Nat) : (d.internalReset b i).gating = d.gating := by
  cases b
  case ingest =>
    simp only [internalReset, gating_updCtx]
    refine (gating_foldl _ _ fun e l _ => ?_).trans (d.gating_noteCause i)
    split
    · exact e.gating_engDrop l true
    · rfl
  case sendT => exact gating_foldl d _ fun _ _ _ => rfl
  case engine | memsw | audio | witChain => rfl
  all_goals simp [internalReset]

/-- The words that `wordsReset` takes. -/
def resetTakes (b : Blk) (i lo hi a : Nat) : Bool :=
  pageAddr b i 0 ≤ a && a < pageAddr b i 0 + blkStride b && lo ≤ a % 0x1000 && a % 0x1000 < hi &&
    !(b = .engine && a % 0x1000 = F.ENGINE_KERNEL_VER_VERSION.off)

theorem word_wordsReset (b : Blk) (i lo hi a : Nat) :
    (d.wordsReset b i lo hi).word a = if resetTakes b i lo hi a then resetWord a else d.word a := by
  have hregs (m : List (Nat × Word)) : sget resetWord (m.filter (fun q => !resetTakes b i lo hi q.1)) a =
      if resetTakes b i lo hi a then resetWord a else sget resetWord m a := by
    induction m with
    | nil => simp [sget]
    | cons q m ih =>
      obtain ⟨k, v⟩ := q
      by_cases hk : k = a
      · subst hk
        cases htakes : resetTakes b i lo hi k <;> simp_all [sget]
      · cases htakes : resetTakes b i lo hi k <;> simp [sget, htakes, hk, ih]
  exact hregs d.regs

theorem gating_wordsReset (b : Blk) (i : Nat) : (d.wordsReset b i 0x40 0x400).gating = d.gating := by
  refine gating_of rfl fun a ha => ?_
  have hnot : resetTakes b i 0x40 0x400 a = false := by simp [resetTakes, ha]
  rw [word_wordsReset, hnot]
  rfl

theorem gating_unitReset (b : Blk) (i : Nat) : (d.unitReset b i).gating = d.gating := by
  unfold unitReset
  rw [gating_portsRefresh]
  split <;> simp [gating_wordsReset, gating_internalReset]

end
end Dev
end Sys2Proof.Machine
end

section
/-! PROOF. What decides whether a unit runs, under the votes and states of power domains (R431 to R438), and the fence records
under fences and their ends (R449 to R454). -/
namespace Sys2Proof.Machine

/-- A unit of the map is in one of the domains. -/
theorem unitDom_lt {b : Blk} {i p x : Nat} (hv : Dev.validPage ⟨b, i, p⟩ = true) (h : unitDom b i = some x) : x < 36 := by
  simp only [Dev.validPage, Bool.and_eq_true, decide_eq_true_eq] at hv
  obtain ⟨⟨hfirst, hlast⟩, -⟩ := hv
  cases b <;> simp only [unitDom, Option.some.injEq, reduceCtorEq, blkFirst, blkCount] at h hfirst hlast <;> omega

theorem votesOf_lt {b : Blk} {i p x : Nat} (hv : Dev.validPage ⟨b, i, p⟩ = true) (h : x ∈ Dev.votesOf b i) : x < 36 := by
  unfold Dev.votesOf at h
  split at h
  · simp only [List.mem_cons, List.not_mem_nil, or_false] at h
    omega
  · exact unitDom_lt hv (Option.mem_toList.1 h)

namespace Dev
section
variable (d : Dev)

/-! Power domains. -/

/-- A field of DOM_STS. -/
theorem gating_put_domSts {f : Fld} {x : Nat} (v : Nat) (hx : x < 36) (hf : f.off = 0x100 ∧ f.str = 4 ∧ f.str2 = 0) :
    (d.put f v 0 x).gating = d.gating := d.gating_put v 0 (by rw [hf.1, hf.2.1, hf.2.2]; omega)

theorem gating_showPower (b : Blk) (i : Nat) : (d.showPower b i).gating = d.gating :=
  d.gating_putAt _ _ _ (by
    obtain ⟨m, hm⟩ := dvd_pageAddr b i 0
    omega)

theorem gating_unitLose (b : Blk) (i state : Nat) : (d.unitLose b i state).gating = d.gating := by
  unfold unitLose
  split
  · exact d.gating_internalReset b i
  · split
    · exact d.gating_unitReset b i
    · rfl

section
variable {x : Nat} (hx : x < 36)
include hx

theorem gating_setDomState (v : Nat) : (d.setDomState x v).gating = d.gating := by
  unfold setDomState
  split
  · rfl
  · dsimp only
    rw [gating_foldl _ _ fun e u _ => e.gating_showPower u.1 u.2, gating_irq, gating_setDom,
      gating_put_domSts _ _ hx (by decide)]

theorem gating_tryEnter : (d.tryEnter x).gating = d.gating := by
  unfold tryEnter
  dsimp only
  split
  · rw [gating_foldl _ _ fun e q _ => e.gating_unitLose q.1 q.2 _, gating_count _ _ _ (by decide),
      gating_put_domSts _ _ hx (by decide), gating_setDomState _ hx, gating_setDom]
  · rfl

theorem gating_refuseEntry (b : Blk) (i reason : Nat) : (d.refuseEntry x b i reason).gating = d.gating := by
  have hbusy (e : Dev) : ((e.put F.POWER_DOM_STS_BUSY 0 0 x).put F.POWER_DOM_STS_REFUSED 1 0 x).gating = e.gating := by
    rw [gating_put_domSts _ _ hx (by decide), gating_put_domSts _ _ hx (by decide)]
  simp (disch := decide) [refuseEntry, hbusy]

theorem gating_domEnter : (d.domEnter x).gating = d.gating := by
  have hasked (e : Dev) : ((e.put F.POWER_DOM_STS_BUSY 1 0 x).put F.POWER_DOM_STS_REFUSED 0 0 x).gating = e.gating := by
    rw [gating_put_domSts _ _ hx (by decide), gating_put_domSts _ _ hx (by decide)]
  unfold domEnter
  dsimp only
  split
  · rfl
  · split
    · rw [gating_refuseEntry _ hx, hasked, gating_setDom]
    · rw [gating_tryEnter _ hx, hasked, gating_setDom]

theorem gating_domWake (tries : Nat) : (d.domWake x tries).gating = d.gating := by
  unfold domWake
  split
  · rfl
  · unfold wakeFrom
    dsimp only
    rw [gating_put_domSts _ _ hx (by decide), gating_put_domSts _ _ hx (by decide), gating_put_domSts _ _ hx (by decide),
      gating_setDom]

theorem gating_voted (old : Nat) : (d.voted x old).gating = d.gating := by
  unfold voted
  dsimp only
  split
  · rfl
  · split
    · exact d.gating_domEnter hx
    · split
      · rw [gating_put_domSts _ _ hx (by decide), gating_setDom]
      · split
        · exact d.gating_domWake hx 0
        · rfl

end

/-- A change of votes does what the change does, as far as it decides whether units run. -/
theorem gating_voting {b : Blk} {i p : Nat} (hv : validPage ⟨b, i, p⟩ = true) (f : Dev → Dev) :
    (d.voting b i f).gating = (f d).gating := by
  refine gating_foldl (f d) _ fun e q hq => ?_
  obtain ⟨x, hx, rfl⟩ := List.mem_map.1 hq
  exact e.gating_voted (votesOf_lt hv hx) _

/-! Fence records. -/

theorem gating_fenceEnds {b : Blk} (hb : b ≠ .deal) (i p : Nat) : (d.fenceEnds b i p).gating = d.gating := by
  have hrebuilt (e : Dev) : ({ e with rebuilt := false } : Dev).gating = e.gating := rfl
  unfold fenceEnds
  dsimp only
  rw [gating_unitGo _ hb]
  split
  · rw [hrebuilt, gating_irqAll, gating_setRelRefused]
  · rw [gating_irqAll, gating_setRelRefused]

/-! Fence records that change. -/

/-- The hand, the instances' power requests, the reset, and the CTL word of every page. -/
def steady : HandSt × List (Nat × PowUnit) × Bool × (Nat → Word) :=
  (d.hand, d.units, d.inReset, fun a => if a % 0x1000 = 0x08 then d.word a else 0)

theorem steady_of_gating {d e : Dev} (h : e.gating = d.gating) : e.steady = d.steady :=
  congrArg (fun g => (g.1, g.2.1, g.2.2.1, g.2.2.2.2)) h

theorem recs_of_gating {d e : Dev} (h : e.gating = d.gating) (b : Blk) (i p : Nat) : e.recs b i p = d.recs b i p :=
  recs_congr (gating_fences h) b i p

theorem steady_setRecs (b : Blk) (i p : Nat) (l : List FenceRec) : (d.setRecs b i p l).steady = d.steady := rfl

theorem recs_setRecs (b : Blk) (i p : Nat) (l : List FenceRec) (b' : Blk) (i' p' : Nat) :
    (d.setRecs b i p l).recs b' i' p' = if fenceKey b' i' p' = fenceKey b i p then l else d.recs b' i' p' :=
  sget_sset _ _ _ _ _

/-- A cause that goes without a request leaves the others. -/
theorem dropCause_keeps {b : Blk} (hb : b ≠ .deal) (i p : Nat) (f : FenceRec → Bool) :
    (d.dropCause b i p f).steady = d.steady ∧ (d.dropCause b i p f).recs b i p = (d.recs b i p).filter (fun r => !f r) := by
  unfold dropCause
  dsimp only
  split
  case isTrue hlen => exact ⟨rfl, (List.filter_eq_self.2 (List.length_filter_eq_length_iff.1 hlen)).symm⟩
  case isFalse =>
    have hset : (d.setRecs b i p ((d.recs b i p).filter (fun r => !f r))).recs b i p =
        (d.recs b i p).filter (fun r => !f r) := by rw [recs_setRecs, if_pos rfl]
    split
    · have hends := gating_fenceEnds (d.setRecs b i p ((d.recs b i p).filter (fun r => !f r))) hb i p
      exact ⟨(steady_of_gating hends).trans rfl, (recs_of_gating hends b i p).trans hset⟩
    · exact ⟨rfl, hset⟩

/-- What fences a unit changes its fence records and nothing else that decides whether units run. -/
theorem gating_raiseOne {b : Blk} (hb : b ≠ .deal) (i p cause detail : Nat) :
    (d.raiseOne b i p cause detail).gating =
      if unfenceable b p || !validPage ⟨b, i, p⟩ || (d.recs b i p).any (fun r => r.cause = cause ∧ r.detail = detail) then d.gating
      else (d.setRecs b i p (d.recs b i p ++ [⟨cause, detail, false⟩])).gating := by
  have hdraining (e : Dev) (x : List Nat) : ({ e with draining := x } : Dev).gating = e.gating := rfl
  have hcount (e : Dev) (v : Nat) : (e.putAt (fenceKey b i p + 0x20) 16 16 v).gating = e.gating := by
    obtain ⟨m, hm⟩ := dvd_pageAddr b i (mainPage b p)
    exact e.gating_putAt _ _ _ (by rw [fenceKey]; omega)
  have hfault (e : Dev) : (if swCause cause then e else e.snapFault 1 b i).gating = e.gating := by
    split
    · rfl
    · exact e.gating_snapFault 1 b i
  unfold raiseOne
  dsimp only
  split
  · rfl
  · next hraises =>
    have hv : validPage ⟨b, i, p⟩ = true := by simp_all
    have henter (e : Dev) : ((unitDom b i).elim e e.tryEnter).gating = e.gating := by
      cases hdom : unitDom b i with
      | none => rfl
      | some x => exact e.gating_tryEnter (unitDom_lt hv hdom)
    rw [henter, hfault]
    split
    · rfl
    · rw [gating_unitStop _ hb]
      exact (hdraining _ _).trans (by rw [gating_irqAll, hcount])

end

section
variable {d : Dev}

theorem steady_raiseOne {b : Blk} (hb : b ≠ .deal) (i p cause detail : Nat) :
    (d.raiseOne b i p cause detail).steady = d.steady := by
  have h := d.gating_raiseOne hb i p cause detail
  split at h
  · exact steady_of_gating h
  · exact (steady_of_gating h).trans (d.steady_setRecs _ _ _ _)

/-- A fence keeps the causes that every unit had. -/
theorem mem_recs_raiseOne {b : Blk} (hb : b ≠ .deal) (i p cause detail : Nat) {b' : Blk} {i' p' : Nat} {q : FenceRec}
    (hq : q ∈ d.recs b' i' p') : q ∈ (d.raiseOne b i p cause detail).recs b' i' p' := by
  have h := d.gating_raiseOne hb i p cause detail
  split at h
  · rwa [recs_of_gating h]
  · rw [recs_of_gating h, recs_setRecs]
    split
    · next hkey =>
      rw [recs, hkey] at hq
      exact List.mem_append_left _ hq
    · exact hq

/-- A fence records its cause. -/
theorem held_raiseOne {b : Blk} (hb : b ≠ .deal) {i p : Nat} (cause detail : Nat) (hu : unfenceable b p = false)
    (hv : validPage ⟨b, i, p⟩ = true) :
    ∃ q ∈ (d.raiseOne b i p cause detail).recs b i p, q.cause = cause ∧ q.detail = detail := by
  have h := d.gating_raiseOne hb i p cause detail
  split at h
  · next hheld =>
    rw [recs_of_gating h]
    simpa [hu, hv] using hheld
  · rw [recs_of_gating h, recs_setRecs, if_pos rfl]
    exact ⟨_, List.mem_append_right _ (List.mem_singleton_self _), rfl, rfl⟩

/-- The fence of a unit, with those that follow from it. -/
theorem fenceRaise_keeps {b : Blk} (hb : b ≠ .deal) (i p cause detail : Nat) :
    (d.fenceRaise b i p cause detail).steady = d.steady ∧
      ∀ b' i' p', ∀ q ∈ (d.raiseOne b i p cause detail).recs b' i' p', q ∈ (d.fenceRaise b i p cause detail).recs b' i' p' := by
  unfold fenceRaise
  dsimp only
  split
  · refine List.foldlRecOn (motive := fun e : Dev => e.steady = d.steady ∧
      ∀ b' i' p', ∀ q ∈ (d.raiseOne b i p cause detail).recs b' i' p', q ∈ e.recs b' i' p') _ _
      ⟨steady_raiseOne hb i p cause detail, fun _ _ _ _ hq => hq⟩ fun e he u hu => ?_
    have hne := memswUnits_ne_deal hu
    exact ⟨(steady_raiseOne hne _ _ _ _).trans he.1, fun b' i' p' q hq => mem_recs_raiseOne hne _ _ _ _ (he.2 b' i' p' q hq)⟩
  · exact ⟨steady_raiseOne hb i p cause detail, fun _ _ _ _ hq => hq⟩

end
end Dev
end Sys2Proof.Machine
end

section
/-! PROOF. Enables, disables and soft resets of a unit (R65 to R69, R449, R450, R490). -/
namespace Sys2Proof.Machine
namespace Dev

/-! What follows from what decides whether units run. -/

section
variable {d e : Dev}

theorem steady_hand (h : e.steady = d.steady) : e.hand = d.hand := congrArg (·.1) h
theorem steady_units (h : e.steady = d.steady) : e.units = d.units := congrArg (·.2.1) h
theorem steady_inReset (h : e.steady = d.steady) : e.inReset = d.inReset := congrArg (·.2.2.1) h
theorem steady_word (h : e.steady = d.steady) {a : Nat} (ha : a % 0x1000 = 0x08) : e.word a = d.word a := by
  have hword := congrFun (congrArg (·.2.2.2) h) a
  simpa [steady, ha] using hword

theorem calm_of_steady (h : e.steady = d.steady) (hc : d.calm) : e.calm := by
  rw [calm, steady_hand h, steady_units h]
  exact hc

theorem ctl_mod (b : Blk) (i p : Nat) : (fenceKey b i p + 0x08) % 0x1000 = 0x08 := by
  obtain ⟨m, hm⟩ := dvd_pageAddr b i (mainPage b p)
  rw [fenceKey]
  omega

theorem en_of_steady (h : e.steady = d.steady) (b : Blk) (i p : Nat) : e.en b i p = d.en b i p := by
  rw [en, bitsAt, steady_word h (ctl_mod b i p), en, bitsAt]

end

section
variable (d : Dev)

/-! Enables (R66, R67). -/

/-- The device with CTL.EN of a unit written. -/
def setEn (b : Blk) (i v : Nat) : Dev := d.putAt (fenceKey b i 0 + 0x08) 0 1 v

theorem en_setEn (b : Blk) (i v : Nat) : (d.setEn b i v).en b i = decide (v % 2 = 1) := by
  rw [en, setEn, bitsAt_putAt_self _ _ _ _ _ (by decide)]
  rfl

/-- EN = 1 takes effect: no cause DISABLED remains. -/
theorem enableNow_keeps {b : Blk} (hb : b ≠ .deal) (i : Nat) :
    (d.enableNow b i).steady = d.steady ∧ ∀ q ∈ (d.enableNow b i).recs b i, q.cause ≠ cDisabled := by
  unfold enableNow
  split
  · obtain ⟨hsteady, hrecs⟩ := d.dropCause_keeps hb i 0 (fun r => r.cause = cDisabled)
    refine ⟨hsteady, fun q hq => ?_⟩
    rw [hrecs] at hq
    simpa using (List.mem_filter.1 hq).2
  · next hnone =>
    have hother : ∀ q ∈ d.recs b i, q.cause ≠ cDisabled := by simpa [hasCause] using hnone
    split
    · exact ⟨rfl, hother⟩
    · have hgo := d.gating_unitGo hb i 0
      exact ⟨steady_of_gating hgo, by rwa [recs_of_gating hgo]⟩

/-- CTL.EN is set, and with it the vote of the unit (R435). -/
def enVoted (b : Blk) (i : Nat) : Dev := d.voting b i (fun d => d.setEn b i 1)

/-- A unit that is enabled. -/
theorem enable_keeps {b : Blk} {i p : Nat} (hb : b ≠ .deal) (hv : validPage ⟨b, i, p⟩ = true) (hoff : d.en b i = false) :
    (d.enable b i).steady = (d.setEn b i 1).steady ∧
      (unitDom b i = none → ∀ q ∈ (d.enable b i).recs b i, q.cause ≠ cDisabled) := by
  have hvote : (d.enVoted b i).steady = (d.setEn b i 1).steady := steady_of_gating (d.gating_voting hv _)
  obtain ⟨hsteady, hrecs⟩ := (d.enVoted b i).enableNow_keeps hb i
  cases hdom : unitDom b i with
  | none =>
    have henable : d.enable b i = (d.enVoted b i).enableNow b i := by
      simp only [enable, hoff, hdom]
      rfl
    rw [henable]
    exact ⟨hsteady.trans hvote, fun _ => hrecs⟩
  | some x =>
    have henable : d.enable b i = if (d.enVoted b i).domUp x then (d.enVoted b i).enableNow b i
        else (d.enVoted b i).setDom x
          { (d.enVoted b i).dom x with waits := addOnce ((d.enVoted b i).dom x).waits (pageAddr b i 0) } := by
      simp only [enable, hoff, hdom]
      rfl
    refine ⟨?_, fun h => absurd h (by simp)⟩
    rw [henable]
    split
    · exact hsteady.trans hvote
    · exact hvote

/-- A unit that is disabled. -/
theorem disable_keeps {b : Blk} {i p : Nat} (hb : b ≠ .deal) (hv : validPage ⟨b, i, p⟩ = true) (hf : enFixed b = false)
    (hon : d.en b i = true) :
    (d.disable b i).steady = (d.setEn b i 0).steady ∧ (∀ q ∈ d.recs b i, q ∈ (d.disable b i).recs b i) ∧
      ∃ q ∈ (d.disable b i).recs b i, q.cause = cDisabled ∧ q.detail = 0 := by
  obtain ⟨e, he, hset, hdisable⟩ : ∃ e : Dev, e.gating = d.gating ∧ (e.setEn b i 0).steady = (d.setEn b i 0).steady ∧
      d.disable b i = e.voting b i (fun d => (d.setEn b i 0).fenceRaise b i 0 cDisabled 0) := by
    cases hdom : unitDom b i with
    | none => exact ⟨d, rfl, rfl, by simp only [disable, hon, hdom]; rfl⟩
    | some x =>
      exact ⟨d.setDom x { d.dom x with waits := (d.dom x).waits.filter (· ≠ pageAddr b i 0) }, rfl, rfl,
        by simp only [disable, hon, hdom]; rfl⟩
  have hv' : validPage ⟨b, i, 0⟩ = true := by
    simp only [validPage, Bool.and_eq_true, decide_eq_true_eq] at hv ⊢
    omega
  have hvote := e.gating_voting hv (fun d => (d.setEn b i 0).fenceRaise b i 0 cDisabled 0)
  rw [← hdisable] at hvote
  obtain ⟨hsteady, hrecs⟩ := fenceRaise_keeps (d := e.setEn b i 0) hb i 0 cDisabled 0
  refine ⟨(steady_of_gating hvote).trans (hsteady.trans hset), fun q hq => ?_, ?_⟩
  · rw [recs_of_gating hvote]
    exact hrecs b i 0 q (mem_recs_raiseOne hb _ _ _ _ ((recs_of_gating he b i 0).symm ▸ hq))
  · obtain ⟨q, hq, hcause⟩ := held_raiseOne (d := e.setEn b i 0) hb cDisabled 0 (by rw [unfenceable, hf]; rfl) hv'
    rw [recs_of_gating hvote]
    exact ⟨q, hrecs b i 0 q hq, hcause⟩

/-! Soft resets (R69). -/

/-- A port shows what it should in its own page alone. -/
theorem word_portSwitch (p new : Nat) {a : Nat} (h : ∀ o < 0x1000, a ≠ pageAddr .oport p 0 + o) :
    (d.portSwitch p new).word a = d.word a := by
  have haddr (f : Fld) (hf : f.blk = .oport ∧ f.page = 0 ∧ f.off < 0x1000) : a ≠ f.addr p 0 0 := by
    obtain ⟨hblk, hpage, hoff⟩ := hf
    rw [Fld.addr, hblk, hpage, Nat.zero_mul, Nat.zero_mul, Nat.add_zero]
    exact h f.off hoff
  have hlinks (e : Dev) : (((e.putB F.OPORT_PORT_STS_LINK_UP (new = showHead) p).putB F.OPORT_PORT_STS_SAFE
      (new = showSafe) p).putB F.OPORT_PORT_STS_IDLE (new = showIdle) p).word a = e.word a := by
    rw [word_putB_ne _ _ _ _ _ (haddr _ (by decide)), word_putB_ne _ _ _ _ _ (haddr _ (by decide)),
      word_putB_ne _ _ _ _ _ (haddr _ (by decide))]
  have hirq (e : Dev) (n : Nat) : (e.irq .oport p 0 n).word a = e.word a := word_irq_ne e _ _ _ _ (h 0x10 (by decide))
  have hcount (e : Dev) : (e.count F.OPORT_SAFE_EVENTS p).word a = e.word a :=
    word_count_ne e _ _ _ _ (haddr F.OPORT_SAFE_EVENTS (by decide))
  have hhead (e : Dev) (k : Nat) (f : HeadSt → HeadSt) : (e.updHeadSt k f).word a = e.word a := rfl
  have hport (e : Dev) (s : PortSt) : (e.setPort p s).word a = e.word a := rfl
  unfold portSwitch
  dsimp only
  split
  · rfl
  · split <;> split <;> split <;> split <;> simp only [hirq, hcount, hhead, hlinks, hport]

theorem word_portsRefresh {a : Nat} (h : ∀ p < 96, ∀ o < 0x1000, a ≠ pageAddr .oport p 0 + o) :
    d.portsRefresh.word a = d.word a :=
  foldl_keeps (fun e : Dev => e.word a) (fun e p hp => e.word_portSwitch p _ (h p (List.mem_range.1 hp))) d

/-- A word of a page of another block is in no port's page. -/
theorem ne_oport_word {r : PageRef} (hv : validPage r = true) (hr : r.blk ≠ .oport) {off : Nat} (ho : off < 0x1000) :
    ∀ p < 96, ∀ o < 0x1000, pgAddr r + off ≠ pageAddr .oport p 0 + o := by
  intro p hp o ho'
  have hport : validPage ⟨.oport, p, 0⟩ = true := by
    simp only [validPage, Bool.and_eq_true, decide_eq_true_eq]
    exact ⟨⟨Nat.zero_le _, hp⟩, by decide⟩
  exact page_word_ne r ⟨.oport, p, 0⟩ off o hv hport ho ho' (.inl fun h => hr (by rw [h]))

theorem resetTakes_live {r : PageRef} (hv : validPage r = true) {off : Nat} (hlo : 0x40 ≤ off) (hhi : off < 0x400)
    (hver : ¬ (r.blk = .engine ∧ off = 0x4C)) : resetTakes r.blk r.inst 0x40 0x400 (pgAddr r + off) = true := by
  obtain ⟨b, i, p⟩ := r
  simp only [validPage, Bool.and_eq_true, decide_eq_true_eq] at hv
  obtain ⟨-, hpage⟩ := hv
  have hmod : (pageAddr b i p + off) % 0x1000 = off := (header_mod ⟨b, i, p⟩ off).trans (Nat.mod_eq_of_lt (by omega))
  have hbase : pageAddr b i p = pageAddr b i 0 + p * 0x1000 := by rw [pageAddr, pageAddr, Nat.zero_mul, Nat.add_zero]
  have hlast : pageAddr b i p + off < pageAddr b i 0 + blkStride b := by
    rw [hbase, blkStride]
    omega
  have hengine : b = .engine → ¬ off = 0x4C := fun hb ho => hver ⟨hb, ho⟩
  change resetTakes b i 0x40 0x400 (pageAddr b i p + off) = true
  simp only [resetTakes, hmod, Bool.and_eq_true, decide_eq_true_eq, Bool.not_eq_true', Bool.and_eq_false_imp,
    decide_eq_false_iff_not, show F.ENGINE_KERNEL_VER_VERSION.off = 0x4C from rfl]
  exact ⟨⟨⟨⟨by omega, hlast⟩, hlo⟩, hhi⟩, hengine⟩

section
variable {r : PageRef} (hv : validPage r = true) (hr : r.blk ≠ .oport)
include hv hr

/-- The live region of a page after a reset of its unit. -/
theorem word_unitReset_live {off : Nat} (hlo : 0x40 ≤ off) (hhi : off < 0x400) (hver : ¬ (r.blk = .engine ∧ off = 0x4C)) :
    (d.unitReset r.blk r.inst).word (pgAddr r + off) = resetWord (pgAddr r + off) := by
  unfold unitReset
  dsimp only
  rw [if_neg hr, word_portsRefresh _ (ne_oport_word hv hr (by omega)), word_wordsReset,
    if_pos (resetTakes_live hv hlo hhi hver)]

/-- KERNEL_VER of an engine stays (R206). -/
theorem word_unitReset_kernelVer (he : r.blk = .engine) :
    (d.unitReset r.blk r.inst).word (pgAddr r + 0x4C) = d.word (pgAddr r + 0x4C) := by
  have hnot : resetTakes r.blk r.inst 0x40 0x400 (pgAddr r + 0x4C) = false := by
    simp [resetTakes, header_mod, he, show F.ENGINE_KERNEL_VER_VERSION.off = 0x4C from rfl]
  unfold unitReset
  dsimp only
  rw [if_neg hr, word_portsRefresh _ (ne_oport_word hv hr (by decide)), word_wordsReset, hnot, he]
  rfl

end

theorem word_setRstBusy (b : Blk) (i p v : Nat) {a : Nat} (h : a ≠ fenceKey b i p + 0x0C) :
    (d.setRstBusy b i p v).word a = d.word a := word_putAt_ne d _ _ _ h

theorem gating_setRstBusy (b : Blk) (i p v : Nat) : (d.setRstBusy b i p v).gating = d.gating := by
  obtain ⟨m, hm⟩ := dvd_pageAddr b i (mainPage b p)
  exact d.gating_putAt _ _ _ (by rw [fenceKey]; omega)

theorem rstBusy_setRstBusy (b : Blk) (i p v : Nat) : (d.setRstBusy b i p v).rstBusy b i p = decide (v % 2 = 1) := by
  rw [rstBusy, setRstBusy, bitsAt_putAt_self _ _ _ _ _ (by decide)]
  rfl

/-- A soft reset of a unit has begun, and has ended. -/
def resetBegun (r : PageRef) : Dev := (d.unitReset r.blk r.inst).setRstBusy r.blk r.inst r.page 1
def resetEnded (r : PageRef) : Dev :=
  (d.setRstBusy r.blk r.inst r.page 0).setRecs r.blk r.inst r.page
    ((d.recs r.blk r.inst r.page).map (fun q => { q with rstSince := true }))

theorem gating_resetBegun (r : PageRef) : (d.resetBegun r).gating = d.gating :=
  (gating_setRstBusy _ _ _ _ _).trans (d.gating_unitReset _ _)

/-- The live region of a page as the reset has left it. -/
theorem word_resetBegun {r : PageRef} {off : Nat} (hlo : 0x40 ≤ off) (hhi : off < 0x400) :
    (d.resetBegun r).word (pgAddr r + off) = (d.unitReset r.blk r.inst).word (pgAddr r + off) := by
  refine word_setRstBusy _ _ _ _ _ fun haddr => ?_
  have hmod := header_mod r off
  obtain ⟨m, hm⟩ := dvd_pageAddr r.blk r.inst (mainPage r.blk r.page)
  rw [haddr, fenceKey] at hmod
  omega

end
end Dev

/-! The statement's clauses. -/

theorem ne_deal_of_enFixed {b : Blk} (hf : enFixed b = false) : b ≠ .deal := by
  rintro rfl
  exact absurd hf (by decide)

/-- The pages lie in the 24 bits of BAR0. -/
theorem pgAddr_lt {r : PageRef} (hv : Dev.validPage r = true) : pgAddr r + 8 < 2 ^ 32 := by
  obtain ⟨b, i, p⟩ := r
  simp only [Dev.validPage, Bool.and_eq_true, decide_eq_true_eq] at hv
  obtain ⟨⟨hfirst, hlast⟩, hpage⟩ := hv
  have hend : blkHi b ≤ 2 ^ 24 := by cases b <;> decide
  have hin := page_in_blk b i p 8 hfirst hlast hpage (by decide)
  change pageAddr b i p + 8 < 2 ^ 32
  omega

/-- A write of a header word that leaves no hand and no power request waiting. -/
theorem exec_of_header {i : Instr} {s : State} {t : Nat} {r : PageRef} {f : Dev → Dev} {d : Dev}
    (hi : exec i s = s.onPow (fun d => (d.atTime t).headerGate r f)) (h : s.answersAt t r) (hf : f (s.dev.atTime t) = d)
    (hc : d.calm) (hr : d.inReset = false) : exec i s = .next { s with dev := d } := by
  obtain ⟨hreset, hreach, hv⟩ := h
  exact exec_of_onPow hi hreset ((Dev.headerGate_eq _ _ _ hreach hv).trans hf) hc hr

section
variable {s : State} {t : Nat} {r : PageRef} (h : s.answersAt t r) (hc : s.dev.calm)
include h hc

/-- An enable or a disable that has nothing to do. -/
theorem exec_writeEn_idle {i : Instr} {on : Bool} (hi : exec i s = s.onPow (fun d => (d.atTime t).headerGate r (·.writeEn r on)))
    (hidle : enFixed r.blk = true ∨ s.dev.en r.blk r.inst = on) : exec i s = .next { s with dev := s.dev.atTime t } := by
  refine exec_of_header hi h ?_ hc h.1
  unfold Dev.writeEn
  obtain hfixed | hen := hidle
  · exact if_pos hfixed
  · split
    · rfl
    · cases on
      case false =>
        have hoff : (!(s.dev.atTime t).en r.blk r.inst) = true := by rw [Bool.not_eq_true']; exact hen
        change (s.dev.atTime t).disable r.blk r.inst = s.dev.atTime t
        unfold Dev.disable
        exact if_pos hoff
      case true =>
        change (s.dev.atTime t).enable r.blk r.inst = s.dev.atTime t
        unfold Dev.enable
        exact if_pos hen

theorem answers_enable (hf : enFixed r.blk = false) :
    Answers (.enable t r) s (fun d => d.en r.blk r.inst = true ∧
      (s.dev.en r.blk r.inst = false → unitDom r.blk r.inst = none → ∀ q ∈ d.recs r.blk r.inst, q.cause ≠ 0x06)) := by
  cases hen : s.dev.en r.blk r.inst with
  | true =>
    exact ⟨_, exec_writeEn_idle h hc rfl (.inr hen), hen, fun hoff => absurd hoff (by simp)⟩
  | false =>
    obtain ⟨hsteady, hrecs⟩ := (s.dev.atTime t).enable_keeps (ne_deal_of_enFixed hf) h.2.2 hen
    have hwrite : (s.dev.atTime t).writeEn r true = (s.dev.atTime t).enable r.blk r.inst := by
      rw [Dev.writeEn, hf]
      rfl
    refine ⟨_, exec_of_header rfl h hwrite (Dev.calm_of_steady hsteady hc) ((Dev.steady_inReset hsteady).trans h.1), ?_,
      fun _ => hrecs⟩
    rw [Dev.en_of_steady hsteady, Dev.en_setEn]
    rfl

theorem answers_disable (hf : enFixed r.blk = false) (hen : s.dev.en r.blk r.inst = true) :
    Answers (.disable t r) s (fun d => d.en r.blk r.inst = false ∧ newCause s ⟨r.blk, r.inst, 0⟩ 0x06 0 d) := by
  obtain ⟨hsteady, hkept, hheld⟩ := (s.dev.atTime t).disable_keeps (ne_deal_of_enFixed hf) h.2.2 hf hen
  have hwrite : (s.dev.atTime t).writeEn r false = (s.dev.atTime t).disable r.blk r.inst := by
    rw [Dev.writeEn, hf]
    rfl
  refine ⟨_, exec_of_header rfl h hwrite (Dev.calm_of_steady hsteady hc) ((Dev.steady_inReset hsteady).trans h.1), ?_,
    hheld, hkept⟩
  rw [Dev.en_of_steady hsteady, Dev.en_setEn]
  rfl

/-- A soft reset of a unit that is fenced or disabled. -/
theorem answers_softRst_idle (hf : enFixed r.blk = false) (hr : r.blk ≠ .oport)
    (hidle : s.dev.fenced r.blk r.inst r.page = true ∨ s.dev.en r.blk r.inst r.page = false) :
    Answers (.softRst t r) s (fun d =>
      (∀ off, 0x40 ≤ off → off < 0x400 → ¬ (r.blk = .engine ∧ off = 0x4C) →
        d.word (pgAddr r + off) = resetWord (pgAddr r + off)) ∧
      (r.blk = .engine → d.word (pgAddr r + 0x4C) = s.dev.word (pgAddr r + 0x4C)) ∧
      d.rstBusy r.blk r.inst r.page = true ∧ d.fences = s.dev.fences) := by
  have hreset : (s.dev.atTime t).softReset r = (s.dev.atTime t).resetBegun r := by
    have hgo : ((s.dev.atTime t).fenced r.blk r.inst r.page || !(s.dev.atTime t).en r.blk r.inst r.page) = true := by
      rw [Bool.or_eq_true, Bool.not_eq_true']
      exact hidle
    rw [Dev.softReset, hf, hgo]
    rfl
  have hgating := (s.dev.atTime t).gating_resetBegun r
  have hsteady := Dev.steady_of_gating hgating
  refine ⟨_, exec_of_header rfl h hreset (Dev.calm_of_steady hsteady hc) ((Dev.steady_inReset hsteady).trans h.1),
    fun off hlo hhi hver => ?_, fun hengine => ?_, ?_, Dev.gating_fences hgating⟩
  · exact ((s.dev.atTime t).word_resetBegun hlo hhi).trans ((s.dev.atTime t).word_unitReset_live h.2.2 hr hlo hhi hver)
  · exact ((s.dev.atTime t).word_resetBegun (by decide) (by decide)).trans
      ((s.dev.atTime t).word_unitReset_kernelVer h.2.2 hr hengine)
  · exact Dev.rstBusy_setRstBusy _ _ _ _ 1

/-- A soft reset of a unit that runs. -/
theorem answers_softRst_running (hf : enFixed r.blk = false) (hfenced : s.dev.fenced r.blk r.inst r.page = false)
    (hen : s.dev.en r.blk r.inst r.page = true) (hempty : s.dev.get F.GLOBAL_ERR_INFO_CAUSE = 0) :
    Answers (.softRst t r) s (fun d => d.get F.GLOBAL_ERR_INFO_CAUSE = 7 ∧ d.get F.GLOBAL_ERR_ADDR = pgAddr r + 8 ∧
      s.dev.keeps d [0x10, 0x68, 0x6C, 0x70, pgAddr r + 0x10]) := by
  have hlog : (s.dev.atTime t).softReset r = (s.dev.atTime t).logErr 7 (pgAddr r + 8) true false (some r) := by
    have hgo : ((s.dev.atTime t).fenced r.blk r.inst r.page || !(s.dev.atTime t).en r.blk r.inst r.page) = false := by
      rw [Bool.or_eq_false_iff, Bool.not_eq_false']
      exact ⟨hfenced, hen⟩
    rw [Dev.softReset, hf, hgo]
    rfl
  have hrest := Dev.logErr_rest (s.dev.atTime t) 7 (pgAddr r + 8) true false (some r)
  have hcalm : ((s.dev.atTime t).logErr 7 (pgAddr r + 8) true false (some r)).calm := by
    rw [Dev.calm, Dev.rest_hand hrest, Dev.rest_units hrest]
    exact hc
  obtain ⟨haddr, hcause, -, -⟩ := (s.dev.atTime t).logErr_first 7 (pgAddr r + 8) true false hempty
  have hsmall : pgAddr r + 8 < 2 ^ 32 := pgAddr_lt h.2.2
  have hevent (f : Fld) (hoff : f.addr 0 0 0 % 0x1000 ≠ 0x10) :
      ((s.dev.atTime t).logErr 7 (pgAddr r + 8) true false (some r)).get f =
        ((s.dev.atTime t).logErr 7 (pgAddr r + 8) true false none).get f := by
    refine Dev.get_congr f 0 0 0 (Dev.word_irqSet_ne _ r _ fun heq => hoff ?_)
    rw [heq, Dev.header_mod]
  refine ⟨_, exec_of_header rfl h hlog hcalm ((Dev.logErr_inReset _ _ _ _ _ _).trans h.1), ?_, ?_, fun a ha => ?_⟩
  · exact (hevent _ (by decide)).trans hcause
  · exact (hevent _ (by decide)).trans (haddr.trans (Nat.mod_eq_of_lt hsmall))
  · simp only [List.mem_cons, List.not_mem_nil, or_false, not_or] at ha
    obtain ⟨hraw, haddr, hinfo, hcount, hpage⟩ := ha
    exact (Dev.word_irqSet_ne _ r _ hpage).trans
      ((s.dev.atTime t).word_logErr _ _ _ _ (by simp [hraw, haddr, hinfo, hcount]))

end

theorem answers_softRstDone {s : State} {t : Nat} {r : PageRef} (hr : s.dev.inReset = false) (hc : s.dev.calm)
    (hbusy : s.dev.rstBusy r.blk r.inst r.page = true) :
    Answers (.softRstDone t r) s (fun d => d.rstBusy r.blk r.inst r.page = false ∧
      d.recs r.blk r.inst r.page = (s.dev.recs r.blk r.inst r.page).map (fun q => { q with rstSince := true }) ∧
      s.dev.keeps d [Dev.fenceKey r.blk r.inst r.page + 0x0C]) := by
  have hdone : (s.dev.atTime t).softResetDone r = (s.dev.atTime t).resetEnded r := if_pos hbusy
  refine ⟨_, exec_of_onPow (f := fun d => (d.atTime t).softResetDone r) rfl hr hdone hc hr, ?_, ?_, fun a ha => ?_⟩
  · exact (s.dev.atTime t).rstBusy_setRstBusy _ _ _ 0
  · exact (Dev.recs_setRecs _ _ _ _ _ _ _ _).trans (if_pos rfl)
  · exact (s.dev.atTime t).word_setRstBusy _ _ _ _ (by simpa using ha)

theorem enablesAndDisables_holds : enablesAndDisables := by
  intro s t r h hc
  exact ⟨fun hf => ⟨answers_enable h hc hf, answers_disable h hc hf⟩, exec_writeEn_idle h hc rfl, exec_writeEn_idle h hc rfl⟩

theorem softResetOfAUnit_holds : softResetOfAUnit := by
  intro s t r h hc hf
  exact ⟨answers_softRst_idle h hc hf, answers_softRst_running h hc hf, answers_softRstDone h.1 hc⟩

end Sys2Proof.Machine

open Sys2Proof Sys2Proof.Machine

/-- Settles O13: nothing that an enable, a disable or a soft reset sets going changes a CTL word, or a fence record but where it
fences or releases. -/
theorem enablesAndSoftResets : Obligations.EnablesAndSoftResets := ⟨enablesAndDisables_holds, softResetOfAUnit_holds⟩
end

section
/-! PROOF. The words and fields of a lane's page, and the hidden state of a lane (R110, R111): what each update writes there and
what it leaves. -/
namespace Sys2Proof.Machine

theorem lanePageOf_eq (n : Fin 112) : lanePageOf n = Dev.lanePage n := by
  unfold lanePageOf Dev.lanePage laneBlk laneIdx
  split <;> rfl

theorem laneFld_addr {f : Fld} (hf : f.page = 0) (n : Nat) :
    (laneFld f n).addr (laneIdx n) 0 0 = pgAddr (Dev.lanePage n) + f.off := by
  simp only [Fld.addr, laneFld, pgAddr, Dev.lanePage, hf, Nat.zero_mul, Nat.add_zero]

theorem mlane_addr {f : Fld} (hf : f.blk = .mlane ∧ f.page = 0) {n : Nat} (hn : n < 96) :
    f.addr n 0 0 = pgAddr (Dev.lanePage n) + f.off := by
  rw [← laneFld_addr hf.2, laneFld, laneIdx, laneBlk, if_pos hn, if_pos hn, ← hf.1]

/-- Fields of MLANE's page that share no bit. -/
def Fld.apart (f g : Fld) : Bool :=
  f.page = 0 && g.page = 0 && f.lo + f.w ≤ 32 && (f.off ≠ g.off || g.lo + g.w ≤ f.lo || f.lo + f.w ≤ g.lo)

/-- Bits of two words that agree give equal fields. -/
theorem bitsOf_congr {v w : Word} {lo k : Nat} (h : ∀ b, lo ≤ b → b < lo + k → v.getLsbD b = w.getLsbD b) :
    bitsOf v.toNat lo k = bitsOf w.toNat lo k := by
  refine Nat.eq_of_testBit_eq fun i => ?_
  rw [bitsOf, bitsOf, Nat.testBit_mod_two_pow, Nat.testBit_mod_two_pow, Nat.testBit_div_two_pow, Nat.testBit_div_two_pow]
  by_cases hi : i < k
  · simp only [hi]
    exact congrArg _ (h (i + lo) (by omega) (by omega))
  · simp [hi]

namespace Dev
section
variable (d : Dev) {f g : Fld} {n : Nat}

theorem getLsbD_eq_bitsAt (a b : Nat) : (d.word a).getLsbD b = decide (d.bitsAt a b 1 = 1) := by
  rw [bitsAt, bitsOf, BitVec.getLsbD, Nat.testBit_eq_decide_div_mod_eq, Nat.pow_one]

/-! Words. -/

theorem lget_eq (hf : f.page = 0) (n : Nat) : d.lget f n = d.bitsAt (pgAddr (lanePage n) + f.off) f.lo f.w := by
  rw [lget, get, laneFld_addr hf]
  rfl

theorem lput_eq (hf : f.page = 0) (x n : Nat) : d.lput f x n = d.putAt (pgAddr (lanePage n) + f.off) f.lo f.w x := by
  rw [lput, put, laneFld_addr hf]
  rfl

theorem word_lput_ne (hf : f.page = 0) (x : Nat) {a : Nat} (ha : a ≠ pgAddr (lanePage n) + f.off) :
    (d.lput f x n).word a = d.word a := by
  rw [d.lput_eq hf]
  exact d.word_putAt_ne _ _ _ ha

@[simp] theorem word_lput_off {o : Nat} (x : Nat) (h : f.page = 0 ∧ o ≠ f.off) :
    (d.lput f x n).word (pgAddr (lanePage n) + o) = d.word (pgAddr (lanePage n) + o) :=
  d.word_lput_ne h.1 x (by omega)

theorem word_lirq (n b a : Nat) : (d.lirq n b).word a =
    if a = pgAddr (lanePage n) + 0x10 then d.word (pgAddr (lanePage n) + 0x10) ||| BitVec.ofNat 32 (2 ^ b % 2 ^ 31)
    else d.word a := d.word_irqSet (lanePage n) (2 ^ b) a

theorem word_lirq_ne (b : Nat) {a : Nat} (ha : a ≠ pgAddr (lanePage n) + 0x10) : (d.lirq n b).word a = d.word a :=
  d.word_irqSet_ne (lanePage n) _ ha

@[simp] theorem word_lirq_self (b : Nat) : (d.lirq n b).word (pgAddr (lanePage n) + 0x10) =
    d.word (pgAddr (lanePage n) + 0x10) ||| BitVec.ofNat 32 (2 ^ b % 2 ^ 31) := by
  rw [word_lirq, if_pos rfl]

@[simp] theorem word_lirq_off {o : Nat} (b : Nat) (h : o ≠ 0x10) :
    (d.lirq n b).word (pgAddr (lanePage n) + o) = d.word (pgAddr (lanePage n) + o) := d.word_lirq_ne b (by omega)

@[simp] theorem word_updLane (m : Nat) (u : LaneSt → LaneSt) (a : Nat) : (d.updLane m u).word a = d.word a := rfl
@[simp] theorem word_setLane (m : Nat) (l : LaneSt) (a : Nat) : (d.setLane m l).word a = d.word a := rfl

/-! Fields. -/

@[simp] theorem lget_lput_self (x : Nat) (h : f.page = 0 ∧ f.lo + f.w ≤ 32) : (d.lput f x n).lget f n = x % 2 ^ f.w := by
  rw [lget_eq _ h.1, lput_eq _ h.1, bitsAt_putAt_self _ _ _ _ _ h.2]

@[simp] theorem lget_lput_apart (x : Nat) (h : f.apart g = true) : (d.lput f x n).lget g n = d.lget g n := by
  simp only [Fld.apart, Bool.and_eq_true, Bool.or_eq_true, decide_eq_true_eq] at h
  obtain ⟨⟨⟨hf, hg⟩, hfit⟩, hdis⟩ := h
  by_cases hoff : g.off = f.off
  · rw [lget_eq _ hg, lget_eq _ hg, lput_eq _ hf, hoff]
    exact d.bitsAt_putAt_apart _ _ _ _ _ _ hfit (by omega)
  · rw [lget_eq _ hg, lget_eq _ hg, lput_eq _ hf]
    exact d.bitsAt_putAt_ne _ _ _ _ _ (by omega)

@[simp] theorem lget_lcount_self (k : Nat) (h : f.lo = 0 ∧ f.w = 32) :
    (d.lcount f n k).lget f n = min (d.lget f n + k) 0xFFFFFFFF := by
  have hcount := get_count_self d (laneFld f n) (laneIdx n) 0 k (show f.lo + f.w ≤ 32 by omega)
  exact hcount.trans (by rw [show (laneFld f n).w = 32 from h.2]; rfl)

@[simp] theorem lget_lcount_apart (k : Nat) (h : f.apart g = true) : (d.lcount f n k).lget g n = d.lget g n :=
  d.lget_lput_apart _ h

theorem word_lcount_ne (hf : f.page = 0) (k : Nat) {a : Nat} (ha : a ≠ pgAddr (lanePage n) + f.off) :
    (d.lcount f n k).word a = d.word a := d.word_lput_ne hf _ ha

@[simp] theorem word_lcount_off {o : Nat} (k : Nat) (h : f.page = 0 ∧ o ≠ f.off) :
    (d.lcount f n k).word (pgAddr (lanePage n) + o) = d.word (pgAddr (lanePage n) + o) := d.word_lput_off _ h

@[simp] theorem lget_lirq (b : Nat) (h : f.page = 0 ∧ f.off ≠ 0x10) : (d.lirq n b).lget f n = d.lget f n := by
  rw [lget_eq _ h.1, lget_eq _ h.1, bitsAt, word_lirq_off _ _ h.2, bitsAt]

@[simp] theorem lget_updLane (m : Nat) (u : LaneSt → LaneSt) : (d.updLane m u).lget f n = d.lget f n := rfl
@[simp] theorem lget_setLane (m : Nat) (l : LaneSt) : (d.setLane m l).lget f n = d.lget f n := rfl

theorem lget_congr {e : Dev} (hf : f.page = 0)
    (h : e.word (pgAddr (lanePage n) + f.off) = d.word (pgAddr (lanePage n) + f.off)) : e.lget f n = d.lget f n := by
  rw [lget_eq _ hf, lget_eq _ hf, bitsAt, h, bitsAt]

theorem get_eq_lget (hn : n < 96) (hf : f.blk = .mlane) : d.get f n = d.lget f n := by
  rw [lget, laneFld, laneIdx, laneBlk, if_pos hn, if_pos hn, ← hf]

theorem put_eq_lput (hn : n < 96) (hf : f.blk = .mlane) (x : Nat) : d.put f x n = d.lput f x n := by
  rw [lput, laneFld, laneIdx, laneBlk, if_pos hn, if_pos hn, ← hf]

theorem count_eq_lcount (hn : n < 96) (hf : f.blk = .mlane) : d.count f n = d.lcount f n 1 := by
  rw [lcount, laneFld, laneIdx, laneBlk, if_pos hn, if_pos hn, ← hf]

theorem lget_lt (f : Fld) (n : Nat) : d.lget f n < 2 ^ f.w := bitsOf_lt _ _ _

/-- A bit that is not 0 is 1. -/
theorem lget_bit (hf : f.w = 1) (h : d.lget f n ≠ 0) : d.lget f n = 1 := by
  have := d.lget_lt f n
  rw [hf] at this
  omega

/-! Hidden state. -/

@[simp] theorem lane_setWord (a : Nat) (v : Word) (m : Nat) : (d.setWord a v).lane m = d.lane m := rfl
@[simp] theorem lane_lput (x n m : Nat) : (d.lput f x n).lane m = d.lane m := rfl
@[simp] theorem lane_lcount (k n m : Nat) : (d.lcount f n k).lane m = d.lane m := rfl
@[simp] theorem lane_lirq (n b m : Nat) : (d.lirq n b).lane m = d.lane m := by rw [lane, lirq, irq_lanes, lane]
@[simp] theorem lane_setLane_self (n : Nat) (l : LaneSt) : (d.setLane n l).lane n = l := sget_sset_self _ _ _ _
@[simp] theorem lane_updLane_self (n : Nat) (u : LaneSt → LaneSt) : (d.updLane n u).lane n = u (d.lane n) :=
  d.lane_setLane_self n _
theorem lane_updLane_ne {m : Nat} (u : LaneSt → LaneSt) (h : m ≠ n) : (d.updLane n u).lane m = d.lane m :=
  sget_sset_ne _ _ _ h
@[simp] theorem lane_atTime (t m : Nat) : (d.atTime t).lane m = d.lane m := rfl
@[simp] theorem lget_atTime (t : Nat) : (d.atTime t).lget f n = d.lget f n := rfl

end
end Dev
end Sys2Proof.Machine
end

section
/-! PROOF. What contexts, interfaces, the PTP port and output ports do leaves the lanes and the words of their pages (R98, R109,
R136, R138, R353), and what a bond does leaves all of these but its own bits. -/
namespace Sys2Proof.Machine

/-- An address of the pages of the lanes. -/
def inLanes (a : Nat) : Bool := 0x100000 ≤ a && a < 0x190000

theorem inLanes_lanePage {n o : Nat} (hn : n < 112) (ho : o < 0x1000) : inLanes (pgAddr (Dev.lanePage n) + o) = true := by
  unfold Dev.lanePage laneBlk laneIdx
  split <;> simp [inLanes, pgAddr, pageAddr, blkBase, blkStride, blkPages] <;> omega

/-- Blocks whose pages are no lane's. -/
def besideLanes (b : Blk) : Bool := b = .ingest || b = .nport || b = .time || b = .oport

theorem inLanes_eq_false {a : Nat} : inLanes a = false ↔ a < 0x100000 ∨ 0x190000 ≤ a := by
  simp only [inLanes, Bool.and_eq_false_iff, decide_eq_false_iff_not]
  omega

theorem inLanes_beside {b : Blk} {i p o : Nat} (hb : besideLanes b = true) (hi : i < blkCount b) (hp : p < blkPages b)
    (ho : o < 0x1000) : inLanes (pageAddr b i p + o) = false := by
  rw [inLanes_eq_false]
  cases b <;> simp only [besideLanes, reduceCtorEq, decide_false, Bool.or_false, Bool.false_eq_true] at hb <;>
    simp only [pageAddr, blkBase, blkStride, blkPages, blkCount] at * <;> omega

namespace Dev

/-- The hidden state of the lanes and the words of their pages. -/
def laneSide (d : Dev) : List (Nat × LaneSt) × (Nat → Word) := (d.lanes, fun a => if inLanes a then d.word a else 0)

section
variable {d e : Dev}

theorem laneSide_lane (h : e.laneSide = d.laneSide) (n : Nat) : e.lane n = d.lane n := by
  rw [lane, lane, show e.lanes = d.lanes from congrArg (·.1) h]

theorem laneSide_word (h : e.laneSide = d.laneSide) {a : Nat} (ha : inLanes a = true) : e.word a = d.word a := by
  simpa [laneSide, ha] using congrFun (congrArg (·.2) h) a

theorem laneSide_of_word (hl : e.lanes = d.lanes) (h : ∀ a, inLanes a = true → e.word a = d.word a) :
    e.laneSide = d.laneSide := by
  have hw : (fun a => if inLanes a then e.word a else 0) = fun a => if inLanes a then d.word a else 0 := by
    funext a
    split
    · next ha => exact h a ha
    · rfl
  rw [laneSide, laneSide, hl, hw]

end

section
variable (d : Dev)

theorem laneSide_setWord {a : Nat} (v : Word) (ha : inLanes a = false) : (d.setWord a v).laneSide = d.laneSide :=
  laneSide_of_word rfl fun b hb => d.word_setWord_ne v (by rintro rfl; simp [ha] at hb)

theorem inLanes_addr {f : Fld} {i : Nat} (hf : besideLanes f.blk = true ∧ f.page < blkPages f.blk ∧ f.off < 0x1000)
    (hi : i < blkCount f.blk) : inLanes (f.addr i 0 0) = false := by
  rw [Fld.addr, Nat.zero_mul, Nat.zero_mul]
  exact inLanes_beside hf.1 hi hf.2.1 hf.2.2

theorem laneSide_put {f : Fld} (x : Nat) {i : Nat} (hf : besideLanes f.blk = true ∧ f.page < blkPages f.blk ∧ f.off < 0x1000)
    (hi : i < blkCount f.blk) : (d.put f x i).laneSide = d.laneSide := d.laneSide_setWord _ (inLanes_addr hf hi)

theorem laneSide_count {f : Fld} {i : Nat} (hf : besideLanes f.blk = true ∧ f.page < blkPages f.blk ∧ f.off < 0x1000)
    (hi : i < blkCount f.blk) : (d.count f i).laneSide = d.laneSide := d.laneSide_put _ hf hi

theorem laneSide_irq {b : Blk} {i p : Nat} (k : Nat) (hb : besideLanes b = true) (hi : i < blkCount b) (hp : p < blkPages b) :
    (d.irq b i p k).laneSide = d.laneSide :=
  laneSide_of_word (irq_lanes d _ _ _ _) fun a ha => d.word_irq_ne b i p k fun h => by
    rw [h, inLanes_beside hb hi hp (by decide)] at ha
    exact Bool.false_ne_true ha

@[simp] theorem laneSide_updCtx (n : Nat) (u : CtxSt → CtxSt) : (d.updCtx n u).laneSide = d.laneSide := rfl
@[simp] theorem laneSide_updTm (u : TimeSt → TimeSt) : (d.updTm u).laneSide = d.laneSide := rfl
theorem laneSide_foldl {β : Type} {u : Dev → β → Dev} (l : List β) (h : ∀ e, ∀ b ∈ l, (u e b).laneSide = e.laneSide) :
    (l.foldl u d).laneSide = d.laneSide := foldl_keeps laneSide h d

/-! Contexts. -/

section
variable {n : Nat} (hn : n < 256)
include hn

theorem laneSide_discardCur (reason : Nat) : (d.discardCur n reason).laneSide = d.laneSide := by
  unfold discardCur
  split
  · split
    · rfl
    · rw [discard, laneSide_irq _ _ rfl hn (by decide), laneSide_put _ _ (by decide) hn, laneSide_count _ (by decide) hn,
        laneSide_updCtx]
  · rfl

theorem laneSide_changeUndo : (d.changeUndo n).laneSide = d.laneSide := by
  have hbit (e : Dev) : (e.putAt (pageAddr .ingest n 0 + 0x10) 2 1 0).laneSide = e.laneSide :=
    e.laneSide_setWord _ (inLanes_beside rfl hn (by decide) (by decide))
  have hcount (e : Dev) (x : Nat) : (e.put F.INGEST_FORMAT_CHANGES x n).laneSide = e.laneSide :=
    e.laneSide_put x (by decide) hn
  unfold changeUndo
  split
  · split
    · dsimp only
      rw [laneSide_updCtx]
      split
      · exact hcount _ _
      · rw [hbit, hcount]
    · rfl
  · rfl

theorem laneSide_ctxLose : (d.ctxLose n).laneSide = d.laneSide := by
  unfold ctxLose
  split
  · dsimp only
    rw [laneSide_irq _ _ rfl hn (by decide), setCtxState, laneSide_put _ _ (by decide) hn, laneSide_count _ (by decide) hn,
      laneSide_updCtx, laneSide_changeUndo _ hn, laneSide_discardCur _ hn]
  · rfl

theorem laneSide_ctxSearch : (d.ctxSearch n).laneSide = d.laneSide := by
  rw [ctxSearch, laneSide_updCtx, setCtxState, laneSide_put _ _ (by decide) hn]

theorem laneSide_pathDown (path2 : Bool) : (d.pathDown n path2).laneSide = d.laneSide := by
  have hput : ((d.put (if path2 then F.INGEST_STATE_PATH2_DOWN else F.INGEST_STATE_PATH1_DOWN) 1 n).put
      F.INGEST_STATE_PATH_DOWN 1 n).laneSide = d.laneSide := by
    rw [laneSide_put _ _ (by decide) hn]
    cases path2
    · exact d.laneSide_put (f := F.INGEST_STATE_PATH1_DOWN) _ (by decide) hn
    · exact d.laneSide_put (f := F.INGEST_STATE_PATH2_DOWN) _ (by decide) hn
  unfold pathDown
  dsimp only
  split
  · exact hput
  · rw [laneSide_irq _ _ rfl hn (by decide), hput]

theorem laneSide_pathGone (path2 : Bool) : (d.pathGone n path2).laneSide = d.laneSide := by
  unfold pathGone
  split_ifs <;> simp only [laneSide_ctxLose _ hn, laneSide_pathDown _ hn]

theorem laneSide_netSilent (i : Nat) : (d.netSilent i n).laneSide = d.laneSide := by
  unfold netSilent
  dsimp only
  split_ifs <;> simp only [laneSide_pathDown _ hn, laneSide_pathGone _ hn]

end

/-! The house reference and interfaces. -/

theorem laneSide_time (f : Fld) (x : Nat) (hf : f.blk = .time ∧ f.page < 2 ∧ f.off < 0x1000) :
    (d.put f x).laneSide = d.laneSide := by
  obtain ⟨hblk, hpage, hoff⟩ := hf
  exact d.laneSide_put _ (by rw [hblk]; exact ⟨rfl, hpage, hoff⟩) (by rw [hblk]; decide)

theorem laneSide_houseLost : d.houseLost.laneSide = d.laneSide := by
  have hold (e : Dev) : e.holdoverOn.laneSide = e.laneSide := by
    have hput := e.laneSide_time F.TIME_STS_HOLDOVER 1 (by decide)
    unfold holdoverOn
    dsimp only
    split
    · exact hput
    · exact (laneSide_updTm _ _).trans hput
  unfold houseLost
  split
  · rfl
  · rw [laneSide_irq _ _ rfl (by decide) (by decide), laneSide_updTm, hold, laneSide_time _ F.TIME_STS_HOLDOFF _ (by decide),
      laneSide_time _ F.TIME_STS_LOCKED _ (by decide)]

theorem laneSide_ptpLose : d.ptpLose.laneSide = d.laneSide := by
  have hreset : d.ptpReset.houseLost.laneSide = d.laneSide := by
    rw [laneSide_houseLost, ptpReset, laneSide_updTm, laneSide_time _ F.TIME_PTP_STS_PORT_STATE _ (by decide),
      laneSide_time _ F.TIME_PTP_STS_SERVO_LOCK _ (by decide)]
  unfold ptpLose
  split
  · rfl
  · dsimp only
    split
    · rw [laneSide_count _ (f := F.TIME_MASTER_CHANGES) (by decide) (by decide),
        laneSide_time _ F.TIME_PTP_STS_ON_BACKUP _ (by decide), hreset]
    · split
      · exact hreset
      · rw [laneSide_time _ F.TIME_PTP_STS_PORT_STATE _ (by decide), hreset]

theorem laneSide_netDrop {i : Nat} (hi : i < 16) : (d.netDrop i).laneSide = d.laneSide := by
  have hport : i / 4 < blkCount .nport := by change i / 4 < 4; omega
  have hback (e : Dev) (x : List (Nat × Nat)) (u : TimeSt → TimeSt) :
      (({ e with netBack := x } : Dev).updTm u).laneSide = e.laneSide := rfl
  have hlink (e : Dev) (v k : Nat) : ((e.setLinkBit i v).irq .nport (i / 4) 0 k).laneSide = e.laneSide := by
    rw [laneSide_irq _ _ rfl hport (by decide)]
    exact e.laneSide_setWord _ (inLanes_addr (by decide) hport)
  have hsilent (e : Dev) : ((List.range 256).foldl (fun e n => e.netSilent i n) e).laneSide = e.laneSide :=
    e.laneSide_foldl _ fun e n hn => e.laneSide_netSilent (List.mem_range.1 hn) i
  unfold netDrop
  split
  · rfl
  · dsimp only
    split
    · rw [laneSide_ptpLose, hsilent, hback, hlink]
    · rw [hsilent, hback, hlink]

theorem laneSide_netLaneLoss {n : Nat} (hn : n < 16) : (d.netLaneLoss n).laneSide = d.laneSide := by
  refine d.laneSide_foldl _ fun e s hs => ?_
  have hs' := List.mem_range.1 hs
  dsimp only
  split
  · exact e.laneSide_netDrop (by omega)
  · rfl

theorem lt_of_mem_laneCtxs {n c : Nat} (hc : c ∈ d.laneCtxs n) : c < 256 := List.mem_range.1 (List.mem_of_mem_filter hc)
theorem lt_of_mem_bondCtxs {id c : Nat} (hc : c ∈ d.bondCtxs id) : c < 256 := List.mem_range.1 (List.mem_of_mem_filter hc)
@[simp] theorem laneSide_laneBack (n : Nat) : (d.laneBack n).laneSide = d.laneSide := by
  unfold laneBack
  split
  · refine d.laneSide_foldl _ fun e c hc => ?_
    split
    · exact e.laneSide_ctxSearch (d.lt_of_mem_laneCtxs hc)
    · rfl
  · split <;> rfl

/-! Output ports. -/

theorem laneSide_portSwitch {p : Nat} (hp : p < 96) (new : Nat) : (d.portSwitch p new).laneSide = d.laneSide := by
  refine laneSide_of_word ?_ fun a ha => d.word_portSwitch p new fun o ho h => ?_
  · unfold portSwitch
    dsimp only
    split
    · rfl
    · split <;> split <;> split <;> split <;> simp only [irq_lanes, count_lanes, updHeadSt, setHeadSt, putB_lanes, setPort]
  · rw [h, inLanes_beside rfl hp (by decide) ho] at ha
    exact Bool.false_ne_true ha

@[simp] theorem laneSide_portsRefresh : d.portsRefresh.laneSide = d.laneSide :=
  d.laneSide_foldl _ fun e _ hp => e.laneSide_portSwitch (List.mem_range.1 hp) _

end
end Dev
end Sys2Proof.Machine
end

section
/-! PROOF. What a bond does leaves the hidden state of the lanes, and the words of their pages but BOND_UP and the events BOND_DOWN
and BOND_UP (R109); so does the loss of signal or lock of a lane (R98). -/
namespace Sys2Proof.Machine

/-- The bits of a lane's page that a bond sets: LANE_STS.BOND_UP, and bits 7 and 8 of IRQ_RAW. -/
def bondBit (a b : Nat) : Bool := (a % 0x1000 = 0x60 && b = 10) || (a % 0x1000 = 0x10 && (b = 7 || b = 8))

/-- A field of a lane's page that holds no bit of `bondBit`. -/
def Fld.unbonded (f : Fld) : Bool := F.MLANE_LANE_STS_BOND_UP.apart f && f.off < 0x1000 && f.off ≠ 0x10

namespace Dev

/-- The hidden state of the lanes, and the bits of the words of their pages that no bond sets. -/
def bondSide (d : Dev) : List (Nat × LaneSt) × (Nat → Nat → Bool) :=
  (d.lanes, fun a b => inLanes a && !bondBit a b && (d.word a).getLsbD b)

section
variable {d e : Dev}

theorem bondSide_of_bit (hl : e.lanes = d.lanes)
    (h : ∀ a b, inLanes a = true → bondBit a b = false → (e.word a).getLsbD b = (d.word a).getLsbD b) :
    e.bondSide = d.bondSide := by
  have hw : (fun a b => inLanes a && !bondBit a b && (e.word a).getLsbD b) =
      fun a b => inLanes a && !bondBit a b && (d.word a).getLsbD b := by
    funext a b
    cases ha : inLanes a
    · rfl
    · cases hb : bondBit a b
      · rw [h a b ha hb]
      · rfl
  rw [bondSide, bondSide, hl, hw]

theorem bondSide_of_laneSide (h : e.laneSide = d.laneSide) : e.bondSide = d.bondSide :=
  bondSide_of_bit (congrArg (·.1) h) fun _ _ ha _ => by rw [laneSide_word h ha]

section
variable (h : e.bondSide = d.bondSide)
include h

theorem bondSide_lanes : e.lanes = d.lanes := congrArg (·.1) h

theorem bondSide_lane (n : Nat) : e.lane n = d.lane n := by rw [lane, lane, bondSide_lanes h]

theorem bondSide_bit {a b : Nat} (ha : inLanes a = true) (hb : bondBit a b = false) :
    (e.word a).getLsbD b = (d.word a).getLsbD b := by
  simpa [bondSide, ha, hb] using congrFun (congrFun (congrArg (·.2) h) a) b

end
end

section
variable (d : Dev)

theorem bondSide_lget {e : Dev} (h : e.bondSide = d.bondSide) {n : Nat} (hn : n < 112) {f : Fld} (hf : f.unbonded = true) :
    e.lget f n = d.lget f n := by
  simp only [Fld.unbonded, Fld.apart, Bool.and_eq_true, Bool.or_eq_true, decide_eq_true_eq] at hf
  obtain ⟨⟨⟨⟨⟨-, hpage⟩, -⟩, hdis⟩, hoff⟩, hirq⟩ := hf
  simp only [F.MLANE_LANE_STS_BOND_UP] at hdis
  have hmod := header_mod (lanePage n) f.off
  rw [lget_eq _ hpage, lget_eq _ hpage]
  refine bitsOf_congr fun b hlo hhi => bondSide_bit h (inLanes_lanePage hn hoff) ?_
  simp only [bondBit, Bool.or_eq_false_iff, Bool.and_eq_false_iff, decide_eq_false_iff_not]
  omega

theorem bondSide_irqBit {e : Dev} (h : e.bondSide = d.bondSide) {n b : Nat} (hn : n < 112) (hb : b ≠ 7 ∧ b ≠ 8) :
    (e.word (pgAddr (lanePage n) + 0x10)).getLsbD b = (d.word (pgAddr (lanePage n) + 0x10)).getLsbD b := by
  have hmod := header_mod (lanePage n) 0x10
  refine bondSide_bit h (inLanes_lanePage hn (by decide)) ?_
  simp only [bondBit, Bool.or_eq_false_iff, Bool.and_eq_false_iff, decide_eq_false_iff_not]
  omega

theorem getLsbD_lput {f : Fld} (hf : f.page = 0 ∧ f.lo + f.w ≤ 32) (x n : Nat) {a b : Nat}
    (h : a = pgAddr (lanePage n) + f.off → b < f.lo ∨ f.lo + f.w ≤ b) :
    ((d.lput f x n).word a).getLsbD b = (d.word a).getLsbD b := by
  by_cases ha : a = pgAddr (lanePage n) + f.off
  · rw [getLsbD_eq_bitsAt, getLsbD_eq_bitsAt, lput_eq _ hf.1, ha, bitsAt_putAt_apart _ _ _ _ _ _ _ hf.2]
    have := h ha
    omega
  · rw [word_lput_ne _ hf.1 x ha]

/-- BOND_UP of a lane changes, with its event. -/
theorem bondSide_bondUp (x n k : Nat) (hk : k = 7 ∨ k = 8) :
    ((d.lput F.MLANE_LANE_STS_BOND_UP x n).lirq n k).bondSide = d.bondSide := by
  refine bondSide_of_bit ((irq_lanes _ _ _ _ _).trans (put_lanes d _ _ _ _ _)) fun a b _ hb => ?_
  have hup := header_mod (lanePage n) 0x60
  have hirq := header_mod (lanePage n) 0x10
  simp only [bondBit, Bool.or_eq_false_iff, Bool.and_eq_false_iff, decide_eq_false_iff_not] at hb
  have hput : ((d.lput F.MLANE_LANE_STS_BOND_UP x n).word a).getLsbD b = (d.word a).getLsbD b :=
    d.getLsbD_lput (by decide) x n fun ha => by
      simp only [F.MLANE_LANE_STS_BOND_UP] at ha ⊢
      omega
  rw [word_lirq]
  split
  · next ha =>
    have hne : b ≠ k := by omega
    have hbit : (BitVec.ofNat 32 (2 ^ k % 2 ^ 31)).getLsbD b = false := by
      rw [BitVec.getLsbD_ofNat, Nat.testBit_mod_two_pow, Nat.testBit_two_pow_of_ne (Ne.symm hne), Bool.and_false, Bool.and_false]
    rw [BitVec.getLsbD_or, hbit, Bool.or_false, ← ha, hput]
  · exact hput

theorem bondSide_foldl {β : Type} {u : Dev → β → Dev} (l : List β) (h : ∀ e, ∀ b ∈ l, (u e b).bondSide = e.bondSide) :
    (l.foldl u d).bondSide = d.bondSide := foldl_keeps bondSide h d

theorem bondSide_ctxsLose {ctxs : List Nat} (h : ∀ c ∈ ctxs, c < 256) : (ctxs.foldl ctxLose d).bondSide = d.bondSide :=
  d.bondSide_foldl _ fun e c hc => bondSide_of_laneSide (e.laneSide_ctxLose (h c hc))

@[simp] theorem bondSide_bondDown (id : Nat) : (d.bondDown id).bondSide = d.bondSide := by
  unfold bondDown bondFall
  split
  · rw [bondSide_ctxsLose _ fun _ hc => d.lt_of_mem_bondCtxs hc]
    exact d.bondSide_foldl _ fun e m _ => e.bondSide_bondUp 0 m 7 (.inl rfl)
  · rfl

@[simp] theorem bondSide_laneLoss {n : Nat} (hn : n < 112) : (d.laneLoss n).bondSide = d.bondSide := by
  unfold laneLoss
  split
  · dsimp only
    rw [bondSide_ctxsLose _ fun _ hc => lt_of_mem_laneCtxs _ hc]
    split
    · exact d.bondSide_bondDown _
    · rfl
  · exact bondSide_of_laneSide (d.laneSide_netLaneLoss (by omega))

theorem bondSide_bondTryUp (id : Nat) : (d.bondTryUp id).bondSide = d.bondSide := by
  unfold bondTryUp
  dsimp only
  split
  · exact d.bondSide_foldl _ fun e m _ => e.bondSide_bondUp 1 m 8 (.inr rfl)
  · rfl

/-- What a bond receives changes what its receiver keeps, and nothing else. -/
theorem bondRecover_eq (id : Nat) : ∃ x, d.bondRecover id = { d with bondRx := x } := ⟨_, rfl⟩

@[simp] theorem bondSide_bondRound (id : Nat) : (d.bondRound id).bondSide = d.bondSide := by
  unfold bondRound
  dsimp only
  split
  · rfl
  · split
    · obtain ⟨x, hx⟩ := d.bondRecover_eq id
      rw [bondSide_bondTryUp, hx]
      rfl
    · exact d.bondSide_bondDown id

@[simp] theorem gating_bondDown (id : Nat) : (d.bondDown id).gating = d.gating := d.gating_bondFall _ _

@[simp] theorem gating_bondRound (id : Nat) : (d.bondRound id).gating = d.gating := by
  have hup (e : Dev) : (e.bondTryUp id).gating = e.gating := by
    unfold bondTryUp
    dsimp only
    split
    · exact e.gating_foldl _ fun e m _ => by simp (disch := decide)
    · rfl
  unfold bondRound
  dsimp only
  split
  · rfl
  · split
    · obtain ⟨x, hx⟩ := d.bondRecover_eq id
      rw [hup, hx]
      rfl
    · exact d.gating_bondDown id

end
end Dev
end Sys2Proof.Machine
end

section
/-! PROOF. What the shared operations of a lane write in its page and its hidden state: the equaliser's values, acquisition, the
generator and the transmitter (R89, R92 to R95, R100). -/
namespace Sys2Proof.Machine

/-- Page offsets of the taps in use of a receiver (R110, R111). -/
def tapOffs : List Nat := [0x50, 0x54, 0xB0, 0xB4, 0xB8, 0xBC]

/-- Page offsets of what acquisition writes: the values in use, and LANE_STS. -/
def acquireOffs : List Nat := 0x58 :: 0x60 :: tapOffs

/-- A field of a lane's page that acquisition leaves. -/
def Fld.unacquired (f : Fld) : Bool :=
  F.MLANE_LANE_STS_ADAPT_DONE.apart f && f.off < 0x1000 && !(0x58 :: tapOffs).contains f.off

namespace Dev
section
variable {d e : Dev} {f : Fld} {n : Nat} (hn : n < 112)
include hn

/-! Reading a lane that only others have touched. -/

theorem lget_of_laneSide (h : e.laneSide = d.laneSide) (hf : f.page = 0 ∧ f.off < 0x1000) : e.lget f n = d.lget f n :=
  d.lget_congr hf.1 (laneSide_word h (inLanes_lanePage hn hf.2))

theorem word_of_laneSide (h : e.laneSide = d.laneSide) {o : Nat} (ho : o < 0x1000) :
    e.word (pgAddr (lanePage n) + o) = d.word (pgAddr (lanePage n) + o) := laneSide_word h (inLanes_lanePage hn ho)

end

section
variable (d : Dev) {f : Fld} {n : Nat}

/-! The equaliser. -/

/-- Four words from an offset of the page on, as the words of a network lane's FFE lie. -/
def ffeWrite (d : Dev) (n o : Nat) (v : Dev → Nat → Word) : Dev :=
  (List.range 4).foldl (fun e k => e.setWord (pgAddr (lanePage n) + o + 4 * k) (v e k)) d

@[simp] theorem lane_ffeWrite (o m : Nat) (v : Dev → Nat → Word) : (d.ffeWrite n o v).lane m = d.lane m :=
  foldl_keeps (lane · m) (fun e _ _ => e.lane_setWord _ _ m) d

theorem word_ffeWrite (o : Nat) (v : Dev → Nat → Word) {a : Nat}
    (h : ∀ p ∈ [o, o + 4, o + 8, o + 12], a ≠ pgAddr (lanePage n) + p) : (d.ffeWrite n o v).word a = d.word a := by
  refine foldl_keeps (word · a) (fun e k hk => e.word_setWord_ne _ ?_) d
  have hk4 := List.mem_range.1 hk
  rw [Nat.add_assoc]
  refine h _ ?_
  simp only [List.mem_cons, List.not_mem_nil, or_false]
  omega

theorem gating_ffeWrite {o : Nat} (v : Dev → Nat → Word) (ho : 8 < o ∧ o < 0x1000 - 12) :
    (d.ffeWrite n o v).gating = d.gating :=
  d.gating_foldl _ fun e k hk => by
    have hk4 := List.mem_range.1 hk
    rw [Nat.add_assoc]
    exact e.gating_setWord_header _ _ (by omega)

theorem useTaps_eq (n : Nat) : d.useTaps n =
    let e := d.setWord (pgAddr (lanePage n) + 0x50) (d.word (pgAddr (lanePage n) + 0x48))
    if n < 96 then e.setWord (pgAddr (lanePage n) + 0x54) (e.word (pgAddr (lanePage n) + 0x4C))
    else e.ffeWrite n 0xB0 (fun e k => e.word (pgAddr (lanePage n) + 0xA0 + 4 * k)) := rfl

theorem word_useTaps {a : Nat} (h : ∀ o ∈ tapOffs, a ≠ pgAddr (lanePage n) + o) : (d.useTaps n).word a = d.word a := by
  rw [useTaps_eq]
  dsimp only
  split
  · rw [word_setWord_ne _ _ (h 0x54 (by decide)), word_setWord_ne _ _ (h 0x50 (by decide))]
  · rw [word_ffeWrite _ _ _ fun p hp => h p (by simp [tapOffs] at hp ⊢; omega), word_setWord_ne _ _ (h 0x50 (by decide))]

theorem word_useTaps_media (hn : n < 96) {a : Nat} (h : a ≠ pgAddr (lanePage n) + 0x50) (h' : a ≠ pgAddr (lanePage n) + 0x54) :
    (d.useTaps n).word a = d.word a := by
  unfold useTaps
  dsimp only
  rw [if_pos hn, word_setWord_ne _ _ h', word_setWord_ne _ _ h]

@[simp] theorem lget_useTaps (hf : f.page = 0 ∧ f.off ∉ tapOffs) : (d.useTaps n).lget f n = d.lget f n := by
  refine d.lget_congr hf.1 (d.word_useTaps fun o ho h => hf.2 ?_)
  rwa [show f.off = o by omega]

@[simp] theorem lane_useTaps (m : Nat) : (d.useTaps n).lane m = d.lane m := by
  rw [useTaps_eq]
  dsimp only
  split
  · rw [lane_setWord, lane_setWord]
  · rw [lane_ffeWrite, lane_setWord]

/-! Acquisition (R95). -/

/-- The receive half starts to acquire, from the values that the control fields give or that it keeps. -/
def acquiring (d : Dev) (n : Nat) : Dev :=
  ((if (d.lane n).keep then d else (d.useCtle n).useTaps n).lput F.MLANE_LANE_STS_ADAPT_DONE 0 n).updLane n
    (fun l => { l with acq := true })

theorem acquire_media (hn : n < 96) : d.acquire n = d.acquiring n := by
  unfold acquire
  exact if_pos hn

theorem laneSide_acquire (hn : n < 112) : (d.acquire n).laneSide = (d.acquiring n).laneSide := by
  unfold acquire
  dsimp only
  split
  · rfl
  · exact laneSide_netLaneLoss _ (by omega)

@[simp] theorem lane_acquire (hn : n < 112) : (d.acquire n).lane n = { d.lane n with acq := true } := by
  rw [laneSide_lane (d.laneSide_acquire hn), acquiring, lane_updLane_self, lane_lput]
  split
  · rfl
  · rw [lane_useTaps, useCtle, lane_lput]

theorem lget_acquire_adaptDone (hn : n < 112) : (d.acquire n).lget F.MLANE_LANE_STS_ADAPT_DONE n = 0 := by
  rw [lget_of_laneSide hn (d.laneSide_acquire hn) (by decide), acquiring, lget_updLane, lget_lput_self _ _ (by decide)]
  rfl

theorem lget_acquire_ctle (hn : n < 112) : (d.acquire n).lget F.MLANE_RX_EQ_STS_CTLE n =
    if (d.lane n).keep then d.lget F.MLANE_RX_EQ_STS_CTLE n else d.lget F.MLANE_RX_EQ_CTL_CTLE n := by
  rw [lget_of_laneSide hn (d.laneSide_acquire hn) (by decide), acquiring, lget_updLane, lget_lput_apart _ _ (by decide)]
  split
  · rfl
  · rw [lget_useTaps _ (by decide), useCtle, lget_lput_self _ _ (by decide)]
    exact Nat.mod_eq_of_lt (d.lget_lt F.MLANE_RX_EQ_CTL_CTLE n)

theorem lget_acquire (hn : n < 112) (hf : f.unacquired = true) : (d.acquire n).lget f n = d.lget f n := by
  simp only [Fld.unacquired, Bool.and_eq_true, decide_eq_true_eq, Bool.not_eq_true', List.contains_eq_mem,
    decide_eq_false_iff_not, List.mem_cons, not_or] at hf
  obtain ⟨⟨hdone, hoff⟩, hctle, htaps⟩ := hf
  have hpage : f.page = 0 := by
    simp only [Fld.apart, Bool.and_eq_true, decide_eq_true_eq] at hdone
    exact hdone.1.1.2
  rw [lget_of_laneSide hn (d.laneSide_acquire hn) ⟨hpage, hoff⟩, acquiring, lget_updLane, lget_lput_apart _ _ hdone]
  split
  · rfl
  · rw [lget_useTaps _ ⟨hpage, htaps⟩, useCtle, lget_eq _ hpage, lget_eq _ hpage, bitsAt, bitsAt,
      word_lput_off _ _ ⟨rfl, hctle⟩]

theorem word_acquiring {a : Nat} (h : ∀ o ∈ acquireOffs, a ≠ pgAddr (lanePage n) + o) : (d.acquiring n).word a = d.word a := by
  have htaps : ∀ o ∈ tapOffs, a ≠ pgAddr (lanePage n) + o := fun o ho => h o (by simp [acquireOffs, ho])
  rw [acquiring, word_updLane, word_lput_ne _ rfl _ (h 0x60 (by decide))]
  split
  · rfl
  · rw [word_useTaps _ htaps, useCtle, word_lput_ne _ rfl _ (h 0x58 (by decide))]

@[simp] theorem word_acquire_off (hn : n < 112) {o : Nat} (ho : o < 0x1000 ∧ o ∉ acquireOffs) :
    (d.acquire n).word (pgAddr (lanePage n) + o) = d.word (pgAddr (lanePage n) + o) := by
  rw [word_of_laneSide hn (d.laneSide_acquire hn) ho.1]
  refine d.word_acquiring fun p hp h => ho.2 ?_
  rwa [show o = p by omega]

/-- Acquisition of a media lane changes its values in use and LANE_STS. -/
theorem word_acquire_media (hn : n < 96) {a : Nat} (h : a ∉ [0x50, 0x54, 0x58, 0x60].map (pgAddr (lanePage n) + ·)) :
    (d.acquire n).word a = d.word a := by
  simp only [List.map_cons, List.map_nil, List.mem_cons, List.not_mem_nil, or_false, not_or] at h
  obtain ⟨hdfeA, hdfeB, hctle, hsts⟩ := h
  rw [acquire_media _ hn, acquiring, word_updLane, word_lput_ne _ rfl _ hsts]
  split
  · rfl
  · rw [word_useTaps_media _ hn hdfeA hdfeB, useCtle, word_lput_ne _ rfl _ hctle]

/-! The end of acquisition (R94, R95). -/

/-- The taps that adaptation has found are shown. -/
def tapsReport (d : Dev) (n : Nat) (e : EqValues) : Dev :=
  let d := d.setWord (pgAddr (lanePage n) + 0x50) (e.dfeA &&& (if n < 96 then 0x7F7F7F7F else 0x7F))
  if n < 96 then d.setWord (pgAddr (lanePage n) + 0x54) (e.dfeB &&& 0x7F)
  else d.ffeWrite n 0xB0 (fun _ k =>
    if k = 1 then ((e.ffe.getD k 0) &&& 0x3FFFFC00) ||| 256 else (e.ffe.getD k 0) &&& 0x3FFFFFFF)

/-- The values of the stages that are not frozen are shown. -/
def eqReport (d : Dev) (n : Nat) (e : EqValues) : Dev :=
  let mode := d.lget F.MLANE_RX_EQ_CTL_EQ_MODE n
  let d := if ctleFrozen mode then d else d.lput F.MLANE_RX_EQ_STS_CTLE e.ctle.toNat n
  if dfeFrozen mode then d else d.tapsReport n e

/-- Acquisition has ended. -/
def acquired (d : Dev) (n : Nat) : Dev :=
  ((d.lput F.MLANE_LANE_STS_ADAPT_DONE 1 n).updLane n (fun l => { l with acq := false, keep := false })).lirq n 4

theorem adaptEnd_none (n : Nat) : d.adaptEnd n none = (d.acquired n).laneBack n := rfl
theorem adaptEnd_some (n : Nat) (e : EqValues) : d.adaptEnd n (some e) = ((d.eqReport n e).acquired n).laneBack n := rfl

theorem word_tapsReport (e : EqValues) {a : Nat} (h : ∀ o ∈ tapOffs, a ≠ pgAddr (lanePage n) + o) :
    (d.tapsReport n e).word a = d.word a := by
  unfold tapsReport
  dsimp only
  split
  · rw [word_setWord_ne _ _ (h 0x54 (by decide)), word_setWord_ne _ _ (h 0x50 (by decide))]
  · rw [word_ffeWrite _ _ _ fun p hp => h p (by simp [tapOffs] at hp ⊢; omega), word_setWord_ne _ _ (h 0x50 (by decide))]

@[simp] theorem lane_tapsReport (e : EqValues) (m : Nat) : (d.tapsReport n e).lane m = d.lane m := by
  unfold tapsReport
  dsimp only
  split
  · rw [lane_setWord, lane_setWord]
  · rw [lane_ffeWrite, lane_setWord]

theorem gating_tapsReport (e : EqValues) : (d.tapsReport n e).gating = d.gating := by
  unfold tapsReport
  dsimp only
  split
  · rw [gating_setWord_header _ _ _ (by decide), gating_setWord_header _ _ _ (by decide)]
  · rw [gating_ffeWrite _ _ (by decide), gating_setWord_header _ _ _ (by decide)]

@[simp] theorem lane_eqReport (e : EqValues) (m : Nat) : (d.eqReport n e).lane m = d.lane m := by
  unfold eqReport
  dsimp only
  split <;> split <;> simp

theorem gating_eqReport (e : EqValues) : (d.eqReport n e).gating = d.gating := by
  unfold eqReport
  dsimp only
  split <;> split <;> simp (disch := decide) [gating_tapsReport]

theorem lget_eqReport_ctle (e : EqValues) : (d.eqReport n e).lget F.MLANE_RX_EQ_STS_CTLE n =
    if d.lget F.MLANE_RX_EQ_CTL_EQ_MODE n = 1 ∨ d.lget F.MLANE_RX_EQ_CTL_EQ_MODE n = 2 then d.lget F.MLANE_RX_EQ_STS_CTLE n
    else e.ctle.toNat := by
  have hreport (d' : Dev) : (d'.tapsReport n e).lget F.MLANE_RX_EQ_STS_CTLE n = d'.lget F.MLANE_RX_EQ_STS_CTLE n :=
    d'.lget_congr rfl (d'.word_tapsReport e fun p hp h => absurd hp (by
      rw [show p = 0x58 from (Nat.add_left_cancel h).symm]
      decide))
  have hctle : e.ctle.toNat % 2 ^ 6 = e.ctle.toNat := Nat.mod_eq_of_lt e.ctle.isLt
  unfold eqReport ctleFrozen
  simp only [Bool.or_eq_true, decide_eq_true_eq]
  split <;> split <;> simp (disch := decide) only [hreport, lget_lput_self] <;> exact hctle

theorem gating_acquired : (d.acquired n).gating = d.gating := by
  simp (disch := decide) [acquired]

theorem gating_adaptEnd (eq : Option EqValues) : (d.adaptEnd n eq).gating = d.gating := by
  cases eq with
  | none => rw [adaptEnd_none, gating_laneBack, gating_acquired]
  | some e => rw [adaptEnd_some, gating_laneBack, gating_acquired, gating_eqReport]

end
end Dev
end Sys2Proof.Machine
end

section
/-! PROOF. What the hand has applied to a lane, and its transmitter (R88, R89, R92, R100): an update of the live words of a lane's page
leaves the first, and the transmitter drives exactly where it may and need not wait for its PLL. -/
namespace Sys2Proof.Machine
namespace Dev
section
variable (d : Dev) {f g : Fld} {n : Nat}

/-! The active copies. -/

theorem lact_eq (hf : f.page = 0 ∧ 0x400 ≤ f.off) (n : Nat) :
    d.lact f n = d.bitsAt (pgAddr (lanePage n) + (f.off - 0x400)) f.lo f.w := by
  rw [lact, act, laneFld_addr hf.1, Nat.add_sub_assoc hf.2]
  rfl

theorem lact_congr {e : Dev} (hf : f.page = 0 ∧ 0x400 ≤ f.off)
    (h : e.word (pgAddr (lanePage n) + (f.off - 0x400)) = d.word (pgAddr (lanePage n) + (f.off - 0x400))) :
    e.lact f n = d.lact f n := by
  rw [lact_eq _ hf, lact_eq _ hf, bitsAt, h, bitsAt]

@[simp] theorem lact_lput (x : Nat) (h : f.page = 0 ∧ f.off < 0x400 ∧ g.page = 0 ∧ 0x800 ≤ g.off) :
    (d.lput f x n).lact g n = d.lact g n := by
  obtain ⟨hf, hlive, hg, hhand⟩ := h
  exact d.lact_congr ⟨hg, by omega⟩ (d.word_lput_off x ⟨hf, by omega⟩)

@[simp] theorem lact_updLane (m : Nat) (u : LaneSt → LaneSt) : (d.updLane m u).lact f n = d.lact f n := rfl

/-! The generator and the transmitter. -/

/-- The generator's output changes by an announcement, of which the lane keeps note. -/
theorem genShow_eq (n : Nat) : ∃ o g, d.genShow n = ({ d with out := o } : Dev).updLane n (fun l => { l with genOn := g }) ∨
    d.genShow n = d := by
  unfold genShow
  split
  · exact ⟨[], none, .inr rfl⟩
  · exact ⟨_, _, .inl rfl⟩

theorem lane_genShow (n : Nat) : ∃ g, (d.genShow n).lane n = { d.lane n with genOn := g } := by
  obtain ⟨o, g, h | h⟩ := d.genShow_eq n
  · exact ⟨g, by rw [h, lane_updLane_self]; rfl⟩
  · exact ⟨(d.lane n).genOn, by rw [h]⟩

@[simp] theorem word_genShow (n a : Nat) : (d.genShow n).word a = d.word a := by
  obtain ⟨o, g, h | h⟩ := d.genShow_eq n
  · rw [h, word_updLane]
    rfl
  · rw [h]

theorem lget_genShow (hf : f.page = 0) : (d.genShow n).lget f n = d.lget f n := d.lget_congr hf (d.word_genShow n _)

theorem txAllowed_congr {e : Dev} (hg : e.gating = d.gating) (hen : e.lact F.MLANE_TX_CFG_TX_EN n = d.lact F.MLANE_TX_CFG_TX_EN n)
    (hstate : e.lget F.MLANE_LANE_STS_TX_LSTATE n = d.lget F.MLANE_LANE_STS_TX_LSTATE n)
    (htarget : (e.lane n).txTarget = (d.lane n).txTarget) : e.txAllowed n = d.txAllowed n := by
  have hfenced : e.laneFenced n = d.laneFenced n := by rw [laneFenced, laneFenced, fenced, fenced, recs_of_gating hg]
  rw [txAllowed, txAllowed, hen, en_of_steady (steady_of_gating hg), hfenced, hstate, htarget]

theorem lane_txStop (n : Nat) :
    ∃ g, (d.txStop n).lane n = { d.lane n with txIdle := true, training := false, genOn := g } := by
  obtain ⟨g, hg⟩ := (d.updLane n fun l => { l with txIdle := true, training := false }).lane_genShow n
  exact ⟨g, by rw [txStop, hg, lane_updLane_self]⟩

theorem word_txStop (n a : Nat) : (d.txStop n).word a = d.word a := by rw [txStop, word_genShow, word_updLane]

theorem pageAddr_mlane {n : Nat} (hn : n < 96) : pageAddr .mlane n 0 = pgAddr (lanePage n) := by
  rw [lanePage, laneBlk, laneIdx, if_pos hn, if_pos hn]
  rfl

theorem pageAddr_nlane (i : Nat) : pageAddr .nlane i 0 = pgAddr (lanePage (96 + i)) := by
  have h : ¬ 96 + i < 96 := by omega
  simp only [lanePage, laneBlk, laneIdx, if_neg h, pgAddr, Nat.add_sub_cancel_left]

@[simp] theorem lane_draw (m : Nat) : d.draw.2.lane m = d.lane m := rfl

/-- The start of link training, or that there is none, is all that a lane's hidden state shows of it. -/
theorem lane_laneTrain (i : Nat) : (d.laneTrain i).lane (96 + i) =
    { d.lane (96 + i) with training := d.trains i, trainFailed := false } := by
  unfold laneTrain
  dsimp only
  split
  · rw [lane_setWord, lane_draw, lane_updLane_self]
  · rw [lane_updLane_self]

theorem word_laneTrain (i : Nat) {a : Nat} (ha : a ≠ pgAddr (lanePage (96 + i)) + 0x40) :
    (d.laneTrain i).word a = d.word a := by
  unfold laneTrain
  dsimp only
  split
  · rw [pageAddr_nlane, word_setWord_ne _ _ ha]
    rfl
  · rfl

/-- The transmitter has left electrical idle; a network lane's starts its link training. -/
def txDriven (d : Dev) (n : Nat) : Dev :=
  let e := d.updLane n (fun l => { l with txIdle := false })
  if (d.lane n).txIdle && 96 ≤ n then e.laneTrain (n - 96) else e

theorem lane_txDriven (n : Nat) :
    ∃ tr tf, (d.txDriven n).lane n = { d.lane n with txIdle := false, training := tr, trainFailed := tf } := by
  unfold txDriven
  dsimp only
  split
  · next h =>
    have hn : 96 + (n - 96) = n := by
      simp only [Bool.and_eq_true, decide_eq_true_eq] at h
      omega
    have hl := (d.updLane n fun l => { l with txIdle := false }).lane_laneTrain (n - 96)
    rw [hn, lane_updLane_self] at hl
    exact ⟨_, _, hl⟩
  · exact ⟨_, _, lane_updLane_self _ _ _⟩

theorem word_txDriven {a : Nat} (ha : a ≠ pgAddr (lanePage n) + 0x40) : (d.txDriven n).word a = d.word a := by
  unfold txDriven
  dsimp only
  split
  · next h =>
    have hn : 96 + (n - 96) = n := by
      simp only [Bool.and_eq_true, decide_eq_true_eq] at h
      omega
    rw [word_laneTrain _ _ (by rwa [hn]), word_updLane]
  · rfl

theorem txDrive_eq (n : Nat) : d.txDrive n =
    if !d.txAllowed n || (d.lane n).txWait then d.txStop n
    else
      let e := (d.txDriven n).genShow n
      if e.loopNear n then e.laneBack n else e := rfl

theorem laneSide_txDrive (n : Nat) : (d.txDrive n).laneSide =
    (if !d.txAllowed n || (d.lane n).txWait then d.txStop n else (d.txDriven n).genShow n).laneSide := by
  rw [txDrive_eq]
  split
  · rfl
  · dsimp only
    split
    · exact laneSide_laneBack _ _
    · rfl

/-- R89: the transmitter is electrically idle exactly where it may not drive or waits for its PLL. -/
theorem lane_txDrive (n : Nat) : ∃ tr tf g, (d.txDrive n).lane n =
    { d.lane n with txIdle := !d.txAllowed n || (d.lane n).txWait, training := tr, trainFailed := tf, genOn := g } := by
  rw [laneSide_lane (d.laneSide_txDrive n)]
  split
  · next h =>
    obtain ⟨g, hg⟩ := d.lane_txStop n
    exact ⟨_, _, g, by rw [hg, h]⟩
  · next h =>
    obtain ⟨tr, tf, ht⟩ := d.lane_txDriven n
    obtain ⟨g, hg⟩ := (d.txDriven n).lane_genShow n
    exact ⟨tr, tf, g, by rw [hg, ht, (Bool.not_eq_true _).mp h]⟩

theorem word_txDrive {a : Nat} (hlane : inLanes a = true) (ha : a ≠ pgAddr (lanePage n) + 0x40) :
    (d.txDrive n).word a = d.word a := by
  rw [laneSide_word (d.laneSide_txDrive n) hlane]
  split
  · exact d.word_txStop n a
  · rw [word_genShow, word_txDriven _ ha]

theorem lget_txDrive (hn : n < 112) (hf : f.page = 0 ∧ f.off < 0x1000 ∧ f.off ≠ 0x40) :
    (d.txDrive n).lget f n = d.lget f n :=
  d.lget_congr hf.1 (d.word_txDrive (inLanes_lanePage hn hf.2.1) (by omega))

end
end Dev
end Sys2Proof.Machine
end

section
/-! PROOF. Loss and return of signal and lock of a lane, the lock of its transmit PLL, and the end of its acquisition (R85, R87, R89,
R94 to R98, R110). -/
namespace Sys2Proof.Machine

/-! The commands that may take a context out of LOCKED, and those that do not. -/

section
variable {i : Instr} {s : State} {f : Dev → Dev} {P : Dev → Prop} (hr : s.dev.inReset = false)
include hr

/-- What leaves the gates leaves the device out of reset. -/
theorem answers_onDev (hi : exec i s = s.onDev f) (hg : (f s.dev).gating = s.dev.gating) (hP : P (f s.dev)) : Answers i s P :=
  ⟨_, exec_of_onDev hi hr rfl ((Dev.steady_inReset (Dev.steady_of_gating hg)).trans hr), hP⟩

/-- With no hand waiting no context applies one. -/
theorem answers_onCtx (hi : exec i s = s.onCtx f) (hc : s.dev.calm) (hg : (f s.dev).gating = s.dev.gating) (hP : P (f s.dev)) :
    Answers i s P := by
  have hsteady := Dev.steady_of_gating hg
  have hsweep : (f s.dev).ctxSweep = f s.dev := by simp [Dev.ctxSweep, Dev.handReady, Dev.steady_hand hsteady, hc.1]
  refine answers_onDev hr (f := fun d => (f d).ctxSweep) hi ?_ ?_
  · rw [hsweep, hg]
  · rwa [hsweep]

end

namespace Dev
section
variable (d : Dev) {f : Fld} {n : Nat}

@[simp] theorem gating_atTime (t : Nat) : (d.atTime t).gating = d.gating := rfl

@[simp] theorem gating_lcount {f : Fld} (n k : Nat) (h : (f.off + 0 * f.str + 0 * f.str2) % 0x1000 ≠ 0x08) :
    (d.lcount f n k).gating = d.gating := d.gating_lput _ n h

/-! LOS (R96). -/

/-- LOS asserts, and LOL with it where it read 0. -/
def losNoted (d : Dev) (n : Nat) : Dev :=
  let e := ((d.lput F.MLANE_LANE_STS_LOS 1 n).lcount F.MLANE_LOS_EVENTS n 1).lirq n 0
  if d.lget F.MLANE_LANE_STS_LOL n = 1 then e
  else ((e.lput F.MLANE_LANE_STS_LOL 1 n).lcount F.MLANE_LOL_EVENTS n 1).lirq n 2

theorem losAssert_of_clear (h : d.lget F.MLANE_LANE_STS_LOS n = 0) : d.losAssert n = (d.losNoted n).laneLoss n := by
  unfold losAssert
  rw [if_neg (by omega)]
  rfl

theorem gating_losNoted (n : Nat) : (d.losNoted n).gating = d.gating := by
  unfold losNoted
  dsimp only
  split <;> simp (disch := decide)

/-! LOL (R97). -/

theorem lolAssert_of_clear (h : d.lget F.MLANE_LANE_STS_LOL n = 0) (hstate : d.lget F.MLANE_LANE_STS_RX_LSTATE n = 0) :
    d.lolAssert n = (((d.lput F.MLANE_LANE_STS_LOL 1 n).lcount F.MLANE_LOL_EVENTS n 1).lirq n 2).laneLoss n := by
  unfold lolAssert
  exact if_neg (by omega)

/-- The half has locked, and acquires. -/
def lolEnded (d : Dev) (n used : Nat) : Dev :=
  let e := ((d.lput F.MLANE_LANE_STS_LOL 0 n).lirq n 3).acquire n
  if n < 96 then e.put F.MLANE_RX_RATE_STS_RATE used n else e

theorem lolClear_of_lock {rate r : Nat} (hlol : d.lget F.MLANE_LANE_STS_LOL n = 1)
    (hstate : d.lget F.MLANE_LANE_STS_RX_LSTATE n = 0) (htarget : (d.lane n).rxTarget = none)
    (hlos : d.lget F.MLANE_LANE_STS_LOS n = 0) (hrate : d.lockRate n rate = some r) : d.lolClear n rate =
      if (d.lolEnded n r).lget F.MLANE_RX_EQ_CTL_EQ_MODE n = 1 then (d.lolEnded n r).adaptEnd n none else d.lolEnded n r := by
  unfold lolClear
  rw [if_neg (by simp [hlol, hstate, htarget, hlos, hrate])]
  simp only [hrate, Option.getD_some]
  rfl

theorem lolEnded_rate (n used : Nat) : d.lolEnded n used =
    if n < 96 then (((d.lput F.MLANE_LANE_STS_LOL 0 n).lirq n 3).acquire n).lput F.MLANE_RX_RATE_STS_RATE used n
    else ((d.lput F.MLANE_LANE_STS_LOL 0 n).lirq n 3).acquire n := by
  unfold lolEnded
  dsimp only
  split
  · next hn => exact put_eq_lput _ hn rfl used
  · rfl

theorem gating_lolEnded (n r : Nat) : (d.lolEnded n r).gating = d.gating := by
  rw [lolEnded_rate]
  split <;> simp (disch := decide)

section
variable (hn : n < 112) (r : Nat)
include hn

theorem lane_lolEnded : (d.lolEnded n r).lane n = { d.lane n with acq := true } := by
  rw [lolEnded_rate]
  split <;> simp [lane_acquire _ hn]

theorem lget_lolEnded (hf : f.unacquired = true) (hlol : F.MLANE_LANE_STS_LOL.apart f = true)
    (hrate : F.MLANE_RX_RATE_STS_RATE.apart f = true) (hirq : f.page = 0 ∧ f.off ≠ 0x10) :
    (d.lolEnded n r).lget f n = d.lget f n := by
  rw [lolEnded_rate]
  split
  · rw [lget_lput_apart _ _ hrate, lget_acquire _ hn hf, lget_lirq _ _ hirq, lget_lput_apart _ _ hlol]
  · rw [lget_acquire _ hn hf, lget_lirq _ _ hirq, lget_lput_apart _ _ hlol]

theorem lget_lolEnded_lol : (d.lolEnded n r).lget F.MLANE_LANE_STS_LOL n = 0 := by
  rw [lolEnded_rate]
  split <;> simp (disch := decide) [lget_acquire _ hn]

theorem lget_lolEnded_adaptDone : (d.lolEnded n r).lget F.MLANE_LANE_STS_ADAPT_DONE n = 0 := by
  rw [lolEnded_rate]
  split <;> simp (disch := decide) [lget_acquire_adaptDone _ hn]

theorem irqBit_lolEnded : ((d.lolEnded n r).word (pgAddr (lanePage n) + 0x10)).getLsbD 3 = true := by
  rw [lolEnded_rate]
  split <;> simp (disch := decide) [word_acquire_off _ hn]

end

end
end Dev

/-! The commands. -/

section
variable {s : State} (t : Nat) {n : Fin 112} (hr : s.dev.inReset = false) (hc : s.dev.calm)
include hr hc

theorem answers_losAssert (hlos : s.dev.lget F.MLANE_LANE_STS_LOS n = 0) :
    Answers (.losAssert t n) s (fun d => d.lget F.MLANE_LANE_STS_LOS n = 1 ∧ d.lget F.MLANE_LANE_STS_LOL n = 1 ∧
      d.lget F.MLANE_LOS_EVENTS n = min (s.dev.lget F.MLANE_LOS_EVENTS n + 1) 0xFFFFFFFF ∧
      (d.word (pgAddr (Dev.lanePage n) + 0x10)).getLsbD 0 = true ∧
      (if s.dev.lget F.MLANE_LANE_STS_LOL n = 0 then
        d.lget F.MLANE_LOL_EVENTS n = min (s.dev.lget F.MLANE_LOL_EVENTS n + 1) 0xFFFFFFFF ∧
          (d.word (pgAddr (Dev.lanePage n) + 0x10)).getLsbD 2 = true
      else d.lget F.MLANE_LOL_EVENTS n = s.dev.lget F.MLANE_LOL_EVENTS n)) := by
  have heq := (s.dev.atTime t).losAssert_of_clear hlos
  have hloss := ((s.dev.atTime t).losNoted n).bondSide_laneLoss n.isLt
  refine answers_onCtx hr (f := fun d => (d.atTime t).losAssert n) rfl hc ?_ ?_
  · rw [heq, Dev.gating_laneLoss, Dev.gating_losNoted, Dev.gating_atTime]
  · rw [heq, Dev.bondSide_lget _ hloss n.isLt (by decide), Dev.bondSide_lget _ hloss n.isLt (by decide),
      Dev.bondSide_lget _ hloss n.isLt (by decide), Dev.bondSide_lget _ hloss n.isLt (by decide),
      Dev.bondSide_irqBit _ hloss n.isLt (by decide), Dev.bondSide_irqBit _ hloss n.isLt (by decide)]
    by_cases hlol : s.dev.lget F.MLANE_LANE_STS_LOL n = 0
    · have hne : ¬ (s.dev.atTime t).lget F.MLANE_LANE_STS_LOL n = 1 := by rw [Dev.lget_atTime]; omega
      rw [Dev.losNoted, if_neg hne, if_pos hlol]
      simp (disch := decide)
    · have hone : s.dev.lget F.MLANE_LANE_STS_LOL n = 1 := s.dev.lget_bit rfl hlol
      rw [Dev.losNoted, if_pos ((Dev.lget_atTime _ _).trans hone), if_neg hlol]
      simp (disch := decide) [hone]

theorem answers_losClear (hlos : s.dev.lget F.MLANE_LANE_STS_LOS n = 1) :
    Answers (.losClear t n) s (fun d => d.lget F.MLANE_LANE_STS_LOS n = 0 ∧
      d.word (pgAddr (Dev.lanePage n) + 0x10) = s.dev.word (pgAddr (Dev.lanePage n) + 0x10) ||| 2 ∧
      (s.dev.lget F.MLANE_LANE_STS_RX_LSTATE n = 0 ∧ (s.dev.lane n).rxTarget = none →
        d.lget F.MLANE_LANE_STS_ADAPT_DONE n = 0 ∧ (d.lane n).acq = true ∧
        d.lget F.MLANE_RX_EQ_STS_CTLE n = (if (s.dev.lane n).keep then s.dev.lget F.MLANE_RX_EQ_STS_CTLE n
          else s.dev.lget F.MLANE_RX_EQ_CTL_CTLE n) ∧
        ((n : Nat) < 96 → s.dev.keeps d [pgAddr (Dev.lanePage n) + 0x10, pgAddr (Dev.lanePage n) + 0x50,
          pgAddr (Dev.lanePage n) + 0x54, pgAddr (Dev.lanePage n) + 0x60, F.MLANE_RX_EQ_STS_CTLE.addr n 0 0])) ∧
      (s.dev.lget F.MLANE_LANE_STS_RX_LSTATE n ≠ 0 ∨ (s.dev.lane n).rxTarget ≠ none →
        d.lanes = s.dev.lanes ∧ s.dev.keeps d [pgAddr (Dev.lanePage n) + 0x10, pgAddr (Dev.lanePage n) + 0x60])) := by
  let e := ((s.dev.atTime t).lput F.MLANE_LANE_STS_LOS 0 n).lirq n 1
  have heq : (s.dev.atTime t).losClear n =
      if s.dev.lget F.MLANE_LANE_STS_RX_LSTATE n = 0 ∧ (s.dev.lane n).rxTarget = none then e.acquire n else e := by
    unfold Dev.losClear
    rw [Dev.lget_atTime, if_neg (by omega)]
    simp (disch := decide) [e]
  have hword (a : Nat) (h : a ≠ pgAddr (Dev.lanePage n) + 0x10) (h' : a ≠ pgAddr (Dev.lanePage n) + 0x60) :
      e.word a = s.dev.word a := (Dev.word_lirq_ne _ 1 h).trans (Dev.word_lput_ne _ rfl _ h')
  refine answers_onCtx hr (f := fun d => (d.atTime t).losClear n) rfl hc ?_ ?_
  · rw [heq]
    split <;> simp (disch := decide) [e]
  · rw [heq]
    split
    · next hacq =>
      refine ⟨?_, ?_, fun _ => ⟨e.lget_acquire_adaptDone n.isLt, ?_, ?_, fun hn a ha => ?_⟩, fun h => ?_⟩
      · rw [Dev.lget_acquire _ n.isLt (by decide)]
        simp (disch := decide) [e]
      · rw [Dev.word_acquire_off _ n.isLt (by decide)]
        simp (disch := decide) [e]
      · rw [Dev.lane_acquire _ n.isLt]
      · rw [Dev.lget_acquire_ctle _ n.isLt]
        simp (disch := decide) [e]
      · rw [mlane_addr ⟨rfl, rfl⟩ hn, F.MLANE_RX_EQ_STS_CTLE] at ha
        simp only [List.mem_cons, List.not_mem_nil, or_false, not_or] at ha
        obtain ⟨hirq, hdfeA, hdfeB, hsts, hctle⟩ := ha
        rw [Dev.word_acquire_media _ hn (by simp [hdfeA, hdfeB, hsts, hctle])]
        exact hword a hirq hsts
      · rcases h with h | h
        · exact absurd hacq.1 h
        · exact absurd hacq.2 h
    · next hidle =>
      refine ⟨?_, ?_, fun h => absurd h hidle, fun _ => ⟨?_, fun a ha => ?_⟩⟩
      · simp (disch := decide) [e]
      · simp (disch := decide) [e]
      · exact (Dev.irq_lanes _ _ _ _ _).trans (Dev.put_lanes _ _ _ _ _ _)
      · simp only [List.mem_cons, List.not_mem_nil, or_false, not_or] at ha
        exact hword a ha.1 ha.2

theorem answers_lolAssert (hlol : s.dev.lget F.MLANE_LANE_STS_LOL n = 0) (hstate : s.dev.lget F.MLANE_LANE_STS_RX_LSTATE n = 0) :
    Answers (.lolAssert t n) s (fun d => d.lget F.MLANE_LANE_STS_LOL n = 1 ∧
      d.lget F.MLANE_LOL_EVENTS n = min (s.dev.lget F.MLANE_LOL_EVENTS n + 1) 0xFFFFFFFF ∧
      (d.word (pgAddr (Dev.lanePage n) + 0x10)).getLsbD 2 = true ∧
      d.lget F.MLANE_LOS_EVENTS n = s.dev.lget F.MLANE_LOS_EVENTS n) := by
  have heq := (s.dev.atTime t).lolAssert_of_clear hlol hstate
  have hloss := ((((s.dev.atTime t).lput F.MLANE_LANE_STS_LOL 1 n).lcount F.MLANE_LOL_EVENTS n 1).lirq n 2).bondSide_laneLoss n.isLt
  refine answers_onCtx hr (f := fun d => (d.atTime t).lolAssert n) rfl hc ?_ ?_
  · rw [heq, Dev.gating_laneLoss]
    simp (disch := decide)
  · rw [heq, Dev.bondSide_lget _ hloss n.isLt (by decide), Dev.bondSide_lget _ hloss n.isLt (by decide),
      Dev.bondSide_lget _ hloss n.isLt (by decide), Dev.bondSide_irqBit _ hloss n.isLt (by decide)]
    simp (disch := decide)

theorem answers_lolClear (rate : BitVec 25) {r : Nat} (hlol : s.dev.lget F.MLANE_LANE_STS_LOL n = 1)
    (hstate : s.dev.lget F.MLANE_LANE_STS_RX_LSTATE n = 0) (htarget : (s.dev.lane n).rxTarget = none)
    (hlos : s.dev.lget F.MLANE_LANE_STS_LOS n = 0) (hrate : s.dev.lockRate n rate.toNat = some r) :
    Answers (.lolClear t n rate) s (fun d => d.lget F.MLANE_LANE_STS_LOL n = 0 ∧
      (d.word (pgAddr (Dev.lanePage n) + 0x10)).getLsbD 3 = true ∧
      ((n : Nat) < 96 → d.get F.MLANE_RX_RATE_STS_RATE n = r % 2 ^ 25) ∧
      (s.dev.lget F.MLANE_RX_EQ_CTL_EQ_MODE n ≠ 1 → d.lget F.MLANE_LANE_STS_ADAPT_DONE n = 0 ∧ (d.lane n).acq = true)) := by
  have heq := (s.dev.atTime t).lolClear_of_lock (rate := rate.toNat) hlol hstate htarget hlos hrate
  have hmode : ((s.dev.atTime t).lolEnded n r).lget F.MLANE_RX_EQ_CTL_EQ_MODE n = s.dev.lget F.MLANE_RX_EQ_CTL_EQ_MODE n :=
    Dev.lget_lolEnded _ n.isLt r (by decide) (by decide) (by decide) (by decide)
  rw [hmode] at heq
  have hrateEnd (hn : (n : Nat) < 96) : ((s.dev.atTime t).lolEnded n r).lget F.MLANE_RX_RATE_STS_RATE n = r % 2 ^ 25 := by
    rw [Dev.lolEnded_rate, if_pos hn, Dev.lget_lput_self _ _ (by decide)]
    rfl
  refine answers_onCtx hr (f := fun d => (d.atTime t).lolClear n rate.toNat) rfl hc ?_ ?_
  · rw [heq]
    split
    · rw [Dev.gating_adaptEnd, Dev.gating_lolEnded, Dev.gating_atTime]
    · rw [Dev.gating_lolEnded, Dev.gating_atTime]
  · rw [heq]
    split
    · next hfrozen =>
      have hback := (((s.dev.atTime t).lolEnded n r).acquired n).laneSide_laneBack n
      rw [Dev.adaptEnd_none]
      refine ⟨?_, ?_, fun hn => ?_, fun h => absurd hfrozen h⟩
      · rw [Dev.lget_of_laneSide n.isLt hback (by decide), Dev.acquired]
        simp (disch := decide) [Dev.lget_lolEnded_lol _ n.isLt]
      · rw [Dev.word_of_laneSide n.isLt hback (by decide), Dev.acquired, Dev.word_lirq_self, BitVec.getLsbD_or,
          Dev.word_updLane, Dev.word_lput_off _ _ (by decide), Dev.irqBit_lolEnded _ n.isLt, Bool.true_or]
      · rw [Dev.get_eq_lget _ hn rfl, Dev.lget_of_laneSide n.isLt hback (by decide), Dev.acquired]
        simp (disch := decide) [hrateEnd hn]
    · refine ⟨Dev.lget_lolEnded_lol _ n.isLt r, Dev.irqBit_lolEnded _ n.isLt r, fun hn => ?_, fun _ => ⟨?_, ?_⟩⟩
      · rw [Dev.get_eq_lget _ hn rfl, hrateEnd hn]
      · exact Dev.lget_lolEnded_adaptDone _ n.isLt r
      · rw [Dev.lane_lolEnded _ n.isLt]

end

namespace Dev
section
variable (d : Dev) {n : Nat} {rate r : Nat} (hn : n < 96)
include hn

/-- A forwarded clock is reported as it is (R87). -/
theorem lockRate_fwdClk (hclk : d.act F.MLANE_RX_CFG_FWD_CLK n = 1) (h : d.lockRate n rate = some r) : r = rate := by
  rw [lockRate, if_pos (by simp [fwdClk, hn, hclk])] at h
  exact (Option.some.inj h).symm

/-- With RATE_SRC 0 the rate in use is the applied RX_RATE (R85). -/
theorem lockRate_rxRate (hclk : d.act F.MLANE_RX_CFG_FWD_CLK n = 0) (hsrc : d.act F.MLANE_RX_CFG_RATE_SRC n = 0)
    (h : d.lockRate n rate = some r) :
    r = d.act F.MLANE_RX_RATE_RATE_KBPS n * 1000 / (1000 + d.act F.MLANE_RX_RATE_DIV1001 n) := by
  have hmedia : ¬ (96 ≤ n || d.fwdClk n) = true := by simp [fwdClk, hclk, hn]
  rw [lockRate, if_neg hmedia, if_pos (by simp [hsrc]), rxRateUsed, if_neg (by simp [hsrc])] at h
  exact (Option.some.inj h).symm

end
end Dev

section
variable {s : State} (t : Nat) {n : Fin 112} (hr : s.dev.inReset = false)
include hr

theorem answers_txPllLock (hwait : (s.dev.lane n).txWait = true) :
    Answers (.txPllLock t n) s (fun d => d.lget F.MLANE_LANE_STS_PLL_LOCK n = 1 ∧ (d.lane n).txWait = false ∧
      (d.lane n).txIdle = !s.dev.txAllowed n) := by
  let e := ((s.dev.atTime t).lput F.MLANE_LANE_STS_PLL_LOCK 1 n).updLane n (fun l => { l with txWait := false })
  have heq : (s.dev.atTime t).txPllLock n = e.txDrive n := if_pos hwait
  have hlane : e.lane n = { s.dev.lane n with txWait := false } := by simp [e]
  have hgating : e.gating = s.dev.gating := by simp (disch := decide) [e]
  have hallowed : e.txAllowed n = s.dev.txAllowed n := by
    refine s.dev.txAllowed_congr hgating ?_ ?_ (by rw [hlane])
    · simp (disch := decide) [e]
      rfl
    · simp (disch := decide) [e]
  have hports := (e.txDrive n).laneSide_portsRefresh
  refine answers_onDev hr (f := fun d => ((d.atTime t).txPllLock n).portsRefresh) rfl ?_ ?_
  · rw [heq, Dev.gating_portsRefresh, Dev.gating_txDrive, hgating]
  · obtain ⟨tr, tf, g, hdrive⟩ := e.lane_txDrive n
    rw [heq, Dev.lget_of_laneSide n.isLt hports (by decide), Dev.laneSide_lane hports, hdrive, hallowed, hlane]
    refine ⟨?_, rfl, Bool.or_false _⟩
    rw [e.lget_txDrive n.isLt (by decide)]
    simp (disch := decide) [e]

theorem answers_adaptDone (eq : EqValues) (hacq : (s.dev.lane n).acq = true) (hlol : s.dev.lget F.MLANE_LANE_STS_LOL n = 0) :
    Answers (.adaptDone t n eq) s (fun d => d.lget F.MLANE_LANE_STS_ADAPT_DONE n = 1 ∧ (d.lane n).acq = false ∧
      (d.lane n).keep = false ∧ (d.word (pgAddr (Dev.lanePage n) + 0x10)).getLsbD 4 = true ∧
      d.lget F.MLANE_RX_EQ_STS_CTLE n =
        if s.dev.lget F.MLANE_RX_EQ_CTL_EQ_MODE n = 1 ∨ s.dev.lget F.MLANE_RX_EQ_CTL_EQ_MODE n = 2 then
          s.dev.lget F.MLANE_RX_EQ_STS_CTLE n else eq.ctle.toNat) := by
  have heq : (s.dev.atTime t).adaptDone n eq = ((((s.dev.atTime t).eqReport n eq).acquired n).laneBack n) :=
    (if_pos ⟨hacq, hlol⟩).trans (Dev.adaptEnd_some _ _ _)
  have hback := (((s.dev.atTime t).eqReport n eq).acquired n).laneSide_laneBack n
  refine answers_onDev hr (f := fun d => (d.atTime t).adaptDone n eq) rfl ?_ ?_
  · rw [heq, Dev.gating_laneBack, Dev.gating_acquired, Dev.gating_eqReport, Dev.gating_atTime]
  · rw [heq, Dev.lget_of_laneSide n.isLt hback (by decide), Dev.lget_of_laneSide n.isLt hback (by decide),
      Dev.laneSide_lane hback, Dev.word_of_laneSide n.isLt hback (by decide), Dev.acquired]
    refine ⟨?_, ?_, ?_, ?_, ?_⟩
    · simp (disch := decide)
    · simp
    · simp
    · simp
    · rw [Dev.lget_lirq _ _ (by decide), Dev.lget_updLane, Dev.lget_lput_apart _ _ (by decide)]
      exact (s.dev.atTime t).lget_eqReport_ctle eq

end
end Sys2Proof.Machine

open Sys2Proof Sys2Proof.Machine

/-- Settles O19, command by command. -/
theorem laneSignalEvents : Obligations.LaneSignalEvents := by
  unfold Obligations.LaneSignalEvents
  intro s t n rate eq hr hc
  dsimp only
  rw [lanePageOf_eq]
  refine ⟨answers_losAssert t hr hc, answers_losClear t hr hc, answers_lolAssert t hr hc,
    fun r hlol hstate htarget hlos hrate => ?_, answers_txPllLock t hr, answers_adaptDone t hr eq⟩
  obtain ⟨d, hd, hlolEnd, hirq, hused, hmode⟩ := answers_lolClear t hr hc rate hlol hstate htarget hlos hrate
  exact ⟨d, hd, hlolEnd, hirq, hused, fun hn hclk => s.dev.lockRate_fwdClk hn hclk hrate,
    fun hn hclk hsrc => s.dev.lockRate_rxRate hn hclk hsrc hrate, hmode⟩
end

section
/-! PROOF. The modes of a lane's halves (R87, R95, R100, R102) rest on what the hand has applied, on the gates of the unit, and, for the
passing of data, on a few words and hidden values: what leaves these leaves the modes. -/
namespace Sys2Proof.Machine
namespace Dev

/-- The gates of every unit, and the words that no host and no unit writes: the active copies, from page offset 0x400 on. -/
def modeSide (d : Dev) : (HandSt × List (Nat × PowUnit) × Bool × List (Nat × List FenceRec) × (Nat → Word)) × (Nat → Word) :=
  (d.gating, fun a => if 0x400 ≤ a % 0x1000 then d.word a else 0)

section
variable {d e : Dev}

theorem modeSide_of (hg : e.gating = d.gating) (hw : ∀ a, 0x400 ≤ a % 0x1000 → e.word a = d.word a) : e.modeSide = d.modeSide := by
  have hact : (fun a => if 0x400 ≤ a % 0x1000 then e.word a else 0) = fun a => if 0x400 ≤ a % 0x1000 then d.word a else 0 := by
    funext a
    split
    · next ha => exact hw a ha
    · rfl
  rw [modeSide, modeSide, hg, hact]

section
variable (h : e.modeSide = d.modeSide)
include h

theorem gating_of_modeSide : e.gating = d.gating := congrArg (·.1) h

theorem act_of_modeSide (f : Fld) (i : Nat) (hf : 0x800 ≤ f.off ∧ f.off < 0x1000) : e.act f i = d.act f i := by
  have hmod := addr_mod f i 0 0
  rw [Nat.zero_mul, Nat.zero_mul, Nat.add_zero] at hmod
  have hact : 0x400 ≤ (f.addr i 0 0 - 0x400) % 0x1000 := by omega
  have hword := congrFun (congrArg (·.2) h) (f.addr i 0 0 - 0x400)
  simp only [modeSide, if_pos hact] at hword
  rw [act, act, bitsAt, bitsAt, hword]

theorem lact_of_modeSide (f : Fld) (n : Nat) (hf : 0x800 ≤ f.off ∧ f.off < 0x1000) : e.lact f n = d.lact f n :=
  act_of_modeSide h (laneFld f n) _ hf

theorem netCodeOk_of_modeSide (n : Nat) : e.netCodeOk n = d.netCodeOk n := by
  rw [netCodeOk, netCodeOk, netCode, netCode, act_of_modeSide h _ _ (by decide), act_of_modeSide h _ _ (by decide)]

theorem rxTest_of_modeSide (n : Nat) : e.rxTest n = d.rxTest n := by
  rw [rxTest, rxTest, lact_of_modeSide h _ _ (by decide), netCodeOk_of_modeSide h]

theorem txTest_of_modeSide (n : Nat) : e.txTest n = d.txTest n := by
  rw [txTest, txTest, lact_of_modeSide h _ _ (by decide), netCodeOk_of_modeSide h]

theorem fwdClk_of_modeSide (n : Nat) : e.fwdClk n = d.fwdClk n := by
  rw [fwdClk, fwdClk, act_of_modeSide h _ _ (by decide)]

/-- A half passes data as long as its state, its detectors and its acquisition stand as they are. -/
theorem rxData_of_modeSide (n : Nat) (hstate : e.lget F.MLANE_LANE_STS_RX_LSTATE n = d.lget F.MLANE_LANE_STS_RX_LSTATE n)
    (hlos : e.lget F.MLANE_LANE_STS_LOS n = d.lget F.MLANE_LANE_STS_LOS n)
    (hlol : e.lget F.MLANE_LANE_STS_LOL n = d.lget F.MLANE_LANE_STS_LOL n) (hlane : e.lane n = d.lane n) :
    e.rxData n = d.rxData n := by
  have hg := gating_of_modeSide h
  have hfenced : e.laneFenced n = d.laneFenced n := by rw [laneFenced, laneFenced, fenced, fenced, recs_of_gating hg]
  rw [rxData, rxData, loopNear, loopNear, lact_of_modeSide h _ _ (by decide), lact_of_modeSide h _ _ (by decide),
    en_of_steady (steady_of_gating hg), hfenced, hstate, hlos, hlol, hlane]

end
end

section
variable (d : Dev)

@[simp] theorem modeSide_updLane (n : Nat) (u : LaneSt → LaneSt) : (d.updLane n u).modeSide = d.modeSide := rfl

@[simp] theorem modeSide_setWord (r : PageRef) {o : Nat} (v : Word) (h : o < 0x400 ∧ o ≠ 0x08) :
    (d.setWord (pgAddr r + o) v).modeSide = d.modeSide := by
  have hmod := header_mod r o
  exact modeSide_of (d.gating_setWord_header r v (by omega)) fun a ha => d.word_setWord_ne v (by omega)

@[simp] theorem modeSide_lput {f : Fld} (x n : Nat) (h : f.page = 0 ∧ f.off < 0x400 ∧ f.off ≠ 0x08) :
    (d.lput f x n).modeSide = d.modeSide := by
  rw [lput_eq _ h.1]
  exact d.modeSide_setWord (lanePage n) _ h.2

end
end Dev
end Sys2Proof.Machine
end

section
/-! PROOF. The PRBS checker (R99, R100): its counters, one bit of it before sync and in sync, and the run of bits that brings sync. -/
namespace Sys2Proof.Machine

/-- The last errors of the checker lose sync at the bit at place `p` when the 32nd of them lies within 1,024 bits. -/
theorem errors_lose_sync_iff (errs : List Nat) (p : Nat) :
    (((p :: errs).take 32).length = 32 ∧ p - ((p :: errs).take 32).getD 31 0 < 1024) ↔
      31 ≤ errs.length ∧ p - errs.getD 30 0 < 1024 := by
  have hlen : ((p :: errs).take 32).length = 32 ↔ 31 ≤ errs.length := by
    rw [List.length_take, List.length_cons]
    omega
  have hlast : ((p :: errs).take 32).getD 31 0 = errs.getD 30 0 := by simp [List.getD]
  rw [hlen, hlast]

theorem length_prbsPush {hist : List Bool} (h : hist.length = 31) (b : Bool) : (prbsPush hist b).length = 31 := by
  simp [prbsPush, h]

/-- No pattern needs more than 31 bits. -/
theorem prbsPowers_head_le (pat : Nat) : (prbsPowers pat).headD 0 ≤ 31 := by
  unfold prbsPowers
  split <;> decide

namespace Dev

/-- No injection stands before the checker (R101). -/
def uninjected (d : Dev) (n : Nat) : Prop := (d.lane n).injRx = false ∨ (d.lane n).inj = 0

/-- The checker acts on what a half receives (R87, R100). -/
def checking (d : Dev) (n : Nat) : Prop :=
  d.rxData n = true ∧ d.fwdClk n = false ∧ d.rxTest n = true ∧ d.chkPat n ≠ 0 ∧ d.uninjected n

theorem uninjected_of_checking {d : Dev} {n : Nat} (h : d.checking n) : d.uninjected n := by
  obtain ⟨-, -, -, -, hinj⟩ := h
  exact hinj

section
variable (d : Dev) {n : Nat}

/-! The count of compared bits. -/

def bitsCounted (d : Dev) (n : Nat) : Nat := d.get64 (laneFld F.MLANE_PRBS_BITS_LO n) (laneIdx n)
def putBits (d : Dev) (n x : Nat) : Dev := d.put64 (laneFld F.MLANE_PRBS_BITS_LO n) x (laneIdx n)

theorem bitsFld_addr (n : Nat) : (laneFld F.MLANE_PRBS_BITS_LO n).addr (laneIdx n) 0 0 = pgAddr (lanePage n) + 0x78 :=
  laneFld_addr rfl n

theorem bitsCounted_eq (n : Nat) : d.bitsCounted n =
    (d.word (pgAddr (lanePage n) + 0x78)).toNat + 2 ^ 32 * (d.word (pgAddr (lanePage n) + 0x7C)).toNat := by
  rw [bitsCounted, get64, bitsFld_addr, Nat.add_assoc]

@[simp] theorem bitsCounted_putBits (x : Nat) : (d.putBits n x).bitsCounted n = x % 2 ^ 64 := d.get64_put64_self _ _ _ _

theorem word_putBits_ne (x : Nat) {a : Nat} (h : a ≠ pgAddr (lanePage n) + 0x78) (h' : a ≠ pgAddr (lanePage n) + 0x7C) :
    (d.putBits n x).word a = d.word a := by
  refine d.word_put64_ne _ _ _ _ ?_ ?_ <;> rw [bitsFld_addr] <;> omega

@[simp] theorem word_putBits_off (x : Nat) {o : Nat} (h : o ≠ 0x78 ∧ o ≠ 0x7C) :
    (d.putBits n x).word (pgAddr (lanePage n) + o) = d.word (pgAddr (lanePage n) + o) :=
  d.word_putBits_ne x (by omega) (by omega)

@[simp] theorem lget_putBits {f : Fld} (x : Nat) (h : f.page = 0 ∧ f.off ≠ 0x78 ∧ f.off ≠ 0x7C) :
    (d.putBits n x).lget f n = d.lget f n := d.lget_congr h.1 (d.word_putBits_off x h.2)

theorem putBits_eq (n x : Nat) : d.putBits n x = (d.setWord (pgAddr (lanePage n) + 0x78) (BitVec.ofNat 32 x)).setWord
    (pgAddr (lanePage n) + 0x7C) (BitVec.ofNat 32 (x / 2 ^ 32)) := by
  rw [putBits, put64, bitsFld_addr]

@[simp] theorem lane_putBits (n x m : Nat) : (d.putBits n x).lane m = d.lane m := by
  rw [putBits_eq, lane_setWord, lane_setWord]

@[simp] theorem modeSide_putBits (n x : Nat) : (d.putBits n x).modeSide = d.modeSide := by
  rw [putBits_eq, modeSide_setWord _ _ _ (by decide), modeSide_setWord _ _ _ (by decide)]

@[simp] theorem gating_putBits (n x : Nat) : (d.putBits n x).gating = d.gating := gating_of_modeSide (d.modeSide_putBits n x)

@[simp] theorem bitsCounted_updLane (m : Nat) (u : LaneSt → LaneSt) : (d.updLane m u).bitsCounted n = d.bitsCounted n := rfl

@[simp] theorem bitsCounted_lput {f : Fld} (x : Nat) (h : f.page = 0 ∧ f.off ≠ 0x78 ∧ f.off ≠ 0x7C) :
    (d.lput f x n).bitsCounted n = d.bitsCounted n := by
  rw [bitsCounted_eq, bitsCounted_eq, word_lput_off _ _ ⟨h.1, h.2.1.symm⟩, word_lput_off _ _ ⟨h.1, h.2.2.symm⟩]

@[simp] theorem bitsCounted_lcount {f : Fld} (k : Nat) (h : f.page = 0 ∧ f.off ≠ 0x78 ∧ f.off ≠ 0x7C) :
    (d.lcount f n k).bitsCounted n = d.bitsCounted n := d.bitsCounted_lput _ h

@[simp] theorem bitsCounted_lirq (b : Nat) : (d.lirq n b).bitsCounted n = d.bitsCounted n := by
  rw [bitsCounted_eq, bitsCounted_eq, word_lirq_off _ _ (by decide), word_lirq_off _ _ (by decide)]

/-! One bit in sync. -/

/-- A compared bit is counted. -/
def chkCounted (d : Dev) (n : Nat) : Dev :=
  (d.putBits n (min (d.bitsCounted n + 1) (2 ^ 64 - 1))).updLane n (fun l => { l with chk := { l.chk with pos := l.chk.pos + 1 } })

/-- Sync is lost. -/
def syncLost (d : Dev) (n : Nat) : Dev :=
  ((d.lput F.MLANE_LANE_STS_PRBS_SYNC 0 n).updLane n (fun l => { l with chk := {} })).lirq n 5

/-- The places of the last errors are kept. -/
def errorsNoted (d : Dev) (n : Nat) (errs : List Nat) : Dev := d.updLane n (fun l => { l with chk := { l.chk with errs := errs } })

/-- An error at place `p` is counted, and loses sync or is kept with the last ones. -/
def chkErred (d : Dev) (n p : Nat) (errs : List Nat) : Dev :=
  if errs.length = 32 && p - errs.getD 31 0 < 1024 then (d.lcount F.MLANE_PRBS_ERR n 1).syncLost n
  else (d.lcount F.MLANE_PRBS_ERR n 1).errorsNoted n errs

/-- The error at the checker's place loses sync. -/
def losesSync (d : Dev) (n : Nat) : Prop :=
  31 ≤ (d.lane n).chk.errs.length ∧ (d.lane n).chk.pos - (d.lane n).chk.errs.getD 30 0 < 1024

theorem chkSynced_match (n : Nat) : d.chkSynced n false = d.chkCounted n := rfl

theorem chkSynced_error (n : Nat) : d.chkSynced n true = (d.chkCounted n).chkErred n ((d.chkCounted n).lane n).chk.pos
    ((((d.chkCounted n).lane n).chk.pos :: ((d.chkCounted n).lane n).chk.errs).take 32) := rfl

theorem chkSynced_lost (h : (d.chkCounted n).losesSync n) :
    d.chkSynced n true = ((d.chkCounted n).lcount F.MLANE_PRBS_ERR n 1).syncLost n := by
  have hlost := (errors_lose_sync_iff _ _).2 h
  rw [chkSynced_error]
  exact if_pos (by rw [Bool.and_eq_true, decide_eq_true_eq, decide_eq_true_eq]; exact hlost)

theorem chkSynced_kept (h : ¬ (d.chkCounted n).losesSync n) :
    ∃ errs, d.chkSynced n true = ((d.chkCounted n).lcount F.MLANE_PRBS_ERR n 1).errorsNoted n errs := by
  have hlost := mt (errors_lose_sync_iff _ _).1 h
  rw [chkSynced_error]
  exact ⟨_, if_neg (by rw [Bool.and_eq_true, decide_eq_true_eq, decide_eq_true_eq]; exact hlost)⟩

/-! One bit. -/

theorem injNext_of_uninjected (h : d.uninjected n) : d.injNext n true (d.lane n) = (false, d.lane n) := by
  unfold injNext
  exact if_pos (by rcases h with h | h <;> simp [h])

/-- The checker predicts bit `p` of the pattern and has taken in bit `b` (R100). -/
def chkTook (d : Dev) (n : Nat) (b : Bool) : Dev :=
  (d.setLane n (d.lane n)).updLane n (fun l => { l with chk := { l.chk with hist := prbsPush l.chk.hist b } })

def predicted (d : Dev) (n : Nat) : Bool := prbsNext (d.chkPat n) (d.lane n).chk.hist

theorem chkBit_of_sync (b : Bool) (hinj : d.uninjected n) (hsync : d.lget F.MLANE_LANE_STS_PRBS_SYNC n = 1) :
    d.chkBit n b = (d.chkTook n (d.predicted n)).chkSynced n (decide (xor b (d.chkInv n) ≠ d.predicted n)) := by
  unfold chkBit
  rw [d.injNext_of_uninjected hinj]
  dsimp only
  refine (if_pos hsync).trans ?_
  rw [lane_setLane_self, Bool.xor_false]
  rfl

theorem lane_chkTook (b : Bool) : (d.chkTook n b).lane n =
    { d.lane n with chk := { (d.lane n).chk with hist := prbsPush (d.lane n).chk.hist b } } := by
  rw [chkTook, lane_updLane_self, lane_setLane_self]

theorem gating_chkTook (n : Nat) (b : Bool) : (d.chkTook n b).gating = d.gating := rfl

theorem chkCounted_losesSync_iff (n : Nat) : (d.chkCounted n).losesSync n ↔
    31 ≤ (d.lane n).chk.errs.length ∧ (d.lane n).chk.pos + 1 - (d.lane n).chk.errs.getD 30 0 < 1024 := by
  rw [losesSync, chkCounted, lane_updLane_self, lane_putBits]

theorem bitsCounted_chkCounted (n : Nat) : (d.chkCounted n).bitsCounted n = min (d.bitsCounted n + 1) (2 ^ 64 - 1) := by
  rw [chkCounted, bitsCounted_updLane, bitsCounted_putBits]
  omega

/-- What one bit in sync, which is an error or not, does to the words of the lane (R100). -/
def bitEffect (d e : Dev) (n : Nat) (err lost : Prop) : Prop :=
  e.bitsCounted n = min (d.bitsCounted n + 1) (2 ^ 64 - 1) ∧
  (err → e.lget F.MLANE_PRBS_ERR n = min (d.lget F.MLANE_PRBS_ERR n + 1) 0xFFFFFFFF) ∧
  (¬ err → e.lget F.MLANE_PRBS_ERR n = d.lget F.MLANE_PRBS_ERR n) ∧
  (lost → e.lget F.MLANE_LANE_STS_PRBS_SYNC n = 0 ∧
    e.word (pgAddr (lanePage n) + 0x10) = d.word (pgAddr (lanePage n) + 0x10) ||| 0x20) ∧
  (¬ lost → e.lget F.MLANE_LANE_STS_PRBS_SYNC n = 1 ∧ e.word (pgAddr (lanePage n) + 0x10) = d.word (pgAddr (lanePage n) + 0x10)) ∧
  d.keeps e [pgAddr (lanePage n) + 0x10, pgAddr (lanePage n) + 0x60, pgAddr (lanePage n) + 0x74, pgAddr (lanePage n) + 0x78,
    pgAddr (lanePage n) + 0x7C]

theorem bitEffect_chkSynced (err : Bool) (hsync : d.lget F.MLANE_LANE_STS_PRBS_SYNC n = 1) :
    d.bitEffect (d.chkSynced n err) n (err = true) (err = true ∧ 31 ≤ (d.lane n).chk.errs.length ∧
      (d.lane n).chk.pos + 1 - (d.lane n).chk.errs.getD 30 0 < 1024) := by
  have hbits := d.bitsCounted_chkCounted n
  have hword (a : Nat) (h : a ≠ pgAddr (lanePage n) + 0x78) (h' : a ≠ pgAddr (lanePage n) + 0x7C) :
      (d.chkCounted n).word a = d.word a := (word_updLane _ _ _ _).trans (d.word_putBits_ne _ h h')
  have hirq : (d.chkCounted n).word (pgAddr (lanePage n) + 0x10) = d.word (pgAddr (lanePage n) + 0x10) :=
    hword _ (by omega) (by omega)
  have hget {f : Fld} (h : f.page = 0 ∧ f.off ≠ 0x78 ∧ f.off ≠ 0x7C) : (d.chkCounted n).lget f n = d.lget f n :=
    d.lget_congr h.1 (hword _ (by omega) (by omega))
  rw [← chkCounted_losesSync_iff]
  unfold bitEffect keeps
  simp only [List.mem_cons, List.not_mem_nil, or_false, not_or]
  cases err with
  | false =>
    rw [chkSynced_match]
    exact ⟨hbits, fun h => absurd h (by decide), fun _ => hget (by decide), fun h => absurd h.1 (by decide),
      fun _ => ⟨(hget (by decide)).trans hsync, hirq⟩, fun a ⟨_, _, _, h, h'⟩ => hword a h h'⟩
  | true =>
    by_cases hlost : (d.chkCounted n).losesSync n
    · rw [chkSynced_lost _ hlost, syncLost]
      refine ⟨?_, fun _ => ?_, fun h => absurd rfl h, fun _ => ⟨?_, ?_⟩, fun h => absurd ⟨rfl, hlost⟩ h, fun a ⟨hI, hS, hE, h, h'⟩ => ?_⟩
      · simp (disch := decide) [hbits]
      · simp (disch := decide) [hget]
      · simp (disch := decide)
      · simp (disch := decide) [hirq]
      · rw [word_lirq_ne _ _ hI, word_updLane, word_lput_ne _ rfl _ hS, word_lcount_ne _ rfl _ hE]
        exact hword a h h'
    · obtain ⟨errs, hkept⟩ := d.chkSynced_kept hlost
      rw [hkept, errorsNoted]
      refine ⟨?_, fun _ => ?_, fun h => absurd rfl h, fun h => absurd h.2 hlost, fun _ => ⟨?_, ?_⟩, fun a ⟨hI, hS, hE, h, h'⟩ => ?_⟩
      · simp (disch := decide) [hbits]
      · simp (disch := decide) [hget]
      · simp (disch := decide) [hget, hsync]
      · simp (disch := decide) [hirq]
      · rw [word_updLane, word_lcount_ne _ rfl _ hE]
        exact hword a h h'

theorem gating_chkSynced (n : Nat) (err : Bool) : (d.chkSynced n err).gating = d.gating := by
  have hcounted : (d.chkCounted n).gating = d.gating := by rw [chkCounted, gating_updLane, gating_putBits]
  have herred (e : Dev) (p : Nat) (errs : List Nat) : (e.chkErred n p errs).gating = e.gating := by
    unfold chkErred syncLost errorsNoted
    split <;> simp (disch := decide)
  cases err with
  | false => rw [chkSynced_match, hcounted]
  | true => rw [chkSynced_error, herred, hcounted]

/-! Bits before sync that go on in the pattern. -/

/-- Sync is found. -/
def syncFound (d : Dev) (n : Nat) : Dev := (d.lput F.MLANE_LANE_STS_PRBS_SYNC 1 n).updLane n (fun l =>
  { l with chk := { l.chk with run := 0, pos := 0, errs := [] } })

/-- Out of sync the checker has taken in bit `b`, and `run` bits in a row have matched. -/
def chkSought (d : Dev) (n : Nat) (b : Bool) (run : Nat) : Dev :=
  (d.setLane n (d.lane n)).updLane n (fun l => { l with chk := { l.chk with hist := prbsPush l.chk.hist b, run := run } })

/-- With 64 matches in a row sync is found. -/
def chkSearched (d : Dev) (n : Nat) (b : Bool) (run : Nat) : Dev :=
  if run ≥ 64 then (d.chkSought n b run).syncFound n else d.chkSought n b run

theorem lane_chkSought (b : Bool) (run : Nat) : (d.chkSought n b run).lane n =
    { d.lane n with chk := { (d.lane n).chk with hist := prbsPush (d.lane n).chk.hist b, run := run } } := by
  rw [chkSought, lane_updLane_self, lane_setLane_self]

@[simp] theorem word_chkSought (b : Bool) (run a : Nat) : (d.chkSought n b run).word a = d.word a := rfl

@[simp] theorem lget_chkSought {f : Fld} (b : Bool) (run : Nat) : (d.chkSought n b run).lget f n = d.lget f n := rfl

@[simp] theorem gating_chkSought (b : Bool) (run : Nat) : (d.chkSought n b run).gating = d.gating := rfl

theorem chkBit_of_search (b : Bool) (hinj : d.uninjected n) (hsync : d.lget F.MLANE_LANE_STS_PRBS_SYNC n = 0) :
    d.chkBit n b = d.chkSearched n (xor b (d.chkInv n))
      (if xor b (d.chkInv n) = d.predicted n && (prbsPowers (d.chkPat n)).headD 0 ≤ (d.lane n).chk.hist.length then
        (d.lane n).chk.run + 1 else 0) := by
  unfold chkBit
  rw [d.injNext_of_uninjected hinj]
  dsimp only
  refine (if_neg (show ¬ d.lget F.MLANE_LANE_STS_PRBS_SYNC n = 1 by omega)).trans ?_
  rw [lane_setLane_self, Bool.xor_false]
  rfl

/-- The next bit of the pattern, as it comes with the checker's inversion, is one more match. -/
theorem chkBit_goes_on (hinj : d.uninjected n) (hsync : d.lget F.MLANE_LANE_STS_PRBS_SYNC n = 0)
    (hhist : (d.lane n).chk.hist.length = 31) : d.chkBit n (xor (d.predicted n) (d.chkInv n)) =
      d.chkSearched n (d.predicted n) ((d.lane n).chk.run + 1) := by
  have hbit : xor (xor (d.predicted n) (d.chkInv n)) (d.chkInv n) = d.predicted n := by simp
  have hfull : (prbsPowers (d.chkPat n)).headD 0 ≤ (d.lane n).chk.hist.length := hhist ▸ prbsPowers_head_le _
  rw [chkBit_of_search _ _ hinj hsync, hbit, if_pos (by rw [decide_eq_true hfull, decide_eq_true rfl]; rfl)]

/-- The last matches that are missing bring sync, and write no word but LANE_STS (R100). -/
theorem chkGoodEach_syncs {k : Nat} (hinj : d.uninjected n) (hsync : d.lget F.MLANE_LANE_STS_PRBS_SYNC n = 0)
    (hhist : (d.lane n).chk.hist.length = 31) (hrun : (d.lane n).chk.run + (k + 1) = 64) :
    (d.chkGoodEach n (k + 1)).lget F.MLANE_LANE_STS_PRBS_SYNC n = 1 ∧
    d.keeps (d.chkGoodEach n (k + 1)) [pgAddr (lanePage n) + 0x60] ∧ (d.chkGoodEach n (k + 1)).gating = d.gating := by
  induction k generalizing d with
  | zero =>
    have hbit := d.chkBit_goes_on hinj hsync hhist
    rw [chkSearched, if_pos (by omega)] at hbit
    rw [chkGoodEach, chkGoodEach, ← predicted, hbit, syncFound]
    refine ⟨?_, fun a ha => ?_, ?_⟩
    · simp (disch := decide)
    · rw [word_updLane, word_lput_ne _ rfl _ fun h => ha (List.mem_singleton.2 h), word_chkSought]
    · simp (disch := decide)
  | succ k ih =>
    have hbit := d.chkBit_goes_on hinj hsync hhist
    have hlane := d.lane_chkSought (n := n) (d.predicted n) ((d.lane n).chk.run + 1)
    have hnext : (d.lane n).chk.run + 1 + (k + 1) = 64 := by omega
    rw [chkSearched, if_neg (by omega)] at hbit
    rw [chkGoodEach, ← predicted, hbit]
    obtain ⟨hsynced, hkeeps, hgating⟩ := ih (d.chkSought n (d.predicted n) ((d.lane n).chk.run + 1))
      (by rw [uninjected, hlane]; exact hinj) ((d.lget_chkSought _ _).trans hsync)
      (by rw [hlane]; exact length_prbsPush hhist _) (by rw [hlane]; exact hnext)
    exact ⟨hsynced, fun a ha => (hkeeps a ha).trans (d.word_chkSought _ _ _), hgating.trans (d.gating_chkSought _ _)⟩

/-! What a half receives. -/

/-- The device with other things leaving at its edge. -/
def outSet (d : Dev) (o : List Out) : Dev := { d with out := o }

@[simp] theorem word_outSet (o : List Out) (a : Nat) : (d.outSet o).word a = d.word a := rfl
@[simp] theorem lget_outSet {f : Fld} (o : List Out) (m : Nat) : (d.outSet o).lget f m = d.lget f m := rfl
@[simp] theorem lane_outSet (o : List Out) (m : Nat) : (d.outSet o).lane m = d.lane m := rfl
@[simp] theorem gating_outSet (o : List Out) : (d.outSet o).gating = d.gating := rfl
@[simp] theorem bitsCounted_outSet (o : List Out) (m : Nat) : (d.outSet o).bitsCounted m = d.bitsCounted m := rfl
@[simp] theorem uninjected_outSet (o : List Out) (m : Nat) : (d.outSet o).uninjected m = d.uninjected m := rfl

theorem chkGood_of_search (k : Nat) (hsync : d.lget F.MLANE_LANE_STS_PRBS_SYNC n = 0) :
    d.chkGood n k = d.chkGoodEach n k := by
  unfold chkGood
  exact if_neg (by simp [hsync])

/-- In sync, bits that go on in the pattern are counted at once. -/
theorem chkGood_of_sync (k : Nat) (hinj : d.uninjected n) (hsync : d.lget F.MLANE_LANE_STS_PRBS_SYNC n = 1) :
    ∃ u, d.chkGood n k = (d.putBits n (min (d.bitsCounted n + k) (2 ^ 64 - 1))).updLane n u := by
  unfold chkGood
  exact ⟨_, if_pos (by rcases hinj with h | h <;> simp [hsync, h])⟩

/-- What one symbol, or a number of bits that go on in the pattern, does at the checker. -/
def chkData (d : Dev) (n : Nat) (x : TestData) : Dev :=
  match x with
  | .good k => d.chkGood n k
  | x => (d.rxBits n x).foldl (fun e b => e.chkBit n b) d

theorem chkData_bit {x : TestData} {b : Bool} (hx : d.rxBits n x = [b]) : d.chkData n x = d.chkBit n b := by
  cases x with
  | good k => exact absurd hx (by simp [rxBits])
  | bits l => exact congrArg (·.foldl (fun e b => e.chkBit n b) d) hx
  | levels l => exact congrArg (·.foldl (fun e b => e.chkBit n b) d) hx

theorem testRx_nil (n : Nat) : d.testRx n [] = d := by
  unfold testRx
  simp

/-- Received data reaches the checker; in LOOP_FAR it leaves again too. -/
theorem testRx_of_checking (h : d.checking n) (x : TestData) : ∃ o, d.testRx n [x] = (d.outSet o).chkData n x := by
  obtain ⟨hdata, hclk, htest, hpat, -⟩ := h
  have hloop : ∃ o, (if d.loopFar n && d.txAllowed n && !(d.lane n).txIdle && !([x] : List TestData).isEmpty then
      d.emit (.loopTest n [x]) else d) = d.outSet o := by
    split
    · exact ⟨_, rfl⟩
    · exact ⟨_, rfl⟩
  obtain ⟨o, ho⟩ := hloop
  refine ⟨o, ?_⟩
  unfold testRx
  rw [if_neg (by simp [hdata, hclk]), ho]
  refine (if_neg (show ¬ (!d.rxTest n || d.chkPat n = 0) = true by simp [htest, hpat])).trans ?_
  rfl

/-! The counters cleared (R100). -/

def prbsCleared (d : Dev) (n : Nat) : Dev := (d.lput F.MLANE_PRBS_ERR 0 n).putBits n 0

theorem aside_setWord (a : Nat) (v : Word) : (d.setWord a v).aside = d.aside := rfl

theorem aside_prbsCleared (n : Nat) : (d.prbsCleared n).aside = d.aside := by
  rw [prbsCleared, putBits_eq, aside_setWord, aside_setWord, lput, put, putAt, aside_setWord]

theorem gating_prbsCleared (n : Nat) : (d.prbsCleared n).gating = d.gating := by
  simp (disch := decide) [prbsCleared]

theorem keeps_prbsCleared (n : Nat) : d.keeps (d.prbsCleared n)
    [pgAddr (lanePage n) + 0x74, pgAddr (lanePage n) + 0x78, pgAddr (lanePage n) + 0x7C] := by
  intro a ha
  simp only [List.mem_cons, List.not_mem_nil, or_false, not_or] at ha
  obtain ⟨herr, hlo, hhi⟩ := ha
  rw [prbsCleared, word_putBits_ne _ _ hlo hhi, word_lput_ne _ rfl _ herr]

theorem lget_prbsCleared_err (n : Nat) : (d.prbsCleared n).lget F.MLANE_PRBS_ERR n = 0 := by
  rw [prbsCleared, lget_putBits _ _ (by decide), lget_lput_self _ _ (by decide)]
  rfl

theorem bitsCounted_prbsCleared (n : Nat) : (d.prbsCleared n).bitsCounted n = 0 := bitsCounted_putBits _ _

theorem lget_prbsCleared {f : Fld} (hf : f.page = 0 ∧ f.off ≠ 0x78 ∧ f.off ≠ 0x7C) (herr : F.MLANE_PRBS_ERR.apart f = true) :
    (d.prbsCleared n).lget f n = d.lget f n := by
  rw [prbsCleared, lget_putBits _ _ hf, lget_lput_apart _ _ herr]

theorem lane_prbsCleared (n m : Nat) : (d.prbsCleared n).lane m = d.lane m := by rw [prbsCleared, lane_putBits, lane_lput]

/-- A clear leaves the checker acting. -/
theorem checking_prbsCleared (h : d.checking n) : (d.prbsCleared n).checking n := by
  have hmode : (d.prbsCleared n).modeSide = d.modeSide := by simp (disch := decide) [prbsCleared]
  rw [checking, uninjected, rxData_of_modeSide hmode n (d.lget_prbsCleared (by decide) (by decide))
    (d.lget_prbsCleared (by decide) (by decide)) (d.lget_prbsCleared (by decide) (by decide)) (d.lane_prbsCleared n n),
    fwdClk_of_modeSide hmode, rxTest_of_modeSide hmode, chkPat, d.lget_prbsCleared (by decide) (by decide), lane_prbsCleared]
  exact h

end
end Dev
end Sys2Proof.Machine
end

section
/-! PROOF. Writes to the equaliser's control words (R93, R94), and injections (R101). -/
namespace Sys2Proof.Machine

/-- Page offsets of the control fields of a receiver's taps (R110, R111). -/
def tapCtlOffs : List Nat := [0x48, 0x4C, 0xA0, 0xA4, 0xA8, 0xAC]

namespace Dev
section
variable (d : Dev) {f : Fld} {n : Nat}

/-! RX_EQ_CTL. -/

/-- The taps in use are copied into their control fields. -/
def freezeTaps (d : Dev) (n : Nat) : Dev :=
  let e := d.setWord (pgAddr (lanePage n) + 0x48) (d.word (pgAddr (lanePage n) + 0x50))
  if n < 96 then e.setWord (pgAddr (lanePage n) + 0x4C) (e.word (pgAddr (lanePage n) + 0x54))
  else e.ffeWrite n 0xA0 (fun e k => e.word (pgAddr (lanePage n) + 0xB0 + 4 * k))

theorem word_freezeTaps {a : Nat} (h : ∀ o ∈ tapCtlOffs, a ≠ pgAddr (lanePage n) + o) : (d.freezeTaps n).word a = d.word a := by
  unfold freezeTaps
  dsimp only
  split
  · rw [word_setWord_ne _ _ (h 0x4C (by decide)), word_setWord_ne _ _ (h 0x48 (by decide))]
  · rw [word_ffeWrite _ _ _ fun p hp => h p (by simp [tapCtlOffs] at hp ⊢; omega), word_setWord_ne _ _ (h 0x48 (by decide))]

theorem lget_freezeTaps (hf : f.page = 0 ∧ f.off ∉ tapCtlOffs) : (d.freezeTaps n).lget f n = d.lget f n := by
  refine d.lget_congr hf.1 (d.word_freezeTaps fun o ho h => hf.2 ?_)
  rwa [show f.off = o by omega]

theorem gating_freezeTaps (n : Nat) : (d.freezeTaps n).gating = d.gating := by
  unfold freezeTaps
  dsimp only
  split
  · rw [gating_setWord_header _ _ _ (by decide), gating_setWord_header _ _ _ (by decide)]
  · rw [gating_ffeWrite _ _ (by decide), gating_setWord_header _ _ _ (by decide)]

/-- The CTLE code in use is copied into its control field. -/
def freezeCtle (d : Dev) (n : Nat) : Dev := d.lput F.MLANE_RX_EQ_CTL_CTLE (d.lget F.MLANE_RX_EQ_STS_CTLE n) n

/-- The CTLE code is copied where the mode freezes its stage. -/
def freezeCtleBy (d : Dev) (n mode : Nat) : Dev := if ctleFrozen mode then d.freezeCtle n else d

theorem freezeStages_eq (n mode : Nat) : d.freezeStages n mode =
    if dfeFrozen mode then (d.freezeCtleBy n mode).freezeTaps n else d.freezeCtleBy n mode := rfl

theorem lget_freezeCtle : (d.freezeCtle n).lget F.MLANE_RX_EQ_CTL_CTLE n = d.lget F.MLANE_RX_EQ_STS_CTLE n := by
  rw [freezeCtle, lget_lput_self _ _ (by decide)]
  exact Nat.mod_eq_of_lt (d.lget_lt F.MLANE_RX_EQ_STS_CTLE n)

theorem gating_freezeStages (n mode : Nat) : (d.freezeStages n mode).gating = d.gating := by
  rw [freezeStages_eq]
  unfold freezeCtleBy freezeCtle
  split <;> split <;> simp (disch := decide) [gating_freezeTaps]

theorem lget_freezeStages (mode : Nat) (hf : f.page = 0 ∧ f.off ∉ tapCtlOffs) (hctle : F.MLANE_RX_EQ_CTL_CTLE.apart f = true) :
    (d.freezeStages n mode).lget f n = d.lget f n := by
  rw [freezeStages_eq]
  unfold freezeCtleBy freezeCtle
  split <;> split <;> simp only [lget_freezeTaps _ hf, lget_lput_apart _ _ hctle]

/-- A mode that is not ADAPT freezes the CTLE stage (R94). -/
theorem lget_freezeStages_ctle {mode : Nat} (hmode : ctleFrozen mode = true) :
    (d.freezeStages n mode).lget F.MLANE_RX_EQ_CTL_CTLE n = d.lget F.MLANE_RX_EQ_STS_CTLE n := by
  rw [freezeStages_eq, freezeCtleBy, if_pos hmode]
  split
  · rw [lget_freezeTaps _ (by decide), lget_freezeCtle]
  · exact d.lget_freezeCtle

theorem useControls_adapt (n : Nat) : d.useControls n 0 = d := rfl

theorem gating_useControls (n mode : Nat) : (d.useControls n mode).gating = d.gating := by
  unfold useControls useCtle
  dsimp only
  split <;> split <;> simp (disch := decide) [gating_useTaps]

theorem lget_useControls (mode : Nat) (hf : f.page = 0 ∧ f.off ∉ tapOffs) (hctle : F.MLANE_RX_EQ_STS_CTLE.apart f = true) :
    (d.useControls n mode).lget f n = d.lget f n := by
  unfold useControls useCtle
  dsimp only
  split <;> split <;> simp only [lget_useTaps _ hf, lget_lput_apart _ _ hctle]

/-- The code and the mode stand in their fields. -/
def eqStored (d : Dev) (n mode ctle : Nat) : Dev :=
  (d.lput F.MLANE_RX_EQ_CTL_CTLE ctle n).lput F.MLANE_RX_EQ_CTL_EQ_MODE mode n

theorem eqModeWrite_eq {mode ctle : Nat} (hmode : mode ≠ 3) (hctle : ctle ≤ 48) : d.eqModeWrite n mode ctle =
    if mode = 0 then (d.eqStored n mode ctle).acquireAnew n
    else if d.lget F.MLANE_RX_EQ_CTL_EQ_MODE n = mode then (d.eqStored n mode ctle).useControls n mode
    else (d.eqStored n mode ctle).freezeStages n mode := by
  have hkept : (d.lput F.MLANE_RX_EQ_CTL_CTLE ctle n).lget F.MLANE_RX_EQ_CTL_EQ_MODE n = d.lget F.MLANE_RX_EQ_CTL_EQ_MODE n :=
    d.lget_lput_apart _ (by decide)
  have hcode : ¬ ctle > 48 := by omega
  have hvalid : ¬ (decide (ctle > 48) || decide (mode = 3)) = true := by simp [hcode, hmode]
  unfold eqModeWrite
  dsimp only
  rw [if_neg hvalid, if_neg hcode, if_neg hmode, hkept]
  rfl

theorem lget_eqStored_mode {mode : Nat} (ctle : Nat) (hmode : mode < 4) :
    (d.eqStored n mode ctle).lget F.MLANE_RX_EQ_CTL_EQ_MODE n = mode := by
  rw [eqStored, lget_lput_self _ _ (by decide)]
  exact Nat.mod_eq_of_lt hmode

theorem lget_eqStored_ctle (mode : Nat) {ctle : Nat} (hctle : ctle ≤ 48) :
    (d.eqStored n mode ctle).lget F.MLANE_RX_EQ_CTL_CTLE n = ctle := by
  rw [eqStored, lget_lput_apart _ _ (by decide), lget_lput_self _ _ (by decide)]
  exact Nat.mod_eq_of_lt (show ctle < 2 ^ 6 by omega)

theorem gating_eqStored (n mode ctle : Nat) : (d.eqStored n mode ctle).gating = d.gating := by
  simp (disch := decide) [eqStored]

/-! The control words of the taps. -/

/-- In ADAPT mode a write of a control word of the taps stores its RW bits. -/
theorem eqControlWrite_adapt {off : Nat} (v : Word) {w : WordRow} (hoff : off ∈ tapCtlOffs)
    (hrow : rowAt (laneBlk n) 0 off = some w) (hrw : w.rw ≠ 0) (hmain : off ≠ 0xA4 ∨ n < 96)
    (hmode : d.lget F.MLANE_RX_EQ_CTL_EQ_MODE n = 0) : d.eqControlWrite n off v =
      d.setWord (pgAddr (lanePage n) + off) ((d.word (pgAddr (lanePage n) + off) &&& ~~~ (BitVec.ofNat 32 w.rw)) |||
        (v &&& BitVec.ofNat 32 w.rw)) := by
  have hword : ((off = 0x48 || off = 0x4C || (0xA0 ≤ off && off ≤ 0xAC)) && w.rw ≠ 0) = true := by
    simp only [tapCtlOffs, List.mem_cons, List.not_mem_nil, or_false] at hoff
    rcases hoff with h | h | h | h | h | h <;> simp [h, hrw]
  unfold eqControlWrite
  simp only [hrow]
  rw [if_pos hword, if_neg (by omega), hmode, useControls_adapt]

/-! Injections (R101). -/

theorem injMode_cases (n mode : Nat) : d.injMode n mode = d.lput F.MLANE_INJ_CTL_INJ_MODE mode n ∨
    ((d.lane n).inj = 3 ∧ d.injMode n mode = (d.lput F.MLANE_INJ_CTL_INJ_MODE mode n).updLane n fun l => { l with inj := 0 }) := by
  unfold injMode
  dsimp only
  rw [lane_lput]
  split
  · next h => exact .inr ⟨h.2, rfl⟩
  · exact .inl rfl

/-- The fields of INJ_CTL are stored; with INJ_MODE 0 a rate injection ends. -/
def injStored (d : Dev) (n mode : Nat) (rx : Bool) (len : Nat) : Dev :=
  ((d.injMode n mode).lput F.MLANE_INJ_CTL_INJ_SIDE (if rx then 1 else 0) n).lput F.MLANE_INJ_CTL_LEN len n

/-- A single or burst injection runs. -/
def injBusy (d : Dev) (n : Nat) : Prop := (d.lane n).inj = 1 ∨ (d.lane n).inj = 2

section
variable (mode : Nat) (rx : Bool) (len : Nat)

theorem injBusy_injStored : (d.injStored n mode rx len).injBusy n ↔ d.injBusy n := by
  unfold injStored injBusy
  obtain h | ⟨hrate, h⟩ := d.injMode_cases n mode
  · rw [h, lane_lput, lane_lput, lane_lput]
  · rw [h, lane_lput, lane_lput, lane_updLane_self, hrate]
    simp

theorem word_injStored {a : Nat} (ha : a ≠ pgAddr (lanePage n) + 0x6C) : (d.injStored n mode rx len).word a = d.word a := by
  rw [injStored, word_lput_ne _ rfl _ ha, word_lput_ne _ rfl _ ha]
  obtain h | ⟨-, h⟩ := d.injMode_cases n mode <;> rw [h]
  · exact d.word_lput_ne rfl _ ha
  · exact (word_updLane _ _ _ _).trans (d.word_lput_ne rfl _ ha)

theorem modeSide_injStored : (d.injStored n mode rx len).modeSide = d.modeSide := by
  unfold injStored
  obtain h | ⟨-, h⟩ := d.injMode_cases n mode <;> rw [h] <;> simp (disch := decide)

theorem lget_injStored_mode : (d.injStored n mode rx len).lget F.MLANE_INJ_CTL_INJ_MODE n = mode % 2 ^ 2 := by
  unfold injStored
  obtain h | ⟨-, h⟩ := d.injMode_cases n mode <;> rw [h] <;> simp (disch := decide) <;> rfl

theorem lget_injStored_side :
    (d.injStored n mode rx len).lget F.MLANE_INJ_CTL_INJ_SIDE n = if rx then 1 else 0 := by
  rw [injStored, lget_lput_apart _ _ (by decide), lget_lput_self _ _ (by decide)]
  cases rx <;> rfl

theorem lget_injStored_len : (d.injStored n mode rx len).lget F.MLANE_INJ_CTL_LEN n = len % 2 ^ 8 :=
  lget_lput_self _ _ (by decide)

/-- An injection begins. -/
def injBegun (d : Dev) (n mode : Nat) (rx : Bool) (len : Nat) : Dev :=
  (d.lput F.MLANE_LANE_STS_INJ_REFUSED 0 n).updLane n (fun l =>
    { l with inj := mode, injRx := rx, injPhase := 0, injLeft := if mode = 1 then 1 else if mode = 2 then len + 1 else 0 })

theorem gating_injStored (n : Nat) : (d.injStored n mode rx len).gating = d.gating :=
  gating_of_modeSide (d.modeSide_injStored mode rx len)

theorem gating_injBegun (n : Nat) : (d.injBegun n mode rx len).gating = d.gating := by
  simp (disch := decide) [injBegun]

theorem word_injBegun_ne {a : Nat} (ha : a ≠ pgAddr (lanePage n) + 0x60) : (d.injBegun n mode rx len).word a = d.word a :=
  (word_updLane _ _ _ _).trans (d.word_lput_ne rfl _ ha)

theorem lget_injBegun_refused (n : Nat) : (d.injBegun n mode rx len).lget F.MLANE_LANE_STS_INJ_REFUSED n = 0 :=
  (lget_updLane _ _ _).trans (lget_lput_self _ _ (by decide))

theorem lane_injBegun (n : Nat) : (d.injBegun n mode rx len).lane n = { d.lane n with
    inj := mode, injRx := rx, injPhase := 0, injLeft := if mode = 1 then 1 else if mode = 2 then len + 1 else 0 } := by
  rw [injBegun, lane_updLane_self, lane_lput]

theorem injGo_begins (htest : (if rx then d.rxTest n else d.txTest n) = true) (hidle : ¬ d.injBusy n) :
    d.injGo n mode rx len = ((d.injStored n mode rx len).injBegun n mode rx len).genShow n := by
  have hmode := d.modeSide_injStored (n := n) mode rx len
  rw [← rxTest_of_modeSide hmode, ← txTest_of_modeSide hmode] at htest
  exact if_pos ⟨htest, mt (d.injBusy_injStored mode rx len).1 hidle⟩

theorem injGo_refused (h : (if rx then d.rxTest n else d.txTest n) = false ∨ d.injBusy n) :
    d.injGo n mode rx len = ((d.injStored n mode rx len).lput F.MLANE_LANE_STS_INJ_REFUSED 1 n).genShow n := by
  have hmode := d.modeSide_injStored (n := n) mode rx len
  rw [← rxTest_of_modeSide hmode, ← txTest_of_modeSide hmode] at h
  refine if_neg fun ⟨htest, hidle⟩ => ?_
  rcases h with h | h
  · exact Bool.false_ne_true (h.symm.trans htest)
  · exact hidle ((d.injBusy_injStored mode rx len).2 h)

end

/-- INJ_CTL is stored, whether or not the injection begins. -/
theorem injGo_stored (mode : BitVec 2) (rx : Bool) (len : BitVec 8) {e : Dev}
    (he : ∀ a, a ≠ pgAddr (lanePage n) + 0x60 → e.word a = (d.injStored n mode.toNat rx len.toNat).word a) :
    e.lget F.MLANE_INJ_CTL_INJ_MODE n = mode.toNat ∧ e.lget F.MLANE_INJ_CTL_INJ_SIDE n = (if rx then 1 else 0) ∧
    e.lget F.MLANE_INJ_CTL_LEN n = len.toNat ∧ d.keeps e [pgAddr (lanePage n) + 0x60, pgAddr (lanePage n) + 0x6C] := by
  have hget {f : Fld} (hf : f.page = 0 ∧ f.off ≠ 0x60) : e.lget f n = (d.injStored n mode.toNat rx len.toNat).lget f n :=
    lget_congr _ hf.1 (he _ (by omega))
  refine ⟨?_, ?_, ?_, fun a ha => ?_⟩
  · rw [hget (by decide), lget_injStored_mode, Nat.mod_eq_of_lt mode.isLt]
  · rw [hget (by decide), lget_injStored_side]
  · rw [hget (by decide), lget_injStored_len, Nat.mod_eq_of_lt len.isLt]
  · simp only [List.mem_cons, List.not_mem_nil, or_false, not_or] at ha
    rw [he a ha.1, word_injStored _ _ _ _ ha.2]

/-- What the generator sends changes no word. -/
theorem word_genSend (n k a : Nat) : (d.genSend n k).word a = d.word a := by
  unfold genSend genStart
  cases (d.lane n).gen <;> rfl

theorem gating_genSend (n k : Nat) : (d.genSend n k).gating = d.gating := by
  unfold genSend genStart
  cases (d.lane n).gen <;> rfl

/-- The injection that has been sent ends. -/
theorem injDone_sent (h : d.injSent n = true) : ∃ e : Dev, (∀ a, e.word a = d.word a) ∧ e.gating = d.gating ∧
    d.injDone n = (e.updLane n fun l => { l with inj := 0, injLeft := 0 }).lirq n 10 := by
  refine ⟨if (d.lane n).injRx then d else d.genSend n ((d.lane n).injLeft + (d.lane n).injLeft % 2), fun a => ?_, ?_, if_pos h⟩
  · split
    · rfl
    · exact d.word_genSend n _ a
  · split
    · rfl
    · exact d.gating_genSend n _

theorem injDone_unsent (h : d.injSent n = false) : d.injDone n = d := if_neg (by simp [h])

end
end Dev
end Sys2Proof.Machine
end

section
/-! PROOF. The commands of a lane's equaliser, checker and injector (R85, R93, R94, R95, R99, R100, R101, R110). -/
namespace Sys2Proof.Machine

section
variable {i : Instr} {s : State} {t off : Nat} {r : PageRef} {g : Dev → Dev} {P : Dev → Prop} (h : s.takesAt t r)
include h

/-- A write that is taken has its effect at its house time. -/
theorem gate_of_takes : (s.dev.atTime t).gate r off g = g (s.dev.atTime t) := by
  obtain ⟨⟨-, hreach, hvalid⟩, hpower⟩ := h
  exact (s.dev.atTime t).gate_eq r off g hreach hvalid hpower

theorem answers_write (hi : exec i s = s.onDev (fun d => (d.atTime t).gate r off g))
    (hg : (g (s.dev.atTime t)).gating = s.dev.gating) (hP : P (g (s.dev.atTime t))) : Answers i s P := by
  refine answers_onDev h.1.1 hi ?_ ?_ <;> rwa [gate_of_takes h]

theorem answers_ctxWrite (hc : s.dev.calm) (hi : exec i s = s.onCtx (fun d => (d.atTime t).gate r off g))
    (hg : (g (s.dev.atTime t)).gating = s.dev.gating) (hP : P (g (s.dev.atTime t))) : Answers i s P := by
  refine answers_onCtx h.1.1 hi hc ?_ ?_ <;> rwa [gate_of_takes h]

end

section
variable {s : State} {t : Nat} {n : Fin 112} (h : s.takesAt t (Dev.lanePage n))
include h

/-! The equaliser. -/

theorem answers_eqAdapt (hc : s.dev.calm) {ctle : BitVec 6} (hctle : ctle.toNat ≤ 48) :
    Answers (.eqModeWrite t n 0 ctle) s (fun d => d.lget F.MLANE_RX_EQ_CTL_EQ_MODE n = 0 ∧
      d.lget F.MLANE_RX_EQ_CTL_CTLE n = ctle.toNat ∧ (d.lane n).acq = true ∧ d.lget F.MLANE_RX_EQ_STS_CTLE n = ctle.toNat ∧
      ((n : Nat) < 96 → s.dev.keeps d [pgAddr (Dev.lanePage n) + 0x44, pgAddr (Dev.lanePage n) + 0x50,
        pgAddr (Dev.lanePage n) + 0x54, pgAddr (Dev.lanePage n) + 0x60, F.MLANE_RX_EQ_STS_CTLE.addr n 0 0])) := by
  let e := ((s.dev.atTime t).eqStored n 0 ctle.toNat).updLane n (fun l => { l with keep := false })
  have heq : (s.dev.atTime t).eqModeWrite n 0 ctle.toNat = e.acquire n := by
    rw [Dev.eqModeWrite_eq _ (by decide) hctle, if_pos rfl, Dev.acquireAnew]
  have hkeep : (e.lane n).keep = false := congrArg LaneSt.keep (Dev.lane_updLane_self _ _ _)
  have hcode : e.lget F.MLANE_RX_EQ_CTL_CTLE n = ctle.toNat :=
    (Dev.lget_updLane _ _ _).trans (Dev.lget_eqStored_ctle _ _ hctle)
  refine answers_ctxWrite h hc (g := fun d => d.eqModeWrite n 0 ctle.toNat) rfl ?_ ?_
  · rw [heq, Dev.gating_acquire]
    exact (Dev.gating_updLane _ _ _).trans (Dev.gating_eqStored _ _ _ _)
  · rw [heq]
    refine ⟨?_, ?_, ?_, ?_, fun hn a ha => ?_⟩
    · rw [e.lget_acquire n.isLt (by decide)]
      exact (Dev.lget_updLane _ _ _).trans (Dev.lget_eqStored_mode _ _ (by decide))
    · rw [e.lget_acquire n.isLt (by decide), hcode]
    · rw [e.lane_acquire n.isLt]
    · rw [e.lget_acquire_ctle n.isLt, hkeep, hcode]
      rfl
    · rw [mlane_addr ⟨rfl, rfl⟩ hn, F.MLANE_RX_EQ_STS_CTLE] at ha
      simp only [List.mem_cons, List.not_mem_nil, or_false, not_or] at ha
      obtain ⟨hctl, hdfeA, hdfeB, hsts, hctle⟩ := ha
      rw [e.word_acquire_media hn (by simp [hdfeA, hdfeB, hsts, hctle]), Dev.word_updLane, Dev.eqStored,
        Dev.word_lput_ne _ rfl _ hctl, Dev.word_lput_ne _ rfl _ hctl, Dev.word_atTime]

theorem answers_eqFreeze (hc : s.dev.calm) {mode : BitVec 2} {ctle : BitVec 6} (hadapt : mode.toNat ≠ 0) (hmode : mode.toNat ≠ 3)
    (hctle : ctle.toNat ≤ 48) :
    Answers (.eqModeWrite t n mode ctle) s (fun d => d.lget F.MLANE_RX_EQ_CTL_EQ_MODE n = mode.toNat ∧
      d.lget F.MLANE_RX_EQ_CTL_CTLE n = if s.dev.lget F.MLANE_RX_EQ_CTL_EQ_MODE n = mode.toNat then ctle.toNat
        else s.dev.lget F.MLANE_RX_EQ_STS_CTLE n) := by
  have hlt := mode.isLt
  have hfrozen : Dev.ctleFrozen mode.toNat = true := by
    simp only [Dev.ctleFrozen, Bool.or_eq_true, decide_eq_true_eq]
    omega
  have heq := ((s.dev.atTime t).eqModeWrite_eq (n := n) hmode hctle).trans (if_neg hadapt)
  rw [Dev.lget_atTime] at heq
  refine answers_ctxWrite h hc (g := fun d => d.eqModeWrite n mode.toNat ctle.toNat) rfl ?_ ?_
  · rw [heq]
    split
    · rw [Dev.gating_useControls, Dev.gating_eqStored, Dev.gating_atTime]
    · rw [Dev.gating_freezeStages, Dev.gating_eqStored, Dev.gating_atTime]
  · rw [heq]
    split
    · rw [Dev.lget_useControls _ _ (by decide) (by decide), Dev.lget_useControls _ _ (by decide) (by decide)]
      exact ⟨Dev.lget_eqStored_mode _ _ hlt, Dev.lget_eqStored_ctle _ _ hctle⟩
    · rw [Dev.lget_freezeStages _ _ (by decide) (by decide), Dev.lget_freezeStages_ctle _ hfrozen]
      refine ⟨Dev.lget_eqStored_mode _ _ hlt, ?_⟩
      simp (disch := decide) [Dev.eqStored]

theorem answers_eqModeWrite (hc : s.dev.calm) {mode : BitVec 2} {ctle : BitVec 6} (hmode : mode ≠ 3) (hctle : ctle.toNat ≤ 48) :
    Answers (.eqModeWrite t n mode ctle) s (fun d => d.lget F.MLANE_RX_EQ_CTL_EQ_MODE n = mode.toNat ∧
      d.lget F.MLANE_RX_EQ_CTL_CTLE n = (if mode ≠ 0 ∧ s.dev.lget F.MLANE_RX_EQ_CTL_EQ_MODE n ≠ mode.toNat then
        s.dev.lget F.MLANE_RX_EQ_STS_CTLE n else ctle.toNat) ∧
      (mode = 0 → (d.lane n).acq = true ∧ d.lget F.MLANE_RX_EQ_STS_CTLE n = ctle.toNat ∧
        ((n : Nat) < 96 → s.dev.keeps d [pgAddr (Dev.lanePage n) + 0x44, pgAddr (Dev.lanePage n) + 0x50,
          pgAddr (Dev.lanePage n) + 0x54, pgAddr (Dev.lanePage n) + 0x60, F.MLANE_RX_EQ_STS_CTLE.addr n 0 0]))) := by
  by_cases hadapt : mode = 0
  · subst hadapt
    obtain ⟨d, hd, hmode, hcode, hrest⟩ := answers_eqAdapt h hc hctle
    exact ⟨d, hd, hmode, by rw [if_neg (by simp), hcode], fun _ => hrest⟩
  · have hzero : mode.toNat ≠ 0 := fun hz => hadapt (BitVec.eq_of_toNat_eq hz)
    have hthree : mode.toNat ≠ 3 := fun hz => hmode (BitVec.eq_of_toNat_eq hz)
    obtain ⟨d, hd, hmode, hcode⟩ := answers_eqFreeze h hc hzero hthree hctle
    refine ⟨d, hd, hmode, hcode.trans ?_, fun hz => absurd hz hadapt⟩
    by_cases hold : s.dev.lget F.MLANE_RX_EQ_CTL_EQ_MODE n = mode.toNat
    · rw [if_pos hold, if_neg fun hnew => hnew.2 hold]
    · rw [if_neg hold, if_pos ⟨hadapt, hold⟩]

theorem answers_eqControlWrite {off : BitVec 12} (v : Word) {w : WordRow} (hoff : off.toNat ∈ tapCtlOffs)
    (hrow : rowAt (laneBlk n) 0 off.toNat = some w) (hrw : w.rw ≠ 0) (hmain : off.toNat ≠ 0xA4 ∨ (n : Nat) < 96)
    (hmode : s.dev.lget F.MLANE_RX_EQ_CTL_EQ_MODE n = 0) :
    Answers (.eqControlWrite t n off v) s (fun d => s.dev.wordsOnly d t ∧
      s.dev.keeps d [pgAddr (Dev.lanePage n) + off.toNat] ∧ d.word (pgAddr (Dev.lanePage n) + off.toNat) =
        (s.dev.word (pgAddr (Dev.lanePage n) + off.toNat) &&& ~~~ (BitVec.ofNat 32 w.rw)) ||| (v &&& BitVec.ofNat 32 w.rw)) := by
  have heq := (s.dev.atTime t).eqControlWrite_adapt v hoff hrow hrw hmain hmode
  have hheader : off.toNat % 0x1000 ≠ 0x08 := by
    simp only [tapCtlOffs, List.mem_cons, List.not_mem_nil, or_false] at hoff
    omega
  refine answers_write h (g := fun d => d.eqControlWrite n off.toNat v) rfl ?_ ?_
  · rw [heq, Dev.gating_setWord_header _ _ _ hheader, Dev.gating_atTime]
  · rw [heq]
    refine ⟨rfl, fun a ha => ?_, Dev.word_setWord_self _ _ _⟩
    exact (Dev.word_setWord_ne _ _ fun hne => ha (List.mem_singleton.2 hne)).trans (Dev.word_atTime _ _ _)

/-! The checker's counters. -/

omit h in
theorem exec_prbsClear (edge : List TestData) : exec (.prbsClear t n [] edge) s =
    s.onDev (fun d => (d.atTime t).gate (Dev.lanePage n) 0x68 (·.prbsClear n edge)) := by
  have hnil (d : Dev) : (d.atTime t).testRx n [] = d.atTime t := Dev.testRx_nil _ _
  change s.onDev (fun d => ((d.atTime t).testRx n []).gate _ _ _) = _
  simp only [hnil]

theorem answers_prbsClear :
    Answers (.prbsClear t n [] []) s (fun d => s.dev.wordsOnly d t ∧ s.dev.keeps d [pgAddr (Dev.lanePage n) + 0x74,
      pgAddr (Dev.lanePage n) + 0x78, pgAddr (Dev.lanePage n) + 0x7C] ∧ d.lget F.MLANE_PRBS_ERR n = 0 ∧ d.bitsCounted n = 0) := by
  have heq : (s.dev.atTime t).prbsClear n [] = (s.dev.atTime t).prbsCleared n := Dev.testRx_nil _ _
  refine answers_write h (exec_prbsClear []) ?_ ?_
  · rw [heq, Dev.gating_prbsCleared, Dev.gating_atTime]
  · rw [heq]
    exact ⟨Dev.aside_prbsCleared _ _, Dev.keeps_prbsCleared _ _, Dev.lget_prbsCleared_err _ _, Dev.bitsCounted_prbsCleared _ _⟩

/-- What goes on in the pattern at the edge of the clear is counted. -/
theorem answers_prbsClear_good {k : Nat} (hk : k < 2 ^ 64) (hchk : s.dev.checking n)
    (hsync : s.dev.lget F.MLANE_LANE_STS_PRBS_SYNC n = 1) :
    Answers (.prbsClear t n [] [.good k]) s (fun d => s.dev.keeps d [pgAddr (Dev.lanePage n) + 0x74,
      pgAddr (Dev.lanePage n) + 0x78, pgAddr (Dev.lanePage n) + 0x7C] ∧ d.lget F.MLANE_PRBS_ERR n = 0 ∧ d.bitsCounted n = k) := by
  have hchecking := (s.dev.atTime t).checking_prbsCleared hchk
  have hsynced : ((s.dev.atTime t).prbsCleared n).lget F.MLANE_LANE_STS_PRBS_SYNC n = 1 :=
    (Dev.lget_prbsCleared _ (by decide) (by decide)).trans hsync
  obtain ⟨o, ho⟩ := Dev.testRx_of_checking _ hchecking (.good k)
  have hinj := Dev.uninjected_of_checking hchecking
  rw [← Dev.uninjected_outSet _ o] at hinj
  obtain ⟨u, hu⟩ := Dev.chkGood_of_sync _ k hinj ((Dev.lget_outSet _ o _).trans hsynced)
  have heq : (s.dev.atTime t).prbsClear n [.good k] = _ := ho.trans hu
  have hcount : min (((s.dev.atTime t).prbsCleared n).bitsCounted n + k) (2 ^ 64 - 1) = k := by
    rw [Dev.bitsCounted_prbsCleared]
    omega
  rw [Dev.bitsCounted_outSet, hcount] at heq
  refine answers_write h (exec_prbsClear [.good k]) ?_ ?_
  · rw [heq, Dev.gating_updLane, Dev.gating_putBits, Dev.gating_outSet, Dev.gating_prbsCleared, Dev.gating_atTime]
  · rw [heq]
    refine ⟨fun a ha => ?_, ?_, ?_⟩
    · rw [Dev.word_updLane, Dev.word_putBits_ne _ _ (by simp at ha; omega) (by simp at ha; omega), Dev.word_outSet]
      exact Dev.keeps_prbsCleared _ _ a ha
    · rw [Dev.lget_updLane, Dev.lget_putBits _ _ (by decide), Dev.lget_outSet, Dev.lget_prbsCleared_err]
    · rw [Dev.bitsCounted_updLane, Dev.bitsCounted_putBits, Nat.mod_eq_of_lt hk]

/-! Injections. -/

theorem answers_injGo (mode : BitVec 2) (rx : Bool) (len : BitVec 8) :
    Answers (.injGo t n mode rx len) s (fun d => d.lget F.MLANE_INJ_CTL_INJ_MODE n = mode.toNat ∧
      d.lget F.MLANE_INJ_CTL_INJ_SIDE n = (if rx then 1 else 0) ∧ d.lget F.MLANE_INJ_CTL_LEN n = len.toNat ∧
      s.dev.keeps d [pgAddr (Dev.lanePage n) + 0x60, pgAddr (Dev.lanePage n) + 0x6C] ∧
      ((if rx then s.dev.rxTest n else s.dev.txTest n) = true ∧ ¬ s.dev.injBusy n →
        d.lget F.MLANE_LANE_STS_INJ_REFUSED n = 0 ∧ (d.lane n).inj = mode.toNat ∧ (d.lane n).injRx = rx) ∧
      ((if rx then s.dev.rxTest n else s.dev.txTest n) = false ∨ s.dev.injBusy n →
        d.lget F.MLANE_LANE_STS_INJ_REFUSED n = 1)) := by
  by_cases hbegin : (if rx then s.dev.rxTest n else s.dev.txTest n) = true ∧ ¬ s.dev.injBusy n
  · have heq := (s.dev.atTime t).injGo_begins (n := n) mode.toNat rx len.toNat hbegin.1 hbegin.2
    obtain ⟨hmode, hside, hlen, hkeeps⟩ := (s.dev.atTime t).injGo_stored (n := n) mode rx len fun a ha =>
      (Dev.word_genShow _ _ _).trans (Dev.word_injBegun_ne _ mode.toNat rx len.toNat ha)
    refine answers_write h (g := fun d => d.injGo n mode.toNat rx len.toNat) rfl ?_ ?_
    · rw [heq, Dev.gating_genShow, Dev.gating_injBegun, Dev.gating_injStored, Dev.gating_atTime]
    · rw [heq]
      refine ⟨hmode, hside, hlen, hkeeps, fun _ => ⟨?_, ?_, ?_⟩, fun hrefuse => ?_⟩
      · rw [Dev.lget_genShow _ rfl, Dev.lget_injBegun_refused]
      · obtain ⟨g, hg⟩ := Dev.lane_genShow _ n
        rw [hg, Dev.lane_injBegun]
      · obtain ⟨g, hg⟩ := Dev.lane_genShow _ n
        rw [hg, Dev.lane_injBegun]
      · rcases hrefuse with hrefuse | hbusy
        · exact absurd (hrefuse.symm.trans hbegin.1) Bool.false_ne_true
        · exact absurd hbusy hbegin.2
  · have hrefuse : (if rx then s.dev.rxTest n else s.dev.txTest n) = false ∨ s.dev.injBusy n := by
      rw [← Bool.not_eq_true]
      exact not_and_not_right.mp hbegin |> Decidable.imp_iff_not_or.mp
    have heq := (s.dev.atTime t).injGo_refused (n := n) mode.toNat rx len.toNat hrefuse
    obtain ⟨hmode, hside, hlen, hkeeps⟩ := (s.dev.atTime t).injGo_stored (n := n) mode rx len fun a ha =>
      (Dev.word_genShow _ _ _).trans (Dev.word_lput_ne _ (f := F.MLANE_LANE_STS_INJ_REFUSED) rfl 1 ha)
    refine answers_write h (g := fun d => d.injGo n mode.toNat rx len.toNat) rfl ?_ ?_
    · rw [heq, Dev.gating_genShow, Dev.gating_lput _ _ _ (by decide), Dev.gating_injStored, Dev.gating_atTime]
    · rw [heq]
      refine ⟨hmode, hside, hlen, hkeeps, fun h => absurd h hbegin, fun _ => ?_⟩
      rw [Dev.lget_genShow _ rfl, Dev.lget_lput_self _ _ (by decide)]
      rfl

end

section
variable {s : State} (t : Nat) {n : Fin 112} (hr : s.dev.inReset = false)
include hr

/-! Received bits. -/

/-- The matches that are missing bring sync. -/
theorem answers_prbsSync (hchk : s.dev.checking n) (hsync : s.dev.lget F.MLANE_LANE_STS_PRBS_SYNC n = 0)
    (hhist : (s.dev.lane n).chk.hist.length = 31) (hrun : (s.dev.lane n).chk.run < 64) :
    Answers (.prbsSync t ⟨n, [.good (64 - (s.dev.lane n).chk.run)]⟩) s (fun d =>
      d.lget F.MLANE_LANE_STS_PRBS_SYNC n = 1 ∧ s.dev.keeps d [pgAddr (Dev.lanePage n) + 0x60]) := by
  obtain ⟨k, hk⟩ : ∃ k, 64 - (s.dev.lane n).chk.run = k + 1 := ⟨63 - (s.dev.lane n).chk.run, by omega⟩
  rw [hk]
  obtain ⟨o, ho⟩ := (s.dev.atTime t).testRx_of_checking hchk (.good (k + 1))
  have hgood : ((s.dev.atTime t).outSet o).chkData n (.good (k + 1)) = ((s.dev.atTime t).outSet o).chkGoodEach n (k + 1) :=
    Dev.chkGood_of_search _ _ hsync
  have hrest : (((s.dev.atTime t).outSet o).lane n).chk.run + (k + 1) = 64 := by
    rw [Dev.lane_outSet, Dev.lane_atTime]
    omega
  obtain ⟨hsynced, hkeeps, hg⟩ :=
    ((s.dev.atTime t).outSet o).chkGoodEach_syncs (Dev.uninjected_of_checking hchk) hsync hhist hrest
  refine answers_onDev hr (f := fun d => (d.atTime t).testRx n [.good (k + 1)]) rfl ?_ ?_
  · rw [ho, hgood, hg, Dev.gating_outSet, Dev.gating_atTime]
  · rw [ho, hgood]
    exact ⟨hsynced, hkeeps⟩

/-- One received bit in sync (R100). -/
theorem answers_prbsSyncLost {x : TestData} {b : Bool} (hchk : s.dev.checking n)
    (hsync : s.dev.lget F.MLANE_LANE_STS_PRBS_SYNC n = 1) (hx : s.dev.rxBits n x = [b]) :
    Answers (.prbsSyncLost t n [x] []) s (fun d => s.dev.bitEffect d n (xor b (s.dev.chkInv n) ≠ s.dev.predicted n)
      (xor b (s.dev.chkInv n) ≠ s.dev.predicted n ∧ 31 ≤ (s.dev.lane n).chk.errs.length ∧
        (s.dev.lane n).chk.pos + 1 - (s.dev.lane n).chk.errs.getD 30 0 < 1024)) := by
  obtain ⟨o, ho⟩ := (s.dev.atTime t).testRx_of_checking hchk x
  have hbit : ((s.dev.atTime t).outSet o).chkData n x = ((s.dev.atTime t).outSet o).chkBit n b := Dev.chkData_bit _ hx
  rw [hbit, ((s.dev.atTime t).outSet o).chkBit_of_sync _ (Dev.uninjected_of_checking hchk) hsync] at ho
  refine answers_onDev hr (f := fun d => (d.atTime t).testRx n [x]) rfl ?_ ?_
  · rw [ho, Dev.gating_chkSynced, Dev.gating_chkTook, Dev.gating_outSet, Dev.gating_atTime]
  · rw [ho]
    have heffect := (((s.dev.atTime t).outSet o).chkTook n (((s.dev.atTime t).outSet o).predicted n)).bitEffect_chkSynced
      (decide (xor b (((s.dev.atTime t).outSet o).chkInv n) ≠ ((s.dev.atTime t).outSet o).predicted n)) hsync
    rw [decide_eq_true_eq, Dev.lane_chkTook] at heffect
    exact heffect

theorem answers_injDone (hsent : s.dev.injSent n = true) : Answers (.injDone t n) s (fun d => (d.lane n).inj = 0 ∧
    d.word (pgAddr (Dev.lanePage n) + 0x10) = s.dev.word (pgAddr (Dev.lanePage n) + 0x10) ||| 0x400 ∧
    s.dev.keeps d [pgAddr (Dev.lanePage n) + 0x10]) := by
  obtain ⟨e, hword, hg, heq⟩ := (s.dev.atTime t).injDone_sent hsent
  refine answers_onDev hr (f := fun d => (d.atTime t).injDone n) rfl ?_ ?_
  · rw [heq, Dev.gating_lirq, Dev.gating_updLane, hg, Dev.gating_atTime]
  · rw [heq]
    refine ⟨?_, ?_, fun a ha => ?_⟩
    · rw [Dev.lane_lirq, Dev.lane_updLane_self]
    · rw [Dev.word_lirq_self, Dev.word_updLane, hword]
      rfl
    · rw [Dev.word_lirq_ne _ _ fun h => ha (List.mem_singleton.2 h), Dev.word_updLane, hword, Dev.word_atTime]

theorem exec_injDone_unsent (hsent : s.dev.injSent n = false) :
    exec (.injDone t n) s = .next { s with dev := s.dev.atTime t } :=
  exec_of_onDev (f := fun d => (d.atTime t).injDone n) rfl hr ((s.dev.atTime t).injDone_unsent hsent) hr

end
end Sys2Proof.Machine

open Sys2Proof Sys2Proof.Machine

/-- Settles O20, command by command. -/
theorem laneEqualiserAndTestRows : Obligations.LaneEqualiserAndTestRows := by
  unfold Obligations.LaneEqualiserAndTestRows
  intro s t n hr hc
  dsimp only
  rw [lanePageOf_eq]
  refine ⟨fun h => ⟨fun mode ctle hmode hctle => answers_eqModeWrite h hc hmode hctle,
      fun off v w hoff hrow hrw hmain hadapt => answers_eqControlWrite h v hoff hrow hrw hmain hadapt, ?_, ?_,
      answers_injGo h⟩,
    answers_prbsSync t hr, fun x b hchk hsync hx => ?_, answers_injDone t hr, exec_injDone_unsent t hr⟩
  · simp only [← Dev.bitsCounted_eq]
    exact answers_prbsClear h
  · intro k hk hchk hsync
    simp only [← Dev.bitsCounted_eq]
    exact answers_prbsClear_good h hk hchk hsync
  · simp only [← Dev.bitsCounted_eq]
    exact answers_prbsSyncLost t hr hchk hsync hx
end

section
/-! PROOF. Requests for a lane state of the receive half, and the end of a transition (R103, R104, R105). -/
namespace Sys2Proof.Machine
namespace Dev
section
variable (d : Dev) {n : Nat}

/-! A reserved code (R60). -/

theorem rsvCode_eq (r : PageRef) (off : Nat) :
    d.rsvCode r off = (d.logErr 6 (pgAddr r + off) true false none).irqSet r (2 ^ 27) := rfl

theorem gating_rsvCode (r : PageRef) (off : Nat) : (d.rsvCode r off).gating = d.gating := by
  rw [rsvCode_eq, gating_irqSet]
  refine gating_of (logErr_rest d _ _ _ _ _) fun a ha => d.word_logErr _ _ _ _ ?_
  simp only [List.mem_cons, List.not_mem_nil, or_false, not_or]
  omega

theorem lget_rsvCode (hn : n < 112) (o : Nat) {f : Fld} (hf : f.page = 0 ∧ f.off < 0x1000 ∧ f.off ≠ 0x10) :
    (d.rsvCode (lanePage n) o).lget f n = d.lget f n := by
  have hlane := inLanes_lanePage hn hf.2.1
  simp only [inLanes, Bool.and_eq_true, decide_eq_true_eq] at hlane
  refine d.lget_congr hf.1 ?_
  rw [rsvCode_eq, word_irqSet_ne _ _ _ (by omega), word_logErr]
  simp only [List.mem_cons, List.not_mem_nil, or_false, not_or]
  omega

theorem cause_rsvCode (hn : n < 112) (o : Nat) (h : d.get F.GLOBAL_ERR_INFO_CAUSE = 0) :
    (d.rsvCode (lanePage n) o).get F.GLOBAL_ERR_INFO_CAUSE = 6 := by
  have hlane := inLanes_lanePage hn (show 0x10 < 0x1000 by decide)
  have haddr : F.GLOBAL_ERR_INFO_CAUSE.addr 0 0 0 < 0x100000 := by decide
  simp only [inLanes, Bool.and_eq_true, decide_eq_true_eq] at hlane
  obtain ⟨-, hcause, -⟩ := d.logErr_first 6 (pgAddr (lanePage n) + o) true false h
  rw [rsvCode_eq, get_congr _ _ _ _ (word_irqSet_ne _ _ _ (by omega)), hcause]

/-! A request. -/

theorem lstateGo_waits {target : Nat} (h : (d.lane n).rxTarget ≠ none) :
    d.lstateGo n false target = d.setLane n { d.lane n with rxNext := some target } := by
  unfold lstateGo
  exact if_pos (Option.isSome_iff_ne_none.2 h)

theorem lstateGo_rests {target : Nat} (h : (d.lane n).rxTarget = none) (hstate : d.lget F.MLANE_LANE_STS_RX_LSTATE n = target) :
    d.lstateGo n false target = d := by
  unfold lstateGo
  dsimp only
  rw [if_neg (by decide), if_neg (by simp [h]), if_pos hstate]

/-- The receive half leaves its state. -/
def rxLeaves (d : Dev) (n target : Nat) : Dev := d.setLane n { d.lane n with rxTarget := some target }

theorem lstateGo_leaves {target : Nat} (h : (d.lane n).rxTarget = none) (hstate : d.lget F.MLANE_LANE_STS_RX_LSTATE n ≠ target) :
    d.lstateGo n false target =
      if target = 0 then d.rxLeaves n target else ((d.rxLeaves n target).lput F.MLANE_LANE_STS_LOL 1 n).laneLoss n := by
  unfold lstateGo
  dsimp only
  rw [if_neg (by decide), if_neg (by simp [h]), if_neg hstate]
  rfl

theorem bondSide_lstateGo_leaves (hn : n < 112) {target : Nat} (h : (d.lane n).rxTarget = none)
    (hstate : d.lget F.MLANE_LANE_STS_RX_LSTATE n ≠ target) : (d.lstateGo n false target).bondSide =
      (if target = 0 then d.rxLeaves n target else (d.rxLeaves n target).lput F.MLANE_LANE_STS_LOL 1 n).bondSide := by
  rw [d.lstateGo_leaves h hstate]
  split
  · rfl
  · exact bondSide_laneLoss _ hn

theorem gating_lstateGo (n target : Nat) : (d.lstateGo n false target).gating = d.gating := by
  by_cases h : (d.lane n).rxTarget = none
  · by_cases hstate : d.lget F.MLANE_LANE_STS_RX_LSTATE n = target
    · rw [d.lstateGo_rests h hstate]
    · rw [d.lstateGo_leaves h hstate]
      split
      · rfl
      · rw [gating_laneLoss, gating_lput _ _ _ (by decide), rxLeaves, gating_setLane]
  · rw [d.lstateGo_waits h, gating_setLane]

/-- Whether POWER keeps a lane on does not rest on its request. -/
theorem lanePowered_lput_req (x : Nat) : (d.lput F.MLANE_RX_LSTATE_REQ_REQ x n).lanePowered n = d.lanePowered n := by
  obtain ⟨m, hm⟩ := dvd_pageAddr (laneBlk n) (laneIdx n) (mainPage (laneBlk n) 0)
  have hreq := header_mod (lanePage n) 0x64
  have hpower : (d.lput F.MLANE_RX_LSTATE_REQ_REQ x n).powerState (laneBlk n) (laneIdx n) = d.powerState (laneBlk n) (laneIdx n) := by
    rw [powerState, powerState, bitsAt, bitsAt, word_lput_ne _ rfl]
    simp only [fenceKey, F.MLANE_RX_LSTATE_REQ_REQ]
    omega
  rw [lanePowered, lanePowered, hpower, bitsAt, bitsAt, word_lput_off _ _ (by decide)]

theorem rxLstateReq_eq {req : Nat} (h : req ≠ 3) : d.rxLstateReq n req =
    if d.lanePowered n then (d.lput F.MLANE_RX_LSTATE_REQ_REQ req n).lstateGo n false req
    else d.lput F.MLANE_RX_LSTATE_REQ_REQ req n := by
  rw [rxLstateReq, if_neg h, lstateReq, lanePowered_lput_req]

end
end Dev

section
variable {s : State} {t : Nat} {n : Fin 112} {req : BitVec 2} (h : s.takesAt t (Dev.lanePage n)) (hc : s.dev.calm)
include h hc

/-- The reserved code leaves the request and is logged. -/
theorem answers_rxLstateReq_reserved (hreq : req = 3) (hlog : s.dev.get F.GLOBAL_ERR_INFO_CAUSE = 0) :
    Answers (.rxLstateReq t n req) s (fun d =>
      d.lget F.MLANE_RX_LSTATE_REQ_REQ n = s.dev.lget F.MLANE_RX_LSTATE_REQ_REQ n ∧ d.get F.GLOBAL_ERR_INFO_CAUSE = 6) := by
  subst hreq
  have heq : (s.dev.atTime t).rxLstateReq n (3 : BitVec 2).toNat = (s.dev.atTime t).rsvCode (Dev.lanePage n) 0x64 := if_pos rfl
  refine answers_ctxWrite h hc (g := fun d => d.rxLstateReq n (3 : BitVec 2).toNat) rfl ?_ ?_
  · rw [heq, Dev.gating_rsvCode, Dev.gating_atTime]
  · rw [heq]
    exact ⟨Dev.lget_rsvCode _ n.isLt _ (by decide), Dev.cause_rsvCode _ n.isLt _ hlog⟩

/-- What a request that is not reserved leaves in the device. -/
def stateAsked (s : State) (n : Fin 112) (req : BitVec 2) (d : Dev) : Prop :=
  d.lget F.MLANE_RX_LSTATE_REQ_REQ n = req.toNat ∧
  (s.dev.lanePowered n = false → d.lanes = s.dev.lanes ∧ s.dev.keeps d [pgAddr (Dev.lanePage n) + 0x64]) ∧
  (s.dev.lanePowered n = true → (s.dev.lane n).rxTarget = none → s.dev.lget F.MLANE_LANE_STS_RX_LSTATE n ≠ req.toNat →
    (d.lane n).rxTarget = some req.toNat ∧ (req ≠ 0 → d.lget F.MLANE_LANE_STS_LOL n = 1)) ∧
  ((s.dev.lane n).rxTarget = none → s.dev.lget F.MLANE_LANE_STS_RX_LSTATE n = req.toNat → d.lanes = s.dev.lanes) ∧
  (s.dev.lanePowered n = true → (s.dev.lane n).rxTarget ≠ none → (d.lane n).rxNext = some req.toNat)

omit h hc in
theorem stateAsked_stored
    (hrest : s.dev.lanePowered n = false ∨
      ((s.dev.lane n).rxTarget = none ∧ s.dev.lget F.MLANE_LANE_STS_RX_LSTATE n = req.toNat)) :
    stateAsked s n req ((s.dev.atTime t).lput F.MLANE_RX_LSTATE_REQ_REQ req.toNat n) := by
  refine ⟨?_, fun _ => ⟨Dev.put_lanes _ _ _ _ _ _, fun a ha => ?_⟩, fun hon hidle hstate => ?_, fun _ _ => Dev.put_lanes _ _ _ _ _ _,
    fun hon htarget => ?_⟩
  · rw [Dev.lget_lput_self _ _ (by decide)]
    exact Nat.mod_eq_of_lt req.isLt
  · exact Dev.word_lput_ne _ rfl _ fun hne => ha (List.mem_singleton.2 hne)
  · rcases hrest with hoff | ⟨-, hsame⟩
    · exact absurd (hoff.symm.trans hon) Bool.false_ne_true
    · exact absurd hsame hstate
  · rcases hrest with hoff | ⟨hidle, -⟩
    · exact absurd (hoff.symm.trans hon) Bool.false_ne_true
    · exact absurd hidle htarget

section
omit h hc
variable {e : Dev} (hon : s.dev.lanePowered n = true) (hlane : e.lane n = s.dev.lane n)
  (hasked : e.lget F.MLANE_RX_LSTATE_REQ_REQ n = req.toNat)
include hon hlane hasked

/-- A request while a transition is under way waits for its end. -/
theorem stateAsked_waits (htarget : (s.dev.lane n).rxTarget ≠ none) :
    stateAsked s n req (e.lstateGo n false req.toNat) := by
  rw [e.lstateGo_waits (by rw [hlane]; exact htarget)]
  refine ⟨hasked, fun hoff => absurd (hoff.symm.trans hon) Bool.false_ne_true, fun _ hidle => absurd hidle htarget,
    fun hidle => absurd hidle htarget, fun _ _ => ?_⟩
  rw [Dev.lane_setLane_self]

/-- A request for another state begins the transition. -/
theorem stateAsked_leaves (htarget : (s.dev.lane n).rxTarget = none)
    (hget : e.lget F.MLANE_LANE_STS_RX_LSTATE n = s.dev.lget F.MLANE_LANE_STS_RX_LSTATE n)
    (hstate : s.dev.lget F.MLANE_LANE_STS_RX_LSTATE n ≠ req.toNat) :
    stateAsked s n req (e.lstateGo n false req.toNat) := by
  have hside := e.bondSide_lstateGo_leaves n.isLt ((congrArg LaneSt.rxTarget hlane).trans htarget) (by rwa [hget])
  refine ⟨?_, fun hoff => absurd (hoff.symm.trans hon) Bool.false_ne_true, fun _ _ _ => ⟨?_, fun hzero => ?_⟩,
    fun _ hsame => absurd hsame hstate, fun _ hbusy => absurd htarget hbusy⟩
  · rw [Dev.bondSide_lget _ hside n.isLt (by decide)]
    split
    · exact hasked
    · rw [Dev.lget_lput_apart _ _ (by decide)]
      exact hasked
  · rw [Dev.bondSide_lane hside]
    split
    · rw [Dev.rxLeaves, Dev.lane_setLane_self]
    · rw [Dev.lane_lput, Dev.rxLeaves, Dev.lane_setLane_self]
  · have hnonzero : req.toNat ≠ 0 := fun hz => hzero (BitVec.eq_of_toNat_eq hz)
    rw [Dev.bondSide_lget _ hside n.isLt (by decide), if_neg hnonzero, Dev.lget_lput_self _ _ (by decide)]
    rfl

end

theorem answers_rxLstateReq (hreq : req ≠ 3) : Answers (.rxLstateReq t n req) s (stateAsked s n req) := by
  have hthree : req.toNat ≠ 3 := fun hz => hreq (BitVec.eq_of_toNat_eq hz)
  have heq := (s.dev.atTime t).rxLstateReq_eq (n := n) hthree
  have hlane : ((s.dev.atTime t).lput F.MLANE_RX_LSTATE_REQ_REQ req.toNat n).lane n = s.dev.lane n := Dev.lane_lput _ _ _ _
  have hget : ((s.dev.atTime t).lput F.MLANE_RX_LSTATE_REQ_REQ req.toNat n).lget F.MLANE_LANE_STS_RX_LSTATE n =
      s.dev.lget F.MLANE_LANE_STS_RX_LSTATE n := Dev.lget_lput_apart _ _ (by decide)
  have hstored : ((s.dev.atTime t).lput F.MLANE_RX_LSTATE_REQ_REQ req.toNat n).lget F.MLANE_RX_LSTATE_REQ_REQ n = req.toNat :=
    (Dev.lget_lput_self _ _ (by decide)).trans (Nat.mod_eq_of_lt req.isLt)
  refine answers_ctxWrite h hc (g := fun d => d.rxLstateReq n req.toNat) rfl ?_ ?_
  · rw [heq]
    split
    · rw [Dev.gating_lstateGo, Dev.gating_lput _ _ _ (by decide), Dev.gating_atTime]
    · rw [Dev.gating_lput _ _ _ (by decide), Dev.gating_atTime]
  · rw [heq]
    split
    · next hon =>
      by_cases htarget : (s.dev.lane n).rxTarget = none
      · by_cases hstate : s.dev.lget F.MLANE_LANE_STS_RX_LSTATE n = req.toNat
        · rw [Dev.lstateGo_rests _ ((congrArg LaneSt.rxTarget hlane).trans htarget) (hget.trans hstate)]
          exact stateAsked_stored (.inr ⟨htarget, hstate⟩)
        · exact stateAsked_leaves hon hlane hstored htarget hget hstate
      · exact stateAsked_waits hon hlane hstored htarget
    · next hoff => exact stateAsked_stored (.inl ((Bool.not_eq_true _).mp hoff))

end
/-! The end of a transition. -/

namespace Dev
section
variable (d : Dev) {n : Nat}

/-- PLL_LOCK at the entry of a half into a state. -/
def pllShown (d : Dev) (n target : Nat) : Dev :=
  if target ≠ 2 then d.lput F.MLANE_LANE_STS_PLL_LOCK 1 n
  else if d.lget F.MLANE_LANE_STS_TX_LSTATE n = 2 ∧ d.lget F.MLANE_LANE_STS_RX_LSTATE n = 2 then
    d.lput F.MLANE_LANE_STS_PLL_LOCK 0 n
  else d

theorem pllShown_eq (n target : Nat) : ∃ x, d.pllShown n target = d.lput F.MLANE_LANE_STS_PLL_LOCK x n ∨
    d.pllShown n target = d := by
  unfold pllShown
  split
  · exact ⟨1, .inl rfl⟩
  · split
    · exact ⟨0, .inl rfl⟩
    · exact ⟨0, .inr rfl⟩

theorem lane_pllShown (n target m : Nat) : (d.pllShown n target).lane m = d.lane m := by
  obtain ⟨x, h | h⟩ := d.pllShown_eq n target <;> rw [h]
  exact d.lane_lput _ _ _

theorem lget_pllShown (target : Nat) {f : Fld} (hf : F.MLANE_LANE_STS_PLL_LOCK.apart f = true) :
    (d.pllShown n target).lget f n = d.lget f n := by
  obtain ⟨x, h | h⟩ := d.pllShown_eq n target <;> rw [h]
  exact d.lget_lput_apart _ hf

theorem word_pllShown (target : Nat) {o : Nat} (ho : o ≠ 0x60) :
    (d.pllShown n target).word (pgAddr (lanePage n) + o) = d.word (pgAddr (lanePage n) + o) := by
  obtain ⟨x, h | h⟩ := d.pllShown_eq n target <;> rw [h]
  exact d.word_lput_off _ ⟨rfl, ho⟩

theorem gating_pllShown (n target : Nat) : (d.pllShown n target).gating = d.gating := by
  obtain ⟨x, h | h⟩ := d.pllShown_eq n target <;> rw [h]
  exact d.gating_lput _ _ (by decide)

theorem lget_pllShown_lock {target : Nat} (h : target ≠ 2) : (d.pllShown n target).lget F.MLANE_LANE_STS_PLL_LOCK n = 1 := by
  rw [pllShown, if_pos h, lget_lput_self _ _ (by decide)]
  rfl

/-- The receive rate in use is all that a lane in L0 shows anew. -/
theorem showRxRate_eq (n : Nat) : ∃ x, d.showRxRate n = d.lput F.MLANE_RX_RATE_STS_RATE x n ∨ d.showRxRate n = d := by
  unfold showRxRate
  split
  · next h => exact ⟨_, .inl (d.put_eq_lput h.1 rfl _)⟩
  · exact ⟨0, .inr rfl⟩

/-- The receive half has entered a state. -/
def rxEntered (d : Dev) (n target : Nat) : Dev :=
  (((d.lput F.MLANE_LANE_STS_RX_LSTATE target n).lirq n 9).setLane n
    { d.lane n with rxTarget := none, rxNext := none }).pllShown n target

/-- The transmit half has entered a state. -/
def txEntered (d : Dev) (n target : Nat) : Dev :=
  (((d.lput F.MLANE_LANE_STS_TX_LSTATE target n).lirq n 9).setLane n
    { d.lane n with txTarget := none, txNext := none }).pllShown n target

/-- The receive half is about to acquire, from the values kept. -/
def rxReady (d : Dev) (n : Nat) : Dev := (d.showRxRate n).updLane n (fun l => { l with keep := true })

/-- In L0 the receive half acquires anew. -/
def rxRestored (d : Dev) (n : Nat) : Dev := (d.rxReady n).acquire n

/-- In L0 the transmitter drives again. -/
def txRestored (d : Dev) (n : Nat) : Dev := (d.updLane n (fun l => { l with txWait := false })).txDrive n

theorem lstateDone_rx {k : Nat} (htarget : (d.lane n).rxTarget = some k) (hnext : (d.lane n).rxNext = none) :
    d.lstateDone n false = if k ≠ 0 then d.rxEntered n k else (d.rxEntered n k).rxRestored n := by
  unfold lstateDone
  simp only [Bool.false_eq_true, if_false, htarget, hnext]
  rfl

theorem lstateDone_tx {k : Nat} (htarget : (d.lane n).txTarget = some k) (hnext : (d.lane n).txNext = none) :
    d.lstateDone n true = if k ≠ 0 then d.txEntered n k else (d.txEntered n k).txRestored n := by
  unfold lstateDone
  simp only [if_true, htarget, hnext]
  rfl

/-! What the entries show. -/

theorem lane_rxEntered (n k : Nat) : (d.rxEntered n k).lane n = { d.lane n with rxTarget := none, rxNext := none } := by
  rw [rxEntered, lane_pllShown, lane_setLane_self]

theorem lane_txEntered (n k : Nat) : (d.txEntered n k).lane n = { d.lane n with txTarget := none, txNext := none } := by
  rw [txEntered, lane_pllShown, lane_setLane_self]

theorem lget_rxEntered_state {k : Nat} (hk : k < 4) : (d.rxEntered n k).lget F.MLANE_LANE_STS_RX_LSTATE n = k := by
  rw [rxEntered, lget_pllShown _ _ (by decide), lget_setLane, lget_lirq _ _ (by decide), lget_lput_self _ _ (by decide)]
  exact Nat.mod_eq_of_lt hk

theorem lget_txEntered_state {k : Nat} (hk : k < 4) : (d.txEntered n k).lget F.MLANE_LANE_STS_TX_LSTATE n = k := by
  rw [txEntered, lget_pllShown _ _ (by decide), lget_setLane, lget_lirq _ _ (by decide), lget_lput_self _ _ (by decide)]
  exact Nat.mod_eq_of_lt hk

theorem irqBit_rxEntered (n k : Nat) : ((d.rxEntered n k).word (pgAddr (lanePage n) + 0x10)).getLsbD 9 = true := by
  rw [rxEntered, word_pllShown _ _ (by decide), word_setLane, word_lirq_self, BitVec.getLsbD_or]
  exact Bool.or_true _

theorem irqBit_txEntered (n k : Nat) : ((d.txEntered n k).word (pgAddr (lanePage n) + 0x10)).getLsbD 9 = true := by
  rw [txEntered, word_pllShown _ _ (by decide), word_setLane, word_lirq_self, BitVec.getLsbD_or]
  exact Bool.or_true _

theorem lget_rxEntered_ctle (n k : Nat) : (d.rxEntered n k).lget F.MLANE_RX_EQ_STS_CTLE n = d.lget F.MLANE_RX_EQ_STS_CTLE n := by
  rw [rxEntered, lget_pllShown _ _ (by decide), lget_setLane, lget_lirq _ _ (by decide), lget_lput_apart _ _ (by decide)]

theorem gating_rxEntered (n k : Nat) : (d.rxEntered n k).gating = d.gating := by
  rw [rxEntered, gating_pllShown, gating_setLane, gating_lirq, gating_lput _ _ _ (by decide)]

theorem gating_txEntered (n k : Nat) : (d.txEntered n k).gating = d.gating := by
  rw [txEntered, gating_pllShown, gating_setLane, gating_lirq, gating_lput _ _ _ (by decide)]

/-! What the halves of a lane in L0 take up. -/

theorem lane_rxReady (n : Nat) : (d.rxReady n).lane n = { d.lane n with keep := true } := by
  obtain ⟨x, h | h⟩ := d.showRxRate_eq n <;> rw [rxReady, h, lane_updLane_self]
  rw [lane_lput]

theorem lget_rxReady {f : Fld} (hf : F.MLANE_RX_RATE_STS_RATE.apart f = true) : (d.rxReady n).lget f n = d.lget f n := by
  obtain ⟨x, h | h⟩ := d.showRxRate_eq n <;> rw [rxReady, h, lget_updLane]
  exact d.lget_lput_apart _ hf

theorem word_rxReady {o : Nat} (ho : o ≠ F.MLANE_RX_RATE_STS_RATE.off) :
    (d.rxReady n).word (pgAddr (lanePage n) + o) = d.word (pgAddr (lanePage n) + o) := by
  obtain ⟨x, h | h⟩ := d.showRxRate_eq n <;> rw [rxReady, h, word_updLane]
  exact d.word_lput_off _ ⟨rfl, ho⟩

theorem gating_rxRestored (n : Nat) : (d.rxRestored n).gating = d.gating := by
  rw [rxRestored, gating_acquire, rxReady, gating_updLane]
  obtain ⟨x, h | h⟩ := d.showRxRate_eq n <;> rw [h]
  exact d.gating_lput _ _ (by decide)

section
variable (hn : n < 112)
include hn

theorem lane_rxRestored : (d.rxRestored n).lane n = { d.lane n with keep := true, acq := true } := by
  rw [rxRestored, lane_acquire _ hn, lane_rxReady]

theorem lget_rxRestored {f : Fld} (hf : f.unacquired = true) (hrate : F.MLANE_RX_RATE_STS_RATE.apart f = true) :
    (d.rxRestored n).lget f n = d.lget f n := by
  rw [rxRestored, lget_acquire _ hn hf, lget_rxReady _ hrate]

theorem lget_rxRestored_ctle : (d.rxRestored n).lget F.MLANE_RX_EQ_STS_CTLE n = d.lget F.MLANE_RX_EQ_STS_CTLE n := by
  rw [rxRestored, lget_acquire_ctle _ hn, lane_rxReady, if_pos rfl, lget_rxReady _ (by decide)]

theorem word_rxRestored_irq : (d.rxRestored n).word (pgAddr (lanePage n) + 0x10) = d.word (pgAddr (lanePage n) + 0x10) := by
  rw [rxRestored, word_acquire_off _ hn (by decide), word_rxReady _ (by decide)]

theorem lget_txRestored {f : Fld} (hf : f.page = 0 ∧ f.off < 0x1000 ∧ f.off ≠ 0x40) :
    (d.txRestored n).lget f n = d.lget f n := by
  rw [txRestored, lget_txDrive _ hn hf, lget_updLane]

theorem word_txRestored_irq : (d.txRestored n).word (pgAddr (lanePage n) + 0x10) = d.word (pgAddr (lanePage n) + 0x10) := by
  rw [txRestored, word_txDrive _ (inLanes_lanePage hn (by decide)) (by omega), word_updLane]

end

theorem txTarget_txRestored (n : Nat) : ((d.txRestored n).lane n).txTarget = (d.lane n).txTarget := by
  obtain ⟨tr, tf, g, h⟩ := (d.updLane n fun l => { l with txWait := false }).lane_txDrive n
  rw [txRestored, h, lane_updLane_self]

theorem gating_txRestored (n : Nat) : (d.txRestored n).gating = d.gating := by
  rw [txRestored, gating_txDrive, gating_updLane]

end
end Dev

section
variable {s : State} (t : Nat) {n : Fin 112} {k : Nat} (hr : s.dev.inReset = false) (hc : s.dev.calm) (hk : k < 4)
include hr hc hk

theorem answers_lstateDone_rx (htarget : (s.dev.lane n).rxTarget = some k) (hnext : (s.dev.lane n).rxNext = none) :
    Answers (.lstateDone t n false) s (fun d => d.lget F.MLANE_LANE_STS_RX_LSTATE n = k ∧ (d.lane n).rxTarget = none ∧
      (d.word (pgAddr (Dev.lanePage n) + 0x10)).getLsbD 9 = true ∧ (k ≠ 2 → d.lget F.MLANE_LANE_STS_PLL_LOCK n = 1) ∧
      (k = 0 → (d.lane n).acq = true ∧ d.lget F.MLANE_RX_EQ_STS_CTLE n = s.dev.lget F.MLANE_RX_EQ_STS_CTLE n)) := by
  have heq := (s.dev.atTime t).lstateDone_rx htarget hnext
  have hports := ((s.dev.atTime t).lstateDone n false).laneSide_portsRefresh
  refine answers_onCtx hr (f := fun d => ((d.atTime t).lstateDone n false).portsRefresh) rfl hc ?_ ?_
  · rw [Dev.gating_portsRefresh, heq]
    split
    · rw [Dev.gating_rxEntered, Dev.gating_atTime]
    · rw [Dev.gating_rxRestored, Dev.gating_rxEntered, Dev.gating_atTime]
  · rw [Dev.lget_of_laneSide n.isLt hports (by decide), Dev.lget_of_laneSide n.isLt hports (by decide),
      Dev.lget_of_laneSide n.isLt hports (by decide), Dev.laneSide_lane hports, Dev.word_of_laneSide n.isLt hports (by decide), heq]
    split
    · next hlow =>
      refine ⟨Dev.lget_rxEntered_state _ hk, ?_, Dev.irqBit_rxEntered _ _ _, fun h => Dev.lget_pllShown_lock _ h,
        fun h => absurd h hlow⟩
      rw [Dev.lane_rxEntered]
    · next hzero =>
      obtain rfl : k = 0 := not_not.mp hzero
      rw [Dev.lget_rxRestored _ n.isLt (by decide) (by decide), Dev.lget_rxRestored _ n.isLt (by decide) (by decide),
        Dev.lget_rxRestored_ctle _ n.isLt, Dev.word_rxRestored_irq _ n.isLt, Dev.lane_rxRestored _ n.isLt, Dev.lane_rxEntered]
      exact ⟨Dev.lget_rxEntered_state _ hk, rfl, Dev.irqBit_rxEntered _ _ _, fun h => Dev.lget_pllShown_lock _ h,
        fun _ => ⟨rfl, Dev.lget_rxEntered_ctle _ _ _⟩⟩

theorem answers_lstateDone_tx (htarget : (s.dev.lane n).txTarget = some k) (hnext : (s.dev.lane n).txNext = none) :
    Answers (.lstateDone t n true) s (fun d => d.lget F.MLANE_LANE_STS_TX_LSTATE n = k ∧ (d.lane n).txTarget = none ∧
      (d.word (pgAddr (Dev.lanePage n) + 0x10)).getLsbD 9 = true ∧ (k ≠ 2 → d.lget F.MLANE_LANE_STS_PLL_LOCK n = 1)) := by
  have heq := (s.dev.atTime t).lstateDone_tx htarget hnext
  have hports := ((s.dev.atTime t).lstateDone n true).laneSide_portsRefresh
  refine answers_onCtx hr (f := fun d => ((d.atTime t).lstateDone n true).portsRefresh) rfl hc ?_ ?_
  · rw [Dev.gating_portsRefresh, heq]
    split
    · rw [Dev.gating_txEntered, Dev.gating_atTime]
    · rw [Dev.gating_txRestored, Dev.gating_txEntered, Dev.gating_atTime]
  · rw [Dev.lget_of_laneSide n.isLt hports (by decide), Dev.lget_of_laneSide n.isLt hports (by decide),
      Dev.laneSide_lane hports, Dev.word_of_laneSide n.isLt hports (by decide), heq]
    split
    · refine ⟨Dev.lget_txEntered_state _ hk, ?_, Dev.irqBit_txEntered _ _ _, fun h => Dev.lget_pllShown_lock _ h⟩
      rw [Dev.lane_txEntered]
    · rw [Dev.lget_txRestored _ n.isLt (by decide), Dev.lget_txRestored _ n.isLt (by decide),
        Dev.word_txRestored_irq _ n.isLt, Dev.txTarget_txRestored, Dev.lane_txEntered]
      exact ⟨Dev.lget_txEntered_state _ hk, rfl, Dev.irqBit_txEntered _ _ _, fun h => Dev.lget_pllShown_lock _ h⟩

end
end Sys2Proof.Machine
end

section
/-! PROOF. The markers of a bond, sent and received, and the end of link training (R92, R107, R108, R109, R111). -/
namespace Sys2Proof.Machine

/-! Markers sent (R107). -/

/-- The BIP-8 of blocks given one by one. -/
theorem bip8_each (bs : List Block66) : bip8 (bs.map fun q => (1, q)) = (bs.map fun q => xorBytes q.2).foldl (· ^^^ ·) 0 := by
  rw [bip8, List.foldl_map, List.foldl_map]
  rfl

namespace Dev
section
variable (d : Dev)

/-- The blocks that a lane of a bond takes of those dealt to it. -/
def bondShare (bs : List Block66) (w k : Nat) : List Block66 := (bs.zipIdx.filter (fun q => q.2 % w = k)).map (·.1)

/-- A lane of a bond sends its share of the blocks and its marker. -/
def markerSent (id w : Nat) (b : BondTx) (bs : List Block66) (d : Dev) (n : Nat) : Dev :=
  if (d.lane n).txIdle || d.act F.MLANE_TX_CFG_TX_MODE n ≠ 0 then d
  else
    let k := d.act F.MLANE_BOND_BOND_LANE n
    let inv := d.act F.MLANE_TX_CFG_TX_POL_INV n = 1
    let mine := bondShare bs w k
    let p := markerBytes k id (d.act F.MLANE_BOND_BOND_WIDTH n) b.seq (bip8 (mine.map (fun q => (1, q))))
    let d := if mine.isEmpty then d else d.emit (.blocks n inv mine)
    (d.emit (.marker n inv p)).updLane n (fun l => { l with sent := some (p, mine) })

theorem bondMarkerTx_none {id : Nat} (stream : List BondItem) (h : d.bondLanes id = []) : d.bondMarkerTx id stream = d := by
  unfold bondMarkerTx
  dsimp only
  rw [h]
  rfl

/-- The lanes of a bond send what is due, and the bond's transmitter goes on. -/
def bondSent (d : Dev) (id : Nat) (tx : BondTx) (x : List Block66 × List Block66 × List (List Byte)) : Dev :=
  (d.bondLanes id).foldl (markerSent id (d.bondLanes id).length tx (scramble x.1 tx.scr).1)
    { d with bondTx := sset (fun _ => {}) d.bondTx id
              { scr := (scramble x.1 tx.scr).2, rest := x.2.1, queue := x.2.2, seq := (tx.seq + 1) % 2 ^ 24 } }

theorem bondMarkerTx_eq {id : Nat} (stream : List BondItem) (h : d.bondLanes id ≠ []) :
    d.bondMarkerTx id stream = d.bondSent id (sget (fun _ => {}) d.bondTx id)
      (bondBlocks (sget (fun _ => {}) d.bondTx id) (markerGap * (d.bondLanes id).length) stream) := by
  unfold bondMarkerTx
  exact if_neg (mt List.length_eq_zero_iff.1 h)

section
variable {d} (id w : Nat) (b : BondTx) (bs : List Block66)

/-- Registers, what the bonds' transmitters keep, the gates, and which transmitters are idle. -/
def bondKept (d : Dev) : List (Nat × Word) × List (Nat × BondTx) ×
    (HandSt × List (Nat × PowUnit) × Bool × List (Nat × List FenceRec) × (Nat → Word)) × (Nat → Bool) :=
  (d.regs, d.bondTx, d.gating, fun m => (d.lane m).txIdle)

theorem bondKept_markerSent (n : Nat) : (markerSent id w b bs d n).bondKept = d.bondKept := by
  have hsent (e : Dev) (x : Option (List Byte × List Block66)) :
      (fun m => ((e.updLane n fun l => { l with sent := x }).lane m).txIdle) = fun m => (e.lane m).txIdle := by
    funext m
    by_cases hm : m = n
    · rw [hm, lane_updLane_self]
    · rw [lane_updLane_ne _ _ hm]
  unfold markerSent
  split
  · rfl
  · dsimp only
    split <;> rw [bondKept, hsent] <;> rfl

theorem mem_out_markerSent {o : Out} (n : Nat) (h : o ∈ d.out) : o ∈ (markerSent id w b bs d n).out := by
  unfold markerSent
  split
  · exact h
  · dsimp only
    split
    · exact List.mem_cons_of_mem _ h
    · exact List.mem_cons_of_mem _ (List.mem_cons_of_mem _ h)

theorem mem_out_foldl_markerSent {o : Out} (l : List Nat) (h : o ∈ d.out) :
    o ∈ (l.foldl (markerSent id w b bs) d).out := by
  induction l generalizing d with
  | nil => exact h
  | cons n l ih => exact ih (mem_out_markerSent id w b bs n h)

/-- Sending changes of the bond's transmitter, of registers, of gates and of idle transmitters what it says it does. -/
theorem bondKept_bondSent (d : Dev) (id : Nat) (tx : BondTx) (x : List Block66 × List Block66 × List (List Byte)) :
    (d.bondSent id tx x).bondKept = (d.regs, sset (fun _ => {}) d.bondTx id
      { scr := (scramble x.1 tx.scr).2, rest := x.2.1, queue := x.2.2, seq := (tx.seq + 1) % 2 ^ 24 }, d.gating,
      fun m => (d.lane m).txIdle) :=
  foldl_keeps bondKept (fun _ n _ => bondKept_markerSent _ _ _ _ n) _

/-- What lane `n` sends. -/
def markerOuts (id w : Nat) (b : BondTx) (bs : List Block66) (d : Dev) (n : Nat) : List Out :=
  let k := d.act F.MLANE_BOND_BOND_LANE n
  let inv := decide (d.act F.MLANE_TX_CFG_TX_POL_INV n = 1)
  let mine := bondShare bs w k
  .marker n inv (markerBytes k id (d.act F.MLANE_BOND_BOND_WIDTH n) b.seq (bip8 (mine.map (fun q => (1, q))))) ::
    if mine = [] then [] else [.blocks n inv mine]

theorem mem_out_of_markerOuts {n : Nat} {o : Out} (hidle : (d.lane n).txIdle = false)
    (hmode : d.act F.MLANE_TX_CFG_TX_MODE n = 0) (ho : o ∈ markerOuts id w b bs d n) : o ∈ (markerSent id w b bs d n).out := by
  unfold markerSent
  rw [if_neg (by simp [hidle, hmode])]
  unfold markerOuts at ho
  dsimp only at ho ⊢
  by_cases hnone : bondShare bs w (d.act F.MLANE_BOND_BOND_LANE n) = []
  · rw [if_pos hnone, List.mem_singleton] at ho
    rw [ho]
    exact List.mem_cons_self
  · rw [if_neg hnone, List.mem_cons, List.mem_singleton] at ho
    rw [if_neg (by simpa using hnone)]
    rcases ho with rfl | rfl
    · exact List.mem_cons_self
    · exact List.mem_cons_of_mem _ List.mem_cons_self

/-- Every lane that drives in DATA mode sends its blocks and its marker. -/
theorem mem_out_of_mem_bond {l : List Nat} {n : Nat} {o : Out} (hn : n ∈ l) (hidle : (d.lane n).txIdle = false)
    (hmode : d.act F.MLANE_TX_CFG_TX_MODE n = 0) (ho : o ∈ markerOuts id w b bs d n) :
    o ∈ (l.foldl (markerSent id w b bs) d).out := by
  induction l generalizing d with
  | nil => exact absurd hn List.not_mem_nil
  | cons m l ih =>
    by_cases hm : n = m
    · subst hm
      exact mem_out_foldl_markerSent id w b bs l (mem_out_of_markerOuts id w b bs hidle hmode ho)
    · have hkept := bondKept_markerSent (d := d) id w b bs m
      have hregs : (markerSent id w b bs d m).regs = d.regs := congrArg (·.1) hkept
      have hact (f : Fld) : (markerSent id w b bs d m).act f n = d.act f n := by
        rw [act, act, bitsAt, bitsAt, word_congr hregs]
      refine ih ((List.mem_cons.1 hn).resolve_left hm) ((congrFun (congrArg (·.2.2.2) hkept) n).trans hidle)
        ((hact _).trans hmode) ?_
      unfold markerOuts at ho ⊢
      simpa only [hact] using ho

end

end
end Dev

section
variable {s : State} (t : Nat) {bond : Fin 16} (stream : List BondItem) (hr : s.dev.inReset = false)
include hr

theorem exec_bondMarkerTx_none (h : s.dev.bondLanes bond = []) :
    exec (.bondMarkerTx t bond stream) s = .next { s with dev := s.dev.atTime t } :=
  exec_of_onDev (f := fun d => (d.atTime t).bondMarkerTx bond stream) rfl hr ((s.dev.atTime t).bondMarkerTx_none stream h) hr

theorem answers_bondMarkerTx (h : s.dev.bondLanes bond ≠ []) {tx : BondTx} (htx : tx = sget (fun _ => {}) s.dev.bondTx bond)
    {x : List Block66 × List Block66 × List (List Byte)}
    (hx : x = Dev.bondBlocks tx (markerGap * (s.dev.bondLanes bond).length) stream) :
    Answers (.bondMarkerTx t bond stream) s (fun d => d.regs = s.dev.regs ∧
      sget (fun _ => {}) d.bondTx bond =
        { scr := (scramble x.1 tx.scr).2, rest := x.2.1, queue := x.2.2, seq := (tx.seq + 1) % 2 ^ 24 } ∧
      ∀ n ∈ s.dev.bondLanes bond, (s.dev.lane n).txIdle = false → s.dev.act F.MLANE_TX_CFG_TX_MODE n = 0 →
        ∀ o ∈ Dev.markerOuts bond (s.dev.bondLanes bond).length tx (scramble x.1 tx.scr).1 s.dev n, o ∈ d.out) := by
  subst htx hx
  have heq := (s.dev.atTime t).bondMarkerTx_eq stream h
  have hkept := Dev.bondKept_bondSent (s.dev.atTime t) bond (sget (fun _ => {}) s.dev.bondTx bond)
    (Dev.bondBlocks (sget (fun _ => {}) s.dev.bondTx bond) (markerGap * (s.dev.bondLanes bond).length) stream)
  refine answers_onDev hr (f := fun d => (d.atTime t).bondMarkerTx bond stream) rfl ?_ ?_
  · rw [heq]
    exact congrArg (·.2.2.1) hkept
  · rw [heq]
    refine ⟨congrArg (·.1) hkept, ?_, fun n hn hidle hmode o ho => ?_⟩
    · exact (congrArg (fun k => sget (fun _ => {}) k.2.1 (bond : Nat)) hkept).trans (sget_sset_self _ _ _ _)
    · exact Dev.mem_out_of_mem_bond _ _ _ _ hn hidle hmode ho

end
end Sys2Proof.Machine
end

section
/-! PROOF. Markers received by a bond lane, and the end of link training (R92, R107, R108, R109, R111). -/
namespace Sys2Proof.Machine
namespace Dev
section
variable (d : Dev) {n : Nat}

/-- Without LOOP_NEAR the receiver sees what stands at its input, with the right polarity. -/
theorem markerSeen_of_ball (m : MarkerRx) (h : d.loopNear n = false) : d.markerSeen n m =
    if m.inverted = decide (d.act F.MLANE_RX_CFG_RX_POL_INV n = 1) then m else { m with payload := none } := by
  unfold markerSeen
  simp only [h, Bool.false_eq_true, if_false]
  refine if_congr ⟨fun heq => ?_, fun heq => ?_⟩ rfl rfl
  · rw [Bool.eq_iff_iff, decide_eq_true_iff, heq]
  · rw [heq, decide_eq_true_eq]

/-- In LOOP_FAR what is received leaves again; then it counts as a marker or as a missing one. -/
theorem bondMarkerRx_eq (m : MarkerRx) (hen : d.act F.MLANE_BOND_BOND_EN n = 1) : ∃ o, d.bondMarkerRx n m =
    if d.rxData n && d.markerValid n (d.markerSeen n m) then
      (d.outSet o).markerGood n (d.markerSeen n m) ((d.markerSeen n m).payload.getD [])
    else (d.outSet o).markerMissed n (d.markerSeen n m) := by
  have hloop : ∃ o, (if d.loopFar n && d.rxData n && !(d.lane n).txIdle then d.emit (.loopMarker n m) else d) = d.outSet o := by
    split
    · exact ⟨_, rfl⟩
    · exact ⟨_, rfl⟩
  obtain ⟨o, ho⟩ := hloop
  refine ⟨o, ?_⟩
  unfold bondMarkerRx
  rw [if_neg (by simp [hen]), ho]
  rfl

/-! A valid marker (R108). -/

theorem markerValid_of_payload {m : MarkerRx} {ln w s0 s1 s2 bip : Byte}
    (hpayload : m.payload = some [0xB6, ln, BitVec.ofNat 8 (d.act F.MLANE_BOND_BOND_ID n), w, s0, s1, s2, bip])
    (hln : ln.toNat < w.toNat) (hw : w.toNat = d.act F.MLANE_BOND_BOND_WIDTH n)
    (hplace : markerOnTime m = true ∨ ((d.lane n).mkGood = 0 ∧ d.lget F.MLANE_LANE_STS_MARKER_LOCK n = 0))
    (hskew : m.skew.natAbs ≤ 2048) : d.markerValid n m = true := by
  have hid : d.act F.MLANE_BOND_BOND_ID n < 2 ^ 4 := bitsOf_lt _ _ _
  have hbyte : (BitVec.ofNat 8 (d.act F.MLANE_BOND_BOND_ID n)).toNat = d.act F.MLANE_BOND_BOND_ID n := by
    rw [BitVec.toNat_ofNat]
    omega
  unfold markerValid
  simp only [hpayload, Bool.and_eq_true, Bool.or_eq_true, decide_eq_true_eq]
  exact ⟨⟨⟨⟨⟨trivial, hln⟩, hbyte⟩, hw⟩, hplace⟩, hskew⟩

theorem markerValid_of_none {m : MarkerRx} (h : m.payload = none) : d.markerValid n m = false := by
  unfold markerValid
  rw [h]

/-- The lane keeps note of a valid marker. -/
def markerKept (d : Dev) (n : Nat) (m : MarkerRx) (p : List Byte) : Dev := d.updLane n (fun l =>
  { l with mkGood := l.mkGood + 1, mkBad := 0, mkSeq := leVal ((p.drop 4).take 3), mkLane := (p.getD 1 0).toNat
           mkAt := some d.house, got := m.blocks
           mkHeld := if d.lget F.MLANE_LANE_STS_MARKER_LOCK n = 1 then l.mkHeld + 1 else 0 })

/-- Its skew is reported, and a BIP that is not that of the blocks counted. -/
def markerShown (d : Dev) (n : Nat) (m : MarkerRx) (p : List Byte) : Dev :=
  if markerOnTime m && p.getD 7 0 ≠ bip8 m.blocks then (d.lput F.MLANE_BOND_STS_SKEW (unsgn 13 m.skew) n).lcount F.MLANE_BIP_ERR n 1
  else d.lput F.MLANE_BOND_STS_SKEW (unsgn 13 m.skew) n

/-- At the second valid marker in a row the lane locks. -/
def markerLocked (d : Dev) (n : Nat) (locked : Bool) : Dev :=
  if !locked ∧ (d.lane n).mkGood ≥ 2 then d.lput F.MLANE_LANE_STS_MARKER_LOCK 1 n else d

theorem markerGood_eq (hn : n < 96) (m : MarkerRx) (p : List Byte) : d.markerGood n m p =
    (((d.markerKept n m p).markerShown n m p).markerLocked n (d.lget F.MLANE_LANE_STS_MARKER_LOCK n = 1)).bondRound
      (d.act F.MLANE_BOND_BOND_ID n) := by
  unfold markerGood
  simp only [put_eq_lput _ hn (show F.MLANE_BOND_STS_SKEW.blk = .mlane from rfl),
    count_eq_lcount _ hn (show F.MLANE_BIP_ERR.blk = .mlane from rfl)]
  rfl

theorem lane_markerKept (n : Nat) (m : MarkerRx) (p : List Byte) : (d.markerKept n m p).lane n =
    { d.lane n with mkGood := (d.lane n).mkGood + 1, mkBad := 0, mkSeq := leVal ((p.drop 4).take 3), mkLane := (p.getD 1 0).toNat
                    mkAt := some d.house, got := m.blocks
                    mkHeld := if d.lget F.MLANE_LANE_STS_MARKER_LOCK n = 1 then (d.lane n).mkHeld + 1 else 0 } :=
  lane_updLane_self _ _ _

theorem lane_markerShown (n : Nat) (m : MarkerRx) (p : List Byte) (k : Nat) : (d.markerShown n m p).lane k = d.lane k := by
  unfold markerShown
  split
  · rw [lane_lcount, lane_lput]
  · rw [lane_lput]

theorem lane_markerLocked (n : Nat) (locked : Bool) (k : Nat) : (d.markerLocked n locked).lane k = d.lane k := by
  unfold markerLocked
  split
  · rw [lane_lput]
  · rfl

theorem lget_markerShown_skew (m : MarkerRx) (p : List Byte) :
    (d.markerShown n m p).lget F.MLANE_BOND_STS_SKEW n = unsgn 13 m.skew := by
  have hskew : unsgn 13 m.skew % 2 ^ 13 = unsgn 13 m.skew := by
    unfold unsgn
    omega
  unfold markerShown
  split
  · rw [lget_lcount_apart _ _ (by decide), lget_lput_self _ _ (by decide)]
    exact hskew
  · rw [lget_lput_self _ _ (by decide)]
    exact hskew

theorem lget_markerShown_bip (m : MarkerRx) (p : List Byte) : (d.markerShown n m p).lget F.MLANE_BIP_ERR n =
    if markerOnTime m = false ∨ p.getD 7 0 = bip8 m.blocks then d.lget F.MLANE_BIP_ERR n
    else min (d.lget F.MLANE_BIP_ERR n + 1) 0xFFFFFFFF := by
  have hcond : (markerOnTime m && p.getD 7 0 ≠ bip8 m.blocks) = true ↔
      ¬ (markerOnTime m = false ∨ p.getD 7 0 = bip8 m.blocks) := by
    rw [not_or, Bool.and_eq_true, decide_eq_true_eq, Bool.not_eq_false]
  unfold markerShown
  by_cases h : markerOnTime m = false ∨ p.getD 7 0 = bip8 m.blocks
  · rw [if_pos h, if_neg (mt hcond.1 (not_not.mpr h)), lget_lput_apart _ _ (by decide)]
  · rw [if_neg h, if_pos (hcond.2 h), lget_lcount_self _ _ (by decide), lget_lput_apart _ _ (by decide)]

theorem lget_markerShown {f : Fld} (m : MarkerRx) (p : List Byte) (hskew : F.MLANE_BOND_STS_SKEW.apart f = true)
    (hbip : F.MLANE_BIP_ERR.apart f = true) : (d.markerShown n m p).lget f n = d.lget f n := by
  unfold markerShown
  split
  · rw [lget_lcount_apart _ _ hbip, lget_lput_apart _ _ hskew]
  · rw [lget_lput_apart _ _ hskew]

theorem lget_markerLocked {f : Fld} (locked : Bool) (hf : F.MLANE_LANE_STS_MARKER_LOCK.apart f = true) :
    (d.markerLocked n locked).lget f n = d.lget f n := by
  unfold markerLocked
  split
  · rw [lget_lput_apart _ _ hf]
  · rfl

theorem lget_markerLocked_lock {locked : Bool} (hlocked : locked = decide (d.lget F.MLANE_LANE_STS_MARKER_LOCK n = 1))
    (hgood : 2 ≤ (d.lane n).mkGood) : (d.markerLocked n locked).lget F.MLANE_LANE_STS_MARKER_LOCK n = 1 := by
  subst hlocked
  unfold markerLocked
  by_cases hlock : d.lget F.MLANE_LANE_STS_MARKER_LOCK n = 1
  · rw [if_neg (by simp [hlock]), hlock]
  · rw [if_pos ⟨by simp [hlock], hgood⟩, lget_lput_self _ _ (by decide)]
    rfl

theorem gating_markerShown (n : Nat) (m : MarkerRx) (p : List Byte) : (d.markerShown n m p).gating = d.gating := by
  unfold markerShown
  split <;> simp (disch := decide)

theorem gating_markerLocked (n : Nat) (locked : Bool) : (d.markerLocked n locked).gating = d.gating := by
  unfold markerLocked
  split
  · exact d.gating_lput _ _ (by decide)
  · rfl

theorem gating_markerGood (hn : n < 96) (m : MarkerRx) (p : List Byte) : (d.markerGood n m p).gating = d.gating := by
  rw [markerGood_eq _ hn, gating_bondRound, gating_markerLocked, gating_markerShown, markerKept, gating_updLane]

/-! A missing marker. -/

/-- The lane keeps note that its marker is missing. -/
def markerGone (d : Dev) (n : Nat) (m : MarkerRx) : Dev := d.updLane n (fun l =>
  if d.lget F.MLANE_LANE_STS_MARKER_LOCK n = 1 then
    { l with mkGood := 0, mkBad := l.mkBad + 1, mkSeq := (l.mkSeq + 1) % 2 ^ 24, mkAt := some d.house, got := m.blocks }
  else { l with mkGood := 0, mkBad := l.mkBad + 1, mkAt := none })

/-- Marker lock ends. -/
def markerUnlocked (d : Dev) (n : Nat) : Dev :=
  ((d.lput F.MLANE_LANE_STS_MARKER_LOCK 0 n).updLane n (fun l => { l with mkHeld := 0, mkAt := none })).lirq n 6

theorem markerMissed_eq (n : Nat) (m : MarkerRx) : d.markerMissed n m =
    if d.lget F.MLANE_LANE_STS_MARKER_LOCK n ≠ 1 then d.markerGone n m
    else if 4 ≤ ((d.markerGone n m).lane n).mkBad then
      ((d.markerGone n m).markerUnlocked n).bondDown (d.act F.MLANE_BOND_BOND_ID n)
    else (d.markerGone n m).bondRound (d.act F.MLANE_BOND_BOND_ID n) := by
  unfold markerMissed markerGone
  by_cases h : d.lget F.MLANE_LANE_STS_MARKER_LOCK n = 1
  · simp [h]
    rfl
  · simp [h]

theorem counts_markerGone (n : Nat) (m : MarkerRx) : ((d.markerGone n m).lane n).mkGood = 0 ∧
    ((d.markerGone n m).lane n).mkBad = (d.lane n).mkBad + 1 := by
  rw [markerGone, lane_updLane_self]
  split <;> exact ⟨rfl, rfl⟩

/-- What a missing marker leaves of the lane's state, its words and its gates. -/
theorem bondSide_markerMissed (n : Nat) (m : MarkerRx) : (d.markerMissed n m).bondSide =
    (if d.lget F.MLANE_LANE_STS_MARKER_LOCK n = 1 ∧ 3 ≤ (d.lane n).mkBad then (d.markerGone n m).markerUnlocked n
      else d.markerGone n m).bondSide := by
  obtain ⟨-, hbad⟩ := d.counts_markerGone n m
  rw [markerMissed_eq, hbad]
  by_cases hlock : d.lget F.MLANE_LANE_STS_MARKER_LOCK n = 1
  · rw [if_neg (not_not.mpr hlock)]
    by_cases hrun : 3 ≤ (d.lane n).mkBad
    · rw [if_pos (by omega), if_pos ⟨hlock, hrun⟩, bondSide_bondDown]
    · rw [if_neg (by omega), if_neg fun h => hrun h.2, bondSide_bondRound]
  · rw [if_pos hlock, if_neg fun h => hlock h.1]

theorem gating_markerMissed (n : Nat) (m : MarkerRx) : (d.markerMissed n m).gating = d.gating := by
  have hgone : (d.markerGone n m).gating = d.gating := rfl
  have hunlocked : ((d.markerGone n m).markerUnlocked n).gating = d.gating := by
    rw [markerUnlocked, gating_lirq, gating_updLane, gating_lput _ _ _ (by decide), hgone]
  rw [markerMissed_eq]
  split
  · exact hgone
  · split
    · rw [gating_bondDown, hunlocked]
    · rw [gating_bondRound, hgone]

/-! Link training (R92). -/

theorem irq_nlane (i b : Nat) : d.irq .nlane i 0 b = d.lirq (96 + i) b := by
  rw [lirq, laneBlk, laneIdx, if_neg (by omega), if_neg (by omega), Nat.add_sub_cancel_left]

/-- A network lane whose data passes again changes no word. -/
theorem word_laneBack_net (i a : Nat) : (d.laneBack (96 + i)).word a = d.word a := by
  unfold laneBack
  rw [if_neg (by omega)]
  split <;> rfl

/-- Training has ended: the coefficients stand in TX_FIR, and the event is set. -/
def trained (d : Dev) (i : Nat) (ok : Bool) (fir : Word) : Dev :=
  ((d.updLane (96 + i) (fun l => { l with training := false, trainFailed := !ok })).setWord
    (pgAddr (lanePage (96 + i)) + 0x40) (fir &&& 0x3F3F3F3F)).lirq (96 + i) 11

theorem linkTrainingEnd_eq {i : Nat} (ok : Bool) (fir : Word) (h : (d.lane (96 + i)).training = true) :
    d.linkTrainingEnd i ok fir =
      if ok then (d.trained i ok fir).laneBack (96 + i) else ((d.trained i ok fir).lirq (96 + i) 12).netLaneLoss i := by
  unfold linkTrainingEnd
  rw [if_pos h]
  simp only [irq_nlane, pageAddr_nlane]
  rfl

theorem laneSide_linkTrainingEnd {i : Nat} (hi : i < 16) (ok : Bool) (fir : Word) (h : (d.lane (96 + i)).training = true) :
    (d.linkTrainingEnd i ok fir).laneSide =
      (if ok then d.trained i ok fir else (d.trained i ok fir).lirq (96 + i) 12).laneSide := by
  rw [d.linkTrainingEnd_eq ok fir h]
  cases ok
  · exact laneSide_netLaneLoss _ hi
  · exact laneSide_laneBack _ _

theorem training_trained (i : Nat) (ok : Bool) (fir : Word) : ((d.trained i ok fir).lane (96 + i)).training = false := by
  rw [trained, lane_lirq, lane_setWord, lane_updLane_self]

theorem fir_trained (i : Nat) (ok : Bool) (fir : Word) :
    (d.trained i ok fir).word (pgAddr (lanePage (96 + i)) + 0x40) = fir &&& 0x3F3F3F3F := by
  rw [trained, word_lirq_off _ _ (by decide), word_setWord_self]

theorem irqWord_trained (i : Nat) (ok : Bool) (fir : Word) : (d.trained i ok fir).word (pgAddr (lanePage (96 + i)) + 0x10) =
    d.word (pgAddr (lanePage (96 + i)) + 0x10) ||| 0x800 := by
  rw [trained, word_lirq_self, word_setWord_ne _ _ (by omega), word_updLane]
  rfl

theorem keeps_trained (i : Nat) (ok : Bool) (fir : Word) : d.keeps (d.trained i ok fir)
    [pgAddr (lanePage (96 + i)) + 0x10, pgAddr (lanePage (96 + i)) + 0x40] := by
  intro a ha
  simp only [List.mem_cons, List.not_mem_nil, or_false, not_or] at ha
  rw [trained, word_lirq_ne _ _ ha.1, word_setWord_ne _ _ ha.2, word_updLane]

theorem gating_linkTrainingEnd {i : Nat} (ok : Bool) (fir : Word) (h : (d.lane (96 + i)).training = true) :
    (d.linkTrainingEnd i ok fir).gating = d.gating := by
  have htrained : (d.trained i ok fir).gating = d.gating := by
    rw [trained, gating_lirq, gating_setWord_header _ _ _ (by decide), gating_updLane]
  rw [d.linkTrainingEnd_eq ok fir h]
  split
  · rw [gating_laneBack, htrained]
  · rw [gating_netLaneLoss, gating_lirq, htrained]

end
end Dev

section
variable {s : State} (t : Nat) {n : Fin 96} {m : MarkerRx} (hr : s.dev.inReset = false) (hc : s.dev.calm)
  (hen : s.dev.act F.MLANE_BOND_BOND_EN n = 1)
include hr hc hen

theorem answers_bondMarkerRx_valid {ln w s0 s1 s2 bip : Byte}
    (hpayload : (s.dev.markerSeen n m).payload =
      some [0xB6, ln, BitVec.ofNat 8 (s.dev.act F.MLANE_BOND_BOND_ID n), w, s0, s1, s2, bip])
    (hln : ln.toNat < w.toNat) (hw : w.toNat = s.dev.act F.MLANE_BOND_BOND_WIDTH n) (hdata : s.dev.rxData n = true)
    (hplace : Dev.markerOnTime (s.dev.markerSeen n m) = true ∨
      ((s.dev.lane n).mkGood = 0 ∧ s.dev.lget F.MLANE_LANE_STS_MARKER_LOCK n = 0))
    (hskew : (s.dev.markerSeen n m).skew.natAbs ≤ 2048) :
    Answers (.bondMarkerRx t n m) s (fun d => d.get F.MLANE_BOND_STS_SKEW n = unsgn 13 (s.dev.markerSeen n m).skew ∧
      (d.lane n).mkSeq = s0.toNat + 256 * s1.toNat + 65536 * s2.toNat ∧
      d.get F.MLANE_BIP_ERR n =
        (if Dev.markerOnTime (s.dev.markerSeen n m) = false ∨ bip = bip8 (s.dev.markerSeen n m).blocks then
          s.dev.get F.MLANE_BIP_ERR n else min (s.dev.get F.MLANE_BIP_ERR n + 1) 0xFFFFFFFF) ∧
      (1 ≤ (s.dev.lane n).mkGood → d.lget F.MLANE_LANE_STS_MARKER_LOCK n = 1)) := by
  have hn : (n : Nat) < 112 := by omega
  have hvalid : (s.dev.rxData n && s.dev.markerValid n (s.dev.markerSeen n m)) = true := by
    rw [hdata, s.dev.markerValid_of_payload hpayload hln hw hplace hskew]
    rfl
  obtain ⟨o, ho⟩ := (s.dev.atTime t).bondMarkerRx_eq m hen
  replace ho := ho.trans (if_pos hvalid)
  have hseen : (s.dev.atTime t).markerSeen n m = s.dev.markerSeen n m := rfl
  rw [hseen, hpayload, Option.getD_some] at ho
  refine answers_onCtx hr (f := fun d => (d.atTime t).bondMarkerRx n m) rfl hc ?_ ?_
  · rw [ho, Dev.gating_markerGood _ n.isLt, Dev.gating_outSet, Dev.gating_atTime]
  · rw [ho, Dev.markerGood_eq _ n.isLt, Dev.get_eq_lget _ n.isLt rfl, Dev.get_eq_lget _ n.isLt rfl, Dev.get_eq_lget _ n.isLt rfl,
      Dev.bondSide_lget _ (Dev.bondSide_bondRound _ _) hn (by decide), Dev.bondSide_lget _ (Dev.bondSide_bondRound _ _) hn (by decide),
      Dev.bondSide_lget _ (Dev.bondSide_bondRound _ _) hn (by decide), Dev.bondSide_lane (Dev.bondSide_bondRound _ _)]
    have hkept {f : Fld} (x : Dev) (p : List Byte) : (x.markerKept n (s.dev.markerSeen n m) p).lget f n = x.lget f n := rfl
    refine ⟨?_, ?_, ?_, fun hgood => ?_⟩
    · rw [Dev.lget_markerLocked _ _ (by decide), Dev.lget_markerShown_skew]
    · rw [Dev.lane_markerLocked, Dev.lane_markerShown, Dev.lane_markerKept]
      simp only [List.drop_succ_cons, List.drop_zero, List.take_succ_cons, List.take_zero, leVal]
      omega
    · rw [Dev.lget_markerLocked _ _ (by decide), Dev.lget_markerShown_bip, hkept]
      rfl
    · refine Dev.lget_markerLocked_lock _ ?_ ?_
      · rw [Dev.lget_markerShown _ _ _ (by decide) (by decide), hkept]
      · rw [Dev.lane_markerShown, Dev.lane_markerKept]
        exact Nat.succ_le_succ hgood

theorem answers_bondMarkerRx_missed (hmissed : (s.dev.markerSeen n m).payload = none ∨ s.dev.rxData n = false) :
    Answers (.bondMarkerRx t n m) s (fun d => (d.lane n).mkGood = 0 ∧
      (s.dev.lget F.MLANE_LANE_STS_MARKER_LOCK n = 1 → 3 ≤ (s.dev.lane n).mkBad →
        d.lget F.MLANE_LANE_STS_MARKER_LOCK n = 0 ∧ (d.word (pgAddr (Dev.lanePage n) + 0x10)).getLsbD 6 = true)) := by
  have hn : (n : Nat) < 112 := by omega
  have hinvalid : ¬ (s.dev.rxData n && s.dev.markerValid n (s.dev.markerSeen n m)) = true := by
    rcases hmissed with hnone | hdata
    · simp [s.dev.markerValid_of_none hnone]
    · simp [hdata]
  obtain ⟨o, ho⟩ := (s.dev.atTime t).bondMarkerRx_eq m hen
  replace ho := ho.trans (if_neg hinvalid)
  have hside := ((s.dev.atTime t).outSet o).bondSide_markerMissed n ((s.dev.atTime t).markerSeen n m)
  rw [Dev.lget_outSet, Dev.lget_atTime, Dev.lane_outSet, Dev.lane_atTime] at hside
  obtain ⟨hgood, -⟩ := ((s.dev.atTime t).outSet o).counts_markerGone n ((s.dev.atTime t).markerSeen n m)
  refine answers_onCtx hr (f := fun d => (d.atTime t).bondMarkerRx n m) rfl hc ?_ ?_
  · rw [ho, Dev.gating_markerMissed, Dev.gating_outSet, Dev.gating_atTime]
  · rw [ho, Dev.bondSide_lane hside, Dev.bondSide_lget _ hside hn (by decide), Dev.bondSide_irqBit _ hside hn (by decide)]
    split
    · rw [Dev.markerUnlocked, Dev.lane_lirq, Dev.lane_updLane_self, Dev.lane_lput]
      refine ⟨hgood, fun _ _ => ⟨?_, ?_⟩⟩
      · rw [Dev.lget_lirq _ _ (by decide), Dev.lget_updLane, Dev.lget_lput_self _ _ (by decide)]
        rfl
      · rw [Dev.word_lirq_self, BitVec.getLsbD_or]
        exact Bool.or_true _
    · next hkeep => exact ⟨hgood, fun hlock hrun => absurd ⟨hlock, hrun⟩ hkeep⟩

end

section
variable {s : State} (t : Nat) {i : Fin 16} (hr : s.dev.inReset = false) (hc : s.dev.calm)
include hr hc

theorem answers_linkTrainingEnd (ok : Bool) (fir : Word) (h : (s.dev.lane (96 + i)).training = true) :
    Answers (.linkTrainingEnd t i ok fir) s (fun d => (d.lane (96 + i)).training = false ∧
      d.word (pgAddr (Dev.lanePage (96 + i)) + 0x40) = fir &&& 0x3F3F3F3F ∧
      d.word (pgAddr (Dev.lanePage (96 + i)) + 0x10) =
        s.dev.word (pgAddr (Dev.lanePage (96 + i)) + 0x10) ||| (if ok then 0x800 else 0x1800) ∧
      (ok = true → s.dev.keeps d [pgAddr (Dev.lanePage (96 + i)) + 0x10, pgAddr (Dev.lanePage (96 + i)) + 0x40])) := by
  have hn : 96 + (i : Nat) < 112 := by omega
  have hside := (s.dev.atTime t).laneSide_linkTrainingEnd i.isLt ok fir h
  refine answers_onCtx hr (f := fun d => (d.atTime t).linkTrainingEnd i ok fir) rfl hc ?_ ?_
  · rw [(s.dev.atTime t).gating_linkTrainingEnd ok fir h, Dev.gating_atTime]
  · rw [Dev.laneSide_lane hside, Dev.word_of_laneSide hn hside (by decide), Dev.word_of_laneSide hn hside (by decide)]
    cases ok with
    | false =>
      refine ⟨?_, ?_, ?_, fun hok => absurd hok Bool.false_ne_true⟩
      · exact (congrArg LaneSt.training (Dev.lane_lirq _ _ _ _)).trans (Dev.training_trained _ _ _ _)
      · exact (Dev.word_lirq_off _ _ (by decide)).trans (Dev.fir_trained _ _ _ _)
      · refine (Dev.word_lirq_self _ _).trans ?_
        rw [Dev.irqWord_trained, BitVec.or_assoc]
        rfl
    | true =>
      refine ⟨Dev.training_trained _ _ _ _, Dev.fir_trained _ _ _ _, Dev.irqWord_trained _ _ _ _, fun _ a ha => ?_⟩
      rw [(s.dev.atTime t).linkTrainingEnd_eq true fir h, if_pos rfl, Dev.word_laneBack_net]
      exact Dev.keeps_trained _ _ _ _ a ha

end
end Sys2Proof.Machine
end

section
/-! PROOF. Lane states, bond markers and link training (R92, R103, R104, R105, R107, R108, R109, R111). -/
namespace Sys2Proof.Machine

/-- What a lane of a bond sends, block share and marker apart. -/
theorem outs_of_markerOuts {id w n : Nat} {b : BondTx} {bs : List Block66} {d : Dev} {out : List Out}
    (h : ∀ o ∈ Dev.markerOuts id w b bs d n, o ∈ out) :
    (Dev.bondShare bs w (d.act F.MLANE_BOND_BOND_LANE n) ≠ [] →
      Out.blocks n (decide (d.act F.MLANE_TX_CFG_TX_POL_INV n = 1)) (Dev.bondShare bs w (d.act F.MLANE_BOND_BOND_LANE n)) ∈ out) ∧
    Out.marker n (decide (d.act F.MLANE_TX_CFG_TX_POL_INV n = 1))
      ([0xB6, BitVec.ofNat 8 (d.act F.MLANE_BOND_BOND_LANE n), BitVec.ofNat 8 id, BitVec.ofNat 8 (d.act F.MLANE_BOND_BOND_WIDTH n)] ++
        leBytes 3 b.seq ++ [((Dev.bondShare bs w (d.act F.MLANE_BOND_BOND_LANE n)).map (fun q => xorBytes q.2)).foldl (· ^^^ ·) 0]) ∈
        out := by
  refine ⟨fun hsome => h _ ?_, h _ ?_⟩
  · rw [Dev.markerOuts]
    rw [if_neg hsome]
    exact List.mem_cons_of_mem _ List.mem_cons_self
  · rw [Dev.markerOuts, ← bip8_each]
    exact List.mem_cons_self

end Sys2Proof.Machine

open Sys2Proof Sys2Proof.Machine

/-- Settles O21, command by command. -/
theorem laneStatesBondsAndTraining : Obligations.LaneStatesBondsAndTraining := by
  unfold Obligations.LaneStatesBondsAndTraining
  simp only [lanePageOf_eq]
  refine ⟨fun s t n req h hc => ⟨answers_rxLstateReq h hc, answers_rxLstateReq_reserved h hc⟩,
    fun s t n k hr hc hk => ⟨answers_lstateDone_rx t hr hc hk, answers_lstateDone_tx t hr hc hk⟩,
    fun s t bond stream hr => ⟨exec_bondMarkerTx_none t stream hr, fun hls => ?_⟩,
    fun s t n m hr hc hen => ⟨s.dev.markerSeen_of_ball m, fun ln w s0 s1 s2 bip hpayload hln hw hdata hplace hskew =>
      answers_bondMarkerRx_valid t hr hc hen hpayload hln hw hdata hplace hskew, fun hmissed => ?_⟩,
    fun s t i ok fir hr hc h => ?_⟩
  · obtain ⟨d, hd, hregs, htx, houts⟩ := answers_bondMarkerTx t stream hr hls rfl rfl
    exact ⟨d, hd, hregs, htx, fun n hn hidle hmode => outs_of_markerOuts (houts n hn hidle hmode)⟩
  · rw [Dev.pageAddr_mlane n.isLt]
    exact answers_bondMarkerRx_missed t hr hc hen hmissed
  · rw [Dev.pageAddr_nlane]
    exact answers_linkTrainingEnd t hr hc ok fir h
end

section
/-! PROOF. The counterexample to the clause on a copy that another path delivered: a packet beyond the MTU. -/
namespace Sys2Proof.Machine

/-- Context 0 receives ancillary data on two paths, and path 1 has delivered the packet with number 7. -/
def pathsDev : Dev :=
  { house := 1000000000, regs := [(0x200008, 1), (0x200400, 25), (0x340008, 1)], ctxs := [(0, { seen := [(7, 0, 1)] })] }

/-- A copy of that packet by path 2, beyond the MTU, on an interface that the device does not have. -/
def longCopy : RtpPacket :=
  { path2 := true, dest := 0, port := 0, ssrc := 0, ptype := 0, seq := 7, rtp := 0, marker := false, rows := [], bottom := false
    words := [], bytes := List.replicate 9000 0, netif2 := 450 }

namespace Dev

theorem pathsDev_enabled : pathsDev.enabled .ingest 0 = true := by decide +kernel
theorem pathsDev_kind : pathsDev.ctxKind 0 = 9 := by decide +kernel
theorem pathsDev_matches : pathsDev.packetMatches 0 longCopy = true := by decide +kernel

theorem longCopy_overMtu : overMtu longCopy.dest (rtpOctets 9 (pathsDev.netSig 0 false).depth longCopy) = true := by
  have hlen : longCopy.bytes.length = 9000 := List.length_replicate
  rw [rtpOctets, if_neg (by decide), if_pos rfl, hlen]
  decide

/-- A packet beyond the MTU is counted at its interface, and that is all. -/
theorem st2110Packet_of_long {d : Dev} {n : Nat} (t : Nat) {p : RtpPacket} (hen : d.enabled .ingest n = true)
    (hkind : isSt2110 (d.ctxKind n) = true) (hmatch : d.packetMatches n p = true)
    (hlong : overMtu p.dest (rtpOctets (d.ctxKind n) (d.netSig n false).depth p) = true) :
    d.st2110Packet n t p = d.tooLong (if p.path2 then p.netif2 else d.act F.INGEST_LINK_NETIF n) := by
  simp [st2110Packet, hen, hkind, hmatch, hlong]

theorem st2110Packet_pathsDev : pathsDev.st2110Packet 0 0 longCopy = pathsDev.tooLong 450 :=
  st2110Packet_of_long 0 pathsDev_enabled (congrArg isSt2110 pathsDev_kind) pathsDev_matches
    (by rw [pathsDev_kind]; exact longCopy_overMtu)

/-- FCS_ERR of the interface 450 would stand where ANC_WR of context 0 does. -/
theorem ancWr_tooLong : (pathsDev.tooLong 450).get F.INGEST_ANC_WR 0 = 1 := by decide +kernel

end Dev

theorem exec_longCopy :
    exec (.st2110PacketRx 0 0 longCopy) { dev := pathsDev } = .next { dev := pathsDev.tooLong 450 } := by
  refine exec_of_onDev (s := { dev := pathsDev }) (f := fun d => ((d.atTime 0).st2110Packet 0 0 longCopy).ctxSweep) rfl rfl ?_ rfl
  have hnow : pathsDev.atTime 0 = pathsDev := pathsDev.atTime_zero
  rw [hnow, Dev.st2110Packet_pathsDev]
  rfl

end Sys2Proof.Machine

open Sys2Proof Sys2Proof.Machine

/-- Refutes O23 at the clause on a copy that another path delivered within the window. The copy is beyond the MTU, so it is counted in
FCS_ERR of the interface it came on; the packet names interface 450, of which FCS_ERR would stand at 0x2000C8, the ANC_WR of context
0. ANC_WR so reads 1 and not 0. The device has 16 interfaces; the statement bounds no packet's, so it speaks of this one. -/
theorem not_packetsHeartbeatsAndCopies : ¬ Obligations.PacketsHeartbeatsAndCopies := by
  intro h
  have hcalm : pathsDev.calm := ⟨rfl, by simp [pathsDev]⟩
  obtain ⟨hpackets, -⟩ := h { dev := pathsDev } 0 0 rfl hcalm Dev.pathsDev_enabled
  obtain ⟨-, -, -, hcopy⟩ := hpackets longCopy (congrArg Dev.isSt2110 Dev.pathsDev_kind) Dev.pathsDev_matches
  have hanswers := hcopy 0 1 Dev.pathsDev_kind (by decide +kernel) (by decide) (by decide +kernel) (by decide +kernel)
  obtain ⟨-, hwr⟩ := of_answers exec_longCopy hanswers
  have hold : pathsDev.get F.INGEST_ANC_WR 0 = 0 := by decide +kernel
  exact absurd (Dev.ancWr_tooLong.symm.trans (hwr.trans hold)) (by decide)
end

section
/-! PROOF. The words and fields of a context's page, and the hidden state of a context (R141): what each update writes there and what
it leaves. -/
namespace Sys2Proof.Machine

/-- A field of the first words of INGEST's page, one for each context. -/
abbrev Fld.ofCtx (f : Fld) : Prop := f.blk = .ingest ∧ f.page = 0

/-- Fields of INGEST's page that share no bit. -/
abbrev Fld.besideCtx (f g : Fld) : Prop := f.ofCtx ∧ g.ofCtx ∧ f.apart g = true

theorem ctxFld_addr {f : Fld} (hf : f.ofCtx) (n : Nat) : f.addr n 0 0 = pageAddr .ingest n 0 + f.off := by
  simp only [Fld.addr, hf.1, hf.2, Nat.zero_mul, Nat.add_zero]

theorem pageAddr_ingest (n : Nat) : pageAddr .ingest n 0 = 0x200000 + n * 0x1000 := by
  simp only [pageAddr, blkBase, blkStride, blkPages]
  omega

theorem validPage_ingest (n : Fin 256) : Dev.validPage ⟨.ingest, n, 0⟩ = true := by
  have hn := n.isLt
  simp only [Dev.validPage, blkFirst, blkCount, blkPages, Nat.zero_le, Nat.zero_add, hn, Nat.zero_lt_one, decide_true, Bool.and_self]

namespace Dev
section
variable (d : Dev) {f g : Fld} {n : Nat}

/-! Words. -/

theorem word_put_ctx (hf : f.ofCtx) (x : Nat) {a : Nat} (ha : a ≠ pageAddr .ingest n 0 + f.off) :
    (d.put f x n).word a = d.word a := d.word_put_ne f x n 0 0 (by rwa [ctxFld_addr hf])

@[simp] theorem word_put_ctx_off {o : Nat} (x : Nat) (h : f.ofCtx ∧ o ≠ f.off) :
    (d.put f x n).word (pageAddr .ingest n 0 + o) = d.word (pageAddr .ingest n 0 + o) :=
  d.word_put_ctx h.1 x (by omega)

@[simp] theorem word_count_ctx_off {o : Nat} (k : Nat) (h : f.ofCtx ∧ o ≠ f.off) :
    (d.count f n 0 k).word (pageAddr .ingest n 0 + o) = d.word (pageAddr .ingest n 0 + o) := d.word_put_ctx_off _ h

@[simp] theorem word_irq_ctx_off {o : Nat} (b : Nat) (h : o ≠ 0x10) :
    (d.irq .ingest n 0 b).word (pageAddr .ingest n 0 + o) = d.word (pageAddr .ingest n 0 + o) :=
  d.word_irq_ne _ _ _ _ (by omega)

@[simp] theorem word_updCtx (m : Nat) (u : CtxSt → CtxSt) (a : Nat) : (d.updCtx m u).word a = d.word a := rfl

/-- An event sets its bit of the page's IRQ_RAW. -/
theorem irqBit_irq {b : Nat} (hb : b < 31) : ((d.irq .ingest n 0 b).word (pageAddr .ingest n 0 + 0x10)).getLsbD b = true := by
  have hsmall : 2 ^ b % 2 ^ 31 = 2 ^ b := Nat.mod_eq_of_lt (Nat.pow_lt_pow_right (by decide) hb)
  rw [word_irq, if_pos rfl, BitVec.getLsbD_or, Bool.or_eq_true_iff, hsmall]
  refine .inr ?_
  rw [BitVec.getLsbD_ofNat, Nat.testBit_two_pow_self, Bool.and_true, decide_eq_true_eq]
  omega

/-- No event clears a bit. -/
theorem irqBit_irq_of {b k : Nat} (h : (d.word (pageAddr .ingest n 0 + 0x10)).getLsbD b = true) :
    ((d.irq .ingest n 0 k).word (pageAddr .ingest n 0 + 0x10)).getLsbD b = true := by
  rw [word_irq, if_pos rfl, BitVec.getLsbD_or, h, Bool.true_or]

/-! Fields. -/

@[simp] theorem get_put_ctx_self (x : Nat) (h : f.lo + f.w ≤ 32) : (d.put f x n).get f n = x % 2 ^ f.w :=
  d.get_put_self f x n 0 0 h

@[simp] theorem get_put_ctx (x : Nat) (h : f.besideCtx g) : (d.put f x n).get g n = d.get g n := by
  obtain ⟨hf, hg, hapart⟩ := h
  simp only [Fld.apart, Bool.and_eq_true, Bool.or_eq_true, decide_eq_true_eq] at hapart
  obtain ⟨⟨-, hfit⟩, hdis⟩ := hapart
  by_cases hoff : g.off = f.off
  · exact d.get_put_apart f g x n 0 0 n 0 0 hfit (by omega) (by rw [ctxFld_addr hf, ctxFld_addr hg, hoff])
  · exact d.get_put_ne f g x n 0 0 n 0 0 (by rw [ctxFld_addr hf, ctxFld_addr hg]; omega)

@[simp] theorem get_count_ctx (k : Nat) (h : f.besideCtx g) : (d.count f n 0 k).get g n = d.get g n := d.get_put_ctx _ h

@[simp] theorem get_count_ctx_self (k : Nat) (h : f.lo = 0 ∧ f.w = 32) :
    (d.count f n 0 k).get f n = min (d.get f n + k) 0xFFFFFFFF := by
  rw [get_count_self _ _ _ _ _ (by omega), h.2]
  rfl

@[simp] theorem get_irq_ctx (b : Nat) (h : g.ofCtx ∧ g.off ≠ 0x10) : (d.irq .ingest n 0 b).get g n = d.get g n :=
  get_congr g n 0 0 (by rw [ctxFld_addr h.1]; exact d.word_irq_ctx_off b h.2)

@[simp] theorem get_updCtx (f : Fld) (i k j m : Nat) (u : CtxSt → CtxSt) : (d.updCtx m u).get f i k j = d.get f i k j := rfl
@[simp] theorem get_atTime (f : Fld) (i k j t : Nat) : (d.atTime t).get f i k j = d.get f i k j := rfl

theorem get_ctx_congr {e : Dev} (hg : g.ofCtx) (h : e.word (pageAddr .ingest n 0 + g.off) = d.word (pageAddr .ingest n 0 + g.off)) :
    e.get g n = d.get g n := get_congr g n 0 0 (by rw [ctxFld_addr hg, h])

theorem get_lt (f : Fld) (i : Nat) : d.get f i < 2 ^ f.w := bitsOf_lt _ _ _

/-! Hidden state. -/

@[simp] theorem ctx_updCtx (n : Nat) (u : CtxSt → CtxSt) : (d.updCtx n u).ctx n = u (d.ctx n) := sget_sset_self _ _ _ _
@[simp] theorem ctx_atTime (t m : Nat) : (d.atTime t).ctx m = d.ctx m := rfl
@[simp] theorem ctx_put (f : Fld) (x i k j m : Nat) : (d.put f x i k j).ctx m = d.ctx m := rfl
@[simp] theorem ctx_count (f : Fld) (i k c m : Nat) : (d.count f i k c).ctx m = d.ctx m := rfl
@[simp] theorem ctx_putAt (a lo w x m : Nat) : (d.putAt a lo w x).ctx m = d.ctx m := rfl
@[simp] theorem ctx_irq (b : Blk) (i p k m : Nat) : (d.irq b i p k).ctx m = d.ctx m := by rw [ctx, irq_ctxs, ctx]

end
end Dev
end Sys2Proof.Machine
end

section
/-! PROOF. DMA_RING_SIZE: the sizes it takes, and the word by a command of its own and by a register write (R135; R59, R60). -/
namespace Sys2Proof.Machine

/-! The page of an address. -/

theorem blkAt_page {r : PageRef} {o : Nat} (hr : Dev.validPage r = true) (ho : o < 0x1000) : blkAt (pgAddr r + o) = some r.blk := by
  simp only [Dev.validPage, Bool.and_eq_true, decide_eq_true_eq] at hr
  obtain ⟨hlo, hhi⟩ := page_in_blk r.blk r.inst r.page o hr.1.1 hr.1.2 hr.2 ho
  cases hfind : blkAt (pgAddr r + o) with
  | none =>
    refine absurd ?_ (List.find?_eq_none.1 hfind r.blk (by cases r.blk <;> decide))
    rw [Bool.and_eq_true, decide_eq_true_eq, decide_eq_true_eq]
    exact ⟨hlo, hhi⟩
  | some c =>
    have hc := List.find?_some hfind
    simp only [Bool.and_eq_true, decide_eq_true_eq] at hc
    by_contra hne
    rcases blk_apart c r.blk (fun h => hne (congrArg some h)) with h | h
    · exact absurd (lt_of_lt_of_le hc.2 h) (Nat.not_lt.2 hlo)
    · exact absurd (lt_of_lt_of_le hhi h) (Nat.not_lt.2 hc.1)

theorem decodePage_page {r : PageRef} {o : Nat} (hr : Dev.validPage r = true) (ho : o < 0x1000) : decodePage (pgAddr r + o) = some r := by
  rw [decodePage, blkAt_page hr ho]
  obtain ⟨b, i, p⟩ := r
  simp only [Dev.validPage, Bool.and_eq_true, decide_eq_true_eq] at hr
  obtain ⟨-, hp⟩ := hr
  simp only [pgAddr, pageAddr, Option.some.injEq, PageRef.mk.injEq, true_and]
  cases b <;> simp only [blkBase, blkStride, blkPages] at hp ⊢ <;> omega

/-- A word of a page of the map decodes to that page and its offset. -/
theorem decodeTarget_page {r : PageRef} {o : Nat} (hr : Dev.validPage r = true) (ho : o < 0x1000) :
    decodeTarget (pgAddr r + o) = .page r o := by
  have hmod := Dev.header_mod r o
  rw [decodeTarget, decodePage_page hr ho]
  simp only [hmod, Nat.mod_eq_of_lt ho]

/-! The sizes. -/

theorem ringSizes_iff (x : Nat) :
    [16, 32, 64, 128, 256, 512, 1024, 2048, 4096].contains x = true ↔ ∃ k, 4 ≤ k ∧ k ≤ 12 ∧ x = 2 ^ k := by
  rw [List.contains_iff_mem]
  constructor
  · intro h
    have hlog : ∀ y ∈ [16, 32, 64, 128, 256, 512, 1024, 2048, 4096], 4 ≤ Nat.log2 y ∧ Nat.log2 y ≤ 12 ∧ y = 2 ^ Nat.log2 y := by decide
    exact ⟨_, hlog x h⟩
  · rintro ⟨k, hlo, hhi, rfl⟩
    interval_cases k <;> decide

namespace Dev
section
variable (d : Dev) (n : Fin 256)

/-- A size that the ring takes. -/
abbrev ringFits (size : Nat) : Prop := d.flag F.INGEST_DMA_CTL_EN n = false ∧ ∃ k, 4 ≤ k ∧ k ≤ 12 ∧ size = 2 ^ k

theorem dmaRingSizeWrite_of_fits {size : Nat} (h : d.ringFits n size) :
    d.dmaRingSizeWrite n size = d.put F.INGEST_DMA_RING_SIZE_ENTRIES size n := by
  obtain ⟨hen, hsize⟩ := h
  rw [dmaRingSizeWrite, (ringSizes_iff size).2 hsize, hen]
  rfl

theorem dmaRingSizeWrite_of_not_fits {size : Nat} (h : ¬ d.ringFits n size) :
    d.dmaRingSizeWrite n size = d.rsvCode ⟨.ingest, n, 0⟩ 0xA8 := by
  refine if_neg fun hboth => h ?_
  rw [Bool.and_eq_true, Bool.not_eq_true'] at hboth
  exact ⟨hboth.2, (ringSizes_iff size).1 hboth.1⟩

/-- What a size that the ring takes leaves. -/
theorem ringSize_stored {size : Nat} (h : ∃ k, 4 ≤ k ∧ k ≤ 12 ∧ size = 2 ^ k) :
    (d.put F.INGEST_DMA_RING_SIZE_ENTRIES size n).get F.INGEST_DMA_RING_SIZE_ENTRIES n = size ∧
      d.keeps (d.put F.INGEST_DMA_RING_SIZE_ENTRIES size n) [pageAddr .ingest n 0 + 0xA8] := by
  obtain ⟨k, -, hk, rfl⟩ := h
  have hpow : 2 ^ k ≤ 2 ^ 12 := Nat.pow_le_pow_right (by decide) hk
  refine ⟨?_, fun a ha => d.word_put_ctx ⟨rfl, rfl⟩ _ (fun h => ha (List.mem_singleton.2 h))⟩
  rw [get_put_ctx_self _ _ (by decide)]
  exact Nat.mod_eq_of_lt (lt_of_le_of_lt hpow (by decide))

/-- A reserved code on a context's page leaves the words of the log's page but those of the log. -/
theorem word_rsvCode_log (o : Nat) {a : Nat} (ha : a < 0x200000) :
    (d.rsvCode ⟨.ingest, n, 0⟩ o).word a = (d.logErr 6 (pageAddr .ingest n 0 + o) true false none).word a := by
  have hpage := pageAddr_ingest n
  rw [rsvCode_eq]
  exact word_irqSet_ne _ _ _ (by simp only [pgAddr]; omega)

theorem get_rsvCode_log (o : Nat) {f : Fld} (hf : f.addr 0 0 0 < 0x200000) :
    (d.rsvCode ⟨.ingest, n, 0⟩ o).get f = (d.logErr 6 (pageAddr .ingest n 0 + o) true false none).get f :=
  get_congr f 0 0 0 (d.word_rsvCode_log n o hf)

/-- A reserved code leaves the fields of the page where it was written. -/
theorem get_rsvCode_ctx (o : Nat) {f : Fld} (hf : f.ofCtx ∧ f.off ≠ 0x10) : (d.rsvCode ⟨.ingest, n, 0⟩ o).get f n = d.get f n := by
  have hpage := pageAddr_ingest n
  refine d.get_ctx_congr hf.1 ?_
  rw [rsvCode_eq, word_irqSet_ne _ _ _ (by simp only [pgAddr]; omega)]
  exact word_logErr _ _ _ _ _ (by simp only [List.mem_cons, List.not_mem_nil, or_false, not_or]; omega)

theorem rsvCode_apart (r : PageRef) (o : Nat) : (d.rsvCode r o).apart = d.apart := by
  rw [rsvCode_eq]
  exact (irqSet_rest _ r _).trans (logErr_rest d _ _ _ _ _)

/-- A write of ENTRIES that the page does not take: the word stays, and the access is logged with cause RSV_CODE (R59, R135). -/
def sizeRefused (d e : Dev) (n : Nat) : Prop :=
  e.get F.INGEST_DMA_RING_SIZE_ENTRIES n = d.get F.INGEST_DMA_RING_SIZE_ENTRIES n ∧
  (d.get F.GLOBAL_ERR_INFO_CAUSE = 0 → e.get F.GLOBAL_ERR_INFO_CAUSE = 6 ∧ e.get F.GLOBAL_ERR_ADDR = pageAddr .ingest n 0 + 0xA8) ∧
  (d.get F.GLOBAL_ERR_INFO_CAUSE ≠ 0 → e.get F.GLOBAL_ERR_INFO_OVERFLOW = 1 ∧
    e.get F.GLOBAL_ERR_INFO_CAUSE = d.get F.GLOBAL_ERR_INFO_CAUSE ∧ e.get F.GLOBAL_ERR_ADDR = d.get F.GLOBAL_ERR_ADDR) ∧
  e.get F.GLOBAL_ERR_COUNT = min (d.get F.GLOBAL_ERR_COUNT + 1) (2 ^ F.GLOBAL_ERR_COUNT.w - 1) ∧
  raised e .global 0 0 1 ∧ raised e .ingest n 0 27

theorem rsvCode_sizeRefused : d.sizeRefused (d.rsvCode ⟨.ingest, n, 0⟩ 0xA8) n := by
  have hpage := pageAddr_ingest n
  have hn := n.isLt
  refine ⟨d.get_rsvCode_ctx n _ (by decide), fun hempty => ?_, fun hheld => ?_, ?_, ?_, ?_⟩
  · obtain ⟨haddr, hcause, -⟩ := d.logErr_first 6 (pageAddr .ingest n 0 + 0xA8) true false hempty
    rw [get_rsvCode_log _ _ _ (by decide), get_rsvCode_log _ _ _ (by decide), hcause, haddr]
    exact ⟨rfl, Nat.mod_eq_of_lt (by omega)⟩
  · obtain ⟨haddr, hcause, hover⟩ := d.logErr_later 6 (pageAddr .ingest n 0 + 0xA8) true false hheld
    rw [get_rsvCode_log _ _ _ (by decide), get_rsvCode_log _ _ _ (by decide), get_rsvCode_log _ _ _ (by decide)]
    exact ⟨hover, hcause, haddr⟩
  · rw [get_rsvCode_log _ _ _ (by decide)]
    exact d.get_logErr_count _ _ _ _
  · rw [raised, word_rsvCode_log _ _ _ (by decide)]
    exact d.logErr_irqBit _ _ _ _
  · exact irqBit_irq (d.logErr 6 (pageAddr .ingest n 0 + 0xA8) true false none) (b := 27) (by decide)

end
end Dev

/-! The two commands. -/

theorem hostWord_ringSize (s : State) (n : Fin 256) (v : Word) (hr : s.dev.reachable = true)
    (hp : s.dev.powerState .ingest n 0 < 2) :
    s.hostWord (pageAddr .ingest n 0 + 0xA8) v = s.on (·.dmaRingSizeWrite n (v.toNat % 8192)) := by
  have htarget : decodeTarget (pageAddr .ingest n 0 + 0xA8) = .page ⟨.ingest, n, 0⟩ 0xA8 :=
    decodeTarget_page (r := ⟨.ingest, n, 0⟩) (validPage_ingest n) (by decide)
  simp only [State.hostWord, hr, htarget, Dev.nvmHolds]
  simp [isHandOff, Nat.not_le.2 hp, State.hostLive, State.hostIngest]

/-- Both commands write the size where the page takes the write. -/
theorem exec_ringSize {s : State} {t : Nat} {n : Fin 256} {size : BitVec 13} {i : Instr} (h : s.takesAt t ⟨.ingest, n, 0⟩)
    (hi : i ∈ [.dmaRingSizeWrite t n size, .registerWrite t (BitVec.ofNat 24 (pageAddr .ingest n 0 + 0xA8)) 4 (size.setWidth 64)])
    {d : Dev} (hd : (s.dev.atTime t).dmaRingSizeWrite n size.toNat = d) (hr : d.inReset = false) :
    exec i s = .next { s with dev := d } := by
  obtain ⟨⟨hout, hreach, hvalid⟩, hpower⟩ := h
  simp only [List.mem_cons, List.not_mem_nil, or_false] at hi
  rcases hi with rfl | rfl
  · exact exec_of_onDev (f := fun d => (d.atTime t).gate (Dev.ctxPage n) 0xA8 (·.dmaRingSizeWrite n size.toNat)) rfl hout
      ((Dev.gate_eq _ _ _ _ hreach hvalid hpower).trans hd) hr
  · have hpage := pageAddr_ingest n
    have hn := n.isLt
    have hsize := size.isLt
    have haddr : (BitVec.ofNat 24 (pageAddr .ingest n 0 + 0xA8)).toNat = pageAddr .ingest n 0 + 0xA8 := by
      rw [BitVec.toNat_ofNat]
      exact Nat.mod_eq_of_lt (by omega)
    have hword : (BitVec.ofNat 32 (size.setWidth 64).toNat).toNat % 8192 = size.toNat := by
      simp only [BitVec.toNat_ofNat, BitVec.toNat_setWidth]
      omega
    refine exec_registerWrite_word hout (by rw [haddr]; omega) ?_ hr
    rw [haddr, hostWord_ringSize (s.atTime t) n _ hreach hpower, hword]
    exact congrArg (fun d => ({ s with dev := d } : State)) hd

end Sys2Proof.Machine

open Sys2Proof Sys2Proof.Machine

/-- Settles O60: a size that fits is stored, any other is logged; a register write of the word reaches the same function. -/
theorem ringsTakePowersOfTwo : Obligations.RingsTakePowersOfTwo := by
  intro s t n size i h a hi fits
  refine ⟨fun hfits => ?_, fun hnot => ?_⟩
  · have hput := (s.dev.atTime t).dmaRingSizeWrite_of_fits n hfits
    obtain ⟨hentries, hkeeps⟩ := (s.dev.atTime t).ringSize_stored n hfits.2
    exact ⟨_, exec_ringSize h hi hput h.1.1, hentries, hkeeps, rfl⟩
  · have hlog := (s.dev.atTime t).dmaRingSizeWrite_of_not_fits n hnot
    obtain ⟨hentries, hfirst, hlater, hcount, hglobal, hingest⟩ := (s.dev.atTime t).rsvCode_sizeRefused n
    have happart := (s.dev.atTime t).rsvCode_apart ⟨.ingest, n, 0⟩ 0xA8
    have hr : ((s.dev.atTime t).rsvCode ⟨.ingest, n, 0⟩ 0xA8).inReset = false := (congrArg Dev.inReset happart).trans h.1.1
    exact ⟨_, exec_ringSize h hi hlog hr, hentries, hfirst, hlater, hcount, hglobal, hingest, happart⟩
end

section
/-! PROOF. EDID tables, hot plug and the capabilities that a source reads (R119, R120, R121, R122; R459). -/
namespace Sys2Proof.Machine
namespace Dev
section
variable (d : Dev) (n : Nat)

/-! The staging bank (R119). -/

/-- A word of the staging bank; one that was never written reads 0. -/
def edidStaged (k : Nat) : Word := sget (fun _ => 0) (d.ctx n).edidStage k

theorem edidStaged_edidWrite (v : Word) (k : Nat) :
    (d.edidWrite n v).edidStaged n k = if k = d.get F.INGEST_EDID_IDX_WORD n then v else d.edidStaged n k := by
  rw [edidStaged, edidWrite]
  simp only [ctx_put, ctx_updCtx]
  exact sget_sset _ _ _ _ _

theorem edidServed_edidWrite (v : Word) : ((d.edidWrite n v).ctx n).edidServed = (d.ctx n).edidServed := by
  rw [edidWrite]
  simp only [ctx_put, ctx_updCtx]

theorem edidIdx_edidWrite (v : Word) :
    (d.edidWrite n v).get F.INGEST_EDID_IDX_WORD n = (d.get F.INGEST_EDID_IDX_WORD n + 1) % 1024 :=
  get_put_ctx_self _ _ (by decide)

/-! A commit takes effect, and a hot-plug pulse ends (R119, R121). -/

/-- The hidden state of a context whose commit took effect. -/
def edidTaken (c : CtxSt) (pulse : Bool) (now : Nat) : CtxSt :=
  { c with edidServed := c.edidStage, hpdPulse := c.hpdPulse || pulse, hpdAt := if pulse then now else c.hpdAt }

/-- The device whose commit took effect, before any pulse. -/
def edidShown : Dev := (d.put F.INGEST_STATE_COMMIT_PENDING 0 n).updCtx n fun c => { c with edidServed := c.edidStage }

theorem edidTake_pending (h : d.get F.INGEST_STATE_COMMIT_PENDING n = 1) :
    d.edidTake n = if d.flag F.INGEST_EDID_CTL_HPD_ON_COMMIT n then (d.edidShown n).hpdPulse n else d.edidShown n := by
  have hflag : (d.edidShown n).flag F.INGEST_EDID_CTL_HPD_ON_COMMIT n = d.flag F.INGEST_EDID_CTL_HPD_ON_COMMIT n := by
    simp (disch := decide) only [edidShown, flag, get_updCtx, get_put_ctx]
  rw [edidTake, if_pos (by rw [flag, h]; rfl), ← hflag]
  rfl

theorem regs_edidTake (h : d.get F.INGEST_STATE_COMMIT_PENDING n = 1) :
    (d.edidTake n).regs = (d.put F.INGEST_STATE_COMMIT_PENDING 0 n).regs := by
  rw [edidTake_pending d n h]
  split <;> rfl

theorem gating_edidTake (h : d.get F.INGEST_STATE_COMMIT_PENDING n = 1) : (d.edidTake n).gating = d.gating := by
  rw [edidTake_pending d n h]
  split <;> exact d.gating_put _ _ (by decide)

theorem ctx_edidTake (h : d.get F.INGEST_STATE_COMMIT_PENDING n = 1) :
    (d.edidTake n).ctx n = edidTaken (d.ctx n) (d.flag F.INGEST_EDID_CTL_HPD_ON_COMMIT n) d.house := by
  rw [edidTake_pending d n h]
  cases d.flag F.INGEST_EDID_CTL_HPD_ON_COMMIT n with
  | false => simp [edidShown, edidTaken]
  | true =>
    rw [if_pos rfl, hpdPulse, ctx_updCtx, edidShown, ctx_updCtx, ctx_put]
    simp only [edidTaken, Bool.or_true, if_pos]
    rfl

/-- The pulse has lasted HPD_LOW_MS, at least 100 ms. -/
abbrev hpdEnds : Prop := (d.ctx n).hpdPulse = true ∧
  (d.ctx n).hpdAt + max 100 (d.get F.INGEST_HPD_LOW_HPD_LOW_MS n) * 1000000 ≤ d.house

theorem hpdPulseEnd_of_ends (h : d.hpdEnds n) : d.hpdPulseEnd n = d.updCtx n fun c => { c with hpdPulse := false } :=
  if_pos (by simpa using h)

theorem hpdPulseEnd_of_not_ends (h : ¬ d.hpdEnds n) : d.hpdPulseEnd n = d := if_neg (by simpa using h)

/-! The table that a source reads (R120). -/

theorem edidBytes_getD (off len : Nat) {k : Nat} (hk : k < len) :
    ((d.edidBytes n off len).getD k 0).toNat =
      (sget (fun _ => (0 : Word)) (d.ctx n).edidServed ((off + k) % 4096 / 4)).toNat / 2 ^ (8 * ((off + k) % 4096 % 4)) % 256 := by
  simp [edidBytes, List.getD_eq_getElem?_getD, hk]

end
end Dev

section
variable {s : State} {t : Nat} {n : Fin 256}

theorem answers_edidDataWrite (h : s.takesAt t ⟨.ingest, n, 0⟩) (v : Word) :
    Answers (.edidDataWrite t n v) s (fun d =>
      (∀ k, d.edidStaged n k = if k = s.dev.get F.INGEST_EDID_IDX_WORD n then v else s.dev.edidStaged n k) ∧
      d.get F.INGEST_EDID_IDX_WORD n = (s.dev.get F.INGEST_EDID_IDX_WORD n + 1) % 1024 ∧
      s.dev.keeps d [pageAddr .ingest n 0 + 0x88] ∧ (d.ctx n).edidServed = (s.dev.ctx n).edidServed) := by
  refine answers_write h (g := (·.edidWrite n v)) rfl (Dev.gating_put _ _ _ (by decide))
    ⟨Dev.edidStaged_edidWrite _ _ v, Dev.edidIdx_edidWrite _ _ v, fun a ha => ?_, Dev.edidServed_edidWrite _ _ v⟩
  exact Dev.word_put_ctx _ ⟨rfl, rfl⟩ _ fun heq => ha (List.mem_singleton.2 heq)

theorem answers_edidCommit (h : s.takesAt t ⟨.ingest, n, 0⟩) :
    Answers (.edidCommit t n) s (fun d => d.get F.INGEST_STATE_COMMIT_PENDING n = 1 ∧ s.dev.wordsOnly d t ∧
      s.dev.keeps d [pageAddr .ingest n 0 + 0x40]) :=
  answers_write h (g := (·.edidCommit n)) rfl (Dev.gating_put _ _ _ (by decide))
    ⟨Dev.get_put_ctx_self _ _ (by decide), rfl,
      fun _ ha => Dev.word_put_ctx _ ⟨rfl, rfl⟩ _ fun heq => ha (List.mem_singleton.2 heq)⟩

theorem answers_hpdPulse (h : s.takesAt t ⟨.ingest, n, 0⟩) :
    Answers (.hpdPulse t n) s (fun d => d.ctx n = { s.dev.ctx n with hpdPulse := true, hpdAt := max s.dev.house t } ∧
      d.regs = s.dev.regs) :=
  answers_write h (g := (·.hpdPulse n)) rfl rfl ⟨Dev.ctx_updCtx _ _ _, rfl⟩

theorem answers_edidCommitTakeEffect (hr : s.dev.inReset = false) (h : s.dev.get F.INGEST_STATE_COMMIT_PENDING n = 1) :
    Answers (.edidCommitTakeEffect t n) s (fun d => d.get F.INGEST_STATE_COMMIT_PENDING n = 0 ∧
      d.ctx n = Dev.edidTaken (s.dev.ctx n) (s.dev.flag F.INGEST_EDID_CTL_HPD_ON_COMMIT n) (max s.dev.house t) ∧
      s.dev.keeps d [pageAddr .ingest n 0 + 0x40]) := by
  have hregs := (s.dev.atTime t).regs_edidTake n h
  have hword (a : Nat) : ((s.dev.atTime t).edidTake n).word a = (s.dev.put F.INGEST_STATE_COMMIT_PENDING 0 n).word a :=
    Dev.word_congr hregs a
  refine answers_onDev hr (f := fun d => (d.atTime t).edidTake n) rfl (Dev.gating_edidTake _ _ h) ⟨?_, Dev.ctx_edidTake _ _ h, fun a ha => ?_⟩
  · exact (Dev.get_congr _ _ _ _ (hword _)).trans (Dev.get_put_ctx_self _ _ (by decide))
  · exact (hword a).trans (Dev.word_put_ctx _ ⟨rfl, rfl⟩ _ fun heq => ha (List.mem_singleton.2 heq))

theorem answers_hpdPulseEnd (hr : s.dev.inReset = false) (h : (s.dev.atTime t).hpdEnds n) :
    Answers (.hpdPulseEnd t n) s (fun d => d.ctx n = { s.dev.ctx n with hpdPulse := false } ∧ d.regs = s.dev.regs) := by
  have hend := (s.dev.atTime t).hpdPulseEnd_of_ends n h
  refine answers_onDev hr (f := fun d => (d.atTime t).hpdPulseEnd n) rfl ?_ ?_
  · rw [hend]
    rfl
  · rw [hend]
    exact ⟨Dev.ctx_updCtx _ _ _, rfl⟩

theorem exec_hpdPulseEnd_early (hr : s.dev.inReset = false) (h : ¬ (s.dev.atTime t).hpdEnds n) :
    exec (.hpdPulseEnd t n) s = .next { s with dev := s.dev.atTime t } :=
  exec_of_onDev (f := fun d => (d.atTime t).hpdPulseEnd n) rfl hr ((s.dev.atTime t).hpdPulseEnd_of_not_ends n h) hr

end

/-! What a source reads, in reset too. -/

namespace Dev
section
variable (d : Dev) (sb : Nat)

/-- The device as an access of a sideband port meets it: in reset its time stands. -/
def asked (t : Nat) : Dev := if d.inReset then d else d.atTime t

theorem asked_rest (t : Nat) : (d.asked t).regs = d.regs ∧ (d.asked t).inReset = d.inReset := by
  unfold asked
  split <;> exact ⟨rfl, rfl⟩

theorem asked_out (t : Nat) (h : d.inReset = false) : d.asked t = d.atTime t := if_neg (by simp [h])

theorem edidRead_unserved {stream : Option Nat} {off len : Nat} (h : d.inReset = true ∨ d.edidCtx sb stream = none) :
    d.edidRead sb stream off len = { d with resp := some .noAck } := by
  rw [edidRead]
  split
  · rfl
  · rename_i hr
    rw [h.resolve_left hr]

theorem edidRead_served {stream : Option Nat} {n off len : Nat} (hr : d.inReset = false) (h : d.edidCtx sb stream = some n) :
    d.edidRead sb stream off len = { d with resp := some (.bytes (d.edidBytes n off len) false) } := by
  rw [edidRead, if_neg (by simp [hr]), h]

theorem capAccess_hdcpDdc : d.capAccess sb .hdcpDdc = { d with resp := some .noAck } := by
  rw [capAccess]
  cases d.sbandOwner sb with
  | none => rfl
  | some n => exact ite_self _

/-- A DisplayPort link tells no HDCP capability, and its lane count (R120, R122). -/
theorem capAccess_dpcd {n : Nat} (hr : d.inReset = false) (howner : d.sbandOwner sb = some n) (hkind : d.ctxKind n = 3) :
    d.capAccess sb .dpcdHdcp = { d with resp := some (.bytes [0] false) } ∧
    d.capAccess sb .dpcdMaxLanes = { d with resp := some (.bytes [BitVec.ofNat 8 (d.act F.INGEST_LINK_LANE_COUNT n)] false) } := by
  constructor <;> simp only [capAccess, howner, hr, hkind, if_pos, if_neg, Bool.false_eq_true, not_false_eq_true]

end
end Dev

section
variable {s : State} {t : Nat} {sb : Fin 32}

/-- A meaning over the device, in reset too, that only responds. -/
theorem answers_response {i : Instr} {f : Dev → Dev} {x : Resp} {P : Dev → Prop} (hi : exec i s = s.onAny f)
    (hf : f s.dev = { s.dev.asked t with resp := some x })
    (hP : P { s.dev.asked t with resp := some x, inReset := s.dev.inReset }) : Answers i s P :=
  ⟨_, by rw [hi, s.onAny_eq f, hf], hP⟩

theorem answers_edidRead_unserved {stream : Option (Fin 4)} {off : BitVec 12} {len : Nat}
    (h : s.dev.inReset = true ∨ s.dev.edidCtx sb (stream.map (·.val)) = none) :
    Answers (.edidRead t sb stream off len) s (fun d => d.resp = some .noAck ∧ d.regs = s.dev.regs) := by
  obtain ⟨hregs, hr⟩ := s.dev.asked_rest t
  refine answers_response (t := t) (f := fun d => (d.asked t).edidRead sb (stream.map (·.val)) off.toNat len) rfl
    (Dev.edidRead_unserved _ _ ?_) ⟨rfl, hregs⟩
  cases hreset : s.dev.inReset with
  | true => exact .inl (hr.trans hreset)
  | false =>
    rw [s.dev.asked_out t hreset]
    exact .inr (h.resolve_left (by simp [hreset]))

theorem answers_edidRead {n : Nat} (hr : s.dev.inReset = false) {stream : Option (Fin 4)} {off : BitVec 12} {len : Nat}
    (h : s.dev.edidCtx sb (stream.map (·.val)) = some n) :
    Answers (.edidRead t sb stream off len) s (fun d => d.regs = s.dev.regs ∧
      d.resp = some (.bytes (s.dev.edidBytes n off.toNat len) false)) := by
  have hasked := s.dev.asked_out t hr
  refine answers_response (t := t) (f := fun d => (d.asked t).edidRead sb (stream.map (·.val)) off.toNat len) rfl
    (x := .bytes (s.dev.edidBytes n off.toNat len) false) ?_ ⟨(s.dev.asked_rest t).1, rfl⟩
  rw [hasked]
  exact (s.dev.atTime t).edidRead_served sb hr h

theorem answers_hdcpDdc :
    Answers (.dpcdScdcAccess t sb .hdcpDdc) s (fun d => d.resp = some .noAck ∧ d.regs = s.dev.regs) :=
  answers_response (t := t) (f := fun d => (d.asked t).capAccess sb .hdcpDdc) rfl (Dev.capAccess_hdcpDdc _ _)
    ⟨rfl, (s.dev.asked_rest t).1⟩

theorem answers_dpcd {n : Nat} (hr : s.dev.inReset = false) (howner : s.dev.sbandOwner sb = some n) (hkind : s.dev.ctxKind n = 3) :
    Answers (.dpcdScdcAccess t sb .dpcdHdcp) s (fun d => d.resp = some (.bytes [0] false)) ∧
    Answers (.dpcdScdcAccess t sb .dpcdMaxLanes) s (fun d =>
      d.resp = some (.bytes [BitVec.ofNat 8 (s.dev.act F.INGEST_LINK_LANE_COUNT n)] false)) := by
  have hasked := s.dev.asked_out t hr
  obtain ⟨hhdcp, hlanes⟩ := (s.dev.atTime t).capAccess_dpcd sb hr howner hkind
  constructor
  · exact answers_response (t := t) (f := fun d => (d.asked t).capAccess sb .dpcdHdcp) rfl (by rw [hasked, hhdcp]) rfl
  · refine answers_response (t := t) (f := fun d => (d.asked t).capAccess sb .dpcdMaxLanes) rfl
      (x := .bytes [BitVec.ofNat 8 (s.dev.act F.INGEST_LINK_LANE_COUNT n)] false) ?_ rfl
    rw [hasked]
    exact hlanes

end

theorem sidebandTablesAndHotPlug_holds : sidebandTablesAndHotPlug := by
  refine ⟨fun s t n v h => ⟨answers_edidDataWrite h v, answers_edidCommit h, answers_hpdPulse h⟩,
    fun s t n hr => ⟨answers_edidCommitTakeEffect hr, answers_hpdPulseEnd hr, exec_hpdPulseEnd_early hr⟩,
    fun s t sb => ⟨fun stream off len => ⟨answers_edidRead_unserved, fun n hr h => ?_⟩, answers_hdcpDdc, fun n => answers_dpcd⟩⟩
  obtain ⟨d, hd, hregs, hresp⟩ := answers_edidRead (t := t) (off := off) (len := len) hr h
  refine ⟨d, hd, hregs, _, hresp, by simp [Dev.edidBytes], fun k hk => s.dev.edidBytes_getD n off.toNat len hk⟩

end Sys2Proof.Machine
end

section
/-! PROOF. The side of a context that its ring stands on (R133, R134): the gates, the active copies, the ring's words and the
descriptor it executes; what the frame store, a discard, a publication and the beginning of a frame leave of it. -/
namespace Sys2Proof.Machine
namespace Dev

/-- The words of a context's page by which its ring stands: DMA_RING_SIZE, DMA_TAIL, DMA_HEAD, DMA_CTL and DMA_ERR, and
FRAMES_PUB. -/
def ringOffs : List Nat := [0x54, 0xA8, 0xAC, 0xB0, 0xB4, 0xB8]

/-- What a ring stands on of the hidden state of its context: the frame it assembles and the descriptor it executes. -/
def ringCtx (c : CtxSt) : Option InFrame × Option Descriptor := (c.cur, c.dma)

/-- What a ring stands on. -/
def ringSide (d : Dev) (n : Nat) :
    ((HandSt × List (Nat × PowUnit) × Bool × List (Nat × List FenceRec) × (Nat → Word)) × (Nat → Word)) ×
      List (Nat × PowUnit) × (Option InFrame × Option Descriptor) × Nat × (Nat → Word) :=
  (d.modeSide, d.doms, ringCtx (d.ctx n), d.dmaLast, fun o => if o ∈ ringOffs then d.word (pageAddr .ingest n 0 + o) else 0)

/-- A word in which no ring stands, nor a gate or an active copy. -/
abbrev ringFree (a : Nat) : Prop :=
  (a % 0x1000 < 0x400 ∧ a % 0x1000 ≠ 0x08) ∧ (a % 0x1000 ∉ ringOffs ∨ 0x300000 ≤ a)

section
variable (d : Dev) {n : Nat}

theorem modeSide_setWord_low {a : Nat} (v : Word) (h : a % 0x1000 < 0x400 ∧ a % 0x1000 ≠ 0x08) :
    (d.setWord a v).modeSide = d.modeSide :=
  modeSide_of (d.gating_setWord v h.2) fun b hb => d.word_setWord_ne v fun heq => by omega

theorem modeSide_count_ctx {f : Fld} (k : Nat) (h : f.ofCtx ∧ f.off < 0x400 ∧ f.off ≠ 0x08) : (d.count f n 0 k).modeSide = d.modeSide := by
  obtain ⟨hf, hlow, hgate⟩ := h
  have hpage := pageAddr_ingest n
  exact d.modeSide_setWord_low _ (by rw [ctxFld_addr hf]; omega)

theorem modeSide_irq (b : Blk) (i p k : Nat) : (d.irq b i p k).modeSide = d.modeSide := by
  obtain ⟨m, hm⟩ := dvd_pageAddr b i p
  exact modeSide_of (d.gating_irq b i p k) fun a ha => d.word_irq_ne _ _ _ _ (by omega)

variable {d} {e : Dev}

theorem ringSide_of (hm : e.modeSide = d.modeSide) (hdoms : e.doms = d.doms) (hctx : ringCtx (e.ctx n) = ringCtx (d.ctx n))
    (hlast : e.dmaLast = d.dmaLast)
    (hw : ∀ o ∈ ringOffs, e.word (pageAddr .ingest n 0 + o) = d.word (pageAddr .ingest n 0 + o)) : e.ringSide n = d.ringSide n := by
  have hwords : (fun o => if o ∈ ringOffs then e.word (pageAddr .ingest n 0 + o) else 0) =
      fun o => if o ∈ ringOffs then d.word (pageAddr .ingest n 0 + o) else 0 := by
    funext o
    split
    · next ho => exact hw o ho
    · rfl
  rw [ringSide, ringSide, hm, hdoms, hctx, hlast, hwords]

/-! What stands with the ring. -/

theorem dmaPending_congr (hmode : e.modeSide = d.modeSide) (hdoms : e.doms = d.doms) (hdma : (e.ctx n).dma = (d.ctx n).dma)
    (hw : ∀ o ∈ [0xAC, 0xB0, 0xB4], e.word (pageAddr .ingest n 0 + o) = d.word (pageAddr .ingest n 0 + o)) :
    e.dmaPending n = d.dmaPending n := by
  have hgate := gating_of_modeSide hmode
  have henabled : e.enabled .ingest n = d.enabled .ingest n := by
    simp only [enabled, fenced, waking, recs_of_gating hgate, hdoms, en_of_steady (steady_of_gating hgate)]
  have hkind : e.ctxKind n = d.ctxKind n := act_of_modeSide hmode F.INGEST_CFG_KIND n (by decide)
  have hget {f : Fld} (hf : f.ofCtx ∧ f.off ∈ [0xAC, 0xB0, 0xB4]) : e.get f n = d.get f n := d.get_ctx_congr hf.1 (hw _ hf.2)
  have hen : e.flag F.INGEST_DMA_CTL_EN n = d.flag F.INGEST_DMA_CTL_EN n := by rw [flag, flag, hget (by decide)]
  rw [dmaPending, dmaPending, henabled, hkind, hen, hget (f := F.INGEST_DMA_HEAD_HEAD) (by decide),
    hget (f := F.INGEST_DMA_TAIL_TAIL) (by decide), hdma]

section
variable (h : e.ringSide n = d.ringSide n)
include h

theorem modeSide_of_ringSide : e.modeSide = d.modeSide := congrArg (·.1) h
theorem gating_of_ringSide : e.gating = d.gating := gating_of_modeSide (modeSide_of_ringSide h)
theorem cur_of_ringSide : (e.ctx n).cur = (d.ctx n).cur := congrArg (·.2.2.1.1) h
theorem dma_of_ringSide : (e.ctx n).dma = (d.ctx n).dma := congrArg (·.2.2.1.2) h
theorem dmaLast_of_ringSide : e.dmaLast = d.dmaLast := congrArg (·.2.2.2.1) h

theorem word_of_ringSide {o : Nat} (ho : o ∈ ringOffs) : e.word (pageAddr .ingest n 0 + o) = d.word (pageAddr .ingest n 0 + o) := by
  have hword := congrFun (congrArg (·.2.2.2.2) h) o
  simpa only [ringSide, if_pos ho] using hword

theorem get_of_ringSide {f : Fld} (hf : f.ofCtx ∧ f.off ∈ ringOffs) : e.get f n = d.get f n :=
  d.get_ctx_congr hf.1 (word_of_ringSide h hf.2)

theorem dmaPending_of_ringSide : e.dmaPending n = d.dmaPending n := by
  have hmode := modeSide_of_ringSide h
  refine dmaPending_congr hmode (congrArg (·.2.1) h) (dma_of_ringSide h) fun o ho => word_of_ringSide h ?_
  have hsub : ∀ o ∈ [0xAC, 0xB0, 0xB4], o ∈ ringOffs := by decide
  exact hsub o ho

end

/-! What leaves it. -/

variable (d) (n : Fin 256)

@[simp] theorem ringSide_updCtx (m : Nat) (u : CtxSt → CtxSt) (hu : ∀ c, ringCtx (u c) = ringCtx c) : (d.updCtx m u).ringSide n = d.ringSide n := by
  refine ringSide_of rfl rfl ?_ rfl fun _ _ => rfl
  by_cases hm : (n : Nat) = m
  · rw [hm, ctx_updCtx, hu]
  · exact congrArg ringCtx (sget_sset_ne _ _ _ hm)

@[simp] theorem ringSide_irq (b : Blk) (i p k : Nat) : (d.irq b i p k).ringSide n = d.ringSide n := by
  obtain ⟨m, hm⟩ := dvd_pageAddr b i p
  refine ringSide_of (d.modeSide_irq b i p k) (d.irq_doms b i p k) (by rw [ctx_irq]) (d.irq_dmaLast b i p k) fun o ho => ?_
  refine d.word_irq_ne _ _ _ _ ?_
  have hpage := pageAddr_ingest n
  have hoffs : ∀ o ∈ ringOffs, o % 0x1000 ≠ 0x10 := by decide
  have hoff := hoffs o ho
  omega

theorem ringSide_setWord {a : Nat} (v : Word) (h : ringFree a) : (d.setWord a v).ringSide n = d.ringSide n := by
  obtain ⟨hlow, hfree⟩ := h
  refine ringSide_of (d.modeSide_setWord_low v hlow) rfl rfl rfl fun o ho => d.word_setWord_ne v fun heq => ?_
  have hpage := pageAddr_ingest n
  have hn := n.isLt
  have hoffs : ∀ o ∈ ringOffs, o % 0x1000 = o ∧ o < 0x1000 := by decide
  have hoff := hoffs o ho
  rcases hfree with hfree | hfree
  · refine hfree ?_
    rwa [← heq, show (pageAddr .ingest n 0 + o) % 0x1000 = o by omega]
  · omega

theorem ringSide_putAt {a : Nat} (lo w x : Nat) (h : ringFree a) : (d.putAt a lo w x).ringSide n = d.ringSide n :=
  d.ringSide_setWord n _ h

/-- Fields of the page beside the ring's words. -/
abbrev besideRing (f : Fld) : Prop := f.ofCtx ∧ f.off < 0x400 ∧ f.off ∉ 0x08 :: ringOffs

theorem ringFree_of_beside {n : Nat} {f : Fld} (hf : besideRing f) : ringFree (f.addr n 0 0) := by
  obtain ⟨hctx, hlow, hoff⟩ := hf
  rw [List.mem_cons, not_or] at hoff
  have hmod : f.addr n 0 0 % 0x1000 = f.off := by
    rw [ctxFld_addr hctx, pageAddr_ingest]
    omega
  rw [ringFree, hmod]
  exact ⟨⟨hlow, hoff.1⟩, .inl hoff.2⟩

@[simp] theorem ringSide_put {f : Fld} (x : Nat) (hf : besideRing f) : (d.put f x n).ringSide n = d.ringSide n :=
  d.ringSide_putAt n _ _ _ (ringFree_of_beside hf)

@[simp] theorem ringSide_putB {f : Fld} (x : Bool) (hf : besideRing f) : (d.putB f x n).ringSide n = d.ringSide n :=
  d.ringSide_put n _ hf

@[simp] theorem ringSide_put64 {f : Fld} (x : Nat) (hf : besideRing f) (hf' : ringFree (f.addr n 0 0 + 4)) :
    (d.put64 f x n).ringSide n = d.ringSide n :=
  (ringSide_setWord _ n _ hf').trans (d.ringSide_setWord n _ (ringFree_of_beside hf))

@[simp] theorem ringSide_count {f : Fld} (k : Nat) (hf : besideRing f) : (d.count f n 0 k).ringSide n = d.ringSide n :=
  d.ringSide_put n _ hf

@[simp] theorem ringSide_setCtxState (st : Nat) : (d.setCtxState n st).ringSide n = d.ringSide n := d.ringSide_put n _ (by decide)

@[simp] theorem ringSide_noteCause (m : Nat) : (d.noteCause m).ringSide n = d.ringSide n :=
  d.ringSide_updCtx n _ _ fun _ => apply_ite ringCtx _ _ _ |>.trans (ite_self _)

/-! A publication (R130). -/

@[simp] theorem ringSide_frozenDetect (crc : Nat) : (d.frozenDetect n crc).ringSide n = d.ringSide n := by
  have hnoted : ((d.noteCause n).updCtx n fun c => { c with prevCrc := some crc }).ringSide n = d.ringSide n := by
    rw [ringSide_updCtx _ n n (fun c => { c with prevCrc := some crc }) fun _ => rfl, ringSide_noteCause]
  unfold frozenDetect
  dsimp only
  split_ifs <;> simp (disch := decide) [hnoted]

@[simp] theorem ringSide_hbFail (v : Bool) : (d.hbFail n v).ringSide n = d.ringSide n := by
  unfold hbFail
  split <;> simp (disch := decide)

@[simp] theorem ringSide_hbPlaced (p : Pic) : (d.hbPlaced n p).ringSide n = d.ringSide n := by
  unfold hbPlaced
  split
  · refine (ringSide_updCtx _ n _ _ ?_).trans (d.ringSide_hbFail n true)
    exact fun _ => rfl
  · rfl

@[simp] theorem ringSide_hbQueue : (d.hbQueue n).ringSide n = d.ringSide n := by
  unfold hbQueue
  split
  · exact d.ringSide_updCtx n _ _ fun _ => rfl
  · rfl

/-- A word of an engine lies above the contexts. -/
theorem ringFree_skips (e : Nat) : ringFree (F.ENGINE_SKIPS.addr e 0 0) := by
  simp only [ringFree, Fld.addr, F.ENGINE_SKIPS, pageAddr, blkBase, blkStride, blkPages]
  omega

@[simp] theorem ringSide_engSkip (l : Nat) : (d.engSkip l).ringSide n = d.ringSide n :=
  foldl_keeps (ringSide · n) (fun e k _ => e.ringSide_putAt n _ _ _ (ringFree_skips k)) d

@[simp] theorem ringSide_engWait (l : Nat) (w : Pic × Option Pic) : (d.engWait l w).ringSide n = d.ringSide n := by
  unfold engWait
  dsimp only
  split
  · exact d.ringSide_engSkip n l
  · rfl

@[simp] theorem ringSide_engHold (l : Nat) : (d.engHold l).ringSide n = d.ringSide n := rfl
@[simp] theorem ringSide_updLayer (l : Nat) (u : LayerSt → LayerSt) : (d.updLayer l u).ringSide n = d.ringSide n := rfl

@[simp] theorem ringSide_engReady (m : Nat) (p : Pic) : (d.engReady m p).ringSide n = d.ringSide n := by
  refine foldl_keeps (ringSide · n) (fun e l _ => ?_) d
  dsimp only
  split
  · split
    · split <;> simp
    · split <;> simp
  · simp

theorem ringFree_skipped (s : Nat) : ringFree (F.SENDT_SKIPPED.addr (tsPage s) (s % 16) 0) := by
  have hblock := Nat.mod_lt s (show 0 < 16 by decide)
  have hmod : F.SENDT_SKIPPED.addr (tsPage s) (s % 16) 0 % 0x1000 = 80 + s % 16 * 48 := by
    rw [addr_mod]
    exact Nat.mod_eq_of_lt (by simp only [F.SENDT_SKIPPED]; omega)
  rw [ringFree, hmod]
  refine ⟨⟨by omega, by omega⟩, .inr ?_⟩
  · simp only [Fld.addr, F.SENDT_SKIPPED, pageAddr, blkBase, blkStride, blkPages]
    omega

@[simp] theorem ringSide_tatreWait (m : Nat) (p : Pic) : (d.tatreWait m p).ringSide n = d.ringSide n := by
  refine foldl_keeps (ringSide · n) (fun e s _ => ?_) d
  dsimp only
  split
  · exact e.ringSide_putAt n _ _ _ (ringFree_skipped s)
  · rfl

@[simp] theorem ringSide_noteFormat (m : Nat) (key : Nat × Nat × Nat × Nat × Bool) : (d.noteFormat m key).ringSide n = d.ringSide n := by
  unfold noteFormat
  dsimp only
  rw [ringSide_updCtx _ n m (fun c => { c with pubFmt := some key }) fun _ => rfl]
  split
  · split
    · rfl
    · refine (foldl_keeps (ringSide · n) ?_ _).trans (foldl_keeps (ringSide · n) ?_ d)
      · exact fun _ _ _ => rfl
      · intro e l _
        split <;> rfl
  · rfl

/-- The frame that a context assembles, replaced. -/
def withCur (d : Dev) (n : Nat) (c : Option InFrame) : Dev := d.updCtx n fun s => { s with cur := c }

/-- A context that waits for its first frame is LOCKED at a publication (R130). -/
def lockShown (d : Dev) (n : Nat) : Dev :=
  if d.ctxState n = stSearch then (d.setCtxState n stLocked).irq .ingest n 0 0 else d

@[simp] theorem ringSide_lockShown : (d.lockShown n).ringSide n = d.ringSide n := by
  unfold lockShown
  split <;> simp

/-- What a publication shows at its end: the marks that the frame leaves (R27, R31, R195, R183, R364). -/
def marksShown (d : Dev) (n crc : Nat) (p : Pic) : Dev :=
  ((((d.frozenDetect n crc).hbPlaced n p).hbQueue n).engReady n p).tatreWait n p

@[simp] theorem ringSide_marksShown (crc : Nat) (p : Pic) : (d.marksShown n crc p).ringSide n = d.ringSide n := by
  simp only [marksShown, ringSide_tatreWait, ringSide_engReady, ringSide_hbQueue, ringSide_hbPlaced, ringSide_frozenDetect]

theorem ringSide_setWord_congr {d e : Dev} {a : Nat} (v : Word) (h : e.ringSide n = d.ringSide n)
    (ha : a % 0x1000 < 0x400 ∧ a % 0x1000 ≠ 0x08) : (e.setWord a v).ringSide n = (d.setWord a v).ringSide n := by
  refine ringSide_of ?_ (congrArg (·.2.1) h) (congrArg (·.2.2.1) h) (congrArg (·.2.2.2.1) h) fun o ho => ?_
  · rw [modeSide_setWord_low _ _ ha, modeSide_setWord_low _ _ ha]
    exact modeSide_of_ringSide h
  · rw [word_setWord, word_setWord, word_of_ringSide h ho]

theorem ringSide_counted {d e : Dev} (h : e.ringSide n = d.ringSide n) :
    (e.count F.INGEST_FRAMES_PUB n).ringSide n = (d.count F.INGEST_FRAMES_PUB n).ringSide n := by
  have haddr : F.INGEST_FRAMES_PUB.addr n 0 0 = pageAddr .ingest n 0 + 0x54 := ctxFld_addr (by decide) n
  have hpage := pageAddr_ingest n
  rw [count, count, get_of_ringSide h (by decide), put, put, putAt, putAt, haddr, word_of_ringSide h (by decide)]
  exact ringSide_setWord_congr n _ h (by omega)

/-- What waits in the ring is as before. -/
theorem dmaPending_counted (x : Option InFrame) :
    ((d.withCur n x).count F.INGEST_FRAMES_PUB n).dmaPending n = d.dmaPending n := by
  have hmode := (d.withCur n x).modeSide_count_ctx (n := n) (f := F.INGEST_FRAMES_PUB) 1 (by decide)
  refine dmaPending_congr hmode rfl ?_ fun o ho => word_count_ctx_off _ _ ⟨by decide, ?_⟩
  · rw [ctx_count, withCur, ctx_updCtx]
  · have hoffs : ∀ o ∈ [0xAC, 0xB0, 0xB4], o ≠ F.INGEST_FRAMES_PUB.off := by decide
    exact hoffs o ho

/-- An update that replaces the frame assembled. -/
theorem ringSide_cur {d e : Dev} (h : e.ringSide n = d.ringSide n) (x : Option InFrame) (u : CtxSt → CtxSt)
    (hu : ringCtx (u (e.ctx n)) = (x, (e.ctx n).dma)) : (e.updCtx n u).ringSide n = (d.withCur n x).ringSide n := by
  have hmode := modeSide_of_ringSide h
  have hword {o : Nat} (ho : o ∈ ringOffs) := word_of_ringSide h ho
  refine ringSide_of hmode (congrArg (·.2.1) h) ?_ (congrArg (·.2.2.2.1) h) fun _ ho => hword ho
  rw [withCur, ctx_updCtx, ctx_updCtx, hu, dma_of_ringSide h]
  rfl

/-- A frame's publication counts it, and the context assembles none (R130). -/
theorem ringSide_publish {f : InFrame} (hcur : (d.ctx n).cur = some f) (t : Nat) :
    (d.publish n t).ringSide n = ((d.withCur n none).count F.INGEST_FRAMES_PUB n).ringSide n := by
  have hstamp : ringFree (F.INGEST_LAST_STAMP_LO.addr n 0 0 + 4) := by
    have hmod : (F.INGEST_LAST_STAMP_LO.addr n 0 0 + 4) % 0x1000 = 0x114 := by
      rw [ctxFld_addr (by decide), pageAddr_ingest]
      simp only [F.INGEST_LAST_STAMP_LO]
      omega
    rw [ringFree, hmod]
    exact ⟨by decide, .inl (by decide)⟩
  rw [publish, hcur]
  refine (ringSide_lockShown _ n).trans ((ringSide_marksShown _ n _ _).trans ?_)
  simp (disch := decide) only [ringSide_put, ringSide_putB]
  rw [ringSide_put64 _ n _ (by decide) hstamp, ringSide_put _ n _ (by decide)]
  refine ringSide_counted n (ringSide_cur n ?_ none _ rfl)
  rw [ringSide_noteCause, ringSide_noteFormat]

/-! A discard and the beginning of a frame (R142, R158). -/

theorem ringSide_withCur {d e : Dev} (h : e.ringSide n = d.ringSide n) (x : Option InFrame) :
    (e.withCur n x).ringSide n = (d.withCur n x).ringSide n := ringSide_cur n h x _ rfl

theorem ringSide_withCur_self {x : Option InFrame} (h : (d.ctx n).cur = x) : (d.withCur n x).ringSide n = d.ringSide n := by
  refine ringSide_of rfl rfl ?_ rfl fun _ _ => rfl
  rw [withCur, ctx_updCtx, ← h]

theorem ringSide_discard (reason : Nat) : (d.discard n reason).ringSide n = (d.withCur n none).ringSide n := by
  unfold discard
  simp (disch := decide) only [ringSide_irq, ringSide_put, ringSide_count]
  rfl

/-- The words of a frame that begins: no line is written, and what it lacks is shown (R130, R158). -/
def frameRoom (d : Dev) (n : Nat) (short : Prop) [Decidable short] : Dev :=
  let d := d.put F.INGEST_WRITE_LINE 0xFFFFFFFF n
  let d := if short then (d.putAt (F.TALON_CTX_SHORT.addr 0 (n / 32) 0) (n % 32) 1 1).irq .talon 0 0 1 else d
  if d.freeBuffers n = [] then d.count F.TALON_BUF_STARVE else d

/-- A frame that begins takes a buffer, or is given up for want of one (R158). The body is opened as a function: opened at `d`
its match is evaluated, buffer by buffer, when the two sides are compared. -/
theorem beginFrame_cases (d : Dev) (n t : Nat) (sig : SigFmt) (fmt : TileFmt) : ∃ (short : Prop) (_ : Decidable short),
    d.beginFrame n t sig fmt = ((d.frameRoom n short).discard n drSlab).updCtx n (fun c => { c with cur := some { sig := sig, drop := true } }) ∨
    ∃ p : Pic, d.beginFrame n t sig fmt = (d.frameRoom n short).updCtx n (fun c => { c with
      cur := some { pic := p, sig := sig, lastLine := t }
      pubs := (c.pubs.take 1) ++ (c.pubs.drop 1).filter (fun q => !overlap (picSlabs q) (picSlabs p)) }) := by
  have hbody : @beginFrame = @beginFrame := rfl
  conv_rhs at hbody => delta beginFrame
  obtain ⟨x, hx⟩ : ∃ x, x = d.beginFrame n t sig fmt := ⟨_, rfl⟩
  rw [← hx]
  rw [hbody] at hx
  beta_reduce at hx
  extract_lets c tiles d1 short d2 d3 at hx
  have hroom : d.frameRoom n short = d3 := rfl
  generalize (if short then [] else d3.freeBuffers n) = bufs at hx
  refine ⟨short, inferInstance, ?_⟩
  cases bufs with
  | nil => exact .inl hx
  | cons b bs => exact .inr ⟨_, hx⟩

theorem ringSide_frameRoom (short : Prop) [Decidable short] : (d.frameRoom n short).ringSide n = d.ringSide n := by
  have hshort : ringFree (F.TALON_CTX_SHORT.addr 0 (n / 32) 0) := by
    have hn := n.isLt
    simp only [ringFree, Fld.addr, F.TALON_CTX_SHORT, pageAddr, blkBase, blkStride, blkPages]
    omega
  have hstarve (e : Dev) : (e.count F.TALON_BUF_STARVE).ringSide n = e.ringSide n := e.ringSide_putAt n _ _ _ (by decide)
  unfold frameRoom
  dsimp only
  split_ifs <;> simp (disch := decide) only [hstarve, ringSide_irq, ringSide_putAt _ n _ _ _ hshort, ringSide_put]

theorem ringSide_withCur_withCur {d e : Dev} {x : Option InFrame} (h : e.ringSide n = (d.withCur n x).ringSide n)
    (y : Option InFrame) : (e.withCur n y).ringSide n = (d.withCur n y).ringSide n := by
  refine (ringSide_withCur n h y).trans (ringSide_of rfl rfl ?_ rfl fun _ _ => rfl)
  simp only [withCur, ctx_updCtx]

/-- A frame that begins holds no tile and has not ended. -/
theorem ringSide_beginFrame (t : Nat) (sig : SigFmt) (fmt : TileFmt) : ∃ g : InFrame, g.ended = false ∧ g.written = [] ∧
    (d.beginFrame n t sig fmt).ringSide n = (d.withCur n (some g)).ringSide n := by
  obtain ⟨short, _, hgiven | ⟨p, htaken⟩⟩ := d.beginFrame_cases n t sig fmt
  · refine ⟨{ sig := sig, drop := true }, rfl, rfl, ?_⟩
    have hroom := ringSide_withCur n (d.ringSide_frameRoom n short) none
    rw [hgiven]
    exact ringSide_withCur_withCur n ((ringSide_discard _ n _).trans hroom) _
  · refine ⟨{ pic := p, sig := sig, lastLine := t }, rfl, rfl, ?_⟩
    rw [htaken]
    exact ringSide_cur n (d.ringSide_frameRoom n short) _ _ rfl

end
end Dev
end Sys2Proof.Machine
end

section
/-! PROOF. Copy-forward of a frame that ended, and the descriptors of a ring (R133, R134, R151, R159). -/
namespace Sys2Proof.Machine
namespace Dev

/-- The device without its stored tiles and the books of their transactions. -/
def offStore (d : Dev) : Dev := { d.offBooks with tiles := [], scrubBad := [] }

section
variable (d : Dev)

theorem offStore_transact (q : Req) (k : Nat) : (d.transact q k).offStore = d.offStore :=
  congrArg (fun d => ({ d with tiles := [], scrubBad := [] } : Dev)) (d.offBooks_transact q k)

theorem offStore_slotMended (s slot sectors used : Nat) : (d.slotMended s slot sectors used).offStore = d.offStore := by
  unfold slotMended
  split <;> rfl

theorem offStore_writeTile (q : Req) (p : Pic) (prev : Option Pic) (c r stamp : Nat) (poison : Bool) (data : List Nat) :
    (d.writeTile q p prev c r stamp poison data).offStore = d.offStore := by
  unfold writeTile
  split
  · rfl
  · exact (offStore_transact _ _ _).trans (offStore_slotMended _ _ _ _ _)

/-- A read without errors marks at most tiles. -/
theorem offStore_readTile (q : Req) (p : Pic) (c r : Nat) : (d.readTile q p c r []).2.offStore = d.offStore := by
  unfold readTile
  split
  · rfl
  · dsimp only
    split
    · exact d.offStore_transact _ _
    · exact (offStore_slotMended _ _ _ _ _).trans (d.offStore_transact _ _)

theorem offStore_copyTile (q : Req) (p src : Pic) (c r : Nat) : (d.copyTile q p src c r []).offStore = d.offStore := by
  unfold copyTile
  split
  · rfl
  · exact (offStore_transact _ _ _).trans ((offStore_slotMended _ _ _ _ _).trans (d.offStore_readTile q src c r))

end

section
variable {d e : Dev} {n : Fin 256} {t : Nat}

theorem ringSide_of_offStore (h : e.offStore = d.offStore) : e.ringSide n = d.ringSide n := by
  have hside : e.offStore.ringSide n = d.offStore.ringSide n := by rw [h]
  exact hside

variable (d n) in
theorem ringSide_showWritten : (d.showWritten n).ringSide n = d.ringSide n := by
  have hput (x : Nat) : (d.put F.INGEST_WRITE_LINE x n).ringSide n = d.ringSide n := d.ringSide_put n x (by decide)
  unfold showWritten
  split
  · rfl
  · dsimp only
    split_ifs <;> simp only [hput]

/-- A context applies no hand while none waits. -/
theorem ctxBoundary_of_not_pending (n : Nat) (h : d.hand.pending = false) : d.ctxBoundary n = d := by
  simp [ctxBoundary, applyCtx, handReady, h]

theorem tryPublish_of_whole {n : Nat} {f : InFrame} (hcur : (d.ctx n).cur = some f) (hended : f.ended = true) (hdrop : f.drop = false)
    (hcopied : f.copied = true) : d.tryPublish n t = (d.publish n t).ctxBoundary n := by
  rw [tryPublish, hcur]
  simp [hended, hdrop, allWritten, hcopied]

theorem copyForward_of_open {n : Nat} {f : InFrame} (hcur : (d.ctx n).cur = some f) (hdrop : f.drop = false) (hcopied : f.copied = false)
    (htag : d.tagFree (reqIngest n) = true) : ∃ e : Dev, e.offStore = d.offStore ∧
    d.copyForward n t [] = ((e.withCur n (some { f with copied := true })).showWritten n).tryPublish n t := by
  rw [copyForward, hcur]
  simp only [hdrop, hcopied, htag]
  refine ⟨_, ?_, rfl⟩
  refine foldl_keeps offStore (fun e q _ => ?_) d
  split
  · split
    · exact e.offStore_copyTile _ _ _ _ _
    · exact e.offStore_writeTile _ _ _ _ _ _ _ _
  · exact e.offStore_writeTile _ _ _ _ _ _ _ _

/-- A frame that ended and is copied whole is published (R159, R130). -/
theorem ringSide_copyForward {f : InFrame} (hcur : (d.ctx n).cur = some f) (hended : f.ended = true) (hdrop : f.drop = false)
    (hcopied : f.copied = false) (htag : d.tagFree (reqIngest n) = true) (hhand : d.hand.pending = false) :
    (d.copyForward n t []).ringSide n = ((d.withCur n none).count F.INGEST_FRAMES_PUB n).ringSide n := by
  obtain ⟨e, hstore, hcopy⟩ := copyForward_of_open (t := t) hcur hdrop hcopied htag
  have hshown := (ringSide_showWritten (e.withCur n (some { f with copied := true })) n).trans
    (ringSide_withCur n (ringSide_of_offStore hstore) _)
  have hcur' : ((((e.withCur n (some { f with copied := true })).showWritten n)).ctx n).cur = some { f with copied := true } :=
    (cur_of_ringSide hshown).trans (by rw [withCur, ctx_updCtx])
  have hpub := (ringSide_publish _ n hcur' t).trans (ringSide_counted n (ringSide_withCur_withCur n hshown none))
  have hcalm : ((((e.withCur n (some { f with copied := true })).showWritten n).publish n t)).hand.pending = false := by
    rw [steady_hand (steady_of_gating (gating_of_ringSide hpub))]
    exact hhand
  rw [hcopy, tryPublish_of_whole hcur' hended hdrop rfl, ctxBoundary_of_not_pending _ hcalm, hpub]

end
end Dev
end Sys2Proof.Machine
end

section
/-! PROOF. The commands of a host-surface ring (R133, R134, R135, R141). -/
namespace Sys2Proof.Machine
namespace Dev

section
variable (d : Dev)

/-! A discard, and a descriptor that is rejected (R134, R142). -/

/-- A word of a page beside the listed ones. -/
theorem notMem_ctxWords {n o : Nat} {offs : List Nat} (h : o ∉ offs) :
    pageAddr .ingest n 0 + o ∉ offs.map (pageAddr .ingest n 0 + ·) := by
  intro hmem
  obtain ⟨x, hx, heq⟩ := List.mem_map.1 hmem
  exact h (Nat.add_left_cancel heq ▸ hx)

/-- A discard changes of the words the page's interrupts, the count and the reason alone. -/
theorem word_discardCur (n reason : Nat) {a : Nat} (ha : a ∉ [0x10, 0x58, 0x5C].map (pageAddr .ingest n 0 + ·)) :
    (d.discardCur n reason).word a = d.word a := by
  simp only [List.map_cons, List.map_nil, List.mem_cons, List.not_mem_nil, or_false, not_or] at ha
  obtain ⟨hirq, hcount, hreason⟩ := ha
  unfold discardCur
  split
  · split
    · rfl
    · rw [discard, word_irq_ne _ _ _ _ _ hirq, word_put_ctx _ ⟨rfl, rfl⟩ _ hreason]
      exact word_put_ctx _ ⟨rfl, rfl⟩ _ hcount
  · rfl

theorem get_discardCur (n reason : Nat) {g : Fld} (hg : g.ofCtx ∧ g.off ∉ [0x10, 0x58, 0x5C]) :
    (d.discardCur n reason).get g n = d.get g n := d.get_ctx_congr hg.1 (d.word_discardCur n reason (notMem_ctxWords hg.2))

theorem ctx_discardCur (n reason : Nat) : (d.discardCur n reason).ctx n = { d.ctx n with cur := none } := by
  unfold discardCur
  split
  · split
    · rw [ctx_updCtx]
    · rw [discard, ctx_irq, ctx_put, ctx_count, ctx_updCtx]
  · next hcur => rw [← hcur]

theorem irqBit_discardCur {n b : Nat} (reason : Nat) (h : (d.word (pageAddr .ingest n 0 + 0x10)).getLsbD b = true) :
    ((d.discardCur n reason).word (pageAddr .ingest n 0 + 0x10)).getLsbD b = true := by
  unfold discardCur
  split
  · split
    · exact h
    · refine irqBit_irq_of _ ?_
      rwa [word_put_ctx_off _ _ (by decide), word_count_ctx_off _ _ (by decide)]
  · exact h

/-- What a ring shows of a descriptor that it rejected, with the frame given up and the head moved on. -/
def showsRejected (d e : Dev) (n cause : Nat) : Prop :=
  e.get F.INGEST_DMA_ERR_CAUSE n = cause ∧ e.get F.INGEST_DMA_ERR_INDEX n = d.get F.INGEST_DMA_HEAD_HEAD n ∧ (e.ctx n).cur = none ∧
    e.get F.INGEST_DMA_HEAD_HEAD n = (d.get F.INGEST_DMA_HEAD_HEAD n + 1) % d.get F.INGEST_DMA_RING_SIZE_ENTRIES n % 4096

theorem head_dmaAdvance {n : Nat} (he : d.get F.INGEST_DMA_RING_SIZE_ENTRIES n ≠ 0) :
    (d.dmaAdvance n).get F.INGEST_DMA_HEAD_HEAD n =
      (d.get F.INGEST_DMA_HEAD_HEAD n + 1) % d.get F.INGEST_DMA_RING_SIZE_ENTRIES n % 4096 := by
  rw [dmaAdvance, if_neg he, get_put_ctx_self _ _ (by decide)]
  rfl

theorem showsRejected_dmaReject {n cause : Nat} (he : d.get F.INGEST_DMA_RING_SIZE_ENTRIES n ≠ 0) (hcause : cause < 16) :
    d.showsRejected (d.dmaReject n cause) n cause := by
  have hhead := d.get_lt F.INGEST_DMA_HEAD_HEAD n
  refine ⟨?_, ?_, ?_, ?_⟩
  · rw [dmaReject, dmaAdvance, get_put_ctx _ _ (by decide), get_discardCur _ _ _ (by decide), get_put_ctx_self _ _ (by decide)]
    exact Nat.mod_eq_of_lt hcause
  · rw [dmaReject, dmaAdvance, get_put_ctx _ _ (by decide), get_discardCur _ _ _ (by decide), get_put_ctx _ _ (by decide),
      get_put_ctx_self _ _ (by decide)]
    exact Nat.mod_eq_of_lt hhead
  · rw [dmaReject, dmaAdvance, ctx_put, ctx_discardCur]
  · have hsize : ((((d.put F.INGEST_DMA_ERR_INDEX (d.get F.INGEST_DMA_HEAD_HEAD n) n).put F.INGEST_DMA_ERR_CAUSE cause n).discardCur n
        drDescriptor)).get F.INGEST_DMA_RING_SIZE_ENTRIES n = d.get F.INGEST_DMA_RING_SIZE_ENTRIES n := by
      rw [get_discardCur _ _ _ (by decide), get_put_ctx _ _ (by decide), get_put_ctx _ _ (by decide)]
    rw [dmaReject, head_dmaAdvance _ (by rwa [hsize]), hsize, get_discardCur _ _ _ (by decide), get_put_ctx _ _ (by decide),
      get_put_ctx _ _ (by decide)]

theorem dma_dmaReject (n cause : Nat) : ((d.dmaReject n cause).ctx n).dma = (d.ctx n).dma := by
  rw [dmaReject, dmaAdvance, ctx_put, ctx_discardCur, ctx_put, ctx_put]

theorem gating_dmaAdvance (n : Nat) : (d.dmaAdvance n).gating = d.gating := d.gating_put _ _ (by decide)

theorem gating_dmaReject (n cause : Nat) : (d.dmaReject n cause).gating = d.gating := by
  rw [dmaReject, gating_dmaAdvance, gating_discardCur, gating_put _ _ _ (by decide), gating_put _ _ _ (by decide)]

theorem descCheck_lt (n : Nat) (x : Descriptor) : d.descCheck n x < 16 := by
  unfold descCheck
  dsimp only
  split_ifs <;> omega

theorem descCheck_of_modeSide {e : Dev} (h : e.modeSide = d.modeSide) (n : Nat) (x : Descriptor) : e.descCheck n x = d.descCheck n x := by
  have hact (f : Fld) (hf : 0x800 ≤ f.off ∧ f.off < 0x1000) : e.act f n = d.act f n := act_of_modeSide h f n hf
  have hflag (f : Fld) (hf : 0x800 ≤ f.off ∧ f.off < 0x1000) : e.actFlag f n = d.actFlag f n := by rw [actFlag, actFlag, hact f hf]
  have hsig : e.netSig n false = d.netSig n false := by
    rw [netSig, netSig, hact F.INGEST_NET_FMT2_SAMPLING (by decide), hflag F.INGEST_NET_FMT2_INTERLACED (by decide),
      hact F.INGEST_NET_FMT_WIDTH (by decide), hact F.INGEST_NET_FMT_HEIGHT (by decide), hact F.INGEST_NET_FMT2_DEPTH (by decide)]
  have hbpp : e.hostBpp n = d.hostBpp n := by
    rw [hostBpp, hostBpp, hact F.INGEST_NET_FMT2_SAMPLING (by decide), hflag F.INGEST_NET_FMT2_ALPHA_IN (by decide),
      hact F.INGEST_NET_FMT2_DEPTH (by decide)]
  rw [descCheck, descCheck, hsig, hbpp, hact F.INGEST_NET_FMT_WIDTH (by decide)]

/-! The start of a descriptor. -/

/-- A ring's turn to be served. -/
abbrev ringTurn (d : Dev) (n : Nat) : Prop := d.dmaPending n = true ∧ d.dmaBusy < 8 ∧ d.dmaHighest n = true

/-- A ring is served. -/
def ringServed (d : Dev) (n : Nat) : Dev := { d with dmaLast := n }

/-- A descriptor begins, and a frame with it where none is being assembled. -/
def dmaBegun (d : Dev) (n t : Nat) (x : Descriptor) : Dev :=
  (if (d.ctx n).cur.isNone then d.beginFrame n t (d.netSig n false) (d.ctxFmt n (d.netSig n false)) else d).updCtx n
    fun c => { c with dma := some x }

variable {d} {n t : Nat} {x : Descriptor} {e : Dev}

theorem dmaTurn_of_open (h : ∀ f, (d.ctx n).cur = some f → f.ended = false) : d.dmaTurn n t = d := by
  unfold dmaTurn
  split
  · next f hcur => simp [h f hcur]
  · rfl

theorem dmaTurn_of_ended {f : InFrame} (hcur : (d.ctx n).cur = some f) (hended : f.ended = true) : d.dmaTurn n t = d.copyForward n t [] := by
  rw [dmaTurn, hcur]
  exact if_pos hended

theorem dmaStart_of_turn (hturn : d.ringTurn n) (he : d.dmaTurn n t = e) (hpending : e.dmaPending n = true)
    (hopen : ∀ f, (e.ctx n).cur = some f → f.ended = false) :
    d.dmaStart n t x = if e.descCheck n x ≠ 0 then (e.ringServed n).dmaReject n (e.descCheck n x) else (e.ringServed n).dmaBegun n t x := by
  obtain ⟨hp, hbusy, hhigh⟩ := hturn
  have hended : ((e.ctx n).cur.map (·.ended)).getD false = false := by
    cases hcur : (e.ctx n).cur with
    | none => rfl
    | some f => exact hopen f hcur
  rw [dmaStart, if_neg (by simp [hp, hhigh, hbusy])]
  dsimp only
  rw [he, if_neg (by simp [hpending, hended])]
  rfl

end

section
variable (d : Dev) (n : Fin 256) (t : Nat) (x : Descriptor)

/-- A descriptor begins within the frame being assembled, or with a frame that holds no tile. -/
theorem dmaBegun_cases : ∃ (e : Dev) (c : Option InFrame), d.dmaBegun n t x = e.updCtx n (fun s => { s with dma := some x }) ∧
    e.ringSide n = (d.withCur n c).ringSide n ∧
    ((d.ctx n).cur = none → ∃ g : InFrame, c = some g ∧ g.ended = false ∧ g.written = []) := by
  cases hcur : (d.ctx n).cur with
  | none =>
    obtain ⟨b, hb⟩ : ∃ b, b = d.beginFrame n t (d.netSig n false) (d.ctxFmt n (d.netSig n false)) := ⟨_, rfl⟩
    obtain ⟨g, hended, hwritten, hside⟩ := d.ringSide_beginFrame n t (d.netSig n false) (d.ctxFmt n (d.netSig n false))
    refine ⟨b, some g, ?_, hb ▸ hside, fun _ => ⟨g, rfl, hended, hwritten⟩⟩
    rw [dmaBegun, hcur, ← hb, Option.isNone_none, if_pos rfl]
  | some f =>
    refine ⟨d, some f, ?_, (d.ringSide_withCur_self n hcur).symm, fun h => nomatch h⟩
    rw [dmaBegun, hcur, Option.isNone_some, if_neg Bool.false_ne_true]

theorem dma_dmaBegun : ((d.dmaBegun n t x).ctx n).dma = some x := by rw [dmaBegun, ctx_updCtx]

theorem gating_dmaBegun : (d.dmaBegun n t x).gating = d.gating := by
  obtain ⟨e, c, heq, hside, -⟩ := d.dmaBegun_cases n t x
  have hgate := gating_of_ringSide hside
  rwa [heq]

theorem dmaLast_dmaBegun : (d.dmaBegun n t x).dmaLast = d.dmaLast := by
  obtain ⟨e, c, heq, hside, -⟩ := d.dmaBegun_cases n t x
  have hlast := dmaLast_of_ringSide hside
  rwa [heq]

theorem get_dmaBegun {f : Fld} (hf : f.ofCtx ∧ f.off ∈ ringOffs) : (d.dmaBegun n t x).get f n = d.get f n := by
  obtain ⟨e, c, heq, hside, -⟩ := d.dmaBegun_cases n t x
  have hget := get_of_ringSide hside hf
  rwa [heq]

theorem cur_dmaBegun (h : (d.ctx n).cur = none) :
    ∃ g : InFrame, ((d.dmaBegun n t x).ctx n).cur = some g ∧ g.ended = false ∧ g.written = [] := by
  obtain ⟨e, c, heq, hside, hnew⟩ := d.dmaBegun_cases n t x
  obtain ⟨g, hc, hended, hwritten⟩ := hnew h
  refine ⟨g, ?_, hended, hwritten⟩
  rw [heq, ctx_updCtx]
  refine (cur_of_ringSide hside).trans ?_
  rw [withCur, ctx_updCtx, hc]

end
end Dev

section
variable {s : State} {t : Nat} {n : Fin 256} {x : Descriptor}

/-! The words of a ring (R133, R135). -/

theorem answers_dmaTailWrite (h : s.takesAt t ⟨.ingest, n, 0⟩) (he : s.dev.get F.INGEST_DMA_RING_SIZE_ENTRIES n ≠ 0) (tail : BitVec 12) :
    Answers (.dmaTailWrite t n tail) s (fun d =>
      d.get F.INGEST_DMA_TAIL_TAIL n = tail.toNat % s.dev.get F.INGEST_DMA_RING_SIZE_ENTRIES n ∧ s.dev.wordsOnly d t ∧
      s.dev.keeps d [pageAddr .ingest n 0 + 0xAC]) := by
  have hput : (s.dev.atTime t).dmaTailWrite n tail.toNat =
      (s.dev.atTime t).put F.INGEST_DMA_TAIL_TAIL (tail.toNat % s.dev.get F.INGEST_DMA_RING_SIZE_ENTRIES n) n := by
    rw [Dev.dmaTailWrite, Dev.get_atTime, if_neg he]
  refine answers_write h (g := (·.dmaTailWrite n tail.toNat)) rfl ?_ ?_ <;> rw [hput]
  · exact Dev.gating_put _ _ _ (by decide)
  · refine ⟨?_, rfl, fun a ha => Dev.word_put_ctx _ ⟨rfl, rfl⟩ _ fun heq => ha (List.mem_singleton.2 heq)⟩
    rw [Dev.get_put_ctx_self _ _ (by decide)]
    exact Nat.mod_eq_of_lt (lt_of_le_of_lt (Nat.mod_le _ _) tail.isLt)

theorem answers_dmaEnable (h : s.takesAt t ⟨.ingest, n, 0⟩) (he : s.dev.get F.INGEST_DMA_RING_SIZE_ENTRIES n ≠ 0) (prio : BitVec 2) :
    Answers (.dmaEnableWrite t n true prio) s (fun d => d.get F.INGEST_DMA_CTL_EN n = 1 ∧
      d.get F.INGEST_DMA_CTL_DMA_PRIO n = prio.toNat ∧ s.dev.wordsOnly d t ∧ s.dev.keeps d [pageAddr .ingest n 0 + 0xB4]) := by
  have hput : (s.dev.atTime t).dmaEnableWrite n true prio.toNat =
      ((s.dev.atTime t).put F.INGEST_DMA_CTL_DMA_PRIO prio.toNat n).put F.INGEST_DMA_CTL_EN 1 n := by
    rw [Dev.dmaEnableWrite, if_pos rfl, Dev.get_put_ctx _ _ (by decide), Dev.get_atTime, if_neg he]
  refine answers_write h (g := (·.dmaEnableWrite n true prio.toNat)) rfl ?_ ?_ <;> rw [hput]
  · rw [Dev.gating_put _ _ _ (by decide), Dev.gating_put _ _ _ (by decide), Dev.gating_atTime]
  · refine ⟨Dev.get_put_ctx_self _ _ (by decide), ?_, rfl, fun a ha => ?_⟩
    · rw [Dev.get_put_ctx _ _ (by decide), Dev.get_put_ctx_self _ _ (by decide)]
      exact Nat.mod_eq_of_lt prio.isLt
    · have ha' : a ≠ pageAddr .ingest n 0 + 0xB4 := fun heq => ha (List.mem_singleton.2 heq)
      rw [Dev.word_put_ctx _ ⟨rfl, rfl⟩ _ ha', Dev.word_put_ctx _ ⟨rfl, rfl⟩ _ ha', Dev.word_atTime]

/-- A ring that is stopped: its frame is given up, or its descriptor stops at its end. -/
theorem Dev.dmaDisable_cases (d : Dev) (n prio : Nat) : ∃ e : Dev,
    e = (d.put F.INGEST_DMA_CTL_DMA_PRIO prio n).put F.INGEST_DMA_CTL_EN 0 n ∧
    (d.dmaEnableWrite n false prio = e ∨ d.dmaEnableWrite n false prio = e.discardCur n drDescriptor ∨
      d.dmaEnableWrite n false prio = e.updCtx n (fun c => { c with dmaStop := true })) := by
  refine ⟨_, rfl, ?_⟩
  rw [Dev.dmaEnableWrite, if_neg (by simp)]
  dsimp only
  split
  · exact .inl rfl
  · split
    · exact .inr (.inl rfl)
    · exact .inr (.inr rfl)

theorem answers_dmaDisable (h : s.takesAt t ⟨.ingest, n, 0⟩) (prio : BitVec 2) :
    Answers (.dmaEnableWrite t n false prio) s (fun d => d.get F.INGEST_DMA_CTL_EN n = 0 ∧
      d.get F.INGEST_DMA_CTL_DMA_PRIO n = prio.toNat) := by
  obtain ⟨e, he, hcases⟩ := (s.dev.atTime t).dmaDisable_cases n prio.toNat
  have hgate : e.gating = s.dev.gating := by
    rw [he, Dev.gating_put _ _ _ (by decide), Dev.gating_put _ _ _ (by decide), Dev.gating_atTime]
  have hen : e.get F.INGEST_DMA_CTL_EN n = 0 := by
    rw [he]
    exact Dev.get_put_ctx_self _ _ (by decide)
  have hprio : e.get F.INGEST_DMA_CTL_DMA_PRIO n = prio.toNat := by
    rw [he, Dev.get_put_ctx _ _ (by decide), Dev.get_put_ctx_self _ _ (by decide)]
    exact Nat.mod_eq_of_lt prio.isLt
  refine answers_write h (g := (·.dmaEnableWrite n false prio.toNat)) rfl ?_ ?_ <;> obtain hd | hd | hd := hcases <;> rw [hd]
  · exact hgate
  · rwa [Dev.gating_discardCur]
  · exact hgate
  · exact ⟨hen, hprio⟩
  · rw [Dev.get_discardCur _ _ _ (by decide), Dev.get_discardCur _ _ _ (by decide)]
    exact ⟨hen, hprio⟩
  · exact ⟨hen, hprio⟩

/-! A descriptor starts (R134). -/

theorem answers_dmaStart_open (hr : s.dev.inReset = false) (hturn : s.dev.ringTurn n)
    (hopen : ∀ f, (s.dev.ctx n).cur = some f → f.ended = false) :
    (s.dev.descCheck n x = 0 → Answers (.dmaDescriptorStart t n x) s (fun d => (d.ctx n).dma = some x ∧
      d.get F.INGEST_DMA_HEAD_HEAD n = s.dev.get F.INGEST_DMA_HEAD_HEAD n ∧ d.dmaLast = n)) ∧
    (s.dev.descCheck n x ≠ 0 → s.dev.get F.INGEST_DMA_RING_SIZE_ENTRIES n ≠ 0 →
      Answers (.dmaDescriptorStart t n x) s (fun d => s.dev.showsRejected d n (s.dev.descCheck n x))) := by
  have hstart : (s.dev.atTime t).dmaStart n (max s.dev.house t) x =
      if s.dev.descCheck n x ≠ 0 then ((s.dev.atTime t).ringServed n).dmaReject n (s.dev.descCheck n x)
      else ((s.dev.atTime t).ringServed n).dmaBegun n (max s.dev.house t) x :=
    Dev.dmaStart_of_turn (d := s.dev.atTime t) hturn (Dev.dmaTurn_of_open hopen) hturn.1 hopen
  refine ⟨fun hpass => ?_, fun hfail he => ?_⟩
  · rw [if_neg (not_not.2 hpass)] at hstart
    refine answers_onDev hr (f := fun d => (d.atTime t).dmaStart n (max s.dev.house t) x) rfl ?_ ?_ <;> rw [hstart]
    · exact Dev.gating_dmaBegun _ _ _ _
    · exact ⟨Dev.dma_dmaBegun _ _ _ _, Dev.get_dmaBegun _ _ _ _ (by decide), Dev.dmaLast_dmaBegun _ _ _ _⟩
  · rw [if_pos hfail] at hstart
    refine answers_onDev hr (f := fun d => (d.atTime t).dmaStart n (max s.dev.house t) x) rfl ?_ ?_ <;> rw [hstart]
    · exact Dev.gating_dmaReject _ _ _
    · exact ((s.dev.atTime t).ringServed n).showsRejected_dmaReject he ((s.dev.atTime t).descCheck_lt n x)

theorem answers_dmaStart_ended {f : InFrame} (hr : s.dev.inReset = false) (hturn : s.dev.ringTurn n)
    (hcur : (s.dev.ctx n).cur = some f) (hended : f.ended = true) (hdrop : f.drop = false) (hcopied : f.copied = false)
    (hcalm : s.dev.calm) (htag : s.dev.tagFree (reqIngest n) = true) (hpass : s.dev.descCheck n x = 0) :
    Answers (.dmaDescriptorStart t n x) s (fun d => (d.ctx n).dma = some x ∧
      d.get F.INGEST_FRAMES_PUB n = min (s.dev.get F.INGEST_FRAMES_PUB n + 1) 0xFFFFFFFF ∧
      ∃ g, (d.ctx n).cur = some g ∧ g.ended = false ∧ g.written = []) := by
  obtain ⟨e, he⟩ : ∃ e, e = (s.dev.atTime t).copyForward n (max s.dev.house t) [] := ⟨_, rfl⟩
  have hside := Dev.ringSide_copyForward (d := s.dev.atTime t) (t := max s.dev.house t) hcur hended hdrop hcopied htag hcalm.1
  rw [← he] at hside
  have hnone : (e.ctx n).cur = none := (Dev.cur_of_ringSide hside).trans (by rw [Dev.ctx_count, Dev.withCur, Dev.ctx_updCtx])
  have hgate : e.gating = s.dev.gating := (Dev.gating_of_ringSide hside).trans (Dev.gating_count _ _ _ (by decide))
  have hpending : e.dmaPending n = true := by
    rw [Dev.dmaPending_of_ringSide hside, Dev.dmaPending_counted]
    exact hturn.1
  have hmode : e.modeSide = s.dev.modeSide := (Dev.modeSide_of_ringSide hside).trans (Dev.modeSide_count_ctx _ _ (by decide))
  have hcheck : e.descCheck n x = 0 := (s.dev.descCheck_of_modeSide hmode n x).trans hpass
  have hpub : e.get F.INGEST_FRAMES_PUB n = min (s.dev.get F.INGEST_FRAMES_PUB n + 1) 0xFFFFFFFF :=
    (Dev.get_of_ringSide hside (by decide)).trans (Dev.get_count_ctx_self _ _ (by decide))
  have hturned : (s.dev.atTime t).dmaTurn n (max s.dev.house t) = e := (Dev.dmaTurn_of_ended (d := s.dev.atTime t) hcur hended).trans he.symm
  have hstart := Dev.dmaStart_of_turn (d := s.dev.atTime t) (x := x) hturn hturned hpending (by simp [hnone])
  rw [if_neg (not_not.2 hcheck)] at hstart
  refine answers_onDev hr (f := fun d => (d.atTime t).dmaStart n (max s.dev.house t) x) rfl ?_ ?_ <;> rw [hstart]
  · exact (Dev.gating_dmaBegun _ _ _ _).trans hgate
  · exact ⟨Dev.dma_dmaBegun _ _ _ _, (Dev.get_dmaBegun _ _ _ _ (by decide)).trans hpub, Dev.cur_dmaBegun _ _ _ _ hnone⟩

end
end Sys2Proof.Machine
end

section
/-! PROOF. The end of a descriptor (R134), and the rings as a whole. -/
namespace Sys2Proof.Machine
namespace Dev

/-- A descriptor no longer executes. -/
def dmaFreed (d : Dev) (n : Nat) : Dev := d.updCtx n fun c => { c with dma := none, dmaStop := false }

/-- A descriptor that was read moves the head, and raises its event where it asks. -/
def dmaPassed (d : Dev) (n : Nat) (x : Descriptor) : Dev :=
  if x.irq then (d.dmaAdvance n).irq .ingest n 0 6 else d.dmaAdvance n

section
variable (d : Dev) (n : Fin 256) (t : Nat) {x : Descriptor}

/-- The tiles of a rectangle change the frame store and the frame being assembled alone. -/
theorem ringSide_dmaTiles (f : InFrame) (x : Descriptor) (lines : List (List Nat)) :
    ∃ c, (d.dmaTiles n t f x lines).ringSide n = (d.withCur n c).ringSide n := by
  obtain ⟨e, he, u, hu⟩ : ∃ e : Dev, e.offStore = d.offStore ∧ ∃ u : InFrame → InFrame,
      d.dmaTiles n t f x lines = (e.updCtx n fun c => { c with cur := c.cur.map u }).showWritten n := by
    refine ⟨_, ?_, _, rfl⟩
    exact foldl_keeps offStore (fun e r _ => foldl_keeps offStore (fun e c _ => e.offStore_writeTile _ _ _ _ _ _ _ _) e) d
  refine ⟨(d.ctx n).cur.map u, ?_⟩
  have hside := ringSide_of_offStore (n := n) he
  have hcur := cur_of_ringSide hside
  rw [hu, ringSide_showWritten]
  refine ringSide_cur n hside _ _ ?_
  rw [ringCtx, hcur]

/-- The tiles of a rectangle are written into the frame being assembled, unless it was given up. -/
def dmaStored (d : Dev) (n t : Nat) (x : Descriptor) (lines : List (List Nat)) : Dev :=
  match (d.ctx n).cur with
  | some f => if f.drop then d else d.dmaTiles n t f x lines
  | none => d

theorem ringSide_dmaStored (x : Descriptor) (lines : List (List Nat)) :
    ∃ c, (d.dmaStored n t x lines).ringSide n = (d.withCur n c).ringSide n := by
  have hkept := (d.ringSide_withCur_self n rfl).symm
  unfold dmaStored
  split
  · split
    · exact ⟨_, hkept⟩
    · exact d.ringSide_dmaTiles n t _ x lines
  · exact ⟨_, hkept⟩

theorem dmaDone_waits (hx : (d.ctx n).dma = some x) (htag : d.tagFree (reqDma n) = false) (lines : Option (List (List Nat))) :
    d.dmaDone n t lines = d := by
  rw [dmaDone, hx]
  simp [htag]

theorem dmaDone_aborted (hx : (d.ctx n).dma = some x) (htag : d.tagFree (reqDma n) = true) :
    d.dmaDone n t none = (d.dmaFreed n).dmaReject n 5 := by
  rw [dmaDone, hx]
  simp only [htag]
  rfl

theorem dmaDone_read (hx : (d.ctx n).dma = some x) (htag : d.tagFree (reqDma n) = true) (heof : x.eof = false) (lines : List (List Nat)) :
    ∃ e : Dev, e = ((d.dmaFreed n).dmaStored n t x lines).dmaPassed n x ∧
      (d.dmaDone n t (some lines) = e ∨ d.dmaDone n t (some lines) = e.discardCur n drDescriptor) := by
  refine ⟨_, rfl, ?_⟩
  obtain ⟨y, hy⟩ : ∃ y, y = d.dmaDone n t (some lines) := ⟨_, rfl⟩
  rw [← hy]
  rw [dmaDone, hx] at hy
  simp only [htag, heof, Bool.not_true, Bool.false_eq_true, if_false] at hy
  cases hstop : ((d.ctx n).dmaStop || !d.flag F.INGEST_DMA_CTL_EN n) with
  | false => exact .inl (hy.trans (if_neg (by simp [hstop])))
  | true => exact .inr (hy.trans (if_pos hstop))

/-! What a descriptor that was read leaves. -/

theorem ctx_dmaPassed (x : Descriptor) (m : Nat) : (d.dmaPassed n x).ctx m = d.ctx m := by
  unfold dmaPassed
  split
  · rw [ctx_irq, dmaAdvance, ctx_put]
  · rw [dmaAdvance, ctx_put]

theorem gating_dmaPassed (x : Descriptor) : (d.dmaPassed n x).gating = d.gating := by
  unfold dmaPassed
  split
  · rw [gating_irq, gating_dmaAdvance]
  · exact d.gating_dmaAdvance n

theorem head_dmaPassed (x : Descriptor) (he : d.get F.INGEST_DMA_RING_SIZE_ENTRIES n ≠ 0) :
    (d.dmaPassed n x).get F.INGEST_DMA_HEAD_HEAD n =
      (d.get F.INGEST_DMA_HEAD_HEAD n + 1) % d.get F.INGEST_DMA_RING_SIZE_ENTRIES n % 4096 := by
  unfold dmaPassed
  split
  · rw [get_irq_ctx _ _ (by decide), head_dmaAdvance _ he]
  · exact d.head_dmaAdvance he

theorem irqBit_dmaPassed (hirq : x.irq = true) : ((d.dmaPassed n x).word (pageAddr .ingest n 0 + 0x10)).getLsbD 6 = true := by
  rw [dmaPassed, if_pos hirq]
  exact irqBit_irq _ (by decide)

/-- A descriptor that was read, not the last of its frame: the ring goes on past it. -/
def showsPassed (d e : Dev) (n : Nat) (x : Descriptor) : Prop :=
  (e.ctx n).dma = none ∧
  e.get F.INGEST_DMA_HEAD_HEAD n = (d.get F.INGEST_DMA_HEAD_HEAD n + 1) % d.get F.INGEST_DMA_RING_SIZE_ENTRIES n % 4096 ∧
  (x.irq = true → (e.word (pageAddr .ingest n 0 + 0x10)).getLsbD 6 = true)

theorem showsPassed_dmaPassed (x : Descriptor) (lines : List (List Nat)) (he : d.get F.INGEST_DMA_RING_SIZE_ENTRIES n ≠ 0) :
    d.showsPassed (((d.dmaFreed n).dmaStored n t x lines).dmaPassed n x) n x ∧
      (((d.dmaFreed n).dmaStored n t x lines).dmaPassed n x).gating = d.gating := by
  obtain ⟨c, hside⟩ := (d.dmaFreed n).ringSide_dmaStored n t x lines
  have hget {f : Fld} (hf : f.ofCtx ∧ f.off ∈ ringOffs) : ((d.dmaFreed n).dmaStored n t x lines).get f n = d.get f n :=
    get_of_ringSide hside hf
  have hgate := gating_of_ringSide hside
  refine ⟨⟨?_, ?_, irqBit_dmaPassed _ _⟩, (gating_dmaPassed _ _ _).trans hgate⟩
  · rw [ctx_dmaPassed, dma_of_ringSide hside]
    simp only [withCur, dmaFreed, ctx_updCtx]
  · rw [head_dmaPassed _ _ _ (by rwa [hget (by decide)]), hget (by decide), hget (by decide)]

theorem showsPassed_discardCur {e : Dev} (reason : Nat) (h : d.showsPassed e n x) : d.showsPassed (e.discardCur n reason) n x := by
  obtain ⟨hdma, hhead, hirq⟩ := h
  refine ⟨?_, ?_, fun hx => irqBit_discardCur _ _ (hirq hx)⟩
  · rw [ctx_discardCur]
    exact hdma
  · rwa [get_discardCur _ _ _ (by decide)]

end
end Dev

section
variable {s : State} {t : Nat} {n : Fin 256} {x : Descriptor} (hr : s.dev.inReset = false) (hx : (s.dev.ctx n).dma = some x)
include hr hx

theorem exec_dmaDone_waits (htag : s.dev.tagFree (reqDma n) = false) (lines : Option (List (List Nat))) :
    exec (.dmaDescriptorDone t n lines) s = .next { s with dev := s.dev.atTime t } :=
  exec_of_onDev (f := fun d => (d.atTime t).dmaDone n (max s.dev.house t) lines) rfl hr
    ((s.dev.atTime t).dmaDone_waits n (max s.dev.house t) hx htag lines) hr

variable (he : s.dev.get F.INGEST_DMA_RING_SIZE_ENTRIES n ≠ 0) (htag : s.dev.tagFree (reqDma n) = true)
include he htag

theorem answers_dmaDone_aborted :
    Answers (.dmaDescriptorDone t n none) s (fun d => s.dev.showsRejected d n 5 ∧ (d.ctx n).dma = none) := by
  have hdone := (s.dev.atTime t).dmaDone_aborted n (max s.dev.house t) hx htag
  refine answers_onDev hr (f := fun d => (d.atTime t).dmaDone n (max s.dev.house t) none) rfl ?_ ?_ <;> rw [hdone]
  · rw [Dev.gating_dmaReject]
    rfl
  · refine ⟨((s.dev.atTime t).dmaFreed n).showsRejected_dmaReject he (by decide), ?_⟩
    rw [Dev.dma_dmaReject, Dev.dmaFreed, Dev.ctx_updCtx]

theorem answers_dmaDone_read (heof : x.eof = false) (lines : List (List Nat)) :
    Answers (.dmaDescriptorDone t n (some lines)) s (fun d => s.dev.showsPassed d n x) := by
  obtain ⟨e, he', hdone⟩ := (s.dev.atTime t).dmaDone_read n (max s.dev.house t) hx htag heof lines
  obtain ⟨hpassed, hgate⟩ := (s.dev.atTime t).showsPassed_dmaPassed n (max s.dev.house t) x lines he
  rw [← he'] at hpassed hgate
  refine answers_onDev hr (f := fun d => (d.atTime t).dmaDone n (max s.dev.house t) (some lines)) rfl ?_ ?_ <;>
    obtain hd | hd := hdone <;> rw [hd]
  · exact hgate
  · rwa [Dev.gating_discardCur]
  · exact hpassed
  · exact (s.dev.atTime t).showsPassed_discardCur n _ hpassed

end

/-- The host-surface rings do as the spec gives. -/
theorem dmaRings_holds : dmaRings := by
  intro s t n e base head rejected
  refine ⟨fun h => ⟨fun tail he => answers_dmaTailWrite h he tail, fun prio => ⟨fun he => answers_dmaEnable h he prio, answers_dmaDisable h prio⟩⟩,
    fun hr => ⟨fun x hpending hbusy hhigh => ?_, fun x hx he => ⟨fun htag lines => ?_, fun htag => ⟨?_, fun lines heof => ?_⟩⟩⟩⟩
  · have hturn : s.dev.ringTurn n := ⟨hpending, hbusy, hhigh⟩
    exact ⟨answers_dmaStart_open hr hturn, fun f hcur hended hdrop hcopied hcalm htag hpass =>
      answers_dmaStart_ended hr hturn hcur hended hdrop hcopied hcalm htag hpass⟩
  · exact exec_dmaDone_waits hr hx htag lines
  · exact answers_dmaDone_aborted hr hx he htag
  · exact answers_dmaDone_read hr hx he htag heof lines

end Sys2Proof.Machine

open Sys2Proof Sys2Proof.Machine

/-- Settles O24, by the sideband commands one by one and the side of a context that its ring stands on. -/
theorem sidebandTablesAndRings : Obligations.SidebandTablesAndRings := ⟨sidebandTablesAndHotPlug_holds, dmaRings_holds⟩
end

section
/-! PROOF. A context leaves its state: format change, encryption, and the loss of its stream (R116, R122, R123, R125, R136, R137,
R140, R142). -/
namespace Sys2Proof.Machine
namespace Dev

/-- The device apart from its words, its events and the hidden state of its contexts. -/
def offCtxs (d : Dev) : Dev := { d.apart with ctxs := [] }

section
variable (d : Dev) (n : Nat)

/-! What a discard and the taking back of a FORMAT_CHANGE leave. -/

@[simp] theorem offCtxs_irq (k : Nat) : (d.irq .ingest n 0 k).offCtxs = d.offCtxs :=
  congrArg (fun a => ({ a with ctxs := [] } : Dev)) (irq_rest d .ingest n 0 k)

@[simp] theorem offCtxs_putAt (a lo w x : Nat) : (d.putAt a lo w x).offCtxs = d.offCtxs := rfl
@[simp] theorem offCtxs_put (f : Fld) (x i : Nat) : (d.put f x i).offCtxs = d.offCtxs := rfl
@[simp] theorem offCtxs_count (f : Fld) (i : Nat) : (d.count f i).offCtxs = d.offCtxs := rfl
@[simp] theorem offCtxs_updCtx (u : CtxSt → CtxSt) : (d.updCtx n u).offCtxs = d.offCtxs := rfl

@[simp] theorem offCtxs_discardCur (reason : Nat) : (d.discardCur n reason).offCtxs = d.offCtxs := by
  unfold discardCur
  split
  · split
    · rfl
    · rw [discard, offCtxs_irq, offCtxs_put, offCtxs_count, offCtxs_updCtx]
  · rfl

@[simp] theorem offCtxs_changeUndo : (d.changeUndo n).offCtxs = d.offCtxs := by
  unfold changeUndo
  split
  · split
    · dsimp only
      rw [offCtxs_updCtx]
      split
      · exact d.offCtxs_put _ _ n
      · rw [offCtxs_putAt, offCtxs_put]
    · rfl
  · rfl

@[simp] theorem cur_changeUndo : ((d.changeUndo n).ctx n).cur = (d.ctx n).cur := by
  unfold changeUndo
  split
  · split
    · dsimp only
      rw [ctx_updCtx]
      split <;> rfl
    · rfl
  · rfl

theorem word_changeUndo {a : Nat} (h : a ∉ [0x10, 0x68].map (pageAddr .ingest n 0 + ·)) : (d.changeUndo n).word a = d.word a := by
  simp only [List.map_cons, List.map_nil, List.mem_cons, List.not_mem_nil, or_false, not_or] at h
  obtain ⟨hirq, hcount⟩ := h
  have hput : (d.put F.INGEST_FORMAT_CHANGES (d.get F.INGEST_FORMAT_CHANGES n - 1) n).word a = d.word a := d.word_put_ctx ⟨rfl, rfl⟩ _ hcount
  unfold changeUndo
  split
  · split
    · dsimp only
      rw [word_updCtx]
      split
      · exact hput
      · exact (word_putAt_ne _ _ _ _ hirq).trans hput
    · rfl
  · rfl

/-- A FORMAT_CHANGE of this very edge is taken back from its count. -/
theorem changes_changeUndo_now {w : Bool} (h : (d.ctx n).changed = some (d.house, w)) :
    (d.changeUndo n).get F.INGEST_FORMAT_CHANGES n = d.get F.INGEST_FORMAT_CHANGES n - 1 := by
  have hlt := d.get_lt F.INGEST_FORMAT_CHANGES n
  have hput : (d.put F.INGEST_FORMAT_CHANGES (d.get F.INGEST_FORMAT_CHANGES n - 1) n).get F.INGEST_FORMAT_CHANGES n =
      d.get F.INGEST_FORMAT_CHANGES n - 1 := by
    rw [get_put_ctx_self _ _ (by decide)]
    exact Nat.mod_eq_of_lt (by omega)
  rw [changeUndo, h]
  dsimp only
  rw [if_pos rfl, get_updCtx]
  cases w with
  | true => exact hput
  | false => 
    refine Eq.trans (get_ctx_congr _ (by decide) ?_) hput
    exact word_putAt_ne _ _ _ _ (by simp only [F.INGEST_FORMAT_CHANGES]; omega)

theorem changeUndo_of_earlier (h : ∀ w, (d.ctx n).changed ≠ some (d.house, w)) : d.changeUndo n = d := by
  unfold changeUndo
  split
  · next t w hc =>
    split
    · next ht => exact absurd (ht ▸ hc) (h w)
    · rfl
  · rfl

/-! The loss of a context (R136). -/

/-- A context before it shows LOST: its frame is given up, and what it knew of its stream is forgotten. -/
def loseForgets (d : Dev) (n : Nat) : Dev :=
  ((d.discardCur n drIncomplete).changeUndo n).updCtx n fun c => { c with lastStart := none, highSeq := none, closedRtp := none }

theorem ctxLose_of_open (h : d.get F.INGEST_STATE_STATE n = 1 ∨ d.get F.INGEST_STATE_STATE n = 2) :
    d.ctxLose n = (((d.loseForgets n).count F.INGEST_LOST_EVENTS n).setCtxState n stLost).irq .ingest n 0 1 := if_pos h

theorem word_loseForgets {a : Nat} (h : a ∉ [0x10, 0x58, 0x5C, 0x68].map (pageAddr .ingest n 0 + ·)) :
    (d.loseForgets n).word a = d.word a := by
  rw [loseForgets, word_updCtx, word_changeUndo _ _ (fun hmem => h ?_), word_discardCur _ _ _ (fun hmem => h ?_)]
  · exact List.map_subset _ (by decide) hmem
  · exact List.map_subset _ (by decide) hmem

/-- What a context that is lost shows and keeps (R136, R140, R142). -/
theorem ctxLose_shows (h : d.get F.INGEST_STATE_STATE n = 1 ∨ d.get F.INGEST_STATE_STATE n = 2) :
    (d.ctxLose n).get F.INGEST_STATE_STATE n = 3 ∧
    (d.ctxLose n).get F.INGEST_LOST_EVENTS n = min (d.get F.INGEST_LOST_EVENTS n + 1) 0xFFFFFFFF ∧
    ((d.ctxLose n).ctx n).cur = none ∧ ((d.ctxLose n).word (pageAddr .ingest n 0 + 0x10)).getLsbD 1 = true ∧
    d.keeps (d.ctxLose n) ([0x10, 0x40, 0x58, 0x5C, 0x64, 0x68].map (pageAddr .ingest n 0 + ·)) ∧
    (d.ctxLose n).get F.INGEST_FORMAT_CHANGES n = ((d.discardCur n drIncomplete).changeUndo n).get F.INGEST_FORMAT_CHANGES n ∧
    (d.ctxLose n).offCtxs = d.offCtxs := by
  have hforgot : (d.loseForgets n).get F.INGEST_LOST_EVENTS n = d.get F.INGEST_LOST_EVENTS n :=
    d.get_ctx_congr (by decide) (d.word_loseForgets n (notMem_ctxWords (by decide)))
  rw [d.ctxLose_of_open n h, setCtxState]
  refine ⟨?_, ?_, ?_, irqBit_irq _ (by decide), fun a ha => ?_, ?_, ?_⟩
  · rw [get_irq_ctx _ _ (by decide), get_put_ctx_self _ _ (by decide)]
    rfl
  · rw [get_irq_ctx _ _ (by decide), get_put_ctx _ _ (by decide), get_count_ctx_self _ _ (by decide), hforgot]
  · rw [ctx_irq, ctx_put, ctx_count, loseForgets, ctx_updCtx]
    dsimp only
    rw [cur_changeUndo, ctx_discardCur]
  · have hkept : a ∉ [0x10, 0x58, 0x5C, 0x68].map (pageAddr .ingest n 0 + ·) := fun hmem => ha (List.map_subset _ (by decide) hmem)
    simp only [List.map_cons, List.map_nil, List.mem_cons, List.not_mem_nil, or_false, not_or] at ha
    obtain ⟨hirq, hstate, -, -, hlost, -⟩ := ha
    rw [word_irq_ne _ _ _ _ _ hirq, word_put_ctx _ ⟨rfl, rfl⟩ _ hstate]
    exact (word_put_ctx _ ⟨rfl, rfl⟩ _ hlost).trans (d.word_loseForgets n hkept)
  · rw [get_irq_ctx _ _ (by decide), get_put_ctx _ _ (by decide), get_count_ctx _ _ (by decide)]
    rfl
  · rw [offCtxs_irq, offCtxs_put, offCtxs_count, loseForgets, offCtxs_updCtx, offCtxs_changeUndo, offCtxs_discardCur]

/-! A format change, encryption, and a path that falls silent (R116, R122, R125). -/

theorem formatChange_shows :
    (d.formatChange n).get F.INGEST_STATE_STATE n = 1 ∧
    (d.formatChange n).get F.INGEST_FORMAT_CHANGES n = min (d.get F.INGEST_FORMAT_CHANGES n + 1) 0xFFFFFFFF ∧
    ((d.formatChange n).word (pageAddr .ingest n 0 + 0x10)).getLsbD 2 = true ∧ ((d.formatChange n).ctx n).cur = none ∧
    ((d.formatChange n).ctx n).confirmed = none ∧ ((d.formatChange n).ctx n).lastStart = none ∧ (d.formatChange n).gating = d.gating := by
  rw [formatChange, setCtxState]
  refine ⟨?_, ?_, irqBit_irq _ (by decide), ?_, ?_, ?_, ?_⟩
  · rw [get_irq_ctx _ _ (by decide), get_updCtx, get_put_ctx_self _ _ (by decide)]
    rfl
  · rw [get_irq_ctx _ _ (by decide), get_updCtx, get_put_ctx _ _ (by decide), get_count_ctx_self _ _ (by decide),
      get_discardCur _ _ _ (by decide)]
  · rw [ctx_irq, ctx_updCtx, ctx_put, ctx_count, ctx_discardCur]
  · rw [ctx_irq, ctx_updCtx]
  · rw [ctx_irq, ctx_updCtx]
  · rw [gating_irq, gating_updCtx, gating_put _ _ _ (by decide), gating_count _ _ _ (by decide), gating_discardCur]

/-- A context enters a state other than its own, with its event. -/
theorem enterState_shows {st b : Nat} (hst : st < 8) (hne : d.get F.INGEST_STATE_STATE n ≠ st) (hb : b < 31) :
    (d.enterState n st b).get F.INGEST_STATE_STATE n = st ∧ ((d.enterState n st b).word (pageAddr .ingest n 0 + 0x10)).getLsbD b = true ∧
    (d.enterState n st b).ctx n = d.ctx n ∧ (d.enterState n st b).gating = d.gating := by
  rw [enterState, ctxState, if_neg hne, setCtxState]
  refine ⟨?_, irqBit_irq _ hb, ?_, ?_⟩
  · rw [get_irq_ctx _ _ (by decide), get_put_ctx_self _ _ (by decide)]
    exact Nat.mod_eq_of_lt hst
  · rw [ctx_irq, ctx_put]
  · rw [gating_irq, gating_put _ _ _ (by decide)]

theorem pathDown_shows :
    (d.pathDown n false).flag F.INGEST_STATE_PATH1_DOWN n = true ∧ (d.pathDown n false).flag F.INGEST_STATE_PATH_DOWN n = true ∧
    (d.pathDown n false).get F.INGEST_STATE_STATE n = d.get F.INGEST_STATE_STATE n := by
  unfold pathDown
  dsimp only
  split <;> simp (disch := decide) [flag]

/-- A context marks a protected stream as its cause. -/
def protectNoted (d : Dev) (n : Nat) : Dev := (d.noteCause n).updCtx n fun c => { c with protectedCause := true }

theorem cur_noteCause : ((d.noteCause n).ctx n).cur = (d.ctx n).cur := by
  rw [noteCause, causeMark, ctx_updCtx]
  split <;> rfl

/-- A context whose stream is protected (R122). -/
theorem protect_shows (h : d.get F.INGEST_STATE_STATE n ≠ 4) :
    ((d.protectNoted n).enterState n stProtected 4).get F.INGEST_STATE_STATE n = 4 ∧
    (((d.protectNoted n).enterState n stProtected 4).word (pageAddr .ingest n 0 + 0x10)).getLsbD 4 = true ∧
    (((d.protectNoted n).enterState n stProtected 4).ctx n).cur = (d.ctx n).cur ∧
    (((d.protectNoted n).enterState n stProtected 4).ctx n).protectedCause = true ∧
    ((d.protectNoted n).enterState n stProtected 4).gating = d.gating := by
  obtain ⟨hstate, hirq, hctx, hgate⟩ := (d.protectNoted n).enterState_shows n (st := stProtected) (b := 4) (by decide) h (by decide)
  refine ⟨hstate, hirq, ?_, ?_, ?_⟩
  · rw [hctx, protectNoted, ctx_updCtx]
    exact d.cur_noteCause n
  · rw [hctx, protectNoted, ctx_updCtx]
  · rw [hgate, protectNoted, gating_updCtx, gating_noteCause]

/-! A silence that has lasted (R137). -/

/-- A silence of `gap` ns has lasted 4 line periods of the context's format, 4 ms where it has none, and a line more after a packet
with the marker bit. -/
def quiet (d : Dev) (n gap : Nat) (marker : Bool) : Prop :=
  (isBaseband (d.ctxKind n) = true ∧ ∃ sig, (d.ctx n).confirmed = some sig ∧ 4 * (d.ctx n).confPeriod ≤ gap * sig.vtotal) ∨
  (isBaseband (d.ctxKind n) = false ∧ d.ctxKind n = 6 ∧
    40 * (d.act F.INGEST_RATE_DEN n * 1000000000) +
      (if marker then d.act F.INGEST_NET_FMT_HEIGHT n * (d.act F.INGEST_RATE_DEN n * 1000000000) else 0) ≤
        10 * gap * d.act F.INGEST_RATE_NUM n * d.act F.INGEST_NET_FMT_HEIGHT n) ∨
  (isBaseband (d.ctxKind n) = false ∧ d.ctxKind n ≠ 6 ∧ 4000000 ≤ gap)

theorem fourLines_iff (gap : Nat) (marker : Bool) : d.fourLines n gap marker = true ↔ d.quiet n gap marker := by
  unfold fourLines quiet
  dsimp only
  cases hkind : isBaseband (d.ctxKind n) with
  | true =>
    rw [if_pos rfl]
    cases (d.ctx n).confirmed <;> simp
  | false =>
    rw [if_neg Bool.false_ne_true]
    by_cases hvideo : d.ctxKind n = 6
    · rw [if_pos hvideo]
      simp [hvideo]
    · rw [if_neg hvideo]
      simp [hvideo]

theorem ctxSilent_iff (h : d.get F.INGEST_STATE_STATE n = 1 ∨ d.get F.INGEST_STATE_STATE n = 2) :
    d.ctxSilent n = true ↔
      if d.get F.INGEST_STATE_STATE n = 1 then 4000000 ≤ d.house - (d.ctx n).heard.1
      else d.quiet n (d.house - (d.ctx n).heard.1) (d.ctx n).heard.2 := by
  unfold ctxSilent ctxState
  dsimp only
  rcases h with h | h
  · rw [h, if_neg (by decide), if_pos rfl, decide_eq_true_eq]
  · rw [h, if_pos (show 2 = stLocked from rfl), if_neg (by decide), fourLines_iff]

/-! The commands at a context that is enabled. -/

variable {d n} (hen : d.enabled .ingest n = true)
include hen

theorem formatSignalChange_locked (hkind : isBaseband (d.ctxKind n) = true) (hst : d.get F.INGEST_STATE_STATE n = 2) :
    d.formatSignalChange n = d.formatChange n := by
  rw [formatSignalChange, if_neg (by simp [hen, hkind])]
  exact if_pos hst

theorem encryptionDetected_open (hkind : isBaseband (d.ctxKind n) = true)
    (hst : d.get F.INGEST_STATE_STATE n = 1 ∨ d.get F.INGEST_STATE_STATE n = 2 ∨ d.get F.INGEST_STATE_STATE n = 5) :
    d.encryptionDetected n = ((d.discardCur n drProtected).protectNoted n).enterState n stProtected 4 := by
  refine if_pos ?_
  rw [hen, hkind, Bool.true_and, Bool.true_and, Bool.or_eq_true, Bool.or_eq_true, decide_eq_true_eq, decide_eq_true_eq, decide_eq_true_eq, or_assoc]
  exact hst

theorem mstStreamRemoved_bound (hkind : d.ctxKind n = 3) (hmst : d.actFlag F.INGEST_LINK_MST_EN n = true) :
    d.mstStreamRemoved n = d.ctxLose n := if_pos (by simp [hen, hkind, hmst])

theorem silenceTimeout_eq (hkind : isBaseband (d.ctxKind n) = true ∨ isSt2110 (d.ctxKind n) = true) :
    d.silenceTimeout n = if d.ctxSilent n then d.ctxLose n else d := by
  have hkinds : (isBaseband (d.ctxKind n) || isSt2110 (d.ctxKind n)) = true := Bool.or_eq_true_iff.2 hkind
  rw [silenceTimeout, hen, hkinds, Bool.true_and, Bool.true_and]

theorem pathSilent_single (hkind : isSt2110 (d.ctxKind n) = true) (hdual : d.actFlag F.INGEST_CFG_DUAL_PATH n = false)
    (hquiet : d.pathQuiet n false = true) : d.pathSilent n false = d.ctxLose n := by
  rw [pathSilent, if_neg (by simp [hen, hkind, hquiet]), if_pos (by simp [hdual]), if_neg Bool.false_ne_true]

theorem pathSilent_dual (hkind : isSt2110 (d.ctxKind n) = true) (hdual : d.actFlag F.INGEST_CFG_DUAL_PATH n = true)
    (hquiet : d.pathQuiet n false = true) (hother : d.pathQuiet n true = false) (hup : d.flag F.INGEST_STATE_PATH2_DOWN n = false) :
    d.pathSilent n false = d.pathDown n false := by
  rw [pathSilent, if_neg (by simp [hen, hkind, hquiet]), if_neg (by simp [hdual]), if_neg (by simp [hup, hother])]

end
end Dev

section
variable {s : State} {t : Nat} {n : Fin 256} (hr : s.dev.inReset = false) (hc : s.dev.calm)
include hr hc

/-- A meaning that changes nothing changes nothing but house time. -/
theorem exec_onCtx_same {i : Instr} {f : Dev → Dev} (hi : exec i s = s.onCtx f) (hf : f s.dev = s.dev.atTime t) :
    exec i s = .next { s with dev := s.dev.atTime t } := by
  refine exec_of_onDev (f := fun d => (f d).ctxSweep) hi hr ?_ hr
  have hsweep : (s.dev.atTime t).ctxSweep = s.dev.atTime t := if_neg (by simp [Dev.handReady, hc.1])
  rw [hf, hsweep]

/-- A context that leaves SEARCH or LOCKED for LOST. -/
theorem answers_ctxLose {i : Instr} {f : Dev → Dev} (hi : exec i s = s.onCtx f) (hf : f s.dev = (s.dev.atTime t).ctxLose n)
    (hst : s.dev.get F.INGEST_STATE_STATE n = 1 ∨ s.dev.get F.INGEST_STATE_STATE n = 2) : Answers i s (ctxLost s t n) := by
  obtain ⟨hstate, hlost, hcur, hirq, hkeeps, hchanges, hrest⟩ := (s.dev.atTime t).ctxLose_shows n hst
  have hhouse : ((s.dev.atTime t).discardCur n drIncomplete).house = max s.dev.house t :=
    congrArg Dev.house ((s.dev.atTime t).offCtxs_discardCur n drIncomplete)
  have hchanged : (((s.dev.atTime t).discardCur n drIncomplete).ctx n).changed = (s.dev.ctx n).changed :=
    by rw [Dev.ctx_discardCur, Dev.ctx_atTime]
  have hcount : ((s.dev.atTime t).discardCur n drIncomplete).get F.INGEST_FORMAT_CHANGES n = s.dev.get F.INGEST_FORMAT_CHANGES n :=
    Dev.get_discardCur _ _ _ (by decide)
  refine answers_onCtx hr hi hc ?_ ?_ <;> rw [hf]
  · rw [Dev.gating_ctxLose, Dev.gating_atTime]
  · refine ⟨hstate, hlost, hcur, hirq, hkeeps, fun w hw => ?_, fun hw => ?_, hrest⟩
    · rw [hchanges, Dev.changes_changeUndo_now _ _ (w := w) (by rw [hchanged, hhouse, hw]), hcount]
    · rw [hchanges, Dev.changeUndo_of_earlier _ _ (fun w => by rw [hchanged, hhouse]; exact hw w), hcount]

variable (hen : s.dev.enabled .ingest n = true)
include hen

theorem answers_formatSignalChange (hkind : Dev.isBaseband (s.dev.ctxKind n) = true) (hst : s.dev.get F.INGEST_STATE_STATE n = 2) :
    Answers (.formatSignalChange t n) s (fun d => d.get F.INGEST_STATE_STATE n = 1 ∧ ctxCounts s d F.INGEST_FORMAT_CHANGES n ∧
      (d.word (pageAddr .ingest n 0 + 0x10)).getLsbD 2 = true ∧ (d.ctx n).cur = none ∧ (d.ctx n).confirmed = none) := by
  have hchange := Dev.formatSignalChange_locked (d := s.dev.atTime t) hen hkind hst
  obtain ⟨hstate, hcount, hirq, hcur, hconfirmed, -, hgate⟩ := (s.dev.atTime t).formatChange_shows n
  refine answers_onCtx hr (f := fun d => (d.atTime t).formatSignalChange n) rfl hc ?_ ?_ <;> rw [hchange]
  · exact hgate
  · exact ⟨hstate, hcount, hirq, hcur, hconfirmed⟩

theorem answers_encryptionDetected (hkind : Dev.isBaseband (s.dev.ctxKind n) = true)
    (hst : s.dev.get F.INGEST_STATE_STATE n = 1 ∨ s.dev.get F.INGEST_STATE_STATE n = 2 ∨ s.dev.get F.INGEST_STATE_STATE n = 5) :
    Answers (.encryptionDetected t n) s (fun d => d.get F.INGEST_STATE_STATE n = 4 ∧
      (d.word (pageAddr .ingest n 0 + 0x10)).getLsbD 4 = true ∧ (d.ctx n).cur = none ∧ (d.ctx n).protectedCause = true) := by
  have hprotect := Dev.encryptionDetected_open (d := s.dev.atTime t) hen hkind hst
  have hkept : ((s.dev.atTime t).discardCur n drProtected).get F.INGEST_STATE_STATE n = s.dev.get F.INGEST_STATE_STATE n :=
    Dev.get_discardCur _ _ _ (by decide)
  obtain ⟨hstate, hirq, hcur, hcause, hgate⟩ := ((s.dev.atTime t).discardCur n drProtected).protect_shows n (by omega)
  refine answers_onCtx hr (f := fun d => (d.atTime t).encryptionDetected n) rfl hc ?_ ?_ <;> rw [hprotect]
  · rw [hgate, Dev.gating_discardCur, Dev.gating_atTime]
  · exact ⟨hstate, hirq, hcur.trans (by rw [Dev.ctx_discardCur]), hcause⟩

variable (hst : s.dev.get F.INGEST_STATE_STATE n = 1 ∨ s.dev.get F.INGEST_STATE_STATE n = 2)
include hst

theorem answers_mstStreamRemoved (hkind : s.dev.ctxKind n = 3) (hmst : s.dev.actFlag F.INGEST_LINK_MST_EN n = true) :
    Answers (.mstStreamRemoved t n) s (ctxLost s t n) :=
  answers_ctxLose hr hc (f := fun d => (d.atTime t).mstStreamRemoved n) rfl
    (Dev.mstStreamRemoved_bound (d := s.dev.atTime t) hen hkind hmst) hst

theorem silenceTimeout_acts (hkind : Dev.isBaseband (s.dev.ctxKind n) = true ∨ Dev.isSt2110 (s.dev.ctxKind n) = true) :
    ((s.dev.atTime t).ctxSilent n = true → Answers (.ingestSilenceTimeout t n) s (ctxLost s t n)) ∧
    ((s.dev.atTime t).ctxSilent n = false → exec (.ingestSilenceTimeout t n) s = .next { s with dev := s.dev.atTime t }) := by
  have htimeout := Dev.silenceTimeout_eq (d := s.dev.atTime t) hen hkind
  refine ⟨fun hsilent => ?_, fun hsilent => ?_⟩ <;> rw [hsilent] at htimeout
  · exact answers_ctxLose hr hc (f := fun d => (d.atTime t).silenceTimeout n) rfl htimeout hst
  · exact exec_onCtx_same hr hc (f := fun d => (d.atTime t).silenceTimeout n) rfl htimeout

theorem answers_pathSilent_single (hkind : Dev.isSt2110 (s.dev.ctxKind n) = true)
    (hdual : s.dev.actFlag F.INGEST_CFG_DUAL_PATH n = false) (hquiet : (s.dev.atTime t).pathQuiet n false = true) :
    Answers (.pathSilent t n false) s (ctxLost s t n) :=
  answers_ctxLose hr hc (f := fun d => (d.atTime t).pathSilent n false) rfl
    (Dev.pathSilent_single (d := s.dev.atTime t) hen hkind hdual hquiet) hst

omit hst in
theorem answers_pathSilent_dual (hkind : Dev.isSt2110 (s.dev.ctxKind n) = true)
    (hdual : s.dev.actFlag F.INGEST_CFG_DUAL_PATH n = true) (hquiet : (s.dev.atTime t).pathQuiet n false = true)
    (hother : (s.dev.atTime t).pathQuiet n true = false) (hup : s.dev.flag F.INGEST_STATE_PATH2_DOWN n = false) :
    Answers (.pathSilent t n false) s (fun d => d.flag F.INGEST_STATE_PATH1_DOWN n = true ∧
      d.flag F.INGEST_STATE_PATH_DOWN n = true ∧ d.get F.INGEST_STATE_STATE n = s.dev.get F.INGEST_STATE_STATE n) := by
  have hdown := Dev.pathSilent_dual (d := s.dev.atTime t) hen hkind hdual hquiet hother hup
  refine answers_onCtx hr (f := fun d => (d.atTime t).pathSilent n false) rfl hc ?_ ?_ <;> rw [hdown]
  · rw [Dev.gating_pathDown, Dev.gating_atTime]
  · exact (s.dev.atTime t).pathDown_shows n

end

/-- Contexts leave their states as the spec gives. -/
theorem contextsLeaveTheirStates_holds : contextsLeaveTheirStates := by
  intro s t n hr hc hen st irq quiet
  have hpath (path2 : Bool) : (s.dev.atTime t).pathQuiet n path2 = true ↔
      quiet (max s.dev.house t - (if path2 then (s.dev.ctx n).heard2 else (s.dev.ctx n).heard1).1)
        (if path2 then (s.dev.ctx n).heard2 else (s.dev.ctx n).heard1).2 := (s.dev.atTime t).fourLines_iff n _ _
  refine ⟨answers_formatSignalChange hr hc hen, answers_encryptionDetected hr hc hen, fun hst =>
    ⟨answers_mstStreamRemoved hr hc hen hst, fun hkind => ?_, fun hkind hdual hq => ?_, fun hkind hdual hq hother hup => ?_⟩⟩
  · intro c gap silent
    have hsilent : (s.dev.atTime t).ctxSilent n = true ↔ silent := (s.dev.atTime t).ctxSilent_iff n hst
    obtain ⟨hlost, hstays⟩ := silenceTimeout_acts (t := t) hr hc hen hst hkind
    exact ⟨fun h => hlost (hsilent.2 h), fun h => hstays (Bool.eq_false_iff.2 fun h' => h (hsilent.1 h'))⟩
  · exact answers_pathSilent_single hr hc hen hst hkind hdual ((hpath false).2 hq)
  · exact answers_pathSilent_dual hr hc hen hkind hdual ((hpath false).2 hq) (Bool.eq_false_iff.2 fun h => hother ((hpath true).1 h)) hup

end Sys2Proof.Machine
end

section
/-! PROOF. A baseband frame begins at its start (R114, R122, R123, R124, R130, R158). -/
namespace Sys2Proof.Machine
namespace Dev

section
variable (d : Dev) (n : Fin 256) (t : Nat) (sig : SigFmt) (fmt : TileFmt)

/-! A frame that begins (R158). -/

/-- Of the words below the engines' a frame that begins writes WRITE_LINE alone. -/
theorem word_frameRoom (short : Prop) [Decidable short] {a : Nat} (ha : a < 0x300000) :
    (d.frameRoom n short).word a = (d.put F.INGEST_WRITE_LINE 0xFFFFFFFF n).word a := by
  have hshort : a ≠ F.TALON_CTX_SHORT.addr 0 (n / 32) 0 := by
    simp only [Fld.addr, F.TALON_CTX_SHORT, pageAddr, blkBase, blkStride, blkPages]
    omega
  have hirq : a ≠ pageAddr .talon 0 0 + 0x10 := by
    simp only [pageAddr, blkBase, blkStride, blkPages]
    omega
  have hcount (e : Dev) : (e.count F.TALON_BUF_STARVE).word a = e.word a := by
    refine e.word_count_ne _ _ _ _ ?_
    simp only [Fld.addr, F.TALON_BUF_STARVE, pageAddr, blkBase, blkStride, blkPages]
    omega
  unfold frameRoom
  dsimp only
  split_ifs <;> simp only [hcount, word_irq_ne _ _ _ _ _ hirq, word_putAt_ne _ _ _ _ hshort]

theorem ctx_frameRoom (short : Prop) [Decidable short] (m : Nat) : (d.frameRoom n short).ctx m = d.ctx m := by
  have hshort (e : Dev) : (if short then (e.putAt (F.TALON_CTX_SHORT.addr 0 (n / 32) 0) (n % 32) 1 1).irq .talon 0 0 1 else e).ctx m =
      e.ctx m := by
    split
    · rw [ctx_irq, ctx_putAt]
    · rfl
  have hstarve (e : Dev) : (if e.freeBuffers n = [] then e.count F.TALON_BUF_STARVE else e).ctx m = e.ctx m := by
    split
    · rw [ctx_count]
    · rfl
  unfold frameRoom
  exact (hstarve _).trans ((hshort _).trans (d.ctx_put _ _ _ _ _ m))

/-- What a context shows and keeps when a frame begins. -/
structure FrameBegun (d e : Dev) (n : Nat) (sig : SigFmt) : Prop where
  writeLine : e.get F.INGEST_WRITE_LINE n = 0xFFFFFFFF
  kept : ∀ g : Fld, g.ofCtx → g.off ∉ [0x10, 0x58, 0x5C, 0x7C] → g.off < 0x1000 → e.get g n = d.get g n
  frame : ∃ f, (e.ctx n).cur = some f ∧ f.sig = sig ∧ f.lines = 0 ∧ f.written = []
  lastStart : (e.ctx n).lastStart = (d.ctx n).lastStart
  confirmed : (e.ctx n).confirmed = (d.ctx n).confirmed
  gates : e.gating = d.gating

/-- A frame that begins keeps the fields of the page beside WRITE_LINE. -/
theorem get_frameRoom (short : Prop) [Decidable short] {g : Fld} (hg : g.ofCtx) (hoff : g.off ≠ 0x7C ∧ g.off < 0x1000) :
    (d.frameRoom n short).get g n = d.get g n := by
  have hpage := pageAddr_ingest n
  have hn := n.isLt
  exact d.get_ctx_congr hg ((d.word_frameRoom n short (by omega)).trans (d.word_put_ctx_off _ ⟨by decide, hoff.1⟩))

theorem writeLine_frameRoom (short : Prop) [Decidable short] : (d.frameRoom n short).get F.INGEST_WRITE_LINE n = 0xFFFFFFFF := by
  have hpage := pageAddr_ingest n
  have hn := n.isLt
  have hput : (d.frameRoom n short).get F.INGEST_WRITE_LINE n = (d.put F.INGEST_WRITE_LINE 0xFFFFFFFF n).get F.INGEST_WRITE_LINE n :=
    get_ctx_congr _ (by decide) (d.word_frameRoom n short (by simp only [F.INGEST_WRITE_LINE]; omega))
  rw [hput, get_put_ctx_self _ _ (by decide)]
  rfl

theorem get_discard (reason : Nat) {g : Fld} (hg : g.ofCtx) (hoff : g.off ≠ 0x10 ∧ g.off ≠ 0x58 ∧ g.off ≠ 0x5C) :
    (d.discard n reason).get g n = d.get g n := by
  obtain ⟨hirq, hcount, hreason⟩ := hoff
  refine get_ctx_congr _ hg ?_
  rw [discard, word_irq_ctx_off _ _ hirq, word_put_ctx_off _ _ ⟨by decide, hreason⟩, word_count_ctx_off _ _ ⟨by decide, hcount⟩]
  rfl

theorem ctx_discard (reason : Nat) : (d.discard n reason).ctx n = { d.ctx n with cur := none } := by
  rw [discard, ctx_irq, ctx_put, ctx_count, ctx_updCtx]

theorem gating_beginFrame : (d.beginFrame n t sig fmt).gating = d.gating := by
  obtain ⟨g, -, -, hside⟩ := d.ringSide_beginFrame n t sig fmt
  have hgate := gating_of_ringSide hside
  exact hgate

theorem beginFrame_begun : d.FrameBegun (d.beginFrame n t sig fmt) n sig := by
  have hgates := d.gating_beginFrame n t sig fmt
  obtain ⟨short, _, hgiven | ⟨p, htaken⟩⟩ := d.beginFrame_cases n t sig fmt
  · refine ⟨?_, fun g hg hoff hlow => ?_, ?_, ?_, ?_, hgates⟩ <;> rw [hgiven]
    · exact (get_discard _ n _ (by decide) (by decide)).trans (d.writeLine_frameRoom n short)
    · simp only [List.mem_cons, List.not_mem_nil, or_false, not_or] at hoff
      obtain ⟨hirq, hcount, hreason, hline⟩ := hoff
      exact (get_discard _ n _ hg ⟨hirq, hcount, hreason⟩).trans (d.get_frameRoom n short hg ⟨hline, hlow⟩)
    · exact ⟨_, congrArg CtxSt.cur (ctx_updCtx _ _ _), rfl, rfl, rfl⟩
    · rw [ctx_updCtx, ctx_discard, ctx_frameRoom]
    · rw [ctx_updCtx, ctx_discard, ctx_frameRoom]
  · refine ⟨?_, fun g hg hoff hlow => ?_, ?_, ?_, ?_, hgates⟩ <;> rw [htaken]
    · exact d.writeLine_frameRoom n short
    · simp only [List.mem_cons, List.not_mem_nil, or_false, not_or] at hoff
      obtain ⟨-, -, -, hline⟩ := hoff
      exact d.get_frameRoom n short hg ⟨hline, hlow⟩
    · exact ⟨_, congrArg CtxSt.cur (ctx_updCtx _ _ _), rfl, rfl, rfl⟩
    · rw [ctx_updCtx, ctx_frameRoom]
    · rw [ctx_updCtx, ctx_frameRoom]

end

/-! The start of a frame (R113, R122 to R125). -/

/-- A context hears its stream at a time (R136). -/
def heardAt (d : Dev) (n now : Nat) : Dev := d.updCtx n fun c => { c with heard := (now, false) }

/-- A context hears its stream now. -/
def streamHeard (d : Dev) (n : Nat) : Dev := d.heardAt n d.house

/-- A frame of an accepted format opens: the period since the last start is measured, and a buffer taken. -/
def frameOpens (d : Dev) (n t : Nat) (sig : SigFmt) : Dev := (d.measurePeriod n t).beginFrame n t sig (d.ctxFmt n sig)

/-- A LOCKED context whose stream is signalled otherwise searches again (R125). -/
def formatChecked (d : Dev) (n st : Nat) (sig : SigFmt) : Dev :=
  if st = stLocked && ((d.ctx n).confirmed.map sigKey).any (· ≠ sigKey sig) then d.formatChange n else d

/-- So does one whose frames came at the wrong times (R125). -/
def periodChecked (d : Dev) (n : Nat) : Dev :=
  if d.ctxState n = stLocked ∧ (d.ctx n).oddPeriods ≥ 2 then d.formatChange n else d

section
variable {d : Dev} {n : Fin 256} {t : Nat} {sig : SigFmt}

theorem measurePeriod_of_unlocked (h : d.get F.INGEST_STATE_STATE n ≠ 2) :
    d.measurePeriod n t = d.updCtx n fun c => { c with lastStart := some t } := by
  unfold measurePeriod
  dsimp only
  split
  · rfl
  · exact if_pos h

theorem closeOpen_of_none {n : Nat} (h : (d.ctx n).cur = none) : d.closeOpen n = d := by rw [closeOpen, h]

/-- A context marks the start of a frame (R125). -/
def startMarked (d : Dev) (n t : Nat) : Dev := d.updCtx n fun c => { c with lastStart := some t }

theorem frameOpens_begun (h : d.get F.INGEST_STATE_STATE n ≠ 2) :
    (d.startMarked n t).FrameBegun (d.frameOpens n t sig) n sig := by
  rw [frameOpens, measurePeriod_of_unlocked h]
  exact beginFrame_begun _ _ _ _ _

/-- A frame opens at a context that is not LOCKED. -/
theorem frameOpens_shows (h : d.get F.INGEST_STATE_STATE n ≠ 2) :
    (d.frameOpens n t sig).periodChecked n = d.frameOpens n t sig ∧
    (d.frameOpens n t sig).get F.INGEST_STATE_STATE n = d.get F.INGEST_STATE_STATE n ∧
    (d.frameOpens n t sig).get F.INGEST_FORMAT_CHANGES n = d.get F.INGEST_FORMAT_CHANGES n ∧
    (d.frameOpens n t sig).get F.INGEST_WRITE_LINE n = 0xFFFFFFFF ∧
    (∃ f, ((d.frameOpens n t sig).ctx n).cur = some f ∧ f.sig = sig ∧ f.lines = 0 ∧ f.written = []) ∧
    ((d.frameOpens n t sig).ctx n).lastStart = some t ∧ ((d.frameOpens n t sig).ctx n).confirmed = (d.ctx n).confirmed ∧
    (d.frameOpens n t sig).gating = d.gating := by
  have hbegun := frameOpens_begun (t := t) (sig := sig) h
  have hstate : (d.frameOpens n t sig).get F.INGEST_STATE_STATE n = d.get F.INGEST_STATE_STATE n :=
    hbegun.kept _ (by decide) (by decide) (by decide)
  have hunlocked : (d.frameOpens n t sig).ctxState n ≠ stLocked := fun heq => h (hstate.symm.trans heq)
  refine ⟨if_neg fun hboth => hunlocked hboth.1, hstate, hbegun.kept _ (by decide) (by decide) (by decide), hbegun.writeLine, hbegun.frame,
    ?_, ?_, hbegun.gates⟩
  · rw [hbegun.lastStart, startMarked, ctx_updCtx]
  · rw [hbegun.confirmed, startMarked, ctx_updCtx]

theorem formatChecked_of_search : d.formatChecked n 1 sig = d := if_neg (by simp [stLocked])

theorem formatChecked_of_other {c : SigFmt} (hconf : (d.ctx n).confirmed = some c) (hkey : sigKey c ≠ sigKey sig) :
    d.formatChecked n 2 sig = d.formatChange n := if_pos (by simp [stLocked, hconf, hkey])

section
variable (hen : d.enabled .ingest n = true) (hkind : isBaseband (d.ctxKind n) = true) (hhand : d.hand.pending = false)
  (hcur : (d.ctx n).cur = none) (hst : d.get F.INGEST_STATE_STATE n = 1 ∨ d.get F.INGEST_STATE_STATE n = 2)
  (hlanes : ∀ k ∈ d.ctxLanes n, d.rxData k = true)
include hst hlanes hkind

/-- Whether a context takes no start of frame: it is idle or of another kind, or a lane passes no data. -/
theorem streamHeard_takes : ¬ ((!isBaseband ((d.streamHeard n).ctxKind n) || decide ((d.streamHeard n).ctxState n = stIdle) ||
    !((d.streamHeard n).ctxLanes n).all (d.streamHeard n).rxData) = true) := by
  have hall : ((d.streamHeard n).ctxLanes n).all (d.streamHeard n).rxData = true := List.all_eq_true.2 hlanes
  have hkind' : isBaseband ((d.streamHeard n).ctxKind n) = true := hkind
  have hidle : (d.streamHeard n).ctxState n ≠ stIdle := by
    intro h
    rcases hst with hst | hst <;> exact absurd (hst.symm.trans h) (by decide)
  simp [hall, hkind', hidle]

include hen hhand hcur

theorem frameStart_encrypted :
    d.frameStart n t sig true = ((d.streamHeard n).protectNoted n).enterState n stProtected 4 := by
  have htakes := streamHeard_takes hkind hst hlanes
  rw [frameStart, if_neg (by simp [hen]), ctxBoundary_of_not_pending _ hhand, closeOpen_of_none hcur]
  exact (if_neg htakes).trans (if_pos rfl)

theorem frameStart_unsupported (hsig : sigSupported sig = false) :
    d.frameStart n t sig false = (d.streamHeard n).enterState n stUnsupported 5 := by
  have htakes := streamHeard_takes hkind hst hlanes
  rw [frameStart, if_neg (by simp [hen]), ctxBoundary_of_not_pending _ hhand, closeOpen_of_none hcur]
  exact (if_neg htakes).trans ((if_neg Bool.false_ne_true).trans (if_pos (by simp [hsig])))

theorem frameStart_opens (hsig : sigSupported sig = true) :
    d.frameStart n t sig false =
      (((d.streamHeard n).formatChecked n (d.get F.INGEST_STATE_STATE n) sig).frameOpens n t sig).periodChecked n := by
  have htakes := streamHeard_takes hkind hst hlanes
  have hfresh : ¬ ((decide ((d.streamHeard n).ctxState n = stProtected) || decide ((d.streamHeard n).ctxState n = stUnsupported) ||
      decide ((d.streamHeard n).ctxState n = stLost)) = true) := by
    have hstate : (d.streamHeard n).ctxState n = d.get F.INGEST_STATE_STATE n := rfl
    rw [hstate]
    rcases hst with hst | hst <;> rw [hst] <;> decide
  rw [frameStart, if_neg (by simp [hen]), ctxBoundary_of_not_pending _ hhand, closeOpen_of_none hcur]
  refine (if_neg htakes).trans ((if_neg Bool.false_ne_true).trans ((if_neg (by simp [hsig])).trans ?_))
  exact congrArg (fun e : Dev => ((e.formatChecked n (d.get F.INGEST_STATE_STATE n) sig).frameOpens n t sig).periodChecked n)
    (if_neg hfresh)

end

end
end Dev

section
variable {s : State} {t : Nat} {n : Fin 256} {sig : SigFmt} (hr : s.dev.inReset = false) (hc : s.dev.calm)
  (hen : s.dev.enabled .ingest n = true) (hkind : Dev.isBaseband (s.dev.ctxKind n) = true) (hcur : (s.dev.ctx n).cur = none)
  (hst : s.dev.get F.INGEST_STATE_STATE n = 1 ∨ s.dev.get F.INGEST_STATE_STATE n = 2)
  (hlanes : ∀ k ∈ s.dev.ctxLanes n, s.dev.rxData k = true)
include hr hc hen hkind hcur hst hlanes

theorem answers_frameStart_encrypted :
    Answers (.ingestFrameStart t n sig true) s (fun d => d.get F.INGEST_STATE_STATE n = 4 ∧ (d.ctx n).protectedCause = true ∧
      (d.word (pageAddr .ingest n 0 + 0x10)).getLsbD 4 = true) := by
  have hstart := Dev.frameStart_encrypted (d := s.dev.atTime t) (t := t) (sig := sig) hen hkind hc.1 hcur hst hlanes
  have hkept : ((s.dev.atTime t).streamHeard n).get F.INGEST_STATE_STATE n = s.dev.get F.INGEST_STATE_STATE n := rfl
  obtain ⟨hstate, hirq, -, hcause, hgate⟩ := ((s.dev.atTime t).streamHeard n).protect_shows n (by omega)
  refine answers_onCtx hr (f := fun d => (d.atTime t).frameStart n t sig true) rfl hc ?_ ?_ <;> rw [hstart]
  · exact hgate
  · exact ⟨hstate, hcause, hirq⟩

theorem answers_frameStart_unsupported (hsig : Dev.sigSupported sig = false) :
    Answers (.ingestFrameStart t n sig false) s (fun d => d.get F.INGEST_STATE_STATE n = 5 ∧
      (d.word (pageAddr .ingest n 0 + 0x10)).getLsbD 5 = true) := by
  have hstart := Dev.frameStart_unsupported (d := s.dev.atTime t) (t := t) hen hkind hc.1 hcur hst hlanes hsig
  have hkept : ((s.dev.atTime t).streamHeard n).get F.INGEST_STATE_STATE n = s.dev.get F.INGEST_STATE_STATE n := rfl
  obtain ⟨hstate, hirq, -, hgate⟩ :=
    ((s.dev.atTime t).streamHeard n).enterState_shows n (st := stUnsupported) (b := 5) (by decide) (by simp only [stUnsupported]; omega) (by decide)
  refine answers_onCtx hr (f := fun d => (d.atTime t).frameStart n t sig false) rfl hc ?_ ?_ <;> rw [hstart]
  · exact hgate
  · exact ⟨hstate, hirq⟩

theorem answers_frameStart_search (hsig : Dev.sigSupported sig = true) (hsearch : s.dev.get F.INGEST_STATE_STATE n = 1) :
    Answers (.ingestFrameStart t n sig false) s (fun d => d.get F.INGEST_STATE_STATE n = 1 ∧ (d.ctx n).lastStart = some t ∧
      d.get F.INGEST_WRITE_LINE n = 0xFFFFFFFF ∧ ∃ f, (d.ctx n).cur = some f ∧ f.sig = sig ∧ f.lines = 0 ∧ f.written = []) := by
  have hstart := Dev.frameStart_opens (d := s.dev.atTime t) (t := t) hen hkind hc.1 hcur hst hlanes hsig
  have hkept : ((s.dev.atTime t).streamHeard n).get F.INGEST_STATE_STATE n = 1 := hsearch
  obtain ⟨hsettled, hstate, -, hline, hframe, hlast, -, hgate⟩ :=
    Dev.frameOpens_shows (d := (s.dev.atTime t).streamHeard n) (n := n) (t := t) (sig := sig) (by omega)
  rw [Dev.get_atTime, hsearch, Dev.formatChecked_of_search, hsettled] at hstart
  refine answers_onCtx hr (f := fun d => (d.atTime t).frameStart n t sig false) rfl hc ?_ ?_ <;> rw [hstart]
  · exact hgate
  · exact ⟨hstate.trans hkept, hlast, hline, hframe⟩

theorem answers_frameStart_changed {c : SigFmt} (hsig : Dev.sigSupported sig = true) (hlocked : s.dev.get F.INGEST_STATE_STATE n = 2)
    (hconf : (s.dev.ctx n).confirmed = some c) (hkey : Dev.sigKey c ≠ Dev.sigKey sig) :
    Answers (.ingestFrameStart t n sig false) s (fun d => d.get F.INGEST_STATE_STATE n = 1 ∧
      ctxCounts s d F.INGEST_FORMAT_CHANGES n ∧ (d.ctx n).confirmed = none) := by
  have hstart := Dev.frameStart_opens (d := s.dev.atTime t) (t := t) hen hkind hc.1 hcur hst hlanes hsig
  have hconf' : (((s.dev.atTime t).streamHeard n).ctx n).confirmed = some c := by rw [Dev.streamHeard, Dev.heardAt, Dev.ctx_updCtx]; exact hconf
  obtain ⟨hsearch, hcount, -, -, hnone, -, hgate⟩ := ((s.dev.atTime t).streamHeard n).formatChange_shows n
  obtain ⟨hsettled, hstate, hchanges, -, -, -, hkept, hopened⟩ :=
    Dev.frameOpens_shows (d := ((s.dev.atTime t).streamHeard n).formatChange n) (n := n) (t := t) (sig := sig) (by omega)
  rw [Dev.get_atTime, hlocked, Dev.formatChecked_of_other hconf' hkey, hsettled] at hstart
  refine answers_onCtx hr (f := fun d => (d.atTime t).frameStart n t sig false) rfl hc ?_ ?_ <;> rw [hstart]
  · rw [hopened, hgate]
    rfl
  · exact ⟨hstate.trans hsearch, hchanges.trans hcount, hkept.trans hnone⟩

end
end Sys2Proof.Machine
end

section
/-! PROOF. The lines of a baseband frame (R95, R102, R130), and the contexts as a whole. -/
namespace Sys2Proof.Machine
namespace Dev

/-- The device without its stored tiles, the books of their transactions, and what left at its edge. -/
def offFlow (d : Dev) : Dev := { d.offStore with out := [] }

section
variable {d e : Dev} {n : Fin 256} {t : Nat} {xs : List Nat} {errs : Nat} {f : InFrame}

theorem offFlow_chanPasses (d : Dev) (l : List Nat) : (l.foldl (fun d g => d.chanPass g 16) d).offFlow = d.offFlow :=
 by
  refine foldl_keeps offFlow ?_ d
  exact fun _ _ _ => rfl

theorem offFlow_lineLoops (d : Dev) (n : Nat) (xs : List Nat) : (d.lineLoops n xs).offFlow = d.offFlow :=
 by
  refine foldl_keeps offFlow ?_ d
  exact fun _ _ _ => rfl

theorem offStore_writeRow (d : Dev) (n t : Nat) (f : InFrame) (row : Nat) : (d.writeRow n t f row).offStore = d.offStore :=
  foldl_keeps offStore (fun e _ _ => e.offStore_writeTile _ _ _ _ _ _ _ _) d

/-! What the flow of data leaves. -/

section
variable (h : e.offFlow = d.offFlow)
include h

theorem ctx_of_offFlow (m : Nat) : e.ctx m = d.ctx m := by
  have hctx : e.offFlow.ctx m = d.offFlow.ctx m := by rw [h]
  exact hctx

theorem get_of_offFlow (g : Fld) (i : Nat) : e.get g i = d.get g i := by
  have hget : e.offFlow.get g i = d.offFlow.get g i := by rw [h]
  exact hget

theorem gating_of_offFlow : e.gating = d.gating := by
  have hgate : e.offFlow.gating = d.offFlow.gating := by rw [h]
  exact hgate

end

theorem offFlow_of_offStore (h : e.offStore = d.offStore) : e.offFlow = d.offFlow :=
  congrArg (fun d => ({ d with out := [] } : Dev)) h

/-! A line. -/

/-- A line within the raster is added to its frame, and shown (R130). -/
theorem takeLine_within (d : Dev) (n t : Nat) (xs : List Nat) (errs : Nat) (hlines : f.lines + 1 ≤ f.sig.height) :
    ∃ (e : Dev) (g : InFrame), e.offFlow = d.offFlow ∧ (g.lines = f.lines + 1 ∧ g.sig = f.sig ∧ g.drop = f.drop) ∧
      d.takeLine n t f xs errs = (e.withCur n (some g)).put F.INGEST_WRITE_LINE f.lines n := by
  obtain ⟨x, hx⟩ : ∃ x, x = d.takeLine n t f xs errs := ⟨_, rfl⟩
  rw [← hx]
  unfold takeLine at hx
  extract_lets chromaLine ch line gap off stored k f1 full e at hx
  rw [if_neg (show ¬ k > f.sig.height by simp only [k]; omega)] at hx
  have he : e.offFlow = d.offFlow := by
    simp only [e]
    split
    · exact offFlow_of_offStore (d.offStore_writeRow n t _ _)
    · rfl
  refine ⟨e, _, he, ⟨?_, ?_, ?_⟩, hx⟩
  all_goals split <;> rfl

/-- A line of a frame that has a buffer, with every lane passing data (R95, R130). -/
theorem ingestLine_taken (hen : d.enabled .ingest n = true) (hkind : isBaseband (d.ctxKind n) = true)
    (hlanes : ∀ k ∈ d.ctxLanes n, d.rxData k = true) (hheard : (d.lineHeard n xs).isSome = true)
    (hcur : (d.ctx n).cur = some f) (hdrop : f.drop = false) :
    ∃ (e : Dev) (now : Nat) (ys : List Nat), e.offFlow = d.offFlow ∧
      d.ingestLine n t xs errs none none = ((e.heardAt n now).count F.INGEST_LINK_ERR n 0 errs).takeLine n t f ys errs := by
  have hall : (d.ctxLanes n).all d.rxData = true := List.all_eq_true.2 hlanes
  have hnone : (d.lineHeard n xs).isNone = false := by rw [← Option.not_isSome, hheard]; rfl
  obtain ⟨x, hx⟩ : ∃ x, x = d.ingestLine n t xs errs none none := ⟨_, rfl⟩
  rw [← hx]
  rw [ingestLine, if_neg (by simp [hen, hkind, hall, hnone])] at hx
  extract_lets ys passed e counted at hx
  have hflow : (passed.lineLoops n ys).offFlow = d.offFlow := (offFlow_lineLoops _ _ _).trans (offFlow_chanPasses d _)
  have hframe : (e.ctx n).cur = some f := by
    simp only [e, ctx_updCtx]
    rw [ctx_of_offFlow hflow, hcur]
  refine ⟨passed.lineLoops n ys, passed.house, ys, hflow, ?_⟩
  rw [hframe] at hx
  have htaken : x = if f.drop then counted else counted.takeLine n t f ys errs := hx
  exact htaken.trans (if_neg (by simp [hdrop]))

/-- A line is not taken where a lane passes no data, or its transmitters sent none (R95, R102). -/
theorem ingestLine_lost (h : (∃ k ∈ d.ctxLanes n, d.rxData k = false) ∨ d.lineHeard n xs = none) (audio : Option EmbeddedAudio)
    (last : Option FrameEnd) : d.ingestLine n t xs errs audio last = d := by
  refine if_pos ?_
  rcases h with ⟨k, hk, hdead⟩ | hsilent
  · have hall : (d.ctxLanes n).all d.rxData = false := List.all_eq_false.2 ⟨k, hk, by simp [hdead]⟩
    simp [hall]
  · simp [hsilent]

end
end Dev

section
variable {s : State} {t : Nat} {n : Fin 256} {xs : List Nat} {errs : Nat} (hr : s.dev.inReset = false) (hc : s.dev.calm)
include hr hc

theorem answers_ingestLine {f : InFrame} (hen : s.dev.enabled .ingest n = true) (hkind : Dev.isBaseband (s.dev.ctxKind n) = true)
    (hcur : (s.dev.ctx n).cur = some f) (hdrop : f.drop = false) (hlines : f.lines + 1 ≤ f.sig.height) (hfits : f.lines < 2 ^ 32)
    (hlanes : ∀ k ∈ s.dev.ctxLanes n, s.dev.rxData k = true) (hheard : (s.dev.lineHeard n xs).isSome = true) :
    Answers (.ingestLine t n xs errs none none) s (fun d => d.get F.INGEST_WRITE_LINE n = f.lines ∧
      d.get F.INGEST_LINK_ERR n = min (s.dev.get F.INGEST_LINK_ERR n + errs) 0xFFFFFFFF ∧
      d.get F.INGEST_STATE_STATE n = s.dev.get F.INGEST_STATE_STATE n ∧
      ∃ g, (d.ctx n).cur = some g ∧ g.lines = f.lines + 1 ∧ g.sig = f.sig ∧ g.drop = false) := by
  obtain ⟨e, now, ys, hflow, hline⟩ :=
    Dev.ingestLine_taken (d := s.dev.atTime t) (t := t) (errs := errs) hen hkind hlanes hheard hcur hdrop
  obtain ⟨e', g, hstored, ⟨hnext, hsig, hkept⟩, htake⟩ := ((e.heardAt n now).count F.INGEST_LINK_ERR n 0 errs).takeLine_within n t ys errs hlines
  have hget (h : Fld) : e'.get h n = ((e.heardAt n now).count F.INGEST_LINK_ERR n 0 errs).get h n := Dev.get_of_offFlow hstored h n
  have hbefore (h : Fld) : (e.heardAt n now).get h n = s.dev.get h n := Dev.get_of_offFlow hflow h n
  have hgate := Dev.gating_of_offFlow hflow
  rw [htake] at hline
  refine answers_onCtx hr (f := fun d => (d.atTime t).ingestLine n t xs errs none none) rfl hc ?_ ?_ <;> rw [hline]
  · rw [Dev.gating_put _ _ _ (by decide), Dev.withCur, Dev.gating_updCtx, Dev.gating_of_offFlow hstored, Dev.gating_count _ _ _ (by decide)]
    exact hgate
  · refine ⟨?_, ?_, ?_, g, ?_, hnext, hsig, hkept.trans hdrop⟩
    · rw [Dev.get_put_ctx_self _ _ (by decide)]
      exact Nat.mod_eq_of_lt hfits
    · rw [Dev.get_put_ctx _ _ (by decide), Dev.withCur, Dev.get_updCtx, hget, Dev.get_count_ctx_self _ _ (by decide), hbefore]
    · rw [Dev.get_put_ctx _ _ (by decide), Dev.withCur, Dev.get_updCtx, hget, Dev.get_count_ctx _ _ (by decide), hbefore]
    · rw [Dev.ctx_put, Dev.withCur, Dev.ctx_updCtx]

theorem exec_ingestLine_lost (h : (∃ k ∈ s.dev.ctxLanes n, s.dev.rxData k = false) ∨ s.dev.lineHeard n xs = none) :
    exec (.ingestLine t n xs errs none none) s = .next { s with dev := s.dev.atTime t } :=
  exec_onCtx_same hr hc (f := fun d => (d.atTime t).ingestLine n t xs errs none none) rfl
    (Dev.ingestLine_lost (d := s.dev.atTime t) h none none)

end

/-- Frames begin and take lines as the spec gives. -/
theorem framesBeginAndTakeLines_holds : framesBeginAndTakeLines := by
  intro s t n hr hc hen hkind st
  refine ⟨fun sig hcur hst hlanes => ⟨answers_frameStart_encrypted hr hc hen hkind hcur hst hlanes, ?_, ?_, ?_⟩,
    fun f xs errs hcur hdrop hlines hfits => ⟨answers_ingestLine hr hc hen hkind hcur hdrop hlines hfits, exec_ingestLine_lost hr hc⟩⟩
  · exact answers_frameStart_unsupported hr hc hen hkind hcur hst hlanes
  · exact answers_frameStart_search hr hc hen hkind hcur hst hlanes
  · exact fun c => answers_frameStart_changed hr hc hen hkind hcur hst hlanes

end Sys2Proof.Machine

open Sys2Proof Sys2Proof.Machine

/-- Settles O22, by what each loss, start and line shows of the context and leaves of its page. -/
theorem contextsAndTheirFrames : Obligations.ContextsAndTheirFrames := ⟨contextsLeaveTheirStates_holds, framesBeginAndTakeLines_holds⟩
end

section
/-! PROOF. What a command keeps of the register words, and the events of a page: the answers of commands that leave the device
out of reset, and what an update of words leaves. -/
namespace Sys2Proof.Machine

section
variable {i : Instr} {s : State} {t : Nat} {P : Dev → Prop}

/-- A meaning that keeps the device out of reset answers the device that it makes. -/
theorem answers_at {g : Dev → Dev} (hr : s.dev.inReset = false) (hi : exec i s = s.onDev (fun d => g (d.atTime t)))
    (hg : (g (s.dev.atTime t)).inReset = (s.dev.atTime t).inReset) (hP : P (g (s.dev.atTime t))) : Answers i s P :=
  ⟨_, exec_of_onDev hi hr rfl (hg.trans hr), hP⟩

theorem answers_taken {r : PageRef} {off : Nat} {g : Dev → Dev} (h : s.takesAt t r)
    (hi : exec i s = s.onDev (fun d => (d.atTime t).gate r off g))
    (hg : (g (s.dev.atTime t)).inReset = (s.dev.atTime t).inReset) (hP : P (g (s.dev.atTime t))) : Answers i s P := by
  refine answers_at (g := (·.gate r off g)) h.1.1 hi ?_ ?_ <;> rwa [gate_of_takes h]

end

namespace Dev

section
variable {d e f : Dev} {as bs : List Nat}

theorem keeps_of_regs (h : e.regs = d.regs) : d.keeps e as := fun a _ => word_congr h a
theorem keeps_trans (h : d.keeps e as) (h' : e.keeps f as) : d.keeps f as := fun a ha => (h' a ha).trans (h a ha)
theorem keeps_mono (h : d.keeps e as) (hs : as ⊆ bs) : d.keeps e bs := fun a ha => h a (fun hm => ha (hs hm))

theorem get_of_keeps (h : d.keeps e as) {g : Fld} {i k j : Nat} (hg : g.addr i k j ∉ as) : e.get g i k j = d.get g i k j :=
  get_congr g i k j (h _ hg)

theorem get64_of_keeps (h : d.keeps e as) {g : Fld} {i k : Nat} (hlo : g.addr i k 0 ∉ as) (hhi : g.addr i k 0 + 4 ∉ as) :
    e.get64 g i k = d.get64 g i k := get64_congr g i k (h _ hlo) (h _ hhi)

theorem inReset_of_apart (h : e.apart = d.apart) : e.inReset = d.inReset := rest_inReset h
theorem inReset_of_aside (h : e.aside = d.aside) : e.inReset = d.inReset := (congrArg inReset h :)
theorem maps_of_aside (h : e.aside = d.aside) : e.maps = d.maps := (congrArg maps h :)
theorem doms_of_aside (h : e.aside = d.aside) : e.doms = d.doms := (congrArg doms h :)
theorem fences_of_aside (h : e.aside = d.aside) : e.fences = d.fences := (congrArg fences h :)
theorem recBytes_of_aside (h : e.aside = d.aside) : e.recBytes = d.recBytes := (congrArg recBytes h :)
theorem engSince_of_aside (h : e.aside = d.aside) : e.engSince = d.engSince := (congrArg engSince h :)
theorem engBusyNs_of_aside (h : e.aside = d.aside) : e.engBusyNs = d.engBusyNs := (congrArg engBusyNs h :)
theorem moved_of_aside (h : e.aside = d.aside) : e.moved = d.moved := (congrArg moved h :)

end

section
variable (d : Dev) {as : List Nat}

theorem keeps_setWord {a : Nat} (v : Word) (h : a ∈ as) : d.keeps (d.setWord a v) as :=
  fun _ hb => d.word_setWord_ne v fun hba => hb (hba ▸ h)
theorem keeps_putAt {a : Nat} (lo w x : Nat) (h : a ∈ as) : d.keeps (d.putAt a lo w x) as := d.keeps_setWord _ h
theorem keeps_put {g : Fld} (x : Nat) {i k j : Nat} (h : g.addr i k j ∈ as) : d.keeps (d.put g x i k j) as := d.keeps_setWord _ h
theorem keeps_irq {b : Blk} {i p : Nat} (n : Nat) (h : pageAddr b i p + 0x10 ∈ as) : d.keeps (d.irq b i p n) as :=
  fun _ ha => d.word_irq_ne b i p n fun hab => ha (hab ▸ h)

@[simp] theorem putAt_apart (a lo w x : Nat) : (d.putAt a lo w x).apart = d.apart := rfl
@[simp] theorem put_apart (g : Fld) (x i k j : Nat) : (d.put g x i k j).apart = d.apart := rfl
@[simp] theorem putB_apart (g : Fld) (x : Bool) (i k : Nat) : (d.putB g x i k).apart = d.apart := rfl
@[simp] theorem count_apart (g : Fld) (i k n : Nat) : (d.count g i k n).apart = d.apart := rfl
@[simp] theorem put64_apart (g : Fld) (x i k : Nat) : (d.put64 g x i k).apart = d.apart := rfl
@[simp] theorem putAt_aside (a lo w x : Nat) : (d.putAt a lo w x).aside = d.aside := rfl
@[simp] theorem put_aside (g : Fld) (x i k j : Nat) : (d.put g x i k j).aside = d.aside := rfl
@[simp] theorem putB_aside (g : Fld) (x : Bool) (i k : Nat) : (d.putB g x i k).aside = d.aside := rfl
@[simp] theorem irq_apart (b : Blk) (i p n : Nat) : (d.irq b i p n).apart = d.apart := irq_rest d b i p n

theorem get_irq_ne (g : Fld) (b : Blk) (i k j i' p n : Nat) (h : g.addr i k j ≠ pageAddr b i' p + 0x10) :
    (d.irq b i' p n).get g i k j = d.get g i k j := get_congr g i k j (d.word_irq_ne b i' p n h)

/-- An event sets its bit of the page's IRQ_RAW, by the mask of that bit. -/
theorem word_irq_self (b : Blk) (i p : Nat) {n : Nat} (hn : n < 31) :
    (d.irq b i p n).word (pageAddr b i p + 0x10) = d.word (pageAddr b i p + 0x10) ||| BitVec.ofNat 32 (2 ^ n) := by
  rw [word_irq, if_pos rfl, Nat.mod_eq_of_lt (Nat.pow_lt_pow_right (by decide) hn)]

theorem raised_irq (b : Blk) (i p : Nat) {n : Nat} (hn : n < 31) : raised (d.irq b i p n) b i p n := by
  rw [raised, word_irq_self _ _ _ _ hn, BitVec.getLsbD_or, Bool.or_eq_true_iff, BitVec.getLsbD_ofNat, Nat.testBit_two_pow_self,
    Bool.and_true, decide_eq_true_eq]
  exact .inr (by omega)

variable {d} in
/-- No event clears a bit. -/
theorem raised_irq_of {b : Blk} {i p n : Nat} (h : raised d b i p n) (k : Nat) : raised (d.irq b i p k) b i p n := by
  rw [raised] at h
  rw [raised, word_irq, if_pos rfl, BitVec.getLsbD_or, h, Bool.true_or]

variable {d} in
theorem raised_congr {e : Dev} {b : Blk} {i p n : Nat} (h : raised d b i p n)
    (hw : e.word (pageAddr b i p + 0x10) = d.word (pageAddr b i p + 0x10)) : raised e b i p n := by
  rw [raised, hw]
  exact h

/-- A field that is a whole word holds that word. -/
theorem get_wholeWord {g : Fld} (hg : g.lo = 0 ∧ g.w = 32) (i k j : Nat) : d.get g i k j = (d.word (g.addr i k j)).toNat := by
  rw [get, bitsAt, hg.1, hg.2, bitsOf, Nat.pow_zero, Nat.div_one, Nat.mod_eq_of_lt (BitVec.isLt _)]

theorem word_put_wholeWord {g : Fld} (hg : g.lo = 0 ∧ g.w = 32) (x i k j a : Nat) :
    (d.put g x i k j).word a = if a = g.addr i k j then BitVec.ofNat 32 x else d.word a := by
  split
  · next ha =>
    have hput : (d.put g x i k j).get g i k j = x % 2 ^ 32 := by rw [get_put_self _ _ _ _ _ _ (by omega), hg.2]
    rw [ha]
    refine BitVec.eq_of_toNat_eq ?_
    rw [← get_wholeWord _ hg, hput, BitVec.toNat_ofNat]
  · next ha => exact d.word_put_ne _ _ _ _ _ ha

/-- An update repeated for each number writes one word for each, where each finds what an invariant says. -/
theorem forN_words {n : Nat} {d : Dev} {f : Dev → Nat → Dev} (I : Nat → Dev → Prop) (addr : Nat → Nat) (value : Nat → Word)
    (hstart : I 0 d) (hapart : ∀ j k, addr j = addr k → j = k)
    (hstep : ∀ k < n, ∀ e, I k e → I (k + 1) (f e k) ∧ ∀ a, (f e k).word a = if a = addr k then value k else e.word a) :
    I n (forN n d f) ∧ (∀ k < n, (forN n d f).word (addr k) = value k) ∧ d.keeps (forN n d f) ((List.range n).map addr) := by
  induction n with
  | zero => exact ⟨hstart, fun k hk => absurd hk (Nat.not_lt_zero k), keeps_of_regs rfl⟩
  | succ n ih =>
    obtain ⟨hinv, hwords, hkept⟩ := ih fun k hk => hstep k (Nat.lt_succ_of_lt hk)
    obtain ⟨hnext, hword⟩ := hstep n (Nat.lt_succ_self n) _ hinv
    have hlast : forN (n + 1) d f = f (forN n d f) n := by rw [forN, List.range_succ, List.foldl_concat, forN]
    rw [hlast]
    refine ⟨hnext, fun k hk => ?_, fun a ha => ?_⟩
    · rw [hword]
      split
      · next heq => rw [hapart _ _ heq]
      · next hne => exact hwords k (lt_of_le_of_ne (Nat.lt_succ_iff.1 hk) fun heq => hne (heq ▸ rfl))
    · rw [List.range_succ, List.map_append, List.mem_append, not_or, List.map_singleton, List.mem_singleton] at ha
      rw [hword, if_neg ha.2, hkept a ha.1]

end
end Dev
end Sys2Proof.Machine
end

section
/-! PROOF. Pseudo-channels that are fenced and released, and the passes of the frame store's scrubbing (R161, R162, R163, R174). -/
namespace Sys2Proof.Machine
namespace Dev

/-! The bits of PC_FENCED (R162). -/

/-- The word of PC_FENCED that holds the bit of a pseudo-channel. -/
def pcWord (pc : Nat) : Nat := F.MEMSW_PC_FENCED.addr 0 (pc / 32) 0

/-- The bit of a pseudo-channel in PC_FENCED replaced. -/
def pcPut (d : Dev) (pc x : Nat) : Dev := d.putAt (pcWord pc) (pc % 32) 1 x

theorem pcWord_eq (pc : Nat) : pcWord pc = 0x340058 + pc / 32 * 4 := rfl

theorem pcWord_mem {pc : Nat} (h : pc < 128) : pcWord pc ∈ [0x340058, 0x34005C, 0x340060, 0x340064] := by
  have := pcWord_eq pc
  simp only [List.mem_cons, List.not_mem_nil, or_false]
  omega

theorem ne_pcWord {pc a : Nat} (h : pc < 128) (ha : a ∉ [0x340058, 0x34005C, 0x340060, 0x340064]) : a ≠ pcWord pc :=
  fun hap => ha (hap ▸ pcWord_mem h)

theorem pcWord_notMem {pc : Nat} {as : List Nat} (h : pc < 128) (has : ∀ a ∈ as, a ∉ [0x340058, 0x34005C, 0x340060, 0x340064]) :
    pcWord pc ∉ as := fun hm => has _ hm (pcWord_mem h)

section
variable (d : Dev) {pc q : Nat}

theorem pcFenced_eq (pc : Nat) : d.pcFenced pc = decide (d.bitsAt (pcWord pc) (pc % 32) 1 = 1) := by
  have hword : bitsOf (d.word (pcWord pc)).toNat 0 32 = (d.word (pcWord pc)).toNat := by
    rw [bitsOf, Nat.pow_zero, Nat.div_one, Nat.mod_eq_of_lt (BitVec.isLt _)]
  have hget : d.get F.MEMSW_PC_FENCED 0 (pc / 32) = (d.word (pcWord pc)).toNat := hword
  rw [pcFenced, hget, bitsAt]

theorem pcFenced_congr {e : Dev} (h : e.word (pcWord pc) = d.word (pcWord pc)) : e.pcFenced pc = d.pcFenced pc := by
  rw [pcFenced_eq, pcFenced_eq, bitsAt, bitsAt, h]

theorem pcFenced_pcPut_self (x : Nat) : (d.pcPut pc x).pcFenced pc = decide (x % 2 = 1) := by
  rw [pcFenced_eq, pcPut, bitsAt_putAt_self _ _ _ _ _ (by omega), Nat.pow_one]

theorem pcFenced_pcPut_ne (x : Nat) (h : q ≠ pc) : (d.pcPut pc x).pcFenced q = d.pcFenced q := by
  rw [pcFenced_eq, pcFenced_eq, pcPut]
  by_cases hword : pcWord q = pcWord pc
  · have hbit : q % 32 ≠ pc % 32 := by
      simp only [pcWord_eq] at hword
      omega
    rw [hword, bitsAt_putAt_apart _ _ _ _ _ _ _ (by omega) (by omega)]
  · rw [bitsAt_putAt_ne _ _ _ _ _ _ hword]

/-- A change of another word of the memory switch leaves the bits of PC_FENCED. -/
theorem pcFenced_of_keeps {e : Dev} {as : List Nat} (h : d.keeps e as) (hq : pcWord q ∉ as) : e.pcFenced q = d.pcFenced q :=
  d.pcFenced_congr (h _ hq)

/-! Fences (R162). -/

theorem pcFence_of_fenced (h : d.pcFenced pc = true) : d.pcFence pc = d := if_pos h

theorem pcFence_of_open (h : d.pcFenced pc = false) : d.pcFence pc = (d.pcPut pc 1).irq .memsw 0 0 2 := if_neg (by simp [h])

theorem pcFence_fenced (hpc : pc < 128) : (d.pcFence pc).pcFenced pc = true := by
  cases h : d.pcFenced pc with
  | true => rw [pcFence_of_fenced _ h, h]
  | false =>
    rw [pcFence_of_open _ h, pcFenced_congr _ (word_irq_ne _ _ _ _ _ (ne_pcWord hpc (by decide)).symm), pcFenced_pcPut_self]
    rfl

theorem pcFence_keeps (pc : Nat) : d.keeps (d.pcFence pc) [pcWord pc, pageAddr .memsw 0 0 + 0x10] := by
  cases h : d.pcFenced pc with
  | true => rw [pcFence_of_fenced _ h]; exact keeps_of_regs rfl
  | false =>
    rw [pcFence_of_open _ h]
    exact keeps_trans (d.keeps_putAt _ _ _ (by simp)) (keeps_irq _ _ (by simp))

theorem pcFence_apart (pc : Nat) : (d.pcFence pc).apart = d.apart := by
  unfold pcFence
  split
  · rfl
  · rw [irq_apart, putAt_apart]

variable {d} in
theorem raised_pcFence_of {n : Nat} (h : raised d .memsw 0 0 n) (hpc : pc < 128) : raised (d.pcFence pc) .memsw 0 0 n := by
  unfold pcFence
  split
  · exact h
  · exact raised_irq_of (raised_congr h (word_putAt_ne _ _ _ _ (ne_pcWord hpc (by decide)))) 2

/-! Releases (R162). -/

/-- A release meets its condition, and the errors of this second are below the limit. -/
abbrev pcFreed (d : Dev) (pc : Nat) (met : Bool) : Prop :=
  met = true ∧ sget (fun _ => 0) d.pcErrs pc < max 1 (d.get F.MEMSW_PC_CTL_PC_UE_LIMIT)

theorem pcLimit_put (x : Nat) : (d.put F.MEMSW_PC_REL_PC x).get F.MEMSW_PC_CTL_PC_UE_LIMIT = d.get F.MEMSW_PC_CTL_PC_UE_LIMIT :=
  d.get_put_ne _ _ _ _ _ _ _ _ _ (by decide)

/-- A release that is done, and one that is refused. -/
def pcReleased (pc : Nat) : Dev := ((d.put F.MEMSW_PC_REL_PC pc).pcPut pc 0).put F.MEMSW_PC_REL_PC_REL_REFUSED 0
def pcRefused (pc : Nat) : Dev := (d.put F.MEMSW_PC_REL_PC pc).put F.MEMSW_PC_REL_PC_REL_REFUSED 1

theorem pcReleased_aside (pc : Nat) : (d.pcReleased pc).aside = d.aside := by simp only [pcReleased, pcPut, put_aside, putAt_aside]
theorem pcRefused_aside (pc : Nat) : (d.pcRefused pc).aside = d.aside := by simp only [pcRefused, put_aside]

theorem pcRelease_refused (hpc : pc < 128) {met : Bool} (hf : d.pcFenced pc = true) (h : ¬ d.pcFreed pc met) :
    d.pcRelease pc met = d.pcRefused pc := by
  have hfenced : (d.put F.MEMSW_PC_REL_PC pc).pcFenced pc = true :=
    (d.pcFenced_congr (d.word_put_ne _ _ _ _ _ (ne_pcWord hpc (by decide)).symm)).trans hf
  refine if_pos ⟨hfenced, ?_⟩
  rw [pcLimit_put, put_pcErrs]
  by_cases hmet : met = true
  · exact .inr (Nat.not_lt.1 fun hlt => h ⟨hmet, hlt⟩)
  · exact .inl (by simp [hmet])

theorem pcRelease_released (hpc : pc < 128) {met : Bool} (h : d.pcFenced pc = true → d.pcFreed pc met) :
    d.pcRelease pc met = d.pcReleased pc := by
  refine if_neg ?_
  rintro ⟨hfenced, hrefused⟩
  rw [pcFenced_congr d (d.word_put_ne _ _ _ _ _ (ne_pcWord hpc (by decide)).symm)] at hfenced
  obtain ⟨hmet, hbelow⟩ := h hfenced
  rw [pcLimit_put, put_pcErrs, hmet] at hrefused
  rcases hrefused with hunmet | hover
  · exact Bool.false_ne_true hunmet
  · exact absurd hover (Nat.not_le.2 hbelow)

/-- PC_REL holds the pseudo-channel that was asked for, and whether its release was refused. -/
theorem get_pcRel {e : Dev} {x : Nat} (hx : x < 2) (he : e.get F.MEMSW_PC_REL_PC = pc) :
    (e.put F.MEMSW_PC_REL_PC_REL_REFUSED x).get F.MEMSW_PC_REL_PC = pc ∧
      (e.put F.MEMSW_PC_REL_PC_REL_REFUSED x).get F.MEMSW_PC_REL_PC_REL_REFUSED = x := by
  refine ⟨?_, ?_⟩
  · rw [get_put_apart e F.MEMSW_PC_REL_PC_REL_REFUSED F.MEMSW_PC_REL_PC x 0 0 0 0 0 0 (by decide) (by decide) rfl, he]
  · rw [get_put_self _ _ _ _ _ _ (by decide)]
    exact Nat.mod_eq_of_lt hx

theorem get_pcRel_put (hpc : pc < 128) : (d.put F.MEMSW_PC_REL_PC pc).get F.MEMSW_PC_REL_PC = pc :=
  (d.get_put_self _ _ _ _ _ (by decide)).trans (Nat.mod_eq_of_lt hpc)

theorem pcRefused_shows (hpc : pc < 128) : (d.pcRefused pc).get F.MEMSW_PC_REL_PC = pc ∧
    (d.pcRefused pc).get F.MEMSW_PC_REL_PC_REL_REFUSED = 1 ∧ d.keeps (d.pcRefused pc) [F.MEMSW_PC_REL_PC.addr 0 0 0] := by
  obtain ⟨hheld, hanswer⟩ := get_pcRel (x := 1) (by decide) (d.get_pcRel_put hpc)
  exact ⟨hheld, hanswer, keeps_trans (d.keeps_put _ (by simp)) (keeps_put _ _ (List.mem_singleton.2 rfl))⟩

theorem pcReleased_shows (hpc : pc < 128) : (d.pcReleased pc).get F.MEMSW_PC_REL_PC = pc ∧
    (d.pcReleased pc).get F.MEMSW_PC_REL_PC_REL_REFUSED = 0 ∧
    d.keeps (d.pcReleased pc) [F.MEMSW_PC_REL_PC.addr 0 0 0, pcWord pc] := by
  have hmarked : ((d.put F.MEMSW_PC_REL_PC pc).pcPut pc 0).get F.MEMSW_PC_REL_PC = pc :=
    (get_putAt_ne _ _ _ _ _ _ _ _ _ (ne_pcWord hpc (by decide))).trans (d.get_pcRel_put hpc)
  obtain ⟨hheld, hanswer⟩ := get_pcRel (x := 0) (by decide) hmarked
  exact ⟨hheld, hanswer, keeps_trans (d.keeps_put _ (by simp))
    (keeps_trans (keeps_putAt _ _ _ _ (by simp)) (keeps_put _ _ (List.mem_cons_self ..)))⟩

theorem pcFenced_pcReleased_self (hpc : pc < 128) : (d.pcReleased pc).pcFenced pc = false := by
  rw [pcReleased, pcFenced_congr _ (word_put_ne _ _ _ _ _ _ (ne_pcWord hpc (by decide)).symm), pcFenced_pcPut_self]
  rfl

theorem pcFenced_pcReleased_ne (hq : q < 128) (h : q ≠ pc) : (d.pcReleased pc).pcFenced q = d.pcFenced q := by
  rw [pcReleased, pcFenced_congr _ (word_put_ne _ _ _ _ _ _ (ne_pcWord hq (by decide)).symm), pcFenced_pcPut_ne _ _ h,
    pcFenced_congr _ (word_put_ne _ _ _ _ _ _ (ne_pcWord hq (by decide)).symm)]

/-! The start of a pass (R163). -/

/-- A pass is due: scrubbing is on, no pass is under way, and the last one began SCRUB_HOURS hours ago. -/
abbrev scrubDue (d : Dev) : Prop :=
  d.flag F.MEMSW_SCRUB_CTL_EN = true ∧ d.hbmScrub = false ∧
    ∀ t0, d.scrubAt = some t0 → t0 + d.get F.MEMSW_SCRUB_CTL_SCRUB_HOURS * 3600000000000 ≤ d.house

theorem scrubStart_of_due (h : d.scrubDue) : d.scrubStart = { d with hbmScrub := true, scrubAt := some d.house } := by
  obtain ⟨hen, hidle, hlast⟩ := h
  have hdue : (d.scrubAt.elim true fun t =>
      decide (t + d.get F.MEMSW_SCRUB_CTL_SCRUB_HOURS * 3600000000000 ≤ d.house)) = true := by
    cases hat : d.scrubAt with
    | none => rfl
    | some t0 =>
      rw [Option.elim_some, decide_eq_true_eq]
      exact hlast t0 hat
  rw [scrubStart, hen, hidle, hdue]
  rfl

theorem scrubStart_of_not_due (h : ¬ d.scrubDue) : d.scrubStart = d := by
  refine if_neg fun hdue => h ?_
  rw [Bool.and_eq_true, Bool.and_eq_true, Bool.not_eq_true'] at hdue
  obtain ⟨⟨hen, hidle⟩, hlast⟩ := hdue
  refine ⟨hen, hidle, fun t0 hat => ?_⟩
  rw [hat, Option.elim_some, decide_eq_true_eq] at hlast
  exact hlast

/-! The end of a pass (R161, R163). -/

theorem corrected_keeps (n : Nat) : d.keeps (d.corrected n) [F.MEMSW_CE_COUNT.addr 0 0 0, pageAddr .memsw 0 0 + 0x10] := by
  unfold corrected
  split
  · exact keeps_of_regs rfl
  · exact keeps_trans (d.keeps_put _ (by simp)) (keeps_irq _ _ (by simp))

theorem corrected_apart (n : Nat) : (d.corrected n).apart = d.apart := by
  unfold corrected
  split
  · rfl
  · rw [irq_apart, count_apart]

theorem get_corrected (n : Nat) : (d.corrected n).get F.MEMSW_CE_COUNT = min (d.get F.MEMSW_CE_COUNT + n) 0xFFFFFFFF := by
  have hlt : d.get F.MEMSW_CE_COUNT < 2 ^ 32 := d.get_lt _ _
  unfold corrected
  split
  · omega
  · exact (get_irq_ne _ _ _ _ _ _ _ _ _ (by decide)).trans (d.get_count_self _ _ _ _ (by decide))

theorem raised_corrected {n : Nat} (hn : n ≠ 0) : raised (d.corrected n) .memsw 0 0 0 := by
  rw [corrected, if_neg hn]
  exact raised_irq _ _ _ _ (by decide)

/-- UE_ADDR holds the first address of an uncorrectable error since a clear, and UE_COUNT counts them (R161). -/
def ueCounted (burst : Nat) : Dev :=
  ((if d.get F.MEMSW_UE_COUNT = 0 then d.put64 F.MEMSW_UE_ADDR_LO_ADDR (burst / 32 * 32) else d).count F.MEMSW_UE_COUNT).irq .memsw 0 0 1

/-- The error counts in this second of its pseudo-channel (R162). -/
def pcCounted (pc : Nat) : Dev := { d with pcErrs := supd (fun _ => 0) d.pcErrs pc (· + 1) }

/-- The words of the first uncorrectable error. -/
abbrev ueWords : List Nat :=
  [F.MEMSW_UE_COUNT.addr 0 0 0, F.MEMSW_UE_ADDR_LO_ADDR.addr 0 0 0, F.MEMSW_UE_ADDR_LO_ADDR.addr 0 0 0 + 4]

theorem hbmError_eq (burst : Nat) : d.hbmError burst =
    (let e := (d.ueCounted burst).pcCounted (pcOf burst)
     if sget (fun _ => 0) e.pcErrs (pcOf burst) ≥ max 1 (e.get F.MEMSW_PC_CTL_PC_UE_LIMIT) then e.pcFence (pcOf burst) else e) := rfl

theorem ueCounted_apart (burst : Nat) : (d.ueCounted burst).apart = d.apart := by
  rw [ueCounted, irq_apart, count_apart]
  split
  · rw [put64_apart]
  · rfl

theorem ueCounted_keeps (burst : Nat) : d.keeps (d.ueCounted burst) (ueWords ++ [pageAddr .memsw 0 0 + 0x10]) := by
  have haddr : d.keeps (if d.get F.MEMSW_UE_COUNT = 0 then d.put64 F.MEMSW_UE_ADDR_LO_ADDR (burst / 32 * 32) else d)
      (ueWords ++ [pageAddr .memsw 0 0 + 0x10]) := by
    split
    · exact keeps_trans (d.keeps_setWord _ (by simp)) (keeps_setWord _ _ (by simp))
    · exact keeps_of_regs rfl
  exact keeps_trans haddr (keeps_trans (keeps_put _ _ (by simp)) (keeps_irq _ _ (by simp)))

theorem get_ueCounted (burst : Nat) :
    (d.ueCounted burst).get F.MEMSW_UE_COUNT = min (d.get F.MEMSW_UE_COUNT + 1) 0xFFFFFFFF := by
  have hcount : (if d.get F.MEMSW_UE_COUNT = 0 then d.put64 F.MEMSW_UE_ADDR_LO_ADDR (burst / 32 * 32) else d).get F.MEMSW_UE_COUNT =
      d.get F.MEMSW_UE_COUNT := by
    split
    · exact get_congr _ _ _ _ (d.word_put64_ne _ _ _ _ (by decide) (by decide))
    · rfl
  rw [ueCounted, get_irq_ne _ _ _ _ _ _ _ _ _ (by decide), get_count_self _ _ _ _ _ (by decide), hcount]
  rfl

theorem get64_ueCounted {burst : Nat} (hb : burst < 2 ^ 37) : (d.ueCounted burst).get64 F.MEMSW_UE_ADDR_LO_ADDR =
    if d.get F.MEMSW_UE_COUNT = 0 then burst / 32 * 32 else d.get64 F.MEMSW_UE_ADDR_LO_ADDR := by
  have hafter (e : Dev) : ((e.count F.MEMSW_UE_COUNT).irq .memsw 0 0 1).get64 F.MEMSW_UE_ADDR_LO_ADDR =
      e.get64 F.MEMSW_UE_ADDR_LO_ADDR :=
    get64_congr _ _ _ ((word_irq_ne _ _ _ _ _ (by decide)).trans (word_count_ne _ _ _ _ _ (by decide)))
      ((word_irq_ne _ _ _ _ _ (by decide)).trans (word_count_ne _ _ _ _ _ (by decide)))
  rw [ueCounted, hafter]
  split
  · rw [get64_put64_self]
    exact Nat.mod_eq_of_lt (by omega)
  · rfl

theorem notMem_errorWords {a burst : Nat} (h : a ∉ ueWords ++ [pageAddr .memsw 0 0 + 0x10] ++ [0x340058, 0x34005C, 0x340060, 0x340064]) :
    a ∉ ueWords ++ [pageAddr .memsw 0 0 + 0x10, pcWord (pcOf burst)] := by
  rw [List.mem_append, not_or] at h
  rw [List.append_cons, List.mem_append, not_or, List.mem_singleton]
  exact ⟨h.1, ne_pcWord (pcOf_lt burst) h.2⟩

/-- Once an error is counted, at most the fence of its pseudo-channel follows. -/
theorem ueCounted_keeps_hbmError (burst : Nat) :
    (d.ueCounted burst).keeps (d.hbmError burst) [pcWord (pcOf burst), pageAddr .memsw 0 0 + 0x10] := by
  rw [hbmError_eq]
  dsimp only
  split
  · exact keeps_trans (keeps_of_regs rfl) (pcFence_keeps _ _)
  · exact keeps_of_regs rfl

theorem hbmError_keeps (burst : Nat) : d.keeps (d.hbmError burst) (ueWords ++ [pageAddr .memsw 0 0 + 0x10, pcWord (pcOf burst)]) :=
  keeps_trans (keeps_mono (d.ueCounted_keeps burst) (by simp)) (keeps_mono (d.ueCounted_keeps_hbmError burst) (by simp))

theorem hbmError_apart (burst : Nat) :
    (d.hbmError burst).apart = (d.pcCounted (pcOf burst)).apart := by
  have hcounted : ((d.ueCounted burst).pcCounted (pcOf burst)).apart = (d.pcCounted (pcOf burst)).apart :=
    (congrArg (pcCounted · (pcOf burst)) (d.ueCounted_apart burst) :)
  rw [hbmError_eq]
  dsimp only
  split
  · rw [pcFence_apart, hcounted]
  · exact hcounted

theorem hbmError_scrubBad (burst : Nat) : (d.hbmError burst).scrubBad = d.scrubBad := (rest_scrubBad (d.hbmError_apart burst)).trans rfl
theorem hbmError_inReset (burst : Nat) : (d.hbmError burst).inReset = d.inReset := (rest_inReset (d.hbmError_apart burst)).trans rfl

/-- The error's event stands after the fence that it may bring. -/
theorem raised_hbmError_of {burst n : Nat} (h : raised (d.ueCounted burst) .memsw 0 0 n) : raised (d.hbmError burst) .memsw 0 0 n := by
  rw [hbmError_eq]
  dsimp only
  split
  · exact raised_pcFence_of (raised_congr h rfl) (pcOf_lt burst)
  · exact raised_congr h rfl

theorem raised_ueCounted_of {burst n : Nat} (h : raised d .memsw 0 0 n) : raised (d.ueCounted burst) .memsw 0 0 n := by
  refine raised_irq_of (raised_congr h ?_) 1
  rw [word_count_ne _ _ _ _ _ (by decide)]
  split
  · exact d.word_put64_ne _ _ _ _ (by decide) (by decide)
  · rfl

/-- The error that reaches the limit of its second fences its pseudo-channel (R162). -/
theorem pcFenced_hbmError {burst : Nat}
    (h : sget (fun _ => 0) d.pcErrs (pcOf burst) + 1 ≥ max 1 (d.get F.MEMSW_PC_CTL_PC_UE_LIMIT)) :
    (d.hbmError burst).pcFenced (pcOf burst) = true := by
  have herrs : sget (fun _ => 0) ((d.ueCounted burst).pcCounted (pcOf burst)).pcErrs (pcOf burst) =
      sget (fun _ => 0) d.pcErrs (pcOf burst) + 1 := by
    rw [pcCounted, supd, sget_sset_self, rest_pcErrs (d.ueCounted_apart burst)]
  have hlimit : ((d.ueCounted burst).pcCounted (pcOf burst)).get F.MEMSW_PC_CTL_PC_UE_LIMIT = d.get F.MEMSW_PC_CTL_PC_UE_LIMIT :=
    get_of_keeps (d.ueCounted_keeps burst) (by decide)
  rw [hbmError_eq]
  dsimp only
  rw [herrs, hlimit, if_pos h]
  exact pcFence_fenced _ (pcOf_lt burst)

/-- The pass is over, and its uncorrectable bursts are remembered. -/
def passOver (bursts : List Nat) : Dev :=
  { d with hbmScrub := false, scrubBad := d.scrubBad ++ bursts.filter (fun b => !d.scrubBad.contains b) }

/-- The pass is over and counted. -/
def scrubEnded (bursts : List Nat) : Dev := ((d.passOver bursts).count F.MEMSW_SCRUB_STS).irq .memsw 0 0 3

theorem scrubDone_eq (h : d.hbmScrub = true) (n : Nat) (bursts : List Nat) :
    d.scrubDone n bursts = (bursts.foldl hbmError (d.corrected n)).scrubEnded bursts := if_neg (by simp [h])

theorem scrubDone_nil (h : d.hbmScrub = true) (n : Nat) : d.scrubDone n [] = (d.corrected n).scrubEnded [] := d.scrubDone_eq h n []

theorem scrubDone_one (h : d.hbmScrub = true) (n b : Nat) :
    d.scrubDone n [b] = ((d.corrected n).hbmError b).scrubEnded [b] := by
  rw [d.scrubDone_eq h, List.foldl_cons, List.foldl_nil]

theorem scrubEnded_keeps (bursts : List Nat) :
    d.keeps (d.scrubEnded bursts) [F.MEMSW_SCRUB_STS.addr 0 0 0, pageAddr .memsw 0 0 + 0x10] :=
  keeps_trans (keeps_trans (keeps_of_regs rfl) (keeps_put _ _ (by simp))) (keeps_irq _ _ (by simp))

theorem scrubEnded_apart (bursts : List Nat) : (d.scrubEnded bursts).apart = (d.passOver bursts).apart := by
  rw [scrubEnded, irq_apart, count_apart]

theorem passOver_apart {e : Dev} (he : e.apart = d.apart) (bursts : List Nat) :
    (e.passOver bursts).apart = (d.passOver bursts).apart :=
  (congrArg (passOver · bursts) he :)

/-- A pass without uncorrectable errors leaves nothing to remember. -/
theorem passOver_nil (h : d.hbmScrub = true) : ({ (d.passOver []).apart with hbmScrub := true } : Dev) = d.apart := by
  have hbad : ({ (d.passOver []).apart with hbmScrub := true } : Dev) =
      { d.apart with hbmScrub := true, scrubBad := d.scrubBad ++ [] } := rfl
  rw [hbad, List.append_nil, ← h]
  rfl

theorem mem_passOver (b x : Nat) : x ∈ (d.passOver [b]).scrubBad ↔ x = b ∨ x ∈ d.scrubBad := by
  by_cases hb : b ∈ d.scrubBad <;> by_cases hx : x = b <;> simp [passOver, hb, hx]

variable {d} in
theorem raised_scrubEnded_of {n : Nat} (h : raised d .memsw 0 0 n) (bursts : List Nat) : raised (d.scrubEnded bursts) .memsw 0 0 n := by
  refine raised_irq_of (raised_congr h ?_) 3
  rw [word_count_ne _ _ _ _ _ (by decide)]
  rfl

theorem scrubBad_scrubEnded (bursts : List Nat) : (d.scrubEnded bursts).scrubBad = (d.passOver bursts).scrubBad :=
  rest_scrubBad (d.scrubEnded_apart bursts)

/-- What a pass shows at its end, whatever it found (R161, R163). -/
def passShown (d e : Dev) (n : Nat) : Prop :=
  e.hbmScrub = false ∧ raised e .memsw 0 0 3 ∧ (n ≠ 0 → raised e .memsw 0 0 0) ∧
    e.get F.MEMSW_CE_COUNT = min (d.get F.MEMSW_CE_COUNT + n) 0xFFFFFFFF ∧
    e.get F.MEMSW_SCRUB_STS = min (d.get F.MEMSW_SCRUB_STS + 1) 0xFFFFFFFF

theorem passShown_atTime (e : Dev) (t n : Nat) : (d.atTime t).passShown e n ↔ d.passShown e n := by
  simp only [passShown, get_atTime]

theorem scrubEnded_shows {e : Dev} {n : Nat} {bursts : List Nat} (hce : n ≠ 0 → raised e .memsw 0 0 0)
    (hcount : e.get F.MEMSW_CE_COUNT = min (d.get F.MEMSW_CE_COUNT + n) 0xFFFFFFFF)
    (hsts : e.get F.MEMSW_SCRUB_STS = d.get F.MEMSW_SCRUB_STS) : d.passShown (e.scrubEnded bursts) n := by
  refine ⟨?_, raised_irq _ _ _ _ (by decide), fun hn => raised_scrubEnded_of (hce hn) bursts, ?_, ?_⟩
  · exact rest_hbmScrub (a := e.scrubEnded bursts) (e.scrubEnded_apart bursts)
  · exact (get_of_keeps (e.scrubEnded_keeps bursts) (by decide)).trans hcount
  · rw [scrubEnded, get_irq_ne _ _ _ _ _ _ _ _ _ (by decide), get_count_self _ _ _ _ _ (by decide), ← hsts]
    rfl

end
end Dev

section
variable {s : State} {t : Nat}

/-! The commands. -/

theorem exec_pcRetrainFail_fenced (hr : s.dev.inReset = false) {pc : Fin 128} (h : s.dev.pcFenced pc = true) :
    exec (.pcRetrainFail t pc) s = .next { s with dev := s.dev.atTime t } :=
  exec_of_onDev (f := fun d => (d.atTime t).pcFence pc) rfl hr ((s.dev.atTime t).pcFence_of_fenced h) hr

theorem answers_pcRetrainFail (hr : s.dev.inReset = false) {pc : Fin 128} (h : s.dev.pcFenced pc = false) :
    Answers (.pcRetrainFail t pc) s (fun d => s.dev.wordsAndEvents d t ∧ d.pcFenced pc = true ∧
      (∀ q : Fin 128, q ≠ pc → d.pcFenced q = s.dev.pcFenced q) ∧
      d.word (pageAddr .memsw 0 0 + 0x10) = s.dev.word (pageAddr .memsw 0 0 + 0x10) ||| 4 ∧
      s.dev.keeps d [Dev.pcWord pc, pageAddr .memsw 0 0 + 0x10]) := by
  have hapart := (s.dev.atTime t).pcFence_apart pc
  have hpc := pc.isLt
  refine answers_at (g := (·.pcFence pc)) hr rfl (Dev.inReset_of_apart hapart)
    ⟨hapart, Dev.pcFence_fenced _ hpc, fun q hq => ?_, ?_, (s.dev.atTime t).pcFence_keeps pc⟩
  · have hqp : (q : Nat) ≠ pc := fun heq => hq (Fin.ext heq)
    rw [(s.dev.atTime t).pcFence_of_open h, Dev.pcFenced_congr _ (Dev.word_irq_ne _ _ _ _ _ (Dev.ne_pcWord q.isLt (by decide)).symm),
      Dev.pcFenced_pcPut_ne _ _ hqp]
    rfl
  · rw [(s.dev.atTime t).pcFence_of_open h, Dev.word_irq_self _ _ _ _ (by decide), Dev.pcPut,
      Dev.word_putAt_ne _ _ _ _ (Dev.ne_pcWord hpc (by decide))]
    rfl

theorem answers_pcRelease {pc : Fin 128} {met : Bool} (h : s.takesAt t ⟨.memsw, 0, 0⟩) :
    Answers (.pcRelease t pc met) s (fun d => s.dev.wordsOnly d t ∧ d.get F.MEMSW_PC_REL_PC = pc ∧
      let errs := sget (fun _ => 0) s.dev.pcErrs pc
      if met = true ∧ errs < max 1 (s.dev.get F.MEMSW_PC_CTL_PC_UE_LIMIT) then
        d.get F.MEMSW_PC_REL_PC_REL_REFUSED = 0 ∧ d.pcFenced pc = false ∧
        (∀ q : Fin 128, q ≠ pc → d.pcFenced q = s.dev.pcFenced q) ∧
        s.dev.keeps d [F.MEMSW_PC_REL_PC.addr 0 0 0, Dev.pcWord pc]
      else s.dev.pcFenced pc = true →
        d.get F.MEMSW_PC_REL_PC_REL_REFUSED = 1 ∧ s.dev.keeps d [F.MEMSW_PC_REL_PC.addr 0 0 0]) := by
  have hpc := pc.isLt
  obtain ⟨hheld, hdone, hkept⟩ := (s.dev.atTime t).pcReleased_shows hpc
  have haside := (s.dev.atTime t).pcReleased_aside pc
  by_cases hfree : (s.dev.atTime t).pcFreed pc met
  · have heq := (s.dev.atTime t).pcRelease_released hpc fun _ => hfree
    refine answers_taken (g := (·.pcRelease pc met)) h rfl ((congrArg Dev.inReset heq).trans (Dev.inReset_of_aside haside)) ?_
    rw [heq]
    exact ⟨haside, hheld, (if_pos hfree).mpr ⟨hdone, Dev.pcFenced_pcReleased_self _ hpc,
      fun q hq => Dev.pcFenced_pcReleased_ne _ q.isLt fun hqp => hq (Fin.ext hqp), hkept⟩⟩
  by_cases hfenced : s.dev.pcFenced pc = true
  · obtain ⟨hheld, hanswer, hkept⟩ := (s.dev.atTime t).pcRefused_shows hpc
    have heq := (s.dev.atTime t).pcRelease_refused hpc hfenced hfree
    have haside := (s.dev.atTime t).pcRefused_aside pc
    refine answers_taken (g := (·.pcRelease pc met)) h rfl ((congrArg Dev.inReset heq).trans (Dev.inReset_of_aside haside)) ?_
    rw [heq]
    exact ⟨haside, hheld, (if_neg hfree).mpr fun _ => ⟨hanswer, hkept⟩⟩
  · have heq := (s.dev.atTime t).pcRelease_released (met := met) hpc fun hf => absurd hf hfenced
    refine answers_taken (g := (·.pcRelease pc met)) h rfl ((congrArg Dev.inReset heq).trans (Dev.inReset_of_aside haside)) ?_
    rw [heq]
    exact ⟨haside, hheld, (if_neg hfree).mpr fun hf => absurd hf hfenced⟩

theorem exec_scrubPassStart_due (hr : s.dev.inReset = false) (h : (s.dev.atTime t).scrubDue) :
    exec (.scrubPassStart t) s = .next { s with dev := { s.dev.atTime t with hbmScrub := true, scrubAt := some (max s.dev.house t) } } :=
  exec_of_onDev (f := fun d => (d.atTime t).scrubStart) rfl hr ((s.dev.atTime t).scrubStart_of_due h) hr

theorem exec_scrubPassStart_early (hr : s.dev.inReset = false) (h : ¬ (s.dev.atTime t).scrubDue) :
    exec (.scrubPassStart t) s = .next { s with dev := s.dev.atTime t } :=
  exec_of_onDev (f := fun d => (d.atTime t).scrubStart) rfl hr ((s.dev.atTime t).scrubStart_of_not_due h) hr

theorem answers_scrubDone_clean (hr : s.dev.inReset = false) (h : s.dev.hbmScrub = true) (n : Nat) :
    Answers (.scrubDone t n []) s (fun d => s.dev.passShown d n ∧
      s.dev.keeps d [F.MEMSW_CE_COUNT.addr 0 0 0, F.MEMSW_SCRUB_STS.addr 0 0 0, pageAddr .memsw 0 0 + 0x10] ∧
      { d.apart with hbmScrub := true } = (s.dev.atTime t).apart) := by
  have heq : (s.dev.atTime t).scrubDone n [] = ((s.dev.atTime t).corrected n).scrubEnded [] := (s.dev.atTime t).scrubDone_nil h n
  have hcorrected := (s.dev.atTime t).corrected_keeps n
  have hapart : (((s.dev.atTime t).corrected n).scrubEnded []).apart = ((s.dev.atTime t).passOver []).apart :=
    (Dev.scrubEnded_apart _ _).trans (Dev.passOver_apart _ ((s.dev.atTime t).corrected_apart n) _)
  have hshown : (s.dev.atTime t).passShown (((s.dev.atTime t).corrected n).scrubEnded []) n :=
    Dev.scrubEnded_shows _ (Dev.raised_corrected _) (Dev.get_corrected _ n) (Dev.get_of_keeps hcorrected (by decide))
  refine answers_at (g := (·.scrubDone n [])) hr rfl ?_ ?_
  · rw [heq]
    exact (Dev.inReset_of_apart hapart).trans rfl
  · rw [heq]
    refine ⟨(Dev.passShown_atTime _ _ _ _).1 hshown, ?_, ?_⟩
    · exact Dev.keeps_trans (Dev.keeps_mono hcorrected (by simp)) (Dev.keeps_mono (Dev.scrubEnded_keeps _ _) (by simp))
    · rw [hapart]
      exact Dev.passOver_nil _ h

theorem answers_scrubDone_found (hr : s.dev.inReset = false) (h : s.dev.hbmScrub = true) (n : Nat) {b : Nat} (hb : b < 2 ^ 37) :
    Answers (.scrubDone t n [b]) s (fun d => s.dev.passShown d n ∧
      s.dev.keeps d ([F.MEMSW_CE_COUNT.addr 0 0 0, F.MEMSW_SCRUB_STS.addr 0 0 0, pageAddr .memsw 0 0 + 0x10] ++ Dev.ueWords ++
        [Dev.pcWord (pcOf b)]) ∧ raised d .memsw 0 0 1 ∧
      (∀ x, x ∈ d.scrubBad ↔ x = b ∨ x ∈ s.dev.scrubBad) ∧
      d.get F.MEMSW_UE_COUNT = min (s.dev.get F.MEMSW_UE_COUNT + 1) 0xFFFFFFFF ∧
      d.get64 F.MEMSW_UE_ADDR_LO_ADDR = (if s.dev.get F.MEMSW_UE_COUNT = 0 then b / 32 * 32
        else s.dev.get64 F.MEMSW_UE_ADDR_LO_ADDR) ∧
      (sget (fun _ => 0) s.dev.pcErrs (pcOf b) + 1 ≥ max 1 (s.dev.get F.MEMSW_PC_CTL_PC_UE_LIMIT) →
        d.pcFenced (pcOf b) = true)) := by
  have heq : (s.dev.atTime t).scrubDone n [b] = (((s.dev.atTime t).corrected n).hbmError b).scrubEnded [b] :=
    (s.dev.atTime t).scrubDone_one h n b
  have hcorrected := (s.dev.atTime t).corrected_keeps n
  have hfound := ((s.dev.atTime t).corrected n).hbmError_keeps b
  have hcounted := ((s.dev.atTime t).corrected n).ueCounted_keeps_hbmError b
  have hended := (((s.dev.atTime t).corrected n).hbmError b).scrubEnded_keeps [b]
  have hrest := (s.dev.atTime t).corrected_apart n
  have hue : ((s.dev.atTime t).corrected n).get F.MEMSW_UE_COUNT = s.dev.get F.MEMSW_UE_COUNT :=
    Dev.get_of_keeps hcorrected (by decide)
  have hbad : (((s.dev.atTime t).corrected n).hbmError b).scrubBad = s.dev.scrubBad :=
    (Dev.hbmError_scrubBad _ b).trans ((Dev.rest_scrubBad hrest).trans rfl)
  have hshown : (s.dev.atTime t).passShown ((((s.dev.atTime t).corrected n).hbmError b).scrubEnded [b]) n :=
    Dev.scrubEnded_shows _
      (fun hn => Dev.raised_hbmError_of _ (Dev.raised_ueCounted_of _ (Dev.raised_corrected _ hn)))
      ((Dev.get_of_keeps hfound (Dev.notMem_errorWords (by decide))).trans (Dev.get_corrected _ n))
      ((Dev.get_of_keeps hfound (Dev.notMem_errorWords (by decide))).trans (Dev.get_of_keeps hcorrected (by decide)))
  have hlast {a : Nat} (ha : a ∉ [0x340058, 0x34005C, 0x340060, 0x340064]) (hirq : a ≠ pageAddr .memsw 0 0 + 0x10) :
      a ∉ [Dev.pcWord (pcOf b), pageAddr .memsw 0 0 + 0x10] := by
    simp [Dev.ne_pcWord (pcOf_lt b) ha, hirq]
  refine answers_at (g := (·.scrubDone n [b])) hr rfl ?_ ?_
  · rw [heq]
    exact (Dev.inReset_of_apart (Dev.scrubEnded_apart _ _)).trans ((Dev.hbmError_inReset _ b).trans (Dev.rest_inReset hrest))
  · rw [heq]
    refine ⟨(Dev.passShown_atTime _ _ _ _).1 hshown, ?_, ?_, fun x => ?_, ?_, ?_, fun hlimit => ?_⟩
    · exact Dev.keeps_trans (Dev.keeps_mono hcorrected (by simp))
        (Dev.keeps_trans (Dev.keeps_mono hfound (by simp)) (Dev.keeps_mono hended (by simp)))
    · exact Dev.raised_scrubEnded_of (Dev.raised_hbmError_of _ (Dev.raised_irq _ _ _ _ (by decide))) _
    · rw [Dev.scrubBad_scrubEnded, Dev.mem_passOver, hbad]
    · rw [Dev.get_of_keeps hended (by decide), Dev.get_of_keeps hcounted (hlast (by decide) (by decide)), Dev.get_ueCounted, hue]
    · rw [Dev.get64_of_keeps hended (by decide) (by decide),
        Dev.get64_of_keeps hcounted (hlast (by decide) (by decide)) (hlast (by decide) (by decide)), Dev.get64_ueCounted _ hb, hue,
        Dev.get64_of_keeps hcorrected (by decide) (by decide)]
      rfl
    · rw [Dev.pcFenced_of_keeps _ hended (Dev.pcWord_notMem (pcOf_lt b) (by decide))]
      refine Dev.pcFenced_hbmError _ ?_
      rw [Dev.rest_pcErrs hrest, Dev.get_of_keeps hcorrected (by decide)]
      exact hlimit

end

/-- Pseudo-channels are fenced and released, and scrub passes counted, as the spec gives. -/
theorem pseudoChannelsAndScrubbing_holds : pseudoChannelsAndScrubbing := by
  intro s t hr
  refine ⟨fun pc => ⟨exec_pcRetrainFail_fenced hr, answers_pcRetrainFail hr, fun met => answers_pcRelease⟩,
    ⟨exec_scrubPassStart_due hr, exec_scrubPassStart_early hr⟩,
    fun h n => ⟨answers_scrubDone_clean hr h n, fun b hb => answers_scrubDone_found hr h n hb⟩⟩

end Sys2Proof.Machine
end

section
/-! PROOF. Slabs that change hands at the host's staging area and at a release (R156, R160), and the figures of a whole second
(R174, R176, R206). -/
namespace Sys2Proof.Machine
namespace Dev

/-! Slab maps without an empty position (R155, R492). -/

/-- No map of an owner has an empty position. -/
abbrev mapsWhole (d : Dev) : Prop := ∀ q ∈ d.maps, none ∉ q.2

section
variable (d : Dev)

theorem map_setMap (o p : Nat) (m : List (Option Nat)) : (d.setMap o m).map p = if p = o then m else d.map p := sget_sset _ _ _ _ _

variable {d}

theorem map_of_aside {e : Dev} (h : e.aside = d.aside) (o : Nat) : e.map o = d.map o := by rw [map, map, maps_of_aside h]
theorem lowestFree_of_aside {e : Dev} (h : e.aside = d.aside) (n : Nat) : e.lowestFree n = d.lowestFree n :=
  (congrArg (lowestFree · n) h :)

theorem map_whole (h : d.mapsWhole) (o : Nat) : none ∉ d.map o := by
  rcases sget_default_or_mem (fun _ => []) d.maps o with hempty | hmem
  · rw [map, hempty]
    exact List.not_mem_nil
  · exact h _ hmem

theorem mapsWhole_setMap (h : d.mapsWhole) (o : Nat) {m : List (Option Nat)} (hm : none ∉ m) : (d.setMap o m).mapsWhole := by
  intro q hq
  rcases mem_sset (show q ∈ sset (fun _ => []) d.maps o m from hq) with rfl | hq
  · exact hm
  · exact h q hq

/-- Where no position is empty there is none to fill. -/
theorem fillEmpty_of_whole (h : d.mapsWhole) : d.fillEmpty = d := by
  refine List.foldlRecOn (motive := (· = d)) d.maps _ rfl fun e he p _ => ?_
  refine List.foldlRecOn (motive := (· = d)) (List.range p.2.length) _ he fun e he k _ => ?_
  rw [he]
  refine if_neg fun hk => ?_
  rw [List.getD_eq_getElem?_getD] at hk
  cases hget : (d.map p.1)[k]? with
  | none => simp [hget] at hk
  | some x =>
    rw [hget, Option.getD_some] at hk
    exact map_whole h p.1 (hk ▸ List.mem_of_getElem? hget)

/-! HOST_STAGE_STS (R160). -/

variable (d)

/-- HOST_STAGE_STS shows what is held, and whether that is too little. -/
def stageShown (held : Nat) (short : Bool) : Dev := (d.put F.TALON_HOST_STAGE_STS_HELD held).putB F.TALON_HOST_STAGE_STS_SHORT short

theorem stageShown_aside (held : Nat) (short : Bool) : (d.stageShown held short).aside = d.aside := by
  rw [stageShown, putB_aside, put_aside]

theorem stageShown_apart (held : Nat) (short : Bool) : (d.stageShown held short).apart = d.apart := by
  rw [stageShown, putB_apart, put_apart]

theorem stageShown_keeps (held : Nat) (short : Bool) : d.keeps (d.stageShown held short) [F.TALON_HOST_STAGE_STS_HELD.addr 0 0 0] :=
  keeps_trans (d.keeps_put _ (List.mem_singleton.2 rfl)) (keeps_put _ _ (List.mem_singleton.2 rfl))

theorem get_stageShown {held : Nat} (hheld : held < 2 ^ 16) :
    (d.stageShown held false).get F.TALON_HOST_STAGE_STS_HELD = held ∧ (d.stageShown held false).get F.TALON_HOST_STAGE_STS_SHORT = 0 := by
  refine ⟨?_, get_put_self _ _ _ _ _ _ (by decide)⟩
  rw [stageShown, putB, get_put_apart _ F.TALON_HOST_STAGE_STS_SHORT F.TALON_HOST_STAGE_STS_HELD _ 0 0 0 0 0 0 (by decide) (by decide) rfl,
    get_put_self _ _ _ _ _ _ (by decide)]
  exact Nat.mod_eq_of_lt hheld

/-- Slabs that HOST_STAGE holds. -/
def stageHeld : Nat := ((d.map ownStage).filterMap id).length

theorem stageHeld_of_whole (h : none ∉ d.map ownStage) : d.stageHeld = (d.map ownStage).length := by
  rw [stageHeld, List.length_filterMap_eq_countP, List.countP_eq_length]
  intro x hx
  cases x with
  | none => exact absurd hx h
  | some k => rfl

theorem stageStatus_eq : d.stageStatus =
    (let short := decide (d.stageHeld < d.get F.TALON_HOST_STAGE_SLABS)
     if short = true ∧ (!d.flag F.TALON_HOST_STAGE_STS_SHORT) = true then (d.stageShown d.stageHeld short).irq .talon 0 0 2
     else d.stageShown d.stageHeld short) := by
  rw [stageStatus]
  simp only [decide_eq_true_eq]
  rfl

theorem stageStatus_of_met (h : d.get F.TALON_HOST_STAGE_SLABS ≤ d.stageHeld) : d.stageStatus = d.stageShown d.stageHeld false := by
  have hshort : decide (d.stageHeld < d.get F.TALON_HOST_STAGE_SLABS) = false := decide_eq_false (Nat.not_lt.2 h)
  rw [stageStatus_eq, hshort]
  exact if_neg fun hboth => Bool.false_ne_true hboth.1

theorem stageStatus_keeps : d.keeps d.stageStatus [F.TALON_HOST_STAGE_STS_HELD.addr 0 0 0, pageAddr .talon 0 0 + 0x10] := by
  have hshown (short : Bool) : d.keeps (d.stageShown d.stageHeld short) [F.TALON_HOST_STAGE_STS_HELD.addr 0 0 0, pageAddr .talon 0 0 + 0x10] :=
    keeps_mono (d.stageShown_keeps _ _) (by simp)
  rw [stageStatus_eq]
  dsimp only
  split
  · exact keeps_trans (hshown _) (keeps_irq _ _ (by simp))
  · exact hshown _

theorem stageStatus_apart : d.stageStatus.apart = d.apart := by
  rw [stageStatus_eq]
  dsimp only
  split
  · rw [irq_apart, stageShown_apart]
  · rw [stageShown_apart]

/-! A request of the staging area (R160). -/

theorem talonHeld_put_slabs (n : Nat) : (d.put F.TALON_HOST_STAGE_SLABS n).talonHeld = d.talonHeld := by
  rw [talonHeld, talonHeld, flag, flag, get_put_ne _ _ _ _ _ _ _ _ _ _ (by decide), fenced, fenced,
    recs_congr (put_fences d _ _ _ _ _), put_talonFrozen]

/-- A request waits. -/
def talonWaited (q : TalonReq) : Dev := { d with talonWaits := d.talonWaits ++ [q] }

theorem talonWaited_regs (q : TalonReq) : (d.talonWaited q).regs = d.regs := rfl
theorem talonWaited_inReset (q : TalonReq) : (d.talonWaited q).inReset = d.inReset := rfl

variable {d} in
theorem talonWaited_aside {e : Dev} (h : e.aside = d.aside) (q : TalonReq) :
    (e.talonWaited q).aside = { d.aside with talonWaits := d.talonWaits ++ [q] } := (congrArg (talonWaited · q) h :)

theorem stageWrite_of_held (h : d.talonHeld = true) (n : Nat) :
    d.stageWrite n = (d.put F.TALON_HOST_STAGE_SLABS n).talonWaited .stage := by
  rw [stageWrite, talonHeld_put_slabs, h]
  rfl

theorem stageWrite_of_open (h : d.talonHeld = false) (n : Nat) : d.stageWrite n = (d.put F.TALON_HOST_STAGE_SLABS n).stageApply := by
  rw [stageWrite, talonHeld_put_slabs, h]
  exact if_neg Bool.false_ne_true

/-- The map of HOST_STAGE that follows a request for `n` slabs. -/
def stageMap (n : Nat) : List (Option Nat) :=
  (d.map ownStage).take n ++ (d.lowestFree (n - (d.map ownStage).length)).map some

variable {d} in
theorem stageMap_of_aside {e : Dev} (h : e.aside = d.aside) (n : Nat) : e.stageMap n = d.stageMap n := by
  rw [stageMap, stageMap, map_of_aside h, lowestFree_of_aside h]

theorem lowestFree_zero : d.lowestFree 0 = [] := by rw [lowestFree, List.take_zero]

variable {d} in
theorem none_notMem_stageMap (h : d.mapsWhole) (n : Nat) : none ∉ d.stageMap n := by
  simp only [stageMap, List.mem_append, List.mem_map, reduceCtorEq, and_false, exists_false, or_false]
  exact fun hm => map_whole h ownStage (List.mem_of_mem_take hm)

variable {d} in
theorem length_stageMap {n : Nat} (h : (d.lowestFree (n - (d.map ownStage).length)).length = n - (d.map ownStage).length) :
    (d.stageMap n).length = n := by
  rw [stageMap, List.length_append, List.length_take, List.length_map, h]
  omega

/-- HOST_STAGE's map follows the request, its status is shown, and empty positions are filled. -/
theorem stageApply_eq : d.stageApply =
    ((d.setMap ownStage (d.stageMap (d.get F.TALON_HOST_STAGE_SLABS))).stageStatus.fillEmpty).stageStatus := by
  have hmap : (if d.get F.TALON_HOST_STAGE_SLABS < (d.map ownStage).length then
      d.setMap ownStage ((d.map ownStage).take (d.get F.TALON_HOST_STAGE_SLABS))
      else d.setMap ownStage (d.map ownStage ++
        (d.lowestFree (d.get F.TALON_HOST_STAGE_SLABS - (d.map ownStage).length)).map some)) =
      d.setMap ownStage (d.stageMap (d.get F.TALON_HOST_STAGE_SLABS)) := by
    split
    · next hless => rw [stageMap, Nat.sub_eq_zero_of_le hless.le, lowestFree_zero, List.map_nil, List.append_nil]
    · next hmore => rw [stageMap, List.take_of_length_le (Nat.not_lt.1 hmore)]
  rw [stageApply]
  dsimp only
  rw [hmap]

/-- The staging area's map as requested, and its status. -/
def stageMet (n : Nat) : Dev := ((d.setMap ownStage (d.stageMap n)).stageShown n false).stageShown n false

/-- A request that the free slabs reach is met: the status shows it, and no other map changes. -/
theorem stageApply_of_met {n : Nat} (hn : d.get F.TALON_HOST_STAGE_SLABS = n) (hwhole : d.mapsWhole)
    (hfree : (d.lowestFree (n - (d.map ownStage).length)).length = n - (d.map ownStage).length) :
    d.stageApply = d.stageMet n := by
  have hmap (e : Dev) (he : e.aside = (d.setMap ownStage (d.stageMap n)).aside) : e.map ownStage = d.stageMap n := by
    rw [map_of_aside he]
    exact (d.map_setMap ownStage ownStage (d.stageMap n)).trans (if_pos rfl)
  have hstatus (e : Dev) (he : e.aside = (d.setMap ownStage (d.stageMap n)).aside) (hslabs : e.get F.TALON_HOST_STAGE_SLABS = n) :
      e.stageStatus = e.stageShown n false := by
    have hheld : e.stageHeld = n := by
      rw [stageHeld_of_whole _ (by rw [hmap e he]; exact none_notMem_stageMap hwhole n), hmap e he, length_stageMap hfree]
    rw [stageStatus_of_met _ (by rw [hheld, hslabs]), hheld]
  have haside := (d.setMap ownStage (d.stageMap n)).stageShown_aside n false
  have hshown : ((d.setMap ownStage (d.stageMap n)).stageShown n false).mapsWhole := by
    rw [mapsWhole, maps_of_aside haside]
    exact mapsWhole_setMap hwhole ownStage (none_notMem_stageMap hwhole n)
  rw [stageApply_eq, hn, hstatus _ rfl hn, fillEmpty_of_whole hshown,
    hstatus _ haside ((get_of_keeps (stageShown_keeps _ _ _) (by decide)).trans hn), stageMet]

theorem stageMet_aside (n : Nat) : (d.stageMet n).aside = (d.setMap ownStage (d.stageMap n)).aside := by
  rw [stageMet, stageShown_aside, stageShown_aside]

theorem stageMet_keeps (n : Nat) : d.keeps (d.stageMet n) [F.TALON_HOST_STAGE_STS_HELD.addr 0 0 0] :=
  keeps_trans (keeps_of_regs rfl) (keeps_trans (stageShown_keeps _ _ _) (stageShown_keeps _ _ _))

theorem stageMet_inReset (n : Nat) : (d.stageMet n).inReset = d.inReset := (inReset_of_aside (d.stageMet_aside n)).trans rfl

theorem get_stageMet {n : Nat} (hn : n < 2 ^ 16) :
    (d.stageMet n).get F.TALON_HOST_STAGE_STS_HELD = n ∧ (d.stageMet n).get F.TALON_HOST_STAGE_STS_SHORT = 0 := by
  rw [stageMet]
  exact get_stageShown _ hn

theorem map_stageMet (n o : Nat) : (d.stageMet n).map o = if o = ownStage then d.stageMap n else d.map o := by
  rw [map_of_aside (d.stageMet_aside n), map_setMap]

variable {d} in
theorem stageMet_offMaps {e : Dev} (h : e.aside = d.aside) (n : Nat) :
    ({ (e.stageMet n).aside with maps := [], mapAt := [] } : Dev) = { d.aside with maps := [], mapAt := [] } := by
  rw [stageMet_aside]
  exact (congrArg (fun d : Dev => { d with maps := [], mapAt := [] }) h :)

/-! A release of slabs given up (R156). -/

/-- Slabs given up that stay with their readers, and the maps they stand in. -/
def slabsKept : Dev :=
  let keep := (d.releasing.map (fun q => (q.1, q.2.filter (fun s => d.house < d.relBy && d.slabsRead [s])))).filter (fun q => !q.2.isEmpty)
  { d with releasing := keep, oldMaps := d.oldMaps.filter (fun q => keep.any (·.1 = q.1)) }

theorem releaseSlabs_of_whole (h : d.mapsWhole) : d.releaseSlabs = d.slabsKept.stageStatus :=
  congrArg stageStatus (fillEmpty_of_whole (d := d.slabsKept) h)

theorem mem_slabsKept {q : Nat × List Nat} : q ∈ d.slabsKept.releasing ↔
    (∃ p ∈ d.releasing, (p.1, p.2.filter (fun s => d.house < d.relBy && d.slabsRead [s])) = q) ∧ q.2 ≠ [] := by
  simp only [slabsKept, List.mem_filter, List.mem_map, Bool.not_eq_true', List.isEmpty_eq_false_iff]

/-! The figures of a second (R174, R176, R206). -/

/-- Each class of the memory switch shows the megabytes that it moved. -/
def bwShown : Dev := forN 8 d (fun d k => d.put F.MEMSW_BW (min (sget (fun _ => 0) d.moved k / 1000000) (2 ^ 32 - 1)) 0 k)

/-- Time that an engine has worked since its count began. -/
def engWorked (t n : Nat) : Nat :=
  match sget (fun _ => none) d.engSince n with
  | some t0 => t - t0
  | none => 0

/-- An engine's share of the second, in hundredths of a percent. -/
def engShare (t n : Nat) : Nat := min 10000 ((sget (fun _ => 0) d.engBusyNs n + d.engWorked t n) / 100000)

/-- The count of an engine that works begins anew. -/
def engCounted (t n : Nat) : Dev :=
  if d.engWorked t n = 0 then d else { d with engSince := sset (fun _ => none) d.engSince n (some t) }

/-- An engine's share of the second is shown. -/
def engShown (t n : Nat) : Dev := (d.engCounted t n).put F.ENGINE_BUSY_PCT (d.engShare t n) n

/-- All counts of a second begin at 0. -/
def secondBegun : Dev := { d with moved := [], recBytes := 0, engBusyNs := [], pcErrs := [] }

/-- The figures of the memory switch and the recorder, before those of the engines. -/
def bookedShown : Dev := d.bwShown.put F.RECORDER_RATE_MB (d.bwShown.recBytes / 1000000)

theorem secondStats_eq (t : Nat) : d.secondStats t = (forN 64 d.bookedShown (fun e n => e.engShown t n)).secondBegun := rfl

theorem secondBegun_regs : d.secondBegun.regs = d.regs := rfl
theorem secondBegun_inReset : d.secondBegun.inReset = d.inReset := rfl

theorem bw_addr (k : Nat) : F.MEMSW_BW.addr 0 k 0 = 0x340080 + k * 4 := rfl
theorem busyPct_addr (n : Nat) : F.ENGINE_BUSY_PCT.addr n 0 0 = 0x300060 + n * 0x1000 := by
  simp only [Fld.addr, F.ENGINE_BUSY_PCT, pageAddr, blkBase, blkStride, blkPages]
  omega

theorem bwShown_shows : d.bwShown.aside = d.aside ∧
    (∀ k < 8, d.bwShown.word (F.MEMSW_BW.addr 0 k 0) = BitVec.ofNat 32 (min (sget (fun _ => 0) d.moved k / 1000000) (2 ^ 32 - 1))) ∧
    d.keeps d.bwShown ((List.range 8).map (F.MEMSW_BW.addr 0 · 0)) := by
  refine forN_words (fun _ e => e.aside = d.aside) _
    (fun k => BitVec.ofNat 32 (min (sget (fun _ => 0) d.moved k / 1000000) (2 ^ 32 - 1))) rfl (fun j k h => ?_) fun k _ e he => ⟨?_, fun a => ?_⟩
  · simp only [bw_addr] at h
    omega
  · rw [put_aside, he]
  · rw [word_put_wholeWord _ ⟨rfl, rfl⟩, moved_of_aside he]

/-- What the shares of the engines from `k` on stand on. -/
def sharesFrom (d : Dev) (k : Nat) (e : Dev) : Prop :=
  e.inReset = d.inReset ∧ e.engBusyNs = d.engBusyNs ∧ ∀ n, k ≤ n → sget (fun _ => none) e.engSince n = sget (fun _ => none) d.engSince n

theorem engCounted_regs (t n : Nat) : (d.engCounted t n).regs = d.regs := by
  unfold engCounted
  split <;> rfl

variable {d} in
theorem engShare_of_sharesFrom {e : Dev} {k : Nat} (h : d.sharesFrom k e) (t : Nat) : e.engShare t k = d.engShare t k := by
  obtain ⟨-, hbusy, hsince⟩ := h
  rw [engShare, engShare, engWorked, engWorked, hbusy, hsince k le_rfl]

variable {d} in
theorem sharesFrom_engShown {e : Dev} {k : Nat} (h : d.sharesFrom k e) (t : Nat) : d.sharesFrom (k + 1) (e.engShown t k) := by
  obtain ⟨hreset, hbusy, hsince⟩ := h
  rw [sharesFrom, engShown, put_inReset, put_engBusyNs, put_engSince, engCounted]
  split
  · exact ⟨hreset, hbusy, fun n hn => hsince n (by omega)⟩
  · refine ⟨hreset, hbusy, fun n hn => ?_⟩
    rw [sget_sset_ne _ _ _ (by omega : n ≠ k)]
    exact hsince n (by omega)

theorem engsShown_shows (t : Nat) :
    d.sharesFrom 64 (forN 64 d (fun e n => e.engShown t n)) ∧
    (∀ n < 64, (forN 64 d (fun e n => e.engShown t n)).word (F.ENGINE_BUSY_PCT.addr n 0 0) = BitVec.ofNat 32 (d.engShare t n)) ∧
    d.keeps (forN 64 d (fun e n => e.engShown t n)) ((List.range 64).map (F.ENGINE_BUSY_PCT.addr · 0 0)) := by
  refine forN_words (d.sharesFrom) _ (fun n => BitVec.ofNat 32 (d.engShare t n)) ⟨rfl, rfl, fun _ _ => rfl⟩ (fun j k h => ?_)
    fun k _ e he => ⟨sharesFrom_engShown he t, fun a => ?_⟩
  · simp only [busyPct_addr] at h
    omega
  · rw [engShown, word_put_wholeWord _ ⟨rfl, rfl⟩, engShare_of_sharesFrom he, word_congr (engCounted_regs _ _ _)]

/-- Words that a second shows. -/
abbrev secondWords : List Nat :=
  (List.range 8).map (F.MEMSW_BW.addr 0 · 0) ++ [F.RECORDER_RATE_MB.addr 0 0 0] ++ (List.range 64).map (F.ENGINE_BUSY_PCT.addr · 0 0)

theorem bookedShown_aside : d.bookedShown.aside = d.aside := by
  obtain ⟨haside, -⟩ := d.bwShown_shows
  rw [bookedShown, put_aside, haside]

theorem secondStats_keeps (t : Nat) : d.keeps (d.secondStats t) secondWords := by
  obtain ⟨-, -, hbw⟩ := d.bwShown_shows
  obtain ⟨-, -, hengs⟩ := d.bookedShown.engsShown_shows t
  have hput : d.bwShown.keeps d.bookedShown secondWords := keeps_put _ _ (by simp)
  rw [secondStats_eq]
  exact keeps_trans (keeps_mono hbw (by simp)) (keeps_trans hput (keeps_trans (keeps_mono hengs (by simp))
    (keeps_of_regs (secondBegun_regs _))))

/-- The figures of the engines leave every other word. -/
theorem word_secondStats (t : Nat) {a : Nat} (ha : a ∉ (List.range 64).map (F.ENGINE_BUSY_PCT.addr · 0 0)) :
    (d.secondStats t).word a = d.bookedShown.word a := by
  obtain ⟨-, -, hengs⟩ := d.bookedShown.engsShown_shows t
  rw [secondStats_eq, word_congr (secondBegun_regs _), hengs a ha]

theorem get_secondStats_bw (t : Nat) {k : Nat} (hk : k < 8) :
    (d.secondStats t).get F.MEMSW_BW 0 k = min (sget (fun _ => 0) d.moved k / 1000000) 0xFFFFFFFF := by
  obtain ⟨-, hbw, -⟩ := d.bwShown_shows
  have hengs : F.MEMSW_BW.addr 0 k 0 ∉ (List.range 64).map (F.ENGINE_BUSY_PCT.addr · 0 0) := by
    simp only [List.mem_map, List.mem_range, busyPct_addr, bw_addr]
    omega
  have hrate : F.MEMSW_BW.addr 0 k 0 ≠ F.RECORDER_RATE_MB.addr 0 0 0 := by
    rw [bw_addr, show F.RECORDER_RATE_MB.addr 0 0 0 = 0x34306C from rfl]
    omega
  rw [get_wholeWord _ ⟨rfl, rfl⟩, word_secondStats _ _ hengs, bookedShown, word_put_ne _ _ _ _ _ _ hrate, hbw k hk, BitVec.toNat_ofNat]
  omega

theorem get_secondStats_rate (t : Nat) : (d.secondStats t).get F.RECORDER_RATE_MB = d.recBytes / 1000000 % 2 ^ 32 := by
  obtain ⟨haside, -⟩ := d.bwShown_shows
  have hengs : F.RECORDER_RATE_MB.addr 0 0 0 ∉ (List.range 64).map (F.ENGINE_BUSY_PCT.addr · 0 0) := by
    rw [show F.RECORDER_RATE_MB.addr 0 0 0 = 0x34306C from rfl]
    simp only [List.mem_map, List.mem_range, busyPct_addr]
    omega
  rw [get_congr _ _ _ _ (d.word_secondStats t hengs), bookedShown, get_put_self _ _ _ _ _ _ (by decide), recBytes_of_aside haside]
  rfl

theorem get_secondStats_busy (t : Nat) {n : Nat} (hn : n < 64) (hidle : sget (fun _ => none) d.engSince n = none) :
    (d.secondStats t).get F.ENGINE_BUSY_PCT n = min 10000 (sget (fun _ => 0) d.engBusyNs n / 100000) := by
  obtain ⟨-, hengs, -⟩ := d.bookedShown.engsShown_shows t
  have haside := d.bookedShown_aside
  have hworked : d.bookedShown.engWorked t n = 0 := by rw [engWorked, engSince_of_aside haside, hidle]
  have hshare : d.bookedShown.engShare t n = min 10000 (sget (fun _ => 0) d.engBusyNs n / 100000) := by
    rw [engShare, hworked, engBusyNs_of_aside haside, Nat.add_zero]
  rw [get_wholeWord _ ⟨rfl, rfl⟩, secondStats_eq, word_congr (secondBegun_regs _), hengs n hn, hshare, BitVec.toNat_ofNat]
  omega

theorem secondStats_inReset (t : Nat) : (d.secondStats t).inReset = d.inReset := by
  obtain ⟨⟨hreset, -⟩, -⟩ := d.bookedShown.engsShown_shows t
  rw [secondStats_eq, secondBegun_inReset, hreset, inReset_of_aside d.bookedShown_aside]

end
end Dev

/-! The commands. -/

section
variable {s : State} {t : Nat}

theorem answers_hostStageWrite_held (h : s.takesAt t ⟨.talon, 0, 0⟩) (hheld : s.dev.talonHeld = true) (n : BitVec 16) :
    Answers (.hostStageWrite t n) s (fun d => s.dev.keeps d [F.TALON_HOST_STAGE_SLABS.addr 0 0 0] ∧
      d.get F.TALON_HOST_STAGE_SLABS = n.toNat ∧
      d.aside = { (s.dev.atTime t).aside with talonWaits := s.dev.talonWaits ++ [.stage] }) := by
  have heq := (s.dev.atTime t).stageWrite_of_held hheld n.toNat
  refine answers_taken (g := (·.stageWrite n.toNat)) h rfl ?_ ?_
  · rw [heq, Dev.talonWaited_inReset, Dev.put_inReset]
  · rw [heq]
    refine ⟨?_, ?_, Dev.talonWaited_aside (Dev.put_aside _ _ _ _ _ _) _⟩
    · exact Dev.keeps_trans (Dev.keeps_put _ _ (List.mem_singleton.2 rfl)) (Dev.keeps_of_regs (Dev.talonWaited_regs _ _))
    · rw [Dev.get_congr _ _ _ _ (Dev.word_congr (Dev.talonWaited_regs _ _) _), Dev.get_put_self _ _ _ _ _ _ (by decide)]
      exact Nat.mod_eq_of_lt n.isLt

theorem answers_hostStageWrite_met (h : s.takesAt t ⟨.talon, 0, 0⟩) (hopen : s.dev.talonHeld = false) (hwhole : s.dev.mapsWhole)
    (n : BitVec 16) (hfree : (s.dev.lowestFree (n.toNat - (s.dev.map ownStage).length)).length = n.toNat - (s.dev.map ownStage).length) :
    Answers (.hostStageWrite t n) s (fun d =>
      s.dev.keeps d [F.TALON_HOST_STAGE_SLABS.addr 0 0 0, F.TALON_HOST_STAGE_STS_HELD.addr 0 0 0] ∧
      d.get F.TALON_HOST_STAGE_SLABS = n.toNat ∧
      d.get F.TALON_HOST_STAGE_STS_HELD = n.toNat ∧ d.get F.TALON_HOST_STAGE_STS_SHORT = 0 ∧
      d.map ownStage = s.dev.stageMap n.toNat ∧
      (∀ o, o ≠ ownStage → d.map o = s.dev.map o) ∧
      { d.aside with maps := [], mapAt := [] } = { (s.dev.atTime t).aside with maps := [], mapAt := [] }) := by
  have haside := (s.dev.atTime t).put_aside F.TALON_HOST_STAGE_SLABS n.toNat 0 0 0
  have hasked : ((s.dev.atTime t).put F.TALON_HOST_STAGE_SLABS n.toNat).get F.TALON_HOST_STAGE_SLABS = n.toNat :=
    ((s.dev.atTime t).get_put_self _ _ _ _ _ (by decide)).trans (Nat.mod_eq_of_lt n.isLt)
  have heq : (s.dev.atTime t).stageWrite n.toNat = ((s.dev.atTime t).put F.TALON_HOST_STAGE_SLABS n.toNat).stageMet n.toNat := by
    rw [(s.dev.atTime t).stageWrite_of_open hopen]
    refine Dev.stageApply_of_met _ hasked (by rw [Dev.mapsWhole, Dev.maps_of_aside haside]; exact hwhole) ?_
    rw [Dev.map_of_aside haside, Dev.lowestFree_of_aside haside]
    exact hfree
  have hmet := ((s.dev.atTime t).put F.TALON_HOST_STAGE_SLABS n.toNat).stageMet_keeps n.toNat
  refine answers_taken (g := (·.stageWrite n.toNat)) h rfl ?_ ?_
  · rw [heq, Dev.stageMet_inReset, Dev.put_inReset]
  · rw [heq]
    obtain ⟨hheld, hshort⟩ := ((s.dev.atTime t).put F.TALON_HOST_STAGE_SLABS n.toNat).get_stageMet n.isLt
    refine ⟨Dev.keeps_trans (Dev.keeps_put _ _ (by simp)) (Dev.keeps_mono hmet (by simp)),
      (Dev.get_of_keeps hmet (by decide)).trans hasked, hheld, hshort, ?_, fun o ho => ?_, Dev.stageMet_offMaps haside _⟩
    · rw [Dev.map_stageMet, if_pos rfl, Dev.stageMap_of_aside haside]
      rfl
    · rw [Dev.map_stageMet, if_neg ho, Dev.map_of_aside haside]
      rfl

theorem exec_talonSlabRelease_held (hr : s.dev.inReset = false) (hheld : s.dev.talonHeld = true) :
    exec (.talonSlabRelease t) s = .next { s with dev := { s.dev.atTime t with talonWaits := s.dev.talonWaits ++ [.release] } } :=
  exec_of_onDev (f := fun d => (d.atTime t).slabRelease) rfl hr (if_pos hheld) hr

theorem answers_talonSlabRelease (hr : s.dev.inReset = false) (hopen : s.dev.talonHeld = false) (hwhole : s.dev.mapsWhole) :
    Answers (.talonSlabRelease t) s (fun d =>
      let stays (x : Nat) : Bool := decide (max s.dev.house t < s.dev.relBy) && s.dev.slabsRead [x]
      (∀ q ∈ d.releasing, ∃ p ∈ s.dev.releasing, q = (p.1, p.2.filter stays)) ∧
      (∀ p ∈ s.dev.releasing, ∀ x ∈ p.2, stays x = true → (p.1, p.2.filter stays) ∈ d.releasing) ∧
      s.dev.keeps d [F.TALON_HOST_STAGE_STS_HELD.addr 0 0 0, pageAddr .talon 0 0 + 0x10] ∧
      { d.apart with releasing := [], oldMaps := [] } = { (s.dev.atTime t).apart with releasing := [], oldMaps := [] }) := by
  have heq : (s.dev.atTime t).slabRelease = (s.dev.atTime t).slabsKept.stageStatus :=
    (if_neg fun h => Bool.false_ne_true (hopen.symm.trans h)).trans ((s.dev.atTime t).releaseSlabs_of_whole hwhole)
  have hapart := (s.dev.atTime t).slabsKept.stageStatus_apart
  have hreleasing : (s.dev.atTime t).slabsKept.stageStatus.releasing = (s.dev.atTime t).slabsKept.releasing := Dev.rest_releasing hapart
  refine answers_at (g := (·.slabRelease)) hr rfl ?_ ?_
  · rw [heq]
    exact (Dev.inReset_of_apart hapart).trans rfl
  · rw [heq]
    refine ⟨fun q hq => ?_, fun p hp x hx hstays => ?_, ?_, ?_⟩
    · rw [hreleasing] at hq
      obtain ⟨⟨p, hp, hkept⟩, -⟩ := (Dev.mem_slabsKept _).1 hq
      exact ⟨p, hp, hkept.symm⟩
    · rw [hreleasing]
      exact (Dev.mem_slabsKept _).2 ⟨⟨p, hp, rfl⟩, List.ne_nil_of_mem (List.mem_filter.2 ⟨hx, hstays⟩)⟩
    · exact Dev.keeps_trans (Dev.keeps_of_regs rfl) (Dev.stageStatus_keeps _)
    · rw [hapart]
      rfl

theorem answers_secondStatistics (hr : s.dev.inReset = false) : Answers (.secondStatistics t) s (fun d =>
    s.dev.keeps d Dev.secondWords ∧
    (∀ k : Fin 8, d.get F.MEMSW_BW 0 k = min (sget (fun _ => 0) s.dev.moved k / 1000000) 0xFFFFFFFF) ∧
    d.get F.RECORDER_RATE_MB = s.dev.recBytes / 1000000 % 2 ^ 32 ∧
    (∀ n : Fin 64, sget (fun _ => none) s.dev.engSince n = none →
      d.get F.ENGINE_BUSY_PCT n = min 10000 (sget (fun _ => 0) s.dev.engBusyNs n / 100000)) ∧
    d.moved = [] ∧ d.recBytes = 0 ∧ d.engBusyNs = [] ∧ d.pcErrs = []) :=
  answers_at (g := (·.secondStats t)) hr rfl (Dev.secondStats_inReset _ t)
    ⟨(s.dev.atTime t).secondStats_keeps t, fun k => (s.dev.atTime t).get_secondStats_bw t k.isLt, (s.dev.atTime t).get_secondStats_rate t,
      fun n hidle => (s.dev.atTime t).get_secondStats_busy t n.isLt hidle, rfl, rfl, rfl, rfl⟩

end
/-- Slabs change hands, and seconds end, as the spec gives. -/
theorem slabsChangeHandsAndSecondsEnd_holds : slabsChangeHandsAndSecondsEnd := fun _ _ hr =>
  ⟨fun n h => ⟨fun hheld => answers_hostStageWrite_held h hheld n,
      fun hopen hwhole hfree => answers_hostStageWrite_met h hopen hwhole n hfree⟩,
    exec_talonSlabRelease_held hr, answers_talonSlabRelease hr, answers_secondStatistics hr⟩

end Sys2Proof.Machine

open Sys2Proof Sys2Proof.Machine

/-- Settles O25, by what each command of the memory switch and the talon shows and leaves of the register words. -/
theorem theFrameStoreAndItsSlabs : Obligations.TheFrameStoreAndItsSlabs :=
  ⟨pseudoChannelsAndScrubbing_holds, slabsChangeHandsAndSecondsEnd_holds⟩
end

section
/-! PROOF. The recorder's hold and its keyframes (R168, R172, R176): the hidden state of the recorded heads, and what HOLD and HELD
show. -/
namespace Sys2Proof.Machine

/-- A field put back as it stands leaves its word. -/
theorem putBits_bitsOf (v lo w : Nat) : putBits v lo w (bitsOf v lo w) = v := by
  have hfield : bitsOf v lo w * 2 ^ lo ≤ v :=
    (Nat.mul_le_mul_right _ (Nat.mod_le _ _)).trans (Nat.div_mul_le_self _ _)
  rw [putBits, Nat.mod_eq_of_lt (bitsOf_lt v lo w), Nat.sub_add_cancel hfield]

namespace Dev

section
variable (d : Dev)

theorem word_put_get (g : Fld) (i k j a : Nat) : (d.put g (d.get g i k j) i k j).word a = d.word a := by
  by_cases ha : a = g.addr i k j
  · rw [ha, put, putAt, word_setWord_self, get, bitsAt, putBits_bitsOf]
    exact BitVec.eq_of_toNat_eq (by rw [BitVec.toNat_ofNat, Nat.mod_eq_of_lt (BitVec.isLt _)])
  · exact d.word_put_ne _ _ _ _ _ ha

theorem get_putB_self {g : Fld} (hg : g.lo + g.w ≤ 32 ∧ g.w = 1) (x : Bool) : (d.putB g x).get g = x.toNat := by
  rw [putB, get_put_self _ _ _ _ _ _ hg.1, hg.2]
  cases x <;> rfl

theorem flag_putB_self {g : Fld} (hg : g.lo + g.w ≤ 32 ∧ g.w = 1) (x : Bool) : (d.putB g x).flag g = x := by
  rw [flag, get_putB_self _ hg]
  cases x <;> rfl

/-- A one-bit field is what its flag says. -/
theorem get_of_flag {g : Fld} (hg : g.w = 1) : d.get g = (d.flag g).toNat := by
  have hlt : d.get g < 2 ^ g.w := d.get_lt g 0
  rw [hg] at hlt
  rcases (by omega : d.get g = 0 ∨ d.get g = 1) with h | h <;> rw [flag, h] <;> rfl

theorem word_putB_flag {g : Fld} (hg : g.w = 1) (a : Nat) : (d.putB g (d.flag g)).word a = d.word a := by
  have hbit : (if d.flag g then 1 else 0) = d.get g := by
    rw [get_of_flag _ hg]
    cases d.flag g <;> rfl
  rw [putB, hbit]
  exact d.word_put_get g 0 0 0 a

theorem act_of_keeps {d e : Dev} {as : List Nat} (h : d.keeps e as) {g : Fld} {i k j : Nat} (hg : g.addr i k j - 0x400 ∉ as) :
    e.act g i k j = d.act g i k j := by
  rw [act, act, bitsAt, bitsAt, h _ hg]

/-! The recorded heads. -/

/-- The device without the hidden state of the recorded heads. -/
def offRec : Dev := { d with recHeads := [] }

theorem recHead_setRecHead (h k : Nat) (r : RecHead) : (d.setRecHead h r).recHead k = if k = h then r else d.recHead k :=
  sget_sset _ _ _ _ _

theorem offRec_setRecHead (h : Nat) (r : RecHead) : (d.setRecHead h r).offRec = d.offRec := rfl

theorem recHead_congr {d e : Dev} (h : e.recHeads = d.recHeads) (k : Nat) : e.recHead k = d.recHead k := by
  rw [recHead, recHead, h]

/-- Updates of the heads in turn, each of its own state, reach each head once. -/
theorem recHead_forN {d : Dev} {f : Dev → Nat → Dev} (u : Nat → RecHead → RecHead)
    (hstep : ∀ e h, e.offRec = d.offRec → (f e h).offRec = d.offRec ∧
      ∀ k, (f e h).recHead k = if k = h then u h (e.recHead h) else e.recHead k) (n : Nat) :
    (forN n d f).offRec = d.offRec ∧ ∀ k, (forN n d f).recHead k = if k < n then u k (d.recHead k) else d.recHead k := by
  induction n with
  | zero => exact ⟨rfl, fun k => (if_neg (Nat.not_lt_zero k)).symm⟩
  | succ n ih =>
    obtain ⟨hoff, hheads⟩ := ih
    obtain ⟨hnext, hhead⟩ := hstep _ n hoff
    have hlast : forN (n + 1) d f = f (forN n d f) n := by rw [forN, List.range_succ, List.foldl_concat, forN]
    rw [hlast]
    refine ⟨hnext, fun k => ?_⟩
    rw [hhead, hheads, hheads]
    rcases lt_trichotomy k n with hk | rfl | hk
    · rw [if_neg hk.ne, if_pos hk, if_pos (by omega)]
    · rw [if_pos rfl, if_neg (lt_irrefl k), if_pos (by omega)]
    · rw [if_neg hk.ne', if_neg (by omega), if_neg (by omega)]

/-- Every head's next entry is a keyframe (R168). -/
theorem recNeedKeys_shows : d.recNeedKeys.offRec = d.offRec ∧
    ∀ h < 64, d.recNeedKeys.recHead h = { d.recHead h with needKey := true } := by
  obtain ⟨hoff, hheads⟩ := recHead_forN (d := d) (f := fun d h => d.setRecHead h { d.recHead h with needKey := true })
    (fun _ r => { r with needKey := true })
    (fun e h he => ⟨(e.offRec_setRecHead h _).trans he, fun k => e.recHead_setRecHead h k _⟩) 64
  exact ⟨hoff, fun h hh => (hheads h).trans (if_pos hh)⟩

/-- A head that is being captured, a frame to be recorded (R172). -/
def captured (h : Nat) : Bool :=
  (d.headSt h).viewed && (d.headSt h).shown && (d.headSt h).composed && d.recWants h ((d.headSt h).frame % 2 ^ 32)

theorem captured_of_offRec {d e : Dev} (h : e.offRec = d.offRec) (k : Nat) : e.captured k = d.captured k := by
  have hcap : e.offRec.captured k = d.offRec.captured k := by rw [h]
  exact hcap

/-- When HOLD is set, the heads being captured have begun their entries. -/
theorem recBegin_shows : d.recBegin.offRec = d.offRec ∧
    ∀ h < 64, (d.recBegin.recHead h).begun = ((d.recHead h).begun || d.captured h) := by
  obtain ⟨hoff, hheads⟩ := recHead_forN (d := d)
    (f := fun d h => if d.captured h then d.setRecHead h { d.recHead h with begun := true } else d)
    (fun h r => if d.captured h then { r with begun := true } else r)
    (fun e h he => by
      rw [captured_of_offRec he]
      split
      · exact ⟨(e.offRec_setRecHead h _).trans he, fun k => e.recHead_setRecHead h k _⟩
      · refine ⟨he, fun k => ?_⟩
        split
        · next hk => rw [hk]
        · rfl) 64
  refine ⟨hoff, fun h hh => (congrArg RecHead.begun ((hheads h).trans (if_pos hh))).trans ?_⟩
  cases d.captured h <;> simp

/-! What is recorded, under a change of HOLD. -/

/-- Words that decide what the recorder records: its enable and the active copies of its settings. -/
abbrev recWords : List Nat := [F.RECORDER_CFG_EN.addr 0 0 0 - 0x400, F.RECORDER_RING_SLABS_SLABS.addr 0 0 0 - 0x400,
  F.RECORDER_HEAD_MASK_LO.addr 0 0 0 - 0x400, F.RECORDER_HEAD_MASK_HI.addr 0 0 0 - 0x400, fenceKey .recorder 0 0 + 0x08]

theorem enabled_recorder : d.enabled .recorder 0 = (d.en .recorder 0 && !d.fenced .recorder 0 && !d.waking .recorder 0) :=
  Bool.and_true _

variable {d} in
theorem recWants_of_keeps {e : Dev} (haside : e.aside = d.aside) {as : List Nat} (h : d.keeps e as) (has : ∀ a ∈ recWords, a ∉ as)
    (n frame : Nat) : e.recWants n frame = d.recWants n frame := by
  have hen : e.en .recorder 0 = d.en .recorder 0 := by rw [en, en, bitsAt, bitsAt, h _ (has _ (by simp))]
  have hwaking : e.waking .recorder 0 = d.waking .recorder 0 := by rw [waking, waking, doms_of_aside haside]
  have hfenced : e.fenced .recorder 0 = d.fenced .recorder 0 := by rw [fenced, fenced, recs_congr (fences_of_aside haside)]
  have hcfg : e.act F.RECORDER_CFG_EN = d.act F.RECORDER_CFG_EN := act_of_keeps h (has _ (by simp))
  have hdiv : e.act F.RECORDER_CFG_DIV = d.act F.RECORDER_CFG_DIV := act_of_keeps h (has (F.RECORDER_CFG_EN.addr 0 0 0 - 0x400) (by simp))
  have hslabs : e.act F.RECORDER_RING_SLABS_SLABS = d.act F.RECORDER_RING_SLABS_SLABS := act_of_keeps h (has _ (by simp))
  have hlo : e.act F.RECORDER_HEAD_MASK_LO = d.act F.RECORDER_HEAD_MASK_LO := act_of_keeps h (has _ (by simp))
  have hhi : e.act F.RECORDER_HEAD_MASK_HI = d.act F.RECORDER_HEAD_MASK_HI := act_of_keeps h (has _ (by simp))
  rw [recWants, recWants, enabled_recorder, enabled_recorder, hen, hwaking, hfenced, actFlag, actFlag, recSize, recSize, hcfg, hdiv, hslabs, hlo, hhi]

/-- HOLD as written. -/
def holdPut (hold : Bool) : Dev := d.putB F.RECORDER_CTL_HOLD hold

theorem holdPut_keeps (hold : Bool) : d.keeps (d.holdPut hold) [F.RECORDER_CTL_HOLD.addr 0 0 0] :=
  d.keeps_put _ (List.mem_singleton.2 rfl)

theorem holdPut_aside (hold : Bool) : (d.holdPut hold).aside = d.aside := putB_aside _ _ _ _ _

theorem captured_holdPut (hold : Bool) (h : Nat) : (d.holdPut hold).captured h = d.captured h := by
  have haside := d.holdPut_aside hold
  have hhead : (d.holdPut hold).headSt h = d.headSt h := by rw [headSt, headSt, holdPut, putB_heads]
  rw [captured, captured, hhead, recWants_of_keeps haside (d.holdPut_keeps hold) (by decide)]

/-! HELD (R172, R176). -/

/-- No entry has begun. -/
def entriesDone : Bool := (List.range 64).all (fun h => !(d.recHead h).begun)

theorem entriesDone_iff : d.entriesDone = true ↔ ∀ h < 64, (d.recHead h).begun = false := by
  simp [entriesDone]

/-- HELD as shown. -/
def heldPut (held : Bool) : Dev := d.putB F.RECORDER_STS_HELD held

theorem recHeld_of_open (h : (d.flag F.RECORDER_CTL_HOLD && d.entriesDone) = false) : d.recHeld = d.heldPut false := by
  have heq : d.recHeld = (if ((d.flag F.RECORDER_CTL_HOLD && d.entriesDone) && !d.flag F.RECORDER_STS_HELD) = true then
      (d.heldPut (d.flag F.RECORDER_CTL_HOLD && d.entriesDone)).irq .recorder 0 0 2
      else d.heldPut (d.flag F.RECORDER_CTL_HOLD && d.entriesDone)) := rfl
  rw [heq, h]
  exact if_neg Bool.false_ne_true

theorem recHeld_of_held (h : (d.flag F.RECORDER_CTL_HOLD && d.entriesDone) = true) :
    d.recHeld = if d.flag F.RECORDER_STS_HELD then d.heldPut true else (d.heldPut true).irq .recorder 0 0 2 := by
  have heq : d.recHeld = (if ((d.flag F.RECORDER_CTL_HOLD && d.entriesDone) && !d.flag F.RECORDER_STS_HELD) = true then
      (d.heldPut (d.flag F.RECORDER_CTL_HOLD && d.entriesDone)).irq .recorder 0 0 2
      else d.heldPut (d.flag F.RECORDER_CTL_HOLD && d.entriesDone)) := rfl
  rw [heq, h]
  cases d.flag F.RECORDER_STS_HELD <;> rfl

/-- What HELD shows leaves every other word, and all but the words. -/
theorem heldPut_keeps (held : Bool) : d.keeps (d.heldPut held) [F.RECORDER_STS_HELD.addr 0 0 0] :=
  d.keeps_put _ (List.mem_singleton.2 rfl)

theorem get_heldPut (held : Bool) : (d.heldPut held).get F.RECORDER_STS_HELD = held.toNat := d.get_putB_self (by decide) held

theorem recHeads_heldPut (held : Bool) : (d.heldPut held).recHeads = d.recHeads := putB_recHeads d _ _ _ _

theorem recHeld_keeps : d.keeps d.recHeld [F.RECORDER_STS_HELD.addr 0 0 0, pageAddr .recorder 0 0 + 0x10] := by
  have hput (held : Bool) : d.keeps (d.heldPut held) [F.RECORDER_STS_HELD.addr 0 0 0, pageAddr .recorder 0 0 + 0x10] :=
    keeps_mono (d.heldPut_keeps held) (by simp)
  cases h : d.flag F.RECORDER_CTL_HOLD && d.entriesDone with
  | false => rw [recHeld_of_open _ h]; exact hput false
  | true =>
    rw [recHeld_of_held _ h]
    split
    · exact hput true
    · exact keeps_trans (hput true) (keeps_irq _ _ (by simp))

theorem recHeld_apart : d.recHeld.apart = d.apart := by
  have hput (held : Bool) : (d.heldPut held).apart = d.apart := putB_apart _ _ _ _ _
  cases h : d.flag F.RECORDER_CTL_HOLD && d.entriesDone with
  | false => rw [recHeld_of_open _ h, hput]
  | true =>
    rw [recHeld_of_held _ h]
    split
    · exact hput true
    · rw [irq_apart, hput]

/-! A write of HOLD (R172). -/

/-- RECORDER_HOLD_WRITE on the device. -/
def holdWrite (hold : Bool) : Dev :=
  if hold && !d.flag F.RECORDER_CTL_HOLD then (d.holdPut hold).recBegin.recHeld
  else if !hold && d.flag F.RECORDER_CTL_HOLD then (d.holdPut hold).recNeedKeys.recHeld
  else d.holdPut hold

/-- What every write of HOLD shows and leaves. -/
def holdShown (d e : Dev) (hold : Bool) : Prop :=
  e.get F.RECORDER_CTL_HOLD = hold.toNat ∧
    d.keeps e [F.RECORDER_CTL_HOLD.addr 0 0 0, F.RECORDER_STS_HELD.addr 0 0 0, pageAddr .recorder 0 0 + 0x10] ∧
    { e.apart with recHeads := [] } = { d.apart with recHeads := [] }

variable {d} in
theorem regs_of_offRec {e : Dev} (h : e.offRec = d.offRec) : e.regs = d.regs := (congrArg regs h :)

variable {d} in
theorem inReset_of_offRec {e : Dev} (h : e.offRec = d.offRec) : e.inReset = d.inReset := (congrArg inReset h :)

variable {d} in
theorem apart_of_offRec {e : Dev} (h : e.offRec = d.offRec) :
    ({ e.apart with recHeads := [] } : Dev) = { d.apart with recHeads := [] } := (congrArg apart h :)

/-- HOLD stands through what follows its write. -/
theorem holdShown_recHeld {e : Dev} {hold : Bool} (he : e.offRec = (d.holdPut hold).offRec) : d.holdShown e.recHeld hold := by
  have hregs : (d.holdPut hold).keeps e [] := keeps_of_regs (regs_of_offRec he)
  refine ⟨?_, ?_, ?_⟩
  · rw [get_of_keeps e.recHeld_keeps (by decide), get_of_keeps hregs List.not_mem_nil]
    exact d.get_putB_self (by decide) hold
  · exact keeps_trans (keeps_mono (d.holdPut_keeps hold) (by simp))
      (keeps_trans (keeps_mono hregs (by simp)) (keeps_mono e.recHeld_keeps (by simp)))
  · rw [recHeld_apart, apart_of_offRec he]
    exact congrArg (fun d : Dev => { d with recHeads := [] }) (putB_apart _ _ _ _ _)

theorem holdWrite_rise (h : d.flag F.RECORDER_CTL_HOLD = false) : d.holdWrite true = (d.holdPut true).recBegin.recHeld :=
  if_pos (by rw [h]; rfl)

theorem holdWrite_fall (h : d.flag F.RECORDER_CTL_HOLD = true) : d.holdWrite false = (d.holdPut false).recNeedKeys.recHeld := by
  rw [holdWrite, h]
  rfl

theorem holdWrite_same : d.holdWrite (d.flag F.RECORDER_CTL_HOLD) = d.holdPut (d.flag F.RECORDER_CTL_HOLD) := by
  rw [holdWrite]
  cases d.flag F.RECORDER_CTL_HOLD <;> rfl

/-- A write that leaves HOLD changes no word. -/
theorem holdWrite_same_shows : d.holdShown (d.holdWrite (d.flag F.RECORDER_CTL_HOLD)) (d.flag F.RECORDER_CTL_HOLD) ∧
    d.keeps (d.holdWrite (d.flag F.RECORDER_CTL_HOLD)) [] ∧
    (d.holdWrite (d.flag F.RECORDER_CTL_HOLD)).recHeads = d.recHeads := by
  have hkept : d.keeps (d.holdPut (d.flag F.RECORDER_CTL_HOLD)) [] := fun a _ => d.word_putB_flag (by decide) a
  rw [holdWrite_same]
  exact ⟨⟨d.get_putB_self (by decide) _, keeps_mono hkept (List.nil_subset _),
    congrArg (fun d : Dev => { d with recHeads := [] }) (putB_apart _ _ _ _ _)⟩, hkept, putB_recHeads d _ _ _ _⟩

/-- Every head's next entry is a keyframe, and what it last recorded stands. -/
def keysDue (d e : Dev) : Prop := ∀ h : Fin 64, (e.recHead h).needKey = true ∧ (e.recHead h).prev = (d.recHead h).prev ∧
  (e.recHead h).crcs = (d.recHead h).crcs

theorem recNeedKeys_keysDue : d.keysDue d.recNeedKeys := by
  obtain ⟨-, hheads⟩ := d.recNeedKeys_shows
  intro h
  rw [hheads h h.isLt]
  exact ⟨rfl, rfl, rfl⟩

/-- When HOLD falls HELD reads 0, and every head's next entry is a keyframe. -/
theorem holdWrite_fall_shows (h : d.flag F.RECORDER_CTL_HOLD = true) : d.holdShown (d.holdWrite false) false ∧
    d.keysDue (d.holdWrite false) ∧ (d.holdWrite false).get F.RECORDER_STS_HELD = 0 ∧
    (d.holdWrite false).word (pageAddr .recorder 0 0 + 0x10) = d.word (pageAddr .recorder 0 0 + 0x10) := by
  obtain ⟨hoff, -⟩ := (d.holdPut false).recNeedKeys_shows
  have hflag : (d.holdPut false).recNeedKeys.flag F.RECORDER_CTL_HOLD = false := by
    rw [flag, get_congr _ _ _ _ (word_congr (regs_of_offRec hoff) _)]
    exact d.flag_putB_self (by decide) false
  have hshown : d.holdShown (d.holdPut false).recNeedKeys.recHeld false := d.holdShown_recHeld hoff
  have hopen : (d.holdPut false).recNeedKeys.recHeld = (d.holdPut false).recNeedKeys.heldPut false :=
    recHeld_of_open _ (by rw [hflag, Bool.false_and])
  rw [holdWrite_fall _ h]
  refine ⟨hshown, fun k => ?_, ?_, ?_⟩
  · have hkeys := (d.holdPut false).recNeedKeys_keysDue k
    have hput : (d.holdPut false).recHeads = d.recHeads := putB_recHeads d _ _ _ _
    rw [recHead_congr hput] at hkeys
    rw [hopen, recHead_congr (recHeads_heldPut _ _)]
    exact hkeys
  · rw [hopen]
    exact get_heldPut _ false
  · rw [hopen, heldPut_keeps _ _ _ (by decide), word_congr (regs_of_offRec hoff), holdPut_keeps _ _ _ (by decide)]

/-- A head has begun an entry once HOLD rises: it had before, or it is being captured. -/
def entryBegins (h : Nat) : Bool := (d.recHead h).begun || d.captured h

/-- When HOLD rises, the heads being captured have begun their entries. -/
theorem begun_rise {h : Nat} (hh : h < 64) : ((d.holdPut true).recBegin.recHead h).begun = d.entryBegins h := by
  obtain ⟨-, hbegun⟩ := (d.holdPut true).recBegin_shows
  have hput : (d.holdPut true).recHeads = d.recHeads := putB_recHeads d _ _ _ _
  rw [hbegun h hh, recHead_congr hput, captured_holdPut, entryBegins]

/-- HOLD has risen, and the heads being captured have begun their entries. -/
theorem flag_rise : (d.holdPut true).recBegin.flag F.RECORDER_CTL_HOLD = true := by
  obtain ⟨hoff, -⟩ := (d.holdPut true).recBegin_shows
  rw [flag, get_congr _ _ _ _ (word_congr (regs_of_offRec hoff) _)]
  exact d.flag_putB_self (by decide) true

theorem word_rise {a : Nat} (ha : a ≠ F.RECORDER_CTL_HOLD.addr 0 0 0) : (d.holdPut true).recBegin.word a = d.word a := by
  obtain ⟨hoff, -⟩ := (d.holdPut true).recBegin_shows
  rw [word_congr (regs_of_offRec hoff), holdPut_keeps _ _ _ (mt List.mem_singleton.1 ha)]

/-- While an entry is begun HELD reads 0. -/
theorem recHeld_rise_begun (h : ∃ k : Fin 64, d.entryBegins k = true) :
    (d.holdPut true).recBegin.recHeld = (d.holdPut true).recBegin.heldPut false := by
  obtain ⟨k, hk⟩ := h
  refine recHeld_of_open _ ?_
  rw [flag_rise, Bool.true_and, Bool.eq_false_iff, Ne, entriesDone_iff]
  intro hdone
  exact Bool.false_ne_true ((hdone k k.isLt).symm.trans ((d.begun_rise k.isLt).trans hk))

/-- With no entry begun HELD reads 1, and its rise is an event. -/
theorem recHeld_rise_done (h : ∀ k : Fin 64, d.entryBegins k = false) : (d.holdPut true).recBegin.recHeld =
    if d.flag F.RECORDER_STS_HELD then (d.holdPut true).recBegin.heldPut true
    else ((d.holdPut true).recBegin.heldPut true).irq .recorder 0 0 2 := by
  have hdone : (d.holdPut true).recBegin.entriesDone = true :=
    (entriesDone_iff _).2 fun k hk => (d.begun_rise hk).trans (h ⟨k, hk⟩)
  have hheld : (d.holdPut true).recBegin.flag F.RECORDER_STS_HELD = d.flag F.RECORDER_STS_HELD := by
    rw [flag, flag, get_congr _ _ _ _ (d.word_rise (by decide))]
  rw [recHeld_of_held _ (by rw [flag_rise, hdone]; rfl), hheld]

theorem holdWrite_rise_shows (h : d.flag F.RECORDER_CTL_HOLD = false) : d.holdShown (d.holdWrite true) true ∧
    (∀ k : Fin 64, ((d.holdWrite true).recHead k).begun = d.entryBegins k) ∧
    ((∃ k : Fin 64, d.entryBegins k = true) → (d.holdWrite true).get F.RECORDER_STS_HELD = 0 ∧
      (d.holdWrite true).word (pageAddr .recorder 0 0 + 0x10) = d.word (pageAddr .recorder 0 0 + 0x10)) ∧
    ((∀ k : Fin 64, d.entryBegins k = false) → (d.holdWrite true).get F.RECORDER_STS_HELD = 1 ∧
      (d.holdWrite true).word (pageAddr .recorder 0 0 + 0x10) =
        d.word (pageAddr .recorder 0 0 + 0x10) ||| (if d.get F.RECORDER_STS_HELD = 0 then 4 else 0)) := by
  obtain ⟨hoff, -⟩ := (d.holdPut true).recBegin_shows
  have hheads : (d.holdPut true).recBegin.recHeld.recHeads = (d.holdPut true).recBegin.recHeads := rest_recHeads (recHeld_apart _)
  have hirq : ((d.holdPut true).recBegin.heldPut true).word (pageAddr .recorder 0 0 + 0x10) = d.word (pageAddr .recorder 0 0 + 0x10) := by
    rw [heldPut_keeps _ _ _ (by decide), word_rise _ (by decide)]
  rw [holdWrite_rise _ h]
  refine ⟨d.holdShown_recHeld hoff, fun k => ?_, fun hbegun => ?_, fun hdone => ?_⟩
  · rw [recHead_congr hheads, begun_rise _ k.isLt]
  · rw [recHeld_rise_begun _ hbegun, heldPut_keeps _ _ _ (by decide), word_rise _ (by decide)]
    exact ⟨get_heldPut _ false, rfl⟩
  · rw [recHeld_rise_done _ hdone, get_of_flag d (g := F.RECORDER_STS_HELD) rfl]
    cases hwas : d.flag F.RECORDER_STS_HELD with
    | true =>
      refine ⟨get_heldPut _ true, hirq.trans ?_⟩
      simp
    | false =>
      refine ⟨(get_irq_ne _ _ _ _ _ _ _ _ _ (by decide)).trans (get_heldPut _ true), ?_⟩
      rw [if_neg Bool.false_ne_true, word_irq_self _ _ _ _ (by decide), hirq]
      rfl

theorem holdWrite_shown (hold : Bool) : d.holdShown (d.holdWrite hold) hold := by
  by_cases hsame : hold = d.flag F.RECORDER_CTL_HOLD
  · rw [hsame]
    exact d.holdWrite_same_shows.1
  · cases hold with
    | true => exact (d.holdWrite_rise_shows (Bool.of_not_eq_true (Ne.symm hsame))).1
    | false => exact (d.holdWrite_fall_shows (Bool.of_not_eq_false (Ne.symm hsame))).1

theorem holdShown_inReset {e : Dev} {hold : Bool} (h : d.holdShown e hold) : e.inReset = d.inReset := by
  obtain ⟨-, -, hrest⟩ := h
  exact (congrArg inReset hrest :)

end
end Dev

section
variable {s : State} {t : Nat}

theorem answers_recorderHoldWrite (h : s.takesAt t ⟨.recorder, 0, 0⟩) (hold : Bool) {P : Dev → Prop}
    (hP : P ((s.dev.atTime t).holdWrite hold)) : Answers (.recorderHoldWrite t hold) s P :=
  answers_taken (g := (·.holdWrite hold)) h rfl (Dev.holdShown_inReset _ (Dev.holdWrite_shown _ hold)) hP

theorem answers_recorderForceKey (h : s.takesAt t ⟨.recorder, 0, 0⟩) : Answers (.recorderForceKey t) s (fun d =>
    s.dev.keysDue d ∧ d.regs = s.dev.regs ∧ { d with recHeads := [] } = { s.dev.atTime t with recHeads := [] }) := by
  obtain ⟨hoff, -⟩ := (s.dev.atTime t).recNeedKeys_shows
  exact answers_taken (g := (·.recNeedKeys)) h rfl (Dev.inReset_of_offRec hoff)
    ⟨(s.dev.atTime t).recNeedKeys_keysDue, (Dev.regs_of_offRec hoff).trans rfl, hoff⟩

end

/-- HOLD stays, falls or rises, and a forced keyframe changes no word, as the spec gives. -/
theorem recorderHoldAndKeyframes_holds : recorderHoldAndKeyframes := by
  intro s t h
  refine ⟨fun hold => answers_recorderHoldWrite h hold ?_, answers_recorderForceKey h⟩
  obtain ⟨hget, hkept, hrest⟩ := (s.dev.atTime t).holdWrite_shown hold
  refine ⟨hget, hkept, hrest, ?_, ?_, ?_⟩
  · rintro rfl
    obtain ⟨-, hwords, hheads⟩ := (s.dev.atTime t).holdWrite_same_shows
    exact ⟨hwords, hheads⟩
  · rintro rfl hheld
    obtain ⟨-, hfell⟩ := (s.dev.atTime t).holdWrite_fall_shows hheld
    exact hfell
  · rintro rfl hheld
    obtain ⟨-, hrose⟩ := (s.dev.atTime t).holdWrite_rise_shows hheld
    exact hrose

end Sys2Proof.Machine
end

section
/-! PROOF. The window on the coefficient sets of an engine's group (R192, R206). -/
namespace Sys2Proof.Machine
namespace Dev

section
variable (d : Dev) (n : Nat)

theorem coefIdx_addr : F.ENGINE_COEF_IDX_WORD.addr n 0 0 = pageAddr .engine n 0 + 0x70 := by
  simp only [Fld.addr, F.ENGINE_COEF_IDX_WORD, Nat.zero_mul, Nat.add_zero]
theorem coefSts_addr : F.ENGINE_COEF_STS_REFUSED.addr n 0 0 = pageAddr .engine n 0 + 0x78 := by
  simp only [Fld.addr, F.ENGINE_COEF_STS_REFUSED, Nat.zero_mul, Nat.add_zero]

/-- The index advances, and wraps at 4,096. -/
theorem get_coefNext : (d.coefNext n).get F.ENGINE_COEF_IDX_WORD n = (d.get F.ENGINE_COEF_IDX_WORD n + 1) % 4096 := by
  rw [coefNext, get_put_self _ _ _ _ _ _ (by decide)]
  exact Nat.mod_mod _ _

theorem coefNext_keeps : d.keeps (d.coefNext n) [F.ENGINE_COEF_IDX_WORD.addr n 0 0] := d.keeps_put _ (List.mem_singleton.2 rfl)

theorem coefNext_aside : (d.coefNext n).aside = d.aside := put_aside _ _ _ _ _ _

/-! A word read. -/

/-- The word at COEF_IDX of the engine's group. -/
def coefAt : Word := sget (fun _ => 0) d.coefs (n / 8 * 4096 + d.get F.ENGINE_COEF_IDX_WORD n)

/-- An access is answered by a word. -/
def answered (v : Word) : Dev := { d with resp := some (.data v) }

theorem coefRead_eq : d.coefRead n = (d.coefNext n).answered (d.coefAt n) := rfl

theorem answered_regs (v : Word) : (d.answered v).regs = d.regs := rfl
theorem answered_inReset (v : Word) : (d.answered v).inReset = d.inReset := rfl

variable {d} in
theorem answered_aside {e : Dev} (h : e.aside = d.aside) (v : Word) :
    ({ (e.answered v).aside with resp := none } : Dev) = { d.aside with resp := none } :=
  (congrArg (fun d : Dev => { d with resp := none }) h :)

/-! A word written. -/

/-- A write to a set in use is refused. -/
def coefRefused : Dev := (d.put F.ENGINE_COEF_STS_REFUSED 1 n).irq .engine n 0 1

/-- The word at COEF_IDX of the engine's group is stored. -/
def coefStored (v : Word) : Dev :=
  { d with coefs := sset (fun _ => 0) d.coefs (n / 8 * 4096 + d.get F.ENGINE_COEF_IDX_WORD n) v }

/-- A layer of the engine's group names the set at COEF_IDX. -/
abbrev coefUsed : Bool := (d.setsNamed (n / 8)).contains (d.get F.ENGINE_COEF_IDX_WORD n / 256)

theorem coefWrite_of_used (h : d.coefUsed n = true) (v : Word) : d.coefWrite n v = (d.coefRefused n).coefNext n := by
  rw [coefWrite, if_pos h, coefRefused]

theorem coefWrite_of_free (h : d.coefUsed n = false) (v : Word) : d.coefWrite n v = (d.coefStored n v).coefNext n := by
  rw [coefWrite, if_neg (Bool.eq_false_iff.1 h), coefStored]

theorem coefRefused_apart : (d.coefRefused n).apart = d.apart := by rw [coefRefused, irq_apart, put_apart]

theorem coefRefused_keeps : d.keeps (d.coefRefused n) [F.ENGINE_COEF_STS_REFUSED.addr n 0 0, pageAddr .engine n 0 + 0x10] :=
  keeps_trans (d.keeps_put _ (by simp)) (keeps_irq _ _ (by simp))

theorem coefRefused_shows : (d.coefRefused n).get F.ENGINE_COEF_STS_REFUSED n = 1 ∧
    (d.coefRefused n).word (pageAddr .engine n 0 + 0x10) = d.word (pageAddr .engine n 0 + 0x10) ||| 2 := by
  have hbeside : pageAddr .engine n 0 + 0x10 ≠ F.ENGINE_COEF_STS_REFUSED.addr n 0 0 := by
    rw [coefSts_addr]
    omega
  refine ⟨?_, ?_⟩
  · rw [coefRefused, get_irq_ne _ _ _ _ _ _ _ _ _ hbeside.symm]
    exact d.get_put_self _ _ _ _ _ (by decide)
  · rw [coefRefused, word_irq_self _ _ _ _ (by decide), word_put_ne _ _ _ _ _ _ hbeside]
    rfl

theorem get_coefRefused : (d.coefRefused n).get F.ENGINE_COEF_IDX_WORD n = d.get F.ENGINE_COEF_IDX_WORD n := by
  refine get_of_keeps (d.coefRefused_keeps n) ?_
  rw [coefIdx_addr, coefSts_addr]
  simp

theorem coefStored_regs (v : Word) : (d.coefStored n v).regs = d.regs := rfl

variable {d} in
theorem coefs_of_aside {e : Dev} (h : e.aside = d.aside) : e.coefs = d.coefs := (congrArg coefs h :)

/-- The word is stored at its place, and nowhere else. -/
theorem coefs_coefStored (v : Word) (k : Nat) : sget (fun _ => (0 : Word)) (d.coefStored n v).coefs k =
    if k = n / 8 * 4096 + d.get F.ENGINE_COEF_IDX_WORD n then v else sget (fun _ => 0) d.coefs k := sget_sset _ _ _ _ _

theorem coefStored_aside (v : Word) :
    ({ (d.coefStored n v).aside with coefs := [] } : Dev) = { d.aside with coefs := [] } := rfl

end
end Dev

section
variable {s : State} {t : Nat} {e : Fin 64}

theorem answers_coefDataWrite_used (h : s.takesAt t ⟨.engine, e, 0⟩) (hused : s.dev.coefUsed e = true) (v : Word) :
    Answers (.coefDataWrite t e v) s (fun d =>
      d.get F.ENGINE_COEF_IDX_WORD e = (s.dev.get F.ENGINE_COEF_IDX_WORD e + 1) % 4096 ∧
      d.get F.ENGINE_COEF_STS_REFUSED e = 1 ∧
      d.word (pageAddr .engine e 0 + 0x10) = s.dev.word (pageAddr .engine e 0 + 0x10) ||| 2 ∧
      s.dev.keeps d [F.ENGINE_COEF_IDX_WORD.addr e 0 0, F.ENGINE_COEF_STS_REFUSED.addr e 0 0, pageAddr .engine e 0 + 0x10] ∧
      s.dev.wordsAndEvents d t) := by
  have heq := (s.dev.atTime t).coefWrite_of_used e hused v
  have hnext := ((s.dev.atTime t).coefRefused e).coefNext_keeps e
  have hrefused := (s.dev.atTime t).coefRefused_keeps e
  have hidx := (s.dev.atTime t).get_coefRefused e
  obtain ⟨hsts, hirq⟩ := (s.dev.atTime t).coefRefused_shows e
  have hapart : (((s.dev.atTime t).coefRefused e).coefNext e).apart = (s.dev.atTime t).apart :=
    (Dev.put_apart _ _ _ _ _ _).trans (Dev.coefRefused_apart _ _)
  refine answers_taken (g := (·.coefWrite e v)) h rfl ?_ ?_
  · rw [heq]
    exact Dev.inReset_of_apart hapart
  · rw [heq]
    refine ⟨?_, ?_, ?_, Dev.keeps_trans (Dev.keeps_mono hrefused (by simp)) (Dev.keeps_mono hnext (by simp)), hapart⟩
    · rw [Dev.get_coefNext, hidx]
      rfl
    · rw [Dev.get_of_keeps hnext (by simp [Dev.coefIdx_addr, Dev.coefSts_addr]), hsts]
    · rw [hnext _ (by simp [Dev.coefIdx_addr]), hirq]
      rfl

theorem answers_coefDataWrite_free (h : s.takesAt t ⟨.engine, e, 0⟩) (hfree : s.dev.coefUsed e = false) (v : Word) :
    Answers (.coefDataWrite t e v) s (fun d =>
      d.get F.ENGINE_COEF_IDX_WORD e = (s.dev.get F.ENGINE_COEF_IDX_WORD e + 1) % 4096 ∧
      (∀ k, sget (fun _ => (0 : Word)) d.coefs k =
        if k = (e : Nat) / 8 * 4096 + s.dev.get F.ENGINE_COEF_IDX_WORD e then v else sget (fun _ => 0) s.dev.coefs k) ∧
      s.dev.keeps d [F.ENGINE_COEF_IDX_WORD.addr e 0 0] ∧
      { d.aside with coefs := [] } = { (s.dev.atTime t).aside with coefs := [] }) := by
  have heq := (s.dev.atTime t).coefWrite_of_free e hfree v
  have haside := ((s.dev.atTime t).coefStored e v).coefNext_aside e
  refine answers_taken (g := (·.coefWrite e v)) h rfl ?_ ?_
  · rw [heq]
    exact (Dev.inReset_of_aside haside).trans rfl
  · rw [heq]
    refine ⟨Dev.get_coefNext _ _, fun k => ?_, Dev.keeps_trans (Dev.keeps_of_regs ((s.dev.atTime t).coefStored_regs e v)) (Dev.coefNext_keeps _ _), ?_⟩
    · rw [Dev.coefs_of_aside haside, Dev.coefs_coefStored]
      rfl
    · rw [haside]
      exact Dev.coefStored_aside _ _ _

theorem answers_coefDataRead (h : s.takesAt t ⟨.engine, e, 0⟩) : Answers (.coefDataRead t e) s (fun d =>
    d.resp = some (.data (s.dev.coefAt e)) ∧ d.get F.ENGINE_COEF_IDX_WORD e = (s.dev.get F.ENGINE_COEF_IDX_WORD e + 1) % 4096 ∧
    s.dev.keeps d [F.ENGINE_COEF_IDX_WORD.addr e 0 0] ∧
    { d.aside with resp := none } = { (s.dev.atTime t).aside with resp := none }) := by
  have haside := (s.dev.atTime t).coefNext_aside e
  have hregs := ((s.dev.atTime t).coefNext e).answered_regs ((s.dev.atTime t).coefAt e)
  refine answers_taken (g := (·.coefRead e)) h rfl ?_ ?_
  · rw [Dev.coefRead_eq, Dev.answered_inReset]
    exact Dev.inReset_of_aside haside
  · rw [Dev.coefRead_eq]
    refine ⟨rfl, ?_, Dev.keeps_trans (Dev.coefNext_keeps _ _) (Dev.keeps_of_regs hregs), Dev.answered_aside haside _⟩
    exact (Dev.get_congr _ _ _ _ (Dev.word_congr hregs _)).trans (Dev.get_coefNext _ _)

end

/-- A coefficient of a set that is not in use is stored, one of a set in use is refused, and a read answers the word. -/
theorem coefficientsAreWrittenAndRead_holds : coefficientsAreWrittenAndRead := by
  intro s t e h
  refine ⟨fun v => ?_, answers_coefDataRead h⟩
  cases hused : s.dev.coefUsed e with
  | true =>
    obtain ⟨d, hexec, hidx, hrest⟩ := answers_coefDataWrite_used h hused v
    exact ⟨d, hexec, hidx, fun _ => hrest, fun hfree => absurd (hfree.symm.trans hused) Bool.false_ne_true⟩
  | false =>
    obtain ⟨d, hexec, hidx, hrest⟩ := answers_coefDataWrite_free h hused v
    exact ⟨d, hexec, hidx, fun hu => absurd (hused.symm.trans hu) Bool.false_ne_true, fun _ => hrest⟩

end Sys2Proof.Machine

open Sys2Proof Sys2Proof.Machine

/-- Settles O26, by what HOLD and HELD show of the recorded heads, and by the word that the coefficient window reaches. -/
theorem recorderAndCoefficients : Obligations.RecorderAndCoefficients :=
  ⟨recorderHoldAndKeyframes_holds, coefficientsAreWrittenAndRead_holds⟩
end
